-- ==== Sys2Proof/Word.lean ====
section
/-! DEFINITION. The word types of the SK-4880 and the sparse store that every table, register file
and memory of the model is kept in. -/

namespace Sys2Proof

/-- A 32-bit register word (00_scope.md, Time and notation). -/
abbrev Word := BitVec 32
/-- A byte of HBM, of a packet or of a Parish Book line. -/
abbrev Byte := BitVec 8

/-- A sparse table: pairs of key and value, strictly rising keys, no entry equal to what an unlisted
key reads as. The default of a key is passed to each operation. -/
abbrev Store (α : Type) := List (Nat × α)

namespace Store

/-- What key `k` reads as; an unlisted key reads as its default `d k`. -/
def get {α : Type} (d : Nat → α) : Store α → Nat → α
  | [], k => d k
  | (k', v) :: m, k => if k' = k then v else get d m k

/-- The table without key `k`. -/
def erase {α : Type} : Store α → Nat → Store α
  | [], _ => []
  | (k', v) :: m, k => if k' = k then erase m k else (k', v) :: erase m k

/-- Insertion of a key that the table does not list, in rising key order. -/
def insert {α : Type} (k : Nat) (v : α) : Store α → Store α
  | [] => [(k, v)]
  | (k', v') :: m => if k < k' then (k, v) :: (k', v') :: m else (k', v') :: insert k v m

/-- Write `v` at `k`; writing the default removes the entry. -/
def put {α : Type} [DecidableEq α] (d : Nat → α) (m : Store α) (k : Nat) (v : α) : Store α :=
  if v = d k then erase m k else insert k v (erase m k)

/-- Write `f i` at `base + i` for each of the first `n` keys. -/
def putMany {α : Type} [DecidableEq α] (d : Nat → α) (m : Store α) (base : Nat) : List α → Store α
  | [] => m
  | v :: vs => putMany d (put d m base v) (base + 1) vs

/-- Every listed key is above `lo`, keys rise strictly, and no entry equals its default. -/
def wfFrom {α : Type} [DecidableEq α] (d : Nat → α) : Option Nat → Store α → Bool
  | _, [] => true
  | lo, (k, v) :: m =>
    (match lo with | none => true | some l => decide (l < k)) && decide (v ≠ d k) && wfFrom d (some k) m

/-- The canonical form of a table. -/
def wf {α : Type} [DecidableEq α] (d : Nat → α) (m : Store α) : Bool := wfFrom d none m

end Store

end Sys2Proof
end

