-- ==== Sys2Proof/Syntax.lean ====
section
/-! DEFINITION. The commands of the SK-4880: one constructor for each row of spec/opcode_table.json, with the
operands that the row's rule takes from outside the block. What only picture, sample or bitstream contents or an
analogue measurement decide arrives as an operand (notes/assumptions/3.md). -/

namespace Sys2Proof

/-- A bus master that R10, R292 or R317 tells apart: the host, or core pair p. -/
inductive Master where
  | host
  | cc (p : Fin 8)
  deriving DecidableEq, Repr

/-- An engine page or a gang page (R51, R113). -/
inductive EePage where
  | engine (e : Fin 34)
  | gang (g : Fin 384)
  deriving DecidableEq, Repr

/-- One lane's 10-bit group in a row, abcdei fghj with a first and highest, and the running disparity of the lane's receiver before it
(true: positive), which rows that no command shows have left (R176). -/
structure LaneGroup where
  group : BitVec 10
  rd    : Bool
  deriving DecidableEq, Repr

/-- One point of the CTLE sweep: boost step, inner eye height in mV, eye width in 1/64 UI, and whether a code
violation occurred during the dwell (R190). -/
structure SweepPoint where
  boost : Fin 16
  v     : Nat
  h     : Nat
  cv    : Bool
  deriving DecidableEq, Repr

/-- What one lane showed of a bundle-alignment marker (R182, R184). -/
structure BamLane where
  present : Bool
  seq     : BitVec 8
  id      : BitVec 8
  crc     : BitVec 8
  /-- Lane-to-lane skew in characters. -/
  skew    : Nat
  deriving DecidableEq, Repr

/-- A request to a pseudo-channel controller (R333 to R338, R345). -/
structure MemReq where
  /-- Matrix master number (Table 15-4). -/
  master : Fin 50
  /-- Device address. -/
  addr   : BitVec 35
  /-- How long the request has waited, in ns. -/
  waited : Nat
  write  : Bool
  deriving DecidableEq, Repr

/-- The error a read of the array met: none, a corrected one, one gone at the re-read, one that stays (R345). -/
inductive ReadErr where
  | none | corrected | transient | stays
  deriving DecidableEq, Repr

/-- A segment of an ST 2110-20 packet (R207): the row number and field of its SRD header, its offset in pixels, and its samples in the
order of R199. -/
structure SrdSeg where
  line    : Nat
  second  : Bool
  offset  : Nat
  samples : List (BitVec 16)
  deriving DecidableEq, Repr

/-- Why a lane is declared FAILED (R186). -/
inductive LaneCause where
  | noTransition | lostAlignment | tooManyErrors | retrainFailed
  deriving DecidableEq, Repr

/-- Why an input is declared LOST (R212), other than CAPACITY, which R213 declares itself. -/
inductive LossCause where
  | noSignal | format | late | noPtp
  deriving DecidableEq, Repr

/-- The preamble of an AES3 sub-frame (R262): X of sub-frame A, Y of sub-frame B, Z of the sub-frame A that begins a block, or none. -/
inductive AesPreamble where
  | x | y | z | missing
  deriving DecidableEq, Repr

/-- A clock input of Table 19-6 that CLK_STAT shows. -/
inductive ClockId where
  | eth0 | eth1 | clp | pcie | refClk
  deriving DecidableEq, Repr

/-- A block whose state parity failed is named by a unit and an index (Table 17-3, LOC0 and LOC1). -/
structure ParityLoc where
  unit  : Nat
  index : Nat
  deriving DecidableEq, Repr

/-- The payload of a HEARTBEAT or a beacon (Table 18-1). -/
structure HeartbeatMsg where
  sentPos  : BitVec 64
  echoPos  : BitVec 64
  echoAge  : BitVec 32
  state    : BitVec 14
  gpioOut  : BitVec 32
  deriving DecidableEq, Repr

/-- The payload of a HELLO (Table 18-1): IDENT, raster word, source selection, stepping. -/
structure HelloMsg where
  ident    : Bool
  raster   : BitVec 32
  sel      : Fin 8
  stepping : BitVec 8
  /-- The frame start the primary names once the HELLOs agree, with the primary's frame count there (R394). -/
  named    : Option (BitVec 32)
  deriving DecidableEq, Repr

/-- One record of a SLICE_CRC message (Table 18-1). -/
structure CrcRec where
  channel : Fin 128
  rend    : Fin 4
  tile    : Fin 8
  row     : Fin 256
  emerg   : Bool
  frame   : BitVec 16
  crc     : BitVec 32
  deriving DecidableEq, Repr

/-- The commands, one for each row of spec/opcode_table.json, in the table's order. -/
inductive Instr where
  -- Steeple (01_steeple_time.md)
  | posLoRead (m : Master)
  | steepleEnable
  | steepleDisable
  | sourceSelect (sel : Fin 8) (refclk : Bool) (input : Fin 128)
  | sourceSelectFreeRun (refclk : Bool) (input : Fin 128)
  /-- `err`: FRAC units from the expected frame start, early negative; `ppb`: the source's frame rate against
  STP.RASTER.RATE, in parts per 10^9. -/
  | refFramePulse (err : Int) (ppb : Int)
  | refLost
  | jumpAccept
  | ptpJumpAccept
  | steepleStep
  | actionArm (n : Fin 64) (w : BitVec 32)
  | actionDisarm (n : Fin 64) (w : BitVec 32)
  | actionFire (n : Fin 64)
  -- Channels and the Allotter (02_channels_and_allotment.md)
  | placementEpoch
  | channelEnable (n : Fin 128)
  | channelDisable (n : Fin 128)
  | quiesceSet (n : Fin 128)
  | quiesceClear (n : Fin 128)
  | allotCompact
  | oldExtentFreed (n : Fin 128)
  | channelFrameStart (n : Fin 128)
  | controlLine (n : Fin 128)
  | rotationPoint
  | rotationHandover
  -- The Millpond (03_millpond.md)
  /-- `clocks`: the stall that the refetch makes in the row in coding on a slot (R68). -/
  | mpRefetch (plot : Fin 384) (slot : Fin 32) (clocks : Nat)
  | plotSwap (plot : Fin 384)
  -- Encode engines (04_encode_engines.md, 05_fixed_delay_rate_control.md)
  | gleanerRecordsReady (n : Fin 128) (row : Nat)
  | rowStart (slot : Fin 32)
  | ctuDecide (slot : Fin 32)
  /-- `stalls`: the lengths of the row's stalls in clocks, but for refetches; `fixed`: single-bit errors corrected on its reads of the
  Millpond (R78). -/
  | rowComplete (slot : Fin 32) (stalls : List Nat) (fixed : Nat)
  | engineQuiesce (pg : EePage) (v : Bool)
  | engineHang (e : Fin 34) (stall : Bool)
  | deadlineMiss (n : Fin 128) (rend : Fin 4) (tile : Fin 8) (row : Fin 256)
  | eeStatClr (pg : EePage)
  | chrcStatClr (n : Fin 128)
  -- Compositor and scaler ladder (06_compositor_and_ladder.md)
  /-- `late`: graphics layers whose data has not arrived (R166). -/
  | compositeLine (n : Fin 128) (line : Nat) (late : List (Fin 8))
  | ladderLine (n : Fin 128) (stage : Fin 3) (line : Nat)
  | chcompCommit (n : Fin 128)
  | commitCopy (n : Fin 128)
  | layerRelease (n : Fin 128)
  | lutEntryWrite (n : Fin 128)
  | lutEntryRead (n : Fin 128)
  /-- `go`: the write also sets GO. -/
  | lutPresetGo (n : Fin 128) (preset : Fin 4) (go : Bool)
  -- Celtil lanes (07_celtil_lanes.md)
  | clpEnable (n : Fin 10)
  | clpDisable (n : Fin 10)
  | laneCdrLock (n : Fin 10) (p : Fin 8)
  | laneCdrTimeout (n : Fin 10) (p : Fin 8)
  | laneAdaptComplete (n : Fin 10) (p : Fin 8) (points wide : List SweepPoint)
  | laneAlignComplete (n : Fin 10) (p : Fin 8) (skew : Nat)
  | laneAlignTimeout (n : Fin 10) (p : Fin 8)
  /-- `chars`: the eight lanes' groups of one data row; `linkX`: link 9X of CLP9. -/
  | clpDataRow (n : Fin 10) (linkX : Bool) (chars : List LaneGroup)
  | bamSend (n : Fin 10) (linkX : Bool)
  /-- `skp`: SKP rows deleted (negative) or repeated (positive). -/
  | bamReceived (n : Fin 10) (linkX : Bool) (lanes : List BamLane) (skp : Int)
  | laneFailed (n : Fin 10) (p : Fin 8) (cause : LaneCause)
  /-- `crc`: the set's CRC-8 as received. -/
  | narrow (n : Fin 10) (linkX : Bool) (mask crc : BitVec 8)
  | narrowAck (n : Fin 10) (linkX : Bool) (mask crc : BitVec 8)
  /-- `rx`: none when the set is sent, the mask and the CRC-8 received when one is received. -/
  | status (n : Fin 10) (linkX : Bool) (rx : Option (BitVec 8 × BitVec 8))
  | clpBundleDown (n : Fin 10) (linkX : Bool)
  | retrain (n : Fin 10) (p : Fin 8)
  | autoRetrain (n : Fin 10) (p : Fin 8)
  | lanePowerRequest (n : Fin 10) (w : BitVec 32)
  | laneClr (n : Fin 10) (p : Fin 8)
  -- Ingest (08_ingest.md)
  /-- `chars`: the eight lanes' groups of the control row that ends the packet in assembly. -/
  | clpPacket (n : Fin 10) (linkX : Bool) (chars : List LaneGroup)
  | rasterPacket (i : Fin 128) (word : BitVec 32) (payload : List (BitVec 8)) (bundleB : Bool)
  | ancillaryPacket (i : Fin 128) (line : BitVec 14) (words : List (BitVec 10))
  | audioPacket (i : Fin 128) (word : BitVec 32) (samples : List (BitVec 32))
  | formatPacket (i : Fin 128) (payload : List (BitVec 8))
  /-- `seq`: the extended sequence number; `rtp`: the RTP timestamp; `segs`: its SRD segments; `len`: the IP total length; `fifo`: the
  port FIFO's fill in bytes. -/
  | st2110Packet (i : Fin 128) (pathB : Bool) (seq rtp : BitVec 32) (segs : List SrdSeg) (len fifo : Nat)
  | lineMissing (i : Fin 128) (line : Nat) (half : Fin 3)
  | inputLost (i : Fin 128) (cause : LossCause)
  | freezeExpired (i : Fin 128)
  | inputReturned (i : Fin 128)
  | ingestPathDown (i : Fin 128) (pathB : Bool)
  | inputEnable (i : Fin 128)
  | inStatClr (i : Fin 128)
  | ingTableRead
  | ingTableWrite
  -- Egress (09_egress_traffic_manager.md)
  | payloadUnitRelease (n : Fin 128) (rend : Fin 4)
  | portTransmit (p : Fin 10)
  | etmTableRead
  | etmTableWrite
  | etmTableReadClr
  | eportCommit (p : Fin 10)
  | calendarCopy (p : Fin 10)
  | sample
  -- Ethernet ports and network time (10_network_time.md)
  | ethEnable (x : Fin 4)
  | ethStatClr (x : Fin 4)
  /-- `bytes`: from the destination MAC address through the FCS. -/
  | linePortFrame (x : Fin 2) (bytes : List (BitVec 8))
  | cascadeFrame (x : Fin 2) (bytes : List (BitVec 8))
  | linePortDown (x : Fin 4) (sub : Fin 4)
  | ptpEnable
  /-- A Sync with the Follow_Up of a two-step one: origin time in ns, corrections in 2^-16 ns; `ppb`: the grandmaster's rate against
  STP.RASTER.RATE at SYSCLK. -/
  | sync (x : Fin 4) (domain : BitVec 8) (origin : Nat) (corr ppb : Int)
  | syncSend (x : Fin 4)
  /-- `gm` and `utc`: what the message says. What the BMCA, which the network thread runs, decides after it: `best`, the grandmaster;
  `state`, the slave port's IEEE 1588 state; `master`, the ports that get the master role. -/
  | announce (x : Fin 4) (domain : BitVec 8) (gm : BitVec 64) (utc : BitVec 16) (best : BitVec 64) (state : Fin 16) (master : BitVec 4)
  | delayReqSend
  /-- `source`: identity of the requesting port. -/
  | delayReq (x : Fin 4) (domain : BitVec 8) (seq : BitVec 16) (source : BitVec 80) (corr : Int)
  /-- `received`: receiveTimestamp in ns. -/
  | delayResp (x : Fin 4) (domain : BitVec 8) (seq : BitVec 16) (received : Nat) (corr : Int)
  | announceTimeout
  | syncTimeout
  | portStateRead (m : Master)
  -- Audio (11_audio.md)
  | audEnable
  /-- One sub-frame of AES3 input `i`: its preamble, its bits 4 to 31 (bit 4 first), whether a biphase violation occurred outside the
  preamble, the rate error in ppm measured over the last 64 frames. -/
  | aes3Subframe (i : Fin 16) (pre : AesPreamble) (bits : BitVec 28) (violation : Bool) (ppm : Int)
  | audioMasterLost
  /-- `bits`: the 64 bits of microphone `m` since its last sample, the oldest lowest. -/
  | pdmSample (m : Fin 8) (bits : BitVec 64)
  /-- `payload`: the RTP payload. -/
  | networkAudioPacket (flow : Fin 256) (pathB : Bool) (seq : BitVec 16) (rtp : BitVec 32) (payload : List (BitVec 8))
  | gridInstant
  | outputConfigApply (o : Fin 16) (w : BitVec 32)
  | s302mPesRelease (n : Fin 128) (k : Fin 4)
  | aes67PacketRelease (n : Fin 128) (k : Fin 4)
  | audTableRead
  | audTableWrite
  -- Monitor head (12_monitor_head.md)
  | monEnable
  /-- `late`: items whose data has not arrived: tiles 0 to 63, overlays 64 to 67. -/
  | monitorLine (line : Nat) (late : List (Fin 68))
  | monCommit
  | monCommitCopy
  /-- `readback`: the payload bytes that the transmit pads show, in line order (R286). -/
  | frameDone (readback : List (BitVec 8))
  -- Control cores and the Reeve (13_control_cores_and_reeve.md)
  | doorbellReady (m : Master) (t : Fin 4096)
  | doorbellCancel (m : Master) (t : Fin 4096)
  | doorbellPrio (m : Master) (t : Fin 4096) (prio : Fin 64)
  | doorbellAffinity (m : Master) (t : Fin 4096) (mask : BitVec 8)
  | doorbellDeadline (m : Master) (t : Fin 4096) (dl : BitVec 16)
  | doorbellReserved (m : Master) (op : Fin 16)
  | reeveStall
  | listEngineOperation
  | nextRead (m : Master) (p : Fin 8)
  | doneWait (p : Fin 8)
  | doneYield (p : Fin 8)
  | threadLate (t : Fin 4096)
  | reeveParity (loc : ParityLoc)
  | reeveTableRead
  | reeveTableWrite (m : Master)
  | drain (p : Fin 8)
  | drained (p : Fin 8)
  | undrain (p : Fin 8)
  | load (p : Fin 8)
  | loadComplete (p : Fin 8)
  | ccLockstep (p : Fin 8)
  | pairRestartComplete (p : Fin 8)
  -- The Belfry (14_belfry_interrupts.md)
  | sourceAssertion (src : Fin 4096)
  | sourceDeassert (src : Fin 4096)
  | arbitration (b : Fin 64)
  /-- `bell`: none for the root page's CLAIM_t. -/
  | claim (m : Master) (bell : Option (Fin 64)) (t : Fin 9)
  | complete (m : Master) (bell : Option (Fin 64)) (t : Fin 9) (src : Fin 4096)
  | pendingWrite (b : Fin 64) (hi : Bool) (w : BitVec 32)
  | orphanClr
  | belfryParity (loc : ParityLoc)
  -- HBM and the fabric (15_hbm_and_fabric.md)
  | hbmLayoutCommit
  | bar2Write (off : BitVec 28) (bytes : List (BitVec 8))
  | bar2Read (off : BitVec 28) (len : Fin 9)
  | memoryRequest (c : Fin 32) (arrivals : List MemReq) (err : ReadErr)
  | refreshDue (c : Fin 32)
  | refreshMakeup (c : Fin 32)
  | selfRefreshEntry (c : Fin 32)
  /-- `trim`: the largest trim offset after the window, in signed steps, and its pin. -/
  | trackingWindow (c : Fin 32) (trim : Int) (pin : BitVec 8)
  /-- `ok`: a working setting was found; `salvage`: the controller comes up at the salvage rate. -/
  | retrainComplete (c : Fin 32) (ok salvage : Bool)
  | hbmPcRetired (c : Fin 32)
  | hbmParity (loc : ParityLoc)
  | mtxParity (loc : ParityLoc)
  | pchStatClr (c : Fin 32)
  /-- `m`: the master; a BAR0 access that names no page or that R453 does not perform. -/
  | decodeErr (m : Master) (offset : BitVec 26) (size : Fin 9) (write : Bool)
  -- Check values and the Parish Book (16_check_values_and_parish_book.md)
  | cvuGo (n : Fin 4) (loadInit : Bool)
  | cvuAbort (n : Fin 4)
  | cvuScanDone (n : Fin 4)
  /-- `count`: bytes the unit has read by the stop; `err`: it met an uncorrectable error there. -/
  | cvuScanStopped (n : Fin 4) (count : Nat) (err : Bool)
  | bookLineProgram (verifyOk : Bool)
  | bookRead
  | snap
  | recordClose (n : Fin 128)
  -- Faults, the Watch and the Sexton (17_single_fault_guarantee.md)
  | faultSummary
  | faultLog
  | serviceReentry
  | recoveryEntry
  | recoveryExit
  | watchStatClr
  /-- `step`: 0 when the whole set passes, else the first failing step. -/
  | loanTestComplete (step : Nat)
  | plotMarchTest (plot : Fin 384) (ok : Bool)
  | patrolScrub (err : ReadErr)
  | matrixPathTest (ok : Bool)
  | lanePrbsTest (n : Fin 10) (p : Fin 8) (ok : Bool)
  | sextonEnableWrite (v : Bool)
  | sextonStatClr
  -- Twin operation (18_twin_operation.md)
  | stileEnable
  | stileDisable
  | hello (msg : HelloMsg)
  | helloSend
  | stepIn
  | heartbeatSend
  /-- A valid or invalid HEARTBEAT as received (R393). -/
  | heartbeat (msg : HeartbeatMsg)
  | sliceCrc (records : List CrcRec)
  | crcMissing (own : Bool) (r : CrcRec)
  | digest (frame : BitVec 32) (place cfg : BitVec 64)
  | targetedTestComplete (step : Nat)
  | testResult (channel : Fin 128) (rend : Fin 4) (tile : Fin 8) (row : Fin 256) (engine : Fin 34) (pass : Bool)
  | resolutionEnd
  | resyncGo
  | resync (mask : BitVec 128) (start : BitVec 32)
  | resyncApplied
  | roleSwap
  | swap (frame : BitVec 32)
  | swapApplied
  | roleOutputHandoverEnd
  | beaconSend
  | beacon (msg : HeartbeatMsg)
  | twinHeartbeatLost
  | stileDown
  | holdoffExpired (token : Bool)
  | tokenReadback (token : Bool)
  | dualRelease
  -- Modes, start-up and power (19_modes_startup_power.md)
  | modeReqCommission (at_ : BitVec 16)
  | modeReqService (at_ : BitVec 16)
  | modeReqTest (at_ : BitVec 16)
  | modeChange
  | porN
  | resetN
  | swreset (key : BitVec 16)
  | pcieHotReset
  | resetRelease
  | clocks (badClock : Bool)
  /-- `trained`: bit c for a controller that found a working setting. -/
  | hbmTraining (trained : BitVec 32)
  /-- `image`: the payload as it streams to the SYSTEM region. -/
  | imageLoad (image : List (BitVec 8))
  /-- Headers of slots A and B (Table 19-7), and the payload that slot B holds. -/
  | imageVerify (a b : List (BitVec 8)) (payload : List (BitVec 8))
  | cores
  | book
  /-- `passed`: bit e for an engine that passed its start-up test. -/
  | engines (passed : BitVec 34)
  /-- `record`: the boot configuration record, offset and value pairs (R425); `ms`: milliseconds from POR_N release. -/
  | config (record : List (BitVec 26 × BitVec 32)) (ms : Nat)
  | clockLost (c : ClockId)
  | pwrFail
  | bookReopen
  | rollbackCommit
  -- Register pages (21_register_pages.md)
  | evtWrite (page : Fin 0x4000) (w : BitVec 32)
  | pageEnableCheck (page : Fin 0x4000)
  | registerWrite (m : Master) (addr : BitVec 26) (w : BitVec 32) (byteEn : BitVec 4)
  -- Rows added at the end of the table
  | portLinkUp (x : Fin 4) (sub : Fin 4)
  | clockPresent (c : ClockId)
  | pcieLinkUp
  | msixEnable (enable mask : Bool)
  | announceSend (x : Fin 4)
  | wfi (p : Fin 8)
  | pwrFailNHigh
  | characterAlignment (n : Fin 10) (p : Fin 8)
  | lanePowerExit (n : Fin 10) (p : Fin 8)
  deriving DecidableEq, Repr

end Sys2Proof
end

