-- ==== Sys2Proof/Decode.lean ====
section
/-! DEFINITION. The word that spells a command. No row of spec/opcode_table.json gives bits, so no word spells one. -/

namespace Sys2Proof

/-- The command that `nbits` bits of `w` spell by the table's bits: none, since no row of the table has any. -/
def decodeTableWord (_nbits _w : Nat) : Option Instr := none

end Sys2Proof
end

