-- ==== Sys2Proof/Coding.lean ====
section
/-! DEFINITION. What the encode engines put into an access unit (04_encode_engines.md) as syntax: the parameter sets, messages
and slice headers that the rules state field by field, and what a CTU is coded from. The binary form of each is H.265's and
H.266's, outside the spec (Config). -/

namespace Sys2Proof

/-- NAL unit types of slices (R101 to R104). `leading`: a picture that follows a CRA picture in decoding order and precedes it in
output order, whose type the spec does not name. -/
inductive SliceNal where
  | idrNLp | idrWRadl | cra | gdrNut | trail | leading
  deriving DecidableEq, Repr

/-- Tools of Table 4-4 that a control or the class turns on or off, as the parameter sets of a codec signal them. -/
structure ToolSet where
  amp        : Bool
  cclm       : Bool
  tmvp       : Bool
  affine     : Bool
  /-- MMVD, AMVR. -/
  mmvd       : Bool
  /-- SMVD, BCW. -/
  smvd       : Bool
  gpm        : Bool
  ciip       : Bool
  dmvrBdof   : Bool
  /-- Weighted prediction flags of the PPS (R106). -/
  weighted   : Bool
  /-- MTS, SBT, LFNST. -/
  mts        : Bool
  /-- Largest transform-skip block; 0 when the tool is off. -/
  tskip      : Nat
  rdoqHiding : Bool
  depQuant   : Bool
  jccr       : Bool
  scalingDefault : Bool
  deblock    : Bool
  /-- beta and tC offsets ÷ 2. -/
  beta       : Int
  tc         : Int
  sao        : Bool
  alf        : Bool
  ccalf      : Bool
  lmcs       : Bool
  /-- Decoded picture hash SEI (CRC). -/
  hash       : Bool
  /-- ISP, MIP, palette, IBC, ACT, PCM, lossless, long-term references, wavefronts, subpictures, resampling. -/
  others     : Bool
  deriving DecidableEq, Repr

/-- The HRD of Table 5-3: bit/s, bits, seconds as numerator and denominator. -/
structure Hrd where
  bitRate : Nat
  cbr     : Bool
  cpb     : Nat
  removal : Nat × Nat
  /-- Decoding-unit HRD: one unit per CTU row, removed one row time after its E. -/
  units   : Bool
  deriving DecidableEq, Repr

/-- What the VPS, SPS and PPS of a rendition state. -/
structure ParamSets where
  vvc        : Bool
  /-- profile_idc, with the Main 4:2:2 10 constraint flags (Table 4-3). -/
  profileIdc : Nat
  main422    : Bool
  high       : Bool
  level      : Nat
  w          : Nat
  h          : Nat
  c422       : Bool
  deep       : Bool
  ctu        : Nat
  /-- Tile column widths in CTUs, and CTU rows of a slice (R98, Table 4-5). -/
  tiles      : List Nat
  sliceRows  : Nat
  /-- In-loop filters act across tile and slice boundaries (R98). -/
  filterAcross : Bool
  tools      : ToolSet
  /-- colour_primaries, transfer_characteristics, matrix_coeffs; video_full_range_flag (R110). -/
  colour     : Nat × Nat × Nat
  fullRange  : Bool
  /-- field_seq_flag (R109). -/
  fieldSeq   : Bool
  hrd        : Option Hrd
  deriving DecidableEq, Repr

/-- The SEI messages that the rules name. -/
inductive Sei where
  /-- HEVC (R101). -/
  | recoveryPoint (cnt : Nat) (exact broken : Bool)
  | bufferingPeriod (removal : Nat × Nat)
  /-- `top`: none on a progressive picture (R109, R129). -/
  | picTiming (top : Option Bool)
  /-- VVC (R109). -/
  | frameField (top : Bool)
  | masteringDisplay (words : List Word)
  | contentLight (word : Word)
  | alternativeTransfer (tc : Nat)
  /-- The CRC of the decoded picture (HASH_ON). -/
  | pictureHash (crc : Nat)
  deriving DecidableEq, Repr

/-- What a slice header states, with the picture header of VVC. -/
structure SliceHead where
  nal    : SliceNal
  /-- 0 I, 1 P, 2 B. -/
  kind   : Nat
  poc    : Nat
  tid    : Nat
  /-- POCs of the two reference lists. -/
  list0  : List Nat
  list1  : List Nat
  /-- Weight of the first reference in 1/256; chroma weights are 1 (R106). -/
  weight : Option Nat
  /-- ph_recovery_poc_cnt and the vertical virtual boundary in luma samples (R101). -/
  recovery : Option Nat
  boundary : Option Nat
  /-- ALF filters of the picture's APS; none where the fixed filter sets are used (R96). -/
  alf    : Option (List Nat)
  lmcs   : Option (List Nat)
  /-- Deblocking, SAO and ALF are disabled within the slice (R138). -/
  plain  : Bool
  tile   : Nat
  row    : Nat
  rows   : Nat
  deriving DecidableEq, Repr

/-- A coded CTU: the bits that Entropy makes of it, context-coded and bypass bins (R136), whether it is intra or skip, its modes
and its unfiltered reconstruction, luma before Cb and Cr. -/
structure CtuCode where
  bits    : Nat
  ctxBins : Nat
  bypBins : Nat
  intra   : Bool
  skip    : Bool
  modes   : Nat
  recon   : List Nat
  deriving DecidableEq, Repr, Inhabited

/-- A CTU before the in-loop filters: its code, its QP, and whether deblocking, SAO and ALF are disabled within its slice (R138). -/
structure DoneCtu where
  code  : CtuCode
  qp    : Int
  plain : Bool
  deriving DecidableEq, Repr

/-- All that the choice of a CTU's modes may depend on (R84). -/
structure CtuIn where
  /-- The channel's RWE configuration as far as it governs the rendition. -/
  config : List Word
  head   : SliceHead
  col    : Nat
  row    : Nat
  qp     : Int
  /-- Every CU is to be intra coded. -/
  intra  : Bool
  /-- Source samples, luma before Cb and Cr. -/
  source : List Nat
  /-- The Gleaner's record: INTRA, INTER, ACT, MEAN, CUT, STATIC. -/
  record : List Nat
  /-- The vector that the search is centred on: none for the zero vector and spatial predictors alone (R105). -/
  centre : Option (Int × Int)
  /-- Of each reference: luma samples of the window and chroma samples that may be read, none for any other sample (R68, R100). -/
  luma   : List (List (Option Nat))
  chroma : List (List (Option Nat))
  /-- Unfiltered reconstruction of the left, above-left, above and above-right CTUs, as far as it may be read. -/
  near   : List (List Nat)
  /-- The CTUs of the slice before this one, without their reconstruction. -/
  before : List CtuCode
  /-- Modes of the co-located CTU, and of the one to its right, in the first reference, where temporal prediction is used. -/
  colloc : List Nat
  deriving DecidableEq, Repr

/-- A NAL unit. -/
inductive Nal where
  | aud
  | vps (p : ParamSets)
  | sps (p : ParamSets)
  | pps (p : ParamSets)
  | alfAps (filters : List Nat)
  | lmcsAps (model : List Nat)
  | sei (x : Sei)
  | slice (h : SliceHead) (ctus : List CtuCode)
  deriving DecidableEq, Repr

end Sys2Proof
end

