-- ==== Sys2Proof/Config.lean ====
section
/-! DEFINITION. What the spec leaves open or takes from an outside standard: constants without a body, so that no
proof can see a value of them. -/

namespace Sys2Proof.Config

/-- A bit that the spec leaves open, drawn by the counter of free values (notes/assumptions/5.md). -/
opaque freeBit : Nat → Bool
/-- A value that the spec leaves open. -/
opaque freeNat : Nat → Nat

/-- H.265 and H.266 level limits, which the spec names and does not print (R40 test 4, R93, R94), over the list of codec, level_idc,
tier, width, height, luma samples per second × 1000, tile columns, slices per picture. -/
opaque levelAdmits : List Nat → Bool
/-- Maximum bit rate of a level, tier and profile in kbit/s (R142). -/
opaque levelMaxRate : Nat → Nat → Nat → Nat → Nat

/-- Size of the slew that the servo applies to a phase error, from which R20 takes 1 to 10,000 parts per 10^9. -/
opaque slew : Int → Nat → Nat

/-- Belfry source that the Allotter binds to a multiplexing thread; Table 13-1 names none. -/
opaque muxSource : Nat → Nat → Nat
/-- Result of a division of R135 by 0, of which the spec states none. -/
opaque divZero : Int → Int
/-- Byte address within a channel's extent of a buffer of Table 2-5, which gives the buffers and no order or use of them: channel,
kind (1 encode source, 2 scaled source, 3 reconstruction), stage or rendition, frame or picture. -/
opaque bufferAt : Nat → Nat → Nat → Nat → Nat

/-- Where the spec divides and states no rounding: whether a quotient that is not whole is taken up, and a tie in a rounding to
the nearest (numerator, denominator). -/
opaque roundUp : Nat → Nat → Bool
/-- What a filter or a search takes for a sample beyond the picture's edge, given the sample at the edge. -/
opaque edge : Nat → Nat
/-- An 8-bit sample of the one-eighth-scale store from its 8 × 8 luma samples (R87). -/
opaque decimate : List Nat → Nat
/-- Which of several vectors of equal SAD the Gleaner keeps: an index into the list. -/
opaque tieVector : List (Int × Int) → Nat
/-- Fade ratio of a cell whose co-located block is black, in 1/256 (R90). -/
opaque darkRatio : Nat → Nat

/-- Rate-distortion choice, and the entropy coding of H.265 and H.266 (R82, R84): a CTU's code; its planar intra fallback without
residual; the bits of a skip CTU; the bits of a slice header with its end. -/
opaque codeCtu : CtuIn → CtuCode
opaque codePlanar : CtuIn → CtuCode
opaque skipBits : CtuIn → Nat
opaque headBits : SliceHead → Nat
/-- In-loop filters of one CTU over it and its eight neighbours in raster order: RWE words, ALF filters, LMCS model, the nine CTUs,
none for one that lies outside the picture or beyond a virtual boundary (R98, R101). -/
opaque filterCtu : List Word → Option (List Nat) → Option (List Nat) → List (Option DoneCtu) → List Nat
/-- ALF and CC-ALF filters from the source and the reconstruction of a picture; the LMCS model from a picture's source (R96). -/
opaque alfFilters : List Nat → List Nat → List Nat
opaque lmcsModel : List Nat → List Nat
/-- The bytes of a NAL unit, emulation prevention included: of any but a slice, and byte `i` of a slice's. -/
opaque nalBytes : Nal → List (BitVec 8)
opaque sliceByte : Nal → Nat → BitVec 8
/-- The CRC of a decoded picture hash (HASH_ON). -/
opaque pictureCrc : List Nat → Nat
/-- PTS of an access unit in format 2: rendition, 90 kHz time of its input picture's channel frame, second field. R221 gives it no
value. -/
opaque pts : Nat → Nat → Bool → Nat
/-- DTS of an access unit in format 2: rendition, picture in decoding order, 90 kHz time. R221 gives it no value. -/
opaque dts : Nat → Nat → Nat → Nat
/-- Bytes of the TS packet that carries a PAT (0) or PMT (1) section, which the multiplexing thread of a rendition writes (R221). -/
opaque sectionByte : Nat → Nat → Nat → BitVec 8
/-- RTP sequence number of an AES67 stream's first packet, which R275 does not give. -/
opaque aesSeq : Nat → Nat
/-- What R248 leaves of a PTP message to IEEE 1588 and the profile: clock identity, flags of a message type, clockQuality, timeSource and
currentUtcOffset of an Announce, DSCP and TTL of the datagram. -/
opaque clockId : BitVec 64
opaque ptpFlags : Nat → BitVec 16
opaque clockQuality : BitVec 32
opaque timeSource : BitVec 8
opaque ownUtc : BitVec 16
opaque ptpDscp : BitVec 6
opaque ptpTtl : BitVec 8
/-- Header bytes that RFC 7798 and RFC 9328 put before or between NAL unit data in a payload unit: NAL units or fragment carried. -/
opaque rtpHeader : Nat → List (BitVec 8) → Nat → BitVec 8
/-- Bytes of the placement record of a channel for the digest; R56 gives its items and no layout. -/
opaque placeBytes : Nat → List Nat → List Nat
/-- A byte of the Parish Book as a line that nothing has written since the model's start holds it: key area × 65536 + ring
position, byte. -/
opaque bookByte : Nat → Nat → BitVec 8
/-- SHA-384, the key hashes in the fuses, and whether an ECDSA P-384 signature of a hash verifies under a public key (R422). -/
opaque sha384 : List Nat → List Nat
opaque keyHash : Nat → List Nat
opaque ecdsaP384 : List Nat → List Nat → List Nat → Bool
/-- SHA-256 (R370). -/
opaque sha256 : List (BitVec 8) → List (BitVec 8)

/-- Y'CbCr to R'G'B' and back with a channel matrix, 0 BT.709, 1 BT.2020 non-constant luminance (R152): 10-bit narrow-range codes
to such codes in 1/65,536; R'G'B' as fractions of a full scale to codes rounded to 10 bits. -/
opaque toRgb : Nat → Nat × Nat × Nat → Int × Int × Int
opaque fromRgb : Nat → Nat → Nat × Nat × Nat → Nat × Nat × Nat
/-- Chroma of a monitor line's sample pair from that of its two pixels, where they differ: the spec states no filter (R279). -/
opaque interp : Nat → Nat → Nat
/-- The mean of a group of samples in a monitor tile (R280), whose rounding the spec does not state. -/
opaque average : List Nat → Nat
/-- A sample that only picture contents outside the model decide: draw, place. -/
opaque freeSample : Nat → Nat → Nat
/-- PQ and HLG curves of BT.2100 (R154): preset, table, entry. -/
opaque presetLut : Nat → Nat → Nat → BitVec 18
/-- The windowed sinc of R169: FILTER, input and output size, phase in 1/64, the samples under the taps. -/
opaque taps : Nat → Nat → Nat → Nat → List Nat → Nat

/-- The decimator's and the DFE's analogue settings are not in the spec; RAAIMT and RAAMMT come from the stack at
training (R336). -/
opaque raaimt : Nat → Nat
/-- Bank-group and bank bits and row bits of a pseudo-channel's local address (R330), whose places the spec does not give. -/
opaque bankBits : Nat → BitVec 6
opaque rowBits : Nat → Nat
/-- What a 64-byte line of HBM holds of data whose place the spec does not give (R346): a payload unit (rendition, number), a flow
context, a delayed audio sample (source, stamp). -/
opaque lineUnit : Nat → Nat → Nat → Bool
opaque lineFlow : Nat → Nat → Bool
opaque lineAudio : Nat → Nat → Int → Bool
opaque raammt : Nat → Nat
/-- What ST 302M puts into a PES packet for some samples (R274), by byte. -/
opaque s302Byte : List (BitVec 24) → Nat → BitVec 8
/-- The decimator of a microphone (R265): its filters' state after 64 more bits, with the high-pass or without. -/
opaque pdmStep : Bool → Nat → BitVec 64 → Nat
/-- Its output at a gain step and a state. -/
opaque pdmOut : Nat → Nat → BitVec 24
/-- Proportional and integral gain of the audio PLL's loop at a LOOP_BW (R260), in 2^-20 ppm for each frame of error. -/
opaque loopGains : Nat → Nat × Nat
/-- Bytes 0 to 22 of the professional channel status of AES3 at a sample rate with 24-bit words (R273). -/
opaque aesStatus : Nat → Nat → Nat
/-- A byte of a region whose contents are undefined (R331, R344): draw, address. -/
opaque hbmByte : Nat → Nat → BitVec 8
/-- WORD of a Stile packet by its TYPE, and the eight bytes of a HELLO: IDENT, raster, source selection, stepping, frame named (R389,
Table 18-1). -/
opaque stileWord : Nat → Nat
opaque helloByte : Bool → BitVec 32 → Nat → BitVec 8 → Option (BitVec 32) → Nat → BitVec 8
/-- What the payload of a received HELLO says: IDENT, raster, source selection, stepping, frame named. -/
opaque helloFields : List Nat → Bool × BitVec 32 × Nat × BitVec 8 × Option (BitVec 32)
/-- Where in the SYSTEM region the boot image is loaded (R421). -/
opaque imageAt : Nat
/-- Fuses of the part: DEBUG_LOCK, revoked key slots, rollback count (FUSE_STAT). -/
opaque fuses : BitVec 32
/-- Parish Book counts since manufacture and highest program count (R361, WEAR_MAX). -/
opaque bookCount : Nat → BitVec 64
opaque wearMax : BitVec 32
/-- How often each physical Book line had been programmed before the model's start. -/
opaque lineWear : Nat → Nat

end Sys2Proof.Config
end

