-- ==== Sys2Proof/Machine/Bits.lean ====
section
/-! DEFINITION. Arithmetic, byte-order and check-value helpers that the other files of the machine share. -/

namespace Sys2Proof

/-- Saturation at the all-ones value of a field of `w` bits (R8). -/
def satTo (w n : Nat) : Nat := min n (2 ^ w - 1)

/-- Rounded-up quotient; 0 when the divisor is 0. -/
def ceilDiv (a b : Nat) : Nat := if b = 0 then 0 else (a + b - 1) / b

/-- A quotient whose rounding the spec does not state: taken down, or up where Config.roundUp says so; 0 when the divisor is 0. -/
def roundOpen (a b : Nat) : Nat := a / b + if decide (b ≠ 0 ∧ a % b ≠ 0) && Config.roundUp a b then 1 else 0

/-- A quotient rounded to the nearest, a tie as Config.roundUp says; 0 when the divisor is 0. -/
def roundNear (a b : Nat) : Nat :=
  a / b + if b ≠ 0 ∧ (b < 2 * (a % b) ∨ (b = 2 * (a % b) ∧ Config.roundUp a b = true)) then 1 else 0

/-- Largest number below 2^w of which `le` holds, `le` holding of 0 and of every number below one of which it holds. -/
def bisect (le : Nat → Bool) : Nat → Nat → Nat
  | 0, x => x
  | w + 1, x => bisect le w (if le (x + 2 ^ w) then x + 2 ^ w else x)

/-- A whole power of a fraction, taken to the nearest or left to Config.roundUp: the number x below 2^18 next to
262,143 × (a ÷ b)^(p ÷ q). -/
def curveEntry (a b p q : Nat) : Nat :=
  let x := bisect (fun x => decide (x ^ q * b ^ p ≤ 262143 ^ q * a ^ p)) 18 0
  if x ^ q * b ^ p = 262143 ^ q * a ^ p then x else min 262143 (x + if Config.roundUp a (b * 100 + p) then 1 else 0)

/-- Entry `i` of the SDR curves (R154): BT.1886 with exponent 2.4, black 0 and white 1, from 16-bit to 18-bit values, and its
inverse. DEDUCED: 65,535 and 262,143 are white, and entry i stands at the values 64·i and 256·i that index it exactly
(notes/assumptions/44.md). -/
def sdrEntry (table i : Nat) : Nat := if table = 0 then curveEntry (64 * i) 65535 12 5 else curveEntry (256 * i) 262143 5 12

/-- Truncating signed division, the division of R135. -/
def tdiv (a b : Int) : Int := Int.tdiv a b

/-- The clamp of R133, R135 and R155. -/
def clampI (x lo hi : Int) : Int := max lo (min x hi)

/-- The signed difference a − b of two counts modulo 2^w (R12, R362). -/
def sdiff {w : Nat} (a b : BitVec w) : Int := (a - b).toInt


/-- The least key of a list by a measure, the earlier element on a tie. -/
def minBy {α : Type} (lt : α → α → Bool) : List α → Option α
  | [] => none
  | a :: l =>
    match minBy lt l with
    | none => some a
    | some b => if lt b a then some b else some a

/-- The first element that satisfies a test. -/
def firstThat {α : Type} (p : α → Bool) : List α → Option α
  | [] => none
  | a :: l => if p a then some a else firstThat p l

/-- Insert before the first element that the new one does not come after. -/
def insertBy {α : Type} (le : α → α → Bool) (a : α) : List α → List α
  | [] => [a]
  | b :: l => if le a b then a :: b :: l else b :: insertBy le a l

/-- A list in order; equal elements keep their order. -/
def sortBy {α : Type} (le : α → α → Bool) (l : List α) : List α := l.foldr (insertBy le) []

/-- The middle element; the upper one of an even number. -/
def median (l : List Nat) : Nat := (sortBy (fun a b => decide (a ≤ b)) l).getD (l.length / 2) 0

/-- The sum of a list of naturals. -/
def sumN (l : List Nat) : Nat := l.foldl (· + ·) 0

/-- The CRC of R357: bytes in address order, most significant bit first after the optional reflection. -/
def crcBit (w : Nat) (poly cur : Nat) (b : Bool) : Nat :=
  let top := (cur / 2 ^ (w - 1)) % 2 = 1
  let sh := (cur * 2) % 2 ^ w
  if (decide top) != b then Nat.xor sh (poly % 2 ^ w) else sh

/-- Bits 7 down to 0 of a byte. -/
def byteBits (b : Nat) : List Bool :=
  [7, 6, 5, 4, 3, 2, 1, 0].map (fun i => decide ((b / 2 ^ i) % 2 = 1))

/-- `n` bits of `v` in reverse order. -/
def reflectN : Nat → Nat → Nat
  | 0, _ => 0
  | n + 1, v => (v % 2) * 2 ^ n + reflectN n (v / 2)

/-- One byte of the running value (R357). -/
def crcByte (w poly : Nat) (refin : Bool) (cur : Nat) (b : Nat) : Nat :=
  (byteBits (if refin then reflectN 8 b else b)).foldl (crcBit w poly) cur

/-- The running value over a list of bytes (R357). -/
def crcRun (w poly : Nat) (refin : Bool) (cur : Nat) (bs : List Nat) : Nat :=
  bs.foldl (crcByte w poly refin) cur

/-- The final step of R357: output reflection, then the final XOR. -/
def crcOut (w xorout : Nat) (refout : Bool) (cur : Nat) : Nat :=
  Nat.xor (if refout then reflectN w cur else cur) (xorout % 2 ^ w)

/-- CRC-32 of IEEE 802.3 (R115, R198, R358, R365). -/
def crc32 (bs : List Nat) : Nat :=
  crcOut 32 0xFFFFFFFF true (crcRun 32 0x04C11DB7 true 0xFFFFFFFF bs)

/-- CRC-32C, check A of a Parish Book line (R365). -/
def crc32c (bs : List Nat) : Nat :=
  crcOut 32 0xFFFFFFFF true (crcRun 32 0x1EDC6F41 true 0xFFFFFFFF bs)

/-- CRC-64 of ECMA-182, not reflected, all-ones initial value and final XOR (R56). -/
def crc64 (bs : List Nat) : Nat :=
  crcOut 64 0xFFFFFFFFFFFFFFFF false
    (crcRun 64 0x42F0E1EBA9EA3693 false 0xFFFFFFFFFFFFFFFF bs)

/-- CRC-8 of a link-management set and of a marker: polynomial 0x07, initial value 0 (R180, R182). -/
def crc8 (bs : List Nat) : Nat := crcRun 8 0x07 false 0 bs

/-- The CRC of an AES3 channel-status block: x^8+x^4+x^3+x^2+1, all-ones initial value (R264). -/
def crcAes3 (bs : List Nat) : Nat := crcRun 8 0x1D true 0xFF bs

/-- Little-endian bytes of a number. -/
def leBytes : Nat → Nat → List Nat
  | 0, _ => []
  | n + 1, v => (v % 256) :: leBytes n (v / 256)

/-- The number that little-endian bytes spell. -/
def leVal : List Nat → Nat
  | [] => 0
  | b :: bs => b % 256 + 256 * leVal bs

/-- Chunks of `n` elements; a short tail is dropped. Fuel bounds the recursion. -/
def chunks {α : Type} (n : Nat) : Nat → List α → List (List α)
  | 0, _ => []
  | f + 1, l => if l.length < n ∨ n = 0 then [] else l.take n :: chunks n f (l.drop n)

/-- R116: 10-bit samples, four to a 5-byte group, sample i at bits [10i+9:10i] of the little-endian value. -/
def unpack10 (bs : List Nat) : List Nat :=
  (chunks 5 bs.length bs).flatMap (fun g =>
    let v := leVal g
    [v % 1024, (v / 1024) % 1024, (v / 1048576) % 1024, (v / 1073741824) % 1024])

end Sys2Proof
end

