-- ==== Sys2Proof/Machine/LineCode.lean ====
section
/-! DEFINITION. The 8b/10b code of a Celtil lane (R176) and the rows in which a link carries a packet (R178, R181). The code table is the
standard one, which the spec names and does not print (PRESUMED, notes/assumptions/48.md). -/

namespace Sys2Proof.Machine

/-! ### The code table -/

/-- abcdei of D.x and fghj of D.x.y at negative running disparity. -/
def fiveSix : List Nat :=
  [0b100111, 0b011101, 0b101101, 0b110001, 0b110101, 0b101001, 0b011001, 0b111000,
   0b111001, 0b100101, 0b010101, 0b110100, 0b001101, 0b101100, 0b011100, 0b010111] ++
  [0b011011, 0b100011, 0b010011, 0b110010, 0b001011, 0b101010, 0b011010, 0b111010,
   0b110011, 0b100110, 0b010110, 0b110110, 0b001110, 0b101110, 0b011110, 0b101011]
def threeFour : List Nat := [0b1011, 0b1001, 0b0101, 0b1100, 0b1101, 0b1010, 0b0110, 0b1110]

/-- The twelve control characters with their groups at negative running disparity. -/
def controlCodes : List (Nat × Nat) :=
  [(0x1C, 0b0011110100), (0x3C, 0b0011111001), (0x5C, 0b0011110101), (0x7C, 0b0011110011), (0x9C, 0b0011110010), (0xBC, 0b0011111010),
   (0xDC, 0b0011110110), (0xFC, 0b0011111000), (0xF7, 0b1110101000), (0xFB, 0b1101101000), (0xFD, 0b1011101000), (0xFE, 0b0111101000)]

/-- Ones among the low `n` bits. -/
def onesIn (n v : Nat) : Nat := ((List.range n).filter (fun i => v.testBit i)).length

/-- abcdei of D.x at a running disparity (true: positive). -/
def sixBits (rd : Bool) (x : Nat) : Nat :=
  let c := fiveSix.getD x 0
  if rd && (decide (onesIn 6 c ≠ 3) || decide (x = 7)) then 63 - c else c

/-- fghj of D.x.y at the running disparity after its six bits; D.x.7 takes its alternate where five equal bits would follow. -/
def fourBits (rd : Bool) (x y : Nat) : Nat :=
  if y = 7 ∧ (if rd then x = 11 ∨ x = 13 ∨ x = 14 else x = 17 ∨ x = 18 ∨ x = 20) then if rd then 0b1000 else 0b0111
  else
    let c := threeFour.getD y 0
    if rd && (decide (onesIn 4 c ≠ 2) || decide (y = 3)) then 15 - c else c

/-- The group of a data byte at a running disparity. -/
def dataGroup (rd : Bool) (b : Nat) : Nat :=
  let c := sixBits rd (b % 32)
  c * 16 + fourBits (rd ^^ decide (onesIn 6 c ≠ 3)) (b % 32) (b / 32)

/-- The group of a control character at a running disparity. -/
def controlGroup (rd : Bool) (c : Nat) : Nat := if rd then 1023 - c else c

/-- The byte of a valid group and whether it is a control character, at one running disparity. -/
def groupByte (rd : Bool) (g : Nat) : Option (Nat × Bool) :=
  match controlCodes.find? (fun e => decide (controlGroup rd e.2 = g)) with
  | some e => some (e.1, true)
  | none =>
    match (List.range 32).find? (fun x => decide (sixBits rd x = g / 16)) with
    | some x => ((List.range 8).find? (fun y => decide (dataGroup rd (y * 32 + x) = g))).map (fun y => (y * 32 + x, false))
    | none => none

/-- One lane's character in a row, as 8b/10b decoding gives it (R176, R185). -/
structure LaneChar where
  byte      : BitVec 8
  control   : Bool
  violation : Bool
  disparity : Bool
  deriving DecidableEq, Repr

/-- Decoding of a group (R176): a group of the column of the running disparity; one of the other column, a disparity error; any other, a
code violation. -/
def laneChar (x : LaneGroup) : LaneChar :=
  match groupByte x.rd x.group.toNat with
  | some (b, k) => ⟨BitVec.ofNat 8 b, k, false, false⟩
  | none =>
    match groupByte (!x.rd) x.group.toNat with
    | some (b, k) => ⟨BitVec.ofNat 8 b, k, false, true⟩
    | none => ⟨0, false, true, false⟩

/-! ### Rows (R178, R180, R181) -/

/-- A row as sent: lane, control character or not, byte. -/
abbrev Row := List (Nat × Bool × Nat)

/-- A control row: one control character on every lane that carries the link. -/
def controlRow (lanes : List Nat) (c : Nat) : Row := lanes.map (fun p => (p, true, c))

/-- A data row: the bytes in lane order, lowest DATA lane first; the spare carries their XOR. -/
def dataRow (data : List Nat) (spare : Option Nat) (bytes : List Nat) : Row :=
  (data.zipIdx).map (fun e => (e.1, false, bytes.getD e.2 0)) ++
    (match spare with | some q => [(q, false, (List.range data.length).foldl (fun a k => a ^^^ bytes.getD k 0) 0)] | none => [])

/-- A packet: SOP row, data rows padded with 0x00, EOP row. -/
def packetRows (data : List Nat) (spare : Option Nat) (bytes : List Nat) : List Row :=
  let lanes := data ++ spare.toList
  let n := max 1 data.length
  [controlRow lanes 0xFB] ++
    (List.range (ceilDiv bytes.length n)).map (fun k => dataRow data spare ((bytes.drop (n * k)).take n)) ++ [controlRow lanes 0xFD]

/-- A CLP packet (R198): header, payload and CRC-32. -/
def clpBytes (type stream word : Nat) (payload : List Nat) : List Nat :=
  let b := [type, stream] ++ leBytes 2 payload.length ++ leBytes 4 word ++ payload
  b ++ leBytes 4 (crc32 b)

/-- A link-management set: LNK, TYPE, ARG, CRC-8, each on every lane (R180). -/
def setRows (lanes : List Nat) (type arg : Nat) : List Row :=
  controlRow lanes 0x3C :: [type, arg, crc8 [type, arg]].map (fun b => lanes.map (fun p => (p, false, b)))

/-- The characters of a marker on one lane: BAM, SEQ, ID, CRC-8 and four SKP (R182). -/
def markerChars (bundle lane : Nat) (spare : Bool) (seq : Nat) : List (Bool × Nat) :=
  let id := bundle * 16 + (if spare then 8 else 0) + lane % 8
  [(true, 0x7C), (false, seq), (false, id), (false, crc8 [seq, id])] ++ List.replicate 4 (true, 0x1C)

end Sys2Proof.Machine
end

