-- ==== Sys2Proof/Machine/RegMap.lean ====
section
/-! DEFINITION. The BAR0 register map (21_register_pages.md): the pages of Table 21-1, the block registers of
every page's register table with their access codes, writable bits and reset values, the common header,
and a named byte address for every register. -/

namespace Sys2Proof.Machine

/-- The page layouts of Table 21-1. -/
inductive Layout where
  | dev
  | stp
  | ptp
  | belfry
  | bell
  | reeve
  | cc
  | ee
  | gang
  | aliasPg
  | ch
  | chrc
  | chcomp
  | chaud
  | mon
  | clp
  | ing
  | inp
  | etm
  | eport
  | erend
  | eth
  | hbm
  | pch
  | mp
  | mtx
  | cvu
  | watch
  | sexton
  | aud
  | stile
  | pbook
  deriving DecidableEq, Repr

/-- A page: its layout and its unit number (the n, b, p, c, g, i or a of Table 21-1). -/
structure PageRef where
  lay : Layout
  n   : Nat
  deriving DecidableEq, Repr

/-- The access codes of Table 0-5 that a whole register carries. -/
inductive Acc where
  | ro | rw | rwe | w1c | wo | rws
  deriving DecidableEq, Repr

/-- One row of a register table: `count` registers at `off`, `off + stride`, ... of a page; `mask` has the
writable (or write-one-to-clear) bits. -/
structure RegRow where
  off    : Nat
  stride : Nat
  count  : Nat
  acc    : Acc
  reset  : Nat
  mask   : Nat
  deriving DecidableEq, Repr

/-- Base address, page stride and page count of each layout (Table 21-1). -/
def Layout.place : Layout → Nat × Nat × Nat
  | .dev => (0x0, 0x1000, 1)
  | .stp => (0x100000, 0x1000, 1)
  | .ptp => (0x101000, 0x1000, 1)
  | .belfry => (0x200000, 0x1000, 1)
  | .bell => (0x201000, 0x1000, 64)
  | .reeve => (0x300000, 0x1000, 1)
  | .cc => (0x301000, 0x1000, 8)
  | .ee => (0x400000, 0x1000, 34)
  | .gang => (0x440000, 0x1000, 384)
  | .aliasPg => (0x5C0000, 0x1000, 576)
  | .ch => (0x800000, 0x4000, 128)
  | .chrc => (0x801000, 0x4000, 128)
  | .chcomp => (0x802000, 0x4000, 128)
  | .chaud => (0x803000, 0x4000, 128)
  | .mon => (0x1000000, 0x1000, 1)
  | .clp => (0x1400000, 0x1000, 10)
  | .ing => (0x1410000, 0x1000, 1)
  | .inp => (0x1420000, 0x1000, 128)
  | .etm => (0x1800000, 0x1000, 1)
  | .eport => (0x1801000, 0x1000, 10)
  | .erend => (0x1810000, 0x1000, 128)
  | .eth => (0x1C00000, 0x1000, 4)
  | .hbm => (0x2000000, 0x1000, 1)
  | .pch => (0x2001000, 0x1000, 32)
  | .mp => (0x2400000, 0x1000, 1)
  | .mtx => (0x2800000, 0x1000, 1)
  | .cvu => (0x2C00000, 0x1000, 4)
  | .watch => (0x3000000, 0x1000, 1)
  | .sexton => (0x3001000, 0x1000, 1)
  | .aud => (0x3400000, 0x1000, 1)
  | .stile => (0x3800000, 0x1000, 1)
  | .pbook => (0x3C00000, 0x1000, 1)

/-- The block registers of each layout, from the register table of its chapter. Gang and window pages
repeat the engine layout and hold no register of their own (R49, R446). DESIGN CHOICE: a bit that a table gives no field, such as
[15:12] of CHAUD's AES67_k +0x00 (Table 11-4), reads 0 and ignores writes, as a reserved field does (R7;
notes/assumptions/42.md). -/
def Layout.rows : Layout → List RegRow
  | .dev => [
    ⟨0x40, 4, 1, .rw, 0x0, 0xFFFF0007⟩,
    ⟨0x44, 4, 1, .ro, 0x0, 0x0⟩,
    ⟨0x48, 4, 1, .ro, 0x0, 0x0⟩,
    ⟨0x4C, 4, 1, .ro, 0x0, 0x0⟩,
    ⟨0x50, 4, 1, .wo, 0x0, 0x0⟩,
    ⟨0x54, 4, 1, .ro, 0x0, 0x0⟩,
    ⟨0x58, 4, 1, .rws, 0x0, 0x0⟩,
    ⟨0x5C, 4, 1, .ro, 0x0, 0x0⟩,
    ⟨0x60, 4, 1, .ro, 0x0, 0x0⟩,
    ⟨0x64, 4, 1, .ro, 0x0, 0x0⟩,
    ⟨0x400, 4, 1, .rws, 0x0, 0x0⟩,
    ⟨0x404, 4, 1, .rw, 0x320, 0x3FF⟩] ++ [
    ⟨0x408, 4, 1, .ro, 0x9C40, 0x0⟩,
    ⟨0x40C, 4, 1, .ro, 0x9C40, 0x0⟩,
    ⟨0x410, 4, 1, .ro, 0x0, 0x0⟩,
    ⟨0x414, 4, 1, .ro, 0x0, 0x0⟩,
    ⟨0x418, 4, 1, .ro, 0x2120, 0x0⟩,
    ⟨0x41C, 4, 1, .ro, 0x0, 0x0⟩,
    ⟨0x420, 4, 1, .ro, 0x0, 0x0⟩]
  | .stp => [
    ⟨0x40, 4, 1, .ro, 0x0, 0x0⟩,
    ⟨0x44, 4, 1, .ro, 0x0, 0x0⟩,
    ⟨0x48, 4, 1, .rwe, 0x11940000, 0x3FFF000F⟩,
    ⟨0x4C, 4, 1, .rw, 0x0, 0x7F17⟩,
    ⟨0x50, 4, 1, .ro, 0x0, 0x0⟩,
    ⟨0x54, 4, 1, .ro, 0x0, 0x0⟩,
    ⟨0x58, 4, 1, .rw, 0x3E8, 0xFFFFFFFF⟩,
    ⟨0x5C, 4, 1, .rws, 0x0, 0x0⟩,
    ⟨0x60, 4, 1, .ro, 0x0, 0x0⟩,
    ⟨0x64, 4, 1, .rw, 0x0, 0xFFFF⟩,
    ⟨0x68, 4, 1, .w1c, 0x0, 0xFFFFFFFF⟩,
    ⟨0x6C, 4, 1, .w1c, 0x0, 0xFFFFFFFF⟩] ++ [
    ⟨0x70, 4, 1, .ro, 0x0, 0x0⟩,
    ⟨0x100, 32, 64, .rw, 0x0, 0xFFFFFFFF⟩,
    ⟨0x104, 32, 64, .rw, 0x0, 0xFFFFFFFF⟩,
    ⟨0x108, 32, 64, .rw, 0x0, 0xFFFFFFFF⟩,
    ⟨0x10C, 32, 64, .rw, 0x0, 0xFFFF⟩,
    ⟨0x110, 32, 64, .rw, 0x0, 0xFFF071F⟩,
    ⟨0x114, 32, 64, .rw, 0x0, 0xFFF⟩,
    ⟨0x118, 32, 64, .rw, 0x0, 0xFFFF⟩,
    ⟨0x11C, 32, 64, .ro, 0x0, 0x0⟩]
  | .ptp => [
    ⟨0x40, 4, 1, .rwe, 0x10000, 0x101F3⟩,
    ⟨0x44, 4, 1, .rwe, 0x7F, 0xFF⟩,
    ⟨0x48, 4, 1, .rwe, 0x3DDE, 0xFFFF⟩,
    ⟨0x4C, 4, 1, .rwe, 0x8080, 0xFFFF⟩,
    ⟨0x50, 4, 1, .rw, 0x3E8, 0xFFFFFFFF⟩,
    ⟨0x54, 4, 1, .rws, 0x0, 0x0⟩,
    ⟨0x58, 4, 1, .rw, 0x4, 0xF⟩,
    ⟨0x5C, 4, 1, .ro, 0x0, 0x0⟩,
    ⟨0x60, 4, 1, .ro, 0x0, 0x0⟩,
    ⟨0x64, 4, 1, .ro, 0x0, 0x0⟩,
    ⟨0x68, 4, 1, .ro, 0x0, 0x0⟩,
    ⟨0x6C, 4, 1, .ro, 0x0, 0x0⟩] ++ [
    ⟨0x70, 4, 1, .ro, 0x0, 0x0⟩,
    ⟨0x74, 4, 1, .ro, 0x0, 0x0⟩,
    ⟨0x78, 4, 1, .ro, 0x0, 0x0⟩,
    ⟨0x7C, 4, 1, .ro, 0x0, 0x0⟩,
    ⟨0x80, 4, 1, .ro, 0x0, 0x0⟩]
  | .belfry => [
    ⟨0x40, 4, 1, .ro, 0x0, 0x0⟩,
    ⟨0x44, 4, 1, .ro, 0x0, 0x0⟩,
    ⟨0x48, 4, 1, .ro, 0x0, 0x0⟩,
    ⟨0x4C, 4, 1, .rws, 0x0, 0x0⟩,
    ⟨0x100, 16, 9, .ro, 0x0, 0x0⟩,
    ⟨0x104, 16, 9, .ro, 0x0, 0x0⟩,
    ⟨0x108, 16, 9, .wo, 0x0, 0x0⟩]
  | .bell => [
    ⟨0x40, 4, 1, .rw, 0x0, 0xFFFFFFFF⟩,
    ⟨0x44, 4, 1, .rw, 0x0, 0xFFFFFFFF⟩,
    ⟨0x48, 4, 1, .ro, 0x0, 0x0⟩,
    ⟨0x4C, 4, 1, .ro, 0x0, 0x0⟩,
    ⟨0x50, 4, 1, .ro, 0x0, 0x0⟩,
    ⟨0x54, 4, 1, .ro, 0x0, 0x0⟩,
    ⟨0x58, 4, 1, .ro, 0x0, 0x0⟩,
    ⟨0x5C, 4, 1, .ro, 0x0, 0x0⟩,
    ⟨0x100, 16, 9, .rw, 0x0, 0xFFFFFFFF⟩,
    ⟨0x104, 16, 9, .rw, 0x0, 0xFFFFFFFF⟩,
    ⟨0x108, 16, 9, .ro, 0x0, 0x0⟩,
    ⟨0x10C, 16, 9, .wo, 0x0, 0x0⟩] ++ [
    ⟨0x200, 4, 64, .rw, 0xF000, 0x3FF⟩]
  | .reeve => [
    ⟨0x40, 4, 1, .wo, 0x0, 0x0⟩,
    ⟨0x44, 4, 1, .ro, 0x0, 0x0⟩,
    ⟨0x48, 4, 1, .ro, 0x0, 0x0⟩,
    ⟨0x4C, 4, 1, .ro, 0x0, 0x0⟩,
    ⟨0x50, 4, 1, .ro, 0x0, 0x0⟩,
    ⟨0x54, 4, 1, .ro, 0x0, 0x0⟩,
    ⟨0x58, 4, 1, .ro, 0x0, 0x0⟩,
    ⟨0x5C, 4, 1, .ro, 0x0, 0x0⟩,
    ⟨0x60, 4, 1, .rw, 0x0, 0x31FFF⟩,
    ⟨0x64, 4, 1, .rws, 0x0, 0x0⟩,
    ⟨0x68, 4, 1, .ro, 0x1, 0x0⟩,
    ⟨0x70, 4, 4, .rw, 0x0, 0xFFFFFFFF⟩]
  | .cc => [
    ⟨0x40, 4, 1, .ro, 0x0, 0x0⟩,
    ⟨0x44, 4, 1, .wo, 0x0, 0x0⟩,
    ⟨0x48, 4, 1, .ro, 0x0, 0x0⟩,
    ⟨0x4C, 4, 1, .ro, 0x0, 0x0⟩,
    ⟨0x50, 4, 1, .rw, 0x0, 0x1⟩,
    ⟨0x54, 4, 1, .rw, 0x0, 0xFFFFF000⟩,
    ⟨0x58, 4, 1, .rw, 0x0, 0x7⟩,
    ⟨0x5C, 4, 1, .rws, 0x0, 0x0⟩,
    ⟨0x60, 4, 1, .ro, 0x0, 0x0⟩,
    ⟨0x64, 4, 1, .ro, 0x0, 0x0⟩,
    ⟨0x68, 4, 1, .ro, 0x0, 0x0⟩,
    ⟨0x6C, 4, 1, .ro, 0x0, 0x0⟩]
  | .ee => [
    ⟨0x40, 4, 1, .ro, 0x0, 0x0⟩,
    ⟨0x44, 4, 1, .ro, 0x1000000, 0x0⟩,
    ⟨0x48, 4, 1, .ro, 0x0, 0x0⟩,
    ⟨0x4C, 4, 1, .ro, 0x0, 0x0⟩,
    ⟨0x50, 4, 1, .ro, 0x0, 0x0⟩,
    ⟨0x54, 4, 1, .ro, 0x0, 0x0⟩,
    ⟨0x58, 4, 1, .ro, 0x0, 0x0⟩,
    ⟨0x5C, 4, 1, .ro, 0x0, 0x0⟩,
    ⟨0x60, 4, 1, .ro, 0x0, 0x0⟩,
    ⟨0x64, 4, 1, .ro, 0x0, 0x0⟩,
    ⟨0x68, 4, 1, .ro, 0x0, 0x0⟩,
    ⟨0x6C, 4, 1, .rws, 0x0, 0x0⟩] ++ [
    ⟨0x70, 4, 1, .ro, 0x0, 0x0⟩,
    ⟨0x74, 4, 1, .ro, 0x0, 0x0⟩,
    ⟨0x80, 4, 16, .ro, 0x0, 0x0⟩,
    ⟨0x100, 4, 1, .ro, 0x0, 0x0⟩,
    ⟨0x104, 4, 1, .ro, 0x0, 0x0⟩,
    ⟨0x108, 4, 1, .ro, 0x0, 0x0⟩,
    ⟨0x10C, 4, 1, .ro, 0x0, 0x0⟩,
    ⟨0x110, 4, 1, .ro, 0x0, 0x0⟩,
    ⟨0x114, 4, 1, .ro, 0x0, 0x0⟩,
    ⟨0x118, 4, 1, .rw, 0x0, 0xF⟩]
  | .gang => []
  | .aliasPg => []
  | .ch => [
    ⟨0x40, 4, 1, .rwe, 0x0, 0x3FFF3FFF⟩,
    ⟨0x44, 4, 1, .rwe, 0x0, 0x1F⟩,
    ⟨0x48, 4, 1, .rwe, 0x0, 0x37⟩,
    ⟨0x4C, 4, 1, .rwe, 0x0, 0x3FFFFFFF⟩,
    ⟨0x50, 4, 1, .rwe, 0x0, 0x3FFF⟩,
    ⟨0x54, 4, 1, .rwe, 0x0, 0x3F071F03⟩,
    ⟨0x58, 4, 1, .rwe, 0x0, 0x3FFF⟩,
    ⟨0x5C, 4, 1, .rwe, 0x0, 0x7F⟩,
    ⟨0x60, 4, 1, .rwe, 0x0, 0x1FF⟩,
    ⟨0x64, 4, 1, .rw, 0x0, 0xFF⟩,
    ⟨0x80, 32, 4, .rwe, 0x0, 0xF⟩,
    ⟨0x84, 32, 4, .rwe, 0x0, 0x3FFF3FFF⟩] ++ [
    ⟨0x88, 32, 4, .rwe, 0x0, 0x3FF1F⟩,
    ⟨0x8C, 32, 4, .rwe, 0x0, 0x71FF03FF⟩,
    ⟨0x100, 4, 1, .ro, 0x0, 0x0⟩,
    ⟨0x104, 4, 1, .ro, 0x0, 0x0⟩,
    ⟨0x108, 4, 1, .ro, 0x0, 0x0⟩,
    ⟨0x10C, 4, 1, .ro, 0x0, 0x0⟩,
    ⟨0x110, 4, 1, .ro, 0x0, 0x0⟩,
    ⟨0x114, 4, 1, .ro, 0x0, 0x0⟩,
    ⟨0x118, 4, 1, .ro, 0x0, 0x0⟩,
    ⟨0x11C, 4, 1, .ro, 0x0, 0x0⟩,
    ⟨0x120, 4, 1, .ro, 0x0, 0x0⟩,
    ⟨0x124, 4, 4, .ro, 0x0, 0x0⟩] ++ [
    ⟨0x200, 64, 4, .rwe, 0x0, 0x1FFF⟩,
    ⟨0x204, 64, 4, .rwe, 0x0, 0xFF⟩,
    ⟨0x208, 64, 4, .rwe, 0x400020, 0x1FF01FF⟩,
    ⟨0x20C, 64, 4, .rwe, 0x108, 0xFF3F⟩,
    ⟨0x210, 64, 4, .rwe, 0x0, 0x1F⟩,
    ⟨0x214, 64, 4, .rwe, 0xC, 0x1F⟩,
    ⟨0x218, 64, 4, .rwe, 0x0, 0x37⟩,
    ⟨0x220, 64, 4, .rwe, 0x0, 0xFFFFFFFF⟩,
    ⟨0x224, 64, 4, .rwe, 0x0, 0xFFFFFFFF⟩,
    ⟨0x228, 64, 4, .rwe, 0x0, 0xFFFFFFFF⟩,
    ⟨0x22C, 64, 4, .rwe, 0x0, 0xFFFFFFFF⟩,
    ⟨0x230, 64, 4, .rwe, 0x0, 0xFFFFFFFF⟩] ++ [
    ⟨0x234, 64, 4, .rwe, 0x0, 0xFFFFFFFF⟩,
    ⟨0x238, 64, 4, .rwe, 0x0, 0xFFFFFFFF⟩,
    ⟨0x300, 4, 1, .rwe, 0x230, 0x3FFF⟩,
    ⟨0x304, 4, 1, .ro, 0x0, 0x0⟩,
    ⟨0x308, 4, 1, .ro, 0x0, 0x0⟩,
    ⟨0x30C, 4, 1, .ro, 0x0, 0x0⟩,
    ⟨0x310, 4, 1, .ro, 0x0, 0x0⟩]
  | .chrc => [
    ⟨0x40, 64, 4, .rwe, 0x0, 0x3FFFFF⟩,
    ⟨0x44, 64, 4, .rwe, 0x64, 0xFF⟩,
    ⟨0x48, 64, 4, .rwe, 0x4, 0x1F⟩,
    ⟨0x4C, 64, 4, .rwe, 0x330A20, 0x3F3F3F⟩,
    ⟨0x50, 64, 4, .rwe, 0x10608, 0x10F0F⟩,
    ⟨0x54, 64, 4, .rw, 0x0, 0xFFFFFFFF⟩,
    ⟨0x58, 64, 4, .rw, 0x0, 0x8000003F⟩,
    ⟨0x5C, 64, 4, .ro, 0x0, 0x0⟩,
    ⟨0x60, 64, 4, .ro, 0x0, 0x0⟩,
    ⟨0x64, 64, 4, .ro, 0x0, 0x0⟩,
    ⟨0x68, 64, 4, .ro, 0x0, 0x0⟩,
    ⟨0x6C, 64, 4, .ro, 0x0, 0x0⟩] ++ [
    ⟨0x70, 64, 4, .ro, 0x0, 0x0⟩,
    ⟨0x74, 64, 4, .ro, 0x0, 0x0⟩,
    ⟨0x78, 64, 4, .ro, 0x0, 0x0⟩,
    ⟨0x7C, 64, 4, .ro, 0x0, 0x0⟩,
    ⟨0x200, 4, 1, .ro, 0x0, 0x0⟩,
    ⟨0x204, 4, 1, .ro, 0x0, 0x0⟩,
    ⟨0x208, 4, 1, .rws, 0x0, 0x0⟩]
  | .chcomp => [
    ⟨0x40, 4, 1, .rwe, 0x0, 0x3FFF⟩,
    ⟨0x44, 4, 1, .rw, 0x76543210, 0x77777777⟩,
    ⟨0x48, 4, 1, .rw, 0x0, 0x1⟩,
    ⟨0x4C, 4, 1, .ro, 0x0, 0x0⟩,
    ⟨0x50, 4, 1, .ro, 0x0, 0x0⟩,
    ⟨0x54, 4, 1, .ro, 0x0, 0x0⟩,
    ⟨0x60, 4, 1, .rw, 0x0, 0x31FFF⟩,
    ⟨0x64, 4, 1, .rw, 0x0, 0x3FFFF⟩,
    ⟨0x68, 4, 1, .rws, 0x0, 0x0⟩,
    ⟨0x6C, 4, 1, .ro, 0x1, 0x0⟩] ++ [
    -- layer 0 holds GALPHA only (R170)
    ⟨0x100, 64, 1, .ro, 0x0, 0x0⟩,
    ⟨0x104, 64, 1, .ro, 0x0, 0x0⟩,
    ⟨0x108, 64, 1, .ro, 0x0, 0x0⟩,
    ⟨0x10C, 64, 1, .ro, 0x0, 0x0⟩,
    ⟨0x110, 64, 1, .ro, 0x0, 0x0⟩,
    ⟨0x114, 64, 1, .ro, 0x0, 0x0⟩,
    ⟨0x118, 64, 1, .ro, 0x0, 0x0⟩,
    ⟨0x11C, 64, 1, .rw, 0x3FF, 0x3FF⟩,
    ⟨0x120, 64, 1, .ro, 0x0, 0x0⟩,
    ⟨0x124, 64, 1, .ro, 0x0, 0x0⟩] ++ [
    ⟨0x140, 64, 7, .rwe, 0x0, 0xFF7F1F⟩,
    ⟨0x144, 64, 7, .rwe, 0x0, 0x3FFF3FFF⟩,
    ⟨0x148, 64, 7, .rw, 0x0, 0xFFFFFFC0⟩,
    ⟨0x14C, 64, 7, .rw, 0x0, 0x7⟩,
    ⟨0x150, 64, 7, .rw, 0x0, 0x3FFFF⟩,
    ⟨0x154, 64, 7, .rw, 0x0, 0x7FFF7FFF⟩,
    ⟨0x158, 64, 7, .rw, 0x0, 0x3FFF3FFF⟩,
    ⟨0x15C, 64, 7, .rw, 0x3FF, 0x800703FF⟩,
    ⟨0x160, 64, 7, .rw, 0x3AC0040, 0x3FF03FF⟩,
    ⟨0x164, 64, 7, .rw, 0x0, 0x3FFFFFFF⟩,
    ⟨0x300, 4, 3, .rwe, 0x0, 0xBFFFFFFF⟩]
  | .chaud => [
    ⟨0x40, 4, 16, .rwe, 0x0, 0x83FF⟩,
    ⟨0x80, 4, 4, .rwe, 0x0, 0x1FFF00F7⟩,
    ⟨0x90, 4, 1, .ro, 0x0, 0x0⟩,
    ⟨0xA0, 32, 4, .rwe, 0x0, 0x7F0FFF⟩,
    ⟨0xA4, 32, 4, .rwe, 0x0, 0xFFFFFFFF⟩,
    ⟨0xA8, 32, 4, .rwe, 0x0, 0xFFFFFFFF⟩,
    ⟨0xAC, 32, 4, .rwe, 0x0, 0xFFFFFFFF⟩,
    ⟨0xB0, 32, 4, .rwe, 0x0, 0xFFFFFFFF⟩,
    ⟨0xB4, 32, 4, .rwe, 0x0, 0xFFFFFF⟩,
    ⟨0xB8, 32, 4, .rwe, 0x0, 0xFFFFFF⟩]
  | .mon => [
    ⟨0x40, 4, 1, .rwe, 0x0, 0x3FFF3FFF⟩,
    ⟨0x44, 4, 1, .rwe, 0x0, 0x373FFF⟩,
    ⟨0x48, 4, 1, .rwe, 0x0, 0x1⟩,
    ⟨0x4C, 4, 1, .rw, 0x0, 0x3FFF⟩,
    ⟨0x50, 4, 1, .rw, 0x20080040, 0x3FFFFFFF⟩,
    ⟨0x54, 4, 1, .ro, 0x0, 0x0⟩,
    ⟨0x58, 4, 1, .ro, 0x0, 0x0⟩,
    ⟨0x5C, 4, 1, .ro, 0x0, 0x0⟩,
    ⟨0x60, 4, 1, .ro, 0x0, 0x0⟩,
    ⟨0x64, 4, 1, .ro, 0x0, 0x0⟩,
    ⟨0x68, 4, 1, .ro, 0x0, 0x0⟩,
    ⟨0x100, 16, 64, .rw, 0x0, 0xF7FF⟩] ++ [
    ⟨0x104, 16, 64, .rw, 0x0, 0x3FFF3FFF⟩,
    ⟨0x500, 32, 4, .rw, 0x0, 0x1D⟩,
    ⟨0x504, 32, 4, .rw, 0x0, 0xFFFFFFC0⟩,
    ⟨0x508, 32, 4, .rw, 0x0, 0x7⟩,
    ⟨0x50C, 32, 4, .rw, 0x0, 0x3FFFF⟩,
    ⟨0x510, 32, 4, .rw, 0x0, 0x7FFF7FFF⟩,
    ⟨0x514, 32, 4, .rw, 0x0, 0x3FFF3FFF⟩,
    ⟨0x518, 32, 4, .rw, 0x3FF, 0x3FF⟩,
    ⟨0x51C, 32, 4, .rw, 0x0, 0x3FFFFFFF⟩]
  | .clp => [
    ⟨0x40, 4, 1, .rwe, 0x0, 0xFFF07⟩,
    ⟨0x44, 4, 1, .rwe, 0xC608, 0xFFFF⟩,
    ⟨0x48, 4, 1, .rw, 0x31028, 0x3FFFF⟩,
    ⟨0x4C, 4, 1, .ro, 0x0, 0x0⟩,
    ⟨0x50, 4, 1, .ro, 0x0, 0x0⟩,
    ⟨0x54, 4, 1, .ro, 0x0, 0x0⟩,
    ⟨0x58, 4, 1, .ro, 0x0, 0x0⟩,
    ⟨0x5C, 4, 1, .rws, 0x0, 0x0⟩,
    ⟨0x60, 4, 1, .rw, 0x0, 0xFFFF⟩,
    ⟨0x100, 32, 8, .ro, 0x0, 0x0⟩,
    ⟨0x104, 32, 8, .ro, 0x0, 0x0⟩,
    ⟨0x108, 32, 8, .ro, 0x0, 0x0⟩] ++ [
    ⟨0x10C, 32, 8, .ro, 0x0, 0x0⟩,
    ⟨0x110, 32, 8, .ro, 0x0, 0x0⟩,
    ⟨0x114, 32, 8, .rws, 0x0, 0x0⟩]
  | .ing => [
    ⟨0x40, 4, 1, .rw, 0x32, 0x7F⟩,
    ⟨0x44, 4, 1, .rw, 0x0, 0x1303FFFF⟩,
    ⟨0x48, 4, 1, .rws, 0x0, 0x0⟩,
    ⟨0x4C, 4, 1, .ro, 0x1, 0x0⟩,
    ⟨0x60, 4, 8, .rw, 0x0, 0xFFFFFFFF⟩]
  | .inp => [
    ⟨0x40, 4, 1, .rwe, 0x0, 0x3FFF3⟩,
    ⟨0x44, 4, 1, .rwe, 0x0, 0x3FFF3FFF⟩,
    ⟨0x48, 4, 1, .rwe, 0x0, 0x33FFF⟩,
    ⟨0x4C, 4, 1, .rwe, 0x0, 0x3FFFFFFF⟩,
    ⟨0x50, 4, 1, .rw, 0x103200, 0x3FFFFF03⟩,
    ⟨0x54, 4, 1, .rw, 0x0, 0xFFFFFFC0⟩,
    ⟨0x58, 4, 1, .rw, 0x0, 0x7⟩,
    ⟨0x5C, 4, 1, .rwe, 0x0, 0x1FF01FF⟩,
    ⟨0x60, 4, 1, .rwe, 0x0, 0x3FFF⟩,
    ⟨0x64, 4, 1, .rw, 0x0, 0xFFFFFFFF⟩,
    ⟨0x68, 4, 1, .rwe, 0x0, 0xFFFFFFFF⟩,
    ⟨0x6C, 4, 1, .rwe, 0x0, 0xFFFFFFFF⟩] ++ [
    ⟨0x70, 4, 1, .rwe, 0x0, 0xFFFFFFFF⟩,
    ⟨0x74, 4, 1, .rwe, 0x0, 0xFFFFFFFF⟩,
    ⟨0x80, 4, 1, .ro, 0x0, 0x0⟩,
    ⟨0x84, 4, 1, .ro, 0x0, 0x0⟩,
    ⟨0x88, 4, 1, .ro, 0x0, 0x0⟩,
    ⟨0x8C, 4, 1, .ro, 0x0, 0x0⟩,
    ⟨0x90, 4, 1, .ro, 0x0, 0x0⟩,
    ⟨0x94, 4, 1, .ro, 0x0, 0x0⟩,
    ⟨0x98, 4, 1, .ro, 0x0, 0x0⟩,
    ⟨0x9C, 4, 1, .rws, 0x0, 0x0⟩,
    ⟨0xA0, 16, 2, .ro, 0x0, 0x0⟩,
    ⟨0xA4, 16, 2, .ro, 0x0, 0x0⟩] ++ [
    ⟨0xA8, 16, 2, .ro, 0x0, 0x0⟩,
    ⟨0xAC, 4, 1, .ro, 0x0, 0x0⟩]
  | .etm => [
    ⟨0x40, 4, 1, .rw, 0x0, 0x370FFFFF⟩,
    ⟨0x44, 4, 1, .rws, 0x0, 0x0⟩,
    ⟨0x48, 4, 1, .ro, 0x1, 0x0⟩,
    ⟨0x4C, 4, 1, .ro, 0x0, 0x0⟩,
    ⟨0x50, 4, 1, .rw, 0x2, 0xF⟩,
    ⟨0x54, 4, 1, .rw, 0x0, 0xFFFF⟩,
    ⟨0x58, 4, 1, .ro, 0x0, 0x0⟩,
    ⟨0x5C, 4, 1, .ro, 0x0, 0x0⟩,
    ⟨0x60, 4, 1, .ro, 0x0, 0x0⟩,
    ⟨0x64, 4, 1, .ro, 0x0, 0x0⟩,
    ⟨0x68, 4, 1, .ro, 0x0, 0x0⟩,
    ⟨0x80, 4, 16, .rw, 0x0, 0xFFFFFFFF⟩] ++ [
    ⟨0x200, 8, 64, .rw, 0x0, 0x3FFFFF⟩,
    ⟨0x204, 8, 64, .ro, 0x0, 0x0⟩]
  | .eport => [
    ⟨0x40, 4, 1, .rw, 0x1010014, 0xFFFF033F⟩,
    ⟨0x44, 4, 1, .rw, 0x1, 0x1FF⟩,
    ⟨0x48, 4, 1, .ro, 0x0, 0x0⟩,
    ⟨0x4C, 4, 1, .ro, 0x0, 0x0⟩,
    ⟨0x50, 4, 1, .ro, 0x0, 0x0⟩,
    ⟨0x54, 4, 1, .ro, 0x0, 0x0⟩,
    ⟨0x58, 4, 1, .ro, 0x0, 0x0⟩,
    ⟨0x5C, 4, 1, .ro, 0x0, 0x0⟩,
    ⟨0x80, 4, 16, .rw, 0x0, 0x80033FFF⟩]
  | .erend => [
    ⟨0x40, 64, 4, .rwe, 0x5780, 0x3FFF3⟩,
    ⟨0x44, 64, 4, .rw, 0x1, 0xFF⟩,
    ⟨0x48, 64, 4, .rwe, 0x1001000, 0x1FFF1FFF⟩,
    ⟨0x4C, 64, 4, .rw, 0x0, 0xFFFFFFFF⟩,
    ⟨0x50, 64, 4, .ro, 0x0, 0x0⟩,
    ⟨0x54, 64, 4, .ro, 0x0, 0x0⟩,
    ⟨0x58, 64, 4, .ro, 0x0, 0x0⟩,
    ⟨0x5C, 64, 4, .ro, 0x0, 0x0⟩,
    ⟨0x60, 64, 4, .rwe, 0x0, 0xFFFFF000⟩,
    ⟨0x64, 64, 4, .rwe, 0x0, 0xFFFFFFFF⟩,
    ⟨0x68, 64, 4, .rwe, 0x0, 0xFFFFFFFF⟩,
    ⟨0x6C, 64, 4, .ro, 0x0, 0x0⟩] ++ [
    ⟨0x70, 64, 4, .rw, 0x0, 0xFFFFFFFF⟩,
    ⟨0x74, 64, 4, .ro, 0x0, 0x0⟩]
  | .eth => [
    ⟨0x40, 4, 1, .rwe, 0x0, 0x3⟩,
    ⟨0x44, 4, 1, .rwe, 0x2400, 0x3FFF⟩,
    ⟨0x48, 4, 1, .rwe, 0x0, 0xFFFFFFFF⟩,
    ⟨0x4C, 4, 1, .rwe, 0x0, 0xFFFF⟩,
    ⟨0x50, 4, 1, .rwe, 0x0, 0xFFFFFFFF⟩,
    ⟨0x54, 4, 4, .rwe, 0x0, 0xFFFFFFFF⟩,
    ⟨0x64, 4, 1, .rwe, 0x0, 0x3⟩,
    ⟨0x68, 4, 1, .ro, 0x0, 0x0⟩,
    ⟨0x6C, 4, 1, .rw, 0x0, 0xFFFFFFFF⟩,
    ⟨0x70, 4, 1, .rw, 0x0, 0xFFFFFFFF⟩,
    ⟨0x74, 4, 1, .ro, 0x0, 0x0⟩,
    ⟨0x78, 4, 1, .ro, 0x0, 0x0⟩] ++ [
    ⟨0x7C, 4, 1, .ro, 0x0, 0x0⟩,
    ⟨0x80, 4, 1, .ro, 0x0, 0x0⟩,
    ⟨0x84, 4, 1, .ro, 0x0, 0x0⟩,
    ⟨0x88, 4, 1, .rws, 0x0, 0x0⟩]
  | .hbm => [
    ⟨0x40, 4, 1, .rw, 0x3, 0x3⟩,
    ⟨0x44, 4, 1, .ro, 0xFFFFFFFF, 0x0⟩,
    ⟨0x48, 4, 1, .ro, 0x0, 0x0⟩,
    ⟨0x4C, 4, 1, .ro, 0x3000, 0x0⟩,
    ⟨0x50, 4, 1, .rw, 0x200, 0x3FFF⟩,
    ⟨0x54, 4, 1, .ro, 0x0, 0x0⟩,
    ⟨0x58, 4, 1, .rw, 0xC8, 0xFFF⟩,
    ⟨0x5C, 4, 1, .rw, 0x7D0, 0xFFFF⟩,
    ⟨0x60, 4, 1, .rw, 0x8, 0xF⟩,
    ⟨0x64, 4, 1, .rw, 0xA, 0xFFFF⟩,
    ⟨0x68, 4, 1, .rw, 0x4, 0xFF⟩,
    ⟨0x6C, 4, 1, .rw, 0x3E8, 0xFFFFFFFF⟩] ++ [
    ⟨0x70, 4, 1, .rw, 0xC8, 0xFFFF⟩,
    ⟨0x80, 8, 8, .rw, 0x0, 0x3FFF01F1⟩,
    ⟨0x84, 8, 8, .ro, 0x0, 0x0⟩]
  | .pch => [
    ⟨0x40, 4, 1, .ro, 0x0, 0x0⟩,
    ⟨0x44, 4, 1, .ro, 0x0, 0x0⟩,
    ⟨0x48, 4, 1, .ro, 0x0, 0x0⟩,
    ⟨0x4C, 4, 1, .ro, 0x0, 0x0⟩,
    ⟨0x50, 4, 1, .ro, 0x0, 0x0⟩,
    ⟨0x54, 4, 1, .ro, 0x0, 0x0⟩,
    ⟨0x58, 4, 1, .ro, 0x0, 0x0⟩,
    ⟨0x5C, 4, 1, .ro, 0x0, 0x0⟩,
    ⟨0x60, 4, 1, .ro, 0x0, 0x0⟩,
    ⟨0x64, 4, 1, .ro, 0x0, 0x0⟩,
    ⟨0x68, 4, 1, .ro, 0x0, 0x0⟩,
    ⟨0x6C, 4, 1, .ro, 0x0, 0x0⟩] ++ [
    ⟨0x70, 4, 1, .ro, 0x0, 0x0⟩,
    ⟨0x74, 4, 1, .ro, 0x0, 0x0⟩,
    ⟨0x78, 4, 1, .rws, 0x0, 0x0⟩]
  | .mp => [
    ⟨0x40, 4, 1, .ro, 0x180, 0x0⟩,
    ⟨0x44, 4, 1, .ro, 0x180, 0x0⟩,
    ⟨0x48, 4, 1, .ro, 0x0, 0x0⟩,
    ⟨0x4C, 4, 1, .ro, 0x0, 0x0⟩,
    ⟨0x50, 4, 1, .ro, 0x0, 0x0⟩,
    ⟨0x54, 4, 1, .ro, 0x0, 0x0⟩,
    ⟨0x58, 4, 1, .ro, 0x0, 0x0⟩,
    ⟨0x5C, 4, 1, .ro, 0x0, 0x0⟩,
    ⟨0x60, 4, 1, .ro, 0x0, 0x0⟩,
    ⟨0x100, 4, 34, .ro, 0x0, 0x0⟩,
    ⟨0x400, 4, 384, .ro, 0x0, 0x0⟩]
  | .mtx => [
    ⟨0x40, 4, 1, .rw, 0x200, 0xFFF⟩,
    ⟨0x44, 4, 1, .ro, 0x0, 0x0⟩,
    ⟨0x48, 4, 1, .ro, 0x0, 0x0⟩,
    ⟨0x4C, 4, 1, .ro, 0x0, 0x0⟩,
    ⟨0x200, 4, 23, .rw, 0x29, 0x3F⟩,
    ⟨0x400, 16, 50, .rw, 0x0, 0xFFFFFFFF⟩,
    ⟨0x404, 16, 50, .rw, 0x0, 0xFFFFFFFF⟩,
    ⟨0x408, 16, 50, .rw, 0x0, 0xFFFFFFF⟩]
  | .cvu => [
    ⟨0x40, 4, 1, .rw, 0x0, 0xFFFFFFFF⟩,
    ⟨0x44, 4, 1, .rw, 0x0, 0x7⟩,
    ⟨0x48, 4, 1, .rw, 0x0, 0xFFFFFFFF⟩,
    ⟨0x4C, 4, 1, .rw, 0x0, 0x7⟩,
    ⟨0x50, 4, 1, .rw, 0x31F, 0x33F⟩,
    ⟨0x54, 4, 1, .rw, 0x4C11DB7, 0xFFFFFFFF⟩,
    ⟨0x58, 4, 1, .rw, 0x0, 0xFFFFFFFF⟩,
    ⟨0x5C, 4, 1, .rw, 0xFFFFFFFF, 0xFFFFFFFF⟩,
    ⟨0x60, 4, 1, .rw, 0x0, 0xFFFFFFFF⟩,
    ⟨0x64, 4, 1, .rw, 0xFFFFFFFF, 0xFFFFFFFF⟩,
    ⟨0x68, 4, 1, .rw, 0x0, 0xFFFFFFFF⟩,
    ⟨0x6C, 4, 1, .rw, 0x0, 0xFFFFFFFF⟩] ++ [
    ⟨0x70, 4, 1, .rw, 0x0, 0xFFFFFFFF⟩,
    ⟨0x74, 4, 1, .ro, 0x0, 0x0⟩,
    ⟨0x78, 4, 1, .ro, 0x0, 0x0⟩,
    ⟨0x7C, 4, 1, .rws, 0x0, 0x0⟩,
    ⟨0x80, 4, 1, .ro, 0x0, 0x0⟩,
    ⟨0x84, 4, 1, .ro, 0x0, 0x0⟩,
    ⟨0x88, 4, 1, .ro, 0x0, 0x0⟩,
    ⟨0x8C, 4, 1, .ro, 0x0, 0x0⟩,
    ⟨0x90, 4, 1, .ro, 0x0, 0x0⟩]
  | .watch => [
    ⟨0x40, 4, 1, .ro, 0x0, 0x0⟩,
    ⟨0x44, 4, 1, .ro, 0x0, 0x0⟩,
    ⟨0x48, 4, 1, .ro, 0x0, 0x0⟩,
    ⟨0x4C, 4, 1, .ro, 0x0, 0x0⟩,
    ⟨0x50, 4, 1, .ro, 0x0, 0x0⟩,
    ⟨0x54, 4, 1, .ro, 0x0, 0x0⟩,
    ⟨0x58, 4, 1, .ro, 0x0, 0x0⟩,
    ⟨0x5C, 4, 1, .rws, 0x0, 0x0⟩,
    ⟨0x80, 4, 16, .ro, 0x0, 0x0⟩]
  | .sexton => [
    ⟨0x40, 4, 1, .ro, 0x7, 0x0⟩,
    ⟨0x44, 4, 1, .rw, 0x3E8, 0xFFFF⟩,
    ⟨0x48, 4, 1, .ro, 0x0, 0x0⟩,
    ⟨0x4C, 4, 1, .ro, 0x0, 0x0⟩,
    ⟨0x50, 4, 1, .ro, 0x0, 0x0⟩,
    ⟨0x54, 4, 1, .ro, 0x0, 0x0⟩,
    ⟨0x58, 4, 1, .ro, 0x0, 0x0⟩,
    ⟨0x5C, 4, 1, .ro, 0x0, 0x0⟩,
    ⟨0x60, 4, 1, .ro, 0x0, 0x0⟩,
    ⟨0x64, 4, 1, .ro, 0x0, 0x0⟩,
    ⟨0x68, 4, 1, .ro, 0x0, 0x0⟩,
    ⟨0x6C, 4, 1, .rws, 0x0, 0x0⟩]
  | .aud => [
    ⟨0x40, 4, 1, .rwe, 0x0, 0xF0F03⟩,
    ⟨0x44, 4, 1, .ro, 0x0, 0x0⟩,
    ⟨0x48, 4, 1, .rw, 0x0, 0xFFFF⟩,
    ⟨0x4C, 4, 1, .ro, 0x0, 0x0⟩,
    ⟨0x50, 4, 1, .rw, 0x0, 0x1FF⟩,
    ⟨0x54, 4, 1, .rw, 0x0, 0x77777777⟩,
    ⟨0x60, 4, 1, .rw, 0x0, 0x133FF⟩,
    ⟨0x64, 4, 1, .rws, 0x0, 0x0⟩,
    ⟨0x68, 4, 1, .ro, 0x1, 0x0⟩,
    ⟨0x70, 4, 8, .rw, 0x0, 0xFFFFFFFF⟩,
    ⟨0x100, 32, 16, .ro, 0x0, 0x0⟩,
    ⟨0x104, 32, 16, .rw, 0x0, 0xFFFFFFFF⟩] ++ [
    ⟨0x108, 32, 16, .ro, 0x0, 0x0⟩,
    ⟨0x10C, 32, 16, .ro, 0x0, 0x0⟩,
    ⟨0x110, 32, 16, .ro, 0x0, 0x0⟩,
    ⟨0x114, 32, 16, .ro, 0x0, 0x0⟩,
    ⟨0x118, 32, 16, .ro, 0x0, 0x0⟩,
    ⟨0x300, 4, 16, .rw, 0x0, 0x30F7F⟩,
    ⟨0x340, 4, 1, .ro, 0x0, 0x0⟩]
  | .stile => [
    ⟨0x40, 4, 1, .rwe, 0x1E0002, 0xFF3F03⟩,
    ⟨0x44, 4, 1, .rwe, 0x0, 0xFFFFFFFF⟩,
    ⟨0x48, 4, 1, .rwe, 0x0, 0xFFFFFFFF⟩,
    ⟨0x4C, 4, 1, .rwe, 0x0, 0xFFF⟩,
    ⟨0x50, 4, 1, .ro, 0x0, 0x0⟩,
    ⟨0x54, 4, 1, .ro, 0x0, 0x0⟩,
    ⟨0x58, 4, 1, .ro, 0x0, 0x0⟩,
    ⟨0x5C, 4, 1, .ro, 0x0, 0x0⟩,
    ⟨0x60, 4, 1, .ro, 0x0, 0x0⟩,
    ⟨0x64, 4, 1, .ro, 0x0, 0x0⟩,
    ⟨0x68, 4, 1, .ro, 0x0, 0x0⟩,
    ⟨0x6C, 4, 1, .ro, 0x0, 0x0⟩] ++ [
    ⟨0x70, 4, 1, .ro, 0x0, 0x0⟩,
    ⟨0x74, 4, 1, .ro, 0x0, 0x0⟩,
    ⟨0x78, 4, 1, .ro, 0x0, 0x0⟩,
    ⟨0x7C, 4, 1, .ro, 0x0, 0x0⟩,
    ⟨0x80, 4, 1, .ro, 0x0, 0x0⟩,
    ⟨0x84, 4, 1, .ro, 0x0, 0x0⟩,
    ⟨0x88, 4, 1, .ro, 0x0, 0x0⟩,
    ⟨0x8C, 4, 1, .ro, 0x0, 0x0⟩,
    ⟨0x90, 4, 1, .rws, 0x0, 0x0⟩,
    ⟨0x94, 4, 1, .rws, 0x0, 0x0⟩,
    ⟨0xA0, 4, 4, .rw, 0x0, 0xFFFFFFFF⟩]
  | .pbook => [
    ⟨0x40, 4, 1, .rw, 0x0, 0x3⟩,
    ⟨0x44, 4, 1, .rw, 0x0, 0xFFFFFFFF⟩,
    ⟨0x48, 4, 1, .rws, 0x0, 0x0⟩,
    ⟨0x4C, 4, 1, .ro, 0x1, 0x0⟩,
    ⟨0x50, 8, 3, .ro, 0x0, 0x0⟩,
    ⟨0x54, 8, 3, .rw, 0x0, 0xFFFFFFFF⟩,
    ⟨0x80, 4, 16, .ro, 0x0, 0x0⟩,
    ⟨0xC0, 4, 1, .ro, 0x200, 0x0⟩,
    ⟨0xC4, 4, 1, .ro, 0x0, 0x0⟩,
    ⟨0xC8, 4, 1, .ro, 0x0, 0x0⟩,
    ⟨0xCC, 4, 1, .ro, 0x0, 0x0⟩,
    ⟨0xD0, 4, 1, .ro, 0x0, 0x0⟩] ++ [
    ⟨0xD4, 4, 1, .rws, 0x0, 0x0⟩,
    ⟨0xD8, 4, 1, .ro, 0x0, 0x0⟩,
    ⟨0xDC, 4, 1, .ro, 0x0, 0x0⟩]

namespace Pg
/-- Byte address of page dev (Table 21-1). -/
@[simp] abbrev dev : Nat := 0x0
/-- Byte address of page stp (Table 21-1). -/
@[simp] abbrev stp : Nat := 0x100000
/-- Byte address of page ptp (Table 21-1). -/
@[simp] abbrev ptp : Nat := 0x101000
/-- Byte address of page belfry (Table 21-1). -/
@[simp] abbrev belfry : Nat := 0x200000
/-- Byte address of page bell `n` (Table 21-1). -/
@[simp] abbrev bell (n : Nat) : Nat := 0x201000 + 0x1000 * n
/-- Byte address of page reeve (Table 21-1). -/
@[simp] abbrev reeve : Nat := 0x300000
/-- Byte address of page cc `n` (Table 21-1). -/
@[simp] abbrev cc (n : Nat) : Nat := 0x301000 + 0x1000 * n
/-- Byte address of page ee `n` (Table 21-1). -/
@[simp] abbrev ee (n : Nat) : Nat := 0x400000 + 0x1000 * n
/-- Byte address of page gang `n` (Table 21-1). -/
@[simp] abbrev gang (n : Nat) : Nat := 0x440000 + 0x1000 * n
/-- Byte address of page a of the gang windows (Table 21-1). -/
@[simp] abbrev aliasPg (n : Nat) : Nat := 0x5C0000 + 0x1000 * n
/-- Byte address of page ch `n` (Table 21-1). -/
@[simp] abbrev ch (n : Nat) : Nat := 0x800000 + 0x4000 * n
/-- Byte address of page chrc `n` (Table 21-1). -/
@[simp] abbrev chrc (n : Nat) : Nat := 0x801000 + 0x4000 * n
/-- Byte address of page chcomp `n` (Table 21-1). -/
@[simp] abbrev chcomp (n : Nat) : Nat := 0x802000 + 0x4000 * n
/-- Byte address of page chaud `n` (Table 21-1). -/
@[simp] abbrev chaud (n : Nat) : Nat := 0x803000 + 0x4000 * n
/-- Byte address of page mon (Table 21-1). -/
@[simp] abbrev mon : Nat := 0x1000000
/-- Byte address of page clp `n` (Table 21-1). -/
@[simp] abbrev clp (n : Nat) : Nat := 0x1400000 + 0x1000 * n
/-- Byte address of page ing (Table 21-1). -/
@[simp] abbrev ing : Nat := 0x1410000
/-- Byte address of page inp `n` (Table 21-1). -/
@[simp] abbrev inp (n : Nat) : Nat := 0x1420000 + 0x1000 * n
/-- Byte address of page etm (Table 21-1). -/
@[simp] abbrev etm : Nat := 0x1800000
/-- Byte address of page eport `n` (Table 21-1). -/
@[simp] abbrev eport (n : Nat) : Nat := 0x1801000 + 0x1000 * n
/-- Byte address of page erend `n` (Table 21-1). -/
@[simp] abbrev erend (n : Nat) : Nat := 0x1810000 + 0x1000 * n
/-- Byte address of page eth `n` (Table 21-1). -/
@[simp] abbrev eth (n : Nat) : Nat := 0x1C00000 + 0x1000 * n
/-- Byte address of page hbm (Table 21-1). -/
@[simp] abbrev hbm : Nat := 0x2000000
/-- Byte address of page pch `n` (Table 21-1). -/
@[simp] abbrev pch (n : Nat) : Nat := 0x2001000 + 0x1000 * n
/-- Byte address of page mp (Table 21-1). -/
@[simp] abbrev mp : Nat := 0x2400000
/-- Byte address of page mtx (Table 21-1). -/
@[simp] abbrev mtx : Nat := 0x2800000
/-- Byte address of page cvu `n` (Table 21-1). -/
@[simp] abbrev cvu (n : Nat) : Nat := 0x2C00000 + 0x1000 * n
/-- Byte address of page watch (Table 21-1). -/
@[simp] abbrev watch : Nat := 0x3000000
/-- Byte address of page sexton (Table 21-1). -/
@[simp] abbrev sexton : Nat := 0x3001000
/-- Byte address of page aud (Table 21-1). -/
@[simp] abbrev aud : Nat := 0x3400000
/-- Byte address of page stile (Table 21-1). -/
@[simp] abbrev stile : Nat := 0x3800000
/-- Byte address of page pbook (Table 21-1). -/
@[simp] abbrev pbook : Nat := 0x3C00000
end Pg

/-! The byte address of every block register, named page and register as the manual names them. -/
namespace Reg

/-! dev: Tables 19-9 and 2-7. -/
@[simp] abbrev devModeReq : Nat := 0x40
@[simp] abbrev devBootStat : Nat := 0x44
@[simp] abbrev devBootTime : Nat := 0x48
@[simp] abbrev devResetCause : Nat := 0x4C
@[simp] abbrev devSwreset : Nat := 0x50
@[simp] abbrev devFuseStat : Nat := 0x54
@[simp] abbrev devRollbackCommit : Nat := 0x58
@[simp] abbrev devImgVer : Nat := 0x5C
@[simp] abbrev devClkStat : Nat := 0x60
@[simp] abbrev devPwrStat : Nat := 0x64
@[simp] abbrev devAllotCompact : Nat := 0x400
@[simp] abbrev devBwCeil : Nat := 0x404
@[simp] abbrev devBwUsed : Nat := 0x408
@[simp] abbrev devBwReserve : Nat := 0x40C
@[simp] abbrev devPlaceDigestLo : Nat := 0x410
@[simp] abbrev devPlaceDigestHi : Nat := 0x414
@[simp] abbrev devEngines : Nat := 0x418
@[simp] abbrev devStreams : Nat := 0x41C
@[simp] abbrev devEpoch : Nat := 0x420

/-! stp: Tables 1-8 and 1-9. -/
@[simp] abbrev stpPosLo : Nat := 0x100040
@[simp] abbrev stpPosHi : Nat := 0x100044
@[simp] abbrev stpRaster : Nat := 0x100048
@[simp] abbrev stpSrc : Nat := 0x10004C
@[simp] abbrev stpState : Nat := 0x100050
@[simp] abbrev stpPhaseErr : Nat := 0x100054
@[simp] abbrev stpJumpLimit : Nat := 0x100058
@[simp] abbrev stpJumpAccept : Nat := 0x10005C
@[simp] abbrev stpGlitchCnt : Nat := 0x100060
@[simp] abbrev stpToutCfg : Nat := 0x100064
@[simp] abbrev stpLateLo : Nat := 0x100068
@[simp] abbrev stpLateHi : Nat := 0x10006C
@[simp] abbrev stpHoldFrames : Nat := 0x100070
@[simp] abbrev stpActTgtLo (i : Nat) : Nat := 0x100100 + 0x20 * i
@[simp] abbrev stpActTgtHi (i : Nat) : Nat := 0x100104 + 0x20 * i
@[simp] abbrev stpActPeriodLo (i : Nat) : Nat := 0x100108 + 0x20 * i
@[simp] abbrev stpActPeriodHi (i : Nat) : Nat := 0x10010C + 0x20 * i
@[simp] abbrev stpActCtrl (i : Nat) : Nat := 0x100110 + 0x20 * i
@[simp] abbrev stpActThread (i : Nat) : Nat := 0x100114 + 0x20 * i
@[simp] abbrev stpActPage (i : Nat) : Nat := 0x100118 + 0x20 * i
@[simp] abbrev stpActStatus (i : Nat) : Nat := 0x10011C + 0x20 * i

/-! ptp: Table 10-4. -/
@[simp] abbrev ptpCfg : Nat := 0x101040
@[simp] abbrev ptpDomain : Nat := 0x101044
@[simp] abbrev ptpIntervals : Nat := 0x101048
@[simp] abbrev ptpPriority : Nat := 0x10104C
@[simp] abbrev ptpJumpLimit : Nat := 0x101050
@[simp] abbrev ptpJumpAccept : Nat := 0x101054
@[simp] abbrev ptpServoBw : Nat := 0x101058
@[simp] abbrev ptpPortState : Nat := 0x10105C
@[simp] abbrev ptpOffset : Nat := 0x101060
@[simp] abbrev ptpMpd : Nat := 0x101064
@[simp] abbrev ptpGmIdLo : Nat := 0x101068
@[simp] abbrev ptpGmIdHi : Nat := 0x10106C
@[simp] abbrev ptpMapLo : Nat := 0x101070
@[simp] abbrev ptpMapHi : Nat := 0x101074
@[simp] abbrev ptpUtcOffset : Nat := 0x101078
@[simp] abbrev ptpDelayDiscard : Nat := 0x10107C
@[simp] abbrev ptpDiscards : Nat := 0x101080

/-! belfry: Table 14-3. -/
@[simp] abbrev belfryReq : Nat := 0x200040
@[simp] abbrev belfryEligible : Nat := 0x200044
@[simp] abbrev belfryOrphan : Nat := 0x200048
@[simp] abbrev belfryOrphanClr : Nat := 0x20004C
@[simp] abbrev belfryHighest (i : Nat) : Nat := 0x200100 + 0x10 * i
@[simp] abbrev belfryClaim (i : Nat) : Nat := 0x200104 + 0x10 * i
@[simp] abbrev belfryComplete (i : Nat) : Nat := 0x200108 + 0x10 * i

/-! bell: Tables 14-4 and 14-5. -/
@[simp] abbrev bellPendingLo (n : Nat) : Nat := 0x201040 + 0x1000 * n
@[simp] abbrev bellPendingHi (n : Nat) : Nat := 0x201044 + 0x1000 * n
@[simp] abbrev bellActiveLo (n : Nat) : Nat := 0x201048 + 0x1000 * n
@[simp] abbrev bellActiveHi (n : Nat) : Nat := 0x20104C + 0x1000 * n
@[simp] abbrev bellInputLo (n : Nat) : Nat := 0x201050 + 0x1000 * n
@[simp] abbrev bellInputHi (n : Nat) : Nat := 0x201054 + 0x1000 * n
@[simp] abbrev bellMerged (n : Nat) : Nat := 0x201058 + 0x1000 * n
@[simp] abbrev bellCompleteIgn (n : Nat) : Nat := 0x20105C + 0x1000 * n
@[simp] abbrev bellEnableLo (n : Nat) (i : Nat) : Nat := 0x201100 + 0x1000 * n + 0x10 * i
@[simp] abbrev bellEnableHi (n : Nat) (i : Nat) : Nat := 0x201104 + 0x1000 * n + 0x10 * i
@[simp] abbrev bellClaim (n : Nat) (i : Nat) : Nat := 0x201108 + 0x1000 * n + 0x10 * i
@[simp] abbrev bellComplete (n : Nat) (i : Nat) : Nat := 0x20110C + 0x1000 * n + 0x10 * i
@[simp] abbrev bellSrcCfg (n : Nat) (i : Nat) : Nat := 0x201200 + 0x1000 * n + 0x4 * i

/-! reeve: Table 13-6. -/
@[simp] abbrev reeveDoorbell : Nat := 0x300040
@[simp] abbrev reeveDbLevel : Nat := 0x300044
@[simp] abbrev reeveDbRefused : Nat := 0x300048
@[simp] abbrev reeveDbStalls : Nat := 0x30004C
@[simp] abbrev reeveAbsorbed : Nat := 0x300050
@[simp] abbrev reeveReadyCnt : Nat := 0x300054
@[simp] abbrev reeveLate : Nat := 0x300058
@[simp] abbrev reeveOwnerDrop : Nat := 0x30005C
@[simp] abbrev reeveTblAddr : Nat := 0x300060
@[simp] abbrev reeveTblGo : Nat := 0x300064
@[simp] abbrev reeveTblStat : Nat := 0x300068
@[simp] abbrev reeveTblData (i : Nat) : Nat := 0x300070 + 0x4 * i

/-! cc: Table 13-7. -/
@[simp] abbrev ccNext (n : Nat) : Nat := 0x301040 + 0x1000 * n
@[simp] abbrev ccDone (n : Nat) : Nat := 0x301044 + 0x1000 * n
@[simp] abbrev ccRunning (n : Nat) : Nat := 0x301048 + 0x1000 * n
@[simp] abbrev ccPstate (n : Nat) : Nat := 0x30104C + 0x1000 * n
@[simp] abbrev ccDrain (n : Nat) : Nat := 0x301050 + 0x1000 * n
@[simp] abbrev ccImgLo (n : Nat) : Nat := 0x301054 + 0x1000 * n
@[simp] abbrev ccImgHi (n : Nat) : Nat := 0x301058 + 0x1000 * n
@[simp] abbrev ccLoad (n : Nat) : Nat := 0x30105C + 0x1000 * n
@[simp] abbrev ccDispatches (n : Nat) : Nat := 0x301060 + 0x1000 * n
@[simp] abbrev ccPreempts (n : Nat) : Nat := 0x301064 + 0x1000 * n
@[simp] abbrev ccLockstepErr (n : Nat) : Nat := 0x301068 + 0x1000 * n
@[simp] abbrev ccStranded (n : Nat) : Nat := 0x30106C + 0x1000 * n

/-! ee: Table 4-10. -/
@[simp] abbrev eeEngState (n : Nat) : Nat := 0x400040 + 0x1000 * n
@[simp] abbrev eePosition (n : Nat) : Nat := 0x400044 + 0x1000 * n
@[simp] abbrev eeLoad (n : Nat) : Nat := 0x400048 + 0x1000 * n
@[simp] abbrev eeRows (n : Nat) : Nat := 0x40004C + 0x1000 * n
@[simp] abbrev eeBitsLo (n : Nat) : Nat := 0x400050 + 0x1000 * n
@[simp] abbrev eeBitsHi (n : Nat) : Nat := 0x400054 + 0x1000 * n
@[simp] abbrev eeIntraCtus (n : Nat) : Nat := 0x400058 + 0x1000 * n
@[simp] abbrev eeSkipCtus (n : Nat) : Nat := 0x40005C + 0x1000 * n
@[simp] abbrev eeEmergRows (n : Nat) : Nat := 0x400060 + 0x1000 * n
@[simp] abbrev eeSliceCrc (n : Nat) : Nat := 0x400064 + 0x1000 * n
@[simp] abbrev eeRowClkMax (n : Nat) : Nat := 0x400068 + 0x1000 * n
@[simp] abbrev eeStatClr (n : Nat) : Nat := 0x40006C + 0x1000 * n
@[simp] abbrev eeStallClks (n : Nat) : Nat := 0x400070 + 0x1000 * n
@[simp] abbrev eeStallMax (n : Nat) : Nat := 0x400074 + 0x1000 * n
@[simp] abbrev eeCtx (n : Nat) (i : Nat) : Nat := 0x400080 + 0x1000 * n + 0x4 * i
@[simp] abbrev eeReconLo (n : Nat) : Nat := 0x400100 + 0x1000 * n
@[simp] abbrev eeReconHi (n : Nat) : Nat := 0x400104 + 0x1000 * n
@[simp] abbrev eeReconPitch (n : Nat) : Nat := 0x400108 + 0x1000 * n
@[simp] abbrev eeReconChroma (n : Nat) : Nat := 0x40010C + 0x1000 * n
@[simp] abbrev eeReconPoc (n : Nat) : Nat := 0x400110 + 0x1000 * n
@[simp] abbrev eeReconFrame (n : Nat) : Nat := 0x400114 + 0x1000 * n
@[simp] abbrev eeReconSel (n : Nat) : Nat := 0x400118 + 0x1000 * n

/-! ch: Tables 2-1, 2-2, 2-6, 4-8 and 4-9. -/
@[simp] abbrev chFormat (n : Nat) : Nat := 0x800040 + 0x4000 * n
@[simp] abbrev chPixel (n : Nat) : Nat := 0x800044 + 0x4000 * n
@[simp] abbrev chRate (n : Nat) : Nat := 0x800048 + 0x4000 * n
@[simp] abbrev chFps (n : Nat) : Nat := 0x80004C + 0x4000 * n
@[simp] abbrev chLines (n : Nat) : Nat := 0x800050 + 0x4000 * n
@[simp] abbrev chLatency (n : Nat) : Nat := 0x800054 + 0x4000 * n
@[simp] abbrev chLatpad (n : Nat) : Nat := 0x800058 + 0x4000 * n
@[simp] abbrev chInput (n : Nat) : Nat := 0x80005C + 0x4000 * n
@[simp] abbrev chMpPlots (n : Nat) : Nat := 0x800060 + 0x4000 * n
@[simp] abbrev chShedOrder (n : Nat) : Nat := 0x800064 + 0x4000 * n
@[simp] abbrev chRendCtrl (n : Nat) (i : Nat) : Nat := 0x800080 + 0x4000 * n + 0x20 * i
@[simp] abbrev chRendSize (n : Nat) (i : Nat) : Nat := 0x800084 + 0x4000 * n + 0x20 * i
@[simp] abbrev chRendCodec (n : Nat) (i : Nat) : Nat := 0x800088 + 0x4000 * n + 0x20 * i
@[simp] abbrev chRendSearch (n : Nat) (i : Nat) : Nat := 0x80008C + 0x4000 * n + 0x20 * i
@[simp] abbrev chAllotState (n : Nat) : Nat := 0x800100 + 0x4000 * n
@[simp] abbrev chAllotGang (n : Nat) : Nat := 0x800104 + 0x4000 * n
@[simp] abbrev chAllotCore (n : Nat) : Nat := 0x800108 + 0x4000 * n
@[simp] abbrev chAllotCtrlLine (n : Nat) : Nat := 0x80010C + 0x4000 * n
@[simp] abbrev chAllotThread (n : Nat) : Nat := 0x800110 + 0x4000 * n
@[simp] abbrev chAllotBw (n : Nat) : Nat := 0x800114 + 0x4000 * n
@[simp] abbrev chAllotD (n : Nat) : Nat := 0x800118 + 0x4000 * n
@[simp] abbrev chAllotPlots (n : Nat) : Nat := 0x80011C + 0x4000 * n
@[simp] abbrev chAllotHbm (n : Nat) : Nat := 0x800120 + 0x4000 * n
@[simp] abbrev chAllotRend (n : Nat) (i : Nat) : Nat := 0x800124 + 0x4000 * n + 0x4 * i
@[simp] abbrev chTools (n : Nat) (i : Nat) : Nat := 0x800200 + 0x4000 * n + 0x40 * i
@[simp] abbrev chDbk (n : Nat) (i : Nat) : Nat := 0x800204 + 0x4000 * n + 0x40 * i
@[simp] abbrev chRefresh (n : Nat) (i : Nat) : Nat := 0x800208 + 0x4000 * n + 0x40 * i
@[simp] abbrev chGop (n : Nat) (i : Nat) : Nat := 0x80020C + 0x4000 * n + 0x40 * i
@[simp] abbrev chSlice (n : Nat) (i : Nat) : Nat := 0x800210 + 0x4000 * n + 0x40 * i
@[simp] abbrev chFirst (n : Nat) (i : Nat) : Nat := 0x800214 + 0x4000 * n + 0x40 * i
@[simp] abbrev chColour (n : Nat) (i : Nat) : Nat := 0x800218 + 0x4000 * n + 0x40 * i
@[simp] abbrev chMdcvG (n : Nat) (i : Nat) : Nat := 0x800220 + 0x4000 * n + 0x40 * i
@[simp] abbrev chMdcvB (n : Nat) (i : Nat) : Nat := 0x800224 + 0x4000 * n + 0x40 * i
@[simp] abbrev chMdcvR (n : Nat) (i : Nat) : Nat := 0x800228 + 0x4000 * n + 0x40 * i
@[simp] abbrev chMdcvWp (n : Nat) (i : Nat) : Nat := 0x80022C + 0x4000 * n + 0x40 * i
@[simp] abbrev chMdcvMax (n : Nat) (i : Nat) : Nat := 0x800230 + 0x4000 * n + 0x40 * i
@[simp] abbrev chMdcvMin (n : Nat) (i : Nat) : Nat := 0x800234 + 0x4000 * n + 0x40 * i
@[simp] abbrev chCll (n : Nat) (i : Nat) : Nat := 0x800238 + 0x4000 * n + 0x40 * i
@[simp] abbrev chGlnCtrl (n : Nat) : Nat := 0x800300 + 0x4000 * n
@[simp] abbrev chGlnLast (n : Nat) : Nat := 0x800304 + 0x4000 * n
@[simp] abbrev chGlnCuts (n : Nat) : Nat := 0x800308 + 0x4000 * n
@[simp] abbrev chGlnFades (n : Nat) : Nat := 0x80030C + 0x4000 * n
@[simp] abbrev chGlnWeight (n : Nat) : Nat := 0x800310 + 0x4000 * n

/-! chrc: Tables 5-4 and 5-5. -/
@[simp] abbrev chrcBitrate (n : Nat) (i : Nat) : Nat := 0x801040 + 0x4000 * n + 0x40 * i
@[simp] abbrev chrcPeak (n : Nat) (i : Nat) : Nat := 0x801044 + 0x4000 * n + 0x40 * i
@[simp] abbrev chrcWindow (n : Nat) (i : Nat) : Nat := 0x801048 + 0x4000 * n + 0x40 * i
@[simp] abbrev chrcQp (n : Nat) (i : Nat) : Nat := 0x80104C + 0x4000 * n + 0x40 * i
@[simp] abbrev chrcAq (n : Nat) (i : Nat) : Nat := 0x801050 + 0x4000 * n + 0x40 * i
@[simp] abbrev chrcFwTgt (n : Nat) (i : Nat) : Nat := 0x801054 + 0x4000 * n + 0x40 * i
@[simp] abbrev chrcFwQp (n : Nat) (i : Nat) : Nat := 0x801058 + 0x4000 * n + 0x40 * i
@[simp] abbrev chrcCpbBits (n : Nat) (i : Nat) : Nat := 0x80105C + 0x4000 * n + 0x40 * i
@[simp] abbrev chrcRowCap (n : Nat) (i : Nat) : Nat := 0x801060 + 0x4000 * n + 0x40 * i
@[simp] abbrev chrcFrameTgt (n : Nat) (i : Nat) : Nat := 0x801064 + 0x4000 * n + 0x40 * i
@[simp] abbrev chrcFrameQp (n : Nat) (i : Nat) : Nat := 0x801068 + 0x4000 * n + 0x40 * i
@[simp] abbrev chrcFrameBits (n : Nat) (i : Nat) : Nat := 0x80106C + 0x4000 * n + 0x40 * i
@[simp] abbrev chrcWinExcess (n : Nat) (i : Nat) : Nat := 0x801070 + 0x4000 * n + 0x40 * i
@[simp] abbrev chrcOvfRows (n : Nat) (i : Nat) : Nat := 0x801074 + 0x4000 * n + 0x40 * i
@[simp] abbrev chrcMisses (n : Nat) (i : Nat) : Nat := 0x801078 + 0x4000 * n + 0x40 * i
@[simp] abbrev chrcFwLate (n : Nat) (i : Nat) : Nat := 0x80107C + 0x4000 * n + 0x40 * i
@[simp] abbrev chrcDMin (n : Nat) : Nat := 0x801200 + 0x4000 * n
@[simp] abbrev chrcLastMiss (n : Nat) : Nat := 0x801204 + 0x4000 * n
@[simp] abbrev chrcStatClr (n : Nat) : Nat := 0x801208 + 0x4000 * n

/-! chcomp: Tables 6-3 and 6-4. -/
@[simp] abbrev chcompLatch (n : Nat) : Nat := 0x802040 + 0x4000 * n
@[simp] abbrev chcompOrder (n : Nat) : Nat := 0x802044 + 0x4000 * n
@[simp] abbrev chcompCompCfg (n : Nat) : Nat := 0x802048 + 0x4000 * n
@[simp] abbrev chcompCommitStat (n : Nat) : Nat := 0x80204C + 0x4000 * n
@[simp] abbrev chcompLiveMiss (n : Nat) : Nat := 0x802050 + 0x4000 * n
@[simp] abbrev chcompLayerLate (n : Nat) : Nat := 0x802054 + 0x4000 * n
@[simp] abbrev chcompLutAddr (n : Nat) : Nat := 0x802060 + 0x4000 * n
@[simp] abbrev chcompLutData (n : Nat) : Nat := 0x802064 + 0x4000 * n
@[simp] abbrev chcompLutGo (n : Nat) : Nat := 0x802068 + 0x4000 * n
@[simp] abbrev chcompLutStat (n : Nat) : Nat := 0x80206C + 0x4000 * n
@[simp] abbrev chcompLCfg (n : Nat) (i : Nat) : Nat := 0x802100 + 0x4000 * n + 0x40 * i
@[simp] abbrev chcompLMax (n : Nat) (i : Nat) : Nat := 0x802104 + 0x4000 * n + 0x40 * i
@[simp] abbrev chcompLAddrLo (n : Nat) (i : Nat) : Nat := 0x802108 + 0x4000 * n + 0x40 * i
@[simp] abbrev chcompLAddrHi (n : Nat) (i : Nat) : Nat := 0x80210C + 0x4000 * n + 0x40 * i
@[simp] abbrev chcompLPitch (n : Nat) (i : Nat) : Nat := 0x802110 + 0x4000 * n + 0x40 * i
@[simp] abbrev chcompLPos (n : Nat) (i : Nat) : Nat := 0x802114 + 0x4000 * n + 0x40 * i
@[simp] abbrev chcompLSize (n : Nat) (i : Nat) : Nat := 0x802118 + 0x4000 * n + 0x40 * i
@[simp] abbrev chcompLAlpha (n : Nat) (i : Nat) : Nat := 0x80211C + 0x4000 * n + 0x40 * i
@[simp] abbrev chcompLKey (n : Nat) (i : Nat) : Nat := 0x802120 + 0x4000 * n + 0x40 * i
@[simp] abbrev chcompLColour (n : Nat) (i : Nat) : Nat := 0x802124 + 0x4000 * n + 0x40 * i
@[simp] abbrev chcompLadder (n : Nat) (i : Nat) : Nat := 0x802300 + 0x4000 * n + 0x4 * i

/-! chaud: Table 11-4. -/
@[simp] abbrev chaudTrack (n : Nat) (i : Nat) : Nat := 0x803040 + 0x4000 * n + 0x4 * i
@[simp] abbrev chaudS302 (n : Nat) (i : Nat) : Nat := 0x803080 + 0x4000 * n + 0x4 * i
@[simp] abbrev chaudDSamples (n : Nat) : Nat := 0x803090 + 0x4000 * n
@[simp] abbrev chaudAesCtrl (n : Nat) (i : Nat) : Nat := 0x8030A0 + 0x4000 * n + 0x20 * i
@[simp] abbrev chaudAesDstA (n : Nat) (i : Nat) : Nat := 0x8030A4 + 0x4000 * n + 0x20 * i
@[simp] abbrev chaudAesDstB (n : Nat) (i : Nat) : Nat := 0x8030A8 + 0x4000 * n + 0x20 * i
@[simp] abbrev chaudAesUdp (n : Nat) (i : Nat) : Nat := 0x8030AC + 0x4000 * n + 0x20 * i
@[simp] abbrev chaudAesSsrc (n : Nat) (i : Nat) : Nat := 0x8030B0 + 0x4000 * n + 0x20 * i
@[simp] abbrev chaudAesNode (n : Nat) (i : Nat) : Nat := 0x8030B4 + 0x4000 * n + 0x20 * i
@[simp] abbrev chaudAesNh (n : Nat) (i : Nat) : Nat := 0x8030B8 + 0x4000 * n + 0x20 * i

/-! mon: Tables 12-2 and 12-3. -/
@[simp] abbrev monRaster : Nat := 0x1000040
@[simp] abbrev monTiming : Nat := 0x1000044
@[simp] abbrev monCfg : Nat := 0x1000048
@[simp] abbrev monMatchLine : Nat := 0x100004C
@[simp] abbrev monFill : Nat := 0x1000050
@[simp] abbrev monCommitStat : Nat := 0x1000054
@[simp] abbrev monUnderrun : Nat := 0x1000058
@[simp] abbrev monRbStat : Nat := 0x100005C
@[simp] abbrev monRbErr : Nat := 0x1000060
@[simp] abbrev monRbCrcTx : Nat := 0x1000064
@[simp] abbrev monRbCrcRx : Nat := 0x1000068
@[simp] abbrev monTSrc (i : Nat) : Nat := 0x1000100 + 0x10 * i
@[simp] abbrev monTPos (i : Nat) : Nat := 0x1000104 + 0x10 * i
@[simp] abbrev monOvlCfg (i : Nat) : Nat := 0x1000500 + 0x20 * i
@[simp] abbrev monOvlAddrLo (i : Nat) : Nat := 0x1000504 + 0x20 * i
@[simp] abbrev monOvlAddrHi (i : Nat) : Nat := 0x1000508 + 0x20 * i
@[simp] abbrev monOvlPitch (i : Nat) : Nat := 0x100050C + 0x20 * i
@[simp] abbrev monOvlPos (i : Nat) : Nat := 0x1000510 + 0x20 * i
@[simp] abbrev monOvlSize (i : Nat) : Nat := 0x1000514 + 0x20 * i
@[simp] abbrev monOvlAlpha (i : Nat) : Nat := 0x1000518 + 0x20 * i
@[simp] abbrev monOvlColour (i : Nat) : Nat := 0x100051C + 0x20 * i

/-! clp: Tables 7-7 and 7-8. -/
@[simp] abbrev clpCfg (n : Nat) : Nat := 0x1400040 + 0x1000 * n
@[simp] abbrev clpPreset (n : Nat) : Nat := 0x1400044 + 0x1000 * n
@[simp] abbrev clpAdapt (n : Nat) : Nat := 0x1400048 + 0x1000 * n
@[simp] abbrev clpLinkState (n : Nat) : Nat := 0x140004C + 0x1000 * n
@[simp] abbrev clpMarker (n : Nat) : Nat := 0x1400050 + 0x1000 * n
@[simp] abbrev clpSkpAdj (n : Nat) : Nat := 0x1400054 + 0x1000 * n
@[simp] abbrev clpRecon (n : Nat) : Nat := 0x1400058 + 0x1000 * n
@[simp] abbrev clpRetrain (n : Nat) : Nat := 0x140005C + 0x1000 * n
@[simp] abbrev clpLanePwr (n : Nat) : Nat := 0x1400060 + 0x1000 * n
@[simp] abbrev clpLaneState (n : Nat) (i : Nat) : Nat := 0x1400100 + 0x1000 * n + 0x20 * i
@[simp] abbrev clpLaneEq (n : Nat) (i : Nat) : Nat := 0x1400104 + 0x1000 * n + 0x20 * i
@[simp] abbrev clpLaneFom (n : Nat) (i : Nat) : Nat := 0x1400108 + 0x1000 * n + 0x20 * i
@[simp] abbrev clpLaneCv (n : Nat) (i : Nat) : Nat := 0x140010C + 0x1000 * n + 0x20 * i
@[simp] abbrev clpLaneDisp (n : Nat) (i : Nat) : Nat := 0x1400110 + 0x1000 * n + 0x20 * i
@[simp] abbrev clpLaneClr (n : Nat) (i : Nat) : Nat := 0x1400114 + 0x1000 * n + 0x20 * i

/-! ing: Table 21-5. -/
@[simp] abbrev ingYelThresh : Nat := 0x1410040
@[simp] abbrev ingTblAddr : Nat := 0x1410044
@[simp] abbrev ingTblGo : Nat := 0x1410048
@[simp] abbrev ingTblStat : Nat := 0x141004C
@[simp] abbrev ingTblData (i : Nat) : Nat := 0x1410060 + 0x4 * i

/-! inp: Table 8-4. -/
@[simp] abbrev inpSrc (n : Nat) : Nat := 0x1420040 + 0x1000 * n
@[simp] abbrev inpGeom (n : Nat) : Nat := 0x1420044 + 0x1000 * n
@[simp] abbrev inpTiming (n : Nat) : Nat := 0x1420048 + 0x1000 * n
@[simp] abbrev inpFps (n : Nat) : Nat := 0x142004C + 0x1000 * n
@[simp] abbrev inpLoss (n : Nat) : Nat := 0x1420050 + 0x1000 * n
@[simp] abbrev inpSlateLo (n : Nat) : Nat := 0x1420054 + 0x1000 * n
@[simp] abbrev inpSlateHi (n : Nat) : Nat := 0x1420058 + 0x1000 * n
@[simp] abbrev inpFlow (n : Nat) : Nat := 0x142005C + 0x1000 * n
@[simp] abbrev inpPdMax (n : Nat) : Nat := 0x1420060 + 0x1000 * n
@[simp] abbrev inpTsOffset (n : Nat) : Nat := 0x1420064 + 0x1000 * n
@[simp] abbrev inpCir (n : Nat) : Nat := 0x1420068 + 0x1000 * n
@[simp] abbrev inpCbs (n : Nat) : Nat := 0x142006C + 0x1000 * n
@[simp] abbrev inpPir (n : Nat) : Nat := 0x1420070 + 0x1000 * n
@[simp] abbrev inpPbs (n : Nat) : Nat := 0x1420074 + 0x1000 * n
@[simp] abbrev inpState (n : Nat) : Nat := 0x1420080 + 0x1000 * n
@[simp] abbrev inpPathDiff (n : Nat) : Nat := 0x1420084 + 0x1000 * n
@[simp] abbrev inpSkew (n : Nat) : Nat := 0x1420088 + 0x1000 * n
@[simp] abbrev inpRepeats (n : Nat) : Nat := 0x142008C + 0x1000 * n
@[simp] abbrev inpCrcErr (n : Nat) : Nat := 0x1420090 + 0x1000 * n
@[simp] abbrev inpAborts (n : Nat) : Nat := 0x1420094 + 0x1000 * n
@[simp] abbrev inpEarly (n : Nat) : Nat := 0x1420098 + 0x1000 * n
@[simp] abbrev inpStatClr (n : Nat) : Nat := 0x142009C + 0x1000 * n
@[simp] abbrev inpRed (n : Nat) (i : Nat) : Nat := 0x14200A0 + 0x1000 * n + 0x10 * i
@[simp] abbrev inpYelDrop (n : Nat) (i : Nat) : Nat := 0x14200A4 + 0x1000 * n + 0x10 * i
@[simp] abbrev inpFullDrop (n : Nat) (i : Nat) : Nat := 0x14200A8 + 0x1000 * n + 0x10 * i
@[simp] abbrev inpSeqLost (n : Nat) : Nat := 0x14200AC + 0x1000 * n

/-! etm: Table 9-4. -/
@[simp] abbrev etmTblAddr : Nat := 0x1800040
@[simp] abbrev etmTblGo : Nat := 0x1800044
@[simp] abbrev etmTblStat : Nat := 0x1800048
@[simp] abbrev etmFlowsEn : Nat := 0x180004C
@[simp] abbrev etmOpenLag : Nat := 0x1800050
@[simp] abbrev etmSampleCfg : Nat := 0x1800054
@[simp] abbrev etmSkips : Nat := 0x1800058
@[simp] abbrev etmLate : Nat := 0x180005C
@[simp] abbrev etmRereads : Nat := 0x1800060
@[simp] abbrev etmCtxMiss : Nat := 0x1800064
@[simp] abbrev etmMemErr : Nat := 0x1800068
@[simp] abbrev etmTblData (i : Nat) : Nat := 0x1800080 + 0x4 * i
@[simp] abbrev etmSmpSel (i : Nat) : Nat := 0x1800200 + 0x8 * i
@[simp] abbrev etmSmpVal (i : Nat) : Nat := 0x1800204 + 0x8 * i

/-! eport: Table 9-6. -/
@[simp] abbrev eportPcfg (n : Nat) : Nat := 0x1801040 + 0x1000 * n
@[simp] abbrev eportCalCycle (n : Nat) : Nat := 0x1801044 + 0x1000 * n
@[simp] abbrev eportPstat (n : Nat) : Nat := 0x1801048 + 0x1000 * n
@[simp] abbrev eportFrames (n : Nat) : Nat := 0x180104C + 0x1000 * n
@[simp] abbrev eportBytesLo (n : Nat) : Nat := 0x1801050 + 0x1000 * n
@[simp] abbrev eportBytesHi (n : Nat) : Nat := 0x1801054 + 0x1000 * n
@[simp] abbrev eportWaits (n : Nat) : Nat := 0x1801058 + 0x1000 * n
@[simp] abbrev eportPacedIs (n : Nat) : Nat := 0x180105C + 0x1000 * n
@[simp] abbrev eportCal (n : Nat) (i : Nat) : Nat := 0x1801080 + 0x1000 * n + 0x4 * i

/-! erend: Table 9-7. -/
@[simp] abbrev erendFormat (n : Nat) (i : Nat) : Nat := 0x1810040 + 0x1000 * n + 0x40 * i
@[simp] abbrev erendWeight (n : Nat) (i : Nat) : Nat := 0x1810044 + 0x1000 * n + 0x40 * i
@[simp] abbrev erendTsPids (n : Nat) (i : Nat) : Nat := 0x1810048 + 0x1000 * n + 0x40 * i
@[simp] abbrev erendTsOffset (n : Nat) (i : Nat) : Nat := 0x181004C + 0x1000 * n + 0x40 * i
@[simp] abbrev erendDonDiff (n : Nat) (i : Nat) : Nat := 0x1810050 + 0x1000 * n + 0x40 * i
@[simp] abbrev erendPkts (n : Nat) (i : Nat) : Nat := 0x1810054 + 0x1000 * n + 0x40 * i
@[simp] abbrev erendLead (n : Nat) (i : Nat) : Nat := 0x1810058 + 0x1000 * n + 0x40 * i
@[simp] abbrev erendFlows (n : Nat) (i : Nat) : Nat := 0x181005C + 0x1000 * n + 0x40 * i
@[simp] abbrev erendRingBaseLo (n : Nat) (i : Nat) : Nat := 0x1810060 + 0x1000 * n + 0x40 * i
@[simp] abbrev erendRingBaseHi (n : Nat) (i : Nat) : Nat := 0x1810064 + 0x1000 * n + 0x40 * i
@[simp] abbrev erendRingSize (n : Nat) (i : Nat) : Nat := 0x1810068 + 0x1000 * n + 0x40 * i
@[simp] abbrev erendRingWr (n : Nat) (i : Nat) : Nat := 0x181006C + 0x1000 * n + 0x40 * i
@[simp] abbrev erendRingRd (n : Nat) (i : Nat) : Nat := 0x1810070 + 0x1000 * n + 0x40 * i
@[simp] abbrev erendRingDrop (n : Nat) (i : Nat) : Nat := 0x1810074 + 0x1000 * n + 0x40 * i

/-! eth: Table 10-3. -/
@[simp] abbrev ethMode (n : Nat) : Nat := 0x1C00040 + 0x1000 * n
@[simp] abbrev ethMtu (n : Nat) : Nat := 0x1C00044 + 0x1000 * n
@[simp] abbrev ethMacLo (n : Nat) : Nat := 0x1C00048 + 0x1000 * n
@[simp] abbrev ethMacHi (n : Nat) : Nat := 0x1C0004C + 0x1000 * n
@[simp] abbrev ethSrcIp4 (n : Nat) : Nat := 0x1C00050 + 0x1000 * n
@[simp] abbrev ethSrcIp6 (n : Nat) (i : Nat) : Nat := 0x1C00054 + 0x1000 * n + 0x4 * i
@[simp] abbrev ethCasMap (n : Nat) : Nat := 0x1C00064 + 0x1000 * n
@[simp] abbrev ethLink (n : Nat) : Nat := 0x1C00068 + 0x1000 * n
@[simp] abbrev ethTsAdjTx (n : Nat) : Nat := 0x1C0006C + 0x1000 * n
@[simp] abbrev ethTsAdjRx (n : Nat) : Nat := 0x1C00070 + 0x1000 * n
@[simp] abbrev ethFecCorr (n : Nat) : Nat := 0x1C00074 + 0x1000 * n
@[simp] abbrev ethFecUncorr (n : Nat) : Nat := 0x1C00078 + 0x1000 * n
@[simp] abbrev ethRxDrop (n : Nat) : Nat := 0x1C0007C + 0x1000 * n
@[simp] abbrev ethRxPause (n : Nat) : Nat := 0x1C00080 + 0x1000 * n
@[simp] abbrev ethRxOther (n : Nat) : Nat := 0x1C00084 + 0x1000 * n
@[simp] abbrev ethStatClr (n : Nat) : Nat := 0x1C00088 + 0x1000 * n

/-! hbm: Table 15-5. -/
@[simp] abbrev hbmCfg : Nat := 0x2000040
@[simp] abbrev hbmActive : Nat := 0x2000044
@[simp] abbrev hbmRetired : Nat := 0x2000048
@[simp] abbrev hbmTop : Nat := 0x200004C
@[simp] abbrev hbmBar2Base : Nat := 0x2000050
@[simp] abbrev hbmBar2Wdrop : Nat := 0x2000054
@[simp] abbrev hbmAgeDl : Nat := 0x2000058
@[simp] abbrev hbmAgeBulk : Nat := 0x200005C
@[simp] abbrev hbmRefCfg : Nat := 0x2000060
@[simp] abbrev hbmSrIdle : Nat := 0x2000064
@[simp] abbrev hbmTrackPeriod : Nat := 0x2000068
@[simp] abbrev hbmErrLimit : Nat := 0x200006C
@[simp] abbrev hbmThrottle : Nat := 0x2000070
@[simp] abbrev hbmRegCfg (i : Nat) : Nat := 0x2000080 + 0x8 * i
@[simp] abbrev hbmRegBase (i : Nat) : Nat := 0x2000084 + 0x8 * i

/-! pch: Table 15-6. -/
@[simp] abbrev pchPstate (n : Nat) : Nat := 0x2001040 + 0x1000 * n
@[simp] abbrev pchCorr (n : Nat) : Nat := 0x2001044 + 0x1000 * n
@[simp] abbrev pchUncorr (n : Nat) : Nat := 0x2001048 + 0x1000 * n
@[simp] abbrev pchErrAddrLo (n : Nat) : Nat := 0x200104C + 0x1000 * n
@[simp] abbrev pchErrAddrHi (n : Nat) : Nat := 0x2001050 + 0x1000 * n
@[simp] abbrev pchRefOwed (n : Nat) : Nat := 0x2001054 + 0x1000 * n
@[simp] abbrev pchRefForced (n : Nat) : Nat := 0x2001058 + 0x1000 * n
@[simp] abbrev pchSrAborts (n : Nat) : Nat := 0x200105C + 0x1000 * n
@[simp] abbrev pchSrLateHits (n : Nat) : Nat := 0x2001060 + 0x1000 * n
@[simp] abbrev pchRfmCmds (n : Nat) : Nat := 0x2001064 + 0x1000 * n
@[simp] abbrev pchThrottles (n : Nat) : Nat := 0x2001068 + 0x1000 * n
@[simp] abbrev pchThrLast (n : Nat) : Nat := 0x200106C + 0x1000 * n
@[simp] abbrev pchRfmThresh (n : Nat) : Nat := 0x2001070 + 0x1000 * n
@[simp] abbrev pchTrim (n : Nat) : Nat := 0x2001074 + 0x1000 * n
@[simp] abbrev pchStatClr (n : Nat) : Nat := 0x2001078 + 0x1000 * n

/-! mp: Table 3-6. -/
@[simp] abbrev mpTotal : Nat := 0x2400040
@[simp] abbrev mpFree : Nat := 0x2400044
@[simp] abbrev mpGranted : Nat := 0x2400048
@[simp] abbrev mpInherited : Nat := 0x240004C
@[simp] abbrev mpRetired : Nat := 0x2400050
@[simp] abbrev mpOnTest : Nat := 0x2400054
@[simp] abbrev mpCorrected : Nat := 0x2400058
@[simp] abbrev mpRefetch : Nat := 0x240005C
@[simp] abbrev mpSwaps : Nat := 0x2400060
@[simp] abbrev mpEng (i : Nat) : Nat := 0x2400100 + 0x4 * i
@[simp] abbrev mpPlot (i : Nat) : Nat := 0x2400400 + 0x4 * i

/-! mtx: Table 15-7. -/
@[simp] abbrev mtxAgePromote : Nat := 0x2800040
@[simp] abbrev mtxDecodeErr : Nat := 0x2800044
@[simp] abbrev mtxParErr : Nat := 0x2800048
@[simp] abbrev mtxBridgeLvl : Nat := 0x280004C
@[simp] abbrev mtxPark (i : Nat) : Nat := 0x2800200 + 0x4 * i
@[simp] abbrev mtxPrio0 (i : Nat) : Nat := 0x2800400 + 0x10 * i
@[simp] abbrev mtxPrio1 (i : Nat) : Nat := 0x2800404 + 0x10 * i
@[simp] abbrev mtxPrio2 (i : Nat) : Nat := 0x2800408 + 0x10 * i

/-! cvu: Table 16-1. -/
@[simp] abbrev cvuStartLo (n : Nat) : Nat := 0x2C00040 + 0x1000 * n
@[simp] abbrev cvuStartHi (n : Nat) : Nat := 0x2C00044 + 0x1000 * n
@[simp] abbrev cvuLenLo (n : Nat) : Nat := 0x2C00048 + 0x1000 * n
@[simp] abbrev cvuLenHi (n : Nat) : Nat := 0x2C0004C + 0x1000 * n
@[simp] abbrev cvuCfg (n : Nat) : Nat := 0x2C00050 + 0x1000 * n
@[simp] abbrev cvuPolyLo (n : Nat) : Nat := 0x2C00054 + 0x1000 * n
@[simp] abbrev cvuPolyHi (n : Nat) : Nat := 0x2C00058 + 0x1000 * n
@[simp] abbrev cvuInitLo (n : Nat) : Nat := 0x2C0005C + 0x1000 * n
@[simp] abbrev cvuInitHi (n : Nat) : Nat := 0x2C00060 + 0x1000 * n
@[simp] abbrev cvuXoroutLo (n : Nat) : Nat := 0x2C00064 + 0x1000 * n
@[simp] abbrev cvuXoroutHi (n : Nat) : Nat := 0x2C00068 + 0x1000 * n
@[simp] abbrev cvuCurLo (n : Nat) : Nat := 0x2C0006C + 0x1000 * n
@[simp] abbrev cvuCurHi (n : Nat) : Nat := 0x2C00070 + 0x1000 * n
@[simp] abbrev cvuResultLo (n : Nat) : Nat := 0x2C00074 + 0x1000 * n
@[simp] abbrev cvuResultHi (n : Nat) : Nat := 0x2C00078 + 0x1000 * n
@[simp] abbrev cvuGo (n : Nat) : Nat := 0x2C0007C + 0x1000 * n
@[simp] abbrev cvuSstat (n : Nat) : Nat := 0x2C00080 + 0x1000 * n
@[simp] abbrev cvuNextLo (n : Nat) : Nat := 0x2C00084 + 0x1000 * n
@[simp] abbrev cvuNextHi (n : Nat) : Nat := 0x2C00088 + 0x1000 * n
@[simp] abbrev cvuLeftLo (n : Nat) : Nat := 0x2C0008C + 0x1000 * n
@[simp] abbrev cvuLeftHi (n : Nat) : Nat := 0x2C00090 + 0x1000 * n

/-! watch: Table 17-8. -/
@[simp] abbrev watchMode : Nat := 0x3000040
@[simp] abbrev watchDegrCause : Nat := 0x3000044
@[simp] abbrev watchGuarantee : Nat := 0x3000048
@[simp] abbrev watchLastCode : Nat := 0x300004C
@[simp] abbrev watchLastPos : Nat := 0x3000050
@[simp] abbrev watchLastLine : Nat := 0x3000054
@[simp] abbrev watchRecoverReq : Nat := 0x3000058
@[simp] abbrev watchStatClr : Nat := 0x300005C
@[simp] abbrev watchClassCnt (i : Nat) : Nat := 0x3000080 + 0x4 * i

/-! sexton: Table 17-9. -/
@[simp] abbrev sextonRotFrames : Nat := 0x3001040
@[simp] abbrev sextonScrubRate : Nat := 0x3001044
@[simp] abbrev sextonRotPos : Nat := 0x3001048
@[simp] abbrev sextonEngTests : Nat := 0x300104C
@[simp] abbrev sextonEngFails : Nat := 0x3001050
@[simp] abbrev sextonMpTests : Nat := 0x3001054
@[simp] abbrev sextonScrubAddr : Nat := 0x3001058
@[simp] abbrev sextonScrubPasses : Nat := 0x300105C
@[simp] abbrev sextonClpTests : Nat := 0x3001060
@[simp] abbrev sextonMtxTests : Nat := 0x3001064
@[simp] abbrev sextonTestFails : Nat := 0x3001068
@[simp] abbrev sextonStatClr : Nat := 0x300106C

/-! aud: Tables 11-3. -/
@[simp] abbrev audCfg : Nat := 0x3400040
@[simp] abbrev audPllStat : Nat := 0x3400044
@[simp] abbrev audSyncMask : Nat := 0x3400048
@[simp] abbrev audSlots : Nat := 0x340004C
@[simp] abbrev audPdmCfg : Nat := 0x3400050
@[simp] abbrev audPdmGain : Nat := 0x3400054
@[simp] abbrev audTblAddr : Nat := 0x3400060
@[simp] abbrev audTblGo : Nat := 0x3400064
@[simp] abbrev audTblStat : Nat := 0x3400068
@[simp] abbrev audTblData (i : Nat) : Nat := 0x3400070 + 0x4 * i
@[simp] abbrev audInStat (i : Nat) : Nat := 0x3400100 + 0x20 * i
@[simp] abbrev audInAdj (i : Nat) : Nat := 0x3400104 + 0x20 * i
@[simp] abbrev audInSlips (i : Nat) : Nat := 0x3400108 + 0x20 * i
@[simp] abbrev audInGlitches (i : Nat) : Nat := 0x340010C + 0x20 * i
@[simp] abbrev audInCsErr (i : Nat) : Nat := 0x3400110 + 0x20 * i
@[simp] abbrev audInParity (i : Nat) : Nat := 0x3400114 + 0x20 * i
@[simp] abbrev audInUnderruns (i : Nat) : Nat := 0x3400118 + 0x20 * i
@[simp] abbrev audOutCfg (i : Nat) : Nat := 0x3400300 + 0x4 * i
@[simp] abbrev audLate : Nat := 0x3400340

/-! stile: Table 18-5. -/
@[simp] abbrev stileCfg : Nat := 0x3800040
@[simp] abbrev stileBeaconDst : Nat := 0x3800044
@[simp] abbrev stileBeaconPort : Nat := 0x3800048
@[simp] abbrev stileBeaconNh : Nat := 0x380004C
@[simp] abbrev stileState : Nat := 0x3800050
@[simp] abbrev stilePhase : Nat := 0x3800054
@[simp] abbrev stileRtt : Nat := 0x3800058
@[simp] abbrev stileCfgDigestLo : Nat := 0x380005C
@[simp] abbrev stileCfgDigestHi : Nat := 0x3800060
@[simp] abbrev stileTwinPlaceLo : Nat := 0x3800064
@[simp] abbrev stileTwinPlaceHi : Nat := 0x3800068
@[simp] abbrev stileTwinCfgLo : Nat := 0x380006C
@[simp] abbrev stileTwinCfgHi : Nat := 0x3800070
@[simp] abbrev stileCompared : Nat := 0x3800074
@[simp] abbrev stileMismatches : Nat := 0x3800078
@[simp] abbrev stileUnresolved : Nat := 0x380007C
@[simp] abbrev stileCrcMissing : Nat := 0x3800080
@[simp] abbrev stileLastMismatch : Nat := 0x3800084
@[simp] abbrev stileResolve : Nat := 0x3800088
@[simp] abbrev stileHbLost : Nat := 0x380008C
@[simp] abbrev stileRoleSwap : Nat := 0x3800090
@[simp] abbrev stileResyncGo : Nat := 0x3800094
@[simp] abbrev stileResyncMask (i : Nat) : Nat := 0x38000A0 + 0x4 * i

/-! pbook: Table 16-5. -/
@[simp] abbrev pbookRdArea : Nat := 0x3C00040
@[simp] abbrev pbookRdSeq : Nat := 0x3C00044
@[simp] abbrev pbookRdGo : Nat := 0x3C00048
@[simp] abbrev pbookRdStat : Nat := 0x3C0004C
@[simp] abbrev pbookAreaHead (i : Nat) : Nat := 0x3C00050 + 0x8 * i
@[simp] abbrev pbookAreaExport (i : Nat) : Nat := 0x3C00054 + 0x8 * i
@[simp] abbrev pbookRdData (i : Nat) : Nat := 0x3C00080 + 0x4 * i
@[simp] abbrev pbookSpares : Nat := 0x3C000C0
@[simp] abbrev pbookChkRepair : Nat := 0x3C000C4
@[simp] abbrev pbookLineBad : Nat := 0x3C000C8
@[simp] abbrev pbookWearMax : Nat := 0x3C000CC
@[simp] abbrev pbookBufLvl : Nat := 0x3C000D0
@[simp] abbrev pbookSnap : Nat := 0x3C000D4
@[simp] abbrev pbookAirLost : Nat := 0x3C000D8
@[simp] abbrev pbookFaultSupp : Nat := 0x3C000DC
end Reg

/-- Layouts in the order of their pages, for the decoding of a page index. -/
def Layout.all : List Layout :=
  [.dev, .stp, .ptp, .belfry, .bell, .reeve, .cc, .ee, .gang, .aliasPg, .mon, .clp, .ing, .inp, .etm, .eport,
   .erend, .eth] ++
  [.hbm, .pch, .mp, .mtx, .cvu, .watch, .sexton, .aud, .stile, .pbook, .ch, .chrc, .chcomp, .chaud]

/-- The page at index `idx` (byte offset ÷ 0x1000), if Table 21-1 has one there (R445). -/
def pageAt (idx : Nat) : Option PageRef :=
  (Layout.all.filterMap (fun l =>
    let (base, stride, n) := l.place
    let b := base / 0x1000
    let st := stride / 0x1000
    if b ≤ idx ∧ (idx - b) % st = 0 ∧ (idx - b) / st < n then some ⟨l, (idx - b) / st⟩ else none)).head?

/-- Byte address of a page. -/
def PageRef.base (p : PageRef) : Nat :=
  let (base, stride, _) := p.lay.place
  base + stride * p.n

/-- Page index of a page (21_register_pages.md, opening). -/
def PageRef.index (p : PageRef) : Nat := p.base / 0x1000

/-- The register-table row that holds offset `o` of a layout. -/
def rowAt (l : Layout) (o : Nat) : Option RegRow :=
  firstThat (fun r => decide (r.off ≤ o ∧ (o - r.off) % r.stride = 0 ∧ (o - r.off) / r.stride < r.count)) l.rows

/-- Block class of a page (R445). -/
def Layout.cls : Layout → Nat
  | .dev => 0x000 | .stp => 0x010 | .ptp => 0x011 | .belfry => 0x020 | .bell => 0x021 | .reeve => 0x030
  | .cc => 0x031 | .ee => 0x040 | .gang => 0x041 | .aliasPg => 0x042 | .ch => 0x080 | .chrc => 0x081
  | .chcomp => 0x082 | .chaud => 0x083 | .mon => 0x100 | .clp => 0x140 | .ing => 0x141 | .inp => 0x142
  | .etm => 0x180 | .eport => 0x181 | .erend => 0x182 | .eth => 0x1C0 | .hbm => 0x200 | .pch => 0x201
  | .mp => 0x240 | .mtx => 0x280 | .cvu => 0x2C0 | .watch => 0x300 | .sexton => 0x301 | .aud => 0x340
  | .stile => 0x380 | .pbook => 0x3C0

/-- PAGE_ID of a page (R1, R445, R446). -/
def pageId (p : PageRef) : Nat :=
  p.lay.cls * 0x100000 + (if p.lay = .dev then 0xB0 else 0x01) * 0x1000 + p.n

/-- CTRL at reset: ENABLE by Table 21-3, LOAN_OK 1 where it has effect (R448). -/
def ctrlReset : Layout → Nat
  | .ee | .hbm | .mp | .mtx => 9
  | .clp => 8
  | .dev | .belfry | .bell | .reeve | .cc | .ing | .etm | .eport | .pch | .cvu | .watch | .sexton | .pbook => 1
  | _ => 0

/-- CHILD at reset (R447). -/
def childReset : Layout → Nat
  | .belfry => 0x201 + 64 * 0x10000
  | .reeve => 0x301 + 8 * 0x10000
  | .etm => 0x1801 + 10 * 0x10000
  | .ing => 0x1420 + 128 * 0x10000
  | .hbm => 0x2001 + 32 * 0x10000
  | _ => 0

/-- PARENT at reset (R447). -/
def parentReset : Layout → Nat
  | .bell => 0x200 | .cc => 0x300 | .eport => 0x1800 | .inp => 0x1410 | .pch => 0x2000
  | _ => 0

/-- Reset priority of a matrix master (Table 15-4). -/
def masterPrio (m : Nat) : Nat :=
  if m < 34 then 8 else if m = 34 then 6 else if m = 35 then 8 else if m = 36 then 4 else if m = 37 then 8
  else if m ≤ 39 then 1 else if m = 40 then 2 else if m = 41 then 3 else if m = 42 then 10 else if m = 43 then 4
  else if m ≤ 47 then 12 else if m = 48 then 14 else 5

/-- A deadline master (Table 15-4): ingest, the ETM and the monitor head. -/
def masterDeadline (m : Nat) : Bool := decide (38 ≤ m ∧ m ≤ 40)

/-- Default region words of Table 15-1. -/
def regionReset (n : Nat) : Nat :=
  if n = 0 then 0x00800101 else if n = 1 then 0x03800141 else if n = 7 then 0x2C000131 else 0

/-- Registers whose reset value varies with their index, or comes from the fuses or the Book. -/
def specialReset (p : PageRef) (o : Nat) : Option Word :=
  match p.lay with
  | .dev => if o = 0x054 then some Config.fuses else none
  | .bell =>
    if 0x200 ≤ o ∧ o < 0x300 then
      if p.n = 1 ∨ 48 ≤ p.n then some 0xF100
      else if p.n = 17 ∧ o < 0x280 then some 0xF030 else some 0xF000
    else none
  | .ee => if o = 0x040 then some (BitVec.ofNat 32 (256 * (if p.n < 32 then p.n else 63))) else none
  | .clp => if 0x100 ≤ o ∧ o < 0x200 ∧ o % 0x20 = 0 then some 0x30 else none -- P3 while ENABLE is 0 (R174; notes/assumptions/47.md)
  | .eport => if o = 0x080 then some 0x80020000 else none
  | .hbm =>
    if 0x080 ≤ o ∧ o < 0x0C0 then
      let n := (o - 0x080) / 8
      if o % 8 = 0 then some (BitVec.ofNat 32 (regionReset n))
      else some (if n = 1 then 128 else if n = 7 then 1024 else 0)
    else none
  | .mtx =>
    if 0x200 ≤ o ∧ o < 0x25C then
      let t := (o - 0x200) / 4
      some (if t < 16 then 38 else if t = 17 then 39 else 41)
    else if 0x400 ≤ o ∧ o < 0x720 then
      let m := masterPrio ((o - 0x400) / 0x10)
      some (if (o / 4) % 4 = 2 then BitVec.ofNat 32 (m * 0x1111111)
            else if (o / 4) % 4 = 3 then 0 else BitVec.ofNat 32 (m * 0x11111111))
    else none
  | .pbook =>
    if o = 0x0CC then some Config.wearMax
    else if o = 0x050 ∨ o = 0x058 ∨ o = 0x060 then some ((Config.bookCount ((o - 0x050) / 8)).setWidth 32)
    else none
  | _ => none

/-- The reset value of every register, by byte address; an address that names no register reads 0. -/
def resetVal (a : Nat) : Word :=
  match pageAt (a / 0x1000) with
  | none => 0
  | some p =>
    let o := a % 0x1000
    if o = 0x000 then BitVec.ofNat 32 (pageId p)
    else if o = 0x004 then BitVec.ofNat 32 (ctrlReset p.lay)
    else if o = 0x01C then BitVec.ofNat 32 (childReset p.lay)
    else if o = 0x020 then BitVec.ofNat 32 (parentReset p.lay)
    else if o < 0x040 then 0
    else match specialReset p o with
      | some w => w
      | none =>
        match rowAt p.lay o with
        | some r => BitVec.ofNat 32 r.reset
        | none => 0

/-! Offsets of the common header (Table 21-2). -/
@[simp] abbrev hPageId : Nat := 0x000
@[simp] abbrev hCtrl : Nat := 0x004
@[simp] abbrev hStatus : Nat := 0x008
@[simp] abbrev hRefuse : Nat := 0x00C
@[simp] abbrev hFault : Nat := 0x010
@[simp] abbrev hEvt : Nat := 0x014
@[simp] abbrev hEvtEn : Nat := 0x018
@[simp] abbrev hChild : Nat := 0x01C
@[simp] abbrev hParent : Nat := 0x020

end Sys2Proof.Machine
end

