-- ==== Sys2Proof/Machine/State.lean ====
section
/-! DEFINITION. The state of the SK-4880 as plain data. Every register of BAR0 lives in `regs`, at its byte
address; the structures hold the state that the chapters give the block beside its registers. -/

namespace Sys2Proof.Machine

/-- What a bus access answered. -/
inductive Resp where
  | ok | error | poisoned
  deriving DecidableEq, Repr

/-- Bus responses: what the last reading command returned (R10, R324, R303, R332, R453). -/
structure BusSt where
  rdata : List Nat
  resp  : Resp
  deriving DecidableEq, Repr

/-- Pins, the PCIe link and the MSI-X message of vector 0 (R318, R320, R416, R428, R387). -/
structure PinSt where
  porLow     : Bool
  resetLow   : Bool
  /-- The reset that an accepted SWRESET began has not been released (R416). -/
  swReset    : Bool
  pwrFailLow : Bool
  /-- Time at which PWR_FAIL_N last rose, in ns of the model's clock (R429). -/
  pwrHighAt  : Option Nat
  /-- Level of TWIN_TOKEN as read last. -/
  token      : Bool
  /-- What the GPIO outputs show. -/
  gpioShown  : BitVec 32
  pcieUp     : Bool
  msixOn     : Bool
  msixMasked : Bool
  msixPend   : Bool
  /-- MSI-X messages sent on vector 0. -/
  msixSent   : Nat
  deriving DecidableEq, Repr

/-- A pulse on a TIME_OUT pin (R27, R31): the slot, the pin, the start and the width in FRAC units. -/
structure Pulse where
  slot  : Nat
  pin   : Nat
  start : BitVec 64
  width : Nat
  deriving DecidableEq, Repr

/-- Steeple (01_steeple_time.md): the position, its frequency, the nine latches, the measurement of the reference
and the next target of each armed slot. -/
structure SteepleSt where
  pos       : BitVec 64
  /-- Remainder of the position's advance, in 1/(10^18 × rate denominator) of a FRAC unit. -/
  acc       : Nat
  /-- Time of the model's clock in ns (notes/assumptions/2.md). -/
  timeNs    : Nat
  /-- Frequency offset of Steeple against its nominal rate, parts per 10^9. -/
  freqPpb   : Int
  /-- Frequency offset of the holdover in progress (R21). -/
  holdPpb   : Int
  latch     : Store (BitVec 32)
  /-- Consecutive measurements within ±100 ns (R20), and the frame start to which the last frame pulse of the run belongs. -/
  okRun     : Nat
  okFrame   : Option (BitVec 32)
  /-- Consecutive PTP errors above 1 µs (R255). -/
  badRun    : Nat
  /-- Phases of the last pulses that await the 3-frame test of R22, with the frames in which they arrived, newest first, at
  most 3. -/
  glitches  : List (Int × BitVec 32)
  /-- The correction measured last, in FRAC units (R24). -/
  measured  : Option Int
  /-- An accept is registered and waits for the frame start (R25). -/
  accepted  : Bool
  /-- Frequency offsets of the last 64 locked frames, newest first (R21). -/
  lockHist  : List Int
  /-- The reference in force is lost (R18, R256). -/
  lost      : Bool
  /-- The frame whose placement epoch has been handled (R38). -/
  epochOf   : Option (BitVec 32)
  /-- Next firing position of each armed slot (R27, R32). -/
  actNext   : Store (BitVec 64)
  pulses    : List Pulse
  deriving DecidableEq, Repr

/-- A rendition as declared. -/
structure RendCfg where
  r       : Nat
  source  : Nat
  refill  : Bool
  w       : Nat
  h       : Nat
  codec   : Nat
  profile : Nat
  tier    : Nat
  level   : Nat
  /-- CTU size in samples; 0 for the reserved code. -/
  ctu     : Nat
  search  : Nat
  srh     : Nat
  srv     : Nat
  refs    : Nat
  sliceRows : Nat
  gopLen  : Nat
  bitrate : Nat
  peak    : Nat
  window  : Nat
  /-- CH.REFRESH, CHRC.QP, CHRC.AQ and EREND.FORMAT words. -/
  refresh : Word
  qp      : Word
  aq      : Word
  format  : Word
  /-- FIRST_QP_OFS (R102). -/
  first   : Nat
  /-- The coding block's 16 words (Table 4-8). -/
  coding  : List Word
  /-- The other RWE words of the rendition: REND_* and the rate block (R84). -/
  words   : List Word
  deriving DecidableEq, Repr

/-- A channel as declared, with its enabled renditions in order and the ladder stages (EN, OUT_W, OUT_H). -/
structure ChanCfg where
  n       : Nat
  w       : Nat
  h       : Nat
  c422    : Bool
  deep    : Bool
  interl  : Bool
  div     : Nat
  phase   : Nat
  num     : Nat
  den     : Nat
  lines   : Nat
  cls     : Nat
  /-- The class parameter: ULL_ROWS, LL_FRAMES or STD_FRAMES. -/
  par     : Nat
  pad     : Nat
  input   : Nat
  grant   : Nat
  rends   : List RendCfg
  stages  : List (Bool × Nat × Nat)
  /-- Steeple lines per frame. -/
  total   : Nat
  /-- CH.GLN_CTRL word. -/
  gln     : Word
  /-- CTU size that rendition 0 declares, enabled or not (Table 5-1). -/
  ctu0    : Nat
  /-- CH.PIXEL word. -/
  pixel   : Word
  /-- L_CFG words of the layers, LATCH and FILTER of each ladder stage (Tables 6-3, 6-4). -/
  layers  : List Word
  latch   : Nat
  filters : List Nat
  deriving DecidableEq, Repr

/-- Where one rendition of a channel is placed (R45 to R48). -/
structure RendPl where
  rend   : Nat
  gang   : Nat
  /-- Committed slots in tile order; one for a shared engine. -/
  slots  : List Nat
  shared : Bool
  refill : Bool
  /-- Wr of R69. -/
  wr     : Nat
  /-- It opened, and so funds, the REFILL pair of its shared engine (R73). -/
  opens  : Bool
  deriving DecidableEq, Repr

/-- A channel's placement (Table 2-6). -/
structure Place where
  rends  : List RendPl
  /-- First 2 MiB unit and units of the HBM extent (R52). -/
  ext    : Nat × Nat
  plots  : List Nat
  grant  : Nat
  need   : Nat
  pair   : Nat
  /-- Order of placement on the pair, from which ranks follow (R55). -/
  order  : Nat
  d      : Nat
  bw     : Nat
  /-- The declaration the placement was made for: a HELD channel runs on it while its fields change (R60, R61). -/
  cfg    : ChanCfg
  /-- Frame count of the epoch that made the placement (R44, R61). -/
  epoch  : BitVec 32
  deriving DecidableEq, Repr

/-- Rate control of one tile of a unit in coding (R135, R136). -/
structure TileRc where
  /-- t_k and a_k. -/
  t    : Int
  a    : Int
  /-- c_k and c_done. -/
  cost : Nat
  done : Nat
  /-- bits_k: bits of the tile's CTUs that have left the Entropy stage. -/
  bits : Nat
  /-- CTUs left to decide and decided in the tile's part of the unit. -/
  left : Nat
  num  : Nat
  /-- Bits of the tile's rows that are complete. -/
  base : Nat
  /-- Bound and bits of each CTU still in the pipeline, oldest first. -/
  pipe : List (Nat × Nat)
  /-- A fallback has been taken in the tile row in coding. -/
  ovf  : Bool
  /-- QP of the CTU decided last. -/
  qp   : Int
  /-- The slice in coding: its header, once its first row has started, and its CTUs so far. -/
  head : Option SliceHead
  ctus : List CtuCode
  deriving DecidableEq, Repr

/-- A unit in coding (R135). -/
structure UnitRc where
  /-- Picture in decoding order and first CTU row. -/
  pic   : Nat
  row   : Nat
  q     : Nat
  a     : Int
  /-- qp_f: the frame QP latched for the picture. -/
  qpF   : Nat
  bits  : Nat
  /-- Tile rows not yet coded or replaced. -/
  left  : Nat
  tiles : List TileRc
  deriving DecidableEq, Repr

/-- A picture that has entered coding (R97 to R107). -/
structure PicInfo where
  /-- Number in decoding order, place in input order (its POC). -/
  m     : Nat
  pic   : Nat
  nal   : SliceNal
  /-- Every CU is intra coded: an IRAP picture or one of the first GDR period. -/
  intra : Bool
  irap  : Bool
  tid   : Nat
  /-- Reference lists, as numbers in decoding order. -/
  list0 : List Nat
  list1 : List Nat
  /-- Position in the refresh schedule of a rendition that refreshes by GDR. -/
  gdr   : Option Nat
  /-- A skip picture (R59). -/
  quiet : Bool
  /-- CTUs (row, column) that the picture refreshes beside its own band (R108). -/
  extra : List (Nat × Nat)
  /-- Tiles that have acted on the scene cut of its frame (R118). -/
  acted : List Nat
  /-- Decoding order number of its first NAL unit; NAL units before its first slice. -/
  don   : Nat
  heads : List Nal
  /-- ALF filters and LMCS model of its APSs (R96). -/
  alf   : Option (List Nat)
  lmcs  : Option (List Nat)
  /-- Its bits so far; the sum of its CTUs' QPs and their number (R133). -/
  bits  : Nat
  qps   : Int × Nat
  deriving DecidableEq, Repr

/-- Rate control and coding state of a rendition (04_encode_engines.md, 05_fixed_delay_rate_control.md). -/
structure RcSt where
  /-- bits_frame and the picture, in decoding order, whose first unit entered coding last. -/
  bitsFrame : Nat
  pic       : Option Nat
  units     : List UnitRc
  /-- Windowing steps, the latest first, with the excess over reserves of each (R127). -/
  window    : List (Nat × Nat)
  /-- Bits, sum of the CTUs' QPs and number of them, of the last 16 pictures, newest first (R133). -/
  history   : List (Nat × Int × Nat)
  /-- Pictures of the refresh schedule so far (R99, R107); CTUs (row, column) that the next picture is to refresh (R108). -/
  gdrPos    : Nat
  gdrOwed   : List (Nat × Nat)
  /-- Picture at which the intra period last restarted (R103, R105). -/
  irapBase  : Nat
  /-- STD: pictures, in input order, at which a cut was declared, and whether before their GOP began coding (R105). -/
  cuts      : List (Nat × Bool)
  /-- STD: last pictures of GOPs that were coded as skip pictures, at which the schedule stands still (R107). -/
  still     : List Nat
  /-- CTU rows that each tile has coded or lost in this sequence. -/
  tileRows  : Store Nat
  /-- Rows lost to an engine failure (R65): tile, picture, row. -/
  lost      : List (Nat × Nat × Nat)
  /-- Pictures that have entered coding, newest first, at most 64. -/
  pics      : List PicInfo
  /-- Clean CTUs (row × columns + column) of pictures of the refresh period, newest first (R100); held by the engine of each tile
  and passed on with its context (R114). -/
  clean     : List (Nat × List Nat)
  /-- CTUs before the in-loop filters, keyed (picture × 256 + row) × 1024 + column; CTU rows filtered in the sequence
  (Table 4-1). -/
  unf       : Store (Option DoneCtu)
  filtered  : Nat
  /-- Modes of CTUs, by the same key, for temporal prediction (Table 4-4). -/
  motion    : Store Nat
  /-- Address of the reconstruction completed last (R117). -/
  shown     : Option Nat
  /-- Next unit to leave: picture and first row (R122 to R124). -/
  outNext   : Nat × Nat
  deriving DecidableEq, Repr

/-- A slice in the slice buffer (R52, R122, R223). -/
structure SliceOut where
  seqNo : Nat
  m     : Nat
  row   : Nat
  rows  : Nat
  tile  : Nat
  /-- Slices of its unit; its decoding order number. -/
  count : Nat
  don   : Nat
  /-- E_u. -/
  e     : BitVec 64
  /-- Steeple frame at which the input picture's channel frame starts (R218). -/
  frame : BitVec 32
  emerg : Bool
  /-- EREND.FORMAT and Rtx of the declaration that coded it. -/
  format : Word
  rtx   : Nat
  /-- The unit is the first, the last of its access unit. -/
  firstOfAu : Bool
  lastOfAu  : Bool
  /-- NAL units with their decoding order numbers, in the order in which they leave: those before the first slice of the access unit,
  the slice, a hash SEI. -/
  nals  : List (Nat × List (BitVec 8))
  deriving DecidableEq, Repr

/-- A payload unit that waits for its release (R235). -/
structure PayOut where
  payload : List (BitVec 8)
  /-- Its release (R235). -/
  e       : BitVec 64
  frame   : BitVec 32
  don     : Nat
  marker  : Bool
  emerg   : Bool
  firstOfUnit : Bool
  firstOfAu   : Bool
  /-- NAL units of the unit's slices, on its first payload unit (R370). -/
  slices  : List (List (BitVec 8))
  deriving DecidableEq, Repr

/-- One Gleaner cell record (Table 4-2). -/
structure Cell where
  intra : Nat
  inter : Nat
  mvx   : Int
  mvy   : Int
  act   : Nat
  mean  : Nat
  cut   : Bool
  still : Bool
  deriving DecidableEq, Repr

/-- A frame that the Gleaner has finished. -/
structure GlnFrame where
  cells  : Store (List Cell)
  cutRow : Option Nat
  /-- Its weight while in fade, in 1/256 (R90, R106). -/
  weight : Option Nat
  deriving DecidableEq, Repr

/-- The Gleaner's view of a channel (R87 to R92). -/
structure GlnSt where
  hasPrev  : Bool
  /-- Cell rows ready in the frame in progress. -/
  rows     : Nat
  /-- Cell rows of the frame in progress, of the frames before it, newest first. -/
  cells    : Store (List Cell)
  prev     : List GlnFrame
  /-- Fade ratios of the cells so far, as numerator and denominator (R90). -/
  ratios   : List (Nat × Nat)
  lastCut  : Bool
  cutRow   : Option Nat
  fadeRun  : Nat
  fade     : Bool
  /-- The frame has been in fade; its weight while in fade, which a cut leaves as it is for the rows before (Table 4-11). -/
  fadeSeen : Bool
  weight   : Option Nat
  /-- One-eighth-scale lines of the frame in progress and of the frame before, the second field's after the first's (R87). -/
  small    : Store (List Nat)
  smallOld : Store (List Nat)
  deriving DecidableEq, Repr

/-- A CTU row of a rendition that has become ready, with the position at which it did (R85); `pic` counts pictures in
input order. -/
structure ReadyRow where
  rend : Nat
  pic  : Nat
  row  : Nat
  pos  : BitVec 64
  deriving DecidableEq, Repr

/-- The as-aired record of a channel (R369, R370). -/
structure AirSt where
  /-- D_{k−1}. -/
  chain   : List (BitVec 8)
  /-- Slices of the period so far, and S_k of them. -/
  count   : Nat
  slices  : List (BitVec 8)
  start   : Bool
  emerg   : Bool
  unlocked : Bool
  quiesce : Bool
  step    : Bool
  /-- PTP second of the close before, from the placement's first frame on. -/
  sec     : Option Nat
  deriving DecidableEq, Repr

/-- A channel's state beside its registers. -/
structure Chan where
  place    : Option Place
  /-- Placement of a HELD channel that takes over at its next frame start (R61). -/
  next     : Option Place
  /-- The channel has begun its first frame. -/
  running  : Bool
  /-- R59 is in force for the frame in progress. -/
  quiesce  : Bool
  /-- The channel stops at the end of its frame (R60, R63, R413). -/
  stopping : Bool
  /-- Emission position of the last unit of a channel that has stopped (R60). -/
  endPos   : Option (BitVec 64)
  /-- Coding is paused by RECOVERY (R412). -/
  paused   : Bool
  /-- Coded video sequence number and frame of the sequence. -/
  seqNo    : Nat
  frame    : Nat
  /-- The sequence begins as a channel's first frame (R132). -/
  fresh    : Bool
  /-- Steeple frame count at the start of the channel frame in progress. -/
  startFr  : BitVec 32
  /-- First unit of the extent that an HBM move brings into use at the next frame start (R62). -/
  newExt   : Option Nat
  /-- Extent still held after an HBM move, the frames left in it, and the first frame of the sequence in the extent in use
  (R62). -/
  oldExt   : Option (Nat × Nat)
  oldLeft  : Nat
  extFrom  : Nat
  moving   : Bool
  /-- Control line that takes effect at the next frame start, and whether the control line of the frame in progress has
  been reached (R55). -/
  ctrlNext : Option Nat
  ctrlDone : Bool
  /-- Frames of the sequence that an accepted step has cut (R26). -/
  cutFrames : List Nat
  /-- Steeple frame counts at the starts of the sequence's frames, newest first, at most 128 (R123). -/
  starts   : List (BitVec 32)
  /-- Of the same frames: skip pictures (R59), and engines whose QUIESCE was set at the frame's start (R113). -/
  quiets   : List (Bool × List Nat)
  /-- Lines composited in this frame; lines of each ladder stage written. -/
  lines    : Nat
  stages   : Store Nat
  ready    : List ReadyRow
  /-- CTU rows of each rendition that have become ready in this frame. -/
  made     : Store Nat
  gln      : GlnSt
  rc       : Store RcSt
  /-- Compositor: active set and set in use (R160), layers whose old buffer is to be released (R164). -/
  active   : Store Word
  inUse    : Store Word
  release  : List Nat
  /-- Position at which the pending commit landed (R161). -/
  commitAt : BitVec 64
  /-- 4:2:2 chroma, Cb and Cr in turn, of the line composited last (R152). -/
  chroma   : List Nat
  /-- Slices in each rendition's slice buffer in order of completion; payload units of its unit that is leaving. -/
  slices   : Store (List SliceOut)
  outq     : Store (List PayOut)
  /-- LUT entries, keyed (table × 3 + component) × 1024 + entry (R153). -/
  lut      : Store (BitVec 18)
  /-- The preset that the entries not listed hold (R154). -/
  lutBase  : Nat
  air      : AirSt
  /-- Old D while a changed D waits for its first frame (R141): frames still to skip. -/
  skip     : Nat
  deriving DecidableEq, Repr

/-- A context held in a committed slot (R46, R85). -/
structure Ctx where
  /-- Context slot (CTX_i). -/
  idx  : Nat
  ch   : Nat
  rend : Nat
  tile : Nat
  refill : Bool
  deriving DecidableEq, Repr

/-- A row or row turn in progress (R83). -/
structure Job where
  ctx  : Nat
  ch   : Nat
  rend : Nat
  tile : Nat
  /-- Picture in decoding order. -/
  pic  : Nat
  row  : Nat
  /-- Stall clocks so far and the longest stall (R68, R83). -/
  stall    : Nat
  stallMax : Nat
  /-- CTUs of the row decided, the intra and the skip CTUs among them, their bits. -/
  done  : Nat
  intra : Nat
  skip  : Nat
  bits  : Nat
  deriving DecidableEq, Repr

/-- A committed slot (R457). -/
structure Slot where
  /-- Physical engine; none while the work waits for an engine (R65). -/
  eng     : Option Nat
  shared  : Bool
  ctxs    : List Ctx
  job     : Option Job
  /-- Format of a shared engine (R46): width, height, codec word, search word. -/
  fmt     : Option (Nat × Nat × Nat × Nat × Nat)
  /-- REFILL pair: its plots, the channel that funds it, whether it is inherited (R71, R75). -/
  pair    : Option (List Nat × Nat × Bool)
  deriving DecidableEq, Repr

/-- The engines (R64, R65, R382). -/
structure EngSt where
  slots     : Store Slot
  loan      : Option Nat
  standby   : Option Nat
  /-- The loaned engine's test has completed and passed. -/
  loanPass  : Bool
  /-- The slot chosen at a rotation point and not yet handed over. -/
  chosen    : Option Nat
  /-- Engines loaned since the last such event (R385). -/
  loaned    : List Nat
  /-- Next slot in the rotation order. -/
  rotNext   : Nat
  compact   : Bool
  orderNext : Nat
  /-- RECON words of each context slot, keyed slot × 16 + context (R117). -/
  recon     : Store (List Word)
  /-- A placement has changed at this frame start (Table 2-11). -/
  changed   : Bool
  /-- Controllers have been retired since the last epoch: extents and ledger are to be fitted at the next (R38, R343). -/
  fitDue    : Bool
  /-- Kinds of Sexton test that still finish after ENABLE was written 0 (R381): 0 plot, 1 scrub, 2 matrix path, 3 lane. -/
  tail      : List Nat
  /-- 64-byte line of HBM that the patrol scrub reads next. -/
  scrub     : Nat
  /-- Matrix target that the Sexton tests next. -/
  mtxNext   : Nat
  deriving DecidableEq, Repr

/-- The window of a context (R67 to R71): the picture and the band of reference lines that it holds, the buffer of a REFILL pair that
holds it, and the lines that its last load read. -/
structure Win where
  pic    : Nat
  lo     : Nat
  hi     : Nat
  buf    : Nat
  loaded : Nat
  deriving DecidableEq, Repr

/-- The Millpond beside its registers: double-bit reads of each plot in the frame, plots waiting for a swap (R79); the window of each
context, keyed slot × 16 + context, and the buffer of each slot's REFILL pair loaded last. -/
structure MillSt where
  errs : Store Nat
  due  : List Nat
  wins : Store (Option Win)
  bufs : Store Nat
  deriving DecidableEq, Repr

/-- A lane beside its registers (07_celtil_lanes.md). -/
structure Lane where
  /-- Frame count at which the lane became FAILED (R192). -/
  failedAt : BitVec 32
  /-- Consecutive marker periods without a good BAM (R184). -/
  bamBad   : Nat
  /-- Consecutive characters with errors, at most 4; at 4 alignment is lost (R177). -/
  errRun   : Nat
  /-- The 1 ms window in progress and the errors counted in it (R186, R384). -/
  errs     : Nat × Nat
  /-- CTLE setting held while a lane that was not FAILED retrains (R193, Table 7-9). -/
  held     : Option Nat
  deriving DecidableEq, Repr

/-- A link of a bundle: keyed 2·n, and 19 for link 9X (R173). -/
structure Link where
  /-- DATA lane that the spare has taken over, and the one it takes over at the next BAM row (R187). -/
  covered   : Option Nat
  takeover  : Option Nat
  /-- Mask requested of the far end; mask acknowledged with the BAM rows until it applies (R188). -/
  narrowReq : Option Nat
  narrowIn  : Option (Nat × Nat)
  /-- Marker periods since the mask was requested (R188). -/
  narrowAge : Nat
  /-- Mask in use for sending, and one that comes into use with the markers until it does (R189). -/
  txMask    : Option Nat
  txPend    : Option (Nat × Nat)
  seqTx     : BitVec 8
  /-- SEQ expected next (R184). -/
  seqRx     : Option (BitVec 8)
  /-- FAILED mask of the far end's last STATUS (R180). -/
  lastStatus : Nat
  /-- Lanes that rejoin, and aborted trainers restored, at the next BAM row (R192, Table 7-9). -/
  rejoin    : List Nat
  restore   : List Nat
  /-- Bytes of the packet in assembly; the packet has been ended by a bad row, and the rows up to its end row are ignored (R185). -/
  packet    : List (BitVec 8)
  dead      : Bool
  deriving DecidableEq, Repr

/-- The CLP bundles (07_celtil_lanes.md): lanes keyed 8·n + p, links. -/
structure ClpSt where
  lanes : Store Lane
  links : Store Link
  deriving DecidableEq, Repr

/-- Colours of the trTCM of R210. -/
inductive Colour where
  | green | yellow | red
  deriving DecidableEq, Repr

/-- A trTCM (R210): its two buckets in 1/8,000 byte, and the model time at which they stood so. -/
structure Meter where
  c  : Nat
  p  : Nat
  at_ : Nat
  deriving DecidableEq, Repr

/-- An input beside its registers (08_ingest.md). -/
structure Inp where
  /-- FRAME tag of the first landed part of the frame in progress, and of the next (R205). -/
  tag      : Option Nat
  tagNext  : Option Nat
  /-- Line parts landed in the frame in progress, keyed line × 3 + HALF, and those declared missing (R211). -/
  landed   : List Nat
  missed   : List Nat
  /-- Line parts of the next frame that have landed ahead of it (R204, R208). -/
  early    : List Nat
  /-- Samples of each line received of an ST 2110-20 input, of the frame in progress and of the next. -/
  cover     : Store Nat
  coverNext : Store Nat
  /-- Meters of paths A and B. -/
  meters   : Meter × Meter
  /-- Positions at which the lines of the frame in progress, and of the next, landed whole or were repeated (R149, R204). -/
  land     : Store (Option (BitVec 64))
  landNext : Store (Option (BitVec 64))
  /-- Consecutive lines with a part missing, and the last of them (R212). -/
  missRun  : Nat
  missLine : Option Nat
  /-- No part missing and no mismatched format packet so far in this frame; the same of the frame before (R214). -/
  clean    : Bool
  wasClean : Bool
  /-- A mismatched format packet has arrived (R202). -/
  fmtLoss  : Bool
  /-- Steeple frame at which the input became LOST, and at which a frame of it last began. -/
  lostAt   : BitVec 32
  startAt  : Option (BitVec 32)
  /-- Lines that landed last from the two bundles of a pair (R204). -/
  lastLine : Nat × Nat
  /-- Extended sequence numbers used, newest first, with the path and the time in ns of the copy; numbers not yet seen below
  the highest (R208, R210). -/
  seen     : List (BitVec 32 × Bool × Nat)
  gaps     : List (BitVec 32)
  /-- Paths A and B: packets have arrived in this frame; the path is down (R210). -/
  arrived  : Bool × Bool
  down     : Bool × Bool
  ringPtr  : Nat
  deriving DecidableEq, Repr

/-- Ingest: inputs, raw input stores, ancillary rings, receive flows (R199, R200, R455). -/
structure IngSt where
  inps  : Store Inp
  /-- Raw input store of a channel, and at 128 + i the FIFO of an input i that feeds live layers (R148), at the input's depth: line
  parts keyed ((channel × 2 + parity) × 16384 + line) × 3 + HALF. -/
  raw   : Store (List (BitVec 16))
  /-- Parity of the frame each channel writes. -/
  par   : Store Nat
  ring  : Store (BitVec 8)
  flows : Store (List Word)
  deriving DecidableEq, Repr

/-- A released payload unit (R228, R235). -/
structure PayUnit where
  /-- Rendition 4·n + r. -/
  rend    : Nat
  k       : Nat
  payload : List (BitVec 8)
  rtp     : BitVec 32
  don     : BitVec 16
  release : BitVec 64
  marker  : Bool
  emerg   : Bool
  deriving DecidableEq, Repr

/-- A copy waiting at a port (R229): of a flow, of an AES67 stream (`rend` 512 + 4·n + k, `flow` the same), or a frame
forwarded from a cascade port, whose `node` is its port. -/
structure Copy where
  flow    : Nat
  pathB   : Bool
  node    : Nat
  rend    : Nat
  k       : Nat
  /-- Bytes from the destination MAC address through the FCS. -/
  len     : Nat
  release : BitVec 64
  fwd     : Bool
  /-- Ingress timestamp of a forwarded PTP event message, in 2^-16 ns (R253). -/
  event   : Option Int
  /-- It has been counted in WAITS. -/
  waited  : Bool
  /-- A forwarded frame, from the destination MAC address through the FCS. -/
  bytes   : List (BitVec 8)
  deriving DecidableEq, Repr

/-- The egress traffic manager (09_egress_traffic_manager.md). -/
structure EtmSt where
  /-- Flow contexts, node entries and next-hop entries by index. -/
  flows   : Store (List Word)
  nodes   : Store (List Word)
  hops    : Store (List Word)
  /-- Flows that take copies, and those that stop at the next access unit (R226). -/
  joined  : List Nat
  leaving : List Nat
  units   : List PayUnit
  queue   : List Copy
  /-- Start tags: node, rendition entry (node × 1024 + rendition), flow × 2 + path, own and forwarded (2·p, 2·p + 1). -/
  nodeTag : Store (BitVec 32)
  rentTag : Store (BitVec 32)
  flowTag : Store (BitVec 32)
  srcTag  : Store (BitVec 32)
  /-- Virtual times: of a port's nodes, of its two sources, of a rendition entry; a node's V lies in its entry. -/
  portV   : Store (BitVec 32)
  srcV    : Store (BitVec 32)
  rentV   : Store (BitVec 32)
  /-- High-water marks of a rendition entry: depth and sojourn (R239). -/
  rentHwm : Store (Nat × Nat)
  /-- Position up to which the credits stand, the end of the frame in transmission of a port, and nodes whose credit clears
  at that end (R231). -/
  creditAt : BitVec 64
  busy    : Store (BitVec 64)
  clears  : List Nat
  /-- Calendar in use, keyed 16·p + k, its cycle, and a commit that waits (R234). -/
  cal     : Store Word
  cycle   : Store Nat
  calPend : List Nat
  /-- Path A and path B are withdrawn (R237). -/
  withdrawn : Bool × Bool
  /-- Host memory that the host rings write (R238). -/
  hostMem : Store (BitVec 8)
  /-- First payload unit of each rendition's newest released unit (R228). -/
  newest  : Store Nat
  /-- Continuity counters of a rendition's transport stream: video, PAT, PMT (R221). -/
  tsCc    : Store (Nat × Nat × Nat)
  deriving DecidableEq, Repr

/-- A message that the device has handed to a port or a link. -/
inductive TxMsg where
  /-- `bytes`: from the destination MAC address through the FCS (R219, R225). -/
  | frame (port flow k : Nat) (pathB : Bool) (bytes : List Nat)
  | forward (port : Nat) (bytes : List Nat)
  /-- A PTP message of the device (R251), by its messageType and sequenceId. -/
  | ptp (port type : Nat) (seq : BitVec 16) (bytes : List Nat)
  /-- `rows`: LNK, TYPE, ARG and CRC-8 on every lane (R180). -/
  | linkSet (bundle : Nat) (x : Bool) (type arg : Nat) (rows : List Row)
  /-- `lanes`: those that carry it, with their eight characters (R182); the others hold electrical idle (R174). -/
  | marker (bundle : Nat) (x : Bool) (seq : BitVec 8) (lanes : List (Nat × List (Bool × Nat)))
  /-- The Stile messages, with their rows on CLP8 (R389). -/
  | heartbeat (m : HeartbeatMsg) (rows : List Row)
  | hello (m : HelloMsg) (rows : List Row)
  | sliceCrc (r : CrcRec) (rows : List Row)
  | digest (frame : BitVec 32) (place cfg : BitVec 64) (rows : List Row)
  | testResult (channel rend tile row engine : Nat) (pass : Bool) (rows : List Row)
  | resync (mask : BitVec 128) (start : BitVec 32) (rows : List Row)
  | swap (frame : BitVec 32) (rows : List Row)
  /-- `bytes`: the UDP frame on the port (R401). -/
  | beacon (m : HeartbeatMsg) (port : Nat) (bytes : List Nat)
  /-- `rows`: the packet's rows on link 9M (R178, R198, R279). -/
  | monLine (line : Nat) (samples : List Nat) (rows : List Row)
  | monFormat (payload : List Nat) (rows : List Row)
  | aes3 (out : Nat) (a b : BitVec 24) (validA validB u c z : Bool)
  /-- `offset`: PTS less the video PTS of its frame, in 90 kHz units (R274). -/
  | pes (channel stream : Nat) (offset : Int) (samples : List (BitVec 24))
  | rtpAudio (channel stream : Nat) (rtp : BitVec 32) (samples : List (BitVec 24))
  deriving DecidableEq, Repr

/-- PTP beside its registers (10_network_time.md). -/
structure PtpSt where
  /-- The 8-entry table: sequenceId of a Delay_Req with its t3 (R252). Times are in 2^-16 ns. -/
  reqs    : List (BitVec 16 × Int)
  /-- The last 16 path-delay samples, and the last 16 kept (R252). -/
  recent  : List Int
  kept    : List Int
  /-- t1 and t2 of the last Sync. -/
  lastSync : Option (Int × Int)
  /-- sequenceId of the next Delay_Req; of the next Sync (2x) and Announce (2x + 1) of port x, with the position at which it is due. -/
  seqReq  : BitVec 16
  seqs    : Store (BitVec 16)
  due     : Store (Option (BitVec 64))
  /-- Positions of the last Announce of the grandmaster and of the last Sync (R256). -/
  annAt   : BitVec 64
  syncAt  : BitVec 64
  /-- Grandmaster in use; syncs still to be measured after a change (R256). -/
  gm      : BitVec 64
  gmSyncs : Nat
  changing : Bool
  /-- Ports to which the BMCA has given the master role. -/
  master  : BitVec 4
  /-- The grandmaster's time less the local counter, at full width, in 2^-16 ns (R209). -/
  diff    : Int
  /-- A source loss under R256 stands. -/
  lost    : Bool
  deriving DecidableEq, Repr

/-- One sample of a source (R262, R267): its value, validity, U bit and the grid instant of its stamp. -/
structure ASample where
  v     : BitVec 24
  valid : Bool
  u     : Bool
  stamp : Int
  deriving DecidableEq, Repr

/-- A mono audio source (R261): its FIFO, oldest first, and its stamped samples on the way to the outputs, newest first. -/
structure ASrc where
  fifo    : List ASample
  delay   : List ASample
  /-- Underrun: silent until the rejoin point; the Steeple frame in which it occurred (R271). -/
  under   : Bool
  underFr : BitVec 32
  /-- Sample received last (R262). -/
  lastV   : BitVec 24
  /-- Channel-status bits of the block in progress, the last good block and the U bits of the block (R264). -/
  cs      : List Bool
  csGood  : List (BitVec 8)
  ubits   : List Bool
  /-- State of a microphone's decimator (R265). -/
  filt    : Nat
  deriving DecidableEq, Repr

/-- An AES3 input (key i) or the audio stream of a CLP input (key 16 + i): block sync and rate (R263, R268). -/
structure AIn where
  lock    : Bool
  seenZ   : Bool
  /-- Frames since the last Z. -/
  sinceZ  : Nat
  rateBad : Bool
  /-- The rate has been within range since the last Z. -/
  clean   : Bool
  deriving DecidableEq, Repr

/-- An AES3 output (R273, R407): the configuration in use, one that waits for the next Z, the frame of its block. -/
structure AOut where
  cfg   : Word
  next  : Option Word
  frame : Nat
  lastA : BitVec 24
  lastB : BitVec 24
  /-- Repeats its last sample until its first Z after a taken role. -/
  repeatLast : Bool
  deriving DecidableEq, Repr

/-- Audio (11_audio.md). -/
structure AudSt where
  /-- Number of the last grid instant, in samples since the PTP epoch; instants with the positions at which they fell, newest
  first. -/
  grid  : Nat
  grids : List (Nat × BitVec 64)
  /-- Sources keyed KIND × 65536 + UNIT × 64 + SUB. -/
  srcs  : Store ASrc
  ins   : Store AIn
  slots : Store Word
  flows : Store (List Word)
  /-- RTP sequence numbers received by each network flow, newest first. -/
  seqs  : Store (List (BitVec 16))
  outs  : Store AOut
  /-- ST 302M streams: frame of the last PES, plus 1; AES67 streams: first stamp of the next packet, plus 1; keyed 4·n + k. -/
  pes   : Store Nat
  pkts  : Store Nat
  /-- Continuity counters of the ST 302M streams in transport streams, keyed 4 × rendition + k (R274). -/
  pesCc : Store Nat
  /-- Integral part of the PLL's steering, in 2^-20 ppm (R260). -/
  integ : Int
  /-- The master is lost (R270). -/
  lost  : Bool
  deriving DecidableEq, Repr

/-- Monitor head (12_monitor_head.md). -/
structure MonSt where
  /-- Active set and set in use (R160, R283), by offset. -/
  active  : Store Word
  inUse   : Store Word
  /-- A frame is in progress, the Steeple frame in which it began, the running CRC over its payloads (R286). -/
  inFrame : Bool
  startFr : BitVec 32
  crc     : Nat
  /-- The frame has met link 9M narrowed or down, or a time without the control role. -/
  linkBad : Bool
  deriving DecidableEq, Repr

/-- A thread context (Table 13-4) with the ordering the Reeve keeps (R301). -/
structure Thread where
  prio     : Nat
  aff      : Nat
  state    : Nat
  pair     : Nat
  rerun    : Bool
  cancel   : Bool
  en       : Bool
  dl       : Nat
  absorbed : Nat
  misses   : Nat
  due      : BitVec 32
  /-- Full due position (R294). -/
  duePos   : BitVec 64
  /-- Place in its ready list: lower is nearer the head. -/
  rank     : Int
  /-- This readiness has a deadline (R294, R301). -/
  hasDue   : Bool
  /-- This readiness has been checked for lateness (R304). -/
  checked  : Bool
  newPrio  : Option Nat
  newAff   : Option Nat
  /-- EN written 0 while RUNNING: freed at its dispatch point. -/
  freeing  : Bool
  deriving DecidableEq, Repr

/-- A doorbell in the FIFO (R297). -/
structure Bell where
  thread : Nat
  op     : Nat
  arg    : Nat
  /-- Matrix master that wrote it (Table 15-4): 41 a core pair, 42 the host. -/
  master : Nat
  deriving DecidableEq, Repr

/-- A core pair beside its registers (13_control_cores_and_reeve.md). -/
structure PairSt where
  running  : Option Nat
  offered  : Option Nat
  dispatch : Bool
  wfi      : Bool
  drain    : Bool
  drained  : Bool
  loading  : Bool
  offline  : Bool
  failed   : Bool
  /-- DRAIN written 0 while loading (R309). -/
  undrain  : Bool
  /-- The NEXT that follows a cancelled thread reads CANCELLED. -/
  cancelled : Bool
  /-- Time of the last lockstep mismatch, ns (R289). -/
  lockAt   : Option Nat
  secondLock : Bool
  deriving DecidableEq, Repr

/-- The Reeve. -/
structure ReeveSt where
  threads  : Store Thread
  bindings : Store Word
  vector   : List Nat
  fifo     : List Bell
  /-- Doorbell writes held on the bus, oldest first, with the stall already logged (R298). -/
  held     : List (Bell × Bool)
  pairs    : Store PairSt
  rankNext : Int
  deriving DecidableEq, Repr

/-- The Belfry beside its registers: round-robin pointer and active target of each source (R319, R316). -/
structure BelfrySt where
  ptr      : Store Nat
  active   : Store Nat
  orphaned : List Nat
  /-- Assigned target of each assigned source (R319). -/
  assigned : Store Nat
  deriving DecidableEq, Repr

/-- A pseudo-channel controller beside its registers (15_hbm_and_fabric.md). -/
structure PchSt where
  /-- Requests with the model time in ns at which they arrived, in order of arrival. -/
  queue  : List (MemReq × Nat)
  /-- Activations counted per bank and the row open in each bank, plus 1 (R336). -/
  acts   : Store Nat
  open_  : Store Nat
  /-- Activations in this tREFI window, keyed master × 64 + bank (R337). -/
  win    : Store Nat
  /-- Throttled master of a bank, plus 1, and the time of its last activation there. -/
  thr    : Store Nat
  thrAt  : Store Nat
  /-- The second in progress and the errors corrected in it (R341). -/
  corrSec : Nat × Nat
  deriving DecidableEq, Repr

/-- Uncorrectable data that a read by a matrix master met (R346): the 64-byte line, and the Steeple frame of the read. -/
structure FailedRead where
  master : Nat
  line   : Nat
  frame  : BitVec 32
  deriving DecidableEq, Repr

/-- HBM and its layout (R329 to R332). -/
structure HbmSt where
  /-- Bytes by device address. -/
  mem    : List Host.Cell
  /-- 0 until the contents of the HOST and PLACEMENT regions have become undefined (R331, R344); then the draw that names
  their contents. -/
  gen    : Nat
  pchs   : Store PchSt
  /-- CFG word in use of each region (R331). -/
  layout : Store Word
  /-- Master granted last at each matrix target (R349); 49 before any grant. -/
  granted : Store Nat
  /-- Failed reads whose data their masters have still to handle (Table 15-9). -/
  failed : List FailedRead
  deriving DecidableEq, Repr

/-- A scan of a check-value unit (R357, R359). -/
structure CvuSt where
  busy  : Bool
  start : Nat
  len   : Nat
  abort : Bool
  deriving DecidableEq, Repr

/-- A Parish Book line (Table 16-3). -/
structure BLine where
  type    : Nat
  flags   : Nat
  unit    : Nat
  seq     : BitVec 32
  payload : List (BitVec 8)
  chkA    : BitVec 32
  chkB    : BitVec 32
  deriving DecidableEq, Repr

/-- A line staged for an area and ring position (R364). -/
structure Staged where
  area : Nat
  pos  : Nat
  line : BLine
  /-- A reprogramming under R366, which takes no SEQ. -/
  repair : Bool
  deriving DecidableEq, Repr

/-- The Parish Book (R361 to R371). -/
structure BookSt where
  count  : Store Nat
  lines  : Store BLine
  staged : List Staged
  /-- Positions that failed with no spare left. -/
  dead   : List Nat
  /-- The spare line of each position that has one (its number and 1), and how often each physical line has been programmed. -/
  spareAt : Store Nat
  wear   : Store Nat
  closed : Bool
  /-- Lines written to area 0 in the second in progress, faults suppressed in it. -/
  second : Nat
  supp   : Nat
  deriving DecidableEq, Repr

/-- A raised fault code that the Watch has yet to log (R377). -/
structure FaultRec where
  code : Nat
  /-- Page index of the unit. -/
  unit : Nat
  loc0 : Nat
  loc1 : Nat
  /-- Model time of the raise; faults of one time are faults of one cycle. -/
  time : Nat
  deriving DecidableEq, Repr

/-- A resolution in progress (R397). -/
structure Resolve where
  channel : Nat
  rend    : Nat
  tile    : Nat
  row     : Nat
  /-- The engine that holds the slice's tile; 63 where none does. -/
  engine  : Nat
  /-- First failing step of the own test; the twin's result (0 none, 1 pass, 2 fail). -/
  step    : Nat
  twinRes : Nat
  deriving DecidableEq, Repr

/-- Twin operation beside the STILE page (18_twin_operation.md). -/
structure TwinSt where
  own       : List CrcRec
  twin      : List CrcRec
  diverged  : List Nat
  resolving : Option Resolve
  waiting   : List Resolve
  swapAt    : Option (BitVec 32)
  /-- Channels that restart, with the Steeple frame (R400). -/
  resyncs   : List (Nat × BitVec 32)
  /-- Consecutive heartbeats within ±1/8 line; the HELLOs agree; the named frame (R394). -/
  hbRun     : Nat
  agreed    : Bool
  named     : Option (BitVec 32)
  /-- Last heartbeat received and the position at its arrival. -/
  lastHb    : Option (HeartbeatMsg × BitVec 64)
  twinCtrl  : Bool
  holdoff   : Option (BitVec 32)
  handover  : Option (BitVec 32)
  /-- Own digests of the last epoch, the twin's last digests, and the last epoch's comparison. -/
  ownDigest : Option (BitVec 32 × BitVec 64 × BitVec 64)
  twinDigest : Option (BitVec 32 × BitVec 64 × BitVec 64)
  agreedEpoch : Bool
  /-- Units anchored from this frame on are sent again (R398). -/
  returnAt  : Option (BitVec 32)
  deriving DecidableEq, Repr

/-- Boot (19_modes_startup_power.md). -/
structure BootSt where
  slotRollback : Nat
  parityErrs   : Nat
  /-- Frame count at the last entry to SERVICE or DEGRADED (R415). -/
  svcAt        : Option (BitVec 32)
  /-- The boot configuration record is being applied: its writes reach every page (R425). -/
  applying     : Bool
  deriving DecidableEq, Repr

/-- The machine. `pending` is the queue of the commands that wait, first in, first out. -/
structure State where
  regs    : Store Word
  bus     : BusSt
  pins    : PinSt
  stp     : SteepleSt
  chans   : Store Chan
  eng     : EngSt
  mill    : MillSt
  clp     : ClpSt
  ing     : IngSt
  etm     : EtmSt
  ptp     : PtpSt
  aud     : AudSt
  mon     : MonSt
  rv      : ReeveSt
  bf      : BelfrySt
  hbm     : HbmSt
  cvu     : Store CvuSt
  book    : BookSt
  faults  : List FaultRec
  twin    : TwinSt
  boot    : BootSt
  /-- What the device has handed to its ports and links, newest first (notes/assumptions/6.md). -/
  sent    : List TxMsg
  /-- Counter of the free values (notes/assumptions/5.md). The model's own, not the spec's. -/
  free    : Nat
  pending : List Instr
  deriving DecidableEq, Repr

/-- No command of this block stops it by a fault: every error the spec names is a register, an event or a
response. Nobody raises a fault. -/
inductive Fault
  deriving DecidableEq, Repr

/-- Why a command has no meaning. -/
inductive Refusal where
  /-- Raised by the dispatch of a command that the model has no meaning for; safe. No arm of `exec` is left so. -/
  | notModelled (mnemonic : String)
  deriving DecidableEq, Repr


/-! ### Initial values. Unlisted keys of the stores read as these. -/

/-- LUT entries of a preset (R154); preset 0 at reset. -/
def lutReset (preset k : Nat) : BitVec 18 :=
  if preset = 0 then BitVec.ofNat 18 (sdrEntry (k / 3072) (k % 1024)) else Config.presetLut preset (k / 3072) (k % 1024)

def RcSt.init : RcSt :=
  { bitsFrame := 0, pic := none, units := [], window := [], history := [], gdrPos := 0, gdrOwed := [], irapBase := 0
    cuts := [], still := [], tileRows := [], lost := [], pics := [], clean := [], unf := [], filtered := 0, motion := [], shown := none, outNext := (0, 0) }

def GlnSt.init : GlnSt := ⟨false, 0, [], [], [], false, none, 0, false, false, none, [], []⟩

def AirSt.init : AirSt := ⟨List.replicate 32 0, 0, [], true, false, false, false, false, none⟩

def Chan.init : Chan :=
  { place := none, next := none, running := false, quiesce := false, stopping := false, endPos := none
    paused := false, seqNo := 0, frame := 0, fresh := true, startFr := 0, newExt := none, oldExt := none
    oldLeft := 0, extFrom := 0, moving := false, ctrlNext := none, ctrlDone := false, cutFrames := [], starts := [], quiets := [], lines := 0, stages := [], ready := [], made := [], gln := GlnSt.init
    rc := [], active := [], inUse := [], release := [], commitAt := 0, chroma := [], slices := [], outq := [], lut := [], lutBase := 0, air := AirSt.init, skip := 0 }

/-- Slot `k` before any placement: engine k, free (R457). -/
def Slot.init (k : Nat) : Slot := ⟨some k, false, [], none, none, none⟩

def EngSt.init : EngSt := ⟨[], some 32, some 33, false, none, [], 0, false, 0, [], false, false, [], 0, 0⟩

def Lane.init : Lane := ⟨0, 0, 0, (0, 0), none⟩
def Link.init : Link := ⟨none, none, none, none, 0, none, none, 0, none, 0, [], [], [], false⟩
def Inp.init : Inp :=
  { tag := none, tagNext := none, landed := [], missed := [], early := [], cover := [], coverNext := []
    meters := (⟨0, 0, 0⟩, ⟨0, 0, 0⟩), land := [], landNext := [], missRun := 0, missLine := none, clean := true, wasClean := false, fmtLoss := false, lostAt := 0
    startAt := none, lastLine := (0, 0), seen := [], gaps := [], arrived := (false, false), down := (false, false), ringPtr := 0 }

def ASrc.init : ASrc := ⟨[], [], false, 0, 0, [], List.replicate 24 0, [], 0⟩
def AIn.init : AIn := ⟨false, false, 0, false, false⟩
def AOut.init : AOut := ⟨0, none, 0, 0, 0, false⟩

/-- A thread at reset: FREE, every field 0 (notes/assumptions/4.md). -/
def Thread.init : Thread :=
  ⟨0, 0, 0, 0, false, false, false, 0, 0, 0, 0, 0, 0, false, false, none, none, false⟩

def PairSt.init : PairSt :=
  ⟨none, none, false, false, false, false, false, false, false, false, false, none, false⟩

def PchSt.init : PchSt := ⟨[], [], [], [], [], [], (0, 0)⟩
def CvuSt.init : CvuSt := ⟨false, 0, 0, false⟩

/-- A node entry at reset: HI_CREDIT 16,384, the rest 0 (Table 9-5). -/
def nodeInit : List Word := [0, 0, 16384, 0, 0, 0, 0, 0]
/-- A flow context, a rendition entry and a next-hop entry before any write (notes/assumptions/4.md). -/
def words16 : List Word := List.replicate 16 0
def words8 : List Word := List.replicate 8 0

/-- What a byte of HBM that nothing has written reads as: 0 after power-on (notes/assumptions/4.md), a free value in a region
whose contents have become undefined. -/
def memDefault (gen a : Nat) : BitVec 8 := if gen = 0 ∨ a < 0x10000000 then 0 else Config.hbmByte gen a

/-- The canonical form of memory: addresses strictly rising, no byte equal to what an unlisted address reads as. -/
def HbmSt.wf (h : HbmSt) : Bool := Store.wf (memDefault h.gen) h.mem

/-- An empty Parish Book line: TYPE 0 (Table 16-3). -/
def BLine.init : BLine := ⟨0, 0, 0, 0, List.replicate 48 0, 0, 0⟩

/-- Calendar at reset: a single BOTH window with a cycle of 1 line (R234). -/
def calReset (k : Nat) : Word := if k % 16 = 0 then 0x80020000 else 0

/-- The machine right after its power-on reset (R410, R416, R418): BOOT, every register at its reset value (RESET_CAUSE shows
POR_N), every queue empty. -/
def State.reset : State :=
  { regs := [(Reg.devResetCause, 1)]
    bus := ⟨[], .ok⟩
    pins := { porLow := false, resetLow := false, swReset := false, pwrFailLow := false, pwrHighAt := none, token := true
              gpioShown := 0, pcieUp := false, msixOn := false
              msixMasked := true, msixPend := false, msixSent := 0 }
    stp := { pos := 0, acc := 0, timeNs := 0, freqPpb := 0, holdPpb := 0, latch := [], okRun := 0, okFrame := none, badRun := 0, glitches := []
             measured := none, accepted := false, lockHist := [], lost := false, epochOf := none, actNext := []
             pulses := [] }
    chans := []
    eng := EngSt.init
    mill := ⟨[], [], [], []⟩
    clp := ⟨[], []⟩
    ing := ⟨[], [], [], [], []⟩
    etm := { flows := [], nodes := [], hops := [], joined := [], leaving := [], units := [], queue := [], nodeTag := []
             rentTag := [], flowTag := [], srcTag := [], portV := [], srcV := [], rentV := [], rentHwm := [], creditAt := 0
             busy := [], clears := [], cal := [], cycle := [], calPend := [], withdrawn := (false, false), hostMem := []
             newest := [], tsCc := [] }
    ptp := ⟨[], [], [], none, 0, [], [], 0, 0, 0, 0, false, 0, 0, false⟩
    aud := { grid := 0, grids := [], srcs := [], ins := [], slots := [], flows := [], seqs := [], outs := [], pes := [], pkts := []
             pesCc := [], integ := 0, lost := false }
    mon := ⟨[], [], false, 0, 0xFFFFFFFF, false⟩
    rv := ⟨[], [], [], [], [], [], 0⟩
    bf := ⟨[], [], [], []⟩
    hbm := ⟨[], 0, [], [], [], []⟩
    cvu := []
    book := ⟨[], [], [], [], [], [], false, 0, 0⟩
    faults := []
    twin := { own := [], twin := [], diverged := [], resolving := none, waiting := [], swapAt := none
              resyncs := [], hbRun := 0, agreed := false, named := none, lastHb := none, twinCtrl := false
              holdoff := none, handover := none, ownDigest := none, twinDigest := none, agreedEpoch := true, returnAt := none }
    boot := ⟨0, 0, none, false⟩
    sent := []
    free := 0
    pending := [] }

end Sys2Proof.Machine
end

