-- ==== Sys2Proof/Machine/Ops.lean ====
section
/-! DEFINITION. The named operations over registers, events, refusals, the position, faults and the Parish Book's
write buffer that the meanings of the commands share. -/

namespace Sys2Proof.Machine

/-- What a command answers. -/
abbrev Out := Host.Outcome State Fault Refusal

/-! ### Bit fields of a word -/

/-- The field [hi:lo] of a register word. -/
def fld (w : Word) (hi lo : Nat) : Nat := (w.extractLsb' lo (hi - lo + 1)).toNat

/-- A word with ones in [hi:lo]. -/
def fldMask (hi lo : Nat) : Word := (BitVec.allOnes (hi - lo + 1)).setWidth 32 <<< lo

/-- The word with `v` in the field [hi:lo], the other bits as they stand. -/
def setFld (w : Word) (hi lo v : Nat) : Word :=
  (w &&& ~~~(fldMask hi lo)) ||| ((BitVec.ofNat 32 v <<< lo) &&& fldMask hi lo)

/-- The word with bit `i` at `b`. -/
def putBit (w : Word) (i : Nat) (b : Bool) : Word :=
  if b then w ||| BitVec.twoPow 32 i else w &&& ~~~(BitVec.twoPow 32 i)

/-- Two's complement in `w` bits of an integer, saturating. -/
def satInt (w : Nat) (i : Int) : Nat :=
  let c := clampI i (-(2 ^ (w - 1) : Nat)) ((2 ^ (w - 1) : Nat) - 1)
  (c % (2 ^ w : Nat)).toNat

namespace State

/-! ### Registers -/

/-- The register at a byte address. -/
def reg (s : State) (a : Nat) : Word := Store.get resetVal s.regs a

/-- Write the register at a byte address, whole. -/
def setReg (s : State) (a : Nat) (w : Word) : State := { s with regs := Store.put resetVal s.regs a w }

/-- Field [hi:lo] of a register. -/
def getF (s : State) (a hi lo : Nat) : Nat := fld (s.reg a) hi lo

/-- Write field [hi:lo] of a register. -/
def setF (s : State) (a hi lo v : Nat) : State := s.setReg a (setFld (s.reg a) hi lo v)

/-- Bit `i` of a register. -/
def bit (s : State) (a i : Nat) : Bool := (s.reg a).getLsbD i

/-- Write bit `i` of a register. -/
def setBit (s : State) (a i : Nat) (b : Bool) : State := s.setReg a (putBit (s.reg a) i b)

/-- Write a natural number into a whole register. -/
def setN (s : State) (a n : Nat) : State := s.setReg a (BitVec.ofNat 32 n)

/-- Add to a saturating counter in [hi:lo] (R8). -/
def incSat (s : State) (a hi lo n : Nat) : State :=
  s.setF a hi lo (satTo (hi - lo + 1) (s.getF a hi lo + n))

/-- Add to a saturating 32-bit counter (R8). -/
def inc32 (s : State) (a : Nat) : State := s.incSat a 31 0 1

/-- Add to a 32-bit count that wraps (R8). -/
def wrapAdd (s : State) (a n : Nat) : State := s.setReg a (s.reg a + BitVec.ofNat 32 n)

/-- The 64-bit value of a LO, HI register pair. -/
def reg64 (s : State) (lo hi : Nat) : BitVec 64 := s.reg hi ++ s.reg lo

/-- Write a LO, HI pair. -/
def setReg64 (s : State) (lo hi : Nat) (v : BitVec 64) : State :=
  (s.setReg lo (v.setWidth 32)).setReg hi ((v >>> 32).setWidth 32)

/-- Write 0 to each of a list of registers. -/
def clearRegs (s : State) (l : List Nat) : State := l.foldl (fun t a => t.setReg a 0) s

/-! ### The page header -/

/-- Set bit `i` of a page's EVT (R36, R312, R452). -/
def evt (s : State) (page i : Nat) : State := s.setBit (page + hEvt) i true

/-- ENABLE of a page (Table 21-3). -/
def enabled (s : State) (page : Nat) : Bool := s.bit (page + hCtrl) 0

/-- The mode of the device (R409): 0 BOOT, 1 COMMISSION, 2 SERVICE, 3 DEGRADED, 4 RECOVERY, 5 TEST. -/
def mode (s : State) : Nat := s.getF Reg.watchMode 2 0

/-- The device is held in a reset of Table 19-3. -/
def inReset (s : State) : Bool := s.pins.porLow || s.pins.resetLow || s.pins.swReset

/-- A page answers on BAR0: in BOOT only the DEV page does (R409), but the boot configuration record reaches every page (R425);
in reset nothing answers. -/
def answers (s : State) (page : Nat) : Bool :=
  !s.inReset && (decide (s.mode ≠ 0 ∨ page = Pg.dev) || s.boot.applying)

/-- Report a refusal on a page: REFUSED, and the code, word offset and PAGE of REFUSE (R450). -/
def refuse (s : State) (page code word sub : Nat) : State :=
  (s.setBit (page + hStatus) 1 true).setN (page + hRefuse) (code + word * 0x10000 + sub * 0x10000000)

/-- Clear REFUSED and REFUSE (R450). -/
def clearRefusal (s : State) (page : Nat) : State :=
  (s.setBit (page + hStatus) 1 false).setReg (page + hRefuse) 0

/-- A check that passes sets ACTIVE and clears REFUSED (R449, R450). -/
def activate (s : State) (page : Nat) : State :=
  ((s.setBit (page + hCtrl) 0 true).setBit (page + hStatus) 0 true).clearRefusal page

/-- ENABLE and ACTIVE go to 0. -/
def deactivate (s : State) (page : Nat) : State :=
  (s.setBit (page + hCtrl) 0 false).setBit (page + hStatus) 0 false

/-- A check that fails returns ENABLE to 0, leaves ACTIVE at 0 and fills REFUSE (R449). -/
def failCheck (s : State) (page code word sub : Nat) : State := (s.deactivate page).refuse page code word sub

/-- The page whose ENABLE a page shows (Table 21-3): the CHRC, CHCOMP, CHAUD and EREND pages show the channel's. -/
def enableOwner (p : PageRef) : Nat :=
  match p.lay with
  | .chrc | .chcomp | .chaud | .erend => Pg.ch p.n
  | _ => p.base

/-- Plot `p` is on loan to the Sexton: a free or surplus plot while the Sexton may test the Millpond (R80, R381, Table 3-3). A
placement that claims the plot changes its KIND, and the loan is over. -/
def plotLent (s : State) (p : Nat) : Bool :=
  decide (s.mode ≠ 0) && s.bit (Pg.mp + hCtrl) 3 && (s.enabled Pg.sexton || s.eng.tail.contains 0) &&
    decide (s.getF (Reg.mpPlot p) 2 0 = 0 ∨ s.getF (Reg.mpPlot p) 2 0 = 5)

/-- Plots on loan (MP.ON_TEST). -/
def plotsLent (s : State) : Nat := ((List.range 384).filter s.plotLent).length

/-- A register as the bus shows it: STATUS echoes the mode in [15:8] (R409); CTRL shows the ENABLE that governs the
page (Table 21-3); the Millpond shows the plots on loan (Tables 3-6, 3-8). -/
def view (s : State) (a : Nat) : Word :=
  match pageAt (a / 0x1000) with
  | none => 0
  | some p =>
    if a % 0x1000 = hStatus then setFld (s.reg a) 15 8 s.mode
    else if a % 0x1000 = hCtrl then putBit (s.reg a) 0 (s.bit (enableOwner p + hCtrl) 0)
    else if a = Reg.mpOnTest then BitVec.ofNat 32 s.plotsLent
    else if Reg.mpPlot 0 ≤ a ∧ a < Reg.mpPlot 384 then putBit (s.reg a) 3 (s.plotLent ((a - Reg.mpPlot 0) / 4))
    else s.reg a

/-! ### Free values (notes/assumptions/5.md) -/

/-- Draw the next free value: its index and the state after the draw. -/
def draw (s : State) : Nat × State := (s.free, { s with free := s.free + 1 })

/-! ### The Steeple position -/

/-- Lines of a Steeple frame (R13); at least 1. -/
def totalLines (s : State) : Nat := max 1 (s.getF Reg.stpRaster 29 16)

/-- FRAC units of a Steeple frame. -/
def frameUnits (s : State) : Nat := s.totalLines * 262144

/-- Frame period in seconds as numerator and denominator (Table 1-2). -/
def framePeriod (s : State) : Nat × Nat :=
  match s.getF Reg.stpRaster 3 0 with
  | 1 => (1, 120) | 2 => (1, 100) | 3 => (1001, 60000) | 4 => (1, 60) | 5 => (1, 50) | _ => (1001, 120000)

/-- FRAME of the position (R9). -/
def frame (s : State) : BitVec 32 := (s.stp.pos >>> 32).setWidth 32
/-- LINE and FRAC of the position as FRAC units from line 0. -/
def inFrame (s : State) : Nat := (s.stp.pos.setWidth 32).toNat
/-- LINE of the position. -/
def line (s : State) : Nat := s.inFrame / 262144

/-- The Steeple position runs (R458). -/
def running (s : State) : Bool := s.enabled Pg.stp

/-- Steeple's state: 0 FREE, 1 ACQUIRE, 2 LOCKED, 3 HOLDOVER (R19). -/
def stpSt (s : State) : Nat := s.getF Reg.stpState 1 0

/-- The position of frame `f`, offset `u` FRAC units. -/
def posOf (f : BitVec 32) (u : Nat) : BitVec 64 := f ++ BitVec.ofNat 32 u

/-- A position as a number of FRAC units from frame 0. -/
def unitsOf (s : State) (p : BitVec 64) : Nat :=
  ((p >>> 32).setWidth 32).toNat * s.frameUnits + (p.setWidth 32).toNat

/-- The position `n` FRAC units after `p`; lines carry into frames at TOTAL_LINES (R9). -/
def posAdd (s : State) (p : BitVec 64) (n : Nat) : BitVec 64 :=
  let u := s.unitsOf p + n
  posOf (BitVec.ofNat 32 (u / s.frameUnits)) (u % s.frameUnits)

/-- PTP.MAP (R254). -/
def ptpMap (s : State) : Nat := s.getF Reg.ptpMapHi 15 0 * 2 ^ 32 + (s.reg Reg.ptpMapLo).toNat

/-- Write PTP.MAP. -/
def setPtpMap (s : State) (m : Nat) : State :=
  (s.setN Reg.ptpMapLo m).setF Reg.ptpMapHi 15 0 (m / 2 ^ 32)

/-- PTP time of a position in units of 1/`scale` s (R254). -/
def ptpTime (s : State) (p : BitVec 64) (scale : Nat) : Nat :=
  let (n, d) := s.framePeriod
  (s.ptpMap * s.frameUnits + s.unitsOf p) * n * scale / (s.frameUnits * d)

/-- The local time counter (R250, R254), in units of 2^-16 ns. -/
def localTime (s : State) : Nat := s.ptpTime s.stp.pos 65536000000000

/-- PTP time of the start of Steeple frame `f`, not later than the one in progress, in units of 1/`scale` s (R254). -/
def frameTime (s : State) (f : BitVec 32) (scale : Nat) : Nat :=
  let (n, d) := s.framePeriod
  (s.ptpMap + s.frame.toNat - (s.frame - f).toNat) * n * scale / d

/-- PTP seconds of the position (Table 17-2, Table 16-4). -/
def ptpSeconds (s : State) : Nat := s.ptpTime s.stp.pos 1

/-- FRAME's wrap carries into MAP (R254). -/
def carryMap (s : State) (f : Nat) : State :=
  if 2 ^ 32 ≤ f then s.setPtpMap (s.ptpMap + 2 ^ 32) else s

/-- Frames spent in HOLDOVER are counted; the frequency of the last 64 locked frames is kept (R21). -/
def countHold (s : State) (k : Nat) : State :=
  if s.stpSt = 3 then s.wrapAdd Reg.stpHoldFrames k
  else if s.stpSt = 2 then
    { s with stp := { s.stp with lockHist := (List.replicate (min k 64) s.stp.freqPpb ++ s.stp.lockHist).take 64 } }
  else s

/-- Put the position at a place. -/
def setPos (s : State) (p : BitVec 64) : State := { s with stp := { s.stp with pos := p } }

/-- Move `k` frame starts on, to offset `u`. -/
def enterFrame (s : State) (k : Nat) (u : Nat) : State :=
  ((s.setPos (posOf (BitVec.ofNat 32 (s.frame.toNat + k)) u)).carryMap (s.frame.toNat + k)).countHold k

/-- Advance the position by FRAC units, frame starts included. -/
def advance (s : State) (n : Nat) : State :=
  let u := s.inFrame + n
  if u < s.frameUnits then s.setPos (posOf s.frame u)
  else s.enterFrame (u / s.frameUnits) (u % s.frameUnits)

/-- The position stands at a Steeple frame start. -/
def atFrameStart (s : State) : Bool := decide (s.inFrame = 0)

/-- Reach the Steeple frame start at which a command takes effect: the present one, or the next
(notes/assumptions/2.md). -/
def toFrameStart (s : State) : State := if s.inFrame = 0 || !s.running then s else s.enterFrame 1 0

/-- Reach a later position (notes/assumptions/2.md); an earlier one leaves the position where it stands (R12). -/
def toPos (s : State) (p : BitVec 64) : State :=
  if (p - s.stp.pos).toInt ≤ 0 then s
  else
    let k := ((p >>> 32).setWidth 32 - s.frame : BitVec 32).toNat
    if k = 0 then s.setPos p else s.enterFrame k (p.setWidth 32).toNat

/-- One nanosecond of model time (notes/assumptions/2.md): the position advances at Steeple's frequency. -/
def tick (s : State) : State :=
  let t := { s with stp := { s.stp with timeNs := s.stp.timeNs + 1 } }
  if t.running then
    let (n, d) := t.framePeriod
    let rate := (1000000000 + t.stp.freqPpb).toNat
    let acc := t.stp.acc + t.frameUnits * d * rate
    let den := n * 1000000000000000000
    { t with stp := { t.stp with acc := acc % den } }.advance (acc / den)
  else t

/-- ns of a number of FRAC units at the nominal rate, rounded down. -/
def unitsToNs (s : State) (u : Nat) : Nat :=
  let (n, d) := s.framePeriod
  u * n * 1000000000 / (s.frameUnits * d)

/-- FRAC units of a number of ns, rounded up. -/
def nsToUnits (s : State) (ns : Nat) : Nat :=
  let (n, d) := s.framePeriod
  ceilDiv (ns * s.frameUnits * d) (n * 1000000000)

/-! ### Faults, causes and modes -/

/-- A block raises a fault code against a unit's page index; the Watch logs it by FAULT_LOG (R377). -/
def raise (s : State) (code page loc0 loc1 : Nat) : State :=
  { s with faults := s.faults ++ [⟨code, page / 0x1000, loc0, loc1, s.stp.timeNs⟩] }

/-- Engines that may lend, and every other LOAN_OK (R374). -/
def loanOkAll (s : State) : Bool :=
  (List.range 34).all (fun e => s.bit (Pg.ee e + hCtrl) 3) && s.bit (Pg.mp + hCtrl) 3 &&
  s.bit (Pg.hbm + hCtrl) 3 && s.bit (Pg.mtx + hCtrl) 3 && (List.range 10).all (fun n => s.bit (Pg.clp n + hCtrl) 3)

/-- Twin mode is active: STATE.STEP reads IN_STEP (R390). -/
def inStep (s : State) : Bool := decide (s.getF Reg.stileState 1 0 = 2)

/-- Twin mode is active with the Stile route up (R374, R390). -/
def twinUp (s : State) : Bool := s.inStep && s.bit Reg.stileState 4

/-- The device holds the control role: at all times while its STILE page is not enabled (R387). -/
def hasRole (s : State) : Bool := !(s.enabled Pg.stile) || s.bit Reg.stileState 3

/-- WATCH.GUARANTEE (R374, Table 17-8). -/
def guaranteeWord (s : State) : Word :=
  let sext := s.enabled Pg.sexton && s.loanOkAll
  let spares := s.eng.loan.isSome && s.eng.standby.isSome
  let clean := decide (s.getF Reg.watchDegrCause 9 0 = 0)
  let svc := decide (s.mode = 2)
  [(0, sext && spares && clean && svc), (1, sext), (2, spares), (3, s.twinUp), (4, clean), (5, svc)].foldl
    (fun (w : Word) p => putBit w p.1 p.2) 0

/-- Bring GUARANTEE up to date; WATCH.EVT bit 4 when MET clears (R385). -/
def guarantee (s : State) : State :=
  let w := s.guaranteeWord
  let t := s.setReg Reg.watchGuarantee w
  if s.bit Reg.watchGuarantee 0 && !(w.getLsbD 0) then t.evt Pg.watch 4 else t

/-- Enter a mode: WATCH.MODE, DEV.EVT bit 0 (R410, R430). -/
def setMode (s : State) (m : Nat) : State := ((s.setF Reg.watchMode 2 0 m).evt Pg.dev 0).guarantee

/-- A DEGRADED cause sets its bit and takes the device from SERVICE to DEGRADED in the same cycle (R378). -/
def setCause (s : State) (i : Nat) : State :=
  let t := s.setBit Reg.watchDegrCause i true
  if t.mode = 2 then (t.setMode 3).evt Pg.watch 1 else t.guarantee


/-- A RECOVERY request sets its bit (R379). -/
def recoverReq (s : State) (i : Nat) : State := s.setBit Reg.watchRecoverReq i true

/-- Set or clear STATUS.DEGRADED of a unit (R451). -/
def unitDegraded (s : State) (page : Nat) (b : Bool) : State := s.setBit (page + hStatus) 4 b

/-- Pages whose units can hold a DEGRADED cause that can clear (Tables 17-3, 17-4). -/
def causePages : Nat → List Nat
  | 0 => (List.range 34).map Pg.ee
  | 1 => (List.range 10).map Pg.clp
  | 3 => [Pg.mp]
  | 5 => [Pg.stile]
  | 6 => (List.range 128).map Pg.ch
  | 7 => [Pg.stp]
  | 8 => (List.range 128).map Pg.inp ++ (List.range 4).map Pg.eth
  | _ => []

/-- A DEGRADED cause clears (Table 17-4), and with it STATUS.DEGRADED of its units (R451). -/
def clearCause (s : State) (i : Nat) : State :=
  if s.bit Reg.watchDegrCause i then
    ((causePages i).foldl (fun t p => t.unitDegraded p false) (s.setBit Reg.watchDegrCause i false)).guarantee
  else s.guarantee

/-! ### HBM -/

/-- A byte of HBM. -/
def memByte (s : State) (a : Nat) : BitVec 8 := Store.get (memDefault s.hbm.gen) s.hbm.mem a

/-- Bytes of HBM from an address on. -/
def memBytes (s : State) (a n : Nat) : List Nat := (List.range n).map (fun i => (s.memByte (a + i)).toNat)

/-- Write bytes from an address on. -/
def setMem (s : State) (a : Nat) (l : List (BitVec 8)) : State :=
  { s with hbm := { s.hbm with mem := Store.putMany (memDefault s.hbm.gen) s.hbm.mem a l } }

/-- First address at or above which nothing exists: HBM.TOP in bytes (R332). -/
def hbmEnd (s : State) : Nat := s.getF Reg.hbmTop 13 0 * 0x200000

/-! ### The Parish Book's write buffer -/

/-- Lines of an area (Table 16-2). -/
def areaLines : Nat → Nat
  | 0 => 8192 | 1 => 4096 | _ => 52736

/-- Count of lines written to an area since manufacture (R361). -/
def bookCount (s : State) (k : Nat) : Nat := Store.get (fun k => (Config.bookCount k).toNat) s.book.count k

/-- Bytes 0 to 55 of a line (Table 16-3). -/
def lineBytes (l : BLine) : List Nat :=
  [l.type, l.flags] ++ leBytes 2 l.unit ++ leBytes 4 l.seq.toNat ++ (l.payload.map BitVec.toNat)

/-- The two check values of a line at a ring position (R365). -/
def lineChecks (l : BLine) (pos : Nat) : BitVec 32 × BitVec 32 :=
  let bs := lineBytes l ++ leBytes 4 pos
  (BitVec.ofNat 32 (crc32c bs), BitVec.ofNat 32 (crc32 bs))

/-- The line with both check values computed. -/
def sealLine (l : BLine) (pos : Nat) : BLine :=
  let c := lineChecks l pos
  { l with chkA := c.1, chkB := c.2 }

/-- Bring BUF_LVL up to date. -/
def bufLevel (s : State) : State := s.setF Reg.pbookBufLvl 6 0 (min 63 s.book.staged.length)

/-- Stage a line for the next position of an area's ring (R361, R364); a closed Book accepts none (R428). An as-aired
line that is overwritten unread is counted (R371). -/
def stageLine (s : State) (area type flags unit : Nat) (payload : List Nat) : State :=
  if s.book.closed then s
  else
    let c := s.bookCount area
    let pos := c % areaLines area
    let l : BLine := sealLine ⟨type, flags, unit, BitVec.ofNat 32 c,
      (payload ++ List.replicate (48 - payload.length) 0).map (BitVec.ofNat 8), 0, 0⟩ pos
    let head := BitVec.ofNat 32 c
    let exportMark := s.reg (Reg.pbookAreaExport area)
    let old := head - BitVec.ofNat 32 (areaLines area)
    let lost := area = 2 ∧ areaLines 2 ≤ c ∧ 0 ≤ (old - exportMark).toInt
    let t := { s with book := { s.book with
      count := Store.put (fun k => (Config.bookCount k).toNat) s.book.count area (c + 1)
      staged := s.book.staged ++ [({ area := area, pos := pos, line := l, repair := false } : Staged)] } }
    let t := t.setReg (Reg.pbookAreaHead area) (head + 1)
    let t := if lost then (t.inc32 Reg.pbookAirLost).evt Pg.pbook 5 else t
    let t := if area = 2 ∧ 39552 < (head + 1 - exportMark).toNat then t.evt Pg.pbook 4 else t
    t.bufLevel

end State

/-- The pages that hold RWE registers, in page-index order (R368). -/
def snapshotPages : List PageRef :=
  let all (l : Layout) : List PageRef := (List.range l.place.2.2).map (fun n => ⟨l, n⟩)
  all .stp ++ all .ptp ++ (List.range 128).flatMap (fun n => [⟨.ch, n⟩, ⟨.chrc, n⟩, ⟨.chcomp, n⟩, ⟨.chaud, n⟩]) ++
  all .mon ++ all .clp ++ all .inp ++ all .erend ++ all .eth ++ all .aud ++ all .stile

/-- Word offsets of the RWE registers of a layout, in ascending order. -/
def rweWords (l : Layout) : List Nat :=
  let offs := l.rows.filter (fun r => r.acc = .rwe)
    |>.flatMap (fun r => (List.range r.count).map (fun i => (r.off + i * r.stride) / 4))
  sortBy (fun a b => decide (a ≤ b)) offs

/-- The blocks of twelve words of the RWE registers of one page: block number and words, all-zero blocks left out. -/
def pageBlocks (s : State) (p : PageRef) (word : Nat → Word) : List (Nat × List Nat) :=
  if s.bit (State.enableOwner p + hCtrl) 0 then
    let ws := rweWords p.lay
    let blocks := (ws.map (fun w => w / 12)).eraseDups
    (blocks.map (fun b => (b, (List.range 12).map (fun i =>
      if ws.contains (12 * b + i) then (word (p.base + 4 * (12 * b + i))).toNat else 0)))).filter
      (fun e => e.2.any (fun w => decide (w ≠ 0)))
  else []

/-! ### The checks of an image (R422) -/

/-- A field of an image header (Table 19-7), by first byte and bytes. -/
def headField (h : List Nat) (i n : Nat) : Nat := leVal ((h.drop i).take n)

/-- LENGTH and ROLLBACK of a header. -/
def imageLength (h : List Nat) : Nat := headField h 0x008 4
def imageRollback (h : List Nat) : Nat := headField h 0x00C 4

/-- MAGIC, HDR_VER and LENGTH are right. -/
def headerOk (h : List Nat) : Bool := decide (headField h 0x000 4 = 0x534B4948 ∧ headField h 0x004 4 = 1 ∧ imageLength h ≤ 62914560)

/-- The first check that an image fails, by its ERROR (R422); 0 where it passes all. A key slot above 3 has no hash in the fuses. -/
def imageError (s : State) (h payload : List Nat) : Nat :=
  let part (i n : Nat) : List Nat := (h.drop i).take n
  let slot := headField h 0x010 1
  if !(headerOk h) then 2
  else if decide (4 ≤ slot) || s.bit Reg.devFuseStat (4 + slot) || decide (Config.sha384 (part 0x070 97) ≠ Config.keyHash slot) then 3
  else if imageRollback h < s.getF Reg.devFuseStat 22 16 then 4
  else if Config.sha384 payload ≠ part 0x040 48 then 5
  else if !(Config.ecdsaP384 (part 0x070 97) (Config.sha384 (part 0x000 256)) (part 0x100 96)) then 6
  else 0

/-! ### What a link sends (R178, R198), and the messages of the Stile -/

def link (s : State) (key : Nat) : Link := Store.get (fun _ => Link.init) s.clp.links key
/-- ROLE of R173: 0 UNUSED, 1 DATA, 2 SPARE. -/
def laneRole (s : State) (n p : Nat) : Nat := s.getF (Reg.clpLaneState n p) 7 6
/-- Lanes of a link in its bundle: 0 to 3 of link 9M, 4 to 7 of link 9X. -/
def linkLanes (key : Nat) : List Nat := if key = 18 then [0, 1, 2, 3] else if key = 19 then [4, 5, 6, 7] else List.range 8
/-- The lanes of a list that a mask holds. -/
def lanesIn (mask : Nat) (l : List Nat) : List Nat := l.filter (fun p => mask.testBit p)
/-- The spare lane of a link. -/
def spareOf (s : State) (key : Nat) : Option Nat := (linkLanes key).find? (fun p => laneRole s (key / 2) p = 2)
/-- DATA lanes of a link by their role. -/
def dataLanes (s : State) (key : Nat) : List Nat := (linkLanes key).filter (fun p => laneRole s (key / 2) p = 1)
/-- DATA lanes over which a link sends: those of the mask that the far end has narrowed it to (R188, R189). -/
def txData (s : State) (key : Nat) : List Nat :=
  match (link s key).txMask with
  | some m => lanesIn m (dataLanes s key)
  | none => dataLanes s key

/-- A Stile message as its rows on CLP8 (R389): a CLP packet of STREAM 0. -/
def stileRows (s : State) (type : Nat) (payload : List Nat) : List Row :=
  packetRows (txData s 16) (spareOf s 16) (clpBytes type 0 (Config.stileWord type) payload)

/-! Payloads of Table 18-1. -/

def heartbeatBytes (m : HeartbeatMsg) : List Nat :=
  leBytes 8 m.sentPos.toNat ++ leBytes 8 m.echoPos.toNat ++ leBytes 4 m.echoAge.toNat ++ leBytes 4 m.state.toNat ++ leBytes 4 m.gpioOut.toNat
def helloBytes (m : HelloMsg) : List Nat :=
  (List.range 8).map (fun i => (Config.helloByte m.ident m.raster m.sel m.stepping m.named i).toNat)
def recordBytes (r : CrcRec) : List Nat :=
  [r.channel.val, r.rend.val + 4 * r.tile.val, r.row.val, if r.emerg then 1 else 0] ++ leBytes 2 r.frame.toNat ++ [0, 0] ++ leBytes 4 r.crc.toNat
def digestBytes (frame : BitVec 32) (place cfg : BitVec 64) : List Nat :=
  leBytes 4 frame.toNat ++ leBytes 8 place.toNat ++ leBytes 8 cfg.toNat
def resultBytes (x : Resolve) (pass : Bool) : List Nat := [x.channel, x.rend, x.tile, x.row, x.engine, if pass then 1 else 2]
def resyncBytes (mask : BitVec 128) (start : BitVec 32) : List Nat := leBytes 16 mask.toNat ++ leBytes 4 start.toNat

namespace State

/-! ### Twin operation: what other blocks start (R395, R400) -/

/-- A page's register as the configuration digest takes it: fields that differ between twins by design read 0 (R395). -/
def digestWord (s : State) (a : Nat) : Word :=
  let p := a / 0x1000 * 0x1000
  if [Reg.ethMacLo, Reg.ethMacHi, Reg.ethSrcIp4].any (fun f => (List.range 4).any (fun x => decide (f x = a))) then 0
  else if (List.range 4).any (fun x => (List.range 4).any (fun i => decide (Reg.ethSrcIp6 x i = a))) then 0
  else if a = Reg.ptpCfg ∨ a = Reg.ptpPriority then 0
  else if Pg.erend 0 ≤ p ∧ p ≤ Pg.erend 127 ∧ (List.range 4).any (fun r => decide (
      a = Reg.erendRingBaseLo ((p - Pg.erend 0) / 0x1000) r ∨ a = Reg.erendRingBaseHi ((p - Pg.erend 0) / 0x1000) r ∨
      a = Reg.erendRingSize ((p - Pg.erend 0) / 0x1000) r)) then 0
  else s.reg a

/-- The configuration digest (R395): the CRC-64 of R56 over the blocks that a snapshot writes, each with its page index and
block number; the spec gives the blocks no byte form (notes/assumptions/23.md). -/
def cfgDigest (s : State) : BitVec 64 :=
  BitVec.ofNat 64 (crc64 ((snapshotPages.filter (fun p => decide (p.lay ≠ .stile))).flatMap (fun p =>
    (pageBlocks s p s.digestWord).flatMap (fun e => leBytes 2 p.index ++ [e.1] ++ e.2.flatMap (leBytes 4)))))

/-- A channel restarts at a frame, or at the earlier one already named (R400). -/
def scheduleChan (s : State) (n : Nat) (f : BitVec 32) : State :=
  let l := s.twin.resyncs
  match l.find? (fun e => decide (e.1 = n)) with
  | some e => if 0 < sdiff e.2 f then { s with twin := { s.twin with resyncs := l.map (fun x => if x.1 = n then (n, f) else x) } } else s
  | none => { s with twin := { s.twin with resyncs := l ++ [(n, f)] } }

/-- Channels of a mask. -/
def maskChans (m : BitVec 128) : List Nat := (List.range 128).filter (fun i => m.getLsbD i)

/-- A resync as both devices schedule it. -/
def schedule (s : State) (m : BitVec 128) (f : BitVec 32) : State := (maskChans m).foldl (fun t n => t.scheduleChan n f) s

/-- Request a resync at the third Steeple frame start after the send (R400); with the Stile route down it is not sent (R399). -/
def requestResync (s : State) (m : BitVec 128) : State :=
  if s.twinUp && decide (m ≠ 0) then
    let f := s.frame + 3
    ({ s with sent := .resync m f (stileRows s 0x14 (resyncBytes m f)) :: s.sent } : State).schedule m f
  else s

end State
end Sys2Proof.Machine
end

