-- ==== Sys2Proof/Machine/Operands.lean ====
section
/-! DEFINITION. What the registers of a channel declare (Tables 2-1, 2-2, 4-8, 5-4, 6-3) and what follows from the
declaration alone: gang size, geometry of rows and units, delay, pipeline minimum, buffer sizes, plots, bandwidth. -/

namespace Sys2Proof.Machine

/-- CTU size of a code of REND_CODEC. -/
def ctuOf : Nat → Nat
  | 0 => 32 | 1 => 64 | 2 => 128 | _ => 0

def rendCfg (s : State) (n r : Nat) : RendCfg :=
  let c := s.reg (Reg.chRendCtrl n r)
  let z := s.reg (Reg.chRendSize n r)
  let k := s.reg (Reg.chRendCodec n r)
  let q := s.reg (Reg.chRendSearch n r)
  { r := r, source := fld c 2 1, refill := c.getLsbD 3, w := fld z 13 0, h := fld z 29 16
    codec := fld k 0 0, profile := fld k 3 1, tier := fld k 4 4, level := fld k 15 8, ctu := ctuOf (fld k 17 16)
    search := q.toNat, srh := fld q 9 0, srv := fld q 24 16, refs := fld q 30 28
    sliceRows := s.getF (Reg.chSlice n r) 4 0, gopLen := s.getF (Reg.chGop n r) 5 0
    bitrate := s.getF (Reg.chrcBitrate n r) 21 0, peak := s.getF (Reg.chrcPeak n r) 7 0
    window := s.getF (Reg.chrcWindow n r) 4 0
    refresh := s.reg (Reg.chRefresh n r), qp := s.reg (Reg.chrcQp n r), aq := s.reg (Reg.chrcAq n r)
    format := s.reg (Reg.erendFormat n r), first := s.getF (Reg.chFirst n r) 4 0
    coding := (List.range 16).map (fun i => s.reg (Pg.ch n + 0x200 + 0x40 * r + 4 * i))
    words := [c, z, k, q, s.reg (Reg.chrcBitrate n r), s.reg (Reg.chrcPeak n r), s.reg (Reg.chrcWindow n r), s.reg (Reg.chrcQp n r), s.reg (Reg.chrcAq n r)] }

def chanCfg (s : State) (n : Nat) : ChanCfg :=
  let f := s.reg (Reg.chFormat n)
  let p := s.reg (Reg.chPixel n)
  let a := s.reg (Reg.chRate n)
  let q := s.reg (Reg.chFps n)
  let l := s.reg (Reg.chLatency n)
  let cls := fld l 1 0
  { n := n, w := fld f 13 0, h := fld f 29 16, c422 := p.getLsbD 0, deep := p.getLsbD 1, interl := p.getLsbD 4
    div := fld a 2 0, phase := fld a 5 4, num := fld q 19 0, den := fld q 29 20
    lines := s.getF (Reg.chLines n) 13 0, cls := cls
    par := if cls = 0 then fld l 12 8 else if cls = 1 then fld l 18 16 else fld l 29 24
    pad := s.getF (Reg.chLatpad n) 13 0, input := s.getF (Reg.chInput n) 6 0
    grant := s.getF (Reg.chMpPlots n) 8 0
    rends := ((List.range 4).filter (fun r => s.bit (Reg.chRendCtrl n r) 0)).map (rendCfg s n)
    stages := (List.range 3).map (fun i =>
      let d := s.reg (Reg.chcompLadder n i)
      (d.getLsbD 31, fld d 13 0, fld d 29 16))
    total := s.totalLines, gln := s.reg (Reg.chGlnCtrl n), ctu0 := ctuOf (s.getF (Reg.chRendCodec n 0) 17 16)
    pixel := p, layers := (List.range 8).map (fun k => s.reg (Reg.chcompLCfg n k)), latch := s.getF (Reg.chcompLatch n) 13 0
    filters := (List.range 3).map (fun i => s.getF (Reg.chcompLadder n i) 15 14) }

/-- The CTU rows that a unit covers at most (R121): 1 in ULL, SLICE_ROWS otherwise, 0 for the whole picture. -/
def unitRows (c : ChanCfg) (r : RendCfg) : Nat := if c.cls = 0 then 1 else r.sliceRows

/-- Height of the coded picture: a field for an interlaced channel (R109). -/
def picH (c : ChanCfg) (r : RendCfg) : Nat := if c.interl then r.h / 2 else r.h
/-- CTU columns and rows of the coded picture, partial ones whole (R45). -/
def ctuCols (r : RendCfg) : Nat := ceilDiv r.w r.ctu
def ctuRows (c : ChanCfg) (r : RendCfg) : Nat := ceilDiv (picH c r) r.ctu

/-- Luma sample rate times DEN: S = sampleRate ÷ DEN samples/s (R45). -/
def sampleRate (c : ChanCfg) (r : RendCfg) : Nat := r.w * r.h * c.num

/-- R46: a rendition above 275 Msamples/s is dedicated. -/
def dedicated (c : ChanCfg) (r : RendCfg) : Bool := decide (275000000 * c.den < sampleRate c r)

/-- R45 from N engines on; `none` when N would exceed 8 or the CTU columns. -/
def gangFrom (S den C : Nat) : Nat → Nat → Option Nat
  | 0, _ => none
  | f + 1, N =>
    if N = 0 ∨ 8 < N ∨ C < N then none
    else if 550000000 * den * C < S * ceilDiv C N then gangFrom S den C f (N + 1) else some N

/-- R45: the gang size of a rendition. -/
def gangSize (c : ChanCfg) (r : RendCfg) : Option Nat :=
  let S := sampleRate c r
  gangFrom S c.den (ctuCols r) 9 (ceilDiv S (550000000 * c.den))

/-- Tiles of a rendition (R98): N on a dedicated gang, 1 on a shared engine. -/
def tileCount (c : ChanCfg) (r : RendCfg) : Nat := if dedicated c r then (gangSize c r).getD 0 else 1

/-- Width of tile `k` of N in CTUs (R45 step 2). -/
def tileCtus (C N k : Nat) : Nat := if k < C % N then ceilDiv C N else C / N

/-- First CTU column of tile `k`. -/
def tileCol (C N k : Nat) : Nat := k * (C / N) + min k (C % N)

/-- Width of tile `k` in luma samples inside the picture. -/
def tileSamples (r : RendCfg) (N k : Nat) : Nat :=
  let C := ctuCols r
  min r.w ((tileCol C N k + tileCtus C N k) * r.ctu) - tileCol C N k * r.ctu

/-- Most contexts of a format that a shared engine takes (R46). -/
def maxCtxs (c : ChanCfg) (r : RendCfg) : Nat :=
  if sampleRate c r = 0 then 16 else min 16 (533500000 * c.den / sampleRate c r)

/-- Lines of CTU row `j` that lie inside the picture. -/
def rowLines (c : ChanCfg) (r : RendCfg) (j : Nat) : Nat := min (picH c r) ((j + 1) * r.ctu) - j * r.ctu

/-- Active clocks of CTU row `j` of tile `k` (R83). -/
def rowClocks (c : ChanCfg) (r : RendCfg) (k j : Nat) : Nat :=
  if dedicated c r then 2 * tileSamples r (tileCount c r) k * rowLines c r j + 512
  else 2 * r.w * rowLines c r j + 2560

/-- Clocks of one row round (R125): the busiest member's longest row, or a turn of every context that fits. -/
def roundClocks (c : ChanCfg) (r : RendCfg) : Nat :=
  if dedicated c r then rowClocks c r 0 0 else maxCtxs c r * rowClocks c r 0 0

/-- Channel line of line `y` of a rendition picture (R121): floor(y × channel height ÷ rendition height). -/
def toChanLine (c : ChanCfg) (r : RendCfg) (y : Nat) : Nat := if r.h = 0 then 0 else y * c.h / r.h
def toChanLineUp (c : ChanCfg) (r : RendCfg) (y : Nat) : Nat := ceilDiv (y * c.h) r.h

/-- Channel line on which field `f` starts (R204). -/
def fieldLine (c : ChanCfg) (f : Nat) : Nat := if f = 0 then 0 else c.lines / 2

/-- Units of a coded picture as pairs of first row and row count. -/
def units (c : ChanCfg) (r : RendCfg) : List (Nat × Nat) :=
  let R := ctuRows c r
  let u := unitRows c r
  if u = 0 then [(0, R)]
  else (List.range (ceilDiv R u)).map (fun i => (i * u, min u (R - i * u)))

/-- Channel lines from the anchor of a unit through the last line it covers (R125). -/
def unitSpan (c : ChanCfg) (r : RendCfg) (u : Nat × Nat) : Nat :=
  toChanLineUp c r (min (picH c r) ((u.1 + u.2) * r.ctu)) - toChanLine c r (u.1 * r.ctu)

/-- D in channel lines (Table 5-1). -/
def delayLines (c : ChanCfg) : Nat :=
  let p := if c.cls = 0 then c.par * c.ctu0 else c.par * c.lines
  p + c.pad

/-- FRAC units per channel line (R16): whole when test 11 of Table 2-4 passes. -/
def rho (c : ChanCfg) : Nat := if c.lines = 0 then 0 else c.div * c.total * 262144 / c.lines
def rhoWhole (c : ChanCfg) : Bool := decide (c.lines ≠ 0 ∧ (c.div * c.total * 262144) % c.lines = 0)

/-- D in FRAC units and in Steeple lines (R120). -/
def delayUnits (c : ChanCfg) : Nat := delayLines c * rho c
def delaySteeple (c : ChanCfg) : Nat := delayUnits c / 262144

/-- The completion bound C_u in channel lines (R125). -/
def boundLines (c : ChanCfg) (r : RendCfg) (u : Nat × Nat) : Nat :=
  let q := 1100000000 * c.den
  let t := roundClocks c r * c.num * c.lines
  let sigma := t * r.h - r.ctu * c.h * q
  let j := u.1 + u.2 - 1
  unitSpan c r u + 12 + 8 * r.source + ceilDiv (t * r.h + j * sigma) (q * r.h) +
    (if c.cls = 2 then (r.gopLen - 1) * c.lines else 0)

/-- D_MIN in channel lines (R125). -/
def dMinLines (c : ChanCfg) : Nat :=
  (c.rends.flatMap (fun r => (units c r).map (boundLines c r))).foldl max 0

/-- Rtx in bit/s (R126). -/
def rtx (r : RendCfg) : Nat := r.bitrate * 10 * (100 + r.peak)

/-- Bits at a rate in bit/s over a number of channel lines, as numerator and denominator. -/
def bitsOver (c : ChanCfg) (rate lines : Nat) : Nat × Nat := (rate * lines * c.den, c.num * c.lines)

/-- Channel lines from the start of a picture to that of the next: field `fl`, or the frame. -/
def picLines (c : ChanCfg) (fl : Nat) : Nat :=
  if c.interl then (if fl = 0 then c.lines / 2 else c.lines - c.lines / 2) else c.lines

/-- Channel lines from the anchor of a unit of field `fl` to that of the next (R126). -/
def unitStep (c : ChanCfg) (r : RendCfg) (fl : Nat) (u : Nat × Nat) : Nat :=
  if u.1 + u.2 < ctuRows c r then toChanLine c r ((u.1 + u.2) * r.ctu) - toChanLine c r (u.1 * r.ctu)
  else picLines c fl - toChanLine c r (u.1 * r.ctu)

/-- cap_u in bits, rounded down (R126). -/
def unitCap (c : ChanCfg) (r : RendCfg) (fl : Nat) (u : Nat × Nat) : Nat :=
  let b := bitsOver c (rtx r) (unitStep c r fl u)
  b.1 / b.2

/-- Reserve Q_u: 64 bits per CTU and per slice (R127). -/
def unitReserve (c : ChanCfg) (r : RendCfg) (u : Nat × Nat) : Nat :=
  64 * ctuCols r * u.2 + 64 * tileCount c r

/-- cap of a unit one full CTU row long, rounded down (R126). -/
def rowCap (c : ChanCfg) (r : RendCfg) : Nat := rtx r * r.ctu * c.h * c.den / (r.h * c.num * c.lines)

/-- Pictures per channel frame. -/
def picsPerFrame (c : ChanCfg) : Nat := if c.interl then 2 else 1

/-- Window budget BITRATE × W × Tw in bits, rounded down (R127). -/
def winBudget (c : ChanCfg) (r : RendCfg) : Nat :=
  let br := r.bitrate * 1000 * r.window
  if c.cls = 0 then br * r.ctu * c.h * c.den / (r.h * c.num * c.lines) else br * c.den / (c.num * picsPerFrame c)

/-- CPB size in bits, rounded up (R128). -/
def cpbBits (c : ChanCfg) (r : RendCfg) : Nat :=
  let R := ctuRows c r
  let Q := 64 * ctuCols r * R + 64 * tileCount c r * (units c r).length
  let a := ceilDiv (rtx r * c.den) (c.num * picsPerFrame c)
  let br := r.bitrate * 1000 * r.window
  let b := if c.cls = 0 then ceilDiv (br * r.ctu * c.h * c.den * ceilDiv R r.window) (r.h * c.num * c.lines)
           else ceilDiv (br * c.den) (c.num * picsPerFrame c)
  min a (b + Q)

/-- Target of one picture at BITRATE (R132). -/
def seedTarget (c : ChanCfg) (r : RendCfg) : Nat := r.bitrate * 1000 * c.den / (c.num * picsPerFrame c)

/-! ### Buffers (R52, R88, R116) -/

/-- Line pitch of R116. -/
def pitch (w : Nat) (deep : Bool) : Nat := ceilDiv (if deep then ceilDiv w 4 * 5 else w) 64 * 64

/-- Bytes of a stored picture (R116). -/
def storeBytes (w h : Nat) (c422 deep : Bool) : Nat := pitch w deep * (h + if c422 then h else h / 2)

/-- A number of bytes in 2 MiB units, rounded up. -/
def unitsOf2M (b : Nat) : Nat := ceilDiv b 0x200000

/-- Cells of the channel picture (R86). -/
def cellCount (c : ChanCfg) : Nat := ceilDiv c.w 32 * ceilDiv c.h 32

/-- Source frames: ceil(D ÷ the channel's frame period) + 2 (Table 2-5). -/
def sourceFrames (c : ChanCfg) : Nat := ceilDiv (delayLines c) c.lines + 2

/-- Units of the channel's HBM extent (Table 2-5). -/
def extentUnits (c : ChanCfg) : Nat :=
  2 * unitsOf2M (storeBytes c.w c.h true c.deep) +
  sourceFrames c * unitsOf2M (storeBytes c.w c.h c.c422 c.deep + 8 * cellCount c) +
  sumN (c.stages.map (fun g => if g.1 then sourceFrames c * unitsOf2M (storeBytes g.2.1 g.2.2 c.c422 c.deep) else 0)) +
  sumN (c.rends.map (fun r =>
    (r.refs + if c.cls = 2 then 2 else 1) * unitsOf2M (storeBytes r.w (picH c r) c.c422 c.deep) +
    unitsOf2M (ceilDiv (2 * cpbBits c r) 8)))

/-! ### Plots (R69, R73) -/

/-- Wr: window plots of a rendition (R69). -/
def windowPlots (r : RendCfg) (T : Nat) : Nat :=
  ceilDiv (r.refs * (r.w + 2 * r.srh * T) * (r.ctu + 2 * r.srv) * 5) (4 * 65536)

/-! ### The bandwidth ledger (R57, R58, R150), in MB/s -/

/-- Bytes per pixel of a graphics format (Table 6-1). -/
def fmtBytes (f : Nat) : Nat := if f = 4 then 1 else 4

/-- Ledger charge of a channel times 1024 × DEN, in bytes/s. `layers` has MAX_W × MAX_H × bytes of each graphics
layer. -/
def ledgerScaled (c : ChanCfg) (layers : List Nat) : Nat :=
  let b := if c.deep then 5 else 4
  let cc := if c.c422 then 4 else 3
  let P (w h : Nat) := w * h * c.num * b * cc * 128
  2 * P c.w c.h + sumN (layers.map (fun x => x * c.num * 1024)) +
  sumN (c.stages.map (fun g => if g.1 then P g.2.1 g.2.2 else 0)) +
  sumN (c.rends.map (fun r =>
    let pl := r.w * r.h * c.num * b * 256
    let band := r.h * c.num * b * (r.w + 2 * r.srh * tileCount c r)
    let plm := if r.refill then band * 2 * (128 / r.ctu) * (r.ctu + 2 * r.srv) else band * 256
    2 * P r.w r.h + r.refs * (plm + (P r.w r.h - pl))))

/-- Bytes charged to the declared graphics layers of a channel (R150). -/
def layerBytes (s : State) (n : Nat) : List Nat :=
  ((List.range 8).drop 1).filterMap (fun k =>
    let w := s.reg (Reg.chcompLCfg n k)
    let m := s.reg (Reg.chcompLMax n k)
    if w.getLsbD 0 && !(w.getLsbD 1) then some (fld m 13 0 * fld m 29 16 * fmtBytes (fld w 4 2)) else none)

/-- ALLOT_BW of a channel, rounded down (R57). -/
def allotBw (s : State) (n : Nat) : Nat :=
  let c := chanCfg s n
  ledgerScaled c (layerBytes s n) / (1024 * c.den * 1000000)

/-! ### Positions of channel lines -/

/-- A channel frame starts at line 0 of a Steeple frame with FRAME mod DIV = PHASE (R14). -/
def chanFrameAt (c : ChanCfg) (f : BitVec 32) : Bool := decide (c.div ≠ 0 ∧ f.toNat % c.div = c.phase)

/-- Position of channel line `l` of the channel frame that starts at frame `f` (R16). -/
def linePos (s : State) (c : ChanCfg) (f : BitVec 32) (l : Nat) : BitVec 64 := s.posAdd (State.posOf f 0) (l * rho c)

/-- Anchor line of CTU row `j`, field `fl` (R121). -/
def rowAnchor (c : ChanCfg) (r : RendCfg) (fl j : Nat) : Nat := fieldLine c fl + toChanLine c r (j * r.ctu)

/-- First CTU row of the unit that holds row `j`. -/
def unitOf (c : ChanCfg) (r : RendCfg) (j : Nat) : Nat :=
  let u := unitRows c r
  if u = 0 then 0 else j / u * u

/-- E_u of the unit that holds row `j` of the picture whose input frame starts at `f` (R122). -/
def emission (s : State) (c : ChanCfg) (r : RendCfg) (f : BitVec 32) (fl j : Nat) : BitVec 64 :=
  s.posAdd (State.posOf f 0) ((rowAnchor c r fl (unitOf c r j) + delayLines c) * rho c)

/-- The latch line of a channel (R160). -/
def defaultLatch (c : ChanCfg) : Nat := if c.interl then c.lines / 2 + c.h / 2 else c.h
def latchLine (c : ChanCfg) : Nat := if c.latch = 0 then defaultLatch c else c.latch

/-- Position `a` is later than `b` (R12). -/
def later (a b : BitVec 64) : Bool := decide (0 < (a - b).toInt)

end Sys2Proof.Machine
end

