-- ==== Sys2Proof/Machine/Threads.lean ====
section
/-! DEFINITION. The Reeve's thread contexts, request vector, ready lists and dispatch (R290 to R304), as operations
that its commands and the other blocks share. -/

namespace Sys2Proof.Machine

namespace State

/-! ### Channels -/

def chan (s : State) (n : Nat) : Chan := Store.get (fun _ => Chan.init) s.chans n
def setChan (s : State) (n : Nat) (c : Chan) : State :=
  { s with chans := Store.put (fun _ => Chan.init) s.chans n c }

/-! ### Threads and pairs -/

def thread (s : State) (t : Nat) : Thread := Store.get (fun _ => Thread.init) s.rv.threads t
def setThread (s : State) (t : Nat) (x : Thread) : State :=
  { s with rv := { s.rv with threads := Store.put (fun _ => Thread.init) s.rv.threads t x } }
def pair (s : State) (p : Nat) : PairSt := Store.get (fun _ => PairSt.init) s.rv.pairs p

/-- PSTATE of a pair (R288, Table 13-7). -/
def pstateOf (x : PairSt) : Nat :=
  if x.failed then 6 else if x.offline then 5 else if x.loading then 4 else if x.drained then 3
  else if x.drain then 2 else if x.wfi then 1 else 0

/-- Write a pair, with PSTATE and RUNNING. -/
def setPair (s : State) (p : Nat) (x : PairSt) : State :=
  let t := { s with rv := { s.rv with pairs := Store.put (fun _ => PairSt.init) s.rv.pairs p x } }
  (t.setF (Reg.ccPstate p) 2 0 (pstateOf x)).setN (Reg.ccRunning p)
    (match x.running with | some r => 0x1000 + r | none => 0)

def pstate (s : State) (p : Nat) : Nat := pstateOf (s.pair p)

/-- A pair that takes threads (R301). -/
def pairTakes (s : State) (p : Nat) : Bool := decide (s.pstate p ≤ 1)

/-- READY_CNT and DB_LEVEL. -/
def reeveLevels (s : State) : State :=
  (s.setF Reg.reeveReadyCnt 12 0 (s.rv.threads.filter (fun e => e.2.state = 2)).length).setF
    Reg.reeveDbLevel 8 0 s.rv.fifo.length

/-- A request absorbed (R294, R295, R300). -/
def absorb (s : State) (t : Nat) : State :=
  let x := s.thread t
  (s.setThread t { x with absorbed := satTo 16 (x.absorbed + 1) }).inc32 Reg.reeveAbsorbed

/-- Low 32 bits of FRAME × TOTAL_LINES + LINE of a position (Table 13-4). -/
def dueWord (s : State) (p : BitVec 64) : BitVec 32 := BitVec.ofNat 32 (s.unitsOf p / 262144)

/-- A new readiness of a thread: READY, due DL lines on, at the tail of its list (R294). -/
def newReadiness (s : State) (t : Nat) (x : Thread) : State :=
  let due := s.posAdd s.stp.pos (x.dl * 262144)
  let y := { x with state := 2, duePos := due, due := s.dueWord due, rank := s.rv.rankNext, rerun := false
                    hasDue := decide (x.dl ≠ 0), checked := decide (x.dl = 0) }
  let u := s.setThread t y
  { u with rv := { u.rv with rankNext := u.rv.rankNext + 1 } }

/-- A readiness request served by the list engine (R294). -/
def makeReady (s : State) (t : Nat) : State :=
  let x := s.thread t
  match x.state with
  | 1 => s.newReadiness t x
  | 3 => s.setThread t { x with rerun := true }
  | _ => s.absorb t

/-- A request from an action, a binding or the Reeve itself enters the request vector (R295). -/
def vecReq (s : State) (t : Nat) : State :=
  if t ∈ s.rv.vector then s.absorb t
  else { s with rv := { s.rv with vector := sortBy (fun a b => decide (a ≤ b)) (t :: s.rv.vector) } }

/-- CANCEL (R299). -/
def cancelThread (s : State) (t : Nat) : State :=
  let x := s.thread t
  match x.state with
  | 2 => s.setThread t { x with state := 1 }
  | 3 => s.setThread t { x with cancel := true, rerun := false }
  | _ => s

/-- What waits for a RUNNING thread's dispatch point takes effect (R297, Table 13-4). -/
def dispatchPoint (x : Thread) : Thread :=
  { x with prio := x.newPrio.getD x.prio, aff := x.newAff.getD x.aff, newPrio := none, newAff := none }

/-- A thread that was cancelled while RUNNING becomes IDLE, or FREE when its EN was written 0. -/
def endCancelled (x : Thread) : Thread :=
  { x with state := if x.freeing then 0 else 1, cancel := false, rerun := false, freeing := false
           en := x.en && !x.freeing }

/-- The order of R301 between eligible threads: priority, due position, readiness, number. -/
def before (a b : Nat × Thread) : Bool :=
  if a.2.prio ≠ b.2.prio then decide (a.2.prio < b.2.prio)
  else if a.2.hasDue != b.2.hasDue then a.2.hasDue
  else if a.2.hasDue && decide (a.2.duePos ≠ b.2.duePos) then later b.2.duePos a.2.duePos
  else if a.2.rank ≠ b.2.rank then decide (a.2.rank < b.2.rank)
  else decide (a.1 < b.1)

/-- The threads READY for pair `p` (R301). -/
def eligibleFor (s : State) (p : Nat) : List (Nat × Thread) :=
  if s.pairTakes p then s.rv.threads.filter (fun e => decide (e.2.state = 2) && e.2.aff.testBit p) else []

/-- The best thread for pair `p` (R301). -/
def best (s : State) (p : Nat) : Option (Nat × Thread) := minBy before (s.eligibleFor p)

/-- The best thread for `p` that is not offered to another pair. -/
def bestFree (s : State) (p : Nat) : Option (Nat × Thread) :=
  minBy before ((s.eligibleFor p).filter (fun e =>
    !((List.range 8).any (fun q => decide (q ≠ p ∧ (s.pair q).offered = some e.1)))))

/-- Priority of the thread a pair runs; 64 when it runs nothing. -/
def runPrio (s : State) (p : Nat) : Nat :=
  match (s.pair p).running with
  | some r => (s.thread r).prio
  | none => 64

/-- Raise DISPATCH on one pair when its best thread is of strictly higher priority (R302). It wakes the pair. -/
def offerTo (s : State) (p : Nat) : State :=
  let x := s.pair p
  if x.dispatch || !s.pairTakes p then s
  else match s.bestFree p with
    | some (t, y) => if y.prio < s.runPrio p then s.setPair p { x with dispatch := true, offered := some t, wfi := false } else s
    | none => s

/-- Idle pairs first, lowest-numbered; then pairs by the lowest running priority (R302). -/
def offerOrder (s : State) : List Nat :=
  sortBy (fun p q => decide (s.runPrio p > s.runPrio q ∨ (s.runPrio p = s.runPrio q ∧ p ≤ q))) (List.range 8)

/-- Bring DISPATCH, READY_CNT and DB_LEVEL up to date after a list-engine operation or a dispatch point. -/
def offer (s : State) : State := (s.offerOrder.foldl offerTo s).reeveLevels

/-- The running thread of a pair goes to the head of its ready list, or ends if cancelled (R303). -/
def unrun (s : State) (p : Nat) : State :=
  let x := s.pair p
  match x.running with
  | none => s
  | some r =>
    let y := dispatchPoint (s.thread r)
    let u := if y.cancel || y.freeing then s.setThread r (endCancelled y)
      else
        let v := s.setThread r { y with state := 2, rank := -s.rv.rankNext - 1 }
        { v with rv := { v.rv with rankNext := v.rv.rankNext + 1 } }
    u.setPair p { x with running := none, cancelled := x.cancelled || y.cancel }

/-- A move of a channel is over once no old extent is held, none of its threads runs on another pair and none of its work waits for
an engine (R62, R65, R306). -/
def settleMove (s : State) (n : Nat) : State :=
  let c := s.chan n
  let away := match c.place with
    | some pl => (List.range 6).any (fun k =>
        let x := s.thread (256 + 16 * n + k)
        decide (x.state = 3 ∧ x.pair ≠ pl.pair))
    | none => false
  let stuck := s.eng.slots.any (fun e => e.2.eng.isNone && e.2.ctxs.any (fun x => decide (x.ch = n)))
  if c.moving && c.newExt.isNone && c.oldExt.isNone && !away && !stuck then
    let t := s.setChan n { c with moving := false }
    if t.getF (Reg.chAllotState n) 2 0 = 4 then t.setF (Reg.chAllotState n) 2 0 2 else t
  else s

/-- The channel that owns a thread (R53). -/
def threadChan (t : Nat) : Option Nat := if 256 ≤ t ∧ t < 2304 then some ((t - 256) / 16) else none

/-- A thread has reached a dispatch point: its channel's move may be over. -/
def settleThread (s : State) (t : Nat) : State :=
  match threadChan t with
  | some n => s.settleMove n
  | none => s

/-- Stranded threads of a pair (R307): affinity to the pair alone, not the Allotter's, IDLE or READY. -/
def strandedCount (s : State) (p : Nat) : Nat :=
  (s.rv.threads.filter (fun e => decide (e.2.aff = 2 ^ p) && decide (e.2.state = 1 ∨ e.2.state = 2) &&
    (threadChan e.1).isNone)).length

/-- Bring CCp.STRANDED up to date; EVT bit 4 when it grows (R307). -/
def countStranded (s : State) (p : Nat) : State :=
  let n := if (s.pair p).drain then s.strandedCount p else 0
  let t := s.setF (Reg.ccStranded p) 11 0 n
  if s.getF (Reg.ccStranded p) 11 0 < n then t.evt Pg.reeve 4 else t

/-- Pairs a channel may be homed on (R54). -/
def homePairs (s : State) : List Nat := (List.range 8).filter (fun p => s.pairTakes p)

end State
end Sys2Proof.Machine
end

