-- ==== Sys2Proof/Machine/BellOps.lean ====
section
/-! DEFINITION. Sources, pending and active bits, assignment and request lines of the Belfry (R311 to R325), as the
operations that its commands and the other blocks share. -/

namespace Sys2Proof.Machine

/-- A source of Table 14-1 that is not reserved; source 0 never asserts (R311). -/
def sourceExists (n : Nat) : Bool :=
  decide (1 ≤ n ∧ n ≤ 31 ∨ 64 ≤ n ∧ n ≤ 137 ∨ 192 ≤ n ∧ n ≤ 225 ∨ 256 ≤ n ∧ n ≤ 1055 ∨ 1088 ≤ n ∧ n ≤ 1119 ∨
    3072 ≤ n ∧ n ≤ 4095)

/-- A software source (R460). -/
def isSoft (n : Nat) : Bool := decide (3072 ≤ n ∧ n ≤ 4095)

/-- A GPIO source (Table 14-1). -/
def isGpio (n : Nat) : Bool := decide (1088 ≤ n ∧ n ≤ 1119)

/-- The page whose events a level source carries (Table 14-1, R312). -/
def sourcePage (n : Nat) : Option Nat :=
  if n = 0 then none
  else if n ≤ 31 then
    [Pg.dev, Pg.stp, Pg.ptp, Pg.reeve, Pg.cc 0, Pg.cc 1, Pg.cc 2, Pg.cc 3, Pg.cc 4, Pg.cc 5, Pg.cc 6, Pg.cc 7, Pg.watch,
     Pg.sexton, Pg.stile, Pg.pbook, Pg.mp, Pg.etm, Pg.eth 0, Pg.eth 1, Pg.eth 2, Pg.eth 3, Pg.aud, Pg.mon, Pg.cvu 0,
     Pg.cvu 1, Pg.cvu 2, Pg.cvu 3, Pg.hbm, Pg.mtx, Pg.ing][n - 1]?
  else if 128 ≤ n ∧ n ≤ 137 then some (Pg.clp (n - 128))
  else if 192 ≤ n ∧ n ≤ 225 then some (Pg.ee (n - 192))
  else if 256 ≤ n ∧ n ≤ 383 then some (Pg.inp (n - 256))
  else if 384 ≤ n ∧ n ≤ 895 then some (Pg.ch ((n - 384) / 4) + 0x1000 * ((n - 384) % 4))
  else if 896 ≤ n ∧ n ≤ 1023 then some (Pg.erend (n - 896))
  else if 1024 ≤ n ∧ n ≤ 1055 then some (Pg.pch (n - 1024))
  else none

/-- (EVT and EVT_EN) of a page is non-zero (R312). -/
def eventsUp (s : State) (page : Nat) : Bool := decide (s.reg (page + hEvt) &&& s.reg (page + hEvtEn) ≠ 0)

namespace State

/-- The word of a Bell that holds a source's bit, from the address of its low half. -/
def bellWord (lo : Nat → Nat) (src : Nat) : Nat := lo (src / 64) + 4 * (src % 64 / 32)

def pendingBit (s : State) (n : Nat) : Bool := s.bit (bellWord Reg.bellPendingLo n) (n % 32)
def setPending (s : State) (n : Nat) (b : Bool) : State := s.setBit (bellWord Reg.bellPendingLo n) (n % 32) b
def activeBit (s : State) (n : Nat) : Bool := s.bit (bellWord Reg.bellActiveLo n) (n % 32)
def setActive (s : State) (n : Nat) (b : Bool) : State := s.setBit (bellWord Reg.bellActiveLo n) (n % 32) b
def inputBit (s : State) (n : Nat) : Bool := s.bit (bellWord Reg.bellInputLo n) (n % 32)
def setInput (s : State) (n : Nat) (b : Bool) : State := s.setBit (bellWord Reg.bellInputLo n) (n % 32) b
/-- ENABLE_t bit of a source. -/
def enableBit (s : State) (n t : Nat) : Bool := s.bit (bellWord (fun b => Reg.bellEnableLo b t) n) (n % 32)

def srcCfg (n : Nat) : Nat := Reg.bellSrcCfg (n / 64) (n % 64)
/-- SRC_i.TYPE: an edge source. -/
def isEdge (s : State) (n : Nat) : Bool := s.bit (srcCfg n) 8

/-- A target is eligible (R318). -/
def eligible (s : State) (t : Nat) : Bool :=
  if t < 8 then decide (s.pstate t < 4) else s.pins.pcieUp && s.pins.msixOn

/-- Assigned target of a source; 15 = none. -/
def assignedTo (s : State) (n : Nat) : Nat := Store.get (fun _ => 15) s.bf.assigned n

/-- Assign a source to a target, or to none (15); SRC_i.TARGET shows it (R319). -/
def assign (s : State) (n t : Nat) : State :=
  ({ s with bf := { s.bf with assigned := Store.put (fun _ => 15) s.bf.assigned n t } }).setF (srcCfg n) 15 12 t

/-- Sources assigned to `t` whose enable bit for `t` is set, as (PRIO, source) (R324). -/
def claimable (s : State) (t : Nat) (bell : Option Nat) : List (Nat × Nat) :=
  s.bf.assigned.filterMap (fun e =>
    if e.1 < 4096 ∧ e.2 = t ∧ s.enableBit e.1 t ∧ (bell = none ∨ bell = some (e.1 / 64)) then some (s.getF (srcCfg e.1) 3 0, e.1)
    else none)

/-- The best source: lowest PRIO, then lowest number (R324). -/
def bestSource (l : List (Nat × Nat)) : Option (Nat × Nat) :=
  minBy (fun a b => decide (a.1 < b.1 ∨ (a.1 = b.1 ∧ a.2 < b.2))) l

/-- Send MSI-X vector 0, or leave it pending while it is masked (R320). -/
def msix (s : State) : State :=
  if s.pins.msixOn then
    if s.pins.msixMasked then { s with pins := { s.pins with msixPend := true } }
    else { s with pins := { s.pins with msixSent := s.pins.msixSent + 1 } }
  else s

/-- The request line of a target (R320). -/
def lineUp (s : State) (t : Nat) : Bool :=
  s.bf.assigned.any (fun e => decide (e.2 = t)) || (decide (t = 8) && eventsUp s Pg.belfry)

/-- Bring one target's request line and HIGHEST up to date: a pair's rising line ends WFI (R321), the host's sends
MSI-X (R320). -/
def updateLine (s : State) (t : Nat) : State :=
  let up := s.lineUp t
  let rises := up && !(s.bit Reg.belfryReq t)
  let u := s.setBit Reg.belfryReq t up
  let u := u.setN (Reg.belfryHighest t) (match bestSource (s.claimable t none) with
    | some (p, n) => n + p * 0x10000 | none => 0)
  if rises then
    if t = 8 then u.msix
    else let x := u.pair t
      if x.wfi then u.setPair t { x with wfi := false } else u
  else u

/-- Bring the root page up to date: REQ, HIGHEST and ELIGIBLE. -/
def updateLines (s : State) : State :=
  let u := (List.range 9).foldl updateLine s
  (List.range 9).foldl (fun v t => v.setBit Reg.belfryEligible t (v.eligible t)) u

/-- Lose the pending bit, and with it the assignment. -/
def unpend (s : State) (n : Nat) : State := (s.setPending n false).assign n 15

/-- The Reeve binding of a source acts once for each assertion (R293, R313). -/
def fireBinding (s : State) (n : Nat) : State :=
  let w := Store.get (fun _ => 0) s.rv.bindings n
  if w.getLsbD 15 then s.vecReq (fld w 11 0) else s

/-- An edge of a source (R314): it pends, or merges into a pending bit already set. -/
def assertEdge (s : State) (n : Nat) : State :=
  let u := s.fireBinding n
  if u.pendingBit n then u.inc32 (Reg.bellMerged (n / 64)) else u.setPending n true

/-- A filtered 0→1 of a level input (R314). -/
def assertLevel (s : State) (n : Nat) : State :=
  let u := (s.setInput n true).fireBinding n
  if u.activeBit n then u else u.setPending n true

/-- Round robin from the target after the pointer, over enabled and eligible targets (R319). -/
def nextTarget (s : State) (n : Nat) : Option Nat :=
  let p := Store.get (fun _ => 8) s.bf.ptr n
  firstThat (fun t => s.enableBit n t && s.eligible t) ((List.range 9).map (fun k => (p + 1 + k) % 9))

/-- An orphaned source is recorded once (R323). -/
def orphan (s : State) (n : Nat) : State :=
  if n ∈ s.bf.orphaned then s
  else
    let u := { s with bf := { s.bf with orphaned := n :: s.bf.orphaned } }
    let u := if u.bit Reg.belfryOrphan 15 then u else (u.setF Reg.belfryOrphan 11 0 n).setBit Reg.belfryOrphan 15 true
    (u.incSat Reg.belfryOrphan 31 16 1).evt Pg.belfry 0

def unorphan (s : State) (n : Nat) : State :=
  if n ∈ s.bf.orphaned then { s with bf := { s.bf with orphaned := s.bf.orphaned.erase n } } else s

/-- Arbitration of one source (R314, R319, R323). -/
def arbSource (s : State) (n : Nat) : State :=
  let s := if sourceExists n && !(s.isEdge n) && decide (s.pendingBit n ≠ (s.inputBit n && !(s.activeBit n)))
    then s.setPending n (s.inputBit n && !(s.activeBit n)) else s
  if s.pendingBit n && !(s.activeBit n) then
    let t := s.assignedTo n
    if t < 9 && s.enableBit n t && s.eligible t then s.unorphan n
    else match s.nextTarget n with
      | some t =>
        let u := (s.assign n t).unorphan n
        { u with bf := { u.bf with ptr := Store.put (fun _ => 8) u.bf.ptr n t } }
      | none =>
        let u := if t < 9 then s.assign n 15 else s
        if (List.range 9).any (fun t => u.enableBit n t) then u.orphan n else u.unorphan n
  else if s.assignedTo n < 9 then (s.assign n 15).unorphan n else s.unorphan n

/-- Sources ACTIVE on a pair that becomes LOADING, OFFLINE or FAILED lose ACTIVE and re-pend (R322). -/
def releaseActive (s : State) (p : Nat) : State :=
  (s.bf.active.filter (fun e => decide (e.1 < 4096 ∧ e.2 = p))).foldl (fun u e =>
    let n := e.1
    let v := { u with bf := { u.bf with active := Store.put (fun _ => 15) u.bf.active n 15 } }
    let v := v.setActive n false
    if v.isEdge n then v.setPending n true else v.setPending n (v.inputBit n)) s

end State
end Sys2Proof.Machine
end

