-- ==== Sys2Proof/Machine/Tables.lean ====
section
/-! DEFINITION. The indirect table windows (R454): what a refused and a finished operation leave in a status register,
and the data registers. -/

namespace Sys2Proof.Machine.State

/-- A window refuses an operation: ERR with REFUSE_PAGE_FIELD, DONE as it stood (R454). -/
def tblRefuse (s : State) (stat : Nat) : State := s.setN stat (0x01150003)

/-- A window's operation ends: DONE, with ERR clear. -/
def tblDone (s : State) (stat : Nat) : State := s.setN stat 1

/-- Fill `n` data registers from `base` on with a list of words; missing words read 0. -/
def putData (s : State) (base n : Nat) (l : List Word) : State :=
  (List.range n).foldl (fun t i => t.setReg (base + 4 * i) (l.getD i 0)) s

/-- The data registers as they stand at GO. -/
def getData (s : State) (base n : Nat) : List Word := (List.range n).map (fun i => s.reg (base + 4 * i))

/-- Replace word `i` of a list. -/
def setWord (l : List Word) (i : Nat) (w : Word) : List Word := l.set i w

end Sys2Proof.Machine.State
end

