-- ==== Sys2Proof/Machine/Reeve.lean ====
section
/-! DEFINITION. The commands of the core pairs and the Reeve (13_control_cores_and_reeve.md). -/

namespace Sys2Proof.Machine

/-- Matrix master number of a bus master (Table 15-4). -/
def masterNumber : Master → Nat
  | .host => 42
  | .cc _ => 41

/-- A bus access of a master reaches a page: in BOOT only the DEV page answers on BAR0 (R409). -/
def reaches (s : State) (m : Master) (page : Nat) : Bool :=
  match m with
  | .host => s.answers page
  | .cc _ => !s.inReset

/-- What a read command returned. -/
def State.answer (s : State) (l : List Nat) : State := { s with bus := ⟨l, .ok⟩ }

/-- A thread context accepts a doorbell or a table write of a master (R292). -/
def owns (m : Master) (t : Nat) : Bool :=
  match m with
  | .host => decide (2304 ≤ t)
  | .cc _ => true

/-- A write from a master that does not own the thread (R292). -/
def ownerDrop (s : State) : State := (s.inc32 Reg.reeveOwnerDrop).evt Pg.reeve 3

/-- A doorbell write with OP 0 to 4 (R292, R297, R298). -/
def doorbell (s : State) (m : Master) (t op arg : Nat) : State :=
  if !reaches s m Pg.reeve then s
  else if !owns m t then ownerDrop s
  else
    let b : Bell := ⟨t, op, arg, masterNumber m⟩
    if s.rv.fifo.length < 256 then
      ({ s with rv := { s.rv with fifo := s.rv.fifo ++ [b] }, bus := ⟨[], .ok⟩ } : State).reeveLevels
    else if s.mode = 2 ∨ s.mode = 3 then
      { s with rv := { s.rv with held := s.rv.held ++ [(b, false)] } }
    else
      ({ s with bus := ⟨[], .error⟩ } : State).inc32 Reg.reeveDbRefused |>.evt Pg.reeve 1

def execDoorbellReady (m : Master) (t : Fin 4096) (s : State) : Out := .next (doorbell s m t 0 0)
def execDoorbellCancel (m : Master) (t : Fin 4096) (s : State) : Out := .next (doorbell s m t 1 0)
def execDoorbellPrio (m : Master) (t : Fin 4096) (prio : Fin 64) (s : State) : Out := .next (doorbell s m t 2 prio)
def execDoorbellAffinity (m : Master) (t : Fin 4096) (mask : BitVec 8) (s : State) : Out :=
  .next (doorbell s m t 3 mask.toNat)
def execDoorbellDeadline (m : Master) (t : Fin 4096) (dl : BitVec 16) (s : State) : Out :=
  .next (doorbell s m t 4 dl.toNat)

/-- A reserved OP is discarded at the write (R297). -/
def doorbellBad (s : State) (m : Master) : State := if reaches s m Pg.reeve then s.evt Pg.reeve 1 else s

/-- R297; an OP of 0 to 4 is no reserved one, and the command then changes nothing. -/
def execDoorbellReserved (m : Master) (op : Fin 16) (s : State) : Out :=
  .next (if 5 ≤ op.val then doorbellBad s m else s)

/-- The first held write whose stall is not yet logged. -/
def firstStalled : List (Bell × Bool) → Option Bell
  | [] => none
  | (b, false) :: _ => some b
  | (_, true) :: l => firstStalled l

/-- Mark that write as logged. -/
def markStalled : List (Bell × Bool) → List (Bell × Bool)
  | [] => []
  | (b, false) :: l => (b, true) :: l
  | x :: l => x :: markStalled l

/-- A hold longer than 2 µs (R298), once for each hold. -/
def execReeveStall (s : State) : Out :=
  .next (match firstStalled s.rv.held with
    | none => s
    | some b =>
      (({ s with rv := { s.rv with held := markStalled s.rv.held } } : State).inc32 Reg.reeveDbStalls
        |>.evt Pg.reeve 2).raise 0x5004 Pg.reeve b.master s.rv.fifo.length)

/-- One doorbell applied by the list engine (Table 13-2). -/
def applyBell (s : State) (b : Bell) : State :=
  let x := s.thread b.thread
  match b.op with
  | 0 => s.makeReady b.thread
  | 1 => s.cancelThread b.thread
  | 2 => s.setThread b.thread (if x.state = 3 then { x with newPrio := some b.arg } else { x with prio := b.arg })
  | 3 => s.setThread b.thread (if x.state = 3 then { x with newAff := some b.arg } else { x with aff := b.arg })
  | _ => s.setThread b.thread { x with dl := b.arg }

/-- Take the FIFO's head; the oldest held write takes the freed entry (R298). -/
def popBell (s : State) : State :=
  match s.rv.held with
  | [] => { s with rv := { s.rv with fifo := s.rv.fifo.drop 1 } }
  | (b, _) :: l => { s with rv := { s.rv with fifo := s.rv.fifo.drop 1 ++ [b], held := l } }

/-- One list-engine operation (R296, R300): a vector request first, in ascending thread number, with the FIFO's head
when that is a READY or a CANCEL of the same thread; else the FIFO's head. -/
def listEngine (s : State) : State :=
  match s.rv.vector with
  | t :: l =>
    let u := { s with rv := { s.rv with vector := l } }
    match u.rv.fifo with
    | b :: _ =>
      if b.thread = t ∧ b.op = 1 then ((popBell u).absorb t).cancelThread t
      else if b.thread = t ∧ b.op = 0 then ((popBell u).makeReady t).absorb t
      else u.makeReady t
    | [] => u.makeReady t
  | [] =>
    match s.rv.fifo with
    | b :: _ => applyBell (popBell s) b
    | [] => s

def execListEngineOperation (s : State) : Out := .next (listEngine s).offer

/-- A pair lowers its DISPATCH line and leaves WFI. -/
def lowerDispatch (s : State) (p : Nat) : State :=
  s.setPair p { s.pair p with dispatch := false, offered := none, wfi := false }

/-- The settling of a pair that has come to a dispatch point with thread `r`. -/
def settlePair (s : State) (p : Nat) (r : Option Nat) : State :=
  let t := match r with | some r => s.settleThread r | none => s
  t.countStranded p

/-- A read of NEXT (R303). -/
def nextRead (s : State) (p : Nat) : State :=
  let old := (s.pair p).running
  let s1 := lowerDispatch (s.unrun p) p
  let x := s1.pair p
  let cflag := if x.cancelled then 0x2000 else 0
  let s2 := s1.setPair p { x with cancelled := false }
  let preempted := match old with | some r => decide ((s1.thread r).state = 2) | none => false
  let s3 := match s2.best p with
    | none => s2.answer [cflag]
    | some (b, _) =>
      let y := s2.thread b
      let u := (s2.setThread b { y with state := 3, pair := p }).setPair p { s2.pair p with running := some b }
      let u := if old = some b then u
        else
          let v := u.inc32 (Reg.ccDispatches p)
          if preempted then v.inc32 (Reg.ccPreempts p) else v
      u.answer [cflag + 0x1000 + b]
  (settlePair s3 p old).offer

/-- NEXT: each read is a dispatch point. -/
def execNextRead (m : Master) (p : Fin 8) (s : State) : Out :=
  .next (if reaches s m (Pg.cc p) then nextRead s p else s.answer [0])

/-- A write of DONE (R303): the running thread ends its turn; `f` says what becomes of a thread not cancelled. -/
def doneWrite (s : State) (p : Nat) (f : State → Nat → Thread → State) : State :=
  let x := s.pair p
  match x.running with
  | none => s
  | some r =>
    let y := State.dispatchPoint (s.thread r)
    let s1 := s.setPair p { x with running := none, cancelled := x.cancelled || y.cancel }
    let s2 := if y.cancel || y.freeing then s1.setThread r (State.endCancelled y) else f s1 r y
    (settlePair s2 p (some r)).offer

/-- DONE with WAIT. -/
def doneWait (s : State) (p : Nat) : State :=
  doneWrite s p (fun t r y =>
    if y.rerun then t.newReadiness r y else t.setThread r { y with state := 1, hasDue := false, checked := true })

/-- DONE with YIELD. -/
def doneYield (s : State) (p : Nat) : State :=
  doneWrite s p (fun t r y =>
    let u := t.setThread r { y with state := 2, rank := t.rv.rankNext }
    { u with rv := { u.rv with rankNext := u.rv.rankNext + 1 } })

def execDoneYield (p : Fin 8) (s : State) : Out := .next (doneYield s p)

/-- A readiness that is due and has not been checked (R304). -/
def dueNow (s : State) (x : Thread) : Bool :=
  x.hasDue && !x.checked && decide (x.state = 2 ∨ x.state = 3) && !(later x.duePos s.stp.pos)

/-- A thread is late (R304). -/
def threadLate (s : State) (t : Nat) : State :=
  let x := s.thread t
  if dueNow s x then
    (((s.setThread t { x with checked := true, misses := satTo 16 (x.misses + 1) }).inc32 Reg.reeveLate).evt
      Pg.reeve 0).raise 0x5003 Pg.reeve t x.due.toNat
  else s

def execThreadLate (t : Fin 4096) (s : State) : Out := .next (threadLate s t)

/-- Parity of the thread contexts, ready lists or request vector (R305). -/
def execReeveParity (loc : ParityLoc) (s : State) : Out :=
  .next ((s.evt Pg.reeve 5).raise 0x5005 Pg.reeve loc.unit loc.index)

/-- The words of a thread table entry (Table 13-4). -/
def threadWords (x : Thread) : List Word :=
  [BitVec.ofNat 32 (x.prio + x.aff * 0x100 + x.state * 0x10000 + x.pair * 0x100000 +
     (if x.rerun then 0x1000000 else 0) + (if x.cancel then 0x2000000 else 0) + (if x.en then 0x80000000 else 0)),
   BitVec.ofNat 32 x.dl, BitVec.ofNat 32 (x.absorbed + x.misses * 0x10000), x.due]

/-- A write of a thread table entry: State fields are ignored (Table 13-4, R454). -/
def writeThread (s : State) (t : Nat) (d : List Word) : State :=
  let x := s.thread t
  let w := d.getD 0 0
  let prio := fld w 5 0
  let aff := fld w 15 8
  let dl := fld (d.getD 1 0) 15 0
  let x := if x.state = 3 then { x with newPrio := some prio, newAff := some aff, dl := dl }
           else { x with prio := prio, aff := aff, dl := dl }
  let x := if w.getLsbD 31 then { x with en := true, freeing := false, state := if x.state = 0 then 1 else x.state }
           else if x.state = 3 then { x with cancel := true, rerun := false, freeing := true }
           else { x with en := false, state := 0 }
  s.setThread t x

/-- Index, table and operation of REEVE.TBL_ADDR. -/
def reeveAddr (s : State) : Nat × Bool × Nat :=
  (s.getF Reg.reeveTblAddr 11 0, s.bit Reg.reeveTblAddr 12, s.getF Reg.reeveTblAddr 17 16)

/-- A GO of READ on the Reeve window (R454); a GO of another operation is not this command, a reserved one is
refused. -/
def reeveTableRead (s : State) : State :=
  let (i, bind, op) := reeveAddr s
  if op = 1 then s
  else if 2 ≤ op then s.tblRefuse Reg.reeveTblStat
  else
    let l := if bind then [Store.get (fun _ => (0 : Word)) s.rv.bindings i, 0, 0, 0] else threadWords (s.thread i)
    (s.putData (Reg.reeveTblData 0) 4 l).tblDone Reg.reeveTblStat

def execReeveTableRead (s : State) : Out := .next (if s.answers Pg.reeve then reeveTableRead s else s)

/-- R292 for the binding table: a host write concerns host threads only. -/
def bindingOwned (m : Master) (old new : Word) : Bool :=
  match m with
  | .host => decide (2304 ≤ fld new 11 0) && (!(old.getLsbD 15) || decide (2304 ≤ fld old 11 0))
  | .cc _ => true

/-- A GO of WRITE on the Reeve window, subject to ownership (R292, R454). -/
def reeveTableWrite (s : State) (m : Master) : State :=
  let (i, bind, op) := reeveAddr s
  let d := s.getData (Reg.reeveTblData 0) 4
  if op = 0 then s
  else if 2 ≤ op then s.tblRefuse Reg.reeveTblStat
  else if bind then
    let old := Store.get (fun _ => (0 : Word)) s.rv.bindings i
    let new := d.getD 0 0 &&& 0x8FFF
    (if bindingOwned m old new then
      { s with rv := { s.rv with bindings := Store.put (fun _ => (0 : Word)) s.rv.bindings i new } }
     else ownerDrop s).tblDone Reg.reeveTblStat
  else if owns m i then ((writeThread s i d).offer).tblDone Reg.reeveTblStat
  else (ownerDrop s).tblDone Reg.reeveTblStat

def execReeveTableWrite (m : Master) (s : State) : Out :=
  .next (if reaches s m Pg.reeve then reeveTableWrite s m else s)

/-- Another pair drains, is drained or loads, or `p` is the only pair left (R306). -/
def drainBusy (s : State) (p : Nat) : Bool :=
  (List.range 8).any (fun q => decide (q ≠ p ∧ 2 ≤ s.pstate q ∧ s.pstate q ≤ 4)) ||
  (List.range 8).all (fun q => decide (q = p ∨ 5 ≤ s.pstate q))

/-- DRAIN 0→1 (R306, R307). -/
def drain (s : State) (p : Nat) : State :=
  if !(s.answers (Pg.cc p)) || (s.pair p).drain then s
  else if drainBusy s p then s.refuse (Pg.cc p) 0x0902 0x14 0
  else
    let t := (s.setBit (Reg.ccDrain p) 0 true).setPair p { s.pair p with drain := true }
    (t.countStranded p).updateLines

def execDrain (p : Fin 8) (s : State) : Out := .next (drain s p)

/-- Channels homed on a pair (R54). -/
def homed (s : State) (p : Nat) : List Nat :=
  s.chans.filterMap (fun e => match e.2.place with
    | some pl => if pl.pair = p then some e.1 else none
    | none => none)

/-- The pair has drained (R307). -/
def drained (s : State) (p : Nat) : State :=
  let x := s.pair p
  if s.pstate p = 2 ∧ x.running = none ∧ homed s p = [] then
    ((s.setPair p { x with drained := true }).countStranded p).evt (Pg.cc p) 0
  else s

def execDrained (p : Fin 8) (s : State) : Out := .next (drained s p)

/-- DRAIN written 0 (R309). -/
def undrain (s : State) (p : Nat) : State :=
  if !(s.answers (Pg.cc p)) then s
  else
    let x := s.pair p
    let t := s.setBit (Reg.ccDrain p) 0 false
    if x.loading then t.setPair p { x with undrain := true }
    else ((t.setPair p { x with drain := false, drained := false }).countStranded p).offer.updateLines

def execUndrain (p : Fin 8) (s : State) : Out := .next (undrain s p)

/-- LOAD written 1 on a DRAINED pair (R308); sources ACTIVE on it are released (R322). -/
def load (s : State) (p : Nat) : State :=
  if s.answers (Pg.cc p) && decide (s.pstate p = 3) then
    ((s.setPair p { s.pair p with loading := true, undrain := false }).releaseActive p).updateLines
  else s

def execLoad (p : Fin 8) (s : State) : Out := .next (load s p)

/-- A load ends: the pair returns to DRAINED, or to dispatch if DRAIN was written 0 (R308, R309). -/
def endLoad (s : State) (p : Nat) : State :=
  let x := s.pair p
  if x.undrain then
    ((s.setPair p { x with loading := false, undrain := false, drain := false, drained := false }).countStranded p).offer.updateLines
  else (s.setPair p { x with loading := false }).updateLines

/-- The image at IMG_LO and IMG_HI: its header, and the first check that it fails (R308). -/
def pairImage (s : State) (p : Nat) : List Nat × Nat :=
  let a := s.getF (Reg.ccImgHi p) 2 0 * 2 ^ 32 + (s.reg (Reg.ccImgLo p)).toNat
  let h := s.memBytes a 512
  (h, imageError s h (s.memBytes (a + 512) (imageLength h)))

/-- The image check ends (R308). -/
def loadComplete (s : State) (p : Nat) : State :=
  if (s.pair p).loading && decide (s.pstate p = 4) then
    let t := endLoad s p
    if (pairImage s p).2 = 0 then t.evt (Pg.cc p) 1 else (t.evt (Pg.cc p) 2).refuse (Pg.cc p) 0x0A01 1 0
  else s

def execLoadComplete (p : Fin 8) (s : State) : Out := .next (loadComplete s p)

/-- The running thread of a halted pair returns to the head of its ready list; a halt is no dispatch point, so what
waits for one stays pending (R289, R303). -/
def haltThread (s : State) (p : Nat) : State :=
  let x := s.pair p
  match x.running with
  | none => s
  | some r =>
    let u := s.setThread r { s.thread r with state := 2, rank := -s.rv.rankNext - 1 }
    ({ u with rv := { u.rv with rankNext := u.rv.rankNext + 1 } }).setPair p { x with running := none }

/-- A lockstep mismatch (R289): the pair halts and reads OFFLINE; its thread returns to the head of its list. -/
def ccLockstep (s : State) (p : Nat) : State :=
  if (s.pair p).failed then s
  else
    let thread := ((s.pair p).running).getD 0
    let second := match (s.pair p).lockAt with
      | some t0 => decide (s.stp.timeNs ≤ t0 + 10000000000)
      | none => false
    let s1 := haltThread s p
    let x := s1.pair p
    let keep := x.undrain
    let s2 := s1.setPair p { x with offline := true, wfi := false, dispatch := false, offered := none, loading := false
                                    undrain := false, drain := x.drain && !keep, drained := x.drained && !keep
                                    lockAt := some s.stp.timeNs, secondLock := x.secondLock || second }
    let s3 := ((s2.inc32 (Reg.ccLockstepErr p)).evt (Pg.cc p) 3).raise 0x5001 (Pg.cc p) p thread
    ((s3.releaseActive p).countStranded p).offer.updateLines

def execCcLockstep (p : Fin 8) (s : State) : Out := .next (ccLockstep s p)

/-- The restart ends: the pair returns to the state it held, or is FAILED on a second mismatch within 10 s (R289). -/
def pairRestart (s : State) (p : Nat) : State :=
  let x := s.pair p
  if x.offline then
    if x.secondLock then
      ((s.setPair p { x with offline := false, failed := true }).releaseActive p).raise 0x5002 (Pg.cc p) p 0 |>.updateLines
    else (s.setPair p { x with offline := false }).offer.updateLines
  else s

def execPairRestartComplete (p : Fin 8) (s : State) : Out := .next (pairRestart s p)

/-- A pair stops in WFI (R288); a DISPATCH or a request line that stands wakes it at once (R302, R321). -/
def wfi (s : State) (p : Nat) : State :=
  let x := s.pair p
  if x.failed || x.offline || x.loading || x.dispatch || s.bit Reg.belfryReq p then s
  else s.setPair p { x with wfi := true }

def execWfi (p : Fin 8) (s : State) : Out := .next (wfi s p)

end Sys2Proof.Machine
end

