-- ==== Sys2Proof/Machine/Belfry.lean ====
section
/-! DEFINITION. The commands of the Belfry and the Bells (14_belfry_interrupts.md). -/

namespace Sys2Proof.Machine

/-- A filtered assertion of a source (R313): a level source of a page asserts while the page's events stand (R312). -/
def sourceAssertion (s : State) (n : Nat) : State :=
  if !sourceExists n || isSoft n then s
  else if s.isEdge n then
    (if isGpio n then (if s.inputBit n then s else (s.setInput n true).assertEdge n) else s.assertEdge n).updateLines
  else if s.inputBit n then s
  else match sourcePage n with
    | some pg => if eventsUp s pg then (s.assertLevel n).updateLines else s
    | none => (s.assertLevel n).updateLines

def execSourceAssertion (src : Fin 4096) (s : State) : Out := .next (sourceAssertion s src)

/-- A level input falls and takes its pending bit with it (R314); a GPIO edge input falls (R313). -/
def sourceDeassert (s : State) (n : Nat) : State :=
  if !sourceExists n || isSoft n || !(s.inputBit n) then s
  else match sourcePage n with
    | some pg => if eventsUp s pg then s else ((s.setInput n false).unpend n).updateLines
    | none =>
      let t := s.setInput n false
      if s.isEdge n then t else (t.unpend n).updateLines

def execSourceDeassert (src : Fin 4096) (s : State) : Out := .next (sourceDeassert s src)

/-- One arbitration of a Bell (R319, R323): its 64 sources in ascending order. -/
def arbitrate (s : State) (b : Nat) : State :=
  ((List.range 64).foldl (fun u i => u.arbSource (64 * b + i)) s).updateLines

def execArbitration (b : Fin 64) (s : State) : Out := .next (arbitrate s b)

/-- The master is target `t` (R317). -/
def isTarget (m : Master) (t : Nat) : Bool :=
  match m with
  | .host => decide (t = 8)
  | .cc p => decide (t = p.val)

/-- The page of a claim or a completion. -/
def bellPage (bell : Option (Fin 64)) : Nat :=
  match bell with
  | none => Pg.belfry
  | some b => Pg.bell b

/-- A read of CLAIM_t (R315, R317, R324). -/
def claim (s : State) (m : Master) (bell : Option (Fin 64)) (t : Nat) : State :=
  if !reaches s m (bellPage bell) || !isTarget m t then s.answer [0]
  else match State.bestSource (s.claimable t (bell.map Fin.val)) with
    | none => s.answer [0]
    | some (_, n) =>
      let u := ((s.unpend n).setActive n true)
      let u := { u with bf := { u.bf with active := Store.put (fun _ => 15) u.bf.active n t } }
      (u.updateLines).answer [n]

def execClaim (m : Master) (bell : Option (Fin 64)) (t : Fin 9) (s : State) : Out := .next (claim s m bell t)

/-- The completion of a source that is ACTIVE for `t` (R315, R316). -/
def completeSource (s : State) (n : Nat) : State :=
  let u := { s with bf := { s.bf with active := Store.put (fun _ => 15) s.bf.active n 15 } }
  let u := u.setActive n false
  if u.isEdge n then u else u.setPending n (u.inputBit n)

/-- The host's line stays asserted after its completion: MSI-X again (R320). -/
def hostAgain (s : State) (t : Nat) : State := if t = 8 ∧ s.bit Reg.belfryReq 8 then s.msix else s

/-- A write of COMPLETE_t (R316, R317). -/
def complete (s : State) (m : Master) (bell : Option (Fin 64)) (t n : Nat) : State :=
  if !reaches s m (bellPage bell) || !isTarget m t then s
  else if Store.get (fun _ => 15) s.bf.active n = t ∧ (bell = none ∨ bell.map Fin.val = some (n / 64)) then
    hostAgain (completeSource s n).updateLines t
  else
    hostAgain ((s.inc32 (Reg.bellCompleteIgn (n / 64))).evt Pg.belfry 2).updateLines t

def execComplete (m : Master) (bell : Option (Fin 64)) (t : Fin 9) (src : Fin 4096) (s : State) : Out :=
  .next (complete s m bell t src)

/-- One bit of a PENDING write (R314, R460). What it does to a level source lasts one cycle: the assignment of a bit cleared lapses,
and the bit follows the input again (DEDUCED: that cycle is over when the command ends, notes/assumptions/31.md). -/
def pendingBitWrite (s : State) (n : Nat) (b : Bool) : State :=
  if !sourceExists n then s
  else if isSoft n then
    if b then (if s.pendingBit n then s else (s.fireBinding n).setPending n true) else s.unpend n
  else if s.isEdge n then (if b then s.setPending n true else s.unpend n)
  else
    let u := if b then s else s.unpend n
    u.setPending n (u.inputBit n && !(u.activeBit n))

/-- A write of PENDING_LO or PENDING_HI (R326, R460): it replaces the whole word. -/
def pendingWrite (s : State) (b : Nat) (hi : Bool) (w : Word) : State :=
  if !(s.answers (Pg.bell b)) then s
  else
    let base := 64 * b + if hi then 32 else 0
    ((List.range 32).foldl (fun u i => pendingBitWrite u (base + i) (w.getLsbD i)) s).updateLines

def execPendingWrite (b : Fin 64) (hi : Bool) (w : BitVec 32) (s : State) : Out := .next (pendingWrite s b hi w)

/-- ORPHAN_CLR (R323). -/
def orphanClr (s : State) : State := if s.answers Pg.belfry then s.setReg Reg.belfryOrphan 0 else s

def execOrphanClr (s : State) : Out := .next (orphanClr s)

/-- Parity of Bell or root state (R327). -/
def execBelfryParity (loc : ParityLoc) (s : State) : Out :=
  .next ((s.evt Pg.belfry 1).raise 0x5006 Pg.belfry loc.unit loc.index)

/-- MSI-X enable and the mask of vector 0 as configuration space sets them; an unmasked pending message goes out
(R318, R320). -/
def msixEnable (s : State) (enable mask : Bool) : State :=
  let t := { s with pins := { s.pins with msixOn := enable, msixMasked := mask } }
  let t := if enable && !mask && t.pins.msixPend then ({ t with pins := { t.pins with msixPend := false } } : State).msix else t
  t.updateLines

def execMsixEnable (enable mask : Bool) (s : State) : Out := .next (msixEnable s enable mask)

end Sys2Proof.Machine
end

