-- ==== Sys2Proof/Machine/Flags.lean ====
section
/-! DEFINITION. The tests of the channel consistency check that need no resource (Table 2-4 tests 1 to 13, with the
tests inserted by R112, R142, R151, R206, R222 and R276), and the commit tests of R162. A failure is the reason code, the word
offset and the PAGE that REFUSE takes (R40, R450). -/

namespace Sys2Proof.Machine

/-- What a failed test puts in REFUSE. -/
structure Refusing where
  code : Nat
  word : Nat
  page : Nat
  deriving DecidableEq, Repr

/-- The first failure of a list of tests. -/
def firstFail {α : Type} : List (Option α) → Option α
  | [] => none
  | some x :: _ => some x
  | none :: l => firstFail l

/-- A test: fails with `r` unless `b`. -/
def need (b : Bool) (code word page : Nat) : Option Refusing := if b then none else some ⟨code, word, page⟩

/-- Word offset of an address in its page. -/
def wordOf (a : Nat) : Nat := a % 0x1000 / 4

/-- Width and height of test 2. -/
def sizeOk (w h : Nat) : Bool :=
  decide (64 ≤ w ∧ w ≤ 8192 ∧ 64 ≤ h ∧ h ≤ 4320 ∧ w % 8 = 0 ∧ h % 8 = 0)

/-- Test 2. -/
def testSize (s : State) (c : ChanCfg) : Option Refusing :=
  firstFail ([need (sizeOk c.w c.h) 0x0101 0x10 0,
    need (decide (c.h + 9 ≤ c.lines ∧ c.lines ≤ 16383)) 0x0101 0x14 0,
    need (s.bit (Reg.chRendCtrl c.n 0) 0 && decide (s.getF (Reg.chRendCtrl c.n 0) 2 1 = 0)) 0x0101 0x20 0] ++
    c.rends.map (fun r => need (sizeOk r.w r.h && (decide (r.r ≠ 0) || (decide (r.w = c.w ∧ r.h = c.h))))
      0x0101 (wordOf (Reg.chRendSize c.n r.r)) 0))

/-- Table 4-3: whether a profile exists, and permits 4:2:2 and 10 bits. -/
def profileOk (codec profile : Nat) (c422 deep : Bool) : Bool :=
  match codec, profile with
  | 0, 0 => !c422 && !deep
  | 0, 1 => !c422
  | 0, 2 => true
  | 1, 0 => !c422
  | 1, 1 => true
  | _, _ => false

/-- Test 3 (R93). -/
def testSampling (c : ChanCfg) : Option Refusing :=
  firstFail (c.rends.map (fun r => need (profileOk r.codec r.profile c.c422 c.deep) 0x0102
    (wordOf (Reg.chRendCodec c.n r.r)) 0))

/-- Test 4 (R93, R94); the level tables are outside the spec (Config.levelAdmits). -/
def testLevel (c : ChanCfg) : Option Refusing :=
  firstFail (c.rends.map (fun r =>
    need (decide (r.level ≤ (if r.codec = 0 then 186 else 105)) &&
      Config.levelAdmits [r.codec, r.level, r.tier, r.w, picH c r, sampleRate c r * 1000 / c.den, tileCount c r,
        tileCount c r * (units c r).length]) 0x0103 (wordOf (Reg.chRendCodec c.n r.r)) 0))

/-- Test 5. -/
def testCtu (c : ChanCfg) : Option Refusing :=
  firstFail (c.rends.map (fun r =>
    need (if r.codec = 0 then decide (r.ctu = 32 ∨ r.ctu = 64) else decide (r.ctu = 64 ∨ r.ctu = 128)) 0x0104
      (wordOf (Reg.chRendCodec c.n r.r)) 0))

/-! ### The compositor's set (R151, R162) -/

/-- A layer register of the shadow set. -/
def layerGraphics (s : State) (n k : Nat) : Bool := s.bit (Reg.chcompLCfg n k) 0 && !(s.bit (Reg.chcompLCfg n k) 1)
def layerLive (s : State) (n k : Nat) : Bool := s.bit (Reg.chcompLCfg n k) 0 && s.bit (Reg.chcompLCfg n k) 1

/-- Layers 1 to 7. -/
def layers17 : List Nat := [1, 2, 3, 4, 5, 6, 7]

/-- ORDER is a permutation of 0 to 7. -/
def orderPerm (w : Word) : Bool :=
  (List.range 8).all (fun k => (List.range 8).any (fun p => decide (fld w (4 * p + 2) (4 * p) = k)))

/-- Shadow registers of the CHCOMP page by offset (R160): ORDER, COMP_CFG and the RW fields of the layer blocks. -/
def shadowOffs : List Nat :=
  [0x44, 0x48] ++ (List.range 8).flatMap (fun k => (List.range 8).map (fun i => 0x108 + 0x40 * k + 4 * i))

/-- What an offset of a set reads when not listed. -/
def shadowReset (o : Nat) : Word := resetVal (Pg.chcomp 0 + o)

/-- The shadow set as it stands. -/
def shadowSet (s : State) (n : Nat) : Store Word :=
  shadowOffs.foldl (fun m o => Store.put shadowReset m o (s.reg (Pg.chcomp n + o))) []

/-- The commit tests of R162 over the shadow set: the word offset of the first offending register. -/
def commitFail (s : State) (n : Nat) : Option Nat :=
  let vis (k : Nat) := s.bit (Reg.chcompLCfg n k) 0 && !(s.bit (Reg.chcompLAlpha n k) 31)
  let gfx (k : Nat) := vis k && !(s.bit (Reg.chcompLCfg n k) 1)
  let w (k : Nat) := s.getF (Reg.chcompLSize n k) 13 0
  let h (k : Nat) := s.getF (Reg.chcompLSize n k) 29 16
  let bpp (k : Nat) := fmtBytes (s.getF (Reg.chcompLCfg n k) 4 2)
  let pit (k : Nat) := s.getF (Reg.chcompLPitch n k) 17 0
  let adr (k : Nat) := s.getF (Reg.chcompLAddrHi n k) 2 0 * 2 ^ 32 + (s.reg (Reg.chcompLAddrLo n k)).toNat
  let key (k : Nat) := s.getF (Reg.chcompLAlpha n k) 17 16
  let t (ok : Nat → Bool) (a : Nat → Nat) := layers17.map (fun k => if ok k then none else some (wordOf (a k)))
  firstFail (
    t (fun k => !(gfx k) || decide (1 ≤ w k ∧ w k ≤ s.getF (Reg.chcompLMax n k) 13 0 ∧
        1 ≤ h k ∧ h k ≤ s.getF (Reg.chcompLMax n k) 29 16)) (Reg.chcompLSize n) ++
    t (fun k => !(gfx k) || decide (adr k % 64 = 0)) (Reg.chcompLAddrLo n) ++
    t (fun k => !(gfx k) || decide (pit k % 64 = 0 ∧ w k * bpp k ≤ pit k)) (Reg.chcompLPitch n) ++
    t (fun k => !(gfx k) || decide (adr k + (h k - 1) * pit k + w k * bpp k ≤ 24 * 2 ^ 30)) (Reg.chcompLAddrLo n) ++
    t (fun k => !(vis k) || decide (key k ≠ 2) ||
        (s.bit (Reg.chcompLCfg n k) 1 && s.bit (Reg.chcompLCfg n k) 23)) (Reg.chcompLAlpha n) ++
    t (fun k => !(vis k) || decide (key k = 0 ∨ s.getF (Reg.chcompLKey n k) 9 0 < s.getF (Reg.chcompLKey n k) 25 16))
      (Reg.chcompLKey n) ++
    [if s.bit (Reg.chcompCompCfg n) 0 && !(orderPerm (s.reg (Reg.chcompOrder n))) then some 0x11 else none])

/-- An input of a live layer has the channel's width, height, rate and total lines (R148); equal rates may be spelled with
another NUM and DEN. -/
def liveInputOk (s : State) (c : ChanCfg) (i : Nat) : Bool :=
  decide (s.getF (Reg.inpGeom i) 13 0 = c.w ∧ s.getF (Reg.inpGeom i) 29 16 = c.h ∧ s.getF (Reg.inpTiming i) 13 0 = c.lines ∧
    s.getF (Reg.inpFps i) 19 0 * c.den = c.num * s.getF (Reg.inpFps i) 29 20 ∧ s.getF (Reg.inpFps i) 29 20 ≠ 0)

/-- The CHCOMP test of R151. -/
def testLayers (s : State) (c : ChanCfg) : Option Refusing :=
  let l := s.getF (Reg.chcompLatch c.n) 13 0
  firstFail (
    [need (decide (l = 0 ∨ (defaultLatch c ≤ l ∧ l ≤ c.lines - 9))) 0x010A 0x10 2] ++
    layers17.flatMap (fun k => [
      need (!(layerGraphics s c.n k) || decide (s.getF (Reg.chcompLCfg c.n k) 4 2 ≤ 4)) 0x010A
        (wordOf (Reg.chcompLCfg c.n k)) 2,
      need (!(layerGraphics s c.n k) || decide (1 ≤ s.getF (Reg.chcompLMax c.n k) 13 0 ∧
          s.getF (Reg.chcompLMax c.n k) 13 0 ≤ c.w ∧ 1 ≤ s.getF (Reg.chcompLMax c.n k) 29 16 ∧
          s.getF (Reg.chcompLMax c.n k) 29 16 ≤ c.h)) 0x010A (wordOf (Reg.chcompLMax c.n k)) 2]) ++
    layers17.map (fun k =>
      need (!(layerLive s c.n k) || (liveInputOk s c (s.getF (Reg.chcompLCfg c.n k) 14 8) &&
          (!(s.bit (Reg.chcompLCfg c.n k) 23) || liveInputOk s c (s.getF (Reg.chcompLCfg c.n k) 22 16)))) 0x010A
        (wordOf (Reg.chcompLCfg c.n k)) 2) ++
    [match commitFail s c.n with | some w => some ⟨0x010A, w, 2⟩ | none => none])

/-! ### The ladder (test 6, R167, R168) -/

/-- Stages in order with the size each reads; the word of LADDER_s of the first that fails. -/
def ladderFail (c : ChanCfg) : Nat → Bool → Nat × Nat → List (Bool × Nat × Nat) → Option Nat
  | _, _, _, [] => none
  | i, prev, inp, (en, w, h) :: l =>
    let users := c.rends.filter (fun r => r.source = i + 1)
    if en then
      if prev ∧ inp.1 ≤ 8192 ∧ w % 8 = 0 ∧ 64 ≤ w ∧ inp.1 ≤ 4 * w ∧ w ≤ inp.1 ∧
         h % 8 = 0 ∧ 64 ≤ h ∧ inp.2 ≤ 2 * h ∧ h ≤ inp.2 ∧
         users.all (fun r => decide (r.h = h ∧ r.w ≤ w)) then ladderFail c (i + 1) true (w, h) l
      else some (0xC0 + i)
    else if users.isEmpty then ladderFail c (i + 1) false inp l else some (0xC0 + i)

/-- Test 6; a rendition taken from the full picture is no larger than it. -/
def testLadder (c : ChanCfg) : Option Refusing :=
  firstFail ([match ladderFail c 0 true (c.w, c.h) c.stages with | some w => some ⟨0x0105, w, 2⟩ | none => none] ++
    c.rends.map (fun r => need (decide (r.source ≠ 0 ∨ (r.w ≤ c.w ∧ r.h ≤ c.h))) 0x0105
      (wordOf (Reg.chRendSize c.n r.r)) 0))

/-- Test 7, its registers in ascending word offset (R450). -/
def testLatency (c : ChanCfg) : Option Refusing :=
  firstFail [need (!c.interl || decide (c.h = 1080)) 0x0106 0x11 0,
    need (match c.cls with
      | 0 => decide (3 ≤ c.par ∧ c.par ≤ 16) | 1 => decide (1 ≤ c.par ∧ c.par ≤ 4)
      | 2 => decide (1 ≤ c.par ∧ c.par ≤ 40) | _ => false) 0x0106 0x15 0]

/-! ### Coding and rate blocks (R112, R142) -/

/-- A signed 4-bit offset from −6 to +6. -/
def offset6 (v : Nat) : Bool := decide (v ≤ 6 ∨ 10 ≤ v)

def testCoding (s : State) (c : ChanCfg) (r : RendCfg) : Option Refusing :=
  let n := c.n
  let llm := s.bit (Reg.chRefresh n r.r) 8
  firstFail [
    need (offset6 (s.getF (Reg.chDbk n r.r) 3 0) && offset6 (s.getF (Reg.chDbk n r.r) 7 4)) 0x0108 (wordOf (Reg.chDbk n r.r)) 0,
    need (!(c.cls = 0 ∨ (c.cls = 1 ∧ !llm)) || decide (2 ≤ s.getF (Reg.chRefresh n r.r) 7 0)) 0x0108
      (wordOf (Reg.chRefresh n r.r)) 0,
    need (!(c.cls = 1 ∧ llm) || decide (8 ≤ s.getF (Reg.chRefresh n r.r) 24 16 ∧ s.getF (Reg.chRefresh n r.r) 24 16 ≤ 256))
      0x0108 (wordOf (Reg.chRefresh n r.r)) 0,
    need (decide (c.cls ≠ 2) || (decide (r.gopLen ∈ [1, 2, 4, 8, 16, 32]) && decide (1 ≤ s.getF (Reg.chGop n r.r) 15 8)))
      0x0108 (wordOf (Reg.chGop n r.r)) 0]

def testRate (s : State) (c : ChanCfg) (r : RendCfg) : Option Refusing :=
  let n := c.n
  let qp := s.reg (Reg.chrcQp n r.r)
  let wb := wordOf (Reg.chrcBitrate n r.r)
  firstFail [
    need (decide (100 ≤ r.bitrate)) 0x0109 wb 1,
    need (decide (rtx r ≤ 1000 * Config.levelMaxRate r.codec r.level r.tier r.profile)) 0x0109 wb 1,
    need (decide (r.peak ≤ 200)) 0x0109 (wordOf (Reg.chrcPeak n r.r)) 1,
    need (decide (1 ≤ r.window ∧ r.window ≤ 16)) 0x0109 (wordOf (Reg.chrcWindow n r.r)) 1,
    need (decide (s.getF (Reg.chrcAq n r.r) 11 8 ≤ 12)) 0x0109 (wordOf (Reg.chrcAq n r.r)) 1,
    need (decide (fld qp 13 8 ≤ fld qp 5 0 ∧ fld qp 5 0 ≤ fld qp 21 16 ∧
      fld qp 21 16 ≤ if r.codec = 0 then 51 else 63)) 0x0109 (wordOf (Reg.chrcQp n r.r)) 1,
    need ((List.range (picsPerFrame c)).all (fun fl => (units c r).all (fun u => decide (unitReserve c r u ≤ unitCap c r fl u))))
      0x0109 wb 1]

def testGleaner (s : State) (c : ChanCfg) : Option Refusing :=
  need (decide (16 ≤ s.getF (Reg.chGlnCtrl c.n) 7 0 ∧ 1 ≤ s.getF (Reg.chGlnCtrl c.n) 11 8)) 0x0108 0xC0 0

/-- Test 8 (R45). -/
def testGang (c : ChanCfg) : Option Refusing :=
  firstFail (c.rends.map (fun r => need (!(dedicated c r) || (gangSize c r).isSome) 0x0107
    (wordOf (Reg.chRendSize c.n r.r)) 0))

/-- Transmission order is decoding order (R124). -/
def orderIsDecoding (c : ChanCfg) (r : RendCfg) : Bool :=
  decide (tileCount c r = 1) || decide (c.cls ≠ 0 ∧ r.sliceRows = 0)

/-- The egress test (R222). -/
def testEgress (s : State) (c : ChanCfg) (r : RendCfg) : Option Refusing :=
  let f := s.reg (Reg.erendFormat c.n r.r)
  let ring := (s.reg (Reg.erendRingSize c.n r.r)).toNat
  let wf := wordOf (Reg.erendFormat c.n r.r)
  firstFail [
    need (decide (fld f 1 0 ≤ 2)) 0x010E wf 4,
    need (decide (256 ≤ fld f 17 4 ∧ fld f 17 4 ≤ 8960 ∧ (fld f 1 0 ≠ 2 ∨ fld f 17 4 = 1316))) 0x010E wf 4,
    need (decide (fld f 1 0 ≠ 2) || orderIsDecoding c r) 0x010E wf 4,
    need (decide (ring = 0 ∨ (ring % 4096 = 0 ∧ ring ≤ 2 ^ 30))) 0x010E (wordOf (Reg.erendRingSize c.n r.r)) 4]

/-- Tests 9 to 11 (R14 to R16). -/
def testDiv (c : ChanCfg) : Option Refusing :=
  need (decide ((c.div = 1 ∨ c.div = 2 ∨ c.div = 4) ∧ c.phase < c.div)) 0x0501 0x12 0
def testFamily (s : State) (c : ChanCfg) : Option Refusing :=
  let p := s.framePeriod
  need (decide ((c.den = 1000 ∨ c.den = 1001) ∧ c.num * c.div * p.1 = c.den * p.2)) 0x0502 0x13 0
def testRatio (c : ChanCfg) : Option Refusing := need (rhoWhole c) 0x0503 0x14 0

/-- The input test (R206). -/
def testInput (s : State) (c : ChanCfg) : Option Refusing :=
  need (s.enabled (Pg.inp c.input) && liveInputOk s c c.input &&
    (s.bit (Reg.inpTiming c.input) 16 == c.interl)) 0x010D 0x17 0

/-- KIND of a slot (R261). The spec gives the entry no bit places (notes/assumptions/9.md): [2:0] KIND,
[15:8] UNIT, [21:16] SUB. -/
def slotKind (w : Word) : Nat := fld w 2 0
def slotUnit (w : Word) : Nat := fld w 15 8
def slotSub (w : Word) : Nat := fld w 21 16

/-- The slot word that track `t` of channel `n` names, when the track is enabled. -/
def trackSlot (s : State) (n t : Nat) : Option Nat :=
  if s.bit (Reg.chaudTrack n t) 15 then some (s.getF (Reg.chaudTrack n t) 9 0) else none

def slotWord (s : State) (i : Nat) : Word := Store.get (fun _ => 0) s.aud.slots i
def nodeWord (s : State) (i k : Nat) : Word := (Store.get (fun _ => nodeInit) s.etm.nodes i).getD k 0

/-- A node is enabled and its port lies on path A (ports 0 to 3 and 8) or B. -/
def nodeOnPath (s : State) (i : Nat) (pathB : Bool) : Bool :=
  let w := nodeWord s i 0
  let p := fld w 3 0
  w.getLsbD 31 && decide ((4 ≤ p ∧ p ≤ 7 ∨ p = 9) ↔ pathB = true) && decide (p ≤ 9)

/-- The CHAUD test (R276). -/
def testAudio (s : State) (c : ChanCfg) : Option Refusing :=
  let n := c.n
  firstFail (
    (List.range 16).map (fun t => need (match trackSlot s n t with
      | none => true | some i => decide (slotKind (slotWord s i) ≠ 0)) 0x0111 (wordOf (Reg.chaudTrack n t)) 3) ++
    (List.range 4).map (fun k =>
      let w := s.reg (Reg.chaudS302 n k)
      need (!(w.getLsbD 0) || (!(s.bit Reg.audCfg 0) &&
          c.rends.any (fun r => decide (s.getF (Reg.erendFormat n r.r) 1 0 = 2)) &&
          decide (fld w 7 4 + 2 * (fld w 2 1 + 1) ≤ 16))) 0x0111 (wordOf (Reg.chaudS302 n k)) 3) ++
    (List.range 4).map (fun k =>
      let w := s.reg (Reg.chaudAesCtrl n k)
      let ch := fld w 7 2
      let f := fld w 11 8
      need (!(w.getLsbD 0) || (decide (1 ≤ ch ∧ ch ≤ (if w.getLsbD 1 then 16 else 8) ∧ f + ch ≤ 16) &&
          (List.range ch).all (fun i => s.bit (Reg.chaudTrack n (f + i)) 15))) 0x0111 (wordOf (Reg.chaudAesCtrl n k)) 3) ++
    (List.range 4).map (fun k =>
      let w := s.reg (Reg.chaudAesNode n k)
      need (!(s.bit (Reg.chaudAesCtrl n k) 0) || (nodeOnPath s (fld w 11 0) false && nodeOnPath s (fld w 23 12) true))
        0x0111 (wordOf (Reg.chaudAesNode n k)) 3))

/-- The tests before the placement readbacks can be computed: 1 to 11 with those inserted (R40). -/
def earlyTests (s : State) (c : ChanCfg) : Option Refusing :=
  firstFail [
    need (decide (s.mode = 1 ∨ s.mode = 2 ∨ s.mode = 3 ∨ s.mode = 4)) 0x0802 1 0,
    testSize s c, testSampling c, testLevel c, testCtu c, testLayers s c, testLadder c, testLatency c,
    firstFail (c.rends.map (fun r => firstFail [testCoding s c r, testRate s c r])), testGleaner s c,
    testGang c, firstFail (c.rends.map (testEgress s c)),
    testDiv c, testFamily s c, testRatio c, testInput s c, testAudio s c]

/-- Tests 12 and 13. -/
def lateTests (s : State) (c : ChanCfg) : Option Refusing :=
  firstFail [need (decide (dMinLines c ≤ delayLines c)) 0x0504 1 0, need (decide (s.stpSt ≠ 1)) 0x0601 1 0]

end Sys2Proof.Machine
end

