-- ==== Sys2Proof/Machine/Allot.lean ====
section
/-! DEFINITION. The Allotter's operations (02_channels_and_allotment.md, 03_millpond.md): trial placement, plots, extents,
the ledger, taking and releasing resources, engine replacement, shedding, re-spacing, the digest. -/

namespace Sys2Proof.Machine

namespace State

def slot (s : State) (k : Nat) : Slot := Store.get Slot.init s.eng.slots k
def setSlot (s : State) (k : Nat) (x : Slot) : State :=
  { s with eng := { s.eng with slots := Store.put Slot.init s.eng.slots k x } }

/-- Modify a channel. -/
def modChan (s : State) (n : Nat) (f : Chan → Chan) : State := s.setChan n (f (s.chan n))

/-- Placements that hold resources: the one in force and the one that takes over (R61). -/
def placesOf (c : Chan) : List Place := c.place.toList ++ c.next.toList

/-- The placement that the readbacks and the digest show. -/
def shown (c : Chan) : Option Place := match c.next with | some p => some p | none => c.place

/-- The declaration a channel runs on: that of its placement while it has one. -/
def cfgOf (s : State) (n : Nat) : ChanCfg :=
  match (s.chan n).place with
  | some pl => pl.cfg
  | none => chanCfg s n

/-- Channels that hold a placement, in ascending order. -/
def placed (s : State) : List (Nat × Place) :=
  s.chans.filterMap (fun e => (shown e.2).map (fun p => (e.1, p)))

/-- ALLOT_STATE (Table 2-6): 0 NONE, 1 PENDING, 2 PLACED, 3 HELD, 4 MOVING, 5 SHED. -/
def allotState (s : State) (n : Nat) : Nat := s.getF (Reg.chAllotState n) 2 0
def setAllotState (s : State) (n v : Nat) : State := s.setF (Reg.chAllotState n) 2 0 v

end State

open State

/-! ### Trial placement (R45 to R47, R73) -/

/-- What a trial placement gives: the slots after it, the renditions' places without gang numbers, the plot need and the
staging plots in it, and whether every rendition found a place. -/
structure Trial where
  slots   : Store Slot
  rends   : List RendPl
  need    : Nat
  staging : Nat
  ok      : Bool
  deriving DecidableEq, Repr

/-- A free committed slot: an engine and no context. -/
def slotFree (x : Slot) : Bool := x.eng.isSome && x.ctxs.isEmpty

/-- The format that a shared engine holds (R46): size, frame rate, codec, profile and CTU, REND_SEARCH. -/
def sharedFmt (c : ChanCfg) (r : RendCfg) : Nat × Nat × Nat × Nat × Nat :=
  (r.w, r.h, c.num * 1024 + c.den, r.codec + 2 * r.profile + 16 * r.ctu, r.search)

/-- A shared engine matches and has room (R46). -/
def sharedRoom (c : ChanCfg) (r : RendCfg) (x : Slot) : Bool :=
  x.shared && x.eng.isSome && !x.ctxs.isEmpty && decide (x.fmt = some (sharedFmt c r) ∧ x.ctxs.length < 16 ∧
    (x.ctxs.length + 1) * sampleRate c r ≤ 533500000 * c.den)

/-- Lowest context slot not in use. -/
def freeIdx (l : List Ctx) : Nat :=
  (firstThat (fun i => !(l.any (fun c => decide (c.idx = i)))) (List.range 16)).getD 16

/-- One rendition placed (R46, R73). DEDUCED: a HELD channel's REFILL rendition that stays with the engine of an inherited pair
needs nothing and keeps that pair, whatever its new format (notes/assumptions/43.md). -/
def trialRend (n : Nat) (c : ChanCfg) (t : Trial) (r : RendCfg) : Trial :=
  let at_ (k : Nat) := Store.get Slot.init t.slots k
  let put (m : Store Slot) (k : Nat) (x : Slot) := Store.put Slot.init m k x
  let free := (List.range 32).filter (fun k => slotFree (at_ k))
  if dedicated c r then
    let N := (gangSize c r).getD 8
    let wr := windowPlots r N
    let pick := free.take N
    let slots := (pick.zip (List.range N)).foldl (fun m e =>
      put m e.1 { Store.get Slot.init m e.1 with shared := false, ctxs := [⟨0, n, r.r, e.2, false⟩] }) t.slots
    { slots := slots, rends := t.rends ++ [⟨r.r, 0, pick, false, r.refill, wr, false⟩]
      need := t.need + wr + N, staging := t.staging + N, ok := t.ok && decide (pick.length = N) }
  else
    let wr := windowPlots r 1
    let home := match firstThat (fun k => sharedRoom c r (at_ k)) (List.range 32) with
      | some k => some k
      | none => free.head?
    match home with
    | some k =>
      let x := at_ k
      let x := if x.ctxs.isEmpty then { x with shared := true, fmt := some (sharedFmt c r) } else x
      -- an inherited pair stays with its engine (R75)
      let stays := match x.pair with | some (_, _, true) => true | _ => false
      let opens := r.refill && !(x.ctxs.any (fun y => y.refill)) && !stays
      let need := if r.refill then (if opens then 2 * wr else 0) else wr + 1
      { slots := put t.slots k { x with ctxs := x.ctxs ++ [⟨freeIdx x.ctxs, n, r.r, 0, r.refill⟩] }
        rends := t.rends ++ [⟨r.r, 0, [k], true, r.refill, wr, opens⟩]
        need := t.need + need, staging := t.staging + (if r.refill then 0 else 1), ok := t.ok }
    | none =>
      { t with need := t.need + (if r.refill then 2 * wr else wr + 1)
               staging := t.staging + (if r.refill then 0 else 1), ok := false }

/-- A channel placed, rendition by rendition (R47). -/
def trial (n : Nat) (c : ChanCfg) (slots : Store Slot) : Trial :=
  c.rends.foldl (trialRend n c) ⟨slots, [], 0, 0, true⟩

/-- The slots without the contexts of a channel (R61). -/
def slotsWithout (m : Store Slot) (n : Nat) : Store Slot :=
  m.foldl (fun acc e => Store.put Slot.init acc e.1
    { e.2 with ctxs := e.2.ctxs.filter (fun c => decide (c.ch ≠ n)) }) m

/-! ### Plots (R74, R459, Tables 3-7, 3-8) -/

/-- KIND, rendition and the slot whose engine reads the plot, for each plot of a placement in order: windows, then
staging, rendition by rendition; what the grant holds beyond is surplus. DEDUCED: of Table 3-8's 2 and 4, the staging plot of a
shared RESIDENT context reads 2 (notes/assumptions/43.md). -/
def plotPlan (rs : List RendPl) : List (Nat × Nat × Nat) :=
  rs.flatMap (fun r =>
    let k0 := r.slots.headD 0
    if !r.shared then List.replicate r.wr (1, r.rend, k0) ++ r.slots.map (fun k => (2, r.rend, k))
    else if r.refill then (if r.opens then List.replicate (2 * r.wr) (3, r.rend, k0) else [])
    else List.replicate r.wr (4, r.rend, k0) ++ [(2, r.rend, k0)])

/-- The PLOT_p word. -/
def plotWord (old : Word) (kind ch rend eng : Nat) : Word :=
  (old &&& 0x80000000) ||| BitVec.ofNat 32 (kind + ch * 0x10 + rend * 0x1000 + eng * 0x10000)

namespace State

/-- Physical engine of a slot; 0 when none performs it. -/
def slotEng (s : State) (k : Nat) : Nat := (s.slot k).eng.getD 0

def plotKind (s : State) (p : Nat) : Nat := s.getF (Reg.mpPlot p) 2 0

/-- Write a plot's word (R459); a retired plot, which may still be read for want of another (R79), keeps its KIND, and there
are 384 plots. -/
def setPlot (s : State) (p kind ch rend eng : Nat) : State :=
  if 384 ≤ p then s
  else s.setReg (Reg.mpPlot p) (plotWord (s.reg (Reg.mpPlot p)) (if s.plotKind p = 6 then 6 else kind) ch rend eng)

/-- Write the words of a channel's plots from its placement. -/
def writePlots (s : State) (n : Nat) (pl : Place) : State :=
  let plan := plotPlan pl.rends
  (pl.plots.zip (List.range pl.plots.length)).foldl (fun t e =>
    match plan[e.2]? with
    | some (k, r, sl) => t.setPlot e.1 k n r (t.slotEng sl)
    | none => t.setPlot e.1 5 n 0 0) s

/-- Free plots, lowest first; `own` holds plots that count as free (R61). -/
def freePlots (s : State) (own : List Nat) : List Nat :=
  (List.range 384).filter (fun p => decide (s.plotKind p = 0) || (own.contains p && decide (s.plotKind p ≠ 6)))

/-- Plots of an inherited pair. -/
def inheritedPlots (s : State) : List Nat :=
  s.eng.slots.flatMap (fun e => match e.2.pair with | some (l, _, true) => l | _ => [])

/-- Plots granted to placed and HELD channels, retired ones apart (Table 3-6). -/
def grantedPlots (s : State) : List Nat :=
  (s.chans.flatMap (fun e => (placesOf e.2).flatMap (fun p => p.plots))).eraseDups.filter (fun p => decide (s.plotKind p ≠ 6))

/-- Bring GRANTED, INHERITED and FREE up to date (Table 3-6). -/
def mpCounts (s : State) : State :=
  let g := s.grantedPlots.length
  let i := (s.inheritedPlots.filter (fun p => decide (s.plotKind p ≠ 6))).length
  ((s.setN Reg.mpGranted g).setN Reg.mpInherited i).setN Reg.mpFree (384 - g - i - (s.reg Reg.mpRetired).toNat)

/-- Bring MP.ENG_e of a slot up to date (Table 3-7). -/
def mpEngWord (s : State) (k : Nat) : State :=
  let x := s.slot k
  let res := if x.shared then sumN (x.ctxs.map (fun c =>
      if c.refill then 0 else match (shown (s.chan c.ch)).bind (fun p => p.rends.find? (fun r => r.rend = c.rend)) with
        | some r => r.wr + 1
        | none => 0)) else 0
  s.setN (Reg.mpEng k) (match x.pair with
    | some (l, f, inh) => res + l.length + f * 0x10000 + 0x1000000 + (if inh then 0x2000000 else 0)
    | none => res)

/-! ### Engine pages (Table 4-10, R447, R457) -/

/-- The slot that an engine holds. -/
def slotOf (s : State) (e : Nat) : Option Nat := firstThat (fun k => decide ((s.slot k).eng = some e)) (List.range 32)

/-- ROLE and HOME of an engine (R457). -/
def roleHome (s : State) (e : Nat) : Nat × Nat :=
  if !(s.enabled (Pg.ee e)) then (5, 63)
  else if s.eng.loan = some e then (4, 63)
  else if s.eng.standby = some e then (3, 63)
  else match s.slotOf e with
    | some k => let x := s.slot k; ((if x.ctxs.isEmpty then 0 else if x.shared then 2 else 1), k)
    | none => (0, 63)

/-- Rendition gang of a context. -/
def ctxGang (s : State) (c : Ctx) : Nat :=
  match (shown (s.chan c.ch)).bind (fun p => p.rends.find? (fun r => r.rend = c.rend)) with
  | some r => r.gang
  | none => 0

/-- Committed load of a slot in Msamples/s, rounded down. -/
def slotLoad (s : State) (k : Nat) : Nat :=
  let x := s.slot k
  sumN (x.ctxs.map (fun c =>
    match shown (s.chan c.ch) with
    | some p => match p.cfg.rends.find? (fun r => r.r = c.rend) with
      | some r =>
        if x.shared then sampleRate p.cfg r / (p.cfg.den * 1000000)
        else sampleRate p.cfg r * tileCtus (ctuCols r) (tileCount p.cfg r) c.tile / (ctuCols r * p.cfg.den * 1000000)
      | none => 0
    | none => 0))

/-- The RECON words that an engine page shows (Table 4-10): of the context that RECON_SEL names on a shared engine; 0 where the slot
holds none, or no slot is held (R119). -/
def showRecon (s : State) (e : Nat) (slot : Option Nat) : State :=
  let l := match slot with
    | some k => Store.get (fun _ => []) s.eng.recon (k * 16 + (if (s.slot k).shared then s.getF (Reg.eeReconSel e) 3 0 else 0))
    | none => []
  (List.range 6).foldl (fun t i => t.setReg (Reg.eeReconLo e + 4 * i) (l.getD i 0)) s

/-- Bring an engine page up to date: ENG_STATE, LOAD, CTX_i, PARENT, RECON; EVT bit 3 when the role changes (R118). A number
from 34 on names no engine. -/
def syncEngine (s : State) (e : Nat) : State :=
  if 34 ≤ e then s else
  let (role, home) := s.roleHome e
  let x := if home = 63 then Slot.init 63 else s.slot home
  let w := BitVec.ofNat 32 (role + home * 0x100 + x.ctxs.length * 0x10000)
  let roleWas := s.getF (Reg.eeEngState e) 2 0
  let t := s.setReg (Reg.eeEngState e) w
  let t := t.setN (Reg.eeLoad e) (if home = 63 then 0 else s.slotLoad home)
  let t := (List.range 16).foldl (fun t i =>
    t.setN (Reg.eeCtx e i) (match x.ctxs.find? (fun c => c.idx = i) with
      | some c => c.ch + c.rend * 0x100 + 0x10000 + (if c.refill then 0x100000 else 0)
      | none => 0)) t
  let t := t.setN (Pg.ee e + hParent) (match x.ctxs.find? (fun c => c.idx = 0) with
    | some c => Pg.gang (s.ctxGang c) / 0x1000
    | none => 0)
  let t := t.showRecon e (if home = 63 then none else some home)
  if roleWas ≠ role then t.evt (Pg.ee e) 3 else t

/-- Engines that have failed. -/
def failedEngines (s : State) : Nat := ((List.range 34).filter (fun e => !(s.enabled (Pg.ee e)))).length

/-- Bring DEV.ENGINES and SEXTON.ROT_POS up to date (Tables 2-7, 17-9); 63 names no engine. -/
def syncSpares (s : State) : State :=
  let loan := s.eng.loan.getD 63
  let stby := s.eng.standby.getD 63
  let free := ((List.range 32).filter (fun k => slotFree (s.slot k))).length
  let t := s.setN Reg.devEngines (loan + stby * 0x100 + free * 0x10000 + s.failedEngines * 0x1000000)
  t.setN Reg.sextonRotPos (s.eng.rotNext + loan * 0x100 + stby * 0x10000)

/-- Bring the engine pages of the slots given, and the spares, up to date. -/
def syncSlots (s : State) (l : List Nat) : State :=
  (l.foldl (fun t k =>
    let t := t.mpEngWord k
    match (t.slot k).eng with | some e => t.syncEngine e | none => t) s).syncSpares

/-! ### Gang and window pages (R48 to R50) -/

/-- Gangs in use with the page bases of their members: the channel gang, then the rendition gangs. -/
def gangsOf (s : State) : List (Nat × List Nat) :=
  s.placed.flatMap (fun e =>
    (e.1, e.2.rends.map (fun r => Pg.gang r.gang)) ::
      e.2.rends.map (fun r => (r.gang, r.slots.filterMap (fun k => (s.slot k).eng.map Pg.ee))))

/-- First window page and member count of a gang, when it has any. -/
def gangRun (s : State) (g : Nat) : Nat × Nat :=
  let w := s.reg (Pg.gang g + hChild)
  ((fld w 15 0) - Pg.aliasPg 0 / 0x1000, fld w 31 16)

/-- Lowest run of `len` window pages that none of `used` overlaps. -/
def aliasRun (used : List (Nat × Nat)) (len : Nat) : Option Nat :=
  firstThat (fun a => decide (a + len ≤ 576) &&
    used.all (fun u => decide (a + len ≤ u.1 ∨ u.1 + u.2 ≤ a))) (sortBy (fun a b => decide (a ≤ b)) (0 :: used.map (fun u => u.1 + u.2)))

/-- Write a gang's CHILD. -/
def setRun (s : State) (g a len : Nat) : State := s.setN (Pg.gang g + hChild) (Pg.aliasPg a / 0x1000 + len * 0x10000)

/-- Renumber every gang's window pages without gaps (R50). -/
def renumber (s : State) : State :=
  (s.gangsOf.foldl (fun (acc : State × Nat) g => (acc.1.setRun g.1 acc.2 g.2.length, acc.2 + g.2.length)) (s, 0)).1

/-- Give one gang the lowest free run, or renumber all (R50). -/
def giveRun (s : State) (g len : Nat) : State :=
  let used := (s.gangsOf.filter (fun x => decide (x.1 ≠ g))).map (fun x => s.gangRun x.1) |>.filter (fun u => decide (u.2 ≠ 0))
  match aliasRun used len with
  | some a => s.setRun g a len
  | none => s.renumber

/-- Fill the gang pages of a placed channel (R48, R49): CHILD, PARENT, ENABLE. -/
def openGangs (s : State) (n : Nat) (pl : Place) : State :=
  let t := (s.setBit (Pg.gang n + hCtrl) 0 true).giveRun n pl.rends.length
  pl.rends.foldl (fun t r =>
    ((t.setBit (Pg.gang r.gang + hCtrl) 0 true).setN (Pg.gang r.gang + hParent) (Pg.gang n / 0x1000)).giveRun r.gang r.slots.length) t

/-- Clear the gang pages of a released channel. -/
def closeGangs (s : State) (n : Nat) (pl : Place) : State :=
  (n :: pl.rends.map RendPl.gang).foldl (fun t g =>
    ((t.setBit (Pg.gang g + hCtrl) 0 false).setReg (Pg.gang g + hChild) 0).setReg (Pg.gang g + hParent) 0) s

/-- Lowest free rendition gang numbers (R48); `own` count as free. -/
def freeGangs (s : State) (n : Nat) : List Nat :=
  let used := s.chans.flatMap (fun e => if e.1 = n then [] else (placesOf e.2).flatMap (fun p => p.rends.map RendPl.gang))
  ((List.range 256).map (fun i => 128 + i)).filter (fun g => !(used.contains g))

/-! ### HBM extents (R52) -/

/-- Extents in use beside those of channel `n`. -/
def extentsBut (s : State) (n : Nat) : List (Nat × Nat) :=
  s.chans.flatMap (fun e => if e.1 = n then [] else (placesOf e.2).map (fun p => p.ext) ++ e.2.oldExt.toList ++
    (match e.2.newExt, e.2.place with | some a, some p => [(a, p.ext.2)] | _, _ => []))

/-- Lowest free run of `len` 2 MiB units in [lo, hi) that none of `used` overlaps. -/
def extentRun (used : List (Nat × Nat)) (lo hi len : Nat) : Option Nat :=
  firstThat (fun a => decide (lo ≤ a ∧ a + len ≤ hi) &&
    used.all (fun u => decide (a + len ≤ u.1 ∨ u.1 + u.2 ≤ a)))
    (sortBy (fun a b => decide (a ≤ b)) (lo :: used.map (fun u => u.1 + u.2)))

/-- First unit of the channel buffers (region 7) and the end of memory (R331, R343). -/
def extentBounds (s : State) : Nat × Nat := ((s.reg (Reg.hbmRegBase 7)).toNat, (s.reg Reg.hbmTop).toNat)

/-! ### Bandwidth (R58) -/

/-- Set bits of a word. -/
def popcount (w : Word) : Nat := ((List.range 32).filter (fun i => w.getLsbD i)).length

/-- MB/s charged by the placed channels other than `n`. -/
def bwBut (s : State) (n : Nat) : Nat := sumN (s.placed.map (fun e => if e.1 = n then 0 else e.2.bw))

/-- The ledger stays at or below the ceiling (R58). -/
def bwFits (s : State) (total : Nat) : Bool :=
  decide (total * 32000 ≤ 819200 * s.getF Reg.devBwCeil 9 0 * popcount (s.reg Reg.hbmActive))

/-- Bring BW_USED and STREAMS up to date (Table 2-7). -/
def syncDev (s : State) : State :=
  (s.setN Reg.devBwUsed (40000 + sumN (s.placed.map (fun e => e.2.bw)))).setN Reg.devStreams
    (sumN (s.placed.map (fun e => e.2.rends.length)))

/-! ### Home pairs, threads and control lines (R53 to R55, Table 13-1) -/

/-- Channels homed on a pair, channel `n` apart, in order of placement. -/
def homedBut (s : State) (p n : Nat) : List (Nat × Place) :=
  sortBy (fun a b => decide (a.2.order ≤ b.2.order)) (s.placed.filter (fun e => decide (e.1 ≠ n ∧ e.2.pair = p)))

/-- The home pair of R54. -/
def homePair (s : State) (n : Nat) : Option Nat :=
  minBy (fun p q => decide ((s.homedBut p n).length < (s.homedBut q n).length ∨
    ((s.homedBut p n).length = (s.homedBut q n).length ∧ p < q))) s.homePairs

/-- Write one channel thread's context (Table 13-1); a RUNNING thread moves at its dispatch point. -/
def chanThread (s : State) (n k prio dl pair : Nat) : State :=
  let t := 256 + 16 * n + k
  let x := s.thread t
  s.setThread t (if x.state = 3 then { x with dl := dl, en := true, freeing := false, newPrio := some prio, newAff := some (2 ^ pair) }
    else { x with prio := prio, aff := 2 ^ pair, dl := dl, en := true, state := if x.state = 0 then 1 else x.state })

/-- The contexts of a channel's threads (Table 13-1). -/
def chanThreads (s : State) (n dl pair : Nat) : State :=
  let t := (s.chanThread n 0 8 dl pair).chanThread n 1 12 0 pair
  [2, 3, 4, 5].foldl (fun t k => t.chanThread n k 16 0 pair) t

/-- The Belfry bindings of the multiplexing threads (Table 13-1). The spec does not name their sources
(Config.muxSource). -/
def chanBindings (s : State) (n : Nat) (on : Bool) : State :=
  (List.range 4).foldl (fun t r =>
    let w : Word := if on then BitVec.ofNat 32 (0x8000 + 256 + 16 * n + 2 + r) else 0
    { t with rv := { t.rv with bindings := Store.put (fun _ => (0 : Word)) t.rv.bindings (Config.muxSource n r % 4096) w } }) s

/-- Free a channel's threads. -/
def freeThreads (s : State) (n : Nat) : State :=
  (List.range 6).foldl (fun t k =>
    let i := 256 + 16 * n + k
    let x := t.thread i
    t.setThread i (if x.state = 3 then { x with cancel := true, rerun := false, freeing := true } else { x with en := false, state := 0 })) s

/-- Re-space one pair (R55): rank, control line and deadline of each channel homed on it. -/
def respacePair (s : State) (p : Nat) : State :=
  let l := s.homedBut p 128
  let m := l.length
  (l.zip (List.range m)).foldl (fun t e =>
    let (n, pl) := e.1
    let k := e.2
    let L := pl.cfg.lines
    let line := k * L / m + p * L / (8 * m)
    let t := t.setN (Reg.chAllotCore n) (p + k * 0x100 + m * 0x10000)
    let t := t.chanThread n 0 8 (L / m * rho pl.cfg / 262144) p
    if (t.chan n).running then
      t.modChan n (fun c => { c with ctrlNext := if t.getF (Reg.chAllotCtrlLine n) 13 0 = line then none else some line })
    else t.setN (Reg.chAllotCtrlLine n) line) s

/-- A pair off which channels are re-homed: DRAINING or FAILED (R289, R306). -/
def leaving (s : State) (p : Nat) : Bool := decide (s.pstate p = 2 ∨ s.pstate p = 6)

/-- Re-home one channel (R306): it reads MOVING until its threads have moved. -/
def rehome (s : State) (n : Nat) : State :=
  match s.homePair n with
  | none => s
  | some q =>
    let f (pl : Place) : Place := { pl with pair := q }
    let t := s.modChan n (fun c => { c with place := c.place.map f, next := c.next.map f, moving := true })
    let t := t.chanThreads n 0 q
    let t := if t.allotState n = 2 then t.setAllotState n 4 else t
    t.settleMove n

/-- Step 6 of R39: re-homing, then re-spacing of every pair. -/
def respace (s : State) : State :=
  let t := (s.placed.filter (fun e => s.leaving e.2.pair)).foldl (fun t e => t.rehome e.1) s
  (List.range 8).foldl respacePair t

/-! ### The digest (R56) -/

/-- First unit of a channel's extent, the new one from the start of a move on. -/
def extStart (s : State) (n : Nat) (pl : Place) : Nat := (s.chan n).newExt.getD pl.ext.1

/-- The items of a channel's placement record, in R56's order. -/
def placeItems (s : State) (n : Nat) (pl : Place) : List Nat :=
  n :: pl.rends.map RendPl.gang ++ pl.rends.flatMap RendPl.slots ++
    [s.extStart n pl, pl.ext.2, pl.pair, s.getF (Reg.chAllotCore n) 14 8, s.getF (Reg.chAllotCtrlLine n) 13 0, pl.grant]

/-- The placement records of the placed channels. -/
def placeRecord (s : State) : List (List Nat) := s.placed.map (fun e => s.placeItems e.1 e.2)

/-- DEV.PLACE_DIGEST. -/
def placeDigest (s : State) : BitVec 64 :=
  BitVec.ofNat 64 (crc64 (s.placed.flatMap (fun e => Config.placeBytes e.1 (s.placeItems e.1 e.2))))

/-- Step 7 of R39. -/
def updateDigest (s : State) : State := s.setReg64 Reg.devPlaceDigestLo Reg.devPlaceDigestHi s.placeDigest

/-! ### Taking and releasing resources -/

/-- Pair bookkeeping after channel `n` lost its contexts on slot `k`, or goes on there under `keep` (R75): the funder's pair
passes to the lowest-numbered channel that still has a REFILL context there, or is freed. -/
def passPair (s : State) (n k : Nat) (keep : Option Place) : State :=
  let x := s.slot k
  match x.pair with
  | some (l, f, inh) =>
    let heirs := (x.ctxs.filter (fun c => c.refill)).map (fun c => (c.ch, c.rend))
    let funds := match keep with
      | some pl => pl.rends.any (fun r => r.opens && decide (r.slots.headD 32 = k))
      | none => false
    if decide (f ≠ n) || funds || (inh && heirs.any (fun h => decide (h.1 = n))) then s
    else match minBy (fun a b => decide (a.1 < b.1)) heirs with
      | some (h, r) =>
        let t := s.setSlot k { x with pair := some (l, h, true) }
        let t := l.foldl (fun t p => t.setPlot p 3 h r (t.slotEng k)) t
        t.evt Pg.mp 3
      | none =>
        let t := s.setSlot k { x with pair := none }
        let t := l.foldl (fun t p => t.setPlot p 0 0 0 0) t
        t.evt Pg.mp 4
  | none => s

/-- Take channel `n`'s contexts of a placement out of the slots, and its plots out of the grant. -/
def dropPlace (s : State) (n : Nat) (pl : Place) (keep : Option Place) : State :=
  let kept (k r tile : Nat) : Bool := match keep with
    | some q => q.rends.any (fun x => decide (x.rend = r ∧ x.slots[tile]? = some k))
    | none => false
  let slots := pl.rends.flatMap RendPl.slots
  let t := slots.foldl (fun t k =>
    let x := t.slot k
    let ctxs := x.ctxs.filter (fun c => decide (c.ch ≠ n) || kept k c.rend c.tile)
    let gone := x.ctxs.filter (fun c => !(ctxs.contains c))
    -- a row of a context that goes is in coding no more
    let job := match x.job with | some j => if gone.any (fun c => decide (c.idx = j.ctx)) then none else some j | none => none
    let t := t.setSlot k (if ctxs.isEmpty then { x with ctxs := ctxs, shared := false, fmt := none, job := none } else { x with ctxs := ctxs, job := job })
    -- their RECON words and windows go with them (R119)
    { t with eng := { t.eng with recon := gone.foldl (fun m c => Store.put (fun _ => []) m (k * 16 + c.idx) []) t.eng.recon }
             mill := { t.mill with wins := gone.foldl (fun m c => Store.put (fun _ => none) m (k * 16 + c.idx) none) t.mill.wins } }) s
  let keepPlots := match keep with | some q => q.plots | none => []
  let pairs := slots.flatMap (fun k => match (s.slot k).pair with | some (l, _, _) => l | none => [])
  let t := pl.plots.foldl (fun t p => if keepPlots.contains p || pairs.contains p then t else t.setPlot p 0 0 0 0) t
  let t := slots.foldl (fun t k => t.passPair n k keep) t
  let t := t.closeGangs n pl
  (t.syncSlots slots).mpCounts

/-- AFLAGS of the period that closes (Table 16-4). -/
def airFlags (a : AirSt) (last : Bool) : Nat :=
  (if a.start then 1 else 0) + (if a.emerg then 2 else 0) + (if a.unlocked then 4 else 0) + (if a.quiesce then 8 else 0) +
  (if a.step then 16 else 0) + (if last then 32 else 0)

/-- PTP seconds at the start of the Steeple frame in progress, where every record period closes. -/
def secAtFrame (s : State) : Nat := s.ptpTime (posOf s.frame 0) 1

/-- A record period closes (R369, R370): the as-aired line is staged and the next period begins. A closed Book records nothing
(R428), and the chain stands. -/
def closeAir (s : State) (n : Nat) (last : Bool) : State :=
  let a := (s.chan n).air
  let next : AirSt := { a with count := 0, slices := [], start := false, emerg := false, unlocked := decide (s.stpSt ≠ 2), step := false
                               quiesce := (s.chan n).quiesce, sec := some s.secAtFrame }
  if a.sec.isNone then s
  else if s.book.closed then s.modChan n (fun c => { c with air := next })
  else
    let tail := leBytes 4 s.frame.toNat ++ leBytes 6 s.secAtFrame ++ leBytes 4 a.count ++ [airFlags a last, 0]
    let d := Config.sha256 (a.chain ++ ([4, 0] ++ leBytes 2 n ++ tail).map (BitVec.ofNat 8) ++ a.slices)
    let t := s.stageLine 2 4 0 n (((List.range 32).map (fun j => (d.getD j 0).toNat)) ++ tail)
    t.modChan n (fun c => { c with air := { next with chain := d } })

/-- Release everything a channel holds (R60, R63): it reads NONE, or SHED. Its last record period closes (Table 16-4). -/
def releaseChan (s : State) (n : Nat) (st : Nat) : State :=
  let s := s.closeAir n true
  let c := s.chan n
  let t := s.setChan n { c with place := none, next := none, running := false, stopping := false, endPos := none, newExt := none
                                oldExt := none, oldLeft := 0, extFrom := 0, moving := false, ctrlNext := none, ctrlDone := false, ready := [], rc := [], quiesce := false,
                                paused := false, skip := 0, cutFrames := [], starts := [], quiets := [], slices := [], outq := [], air := AirSt.init }
  let t := (placesOf c).foldl (fun t pl => t.dropPlace n pl none) t
  let t := (t.freeThreads n).chanBindings n false
  let t := [Reg.chAllotGang n, Reg.chAllotCore n, Reg.chAllotCtrlLine n, Reg.chAllotThread n, Reg.chAllotHbm n,
    Reg.chAllotRend n 0, Reg.chAllotRend n 1, Reg.chAllotRend n 2, Reg.chAllotRend n 3].foldl (fun t a => t.setReg a 0) t
  (((t.setBit (Pg.ch n + hStatus) 0 false).setAllotState n st).syncDev)

/-- Join the contexts of a new placement to those in force (R61). A slot that the new placement uses takes its format and
sharing at once, so that later joiners match it (R46); a context that stays takes its new window mode, and one that will go holds
no REFILL pair any more (R75). -/
def joinSlots (s : State) (n : Nat) (fresh : Store Slot) : State :=
  (List.range 32).foldl (fun t k =>
    let a := t.slot k
    let b := Store.get Slot.init fresh k
    let new := b.ctxs.filter (fun c => decide (c.ch = n))
    let same (d c : Ctx) : Bool := decide (d.ch = n ∧ d.rend = c.rend ∧ d.tile = c.tile)
    let old := a.ctxs.map (fun d => if d.ch = n then { d with refill := new.any (fun c => same d c && c.refill) } else d)
    let add := new.filter (fun c => !(a.ctxs.any (fun d => same d c)))
    let ctxs := add.foldl (fun l c => l ++ [if l.any (fun d => d.idx = c.idx) then { c with idx := freeIdx l } else c]) old
    if new.isEmpty then t.setSlot k { a with ctxs := old }
    else t.setSlot k { a with shared := b.shared, fmt := b.fmt, ctxs := ctxs }) s

/-- Bring the readbacks of Table 2-6 up to date. -/
def readbacks (s : State) (n : Nat) (pl : Place) : State :=
  let t := (s.setN (Reg.chAllotGang n) n).setN (Reg.chAllotThread n) (256 + 16 * n)
  let t := t.setN (Reg.chAllotHbm n) (pl.ext.1 + pl.ext.2 * 0x10000)
  let t := (List.range 4).foldl (fun t i => t.setReg (Reg.chAllotRend n i) 0) t
  pl.rends.foldl (fun t r => t.setN (Reg.chAllotRend n r.rend)
    (r.gang + r.slots.length * 0x10000 + (if r.shared then 0x100000 else 0) + r.slots.headD 0 * 0x1000000)) t

/-- Largest decoding-order-number difference of a rendition (R220): 0 where transmission order is decoding order, or a picture
is one unit. -/
def donDiff (c : ChanCfg) (r : RendCfg) : Nat :=
  let u := (units c r).length
  if orderIsDecoding c r || decide (u ≤ 1) || decide (fld r.format 1 0 = 2) then 0 else (tileCount c r - 1) * u - 1

/-- fs of the audio grid (R259). -/
def audFs (s : State) : Nat := if s.bit Reg.audCfg 0 then 96000 else 48000

/-- D × fs rounded up (R273). -/
def dSamples (s : State) (c : ChanCfg) : Nat :=
  let (n, d) := s.framePeriod
  ceilDiv (delayUnits c * n * s.audFs) (s.frameUnits * d)

/-- Readbacks of the egress and audio pages at a placement (R219, R220, R273). -/
def egressReadbacks (s : State) (n : Nat) (c : ChanCfg) (held : Bool) : State :=
  let t := c.rends.foldl (fun t r =>
    let t := t.setF (Reg.erendDonDiff n r.r) 15 0 (donDiff c r)
    if held then t else t.setReg (Reg.erendPkts n r.r) 0) s
  t.setF (Reg.chaudDSamples n) 15 0 (satTo 16 (s.dSamples c))

/-- A placement computed by the consistency check. -/
structure Plan where
  pl   : Place
  fresh : Store Slot
  deriving DecidableEq, Repr

/-- The tests that need resources, 14 to 20 (Table 2-4), over what is left: a plan, or the refusal. DEDUCED: a pair that a
HELD channel funds and other channels use does not count as free, as an inherited one does not (notes/assumptions/43.md). DESIGN
CHOICE: where no pair reads RUN or WFI the home pair is pair 0 (notes/assumptions/42.md). -/
def lateCheck (s : State) (n : Nat) (c : ChanCfg) (tr : Trial) : Refusing ⊕ Plan :=
  let own := (placesOf (s.chan n)).flatMap Place.plots
  let pairs := s.eng.slots.flatMap (fun e => match e.2.pair with
    | some (l, f, inh) => if inh || decide (f ≠ n) || e.2.ctxs.any (fun c => c.refill && decide (c.ch ≠ n)) then l else []
    | none => [])
  let free := s.freePlots (own.filter (fun p => !(pairs.contains p)))
  let bounds := s.extentBounds
  let len := extentUnits c
  let ext := extentRun (s.extentsBut n) bounds.1 bounds.2 len
  let bw := allotBw s n
  let streams := sumN (s.placed.map (fun e => if e.1 = n then 0 else e.2.rends.length))
  let held := (s.chan n).place.isSome
  match firstFail [
    need (decide (streams + c.rends.length ≤ 256)) 0x0203 1 0,
    need tr.ok 0x0201 1 0,
    need (decide (tr.need ≤ c.grant)) 0x0301 0x18 0,
    need (decide (c.grant ≤ free.length)) 0x0302 0x18 0,
    need ext.isSome 0x0202 1 0,
    need (s.bwFits (s.bwBut n + bw + 40000)) 0x0401 1 0,
    need (held || (List.range 16).all (fun k => decide ((s.thread (256 + 16 * n + k)).state = 0))) 0x0901 1 0] with
  | some r => .inl r
  | none =>
    let gangs := s.freeGangs n
    let rends := (tr.rends.zip (List.range tr.rends.length)).map (fun e => { e.1 with gang := gangs.getD e.2 128 })
    .inr { fresh := tr.slots
           pl := { rends := rends, ext := (ext.getD 0, len), plots := free.take c.grant, grant := c.grant, need := tr.need
                   pair := (s.homePair n).getD 0, order := s.eng.orderNext, d := delaySteeple c, bw := bw, cfg := c, epoch := s.frame } }

/-- Readbacks that the consistency check always computes (Table 2-6, R125, R128, R126). A need that its 9 bits cannot hold has
no stated readback: a free value (notes/assumptions/5.md). -/
def checkReadbacks (s : State) (n : Nat) (c : ChanCfg) (tr : Trial) : State :=
  let (i, s) := s.draw
  let need := if tr.need < 512 then tr.need else Config.freeNat i % 512
  let t := s.setN (Reg.chAllotPlots n) (need + tr.staging * 0x10000)
  -- a HELD channel's ALLOT_D changes when its new sequence starts (R141)
  let t := if (s.chan n).place.isSome then t else t.setF (Reg.chAllotD n) 23 0 (delaySteeple c)
  let t := (t.setN (Reg.chAllotBw n) (allotBw s n)).setN (Reg.chrcDMin n) (ceilDiv (dMinLines c * rho c) 262144)
  c.rends.foldl (fun t r => (t.setN (Reg.chrcCpbBits n r.r) (cpbBits c r)).setN (Reg.chrcRowCap n r.r) (rowCap c r)) t

/-- Take the resources of a plan (R46 to R55, R74). The plots of a HELD channel show its new placement from this epoch on, and
the pairs it leaves pass on (R75). DEDUCED: a plot that both placements hold shows the new one, although the old one still runs
until the next frame start; an ENABLE 0→1 of a channel that is stopping and not yet released is checked as that of a HELD one, and
its new placement stays PENDING in COMMISSION (notes/assumptions/43.md). -/
def takePlan (s : State) (n : Nat) (p : Plan) : State :=
  let c := s.chan n
  let held := c.place.isSome
  let pl := p.pl
  -- the shadow set becomes the set in use for the first frame (R151)
  let t := s.modChan n (fun c =>
    if held then { c with next := some pl, active := shadowSet s n }
    else { c with place := some pl, next := none, running := false, fresh := true, frame := 0, active := shadowSet s n, inUse := shadowSet s n, air := AirSt.init })
  let t := { t with eng := { t.eng with orderNext := t.eng.orderNext + 1, changed := true } }
  let t := t.joinSlots n p.fresh
  let left := match c.place with | some old => old.rends.flatMap RendPl.slots | none => []
  let t := left.foldl (fun t k => t.passPair n k (some pl)) t
  -- the pairs that its renditions open
  let plan := plotPlan pl.rends
  let t := pl.rends.foldl (fun t r =>
    if r.opens then
      let ps := (pl.plots.zip plan).filterMap (fun e => if e.2.1 = 3 ∧ e.2.2.1 = r.rend then some e.1 else none)
      let k := r.slots.headD 0
      t.setSlot k { t.slot k with pair := some (ps, n, false) }
    else t) t
  let t := t.writePlots n pl
  let t := (t.openGangs n pl).syncSlots (pl.rends.flatMap RendPl.slots)
  let t := ((t.chanThreads n 0 pl.pair).chanBindings n true).mpCounts
  let t := ((t.readbacks n pl).egressReadbacks n pl.cfg held).syncDev
  -- the placing epoch, which a later move leaves as it is
  (t.setF (Reg.chAllotState n) 31 16 (s.frame.toNat % 65536)).setN Reg.devEpoch s.frame.toNat

/-- A check that passes, or refuses, the channel at this epoch (R38, R40, R61). -/
def checkChan (s : State) (n : Nat) : State :=
  let c := chanCfg s n
  let tr := trial n c (slotsWithout s.eng.slots n)
  let t := s.checkReadbacks n c tr
  let t := t.setBit (Pg.ch n + hStatus) 2 false
  match firstFail [earlyTests s c, lateTests s c] with
  | some r => t.failCheck (Pg.ch n) r.code r.word r.page
  | none =>
    match s.lateCheck n c tr with
    | .inl r => t.failCheck (Pg.ch n) r.code r.word r.page
    | .inr p =>
      let t := (t.takePlan n p).activate (Pg.ch n)
      t.setAllotState n (if t.mode = 1 then 1 else 2)

/-! ### Engine failure, replacement and shedding (R63, R65, R457) -/

/-- PLOT_p.ENGINE of the plots that the contexts of a slot read (R76, R459), those of an inherited pair included. -/
def slotPlots (s : State) (k : Nat) : State :=
  let x := s.slot k
  let t := x.ctxs.foldl (fun t c => match shown (t.chan c.ch) with | some pl => t.writePlots c.ch pl | none => t) s
  match x.pair with
  | some (l, f, true) => l.foldl (fun t p => t.setPlot p 3 f (t.getF (Reg.mpPlot p) 13 12) (t.slotEng k)) t
  | _ => t

/-- Point a slot at another engine. -/
def giveSlot (s : State) (k : Nat) (e : Option Nat) : State :=
  let x := s.slot k
  let t := s.setSlot k { x with eng := e }
  let t := match x.eng with | some o => t.syncEngine o | none => t
  (t.syncSlots [k]).slotPlots k

/-- The ENGINES cause (Table 17-4): set while there is no LOAN or no STANDBY after a failure. -/
def sparesCause (s : State) : State :=
  if s.eng.loan.isSome && s.eng.standby.isSome then
    (if s.bit Reg.watchDegrCause 0 then s.clearCause 0 else s.guarantee)
  else s.guarantee

/-- The row in coding on a slot is lost (R65): its tile goes on from the next row. -/
def loseRow (s : State) (k : Nat) : State :=
  let x := s.slot k
  match x.job with
  | none => s
  | some j =>
    let t := s.setSlot k { x with job := none }
    let (width, first) := match (s.cfgOf j.ch).rends.find? (fun r => r.r = j.rend) with
      | some r => (tileCtus (ctuCols r) (tileCount (s.cfgOf j.ch) r) j.tile, unitOf (s.cfgOf j.ch) r j.row)
      | none => (0, 0)
    t.modChan j.ch (fun c =>
      let rc := Store.get (fun _ => RcSt.init) c.rc j.rend
      let n := Store.get (fun _ => 0) rc.tileRows j.tile
      let skip (tl : TileRc) : TileRc := { tl with left := tl.left - (width - j.done), num := tl.num + (width - j.done), bits := tl.base, pipe := [] }
      let units := rc.units.map (fun u =>
        if u.pic = j.pic ∧ u.row = first then { u with tiles := u.tiles.modify j.tile skip } else u)
      let rc := { rc with tileRows := Store.put (fun _ => 0) rc.tileRows j.tile (n + 1), lost := (j.tile, j.pic, j.row) :: rc.lost, units := units }
      { c with rc := Store.put (fun _ => RcSt.init) c.rc j.rend rc })

/-- The spare that takes work over, and the spares left: STANDBY, whose place the recalled LOAN engine takes, or with no STANDBY
the recalled engine itself (R65, R383). An engine on LOAN that has not failed passed the last test it completed. -/
def takeSpare (s : State) : Option Nat × State :=
  match s.eng.standby with
  | some b => (some b, { s with eng := { s.eng with standby := s.eng.loan, loan := none, loanPass := false, chosen := none } })
  | none => (s.eng.loan, { s with eng := { s.eng with loan := none, loanPass := false, chosen := none } })

/-- A channel whose work waits for an engine reads MOVING until the work goes on (R62, R65). -/
def waitMove (s : State) (k : Nat) : State :=
  ((s.slot k).ctxs.map Ctx.ch).eraseDups.foldl (fun t n =>
    let t := t.modChan n (fun c => { c with moving := true })
    if t.allotState n = 2 then t.setAllotState n 4 else t) s

/-- An engine is FAILED: its page's ENABLE reads 0 (R113). The row in its slot is lost, a spare takes the slot (R65); without one
the work waits for the next epoch. The Watch's fault is raised by the command. -/
def failEngine (s : State) (e : Nat) : State :=
  if 34 ≤ e || !(s.enabled (Pg.ee e)) then s
  else
    let t := s.setBit (Pg.ee e + hCtrl) 0 false
    let t := if s.eng.loan = some e then { t with eng := { t.eng with loan := none } }
      else if s.eng.standby = some e then { t with eng := { t.eng with standby := s.eng.loan, loan := none } }
      else match s.slotOf e with
        | some k =>
          let (sp, t) := (t.loseRow k).takeSpare
          let t := t.giveSlot k sp
          if sp.isSome then t else t.waitMove k
        | none => t
    let t := match t.eng.standby with | some b => t.syncEngine b | none => t
    ((t.syncEngine e).syncSpares).guarantee

/-- Slots whose work waits for an engine. -/
def stuckSlots (s : State) : List Nat :=
  (List.range 32).filter (fun k => (s.slot k).eng.isNone && !(s.slot k).ctxs.isEmpty)

/-- The work of a slot without an engine goes on: on a spare where there is one, else on the lowest-numbered free committed slot
(R39, R65). -/
def moveWork (s : State) (k : Nat) : State :=
  let chs := ((s.slot k).ctxs.map Ctx.ch).eraseDups
  match s.takeSpare, firstThat (fun j => slotFree (s.slot j)) (List.range 32) with
  | (some b, t), _ =>
    let t := t.giveSlot k (some b)
    let t := match t.eng.standby with | some e => t.syncEngine e | none => t
    (chs.foldl settleMove t).syncSpares
  | _, none => s
  | _, some j =>
    let x := s.slot k
    let sub (l : List Nat) := l.map (fun i => if i = k then j else i)
    let f (pl : Place) : Place := { pl with rends := pl.rends.map (fun r => { r with slots := sub r.slots }) }
    let t := s.setSlot j { x with eng := (s.slot j).eng, job := none }
    let t := t.setSlot k { Slot.init k with eng := none }
    let t := chs.foldl (fun t n =>
      let t := t.modChan n (fun c => { c with place := c.place.map f, next := c.next.map f })
      match shown (t.chan n) with | some pl => t.readbacks n pl | none => t) t
    (chs.foldl settleMove ((t.syncSlots [k, j]).slotPlots j)).setN Reg.devEpoch s.frame.toNat

/-- Step 1 of R39. -/
def replaceWork (s : State) : State := s.stuckSlots.foldl moveWork s

/-- Placed channels that are not shed, in shedding order: lowest SHED_ORDER, then highest number (R63). -/
def shedOrder (s : State) : List Nat :=
  sortBy (fun a b =>
    let x := s.getF (Reg.chShedOrder a) 7 0
    let y := s.getF (Reg.chShedOrder b) 7 0
    decide (x < y ∨ (x = y ∧ b ≤ a))) ((s.placed.map Prod.fst).filter (fun n => decide (s.allotState n ≠ 5)))

/-- Shed one channel (R63): it stops at its next frame start; one that is not running is released at once. -/
def shedChan (s : State) (n : Nat) : State :=
  let t := (s.setAllotState n 5).setBit (Pg.ch n + hStatus) 0 false
  let t := (t.setN (Pg.ch n + hFault) 0x2004).raise 0x2004 (Pg.ch n) n (s.getF (Reg.chShedOrder n) 7 0)
  let t := t.setCause 6
  if (t.chan n).running then t.modChan n (fun c => { c with stopping := true }) else t.releaseChan n 5

/-- A slot holds work of a channel that stays. -/
def holdsWork (s : State) (x : Slot) : Bool := x.ctxs.any (fun c => decide (s.allotState c.ch ≠ 5))

/-- Work of channels that stay outnumbers the slots it can have (R65). -/
def slotsShort (s : State) : Bool :=
  decide (((List.range 32).filter (fun k => (s.slot k).eng.isSome)).length <
    ((List.range 32).filter (fun k => s.holdsWork (s.slot k))).length)

/-- Step 2 of R39: shed until the work fits. Fuel: one channel at a time. -/
def shedWhile : Nat → State → State
  | 0, s => s
  | f + 1, s =>
    if s.slotsShort then
      match s.shedOrder with
      | n :: _ => shedWhile f (s.shedChan n).replaceWork
      | [] => s
    else s

/-- Channels whose last unit has left (R60). -/
def toRelease (s : State) : List Nat :=
  s.chans.filterMap (fun e => match e.2.endPos with
    | some p => if later p s.stp.pos then none else some e.1
    | none => none)

/-- Step 3 of R39. -/
def releaseEnded (s : State) : State :=
  s.toRelease.foldl (fun t n =>
    ((t.releaseChan n (if t.allotState n = 5 then 5 else 0)).setN Reg.devEpoch s.frame.toNat)) s

/-- Step 4 of R39: shed channels re-admitted through the check, highest rank first, lowest number within a rank. A
refusal here leaves the channel SHED with its ENABLE at 1. -/
def readmit (s : State) : State :=
  let l := sortBy
    (fun a b =>
      let x := s.getF (Reg.chShedOrder a) 7 0
      let y := s.getF (Reg.chShedOrder b) 7 0
      decide (y < x ∨ (x = y ∧ a ≤ b)))
    ((s.chans.map Prod.fst).filter (fun n => decide (s.allotState n = 5) && (s.chan n).place.isNone && s.enabled (Pg.ch n)))
  let t := l.foldl (fun t n =>
    let c := chanCfg t n
    let tr := trial n c (slotsWithout t.eng.slots n)
    let t := t.checkReadbacks n c tr
    match firstFail [earlyTests t c, lateTests t c], t.lateCheck n c tr with
    | none, .inr p =>
      (((t.takePlan n p).activate (Pg.ch n)).setAllotState n (if t.mode = 1 then 1 else 2)).unitDegraded (Pg.ch n) false
        |>.requestResync (BitVec.twoPow 128 n)
    | _, _ => t) s
  if t.bit Reg.watchDegrCause 6 && !((List.range 128).any (fun n => decide (t.allotState n = 5))) then t.clearCause 6 else t

/-- Step 5 of R39: enables in ascending channel number; in RECOVERY they stay BUSY (R43). -/
def enables (s : State) : State :=
  if s.mode = 4 then s
  else ((List.range 128).filter (fun n => s.bit (Pg.ch n + hStatus) 2 && s.enabled (Pg.ch n))).foldl checkChan s

/-! ### Compaction and moves of extents (R62) -/

/-- Frames until the last frame in the old extent has retired (R62). -/
def retireFrames (c : ChanCfg) : Nat := sourceFrames c

/-- Begin the move of a channel's extent to a run: a running channel writes to it from its next frame start. -/
def moveExtent (s : State) (n a : Nat) : State :=
  match (s.chan n).place with
  | none => s
  | some pl =>
    let t := if (s.chan n).running then s.modChan n (fun c => { c with newExt := some a, moving := true })
      else s.modChan n (fun c => { c with place := some { pl with ext := (a, pl.ext.2) } })
    let t := if (s.chan n).running ∧ t.allotState n = 2 then t.setAllotState n 4 else t
    (t.setN (Reg.chAllotHbm n) (a + pl.ext.2 * 0x10000)).setN Reg.devEpoch s.frame.toNat

/-- One compaction move (R62), or the end of compaction. -/
def compactStep (s : State) : State :=
  if s.eng.compact then
    let lo := s.extentBounds.1
    let all := s.extentsBut 128
    let cand := sortBy (fun a b => decide (a.2.ext.1 ≤ b.2.ext.1))
      (s.placed.filter (fun e => (s.chan e.1).oldExt.isNone && (s.chan e.1).newExt.isNone && (s.chan e.1).next.isNone))
    match cand.filterMap (fun e => (extentRun all lo e.2.ext.1 e.2.ext.2).map (fun a => (e.1, a))) with
    | (n, a) :: _ => s.moveExtent n a
    | [] => { s with eng := { s.eng with compact := false } }
  else s

/-! ### Fitting to the memory left (R343) -/

/-- Extents that a moved extent may not overlap: those of shed channels are being released (R63). -/
def fitExtents (s : State) (n : Nat) : List (Nat × Nat) :=
  s.chans.flatMap (fun e => if e.1 = n ∨ s.allotState e.1 = 5 then [] else
    (placesOf e.2).map (fun p => (s.extStart e.1 p, p.ext.2)) ++ e.2.oldExt.toList)

/-- Where an extent goes that ends beyond the memory left: the lowest free run (R62, R343). -/
def pushExtent (s : State) (n : Nat) : State :=
  match (s.chan n).place with
  | some pl =>
    match extentRun (s.fitExtents n) s.extentBounds.1 s.extentBounds.2 pl.ext.2 with
    | some a => s.moveExtent n a
    | none => s
  | none => s

/-- Placed channels whose extent ends beyond the memory left. -/
def beyondTop (s : State) : List Nat :=
  (s.placed.filter (fun e => decide (s.extentBounds.2 < s.extStart e.1 e.2 + e.2.ext.2) && decide (s.allotState e.1 ≠ 5))).map
    (fun e => e.1)

/-- Shed until every remaining extent fits, and the ledger its ceiling (R58, R63, R343). -/
def shedToFit : Nat → State → State
  | 0, s => s
  | f + 1, s =>
    let t := s.beyondTop.foldl pushExtent s
    let bw := 40000 + sumN ((t.placed.filter (fun e => decide (t.allotState e.1 ≠ 5))).map (fun e => e.2.bw))
    if t.beyondTop.isEmpty && t.bwFits bw then t
    else match t.shedOrder with
      | n :: _ => shedToFit f (t.shedChan n)
      | [] => t

/-- What a retirement since the last epoch asks of the Allotter (R38, R343). -/
def fitMemory (s : State) : State :=
  if s.eng.fitDue then shedToFit 128 { s with eng := { s.eng with fitDue := false } } else s

/-! ### The placement epoch (R39) -/

/-- DEV.EPOCH names the last epoch that changed a placement record (Table 2-7), which also defers a rotation (Table 2-11). -/
def noteEpoch (s : State) (before : List (List Nat)) : State :=
  if s.eng.changed || decide (s.placeRecord ≠ before) then
    ({ s with eng := { s.eng with changed := true } } : State).setN Reg.devEpoch s.frame.toNat
  else s

/-- Everything the Allotter does at line 0 of a Steeple frame. -/
def epoch (s : State) : State :=
  let t := { s with eng := { s.eng with changed := false } }
  let t := (shedWhile 128 t.replaceWork).fitMemory.releaseEnded
  let t := t.readmit.enables
  let t := t.compactStep
  (t.respace.noteEpoch s.placeRecord).updateDigest

end State
end Sys2Proof.Machine
end

