-- ==== Sys2Proof/Machine/InputOps.lean ====
section
/-! DEFINITION. Inputs as the commands of several chapters see them (08_ingest.md): binding, loss, frame starts, the raw input
stores and the DEGRADED cause of the paths. -/

namespace Sys2Proof.Machine

open State

/-- An input's state beside its registers. -/
def inp (s : State) (i : Nat) : Inp := Store.get (fun _ => Inp.init) s.ing.inps i
def setInp (s : State) (i : Nat) (x : Inp) : State :=
  { s with ing := { s.ing with inps := Store.put (fun _ => Inp.init) s.ing.inps i x } }
def modInp (s : State) (i : Nat) (f : Inp → Inp) : State := setInp s i (f (inp s i))

/-- ST, OUTPUT and CAUSE of INi.STATE. -/
def inSt (s : State) (i : Nat) : Nat := s.getF (Reg.inpState i) 1 0
def inOut (s : State) (i : Nat) : Nat := s.getF (Reg.inpState i) 5 4
def inCause (s : State) (i : Nat) : Nat := s.getF (Reg.inpState i) 10 8
def setInState (s : State) (i st out cause : Nat) : State := s.setN (Reg.inpState i) (st + out * 0x10 + cause * 0x100)

def inKind (s : State) (i : Nat) : Nat := s.getF (Reg.inpSrc i) 1 0
def inBundleA (s : State) (i : Nat) : Nat := s.getF (Reg.inpSrc i) 7 4
def inBundleB (s : State) (i : Nat) : Nat := s.getF (Reg.inpSrc i) 11 8
def inStream (s : State) (i : Nat) : Nat := s.getF (Reg.inpSrc i) 15 12
/-- PATHS selects path A or B. -/
def inPath (s : State) (i : Nat) (pathB : Bool) : Bool := s.bit (Reg.inpSrc i) (if pathB then 17 else 16)

/-- The input receives: it is enabled, and not lost for CAPACITY, whose packets are discarded (R213). -/
def inReceives (s : State) (i : Nat) : Bool := decide (inSt s i ≠ 0) && !decide (inSt s i = 3 ∧ inCause s i = 4)

/-- Key of the link that a BUNDLE field names: link 9X for 9 (R203). -/
def linkKeyOf (b : Nat) : Nat := if b = 9 then 19 else 2 * b

/-- Links that carry an input. -/
def inLinks (s : State) (i : Nat) : List Nat :=
  match inKind s i with
  | 1 => [linkKeyOf (inBundleA s i)]
  | 2 => [linkKeyOf (inBundleA s i), linkKeyOf (inBundleB s i)]
  | _ => []

/-- Inputs bound to a link, ascending. -/
def inputsOn (s : State) (key : Nat) : List Nat :=
  (List.range 128).filter (fun i => decide (inSt s i ≠ 0) && (inLinks s i).contains key)

/-- Inputs that a packet's STREAM on a bundle names. -/
def inputsFor (s : State) (key stream : Nat) : List Nat := (inputsOn s key).filter (fun i => inStream s i = stream)

/-- Bytes of one line part (R199): samples of a line, or of half of it for a pair. -/
def partBytes (s : State) (i : Nat) : Nat :=
  let n := 2 * s.getF (Reg.inpGeom i) 13 0 / (if inKind s i = 2 then 2 else 1)
  if s.bit (Reg.inpTiming i) 17 then ceilDiv n 4 * 5 else n

/-- Need of an input on one link in bit/s, as numerator and denominator (R213). -/
def partNeed (s : State) (i : Nat) : Nat × Nat :=
  (8 * (partBytes s i + 12) * s.getF (Reg.inpFps i) 19 0 * s.getF (Reg.inpTiming i) 13 0, max 1 (s.getF (Reg.inpFps i) 29 20))

/-- Sum of two fractions. -/
def addFrac (a b : Nat × Nat) : Nat × Nat := (a.1 * b.2 + b.1 * a.2, a.2 * b.2)

/-- Needs of a list of inputs, summed; an input whose two parts use the link counts both. -/
def sumNeeds (s : State) (key : Nat) (l : List Nat) : Nat × Nat :=
  l.foldl (fun a i => addFrac a (let q := partNeed s i; (q.1 * ((inLinks s i).filter (fun k => k = key)).length, q.2))) (0, 1)

/-- Payload per lane in Gbit/s (Table 7-2). -/
def laneGbits (rate : Nat) : Nat :=
  match rate with
  | 0 => 3 | 1 => 6 | 2 => 8 | 3 => 10 | 4 => 12 | _ => 0

/-- DATA lanes in use on a link (LINK_STATE [23:16]). -/
def dataInUse (s : State) (key : Nat) : List Nat := lanesIn (s.getF (Reg.clpLinkState (key / 2)) 23 16) (linkLanes key)

/-- The inputs fit a link (R213): their needs are at most 0.98 × lanes × payload per lane. -/
def linkFits (s : State) (key : Nat) (l : List Nat) : Bool :=
  let q := sumNeeds s key l
  decide (q.1 * 100 ≤ 98 * (dataInUse s key).length * laneGbits (s.getF (Reg.clpCfg (key / 2)) 2 0) * 1000000000 * q.2)

/-- Inputs on a link that are not already lost for CAPACITY. -/
def loadedOn (s : State) (key : Nat) : List Nat := (inputsOn s key).filter (inReceives s)

/-! ### The raw input stores (R199) -/

/-- Parity of the raw-store frame that a channel writes. -/
def rawPar (s : State) (n : Nat) : Nat := Store.get (fun _ => 0) s.ing.par n

/-- Key of a line part in a channel's raw input store. -/
def rawKey (n par line half : Nat) : Nat := ((n * 2 + par) * 16384 + line) * 3 + half

def rawPart (s : State) (n par line half : Nat) : List (BitVec 16) :=
  Store.get (fun _ => ([] : List (BitVec 16))) s.ing.raw (rawKey n par line half)
def setRaw (s : State) (n par line half : Nat) (l : List (BitVec 16)) : State :=
  { s with ing := { s.ing with raw := Store.put (fun _ => ([] : List (BitVec 16))) s.ing.raw (rawKey n par line half) l } }

/-- Placed channels that an input feeds. -/
def channelsOf (s : State) (i : Nat) : List Nat :=
  (s.chans.filter (fun e => match e.2.place with | some pl => decide (pl.cfg.input = i) | none => false)).map (fun e => e.1)

/-- The part of the frame before stands in place of a line part (R211), in the raw store of a unit: a channel, or from 128 on the FIFO of
an input. -/
def repeatIn (s : State) (u line half : Nat) : State := setRaw s u (rawPar s u) line half (rawPart s u (1 - rawPar s u) line half)

/-- The same in the store of every channel that an input feeds and in its FIFO. -/
def repeatPart (s : State) (i line half : Nat) : State := ((128 + i) :: channelsOf s i).foldl (fun t u => repeatIn t u line half) s

/-! ### Time of an input's lines (R204) -/

/-- Steeple frames of a frame of the input: the Steeple rate over its rate, at least 1. -/
def inputDiv (s : State) (i : Nat) : Nat :=
  let (n, d) := s.framePeriod
  max 1 (d * max 1 (s.getF (Reg.inpFps i) 29 20) / max 1 (n * s.getF (Reg.inpFps i) 19 0))

/-- LINES of an input, at least 1. -/
def inLines (s : State) (i : Nat) : Nat := max 1 (s.getF (Reg.inpTiming i) 13 0)

/-- FRAC units of a frame of an input. -/
def inUnits (s : State) (i : Nat) : Nat := inputDiv s i * s.frameUnits

/-- FRAC units since Steeple frame `f`. -/
def unitsSince (s : State) (f : BitVec 32) : Nat := (s.frame - f).toNat * s.frameUnits + s.inFrame

/-- The position at which channel line `l` of an input's frame that began at Steeple frame `f` starts. -/
def inLinePos (s : State) (i : Nat) (f : BitVec 32) (l : Nat) : BitVec 64 :=
  s.posAdd (State.posOf f 0) (ceilDiv (l * inUnits s i) (inLines s i))

/-- `l` lines of an input last at most `u` units. -/
def linesWithin (s : State) (i l u : Nat) : Bool := decide (l * inUnits s i ≤ u * inLines s i)

/-- A of R204: 64 lines, or for ST 2110-20 the whole number of lines in the effective PD_MAX. -/
def inAhead (s : State) (i : Nat) : Nat :=
  if inKind s i = 3 then
    s.getF (Reg.inpPdMax i) 29 16 * s.getF (Reg.inpFps i) 19 0 * inLines s i / (max 1 (s.getF (Reg.inpFps i) 29 20) * 1000000)
  else 64

/-- A line part against the window of its line (R204): in it, before it, after it. -/
inductive Timing where
  | inTime | early | late
  deriving DecidableEq, Repr

/-- The timing of a part of channel line `l` of the frame in progress, or of the next, that lands now. Before the first frame of an
input, and once no frame of it is in progress, nothing is early or late. -/
def lineTiming (s : State) (i l : Nat) (ahead : Bool) : Timing :=
  match (inp s i).startAt with
  | none => .inTime
  | some f =>
    let u := unitsSince s f
    let l := if ahead then l + inLines s i else l
    if 2 * inUnits s i ≤ u then .inTime
    else if linesWithin s i (l + 1) u then .late
    else if inAhead s i < l && !(linesWithin s i (l - inAhead s i) u) then .early
    else .inTime

/-- Active channel lines of an input, in order (R204). -/
def activeLines (s : State) (i : Nat) : Nat → Option Nat := fun l =>
  let h := s.getF (Reg.inpGeom i) 29 16
  if s.bit (Reg.inpTiming i) 16 then
    let b := s.getF (Reg.inpTiming i) 13 0 / 2
    if l < h / 2 then some l else if b ≤ l ∧ l < b + h / 2 then some (h / 2 + (l - b)) else none
  else if l < h then some l else none

/-- The line is the last active line of the input's frame. -/
def lastActive (s : State) (i l : Nat) : Bool :=
  decide (activeLines s i l = some ((if s.bit (Reg.inpTiming i) 16 then s.getF (Reg.inpGeom i) 29 16 / 2 * 2 else s.getF (Reg.inpGeom i) 29 16) - 1))

/-- Line parts of a frame of the input (R203). -/
def partsOf (s : State) (i : Nat) : Nat :=
  let h := s.getF (Reg.inpGeom i) 29 16
  (if s.bit (Reg.inpTiming i) 16 then h / 2 * 2 else h) * (if inKind s i = 2 then 2 else 1)

/-! ### PTP lock (R209) -/

/-- SLAVE_ONLY, set or in force while Steeple selects PTP (R249). -/
def slaveOnly (s : State) : Bool := s.bit Reg.ptpCfg 16 || decide (s.getF Reg.stpSrc 2 0 = 2)

/-- The master role on a port (R249): the BMCA gives it and MASTER_EN permits it. -/
def masterOn (s : State) (x : Nat) : Bool :=
  s.enabled Pg.ptp && !(slaveOnly s) && s.ptp.master.getLsbD x && s.bit Reg.ptpCfg (4 + x) && s.enabled (Pg.eth x)

/-- MAP or the position has been written anew and the local time with it: the grandmaster's time stays, and so the difference moves (R209,
R254). `before`: the local time before. -/
def keepGmTime (t : State) (before : Nat) : State :=
  { t with ptp := { t.ptp with diff := if (List.range 4).any (masterOn t) then 0 else t.ptp.diff + before - t.localTime } }

/-- Port state SLAVE of IEEE 1588 is 9. -/
def ptpLock (s : State) (i : Nat) : Bool :=
  (s.enabled Pg.ptp && decide (s.getF Reg.ptpPortState 3 0 = 9) && !s.ptp.lost) ||
  (inPath s i false && masterOn s 0) || (inPath s i true && masterOn s 1)

/-! ### Loss and return (R212 to R214) -/

/-- An input becomes LOST (R212): the parts that have landed for lines that have not begun are repeated as well. A CAPACITY loss is reported over an earlier cause (Table 8-5). -/
def declareLost (s : State) (i cause : Nat) : State :=
  if inSt s i = 0 then s
  else if inSt s i = 3 then if cause = 4 then setInState s i 3 (inOut s i) 4 else s
  else
    let t := setInState s i 3 1 cause
    let t := modInp t i (fun x => { x with lostAt := s.frame, clean := false })
    let begun (l : Nat) : Bool := match (inp s i).startAt with
      | some f => decide (l * inUnits s i < unitsSince s f * inLines s i)
      | none => false
    let t := ((inp s i).landed.filter (fun k => !(begun (k / 3)))).foldl (fun t k => repeatPart t i (k / 3) (k % 3)) t
    (t.evt (Pg.inp i) 0).raise 0x4004 (Pg.inp i) i (t.reg (Reg.inpState i)).toNat

/-- At a narrowing inputs are declared CAPACITY lost, highest number first, until the rest fit (R213). -/
def shedInputs (s : State) (key : Nat) : State :=
  (loadedOn s key).reverse.foldl (fun t i => if linkFits t key (loadedOn t key) then t else declareLost t i 4) s

/-- STATE of a link: 0 DOWN, 1 TRAINING, 2 UP, 3 UP_SPARED, 4 NARROWED. -/
def linkState (s : State) (key : Nat) : Nat :=
  if key = 19 then s.getF (Reg.clpLinkState 9) 26 24 else s.getF (Reg.clpLinkState (key / 2)) 2 0

/-- What a return needs beside a clean frame (R214): PTP lock for NO_PTP, room for CAPACITY. -/
def mayReturn (s : State) (i : Nat) : Bool :=
  (decide (inKind s i ≠ 3) || ptpLock s i) &&
  (decide (inCause s i ≠ 4) || (inLinks s i).all (fun k => decide (linkState s k ≠ 0) && linkFits s k (i :: loadedOn s k)))

/-! ### Channel frames of an input -/

/-- The raw store of a channel, or from 128 on the FIFO of an input (R148), turns to its other frame. -/
def turnRaw (s : State) (u : Nat) : State :=
  { s with ing := { s.ing with par := Store.put (fun _ => 0) s.ing.par u (1 - rawPar s u) } }

/-- The frame that ends has landed whole, without a missing part or a mismatched format packet (R214). -/
def frameClean (s : State) (i : Nat) : Bool :=
  let x := inp s i
  x.clean && x.startAt.isSome && decide (partsOf s i ≤ x.landed.length)

/-- A lost input stays lost at this frame start: the parts that have landed ahead are repeated in a unit's store (R212). -/
def holdFrozen (s : State) (i u : Nat) : State :=
  if decide (inSt s i = 3) && !((inp s i).wasClean && mayReturn s i) then
    (inp s i).landed.foldl (fun t k => repeatIn t u (k / 3) (k % 3)) s
  else s

/-- A frame of an input begins; a frame that begins without PTP lock is no clean frame of an ST 2110-20 input (R214). -/
def beginInput (s : State) (i : Nat) : State :=
  let x := inp s i
  if x.startAt = some s.frame then s
  else holdFrozen (setInp (turnRaw s (128 + i)) i
    { x with tag := x.tagNext, tagNext := none, landed := x.early, early := [], missed := [], cover := x.coverNext, coverNext := []
             land := x.landNext, landNext := [], clean := decide (inKind s i ≠ 3) || ptpLock s i
             wasClean := frameClean s i, startAt := some s.frame, arrived := (false, false) }) i (128 + i)

/-- Inputs that the live layers of a channel name (R148). -/
def liveInputs (c : ChanCfg) : List Nat :=
  (c.layers.drop 1).flatMap (fun w => if w.getLsbD 0 && w.getLsbD 1 then fld w 14 8 :: (if w.getLsbD 23 then [fld w 22 16] else []) else [])

/-- A frame of channel `n` begins: its raw store turns to the other frame, and the frames of its inputs begin with it. -/
def inputFrame (s : State) (n : Nat) : State :=
  let c := s.cfgOf n
  holdFrozen ((c.input :: liveInputs c).foldl beginInput (turnRaw s n)) c.input n

/-! ### Paths (Table 17-4, cause 8) -/

/-- An ingest path is down. -/
def inDown (x : Inp) (pathB : Bool) : Bool := if pathB then x.down.2 else x.down.1

/-- Sub-ports of a line port's configuration (Table 10-1); a cascade port has one. -/
def subPorts (s : State) (x : Nat) : Nat :=
  if 2 ≤ x then 1 else match s.getF (Reg.ethMode x) 1 0 with | 0 => 1 | 1 => 2 | 2 => 4 | _ => 0

/-- Every sub-port of an enabled line port is up (LINK). -/
def portAllUp (s : State) (x : Nat) : Bool := (List.range (subPorts s x)).all (fun k => s.bit (Reg.ethLink x) k)

/-- Every ingest path and line port that was down is up: the PATH cause clears. `STATUS.DEGRADED` of a unit that is up
clears with it (R451). -/
def settlePaths (s : State) : State :=
  let badIn := (s.ing.inps.filter (fun e => e.2.down.1 || e.2.down.2)).map (fun e => e.1)
  let badPort := [0, 1, 2, 3].filter (fun x => s.bit (Pg.eth x + hStatus) 4 && !(portAllUp s x))
  let t := [0, 1, 2, 3].foldl (fun t x => if badPort.contains x then t else t.unitDegraded (Pg.eth x) false) s
  if badIn.isEmpty && badPort.isEmpty then t.clearCause 8 else t

end Sys2Proof.Machine
end

