-- ==== Sys2Proof/Machine/Picture.lean ====
section
/-! DEFINITION. Stored pictures: the layout of R116 over HBM, the buffers of a channel's extent (Table 2-5), and the live picture in
the raw input store (R199). -/

namespace Sys2Proof.Machine

open State

/-! ### Samples in HBM (R116) -/

/-- Four 10-bit samples in a 5-byte group (R116), zeros filling the last. -/
def pack10 (l : List Nat) : List Nat :=
  (List.range (ceilDiv l.length 4)).flatMap (fun g =>
    leBytes 5 (l.getD (4 * g) 0 + l.getD (4 * g + 1) 0 * 2 ^ 10 + l.getD (4 * g + 2) 0 * 2 ^ 20 + l.getD (4 * g + 3) 0 * 2 ^ 30))

/-- Sample `i` of the line that begins at a byte address. -/
def lineSample (s : State) (a : Nat) (deep : Bool) (i : Nat) : Nat :=
  if deep then leVal (s.memBytes (a + i / 4 * 5) 5) / 2 ^ (10 * (i % 4)) % 1024 else (s.memByte (a + i)).toNat

/-- Write samples of a line from sample `i` on, a multiple of 4. -/
def setSamples (s : State) (a : Nat) (deep : Bool) (i : Nat) (l : List Nat) : State :=
  if deep then s.setMem (a + i / 4 * 5) ((pack10 l).map (BitVec.ofNat 8)) else s.setMem (a + i) (l.map (BitVec.ofNat 8))

/-- A stored picture: base address, width, height, sampling, depth. -/
structure Pic where
  base : Nat
  w    : Nat
  h    : Nat
  c422 : Bool
  deep : Bool
  deriving DecidableEq, Repr

/-- Lines of the chroma plane. -/
def Pic.chromaH (p : Pic) : Nat := if p.c422 then p.h else p.h / 2

/-- Address of luma line `y`, and of chroma line `y`, Cb and Cr in turn. -/
def Pic.lumaLine (p : Pic) (y : Nat) : Nat := p.base + y * pitch p.w p.deep
def Pic.chromaLine (p : Pic) (y : Nat) : Nat := p.base + (p.h + y) * pitch p.w p.deep

def lumaAt (s : State) (p : Pic) (x y : Nat) : Nat := lineSample s (p.lumaLine y) p.deep x
/-- Chroma sample `x` of a line: component 0 Cb, 1 Cr. -/
def chromaAt (s : State) (p : Pic) (k x y : Nat) : Nat := lineSample s (p.chromaLine y) p.deep (2 * x + k)

/-- Samples of a block of luma columns [x0, x1) and lines [y0, y1): luma, then Cb, then Cr. -/
def blockOf (s : State) (p : Pic) (x0 x1 y0 y1 : Nat) : List Nat :=
  let v (y : Nat) : Nat := if p.c422 then y else y / 2
  let plane (f : Nat → Nat → Nat) (a b c d : Nat) : List Nat :=
    (List.range (d - c)).flatMap (fun j => (List.range (b - a)).map (fun i => f (a + i) (c + j)))
  plane (lumaAt s p) x0 x1 y0 y1 ++ plane (chromaAt s p 0) (x0 / 2) (x1 / 2) (v y0) (v y1) ++
    plane (chromaAt s p 1) (x0 / 2) (x1 / 2) (v y0) (v y1)

/-- Write such a block. -/
def setBlock (s : State) (p : Pic) (x0 x1 y0 y1 : Nat) (l : List Nat) : State :=
  let v (y : Nat) : Nat := if p.c422 then y else y / 2
  let n := x1 - x0
  let m := n / 2
  let nl := n * (y1 - y0)
  let nc := m * (v y1 - v y0)
  let t := (List.range (y1 - y0)).foldl (fun t j => setSamples t (p.lumaLine (y0 + j)) p.deep x0 ((l.drop (n * j)).take n)) s
  (List.range (v y1 - v y0)).foldl (fun t j =>
    let cb := (l.drop (nl + m * j)).take m
    let cr := (l.drop (nl + nc + m * j)).take m
    setSamples t (p.chromaLine (v y0 + j)) p.deep x0 ((List.range m).flatMap (fun i => [cb.getD i 0, cr.getD i 0]))) t

/-! ### The buffers of an extent (R52, R62) -/

/-- First unit of the extent that holds the buffers of frame `i` of the sequence (R62). -/
def extOf (ch : Chan) (i : Nat) : Nat :=
  match ch.oldExt, ch.place with
  | some e, some pl => if i < ch.extFrom then e.1 else pl.ext.1
  | none, some pl => pl.ext.1
  | _, none => 0

/-- The encode source of frame `i` of the sequence; the frame holds both fields of an interlaced channel, line about line. -/
def sourcePic (s : State) (n i : Nat) : Pic :=
  let c := s.cfgOf n
  ⟨extOf (s.chan n) i * 0x200000 + Config.bufferAt n 1 0 i, c.w, c.h, c.c422, c.deep⟩

/-- The scaled source of ladder stage `k` (from 0). -/
def scaledPic (s : State) (n k i : Nat) : Pic :=
  let c := s.cfgOf n
  let g := c.stages.getD k (false, 0, 0)
  ⟨extOf (s.chan n) i * 0x200000 + Config.bufferAt n 2 k i, g.2.1, g.2.2, c.c422, c.deep⟩

/-- The reconstruction of picture `m` (decoding order) of a rendition, whose input picture is `pic`. -/
def reconPic (s : State) (n : Nat) (r : RendCfg) (m pic : Nat) : Pic :=
  let c := s.cfgOf n
  ⟨extOf (s.chan n) (pic / picsPerFrame c) * 0x200000 + Config.bufferAt n 3 r.r m, r.w, picH c r, c.c422, c.deep⟩

/-- The picture that a rendition's source field is taken from, its first column and the line of line `y` of picture `pic`: the
encode source, or the centred crop of a scaled source (R168). -/
def sourceOf (s : State) (n : Nat) (r : RendCfg) (pic : Nat) : Pic × Nat :=
  let i := pic / picsPerFrame (s.cfgOf n)
  if r.source = 0 then (sourcePic s n i, 0)
  else
    let p := scaledPic s n (r.source - 1) i
    (p, (p.w - r.w) / 16 * 8)

/-- Frame line of line `y` of field `f` (R109, R147). -/
def frameLine (c : ChanCfg) (f y : Nat) : Nat := if c.interl then 2 * y + f else y

/-- Source samples of a block of a rendition's picture: luma, then Cb, then Cr. -/
def sourceBlock (s : State) (n : Nat) (r : RendCfg) (pic x0 x1 y0 y1 : Nat) : List Nat :=
  let c := s.cfgOf n
  let f := pic % picsPerFrame c
  let (p, dx) := sourceOf s n r pic
  let v (y : Nat) : Nat := if c.c422 then y else y / 2
  let plane (g : Nat → Nat → Nat) (a b lo hi : Nat) : List Nat :=
    (List.range (hi - lo)).flatMap (fun j => (List.range (b - a)).map (fun i => g (a + i) (frameLine c f (lo + j))))
  plane (lumaAt s p) (dx + x0) (dx + x1) y0 y1 ++ plane (chromaAt s p 0) ((dx + x0) / 2) ((dx + x1) / 2) (v y0) (v y1) ++
    plane (chromaAt s p 1) ((dx + x0) / 2) ((dx + x1) / 2) (v y0) (v y1)

/-! ### The live picture (R199) -/

/-- Samples of line `l` in the order Cb0 Y0 Cr0 Y1 …: the whole line, or the pairs of its two parts in turn; at 10 bits. -/
def rawLine (s : State) (u par l : Nat) (deep : Bool) : List Nat :=
  let whole := rawPart s u par l 0
  let up (v : BitVec 16) : Nat := if deep then v.toNat else v.toNat * 4
  if whole.isEmpty then
    let a := chunks 4 (rawPart s u par l 1).length (rawPart s u par l 1)
    let b := chunks 4 (rawPart s u par l 2).length (rawPart s u par l 2)
    ((List.range (max a.length b.length)).flatMap (fun k => a.getD k [] ++ b.getD k [])).map up
  else whole.map up

/-- Y', Cb and Cr of a line of samples at 10 bits. -/
def lineY (l : List Nat) (x : Nat) : Nat := l.getD (2 * x + 1) 0
def lineCb (l : List Nat) (k : Nat) : Nat := l.getD (4 * k) 0
def lineCr (l : List Nat) (k : Nat) : Nat := l.getD (4 * k + 2) 0

/-- Field and field line of a channel line that carries picture (R204). -/
def pictureLine (c : ChanCfg) (l : Nat) : Option (Nat × Nat) :=
  let h := c.h / picsPerFrame c
  if l < h then some (0, l)
  else if c.interl ∧ fieldLine c 1 ≤ l ∧ l < fieldLine c 1 + h then some (1, l - fieldLine c 1)
  else none

/-- A line of black: Y' 64, Cb and Cr 512 (R212). -/
def blackLine (w : Nat) : List Nat := (List.range (2 * w)).map (fun k => if k % 2 = 0 then 512 else 64)

/-- A line of the slate at SLATE_ADDR, 4:2:2 in the layout of R116 at the channel's size, at 10 bits (R212). -/
def slateLine (s : State) (i w h y : Nat) (deep : Bool) : List Nat :=
  let p : Pic := ⟨s.getF (Reg.inpSlateHi i) 2 0 * 2 ^ 32 + (s.reg (Reg.inpSlateLo i)).toNat, w, h, true, deep⟩
  let up (v : Nat) : Nat := if deep then v else v * 4
  (List.range (2 * w)).map (fun k => up (if k % 2 = 1 then lumaAt s p (k / 2) y else chromaAt s p (k / 2 % 2) (k / 4) y))

/-- A channel line of an input's picture, as the channel's raw store (`u` the channel) or the input's FIFO (`u` 128 + i) holds it, or
as LOSS.MODE has it while the input is LOST. -/
def inputPicture (s : State) (c : ChanCfg) (u i l : Nat) (deep : Bool) : List Nat :=
  match inOut s i, pictureLine c l with
  | 2, _ => blackLine c.w
  | 3, some (f, y) => slateLine s i c.w c.h (frameLine c f y) c.deep
  | _, _ => rawLine s u (rawPar s u) l deep

/-- Line of the channel's live picture in the frame in progress, by channel line. -/
def liveLine (s : State) (n l : Nat) : List Nat := inputPicture s (s.cfgOf n) n (s.cfgOf n).input l (s.cfgOf n).deep

/-- Position at which a line of an input's frame in progress landed, or was repeated (R149, R204). -/
def landedAt (s : State) (i l : Nat) : Option (BitVec 64) := Store.get (fun _ => none) (inp s i).land l

/-! ### Uncorrectable read data (R346) -/

/-- A failed read of master `m` is still to be handled: it fell in this Steeple frame or the one before (notes/assumptions/32.md). -/
def stillFails (s : State) (m : Nat) (e : FailedRead) : Bool := decide (e.master = m ∧ (s.frame - e.frame).toNat ≤ 1)

/-- A span of bytes meets a 64-byte line. -/
def meetsLine (line a n : Nat) : Bool := decide (line * 64 < a + n ∧ a < line * 64 + 64)

/-- The data that master `m` reads in `n` bytes from `a` is uncorrectable. -/
def readFails (s : State) (m a n : Nat) : Bool := s.hbm.failed.any (fun e => stillFails s m e && meetsLine e.line a n)

/-- Master `m` has handled what it read in some spans of bytes. -/
def readDone (s : State) (m : Nat) (l : List (Nat × Nat)) : State :=
  { s with hbm := { s.hbm with failed := s.hbm.failed.filter (fun e => !(decide (e.master = m) && l.any (fun x => meetsLine e.line x.1 x.2))) } }

/-- Master `m` has handled every failed read of its own. -/
def failsHandled (s : State) (m : Nat) : State := { s with hbm := { s.hbm with failed := s.hbm.failed.filter (fun e => decide (e.master ≠ m)) } }

/-- Sample `i` of a line that begins at a byte address is uncorrectable. -/
def sampleFails (s : State) (m a : Nat) (deep : Bool) (i : Nat) : Bool :=
  if deep then readFails s m (a + i / 4 * 5) 5 else readFails s m (a + i) 1

/-- Luma line `y` and chroma line `v` of a picture, as spans of bytes. -/
def Pic.spans (p : Pic) (y v : Nat) : List (Nat × Nat) := [(p.lumaLine y, pitch p.w p.deep), (p.chromaLine v, pitch p.w p.deep)]

/-- A frame of a channel's raw input store in its extent (Table 2-5, R199). -/
def rawPic (s : State) (n par : Nat) : Pic :=
  let c := s.cfgOf n
  ⟨extOf (s.chan n) ((s.chan n).frame - 1) * 0x200000 + Config.bufferAt n 0 par 0, c.w, c.h, true, c.deep⟩

/-- Sample `k` of line `y` of such a frame, in the order Cb0 Y0 Cr0 Y1 …, is uncorrectable. -/
def rawFails (s : State) (m n par y k : Nat) : Bool :=
  let p := rawPic s n par
  sampleFails s m (if k % 2 = 1 then p.lumaLine y else p.chromaLine y) p.deep (k / 2)

/-- A sample of black at 10 bits, by its place in that order. -/
def blackAt (k : Nat) : Nat := if k % 2 = 0 then 512 else 64

/-- The lines of the raw store that a channel line lies in; none where LOSS.MODE gives the line. -/
def rawSpans (s : State) (n par l : Nat) : List (Nat × Nat) :=
  let c := s.cfgOf n
  match inOut s c.input, pictureLine c l with
  | 2, _ => []
  | 3, _ => []
  | _, some (f, y) => (rawPic s n par).spans (frameLine c f y) (frameLine c f y)
  | _, none => []

/-- Layer 0 of a channel line as the compositors read it: failing samples are the co-sited ones of the channel frame before, or black
where those fail too (R346). -/
def baseLine (s : State) (n l : Nat) : List Nat :=
  let c := s.cfgOf n
  let live := liveLine s n l
  let par := rawPar s n
  if (rawSpans s n par l).any (fun e => readFails s 36 e.1 e.2) then
    match pictureLine c l with
    | some (f, y) =>
      let old := rawLine s n (1 - par) l c.deep
      (live.zip (List.range live.length)).map (fun e =>
        if rawFails s 36 n par (frameLine c f y) e.2 then
          if rawFails s 36 n (1 - par) (frameLine c f y) e.2 then blackAt e.2 else old.getD e.2 (blackAt e.2)
        else e.1)
    | none => live
  else live

end Sys2Proof.Machine
end

