-- ==== Sys2Proof/Machine/Gleaner.lean ====
section
/-! DEFINITION. The Gleaner (R86 to R92), the readiness of CTU rows (R85), picture order and types (R99, R103 to R105), and
the costs of R134. -/

namespace Sys2Proof.Machine
namespace State

/-- Rate-control state of a rendition. -/
def rc (s : State) (n r : Nat) : RcSt := Store.get (fun _ => RcSt.init) (s.chan n).rc r
def setRc (s : State) (n r : Nat) (x : RcSt) : State :=
  s.modChan n (fun c => { c with rc := Store.put (fun _ => RcSt.init) c.rc r x })

/-- A rendition of a declaration. -/
def rendOf (c : ChanCfg) (r : Nat) : Option RendCfg := c.rends.find? (fun x => x.r = r)

end State

open State

/-! ### Cells (R86) -/

/-- Cell columns, and cell rows of one coded picture's share of the channel picture; the cells of an interlaced channel
are taken field by field (notes/assumptions/17.md). -/
def cellCols (c : ChanCfg) : Nat := ceilDiv c.w 32
def cellPicRows (c : ChanCfg) : Nat := ceilDiv (c.h / picsPerFrame c) 32

/-- 10-bit luma of the lines of field `f` of the live picture (R86): line, column. DEDUCED: the measures of Table 4-2 are taken on
10-bit codes, as MEAN is (notes/assumptions/44.md). -/
def liveLuma (s : State) (n f : Nat) (y x : Nat) : Nat :=
  let c := s.cfgOf n
  let h := c.h / picsPerFrame c
  let v := lineY (liveLine s n (fieldLine c f + min y (h - 1))) (min x (c.w - 1))
  if y < h ∧ x < c.w then v else Config.edge v

/-- Sign of the Hadamard basis function `u` at place `x`. -/
def hadSign (u x : Nat) : Int := if ((List.range 3).filter (fun b => u.testBit b && x.testBit b)).length % 2 = 0 then 1 else -1

/-- Sum of the absolute AC coefficients of the 8 × 8 Hadamard transform of a block (Table 4-2). -/
def hadamardAc (p : Nat → Nat → Nat) : Nat :=
  sumN ((List.range 64).drop 1 |>.map (fun k =>
    ((List.range 64).foldl (fun (a : Int) i => a + hadSign (k % 8) (i % 8) * hadSign (k / 8) (i / 8) * p (i / 8) (i % 8)) 0).natAbs))

/-- Activity: round(8 × log2(1 + variance)), saturating at 255, of `n` samples with sum `a` and sum of squares `q`. -/
def activity (n a q : Nat) : Nat :=
  let p := n * n + (n * q - a * a)
  ((List.range 255).filter (fun k => decide (2 ^ (2 * k + 1) * (n * n) ^ 16 ≤ p ^ 16))).length

/-- One-eighth-scale store: width, and lines of a field. -/
def smallW (c : ChanCfg) : Nat := ceilDiv c.w 8
def smallH (c : ChanCfg) : Nat := ceilDiv (c.h / picsPerFrame c) 8

/-- A sample of a one-eighth-scale picture; beyond its edge what the search takes there (Config.edge). -/
def smallAt (c : ChanCfg) (m : Store (List Nat)) (f : Nat) (y x : Int) : Nat :=
  let yc := (clampI y 0 (smallH c - 1)).toNat
  let xc := (clampI x 0 (smallW c - 1)).toNat
  let v := (Store.get (fun _ => ([] : List Nat)) m (f * smallH c + yc)).getD xc 0
  if y = yc ∧ x = xc then v else Config.edge v

/-- The one-eighth-scale lines of a cell row (R87), as pairs of line and samples. -/
def smallLines (s : State) (n f j : Nat) : List (Nat × List Nat) :=
  let c := s.cfgOf n
  (List.range (min (smallH c) (4 * j + 4) - 4 * j)).map (fun k =>
    (f * smallH c + 4 * j + k, (List.range (smallW c)).map (fun x =>
      Config.decimate ((List.range 64).map (fun i => liveLuma s n f (8 * (4 * j + k) + i / 8) (8 * x + i % 8))) % 256)))

/-- The vectors that the Gleaner searches, in decimated samples (R87). -/
def searchVectors : List (Int × Int) :=
  (List.range 17).flatMap (fun (j : Nat) => (List.range 33).map (fun (i : Nat) => ((i : Int) - 16, (j : Int) - 8)))

/-- The vector of least SAD and that SAD (R87); of several the one that Config.tieVector names. -/
def bestVector (sad : Int × Int → Nat) : (Int × Int) × Nat :=
  let all := searchVectors.map (fun v => (v, sad v))
  let m := ((minBy (fun a b => decide (a.2 < b.2)) all).map Prod.snd).getD 0
  let best := (all.filter (fun e => decide (e.2 = m))).map Prod.fst
  (best.getD (Config.tieVector best % max 1 best.length) (0, 0), m)

/-- The record of a cell (Table 4-2, R87, R89, R92) and its fade ratio (R90), from the one-eighth-scale lines `now` of the frame in
progress, the cell's own among them, and `old` of the frame before. -/
def cellRecord (s : State) (n : Nat) (now old : Store (List Nat)) (hasPrev : Bool) (thresh f j i : Nat) : Cell × (Nat × Nat) :=
  let c := s.cfgOf n
  let h := c.h / picsPerFrame c
  let p := liveLuma s n f
  let xs := (List.range (min c.w (32 * i + 32) - 32 * i)).map (fun x => 32 * i + x)
  let ys := (List.range (min h (32 * j + 32) - 32 * j)).map (fun y => 32 * j + y)
  let all := ys.flatMap (fun y => xs.map (p y))
  let blocks := (List.range (ceilDiv ys.length 8)).flatMap (fun b => (List.range (ceilDiv xs.length 8)).map (fun a =>
    hadamardAc (fun y x => p (32 * j + 8 * b + y) (32 * i + 8 * a + x))))
  let dec := (List.range (min (smallH c) (4 * j + 4) - 4 * j)).flatMap (fun b => (List.range (min (smallW c) (4 * i + 4) - 4 * i)).map (fun a =>
    (4 * j + b, 4 * i + a)))
  let cur (e : Nat × Nat) : Nat := smallAt c now f e.1 e.2
  let sad (v : Int × Int) : Nat := sumN (dec.map (fun e => ((cur e : Int) - smallAt c old f (e.1 + v.2) (e.2 + v.1)).natAbs))
  let own := sumN (dec.map cur)
  -- the SAD against the block's own mean, times the number of its samples
  let meanSad := sumN (dec.map (fun e => ((dec.length * cur e : Nat) - (own : Int)).natAbs))
  let (mv, inter) := bestVector sad
  let mean := roundOpen (sumN all) all.length
  let was := sumN (dec.map (fun e => smallAt c old f e.1 e.2))
  ({ intra := satTo 16 (roundOpen (sumN blocks) 64), inter := if hasPrev then satTo 16 inter else 0xFFFF
     mvx := if hasPrev then mv.1 else 0, mvy := if hasPrev then mv.2 else 0
     act := activity all.length (sumN all) (sumN (all.map (fun v => v * v))), mean := mean
     cut := hasPrev && decide (thresh * meanSad < 16 * inter * dec.length)
     still := hasPrev && decide (mv = (0, 0) ∧ inter < 16) },
   if was = 0 then (Config.darkRatio mean, 256) else (mean * dec.length, 4 * was))

/-- The record as it is stored (Table 4-2). -/
def cellWord (x : Cell) : Nat :=
  x.intra + x.inter * 2 ^ 16 + (x.mvx % 64).toNat * 2 ^ 32 + (x.mvy % 64).toNat * 2 ^ 38 + x.act * 2 ^ 44 + x.mean * 2 ^ 52 +
    (if x.cut then 2 ^ 62 else 0) + (if x.still then 2 ^ 63 else 0)

/-- A cut row: at least half its cells are CUT (R89). -/
def cutRowTest (l : List Cell) : Bool := !l.isEmpty && decide (l.length ≤ 2 * (l.filter Cell.cut).length)

/-- Median of a list of ratios. -/
def ratioMedian (l : List (Nat × Nat)) : Nat × Nat := (sortBy (fun a b => decide (a.1 * b.2 ≤ b.1 * a.2)) l).getD (l.length / 2) (0, 1)

/-- The fade condition of R90. -/
def fadeTest (l : List (Nat × Nat)) : Bool :=
  let m := ratioMedian l
  !l.isEmpty && decide (3 * l.length ≤ 4 * (l.filter (fun x =>
      decide (98 * m.1 * x.2 ≤ 100 * x.1 * m.2 ∧ 100 * x.1 * m.2 ≤ 102 * m.1 * x.2))).length) &&
    decide (100 * m.1 < 99 * m.2 ∨ 101 * m.2 < 100 * m.1)

/-! ### Readiness (R85, R91) -/

/-- Last line, in lines of the channel's coded picture, that rows up to `j` of a rendition cover; and the cell row that
holds it. -/
def lastLineOf (c : ChanCfg) (r : RendCfg) (j : Nat) : Nat := toChanLineUp c r (min (picH c r) ((j + 1) * r.ctu)) - 1
def lastCellRow (c : ChanCfg) (r : RendCfg) (j : Nat) : Nat := lastLineOf c r j / 32
def firstCellRow (c : ChanCfg) (r : RendCfg) (j : Nat) : Nat := toChanLine c r (j * r.ctu) / 32

/-- Row `j` of field `f` is ready: Gleaner records and source lines (R85). -/
def rowReady (ch : Chan) (c : ChanCfg) (r : RendCfg) (f j : Nat) : Bool :=
  decide (f * cellPicRows c + lastCellRow c r j < ch.gln.rows) &&
  if r.source = 0 then decide (fieldLine c f + lastLineOf c r j < ch.lines)
  else decide (f * picH c r + min (picH c r) ((j + 1) * r.ctu) ≤ Store.get (fun _ => 0) ch.stages (r.source - 1))

/-- Rows of a rendition that have become ready since, in order. -/
def moreReady (ch : Chan) (c : ChanCfg) (r : RendCfg) (pos : BitVec 64) : Nat → Nat → List ReadyRow
  | 0, _ => []
  | fuel + 1, i =>
    let R := ctuRows c r
    if R = 0 ∨ R * picsPerFrame c ≤ i then []
    else if rowReady ch c r (i / R) (i % R) then
      ⟨r.r, (ch.frame - 1) * picsPerFrame c + i / R, i % R, pos⟩ :: moreReady ch c r pos fuel (i + 1)
    else []

/-- Note the rows of a channel that have become ready; the rows of a frame that a step has cut become ready no more
(R26). -/
def State.noteReady (s : State) (n : Nat) : State :=
  let c := s.cfgOf n
  if ((s.chan n).frame - 1) ∈ (s.chan n).cutFrames then s else
  c.rends.foldl (fun t r =>
    let ch := t.chan n
    let i := Store.get (fun _ => 0) ch.made r.r
    let l := moreReady ch c r t.stp.pos (2 * ctuRows c r) i
    t.setChan n { ch with ready := ch.ready ++ l, made := Store.put (fun _ => 0) ch.made r.r (i + l.length) }) s

/-! ### Picture order and types -/

/-- A picture in decoding order: its place in input order, whether it is an intra (IRAP) picture, its hierarchy level, and the weights
of its GOP's pictures, summed, with their number (R104, R133). -/
structure OrderPic where
  pic  : Nat
  irap : Bool
  tid  : Nat
  gop  : Nat × Nat
  deriving DecidableEq, Repr

/-- Weight of a picture before it is normalised (R133). -/
def picWeight (irap : Bool) (tid : Nat) : Nat := if irap then 4 else if tid = 0 then 2 else 1

/-- Pictures strictly between two anchors in a hierarchical order, with their levels from `lev` on (R104); the spec names no order
among the B pictures (notes/assumptions/18.md). -/
def midPics : Nat → Nat → Nat → Nat → List (Nat × Nat)
  | 0, _, _, _ => []
  | f + 1, lev, lo, hi =>
    if hi ≤ lo + 1 then [] else
      let m := (lo + hi) / 2
      (m, lev) :: (midPics f (lev + 1) lo m ++ midPics f (lev + 1) m hi)

/-- The pictures of the GOP that ends at anchor `x` after anchor `a`. -/
def gopPics (a x : Nat) (irap : Bool) : List OrderPic :=
  let l := (x, irap, 0) :: (midPics 6 1 a x).map (fun e => (e.1, false, e.2))
  let w := (sumN (l.map (fun e => picWeight e.2.1 e.2.2)), l.length)
  l.map (fun e => ⟨e.1, e.2.1, e.2.2, w⟩)

/-- STD pictures in decoding order (R104, R105): after anchor `a`, with `g` GOPs since the last IRAP. Anchors in `still` are skip
pictures, at which the schedule stands still (R107). -/
def stdOrder (len irap : Nat) (cuts : List (Nat × Bool)) (still : List Nat) : Nat → Nat → Nat → List OrderPic
  | 0, _, _ => []
  | f + 1, a, g =>
    let early := cuts.filterMap (fun x => if x.2 ∧ a < x.1 ∧ x.1 ≤ a + len then some x.1 else none)
    let late := cuts.any (fun x => !x.2 && decide (x.1 ≤ a ∧ a < x.1 + len))
    let (x, i) := match minBy (fun x y => decide (x < y)) early with
      | some x => if x = a + 1 then (x, true) else (x - 1, false)
      | none => (a + len, late || decide (irap ≤ g + 1))
    if still.contains x then gopPics a x false ++ stdOrder len irap cuts still f x (if i then irap else g)
    else gopPics a x i ++ stdOrder len irap cuts still f x (if i then 0 else g + 1)

/-- Picture `m` in decoding order. -/
def orderOf (c : ChanCfg) (r : RendCfg) (x : RcSt) (irapGops m : Nat) : OrderPic :=
  if c.cls = 2 then
    if m = 0 then ⟨0, true, 0, (4, 1)⟩ else (stdOrder (max 1 r.gopLen) irapGops x.cuts x.still m 0 0).getD (m - 1) ⟨m, false, 0, (1, 1)⟩
  else if c.cls = 1 ∧ r.refresh.getLsbD 8 then
    ⟨m, decide (x.irapBase ≤ m ∧ (m - x.irapBase) % max 1 (fld r.refresh 24 16) = 0) || decide (m = 0), 0, (1, 1)⟩
  else ⟨m, false, 0, (1, 1)⟩

/-- Its place in input order and whether it is an intra (IRAP) picture. -/
def picOf (c : ChanCfg) (r : RendCfg) (x : RcSt) (irapGops m : Nat) : Nat × Bool :=
  let o := orderOf c r x irapGops m
  (o.pic, o.irap)

/-- IRAP_GOPS of a rendition, as it was placed. -/
def irapGops (s : State) (n r : Nat) : Nat := match rendOf (s.cfgOf n) r with | some x => fld (x.coding.getD 3 0) 15 8 | none => 1

/-- The rendition refreshes by GDR (R99). -/
def gdr (c : ChanCfg) (r : RendCfg) : Bool := decide (c.cls = 0) || (decide (c.cls = 1) && !(r.refresh.getLsbD 8))

/-- Refresh band of picture `k` of the schedule, as first column and end (R99). -/
def gdrBand (r : RendCfg) (k : Nat) : Nat × Nat :=
  let P := max 1 (fld r.refresh 7 0)
  let C := ctuCols r
  ((k % P) * C / P, (k % P + 1) * C / P)

/-! ### Costs (R134, R137) -/

/-- The Gleaner's view of frame `i` of the sequence: its cells and its cut row. -/
def gleanedFrame (ch : Chan) (i : Nat) : GlnFrame :=
  if ch.frame ≤ i + 1 then ⟨ch.gln.cells, ch.gln.cutRow, ch.gln.weight⟩ else ch.gln.prev.getD (ch.frame - 2 - i) ⟨[], none, none⟩

def cellAt (m : Store (List Cell)) (row col : Nat) : Option Cell := (Store.get (fun _ => ([] : List Cell)) m row)[col]?

/-- Cost of a cell (R134). -/
def cellCost (intra : Bool) (x : Cell) : Nat := if intra || decide (x.inter = 0xFFFF) then x.intra else x.inter

/-- Mean over a list, rounded down. -/
def meanOf (l : List Nat) : Nat := if l.isEmpty then 0 else sumN l / l.length

/-- What a cell of frame `i` that is not yet analysed costs: after a cut the mean INTRA of the cut rows (R137), else what the cell of
the frame before costs, in a first frame the mean of the cells so far (R134). -/
def unseenCost (ch : Chan) (i row col : Nat) (intra : Bool) : Nat :=
  let cur := gleanedFrame ch i
  if cur.cutRow.isSome then meanOf ((cur.cells.filter (fun e => cutRowTest e.2)).flatMap (fun e => e.2.map Cell.intra))
  else match i, cellAt (gleanedFrame ch (i - 1)).cells row col with
    | _ + 1, some x => cellCost intra x
    | _, _ => meanOf (cur.cells.flatMap (fun e => e.2.map (cellCost intra)))

/-- Cells (row, column) of the footprint of CTU (j, i) of picture `pic` (input order) (R91). -/
def ctuCells (c : ChanCfg) (r : RendCfg) (pic j i : Nat) : List (Nat × Nat) :=
  let f := pic % picsPerFrame c
  let x0 := i * r.ctu * c.w / r.w / 32
  let x1 := ceilDiv (ceilDiv (min r.w ((i + 1) * r.ctu) * c.w) r.w) 32
  let y0 := firstCellRow c r j
  let y1 := lastCellRow c r j + 1
  (List.range (y1 - y0)).flatMap (fun dy => (List.range (x1 - x0)).map (fun dx => (f * cellPicRows c + y0 + dy, x0 + dx)))

/-- Cost of CTU (j, i): the cells of its footprint, scaled by the ratio of samples (R91, R134). -/
def ctuCost (ch : Chan) (c : ChanCfg) (r : RendCfg) (pic j i : Nat) (intra : Bool) : Nat :=
  let fr := pic / picsPerFrame c
  let m := (gleanedFrame ch fr).cells
  let sum := sumN ((ctuCells c r pic j i).map (fun e =>
    match cellAt m e.1 e.2 with
    | some x => cellCost intra x
    | none => unseenCost ch fr e.1 e.2 intra))
  sum * (r.w * r.h) / (c.w * c.h)

/-- Records of the cells of a CTU's footprint. -/
def ctuRecords (ch : Chan) (c : ChanCfg) (r : RendCfg) (pic j i : Nat) : List Cell :=
  (ctuCells c r pic j i).filterMap (fun e => cellAt (gleanedFrame ch (pic / picsPerFrame c)).cells e.1 e.2)

/-- Mean of a list of integers, truncated. -/
def meanInt (l : List Int) : Int := if l.isEmpty then 0 else tdiv (l.foldl (· + ·) 0) l.length

/-- The record that a CTU takes from the Gleaner (R91): INTRA and INTER summed and scaled, ACT and MEAN averaged, the vector averaged,
in luma samples of the rendition, CUT and STATIC by at least half the cells. The averages truncate (notes/assumptions/44.md). -/
def ctuRecord (ch : Chan) (c : ChanCfg) (r : RendCfg) (pic j i : Nat) : Cell :=
  let l := ctuRecords ch c r pic j i
  let scale (v : Nat) : Nat := v * (r.w * r.h) / (c.w * c.h)
  let half (p : Cell → Bool) : Bool := !l.isEmpty && decide (l.length ≤ 2 * (l.filter p).length)
  { intra := scale (sumN (l.map Cell.intra)), inter := scale (sumN (l.map Cell.inter))
    mvx := tdiv (8 * meanInt (l.map Cell.mvx) * r.w) c.w, mvy := tdiv (8 * meanInt (l.map Cell.mvy) * r.h) c.h
    act := meanOf (l.map Cell.act), mean := meanOf (l.map Cell.mean), cut := half Cell.cut, still := half Cell.still }

/-- Cost of columns [a, b) of rows [j, j + k). A column of the refresh band, and everything in an intra picture or the first
GDR period, costs as intra. -/
def areaCost (ch : Chan) (c : ChanCfg) (r : RendCfg) (pic : Nat) (intra : Bool) (band : Nat × Nat) (j k a b : Nat) : Nat :=
  sumN ((List.range k).map (fun dj => sumN ((List.range (b - a)).map (fun di =>
    ctuCost ch c r pic (j + dj) (a + di) (intra || decide (band.1 ≤ a + di ∧ a + di < band.2))))))

/-- act_ref of R135 for a picture of frame `i`: the mean ACT of the frame before, or of the cells analysed so far in a first frame. -/
def actRefOf (ch : Chan) (i : Nat) : Nat :=
  meanOf ((gleanedFrame ch (i - 1)).cells.flatMap (fun e => e.2.map Cell.act))

/-! ### The command -/

/-- A cut declared at cell row `row` reaches the rate controllers of LL intra and STD renditions (R105). -/
def cutPictures (s : State) (n row : Nat) : State :=
  let c := s.cfgOf n
  c.rends.foldl (fun t r =>
    let x := t.rc n r.r
    let pic := ((t.chan n).frame - 1) * picsPerFrame c + row / max 1 (cellPicRows c)
    if c.cls = 1 ∧ r.refresh.getLsbD 8 then
      t.setRc n r.r { x with irapBase := if x.pics.any (fun p => decide (p.pic = pic)) then pic + 1 else pic }
    else if c.cls = 2 then
      let begun := match x.pic with
        | some m => (List.range (m + 1)).any (fun i => decide (pic ≤ (picOf c r x (irapGops t n r.r) i).1))
        | none => false
      t.setRc n r.r { x with cuts := x.cuts ++ [(pic, !begun)] }
    else t) s

/-- The record of a cell in a first frame (R92). -/
def firstRecord (x : Cell) : Cell := { x with inter := 0xFFFF, mvx := 0, mvy := 0, cut := false, still := false }

/-- Channel lines of a cell row. -/
def cellRowLines (c : ChanCfg) (row : Nat) : List Nat :=
  let f := row / max 1 (cellPicRows c)
  let j := row % max 1 (cellPicRows c)
  (List.range (min (c.h / picsPerFrame c) (32 * j + 32) - 32 * j)).map (fun y => fieldLine c f + 32 * j + y)

/-- Position at which the records of a cell row are ready: 4 channel lines after the last of its lines has landed (R86); none while one
has not. -/
def recordsReady (s : State) (n row : Nat) : Option (BitVec 64) :=
  let c := s.cfgOf n
  let l := (cellRowLines c row).map (landedAt s c.input)
  if l.isEmpty || l.any Option.isNone then none
  else (minBy later (l.filterMap id)).map (fun p => s.posAdd p (4 * rho c))

/-- Where the records of frame `i` of the sequence begin (R88). -/
def recordBase (s : State) (n i : Nat) : Nat :=
  let c := s.cfgOf n
  (sourcePic s n i).base + storeBytes c.w c.h c.c422 c.deep

/-- The record of a cell row is written after the picture samples of the encode source (R88). -/
def storeRecords (s : State) (n row : Nat) (l : List Cell) : State :=
  let c := s.cfgOf n
  s.setMem (recordBase s n ((s.chan n).frame - 1) + 8 * (row * cellCols c))
    ((l.flatMap (fun x => leBytes 8 (cellWord x))).map (BitVec.ofNat 8))

/-- The raw luma lines of a cell row, as spans of bytes. -/
def cellRowSpans (s : State) (n row : Nat) : List (Nat × Nat) :=
  (cellRowLines (s.cfgOf n) row).flatMap (fun l => (rawSpans s n (rawPar s n) l).take 1)

/-- Cell `i` of a cell row covers samples that the Gleaner could not read (R346). -/
def cellFails (s : State) (n row i : Nat) : Bool :=
  let deep := (s.cfgOf n).deep
  (cellRowSpans s n row).any (fun e => if deep then readFails s 35 (e.1 + 40 * i) 40 else readFails s 35 (e.1 + 32 * i) 32)

/-- The Gleaner analyses the next cell row (R86 to R92); cells that it could not read take first-frame records (R346). -/
def gleanRow (s : State) (n row : Nat) : State :=
  let ch := s.chan n
  let c := s.cfgOf n
  let g := ch.gln
  let ctl := c.gln
  let f := row / max 1 (cellPicRows c)
  let j := row % max 1 (cellPicRows c)
  let small := (smallLines s n f j).foldl (fun m e => Store.put (fun _ => []) m e.1 e.2) g.small
  let made := (List.range (cellCols c)).map (fun i => cellRecord s n small g.smallOld (g.hasPrev && !(cellFails s n row i)) (fld ctl 7 0) f j i)
  let read := (made.zip (List.range made.length)).filterMap (fun e => if cellFails s n row e.2 then none else some e.1.2)
  let rec_ := made.map Prod.fst
  let isCut := cutRowTest rec_
  let newCut := g.hasPrev && !(ctl.getLsbD 12) && g.cutRow.isNone && g.lastCut && isCut
  let cutRow := if newCut then some (row - 1) else g.cutRow
  let ratios := if g.hasPrev then g.ratios ++ read else []
  let m := ratioMedian ratios
  let w := satTo 16 (roundOpen (256 * m.1) m.2)
  let fade := g.hasPrev && !(ctl.getLsbD 13) && cutRow.isNone && fadeTest ratios && decide (fld ctl 11 8 ≤ g.fadeRun + 1)
  let g' : GlnSt := { g with rows := row + 1, cells := Store.put (fun _ => []) g.cells row rec_, ratios := ratios, lastCut := isCut,
                             cutRow := cutRow, fade := fade, fadeSeen := g.fadeSeen || fade
                             weight := if cutRow.isSome then g.weight else if fade then some w else none, small := small }
  let t := readDone (storeRecords (s.setChan n { ch with gln := g' }) n row rec_) 35 (cellRowSpans s n row)
  let t := if g.hasPrev then t.setF (Reg.chGlnWeight n) 15 0 w else t
  let t := if newCut then cutPictures (t.inc32 (Reg.chGlnCuts n)) n (row - 1) else t
  t.noteReady n

/-- Cells whose records lie in a 64-byte line take first-frame records. -/
def failCells (c : ChanCfg) (base line : Nat) (m : Store (List Cell)) : Store (List Cell) :=
  m.map (fun e => (e.1, (e.2.zip (List.range e.2.length)).map (fun x =>
    if meetsLine line (base + 8 * (e.1 * cellCols c + x.2)) 8 then firstRecord x.1 else x.1)))

/-- Frames of the sequence of a channel, with records, whose records lie in a 64-byte line. -/
def recordFrames (s : State) (n line : Nat) : List Nat :=
  let c := s.cfgOf n
  let ch := s.chan n
  ((List.range (ch.gln.prev.length + 1)).filter (fun d => decide (d < ch.frame))).map (fun d => ch.frame - 1 - d) |>.filter (fun i =>
    meetsLine line (recordBase s n i) (8 * (cellCols c * (cellPicRows c * picsPerFrame c))))

/-- An engine or its rate control could not read records (R346): the cells of the failing line take first-frame records. -/
def failRecords (s : State) (n line : Nat) : State :=
  let c := s.cfgOf n
  (recordFrames s n line).foldl (fun t i => t.modChan n (fun ch =>
    let d := ch.frame - 1 - i
    if d = 0 then { ch with gln := { ch.gln with cells := failCells c (recordBase s n i) line ch.gln.cells } }
    else { ch with gln := { ch.gln with prev := ch.gln.prev.modify (d - 1) (fun f => { f with cells := failCells c (recordBase s n i) line f.cells }) } })) s

/-- Cell records of one cell row become ready (R86), in order of rows. -/
def gleanerRecords (s : State) (n row : Nat) : State :=
  let ch := s.chan n
  let c := s.cfgOf n
  if !ch.running || decide (ch.frame = 0 ∨ row ≠ ch.gln.rows ∨ cellPicRows c * picsPerFrame c ≤ row) then s
  else match recordsReady s n row with
    | some p => gleanRow (s.toPos p) n row
    | none => s

def execGleanerRecordsReady (n : Fin 128) (row : Nat) (s : State) : Out := .next (gleanerRecords s n row)

end Sys2Proof.Machine
end

