-- ==== Sys2Proof/Machine/Compositor.lean ====
section
/-! DEFINITION. The compositor and the scaler ladder (06_compositor_and_ladder.md): sets, commits, releases, LUTs, the colour path,
blending, scaling, and their commands. -/

namespace Sys2Proof.Machine

open State

/-! ### Sets (R160) -/

/-- A register of a set. -/
def setWordAt (m : Store Word) (o : Nat) : Word := Store.get shadowReset m o
/-- Offset of field `o` of layer `k`'s block. -/
def layerOff (k o : Nat) : Nat := 0x100 + 0x40 * k + o

def layerHidden (m : Store Word) (k : Nat) : Bool := (setWordAt m (layerOff k 0x1C)).getLsbD 31

/-- L_CFG of a layer, as the channel was placed. -/
def layerCfg (s : State) (n k : Nat) : Word := (s.cfgOf n).layers.getD k 0
/-- An enabled, visible layer of a set: graphics, or live. -/
def visibleGraphics (s : State) (n : Nat) (m : Store Word) (k : Nat) : Bool :=
  (layerCfg s n k).getLsbD 0 && !((layerCfg s n k).getLsbD 1) && !layerHidden m k
def visibleLive (s : State) (n : Nat) (m : Store Word) (k : Nat) : Bool :=
  (layerCfg s n k).getLsbD 0 && (layerCfg s n k).getLsbD 1 && !layerHidden m k

/-- Layers whose old buffer a copy ends (R164). -/
def endedLayers (s : State) (n : Nat) (old new : Store Word) : List Nat :=
  layers17.filter (fun k => visibleGraphics s n old k &&
    (layerHidden new k || decide (setWordAt old (layerOff k 0x08) ≠ setWordAt new (layerOff k 0x08)) ||
      decide (setWordAt old (layerOff k 0x0C) ≠ setWordAt new (layerOff k 0x0C))))

/-- Set LAYER_RELEASE for the layers whose release is due (R164). -/
def releaseLayers (s : State) (n : Nat) : State :=
  let l := (s.chan n).release
  l.foldl (fun t k => t.evt (Pg.chcomp n) k) (s.modChan n (fun c => { c with release := [] }))

/-- The copy of a pending commit (R160 to R162). -/
def copyCommit (s : State) (n : Nat) : State :=
  if !(s.bit (Reg.chcompCommitStat n) 0) then s
  else
    let t := s.setBit (Pg.chcomp n + hCtrl) 1 false
    match commitFail s n with
    | some w =>
      (t.setReg (Reg.chcompCommitStat n)
        ((s.reg (Reg.chcompCommitStat n) &&& 0xFFFF0000) ||| BitVec.ofNat 32 (2 + w * 0x10))).evt (Pg.chcomp n) 9
    | none =>
      let c := s.chan n
      let new := shadowSet s n
      let ended := endedLayers s n c.inUse new
      let t := t.setChan n { c with active := new, release := c.release ++ ended.filter (fun k => !(c.release.contains k)) }
      (t.setN (Reg.chcompCommitStat n) (s.frame.toNat % 65536 * 0x10000)).evt (Pg.chcomp n) 8

/-- A pending commit at an accepted step: copied, and its buffers released, at the step (R163, R164). -/
def stepCommit (s : State) (n : Nat) : State := releaseLayers (copyCommit s n) n

/-- CHCOMP.CTRL.COMMIT (R161) lands; a COMMIT on a page whose ENABLE reads 0 has no effect (R448), nor has one while one is pending. -/
def chcompCommit (s : State) (n : Nat) : State :=
  if s.answers (Pg.chcomp n) && s.enabled (Pg.ch n) && !(s.bit (Reg.chcompCommitStat n) 0) then
    ((s.setBit (Pg.chcomp n + hCtrl) 1 true).setBit (Reg.chcompCommitStat n) 0 true).modChan n (fun c => { c with commitAt := s.stp.pos })
  else s

def execChcompCommit (n : Fin 128) (s : State) : Out := .next (chcompCommit s n)

/-- The latch line of the frame in progress of a running channel (R160): a commit that landed before it is copied (R161); before the
channel's first frame a commit waits for the frame start. -/
def commitCopy (s : State) (n : Nat) : State :=
  let ch := s.chan n
  if !s.running || !ch.running || decide (ch.frame = 0) then s
  else
    let p := linePos s (s.cfgOf n) ch.startFr (latchLine (s.cfgOf n))
    let t := s.toPos p
    if later p ch.commitAt then copyCommit t n else t

def execCommitCopy (n : Fin 128) (s : State) : Out := .next (commitCopy s n)

/-- Channel line from which nothing more is read from an old buffer (R164). -/
def releaseLine (c : ChanCfg) : Nat := max (latchLine c) (if c.interl then fieldLine c 1 + c.h / 2 else c.h + 1)

/-- The release line of the frame in progress (R164). -/
def layerRelease (s : State) (n : Nat) : State :=
  let ch := s.chan n
  if !s.running || !ch.running || decide (ch.frame = 0) || ch.release.isEmpty then s
  else releaseLayers (s.toPos (linePos s (s.cfgOf n) ch.startFr (releaseLine (s.cfgOf n)))) n

def execLayerRelease (n : Fin 128) (s : State) : Out := .next (layerRelease s n)

/-! ### LUTs (R153, R154) -/

/-- Key of an entry: table, component, entry. -/
def lutKey (table comp entry : Nat) : Nat := (table * 3 + comp) * 1024 + entry

def lutEntry (c : Chan) (k : Nat) : BitVec 18 := Store.get (lutReset c.lutBase) c.lut k

/-- LUT_STAT: DONE with ERR as given. -/
def lutStat (s : State) (n : Nat) (err : Bool) : State := s.setN (Reg.chcompLutStat n) (if err then 3 else 1)

/-- R41 for a LUT write while ENABLE is 1: the refusal stands on the CH page with PAGE 2. -/
def lutWhileEnabled (s : State) (n : Nat) : State :=
  (lutStat s n true).refuse (Pg.ch n) 0x0801 (wordOf (Reg.chcompLutGo n)) 2

/-- Advance LUT_ADDR's entry where INC is set. -/
def lutInc (s : State) (n : Nat) : State :=
  let a := Reg.chcompLutAddr n
  if s.bit a 17 then s.setF a 9 0 ((s.getF a 9 0 + 1) % 1024) else s

/-- A GO with WRITE set writes one entry (R153, R154). -/
def lutWrite (s : State) (n : Nat) : State :=
  let a := Reg.chcompLutAddr n
  if !(s.answers (Pg.chcomp n)) || !(s.bit a 16) then s
  else if s.enabled (Pg.ch n) then lutWhileEnabled s n
  else if s.getF a 11 10 = 3 then lutStat s n true
  else
    let k := lutKey (s.getF a 12 12) (s.getF a 11 10) (s.getF a 9 0)
    let v := (s.reg (Reg.chcompLutData n)).setWidth 18
    lutStat (lutInc (s.modChan n (fun c => { c with lut := Store.put (lutReset c.lutBase) c.lut k v })) n) n false

def execLutEntryWrite (n : Fin 128) (s : State) : Out := .next (lutWrite s n)

/-- A GO with WRITE clear reads one entry into LUT_DATA. -/
def lutRead (s : State) (n : Nat) : State :=
  let a := Reg.chcompLutAddr n
  if !(s.answers (Pg.chcomp n)) || s.bit a 16 then s
  else if s.getF a 11 10 = 3 then lutStat s n true
  else
    let k := lutKey (s.getF a 12 12) (s.getF a 11 10) (s.getF a 9 0)
    lutStat (lutInc (s.setReg (Reg.chcompLutData n) ((lutEntry (s.chan n) k).setWidth 32)) n) n false

def execLutEntryRead (n : Fin 128) (s : State) : Out := .next (lutRead s n)

/-- PRESET_GO (R154). -/
def lutPreset (s : State) (n preset : Nat) (go : Bool) : State :=
  if !(s.answers (Pg.chcomp n)) then s
  else if s.enabled (Pg.ch n) then lutWhileEnabled s n
  else if go || decide (preset = 3) then lutStat s n true
  else (lutStat (s.modChan n (fun c => { c with lut := [], lutBase := preset })) n false).evt (Pg.chcomp n) 12

def execLutPresetGo (n : Fin 128) (preset : Fin 4) (go : Bool) (s : State) : Out := .next (lutPreset s n preset go)

/-! ### The colour path on values (R153, R155, R156, R158, R159) -/

/-- Entry `i` of a LUT; e[1,024] is e[1,023]. -/
def lutE (e : Nat → BitVec 18) (i : Nat) : Int := (e (min i 1023)).toNat

/-- The pre-blend LUT on a 16-bit value. -/
def lutPre (e : Nat → BitVec 18) (v : Nat) : Int :=
  lutE e (v / 64) + ((lutE e (v / 64 + 1) - lutE e (v / 64)) * (v % 64 : Nat) + 32) / 64

/-- The post-blend LUT on an 18-bit value. -/
def lutPost (e : Nat → BitVec 18) (v : Nat) : Int :=
  lutE e (v / 256) + ((lutE e (v / 256 + 1) - lutE e (v / 256)) * (v % 256 : Nat) + 128) / 256

/-- The key of R155: KEY LUMA or EXTERNAL on a luma value, KEY_INV. -/
def keyAlpha (y lo hi : Nat) (inv : Bool) : Nat :=
  let a := (clampI (tdiv (((y : Int) - lo) * 1023) ((hi : Int) - lo)) 0 1023).toNat
  if inv then 1023 - a else a

/-- A layer's alpha (R155). -/
def layerAlpha (aPx galpha : Nat) : Nat := (aPx * galpha + 511) / 1023

/-- One blend (R156). -/
def blend (acc c a : Nat) : Nat := (c * a + acc * (1023 - a) + 511) / 1023

/-- Blend order of a set (R158). -/
def blendOrder (m : Store Word) : List Nat :=
  if (setWordAt m 0x48).getLsbD 0 then (List.range 8).map (fun p => fld (setWordAt m 0x44) (4 * p + 2) (4 * p)) else List.range 8

/-- An opaque layer (R159). -/
def opaqueLayer (s : State) (n : Nat) (m : Store Word) (k : Nat) : Bool :=
  let a := setWordAt m (layerOff k 0x1C)
  decide (fld a 9 0 = 1023 ∧ fld a 17 16 = 0) && (decide (k = 0) || visibleLive s n m k ||
    (visibleGraphics s n m k && decide (fld (layerCfg s n k) 4 2 = 3)))

/-! ### A line of the picture (R146 to R159) -/

/-- Matrix of a channel: 0 BT.709, 1 BT.2020 (R152). DEDUCED: SDR_GAMUT is that of its first rendition (notes/assumptions/44.md). -/
def chanMatrix (c : ChanCfg) : Nat :=
  if fld c.pixel 3 2 = 0 ∧ ((c.rends.head?.map (fun r => (r.coding.getD 6 0).getLsbD 0)).getD false) = false then 0 else 1

/-- Step 2 of R152: narrow-range codes in 1/65,536, and full-range codes with maximum `top`, to 16 bits. -/
def normNarrow (v : Int) : Nat := min 65535 (roundOpen ((v - 64 * 65536).toNat * 65535) (876 * 65536))
def normFull (top v : Nat) : Nat := roundOpen (v * 65535) top

/-- A sample of a layer: R', G' and B' in 16 bits, per-pixel alpha, the layer's own 10-bit luma. -/
structure Px where
  rgb  : Nat × Nat × Nat
  a    : Nat
  luma : Nat
  deriving DecidableEq, Repr

/-- A Y'CbCr sample as a layer's (steps 1 and 2 of R152). -/
def pxYuv (mat y cb cr a : Nat) : Px :=
  let v := Config.toRgb mat (y, cb, cr)
  ⟨(normNarrow v.1, normNarrow v.2.1, normNarrow v.2.2), a, y⟩

/-- An R'G'B' sample with codes up to `top`. DEDUCED: its luma for a key is that of the channel's matrix (notes/assumptions/44.md). -/
def pxRgb (mat top r g b a : Nat) : Px :=
  let v := (normFull top r, normFull top g, normFull top b)
  ⟨v, a, (Config.fromRgb mat 65535 v).1⟩

/-- A graphics pixel (Table 6-1). -/
def graphicsPx (mat fmt v : Nat) (colour : Word) : Px :=
  let a8 (a : Nat) : Nat := a % 256 * 4 + a % 256 / 64
  let a2 (a : Nat) : Nat := a % 4 * 341
  match fmt with
  | 0 => pxRgb mat 255 (v % 256) (v / 2 ^ 8 % 256) (v / 2 ^ 16 % 256) (a8 (v / 2 ^ 24))
  | 1 => pxRgb mat 1023 (v % 1024) (v / 2 ^ 10 % 1024) (v / 2 ^ 20 % 1024) (a2 (v / 2 ^ 30))
  | 2 => pxYuv mat (v % 1024) (v / 2 ^ 10 % 1024) (v / 2 ^ 20 % 1024) (a2 (v / 2 ^ 30))
  | 3 => pxYuv mat (v % 1024) (v / 2 ^ 10 % 1024) (v / 2 ^ 20 % 1024) 1023
  | _ => pxYuv mat (fld colour 9 0) (fld colour 19 10) (fld colour 29 20) (a8 v)

/-- Sample `x` of a live line (R152): chroma of an odd sample from its two neighbours. -/
def livePx (mat w : Nat) (l : List Nat) (x : Nat) : Px :=
  let mid (f : List Nat → Nat → Nat) : Nat :=
    let k := x / 2
    if x % 2 = 0 then f l k else roundOpen (f l k + (if x + 1 < w then f l (k + 1) else Config.edge (f l k))) 2
  pxYuv mat (lineY l x) (mid lineCb) (mid lineCr) 1023

/-- X and Y of a layer (R147). -/
def layerPos (m : Store Word) (k : Nat) : Int × Int :=
  let w := setWordAt m (layerOff k 0x14)
  ((w.extractLsb' 0 15).toInt, (w.extractLsb' 16 15).toInt)

/-- Buffer line of a graphics layer that a field line shows: of an interlaced channel the even lines in the first field, the odd ones
in the second. -/
def bufferLine (c : ChanCfg) (m : Store Word) (k f y : Nat) : Option Nat :=
  let h := fld (setWordAt m (layerOff k 0x18)) 29 16
  let Y := (layerPos m k).2
  let b : Int := if c.interl then 2 * ((y : Int) - Y / 2) + f else (y : Int) - Y
  if 0 ≤ b ∧ b < h then some b.toNat else none

/-- Columns of the channel picture that a visible layer covers on a field line, clipped to the picture (R147). -/
def layerSpan (s : State) (n : Nat) (c : ChanCfg) (m : Store Word) (k f y : Nat) : Nat × Nat :=
  if k = 0 || visibleLive s n m k then (0, c.w)
  else if visibleGraphics s n m k && (bufferLine c m k f y).isSome then
    let X := (layerPos m k).1
    (X.toNat, min c.w (X + fld (setWordAt m (layerOff k 0x18)) 13 0).toNat)
  else (0, 0)

/-- A layer covers a column. -/
def inSpan (e : Nat × Nat) (x : Nat) : Bool := decide (e.1 ≤ x ∧ x < e.2)

/-- Layers above layer `k` in blend order. -/
def layersAbove (m : Store Word) (k : Nat) : List Nat := ((blendOrder m).dropWhile (fun i => decide (i ≠ k))).drop 1

/-- A layer is covered on a field line (R159), and nothing is fetched for it. -/
def layerCovered (s : State) (n : Nat) (c : ChanCfg) (m : Store Word) (k f y : Nat) : Bool :=
  let e := layerSpan s n c m k f y
  (layersAbove m k).any (fun i =>
    let g := layerSpan s n c m i f y
    opaqueLayer s n m i && decide (e.1 < e.2 ∧ g.1 ≤ e.1 ∧ e.2 ≤ g.2))

/-- A live line of input `i` is in the window of R149 for channel line `l`. -/
def liveInTime (s : State) (n i l : Nat) : Bool :=
  let c := s.cfgOf n
  let at_ (k : Nat) := linePos s c (s.chan n).startFr k
  match landedAt s i l with
  | some p => !(later (at_ l) (s.posAdd p (31 * rho c))) && !(later p (at_ (l + 1)))
  | none => false

/-- The inputs of a live layer: its fill, and its key with KEY_EN (R148). -/
def layerInputs (w : Word) : List Nat := fld w 14 8 :: (if w.getLsbD 23 then [fld w 22 16] else [])

/-- Visible live layers whose lines are outside the window (R149). -/
def missedLayers (s : State) (n : Nat) (m : Store Word) (l : Nat) : List Nat :=
  layers17.filter (fun k => visibleLive s n m k && !((layerInputs (layerCfg s n k)).all (fun i => liveInTime s n i l)))

/-- A line of an input that feeds a live layer, from its FIFO (R148). -/
def fifoLine (s : State) (n i l : Nat) : List Nat :=
  inputPicture s (s.cfgOf n) (128 + i) i l (s.bit (Reg.inpTiming i) 17)

/-- Alpha of a layer's sample (R155), from its per-pixel alpha, its luma and the luma of its key. -/
def sampleAlpha (m : Store Word) (k a y key : Nat) : Nat :=
  let w := setWordAt m (layerOff k 0x1C)
  let kw := setWordAt m (layerOff k 0x20)
  let f (v : Nat) : Nat := keyAlpha v (fld kw 9 0) (fld kw 25 16) (w.getLsbD 18)
  let aPx := if k = 0 then a else match fld w 17 16 with | 1 => f y | 2 => f key | _ => if w.getLsbD 18 then 1023 - a else a
  layerAlpha aPx (fld w 9 0)

/-- The samples of a layer on a line: none where it does not cover the column. -/
def layerLine (s : State) (n : Nat) (c : ChanCfg) (m : Store Word) (k l f y : Nat) : List (Option ((Nat × Nat × Nat) × Nat)) :=
  let mat := chanMatrix c
  let w := layerCfg s n k
  let (x0, x1) := layerSpan s n c m k f y
  let live := if k = 0 then baseLine s n l else fifoLine s n (fld w 14 8) l
  let key := if w.getLsbD 1 && w.getLsbD 23 then fifoLine s n (fld w 22 16) l else []
  let fmt := fld w 4 2
  let base := fld (setWordAt m (layerOff k 0x0C)) 2 0 * 2 ^ 32 + (setWordAt m (layerOff k 0x08)).toNat
  let row := base + ((bufferLine c m k f y).getD 0) * fld (setWordAt m (layerOff k 0x10)) 17 0
  (List.range c.w).map (fun x =>
    if x0 ≤ x ∧ x < x1 then
      let p := if k = 0 || w.getLsbD 1 then livePx mat c.w live x
        else
          let b := fmtBytes fmt
          graphicsPx mat fmt (leVal (s.memBytes (row + ((x : Int) - (layerPos m k).1).toNat * b) b)) (setWordAt m (layerOff k 0x24))
      some (p.rgb, sampleAlpha m k p.a p.luma (lineY key x))
    else none)

/-- The pre-blend and post-blend LUTs of a component. -/
def preOf (ch : Chan) (comp v : Nat) : Nat := (lutPre (fun i => lutEntry ch (lutKey 0 comp i)) v).toNat
def postOf (ch : Chan) (comp v : Nat) : Nat := (lutPost (fun i => lutEntry ch (lutKey 1 comp i)) v).toNat

/-- Y', Cb and Cr of one blended sample (steps 3 to 6 of R152, R156), from the layers' samples in blend order. -/
def blendSample (ch : Chan) (mat : Nat) (l : List (Option ((Nat × Nat × Nat) × Nat))) : Nat × Nat × Nat :=
  let acc := l.foldl (fun (acc : Nat × Nat × Nat) e => match e with
    | some (v, a) => (blend acc.1 (preOf ch 0 v.1) a, blend acc.2.1 (preOf ch 1 v.2.1) a, blend acc.2.2 (preOf ch 2 v.2.2) a)
    | none => acc) (0, 0, 0)
  let o := Config.fromRgb mat 262143 (postOf ch 0 acc.1, postOf ch 1 acc.2.1, postOf ch 2 acc.2.2)
  let clip (v : Nat) : Nat := max 4 (min 1019 v)
  (clip o.1, clip o.2.1, clip o.2.2)

/-- A pair of samples passes through (R157): no visible layer above layer 0 covers it or the samples beside it. -/
def pairPasses (m : Store Word) (spans : List (Nat × Nat)) (k : Nat) : Bool :=
  decide (fld (setWordAt m (layerOff 0 0x1C)) 9 0 = 1023) &&
    !(spans.any (fun e => (List.range 4).any (fun i => decide (1 ≤ 2 * k + i) && inSpan e (2 * k + i - 1))))

/-- Step 7 of R152: chroma of pair `k` from the samples at 2k − 1, 2k and 2k + 1. -/
def chromaPair (l : List Nat) (k : Nat) : Nat :=
  let v (x : Nat) := l.getD x 0
  roundOpen ((if k = 0 then Config.edge (v 0) else v (2 * k - 1)) + 2 * v (2 * k) + v (2 * k + 1)) 4

/-- A channel line as it is to be coded, at 10 bits: Y', and Cb and Cr in turn. `out`: layers that are transparent on it. -/
def composited (s : State) (n l f y : Nat) (out : List Nat) : List Nat × List Nat :=
  let ch := s.chan n
  let c := s.cfgOf n
  let m := ch.inUse
  let mat := chanMatrix c
  let live := baseLine s n l
  let shows (k : Nat) : Bool := k = 0 || visibleGraphics s n m k || visibleLive s n m k
  let spans := ((layersAbove m 0).filter shows).map (fun k => layerSpan s n c m k f y)
  let drawn := (blendOrder m).filter (fun k => shows k && !(out.contains k) && !(layerCovered s n c m k f y))
  let lines := drawn.map (fun k => layerLine s n c m k l f y)
  let all := (List.range c.w).map (fun x => blendSample ch mat (lines.map (fun e => e.getD x none)))
  let cb := all.map (fun e => e.2.1)
  let cr := all.map (fun e => e.2.2)
  let pairs := List.range (c.w / 2)
  (pairs.flatMap (fun k => if pairPasses m spans k then [lineY live (2 * k), lineY live (2 * k + 1)]
      else [(all.getD (2 * k) (0, 0, 0)).1, (all.getD (2 * k + 1) (0, 0, 0)).1]),
   pairs.flatMap (fun k => if pairPasses m spans k then [lineCb live k, lineCr live k] else [chromaPair cb k, chromaPair cr k]))

/-- Step 9 of R152. -/
def roundDepth (deep : Bool) (v : Nat) : Nat := if deep then v else min 255 (roundNear v 4)

/-- A composited line joins the encode source (steps 8 and 9 of R152, R146): of a 4:2:0 channel each second line of a field gives a
line of chroma with the line before it. -/
def storeLine (s : State) (n f y : Nat) (l : List Nat × List Nat) : State :=
  let ch := s.chan n
  let c := s.cfgOf n
  let p := sourcePic s n (ch.frame - 1)
  let t := setSamples s (p.lumaLine (frameLine c f y)) c.deep 0 (l.1.map (roundDepth c.deep))
  if c.c422 then setSamples t (p.chromaLine (frameLine c f y)) c.deep 0 (l.2.map (roundDepth c.deep))
  else if y % 2 = 0 then t.modChan n (fun ch => { ch with chroma := l.2 })
  else setSamples t (p.chromaLine (frameLine c f (y / 2))) c.deep 0 ((ch.chroma.zip l.2).map (fun e => roundDepth c.deep (roundOpen (e.1 + e.2) 2)))

/-- Count `k` lines into a saturating counter and set an event, when there are any. -/
def countLines (s : State) (n a k bit : Nat) : State := if k = 0 then s else (s.incSat a 31 0 k).evt (Pg.chcomp n) bit

/-- The bytes that a graphics layer reads for a field line. -/
def graphicsSpan (s : State) (n : Nat) (c : ChanCfg) (m : Store Word) (k f y : Nat) : Nat × Nat :=
  let (x0, x1) := layerSpan s n c m k f y
  let b := fmtBytes (fld (layerCfg s n k) 4 2)
  let base := fld (setWordAt m (layerOff k 0x0C)) 2 0 * 2 ^ 32 + (setWordAt m (layerOff k 0x08)).toNat
  (base + ((bufferLine c m k f y).getD 0) * fld (setWordAt m (layerOff k 0x10)) 17 0 + ((x0 : Int) - (layerPos m k).1).toNat * b, (x1 - x0) * b)

/-- Visible graphics layers that are fetched for a field line (R159). -/
def fetchedLayers (s : State) (n : Nat) (c : ChanCfg) (m : Store Word) (f y : Nat) : List Nat :=
  layers17.filter (fun k => visibleGraphics s n m k && decide ((layerSpan s n c m k f y).1 < (layerSpan s n c m k f y).2) && !(layerCovered s n c m k f y))

/-- The compositor has read a channel line: a repeat is counted where raw data failed (R346), and what failed is handled. The line's place
in the encode source holds new data. -/
def linesRead (s : State) (n line f y : Nat) (m : Store Word) : State :=
  let c := s.cfgOf n
  let raw := rawSpans s n (rawPar s n) line
  let t := if raw.any (fun e => readFails s 36 e.1 e.2) then s.inc32 (Reg.inpRepeats c.input) else s
  readDone (readDone t 36 (raw ++ (fetchedLayers s n c m f y).map (fun k => graphicsSpan s n c m k f y))) 37
    ((sourcePic s n ((s.chan n).frame - 1)).spans (frameLine c f y) (frameLine c f (if c.c422 then y else y / 2)))

/-- A channel line is blended during the line after it and written to the encode source (R146); a live layer outside its window, and
a graphics layer whose data has not arrived (`late`) or is uncorrectable, are transparent on it (R149, R166, R346). -/
def compositeLine (s : State) (n line : Nat) (late : List (Fin 8)) : State :=
  let ch := s.chan n
  let c := s.cfgOf n
  match pictureLine c line with
  | none => s
  | some (f, y) =>
    if !s.running || !ch.running || decide (ch.frame = 0 ∨ line < ch.lines) then s
    else
      let s := s.toPos (linePos s c ch.startFr (line + 1))
      let m := ch.inUse
      let missed := missedLayers s n m line
      let late := (fetchedLayers s n c m f y).filter (fun k => late.any (fun i => decide (i.val = k)) ||
        readFails s 36 (graphicsSpan s n c m k f y).1 (graphicsSpan s n c m k f y).2)
      let t := linesRead (storeLine s n f y (composited s n line f y (missed ++ late))) n line f y m
      let t := countLines (countLines t n (Reg.chcompLiveMiss n) missed.length 10) n (Reg.chcompLayerLate n) late.length 11
      (t.modChan n (fun c => { c with lines := line + 1 })).noteReady n

def execCompositeLine (n : Fin 128) (line : Nat) (late : List (Fin 8)) (s : State) : Out := .next (compositeLine s n line late)

/-! ### The scaler ladder (R167 to R169) -/

/-- A position in 1/64 samples from a quotient. -/
def phaseOf (a b : Int) : Int := a / b + if a % b ≠ 0 && Config.roundUp a.natAbs b.natAbs then 1 else 0

/-- Centre of output sample `i` on the input (R169), in 1/64 samples; `cosited`: of chroma that stands at every second luma sample. -/
def centre (cosited : Bool) (i inSize outSize : Nat) : Int :=
  if cosited then phaseOf (16 * ((4 * i + 1) * inSize - outSize)) outSize else phaseOf (32 * ((2 * i + 1) * inSize - outSize)) outSize

/-- Samples under `n` taps about a centre, of a dimension with `size` samples. -/
def underTaps (n size : Nat) (pos : Int) (f : Nat → Nat) : List Nat :=
  (List.range n).map (fun (k : Nat) =>
    let x := pos / 64 + (k : Int) - (n / 2 - 1 : Nat)
    let v := f (clampI x 0 (size - 1)).toNat
    if 0 ≤ x ∧ x < size then v else Config.edge v)

/-- One output sample: 6 taps vertically, then 8 taps horizontally. -/
def scaledSample (filter : Nat) (wi wo hi ho : Nat) (px py : Int) (f : Nat → Nat → Nat) : Nat :=
  Config.taps filter wi wo (px % 64).toNat (underTaps 8 wi px (fun x =>
    Config.taps filter hi ho (py % 64).toNat (underTaps 6 hi py (fun y => f x y))))

/-- The picture that a stage reads in frame `i`. -/
def stageInput (s : State) (n stage i : Nat) : Pic := if stage = 0 then sourcePic s n i else scaledPic s n (stage - 1) i

/-- Line `y` of field `f` of a stage's input is available (R169): composited, or written by the stage before. -/
def stageHas (s : State) (n stage f y : Nat) : Bool :=
  let ch := s.chan n
  let c := s.cfgOf n
  if stage = 0 then decide (fieldLine c f + y < ch.lines)
  else decide (f * ((stageInput s n stage 0).h / picsPerFrame c) + y < Store.get (fun _ => 0) ch.stages (stage - 1))

/-- The line that stands in for an input line (R346): the nearest at or above it that was read without error. -/
def standIn (fails : Nat → Bool) : Nat → Option Nat
  | 0 => if fails 0 then none else some 0
  | y + 1 => if fails (y + 1) then standIn fails y else some (y + 1)

/-- A ladder stage in use writes its next output line, of each field in turn, once the last input line under its taps is available
(R167 to R169). Chroma is scaled on its own grid; of a 4:2:0 channel each second line brings one of chroma. -/
def ladderLine (s : State) (n stage line : Nat) : State :=
  let ch := s.chan n
  let c := s.cfgOf n
  let g := c.stages.getD stage (false, 0, 0)
  let i := ch.frame - 1
  let p := stageInput s n stage i
  let o := scaledPic s n stage i
  let q := picsPerFrame c
  let ho := o.h / q
  let hi := p.h / q
  let f := line / max 1 ho
  let y := line % max 1 ho
  let filter := c.filters.getD stage 0
  let v := if c.c422 then 1 else 2
  let py := centre false y hi ho
  let pc := centre false (y / v) (hi / v) (ho / v)
  let need := max (clampI (py / 64 + 3) 0 (hi - 1)).toNat ((clampI (pc / 64 + 3) 0 ((hi / v : Nat) - 1)).toNat * v + (v - 1))
  let top := if c.deep then 1024 else 256
  if !(ch.running && g.1) || decide (ch.frame = 0 ∨ line ≠ Store.get (fun _ => 0) ch.stages stage ∨ ho * q ≤ line) || !(stageHas s n stage f need) then s
  else
    let read (at_ : Nat → Nat) (black : Nat) (g : Nat → Nat → Nat) (x k : Nat) : Nat :=
      match standIn (fun k => readFails s 37 (at_ (frameLine c f k)) (pitch p.w p.deep)) k with
      | some k => g x (frameLine c f k)
      | none => if c.deep then black else black / 4
    let luma := (List.range o.w).map (fun x =>
      scaledSample filter p.w o.w hi ho (centre false x p.w o.w) py (read p.lumaLine 64 (lumaAt s p)) % top)
    let chroma := (List.range o.w).map (fun k =>
      scaledSample filter (p.w / 2) (o.w / 2) (hi / v) (ho / v) (centre true (k / 2) p.w o.w) pc (read p.chromaLine 512 (chromaAt s p (k % 2))) % top)
    let t := setSamples s (o.lumaLine (frameLine c f y)) c.deep 0 luma
    let t := if c.c422 || decide (y % 2 = 1) then setSamples t (o.chromaLine (frameLine c f (y / v))) c.deep 0 chroma else t
    let t := readDone t 37 (o.spans (frameLine c f y) (frameLine c f (y / v)))
    (t.modChan n (fun ch => { ch with stages := Store.put (fun _ => 0) ch.stages stage (line + 1) })).noteReady n

def execLadderLine (n : Fin 128) (stage : Fin 3) (line : Nat) (s : State) : Out := .next (ladderLine s n stage line)

end Sys2Proof.Machine
end

