-- ==== Sys2Proof/Machine/Bitstream.lean ====
section
/-! DEFINITION. What an access unit states (04_encode_engines.md): parameter sets, NAL unit types, reference lists, headers and
messages (R93 to R111, R129). -/

namespace Sys2Proof.Machine

open State

/-! ### Parameter sets -/

/-- A bit of TOOLS, and a field of COLOUR (Table 4-8). -/
def toolBit (r : RendCfg) (i : Nat) : Bool := (r.coding.getD 0 0).getLsbD i
def colourBit (r : RendCfg) (i : Nat) : Bool := (r.coding.getD 6 0).getLsbD i

/-- The tools of Table 4-4. DEDUCED: CC-ALF, which the table puts in one row with ALF, is off with it (notes/assumptions/44.md). -/
def toolSet (c : ChanCfg) (r : RendCfg) : ToolSet :=
  let vvc := decide (r.codec = 1)
  let off (i : Nat) : Bool := vvc && !(toolBit r i)
  let b := decide (c.cls = 2)
  let dbk := r.coding.getD 1 0
  { amp := !vvc, cclm := off 10, tmvp := !(gdr c r), affine := off 5, mmvd := vvc, smvd := vvc && b, gpm := off 6, ciip := vvc
    dmvrBdof := off 7 && b, weighted := !(toolBit r 8), mts := vvc, tskip := if toolBit r 9 then 0 else if vvc then 32 else 4
    rdoqHiding := !vvc, depQuant := vvc, jccr := vvc, scalingDefault := toolBit r 11, deblock := !(toolBit r 1)
    beta := (dbk.extractLsb' 0 4).toInt, tc := (dbk.extractLsb' 4 4).toInt, sao := !(toolBit r 0), alf := off 2
    ccalf := off 3 && off 2, lmcs := vvc && toolBit r 4, hash := toolBit r 12, others := false }

/-- profile_idc (Table 4-3). -/
def profileIdc (r : RendCfg) : Nat :=
  match r.codec, r.profile with
  | 0, 0 => 1 | 0, 1 => 2 | 0, 2 => 4 | 1, 0 => 1 | 1, 1 => 33 | _, _ => 0

/-- colour_primaries, transfer_characteristics, matrix_coeffs (Table 4-7). -/
def colourPoints (c : ChanCfg) (r : RendCfg) : Nat × Nat × Nat :=
  match fld c.pixel 3 2 with
  | 0 => if colourBit r 0 then (9, 14, 9) else (1, 1, 1)
  | 1 => (9, 16, 9)
  | _ => if colourBit r 1 then (9, 14, 9) else (9, 18, 9)

/-- The HRD of Table 5-3, signalled with HRD_EN. -/
def hrdOf (c : ChanCfg) (r : RendCfg) : Option Hrd :=
  let units := decide (c.cls = 0 ∧ tileCount c r = 1)
  if r.aq.getLsbD 16 then
    some { bitRate := rtx r, cbr := false, cpb := cpbBits c r, units := units
           removal := if units then (r.ctu * c.h * c.den, r.h * c.num * c.lines) else (c.den, c.num * picsPerFrame c) }
  else none

def paramSets (c : ChanCfg) (r : RendCfg) : ParamSets :=
  let N := tileCount c r
  { vvc := decide (r.codec = 1), profileIdc := profileIdc r, main422 := decide (r.codec = 0 ∧ r.profile = 2), high := decide (r.tier = 1)
    level := r.level, w := r.w, h := picH c r, c422 := c.c422, deep := c.deep, ctu := r.ctu
    tiles := (List.range N).map (tileCtus (ctuCols r) N), sliceRows := unitRows c r, filterAcross := true, tools := toolSet c r
    colour := colourPoints c r, fullRange := false, fieldSeq := c.interl, hrd := hrdOf c r }

/-! ### Pictures -/

/-- A picture that has entered coding. -/
def picInfo (x : RcSt) (m : Nat) : Option PicInfo := x.pics.find? (fun p => decide (p.m = m))

/-- GDR period of a rendition. -/
def gdrPeriod (r : RendCfg) : Nat := max 1 (fld r.refresh 7 0)

/-- NAL unit type of the slices of picture `m` (R101 to R104): `start`, it begins a refresh period; `after`, it precedes the last
IRAP picture in output order. -/
def nalType (c : ChanCfg) (r : RendCfg) (m : Nat) (irap start after : Bool) : SliceNal :=
  if gdr c r then
    if r.codec = 1 then (if start then .gdrNut else .trail) else if m = 0 then .idrNLp else .trail
  else if c.cls = 2 then
    if m = 0 then .idrWRadl else if irap then .cra else if after then .leading else .trail
  else if irap then .idrNLp else .trail

/-- Pictures that picture `pic` (input order) of level `tid` may refer to, newest first: in ULL and LL those since the last IRAP
picture; in STD those of a lower level, or of level 0, which for a picture after the last IRAP picture are not before it. -/
def refPool (c : ChanCfg) (x : RcSt) (pic tid : Nat) : List PicInfo :=
  if c.cls = 2 then
    let base := ((x.pics.find? PicInfo.irap).map PicInfo.pic).getD 0
    x.pics.filter (fun p => decide (p.tid < max 1 tid ∧ (pic < base ∨ base ≤ p.pic)))
  else
    match x.pics.findIdx? PicInfo.irap with
    | some i => x.pics.take (i + 1)
    | none => x.pics

/-- Reference lists, each of up to REFS pictures (R104): the most recent ones; in STD the nearest before and the nearest after in
output order, the first list's where there is none after. DEDUCED: the nearest of a lower level (notes/assumptions/44.md). -/
def refLists (c : ChanCfg) (r : RendCfg) (x : RcSt) (pic tid : Nat) : List Nat × List Nat :=
  let pool := refPool c x pic tid
  if c.cls = 2 then
    let before := sortBy (fun a b => decide (b.pic ≤ a.pic)) (pool.filter (fun p => decide (p.pic < pic)))
    let after := sortBy (fun a b => decide (a.pic ≤ b.pic)) (pool.filter (fun p => decide (pic < p.pic)))
    let l0 := (before ++ after).take r.refs
    let l1 := (if after.isEmpty then before else after ++ before).take r.refs
    (l0.map PicInfo.m, l1.map PicInfo.m)
  else ((pool.take r.refs).map PicInfo.m, [])

/-- Clean area after picture `k` of the schedule: columns below this (R99). -/
def cleanEnd (r : RendCfg) (k : Nat) : Nat := (gdrBand r k).2

/-- The vertical virtual boundary of a VVC picture (R101), in luma samples. -/
def virtualBoundary (r : RendCfg) (p : PicInfo) : Option Nat :=
  match p.gdr with
  | some k => if r.codec = 1 ∧ k % gdrPeriod r + 1 < gdrPeriod r ∧ 0 < cleanEnd r k then some (cleanEnd r k * r.ctu) else none
  | none => none

/-- A picture that begins a refresh period (R97, R101, R107). -/
def beginsPeriod (r : RendCfg) (p : PicInfo) : Bool :=
  !p.quiet && match p.gdr with | some k => decide (k % gdrPeriod r = 0) | none => false

/-- The first field of a frame is the top field unless FIELD_ORDER is 1 (R109). -/
def topField (r : RendCfg) (f : Nat) : Bool := decide (f = 0) != colourBit r 2

/-- SEI messages of an access unit, and those that go with parameter sets only (R101, R109 to R111, R129). -/
def seis (c : ChanCfg) (r : RendCfg) (p : PicInfo) (params : Bool) : List Sei :=
  let vvc := decide (r.codec = 1)
  let top := if c.interl then some (topField r (p.pic % 2)) else none
  let hrd := hrdOf c r
  let w (i : Nat) : Word := r.coding.getD i 0
  (match hrd with | some h => if params then [.bufferingPeriod h.removal] else [] | none => []) ++
  (if hrd.isSome || (c.interl && !vvc) then [.picTiming (if vvc then none else top)] else []) ++
  (match top with | some t => if vvc then [.frameField t] else [] | none => []) ++
  (if beginsPeriod r p && !vvc then [.recoveryPoint (gdrPeriod r - 1) true false] else []) ++
  (if params && colourBit r 4 then [.masteringDisplay [w 8, w 9, w 10, w 11, w 12, w 13]] else []) ++
  (if params && colourBit r 5 then [.contentLight (w 14)] else []) ++
  (if params && decide (fld c.pixel 3 2 = 2) && colourBit r 1 then [.alternativeTransfer 18] else [])

/-- The NAL units before the first slice of an access unit (R96, R97). DEDUCED: parameter sets change at the start of a coded video
sequence only (notes/assumptions/44.md). -/
def headNals (c : ChanCfg) (r : RendCfg) (p : PicInfo) : List Nal :=
  let ps := paramSets c r
  let params := p.irap || beginsPeriod r p || decide (p.m = 0)
  .aud :: (if params then (if ps.vvc then [] else [.vps ps]) ++ [.sps ps, .pps ps] else []) ++
    (p.alf.toList.map .alfAps) ++ (p.lmcs.toList.map .lmcsAps) ++ (seis c r p params).map .sei

/-- Weight of the first reference (R106), for a slice that begins with CTU row `row` and starts coding now. -/
def sliceWeight (ch : Chan) (c : ChanCfg) (r : RendCfg) (p : PicInfo) (row : Nat) : Option Nat :=
  let g := gleanedFrame ch (p.pic / picsPerFrame c)
  let at_ := p.pic % picsPerFrame c * cellPicRows c + firstCellRow c r row
  if toolBit r 8 then none
  else match g.cutRow with
    | some k => if k ≤ at_ then none else g.weight
    | none => g.weight

/-- 0 I, 1 P, 2 B (R104): an IRAP picture, and a picture without references, has I slices. -/
def sliceKind (c : ChanCfg) (p : PicInfo) : Nat := if p.irap || p.list0.isEmpty then 0 else if c.cls = 2 then 2 else 1

/-- Header of the slice of a tile that begins with CTU row `row` and has `rows` rows. -/
def sliceHead (s : State) (n : Nat) (c : ChanCfg) (r : RendCfg) (p : PicInfo) (tile row rows : Nat) (plain : Bool) : SliceHead :=
  let x := s.rc n r.r
  let pocs (l : List Nat) : List Nat := l.filterMap (fun m => (picInfo x m).map PicInfo.pic)
  { nal := p.nal, kind := sliceKind c p, poc := p.pic, tid := p.tid, list0 := pocs p.list0, list1 := pocs p.list1
    weight := if sliceKind c p = 0 then none else sliceWeight (s.chan n) c r p row
    recovery := if p.nal = .gdrNut then some (gdrPeriod r - 1) else none, boundary := virtualBoundary r p
    alf := p.alf, lmcs := p.lmcs, plain := plain, tile := tile, row := row, rows := rows }

/-- NAL units of an access unit in decoding order: those before the slices, the slices, tile by tile, the hash. -/
def nalCount (c : ChanCfg) (r : RendCfg) (p : PicInfo) : Nat :=
  p.heads.length + tileCount c r * (units c r).length + (if toolBit r 12 then 1 else 0)

/-- Decoding order number of the slice of a tile in unit `i` of a picture. -/
def sliceDon (c : ChanCfg) (r : RendCfg) (p : PicInfo) (tile i : Nat) : Nat := p.don + p.heads.length + tile * (units c r).length + i

/-- All samples of a picture of a rendition as it is stored, and of its source. -/
def wholeRecon (s : State) (n : Nat) (c : ChanCfg) (r : RendCfg) (p : PicInfo) : List Nat :=
  blockOf s (reconPic s n r p.m p.pic) 0 r.w 0 (picH c r)
def wholeSource (s : State) (n : Nat) (c : ChanCfg) (r : RendCfg) (p : PicInfo) : List Nat := sourceBlock s n r p.pic 0 r.w 0 (picH c r)

/-- Channel frame `i` of the sequence is one of skip pictures (R59), and the engines whose QUIESCE was set at its start (R113). -/
def quietAt (ch : Chan) (i : Nat) : Bool × List Nat := ch.quiets.getD (ch.frame - 1 - i) (false, [])

/-- Picture `m` as it enters coding (R96, R97, R99 to R108). The refresh schedule stands still at a skip picture. -/
def newPicture (s : State) (n : Nat) (c : ChanCfg) (r : RendCfg) (m : Nat) : PicInfo :=
  let x := s.rc n r.r
  let o := orderOf c r x (irapGops s n r.r) m
  -- a sequence's first picture has nothing to repeat
  let quiet := decide (m ≠ 0) && (quietAt (s.chan n) (o.pic / picsPerFrame c)).1
  let irap := o.irap && !quiet
  let k := if m = 0 then 0 else if quiet then x.gdrPos else x.gdrPos + 1
  let start := gdr c r && !quiet && decide (k % gdrPeriod r = 0)
  let last := x.pics.head?
  let again := last.toList.map PicInfo.m
  -- a skip picture repeats the last reconstruction (R59)
  let l := if irap || decide (m = 0) then ([], []) else if quiet then (again, if c.cls = 2 then again else []) else refLists c r x o.pic o.tid
  let vvcTools := toolSet c r
  let base := ((x.pics.find? PicInfo.irap).map PicInfo.pic).getD 0
  let p : PicInfo :=
    { m := m, pic := o.pic, nal := nalType c r m irap start (decide (o.pic < base)), intra := irap || (gdr c r && !quiet && decide (k < gdrPeriod r))
      irap := irap, tid := o.tid, list0 := l.1, list1 := l.2, gdr := if gdr c r then some k else none, quiet := quiet
      extra := if quiet then [] else x.gdrOwed, acted := [], don := match last with | some q => q.don + nalCount c r q | none => 0, heads := []
      alf := if vvcTools.alf then last.map (fun q => Config.alfFilters (wholeSource s n c r q) (wholeRecon s n c r q)) else none
      lmcs := if vvcTools.lmcs then last.map (fun q => Config.lmcsModel (wholeSource s n c r q)) else none
      bits := 0, qps := (0, 0) }
  { p with heads := headNals c r p }

end Sys2Proof.Machine
end

