-- ==== Sys2Proof/Machine/Engines.lean ====
section
/-! DEFINITION. Rate control (R126 to R137), the path of a CTU (R68, R82 to R85, R98, R100), the engines' rows, deadlines and
emergency slices (R138 to R140), and the commands of the engine and CHRC pages. -/

namespace Sys2Proof.Machine

open State

/-- The truncating division of R135; by 0 the result is open (Config.divZero). -/
def divf (a b : Int) : Int := if b = 0 then Config.divZero a else tdiv a b

/-- Windowing step of a unit (R127): the CTU row in ULL, the picture otherwise. -/
def winStep (c : ChanCfg) (r : RendCfg) (m row : Nat) : Nat := if c.cls = 0 then m * ctuRows c r + row else m

/-- The unit, first row and row count, that holds CTU row `j` (R121). -/
def unitAt (c : ChanCfg) (r : RendCfg) (j : Nat) : Nat × Nat :=
  let u := unitOf c r j
  let R := ctuRows c r
  (u, if unitRows c r = 0 then R else min (unitRows c r) (R - u))

/-- The Steeple frame count at the start of frame `i` of the sequence. -/
def startOf (ch : Chan) (i : Nat) : BitVec 32 := ch.starts.getD (ch.frame - 1 - i) ch.startFr

/-- E_u less `early` channel lines, of the unit of row `j` of picture `m` in decoding order (R122, R123, R138). -/
def unitPoint (s : State) (ch : Chan) (c : ChanCfg) (r : RendCfg) (m j early : Nat) : BitVec 64 :=
  let f := startOf ch (m / picsPerFrame c)
  s.posAdd (posOf f 0) ((rowAnchor c r (m % picsPerFrame c) (unitOf c r j) + delayLines c - early) * rho c)

/-- The deadline of that unit's slices has come (R138). -/
def pastDeadline (s : State) (n : Nat) (c : ChanCfg) (r : RendCfg) (m j : Nat) : Bool :=
  !(later (unitPoint s (s.chan n) c r m j 4) s.stp.pos)

/-! ### Pictures and units enter coding -/

/-- Frame `m / picsPerFrame`'s target and QP are latched (R130 to R132). CHRC block registers of a rendition are numbered by it. -/
def latchTarget (s : State) (n : Nat) (c : ChanCfg) (r : RendCfg) (m : Nat) : State :=
  let qp := Reg.chrcFwQp n r.r
  if m / picsPerFrame c < 2 then
    (s.setN (Reg.chrcFrameTgt n r.r) (seedTarget c r)).setF (Reg.chrcFrameQp n r.r) 5 0 (fld r.qp 5 0)
  else if s.bit qp 31 then
    ((s.setReg (Reg.chrcFrameTgt n r.r) (s.reg (Reg.chrcFwTgt n r.r))).setF (Reg.chrcFrameQp n r.r) 5 0 (s.getF qp 5 0)).setBit qp 31 false
  else (s.inc32 (Reg.chrcFwLate n r.r)).evt (Pg.chrc n) 2

/-- A picture's first unit enters coding (R97, R99, R107, R108, R127, R130): the targets latch once in a channel frame. -/
def enterPicture (s : State) (n : Nat) (c : ChanCfg) (r : RendCfg) (m : Nat) : State :=
  let x := s.rc n r.r
  let p := newPicture s n c r m
  let old (k : Nat) : Bool := decide (k / 262144 + 64 ≤ m)
  let t := s.setRc n r.r { x with
    bitsFrame := 0, pic := some m, pics := (p :: x.pics).take 64, gdrPos := p.gdr.getD x.gdrPos
    gdrOwed := if p.quiet then x.gdrOwed else [], irapBase := if p.quiet then x.irapBase + 1 else x.irapBase
    still := if p.quiet && decide (p.tid = 0) then x.still ++ [p.pic] else x.still
    clean := (m, []) :: (if beginsPeriod r p then [] else x.clean.take 64), motion := x.motion.filter (fun e => !(old e.1)) }
  if m % picsPerFrame c = 0 then latchTarget t n c r m else t

/-- Intra designation and refresh band of a picture (R99, R102 to R104). -/
def picShape (r : RendCfg) (p : PicInfo) : Bool × (Nat × Nat) := (p.intra, match p.gdr with | some k => if p.quiet then (0, 0) else gdrBand r k | none => (0, 0))

/-- A CTU that the picture refreshes: in its band, or owed to it (R99, R108). -/
def inBand (r : RendCfg) (p : PicInfo) (row col : Nat) : Bool :=
  let b := (picShape r p).2
  decide (b.1 ≤ col ∧ col < b.2) || p.extra.contains (row, col)

/-- The excess that units in coding may still make of their allowances (R127). DEDUCED: a unit that enters counts it, so that no
window exceeds its budget (notes/assumptions/44.md). -/
def openExcess (l : List UnitRc) : Nat := sumN (l.map (fun u => (u.a - u.q).toNat))

/-- A unit enters coding (R135). -/
def enterUnit (s : State) (n : Nat) (c : ChanCfg) (r : RendCfg) (m : Nat) (u : Nat × Nat) : State :=
  let s := if (picInfo (s.rc n r.r) m).isSome then s else enterPicture s n c r m
  match picInfo (s.rc n r.r) m with
  | none => s
  | some p =>
    let ch := s.chan n
    let x := s.rc n r.r
    let (intra, band) := picShape r p
    let C := ctuCols r
    let N := tileCount c r
    let cost (j k a b : Nat) := areaCost ch c r p.pic intra band j k a b
    let cu := cost u.1 u.2 0 C
    let after := cost (u.1 + u.2) (ctuRows c r - (u.1 + u.2)) 0 C
    let q := unitReserve c r u
    let step := winStep c r m u.1
    let window := if x.window.any (fun e => decide (e.1 = step)) then x.window else ((step, 0) :: x.window).take r.window
    let excess := sumN (window.map Prod.snd)
    let tgt : Int := (s.reg (Reg.chrcFrameTgt n r.r)).toNat
    let a : Int := q + min ((unitCap c r (m % picsPerFrame c) u : Int) - q) ((winBudget c r : Int) - (excess + openExcess x.units))
    let t : Int := min (divf ((tgt - p.bits) * cu) (cu + after)) a
    let tiles := (List.range N).map (fun k =>
      let ctus := tileCtus C N k * u.2
      let ck := cost u.1 u.2 (tileCol C N k) (tileCol C N k + tileCtus C N k)
      ({ t := divf (t * ck) cu, a := (64 * ctus + 64 : Nat) + divf ((a - q) * ck) cu, cost := ck, done := 0, bits := 0
         left := ctus, num := 0, base := 0, pipe := [], ovf := false, qp := 0, head := none, ctus := [] } : TileRc))
    let entry : UnitRc := { pic := m, row := u.1, q := q, a := a, qpF := s.getF (Reg.chrcFrameQp n r.r) 5 0, bits := 0, left := N, tiles := tiles }
    (s.setRc n r.r { x with units := entry :: x.units, window := window }).setN (Reg.chrcWinExcess n r.r) excess

/-! ### Rows (R83, R85) -/

/-- The next CTU row of a context: picture in decoding order, row, its readiness (R85). -/
def nextRow (s : State) (x : Ctx) : Option (Nat × Nat × BitVec 64) :=
  let ch := s.chan x.ch
  let c := s.cfgOf x.ch
  match rendOf c x.rend with
  | none => none
  | some r =>
    let rc := s.rc x.ch x.rend
    let R := max 1 (ctuRows c r)
    let i := Store.get (fun _ => 0) rc.tileRows x.tile
    let m := i / R
    let pic := (picOf c r rc (irapGops s x.ch x.rend) m).1
    (ch.ready.find? (fun y => decide (y.rend = x.rend ∧ y.pic = pic ∧ y.row = i % R))).map (fun y => (m, i % R, y.pos))

/-- A context may start a row: its channel holds a placement on this slot and is not paused (R412). -/
def ctxRuns (s : State) (k : Nat) (x : Ctx) : Bool :=
  let ch := s.chan x.ch
  !ch.paused && match ch.place with
    | some pl => pl.rends.any (fun r => decide (r.rend = x.rend ∧ k ∈ r.slots))
    | none => false

/-- The context whose next row became ready earliest, the lowest context slot on a tie (R85). -/
def pickCtx (s : State) (k : Nat) : Option (Ctx × Nat × Nat × BitVec 64) :=
  minBy (fun a b => later b.2.2.2 a.2.2.2 || (decide (a.2.2.2 = b.2.2.2) && decide (a.1.idx < b.1.idx)))
    (((s.slot k).ctxs.filter (ctxRuns s k)).filterMap (fun x => (nextRow s x).map (fun y => (x, y))))

/-- Replace one tile of a unit. -/
def setTile (u : UnitRc) (k : Nat) (t : TileRc) : UnitRc := { u with tiles := u.tiles.set k t }

/-- Modify the unit of picture `m` that begins at CTU row `row`; modify a picture. -/
def modUnit (s : State) (n r m row : Nat) (f : UnitRc → UnitRc) : State :=
  let x := s.rc n r
  s.setRc n r { x with units := x.units.map (fun u => if u.pic = m ∧ u.row = row then f u else u) }
def modPic (s : State) (n r m : Nat) (f : PicInfo → PicInfo) : State :=
  let x := s.rc n r
  s.setRc n r { x with pics := x.pics.map (fun p => if p.m = m then f p else p) }

def unitRc (s : State) (n r m row : Nat) : Option UnitRc := (s.rc n r).units.find? (fun u => decide (u.pic = m ∧ u.row = row))

/-- A tile of a unit in coding. -/
def tileRc (s : State) (n r m row tile : Nat) : Option TileRc := (unitRc s n r m row).bind (fun u => u.tiles[tile]?)
def modTile (s : State) (n r m row tile : Nat) (f : TileRc → TileRc) : State :=
  modUnit s n r m row (fun u => { u with tiles := u.tiles.modify tile f })

/-- POSITION of an engine (Table 4-10). -/
def positionWord (j : Job) : Nat := j.ch + j.rend * 0x100 + j.tile * 0x1000 + j.row * 0x10000

/-- First and last luma column of tile `k`, exclusive. -/
def tileSpan (c : ChanCfg) (r : RendCfg) (k : Nat) : Nat × Nat :=
  let C := ctuCols r
  let N := tileCount c r
  (tileCol C N k * r.ctu, min r.w ((tileCol C N k + tileCtus C N k) * r.ctu))

/-- The window of a context is loaded for a CTU row (R70, R71): the band of CTU + 2·SRV lines of each reference. A RESIDENT window
that held the row before reads the incoming lines only; a REFILL window reads them all, on a shared engine into the other buffer of
the pair. A picture without references has none. -/
def loadWindow (s : State) (k : Nat) (cx : Ctx) (c : ChanCfg) (r : RendCfg) (p : PicInfo) (row : Nat) : State :=
  let key := k * 16 + cx.idx
  let lo := row * r.ctu - r.srv
  let hi := min (picH c r) ((row + 1) * r.ctu + r.srv)
  let buf := if cx.refill && (s.slot k).shared then 1 - Store.get (fun _ => 0) s.mill.bufs k else 0
  let from_ := match Store.get (fun _ => none) s.mill.wins key with
    | some w => if !r.refill && decide (w.pic = p.m ∧ w.hi < hi) then max lo w.hi else lo
    | none => lo
  let w : Option Win := if p.list0.isEmpty then none else some { pic := p.m, lo := lo, hi := hi, buf := buf, loaded := hi - from_ }
  { s with mill := { s.mill with wins := Store.put (fun _ => none) s.mill.wins key w
                                 bufs := if cx.refill && (s.slot k).shared then Store.put (fun _ => 0) s.mill.bufs k buf else s.mill.bufs } }

/-- A tile acts on the scene cut of a picture's frame at its first row that contains the cut row or stands below it (R105).
DEDUCED: EVT bit 1 is raised there, once for a tile and a frame (notes/assumptions/44.md). -/
def cutAt (ch : Chan) (c : ChanCfg) (r : RendCfg) (p : PicInfo) (row : Nat) : Bool :=
  match (gleanedFrame ch (p.pic / picsPerFrame c)).cutRow with
  | some k => decide (k ≤ p.pic % picsPerFrame c * cellPicRows c + lastCellRow c r row)
  | none => false

/-! ### The path of a CTU (R82) -/

/-- Key of a CTU, and of its place in a clean map. -/
def ctuKey (m row col : Nat) : Nat := (m * 256 + row) * 1024 + col

/-- Clean CTUs of picture `m` (R100, R114). -/
def cleanOf (x : RcSt) (m : Nat) : List Nat := ((x.clean.find? (fun e => decide (e.1 = m))).map Prod.snd).getD []

/-- Luma sample (x, y) of a reference lies in its clean area, its rightmost 8 samples excluded (R100). -/
def cleanSample (r : RendCfg) (clean : List Nat) (x y : Nat) : Bool :=
  let C := ctuCols r
  let at_ := y / r.ctu * C + x / r.ctu
  clean.contains at_ && (decide (x % r.ctu + 8 < r.ctu) || (decide (x / r.ctu + 1 < C) && clean.contains (at_ + 1)))

/-- The CTU lies in the clean area after its picture (R99, R100). -/
def inClean (r : RendCfg) (p : PicInfo) (col : Nat) : Bool := match p.gdr with | some k => decide (col < cleanEnd r k) | none => false

/-- Edges of a CTU inside the picture: columns and lines. -/
def ctuBox (c : ChanCfg) (r : RendCfg) (row col : Nat) : (Nat × Nat) × (Nat × Nat) :=
  ((col * r.ctu, min r.w ((col + 1) * r.ctu)), (row * r.ctu, min (picH c r) ((row + 1) * r.ctu)))

/-- Samples of a CTU in the reconstruction of picture `m`. -/
def reconBlock (s : State) (n : Nat) (c : ChanCfg) (r : RendCfg) (m row col : Nat) : List Nat :=
  let b := ctuBox c r row col
  match picInfo (s.rc n r.r) m with
  | some q => blockOf s (reconPic s n r m q.pic) b.1.1 b.1.2 b.2.1 b.2.2
  | none => []

/-- Samples that candidates may read of reference `m` (R67, R68, R100): the luma of the window, and the chroma of the same area from
HBM; for a CTU of the clean area the reference's clean samples alone. -/
def refSamples (s : State) (n : Nat) (c : ChanCfg) (r : RendCfg) (w : Win) (span : Nat × Nat) (clean : Bool) (m : Nat) :
    List (Option Nat) × List (Option Nat) :=
  let x := s.rc n r.r
  match picInfo x m with
  | none => ([], [])
  | some q =>
    let p := reconPic s n r m q.pic
    let map := cleanOf x m
    let ok (x y : Nat) : Bool := !clean || cleanSample r map x y
    let x0 := span.1 - r.srh
    let x1 := min r.w (span.2 + r.srh)
    let v := if c.c422 then 1 else 2
    ((List.range (w.hi - w.lo)).flatMap (fun j => (List.range (x1 - x0)).map (fun i =>
        if ok (x0 + i) (w.lo + j) then some (lumaAt s p (x0 + i) (w.lo + j)) else none)),
     [0, 1].flatMap (fun k => (List.range ((w.hi - w.lo) / v)).flatMap (fun j => (List.range ((x1 - x0) / 2)).map (fun i =>
        if ok (x0 + 2 * i) (w.lo + v * j) then some (chromaAt s p k (x0 / 2 + i) (w.lo / v + j)) else none))))

/-- What the choice of a CTU's modes may depend on (R84, R100, R105): the CTU of column `col` and row `row`, `h` the slice's header,
`before` its CTUs so far. Only CTUs of the slice are read as neighbours; for a CTU of the clean area only clean ones. -/
def ctuInput (s : State) (n : Nat) (c : ChanCfg) (r : RendCfg) (p : PicInfo) (h : SliceHead) (win : Option Win) (row col : Nat) (qp : Int)
    (before : List CtuCode) : CtuIn :=
  let x := s.rc n r.r
  let C := ctuCols r
  let b := ctuBox c r row col
  let own := inClean r p col
  let N := tileCount c r
  let c0 := tileCol C N h.tile
  let width := max 1 (tileCtus C N h.tile)
  let i := before.length
  let pick (ok : Bool) (back dr : Nat) (dc : Int) : List Nat :=
    if ok && (!own || (cleanOf x p.m).contains ((row - dr) * C + (col + dc).toNat)) then (before.getD (i - back) default).recon else []
  let left := decide (0 < i % width)
  let up := decide (width ≤ i)
  let refs := match win with
    | some w => (p.list0 ++ p.list1).map (refSamples s n c r w (tileSpan c r h.tile) own)
    | none => []
  let rec_ := ctuRecord (s.chan n) c r p.pic row col
  let was := p.list0.headD 0
  { config := r.words ++ r.coding ++ [c.pixel, BitVec.ofNat 32 c.cls], head := h, col := col, row := row, qp := qp, intra := p.intra
    source := sourceBlock s n r p.pic b.1.1 b.1.2 b.2.1 b.2.2
    record := [rec_.intra, rec_.inter, rec_.act, rec_.mean, if rec_.cut then 1 else 0, if rec_.still then 1 else 0]
    centre := if decide (c.cls ≠ 2) && cutAt (s.chan n) c r p row then none else some (rec_.mvx, rec_.mvy)
    luma := refs.map Prod.fst, chroma := refs.map Prod.snd
    near := [pick left 1 0 (-1), pick (up && left) (width + 1) 1 (-1), pick up width 1 0,
             pick (up && decide (col + 1 < c0 + width)) (width - 1) 1 1]
    before := before.map (fun e => { e with recon := [] })
    colloc := if gdr c r || p.list0.isEmpty then [] else
      [Store.get (fun _ => 0) x.motion (ctuKey was row col), Store.get (fun _ => 0) x.motion (ctuKey was row (col + 1))] }

/-- A zero-vector skip CTU from reference index 0, of both lists in B slices (R136, R138); a sample without a reference is open, by the
draw `f`. -/
def skipCode (s : State) (n : Nat) (c : ChanCfg) (r : RendCfg) (p : PicInfo) (f row col bits : Nat) : CtuCode :=
  let l (m : List Nat) : Option (List Nat) := m.head?.map (fun m => reconBlock s n c r m row col)
  let recon := match l p.list0, l p.list1 with
    | some a, some b => (a.zip b).map (fun e => (e.1 + e.2 + 1) / 2)
    | some a, none => a
    | none, _ =>
      let b := ctuBox c r row col
      let y := (b.1.2 - b.1.1) * (b.2.2 - b.2.1)
      (List.range (y + if c.c422 then y else y / 2)).map (fun i => Config.freeSample f (ctuKey p.m row col * 65536 + i) % (if c.deep then 1024 else 256))
  { bits := bits, ctxBins := 0, bypBins := 0, intra := false, skip := true, modes := 0, recon := recon }

/-- Note a coded CTU: its samples before the filters, its modes, and whether it is clean (R100, R108): a skip CTU is as clean as the
reference it copies. -/
def noteCtu (s : State) (n : Nat) (r : RendCfg) (p : PicInfo) (plain : Bool) (row col : Nat) (qp : Int) (code : CtuCode) : State :=
  let x := s.rc n r.r
  let at_ := row * ctuCols r + col
  let fresh := if code.skip then match p.list0 with | m :: _ => (cleanOf x m).contains at_ | [] => false else inClean r p col
  let clean := x.clean.map (fun e =>
    if e.1 = p.m then (e.1, if fresh then (if e.2.contains at_ then e.2 else at_ :: e.2) else e.2.filter (fun k => decide (k ≠ at_))) else e)
  s.setRc n r.r { x with unf := Store.put (fun _ => none) x.unf (ctuKey p.m row col) (some ⟨code, qp, plain⟩)
                         motion := Store.put (fun _ => 0) x.motion (ctuKey p.m row col) code.modes, clean := clean }

/-! ### Rows of the pipeline -/

/-- Row `row` of picture `m` starts for a context of slot `k`, on engine `e` (R82, R83). -/
def startRow (s : State) (k e : Nat) (cx : Ctx) (m row : Nat) : State :=
  let c := s.cfgOf cx.ch
  match rendOf c cx.rend with
  | none => s
  | some r =>
    let u := unitAt c r row
    let t := if (unitRc s cx.ch cx.rend m u.1).isSome then s else enterUnit s cx.ch c r m u
    match picInfo (t.rc cx.ch cx.rend) m with
    | none => t
    | some p =>
      let t := modTile t cx.ch cx.rend m u.1 cx.tile (fun tl =>
        { tl with ovf := false, head := some (tl.head.getD (sliceHead t cx.ch c r p cx.tile u.1 u.2 false)) })
      let job : Job := ⟨cx.idx, cx.ch, cx.rend, cx.tile, m, row, 0, 0, 0, 0, 0, 0⟩
      let t := loadWindow (t.setSlot k { t.slot k with job := some job }) k cx c r p row
      let t := t.setN (Reg.eePosition e) (positionWord job)
      if cutAt (t.chan cx.ch) c r p row && !(p.acted.contains cx.tile) then
        (modPic t cx.ch cx.rend m (fun p => { p with acted := cx.tile :: p.acted })).evt (Pg.ee e) 1
      else t

/-- A row or row turn starts on a committed slot (R83, R85). -/
def beginRow (s : State) (k : Nat) : State :=
  match (s.slot k).eng, (s.slot k).job, pickCtx s k with
  | some e, none, some (cx, m, row, _) => startRow s k e cx m row
  | _, _, _ => s

/-- CTUs of the refresh band in a fallback or a replaced row are owed to the next picture (R108): GDR_LATE when they are carried past
the last picture of a period. -/
def oweRefresh (s : State) (n : Nat) (r : RendCfg) (p : PicInfo) (l : List (Nat × Nat)) (e : Option Nat) : State :=
  let x := s.rc n r.r
  let l := l.filter (fun a => inBand r p a.1 a.2)
  match p.gdr with
  | some k =>
    if l.isEmpty then s
    else
      let t := s.setRc n r.r { x with gdrOwed := x.gdrOwed ++ l.filter (fun a => !(x.gdrOwed.contains a)) }
      match e with
      | some e => if k % gdrPeriod r = gdrPeriod r - 1 then t.evt (Pg.ee e) 2 else t
      | none => t
  | none => s

/-- The QP of a CTU (R135). -/
def ctuQp (r : RendCfg) (u : UnitRc) (tl : TileRc) (actRef act : Nat) : Int :=
  let fbMax : Int := fld r.aq 11 8
  let expect := divf (tl.t * tl.done) tl.cost
  let fb := clampI (divf (8 * (tl.bits - expect)) tl.t) (-fbMax) fbMax
  let aq := clampI (tdiv (3 * fld r.aq 3 0 * ((act : Int) - actRef)) 64) (-8) 8
  clampI (u.qpF + aq + fb) (fld r.qp 13 8) (fld r.qp 21 16)

/-- The QP that a CTU is coded with: in the first GDR period all but the refresh band takes FIRST_QP_OFS more (R102). -/
def codedQp (r : RendCfg) (p : PicInfo) (row col : Nat) (qp : Int) : Int :=
  if p.gdr.isSome && p.intra && !(inBand r p row col) then qp + r.first else qp

/-- The rows of a tile are coded as skip CTUs: a skip picture (R59), or the QUIESCE of the engine (R113). -/
def codesSkip (s : State) (n : Nat) (c : ChanCfg) (p : PicInfo) (e : Nat) : Bool :=
  p.quiet || (quietAt (s.chan n) (p.pic / picsPerFrame c)).2.contains e

/-- CTUs that stand between Decide and the end of Entropy (Table 4-1). DEDUCED: one in each of Reconstruct, Filter and Entropy
(notes/assumptions/44.md). -/
def pipeDepth : Nat := 3

/-- The oldest CTUs leave the Entropy stage until `pipeDepth` stand behind Decide. -/
def drainPipe (tl : TileRc) : TileRc :=
  let k := tl.pipe.length - pipeDepth
  { tl with bits := tl.bits + sumN ((tl.pipe.take k).map Prod.snd), pipe := tl.pipe.drop k }

/-- A CTU's code and the bound of its size (R136): as chosen; its fallback, where the sum of the bits passes a_k; a skip CTU in a row
of skip CTUs. In an I slice the planar intra CTU stands for the skip CTU. No CTU passes its bound, nor a fallback the 64 bits kept
for it. -/
def ctuCode (s : State) (n : Nat) (c : ChanCfg) (r : RendCfg) (p : PicInfo) (x : CtuIn) (tl : TileRc) (skip : Bool) : CtuCode × Nat × Bool :=
  let plainly : CtuCode :=
    if x.head.kind = 0 then let a := Config.codePlanar x; { a with bits := min a.bits 64, intra := true, skip := false }
    else skipCode s n c r p s.free x.row x.col (min (Config.skipBits x) 64)
  if skip then (plainly, 64, false)
  else
    let a := Config.codeCtu x
    let bound := 8 * a.ctxBins + a.bypBins + 32
    let total : Int := (tl.bits + sumN (tl.pipe.map Prod.fst) + bound + 64 * (tl.left - 1) + 64 : Nat)
    if tl.a < total then (plainly, 64, true) else ({ a with bits := min a.bits bound }, bound, false)

/-- A CTU of the row in coding is decided, and coded (R82, R135, R136). -/
def ctuDecide (s : State) (k : Nat) : State :=
  match (s.slot k).eng, (s.slot k).job with
  | some e, some j =>
    let c := s.cfgOf j.ch
    match rendOf c j.rend with
    | none => s
    | some r =>
      let u0 := (unitAt c r j.row).1
      match unitRc s j.ch j.rend j.pic u0, tileRc s j.ch j.rend j.pic u0 j.tile, picInfo (s.rc j.ch j.rend) j.pic with
      | some u, some tl, some p =>
        match tl.head with
        | none => s
        | some h =>
          let C := ctuCols r
          let N := tileCount c r
          if tileCtus C N j.tile ≤ j.done ∨ tl.left = 0 then s
          else
            let col := tileCol C N j.tile + j.done
            let ch := s.chan j.ch
            let cost := ctuCost ch c r p.pic j.row col (p.intra || inBand r p j.row col)
            let act := meanOf ((ctuRecords ch c r p.pic j.row col).map Cell.act)
            let tl := { drainPipe tl with done := tl.done + cost }
            let qp := codedQp r p j.row col (ctuQp r u tl (actRefOf ch (p.pic / picsPerFrame c)) act)
            let x := ctuInput s j.ch c r p h (Store.get (fun _ => none) s.mill.wins (k * 16 + j.ctx)) j.row col qp tl.ctus
            let (code, bound, fall) := ctuCode s j.ch c r p x tl (codesSkip s j.ch c p e)
            let tl' := { tl with qp := qp, pipe := tl.pipe ++ [(bound, code.bits)], left := tl.left - 1, num := tl.num + 1
                                 ovf := tl.ovf || fall, ctus := tl.ctus ++ [code] }
            let t := modTile s j.ch j.rend j.pic u0 j.tile (fun _ => tl')
            let t := t.setSlot k { t.slot k with job := some { j with
              done := j.done + 1, bits := j.bits + code.bits, intra := j.intra + (if code.intra then 1 else 0)
              skip := j.skip + (if code.skip then 1 else 0) } }
            let t := noteCtu t j.ch r p false j.row col qp code
            let t := modPic t j.ch j.rend j.pic (fun p => { p with qps := (p.qps.1 + qp, p.qps.2 + 1) })
            if fall then
              let t := if tl.ovf then t else (t.inc32 (Reg.chrcOvfRows j.ch j.rend)).evt (Pg.chrc j.ch) 1
              if code.skip then oweRefresh t j.ch r p [(j.row, col)] (some e) else t
            else t
      | _, _, _ => s
  | _, _ => s

def execCtuDecide (slot : Fin 32) (s : State) : Out := .next (ctuDecide s slot)

/-- The CTUs left of the row in coding are decided. -/
def decideRest (k : Nat) : Nat → State → State
  | 0, s => s
  | f + 1, s => decideRest k f (ctuDecide s k)

/-- Ready rows that every tile has coded or lost are dropped. -/
def dropReady (s : State) (n : Nat) (c : ChanCfg) (r : RendCfg) : State :=
  let x := s.rc n r.r
  let R := max 1 (ctuRows c r)
  let done := (List.range (tileCount c r)).foldl (fun a k => min a (Store.get (fun _ => 0) x.tileRows k)) (10 ^ 9)
  let past := (List.range (done % R)).map (fun j => (done / R, j)) ++ (if R ≤ done then (List.range R).map (fun j => (done / R - 1, j)) else [])
  let dead (y : ReadyRow) := y.rend = r.r ∧ past.any (fun e =>
    decide ((picOf c r x (irapGops s n r.r) e.1).1 = y.pic ∧ e.2 = y.row))
  s.modChan n (fun ch => { ch with ready := ch.ready.filter (fun y => !(decide (dead y))) })

/-! ### Slices leave the engine -/

/-- Bits of a slice header with the slice's end, within the 64 bits of the reserve (R127). -/
def headCost (h : SliceHead) : Nat := min (Config.headBits h) 64

/-- Bits join a unit and its picture (R126, R127), `less` bits of replaced rows apart. -/
def addBits (s : State) (n r m row bits less : Nat) : State :=
  let t := modUnit s n r m row (fun u => { u with bits := u.bits + bits - less })
  let t := modPic t n r m (fun p => { p with bits := p.bits + bits - less })
  let x := t.rc n r
  t.setRc n r { x with bitsFrame := if x.pic = some m then x.bitsFrame + bits - less else x.bitsFrame }

/-- A tile has passed rows up to CTU row `i` of the sequence. -/
def passRows (s : State) (n r tile i : Nat) : State :=
  let x := s.rc n r
  s.setRc n r { x with tileRows := Store.put (fun _ => 0) x.tileRows tile (max i (Store.get (fun _ => 0) x.tileRows tile)) }

/-- A slice of a unit is coded or replaced: with the last one the unit's excess joins the window, and with the last unit the picture's
bits are known (R127, R130). -/
def endSlice (s : State) (n : Nat) (c : ChanCfg) (r : RendCfg) (m : Nat) (u : Nat × Nat) : State :=
  let t := modUnit s n r.r m u.1 (fun y => { y with left := y.left - 1 })
  match unitRc t n r.r m u.1 with
  | none => t
  | some y =>
    if y.left ≠ 0 then t
    else
      let x := t.rc n r.r
      let window := x.window.map (fun e => if e.1 = winStep c r m u.1 then (e.1, e.2 + (y.bits - y.q)) else e)
      let units := x.units.filter (fun z => decide (¬(z.pic = m ∧ z.row = u.1)))
      let last := !(units.any (fun z => decide (z.pic = m))) &&
        (List.range (tileCount c r)).all (fun k => decide ((m + 1) * ctuRows c r ≤ Store.get (fun _ => 0) x.tileRows k))
      let p := (picInfo x m).map (fun p => (p.bits, p.qps.1, p.qps.2))
      let t := t.setRc n r.r { x with units := units, window := window
                                      history := match last, p with | true, some e => (e :: x.history).take 16 | _, _ => x.history }
      let t := t.setN (Reg.chrcWinExcess n r.r) (sumN (window.map Prod.snd))
      match last, p with | true, some e => t.setN (Reg.chrcFrameBits n r.r) e.1 | _, _ => t

/-- The slot that codes a tile of a rendition. -/
def tileSlot (s : State) (n r tile : Nat) : Option Nat :=
  ((s.chan n).place.bind (fun pl => pl.rends.find? (fun x => x.rend = r))).bind (fun x => if x.shared then x.slots[0]? else x.slots[tile]?)

/-! ### Comparison with the twin (R396, R397) -/

/-- The work of an engine under targeted test passes to the STANDBY engine, or to the recalled LOAN engine (R397). -/
def passForTest (s : State) (e : Nat) : State :=
  match s.slotOf e with
  | none => s
  | some k =>
    if (s.slot k).job.isSome then s
    else match s.eng.standby, s.eng.loan with
      | some b, _ => ((({ s with eng := { s.eng with standby := none } } : State).giveSlot k (some b)).syncEngine e).syncSpares.guarantee
      | none, some l =>
        ((({ s with eng := { s.eng with loan := none, loanPass := false } } : State).giveSlot k (some l)).syncEngine e).syncSpares.guarantee
      | none, none => s

/-- A resolution starts (R397). -/
def startResolution (s : State) (x : Resolve) : State :=
  let t := { s with twin := { s.twin with resolving := some x } }
  let t := (t.setN Reg.stileResolve (x.twinRes * 4 + x.engine * 0x10)).setBit Reg.stileState 13 true
  passForTest t x.engine

/-- LAST_MISMATCH of a record (Table 18-5); LOC1 of the twin's faults holds the same fields without the channel. -/
def recWord (r : CrcRec) : Nat := r.channel.val + r.rend.val * 0x100 + r.tile.val * 0x400 + r.row.val * 0x10000

/-- A mismatch: the first in a channel that is not diverged starts a resolution, or waits for the one in progress. -/
def noteMismatch (s : State) (r : CrcRec) : State :=
  let n := r.channel.val
  let t := s.inc32 Reg.stileMismatches
  if s.twin.diverged.contains n then t
  else
    let t := { t with twin := { t.twin with diverged := n :: t.twin.diverged } }
    let t := ((t.setN Reg.stileLastMismatch (recWord r)).evt Pg.stile 4).raise 0x7003 Pg.stile n (recWord r - n)
    let e := ((tileSlot s n r.rend r.tile).bind (fun k => (s.slot k).eng)).getD 63
    let x : Resolve := ⟨n, r.rend, r.tile, r.row, e, 0, 0⟩
    if t.twin.resolving.isSome then { t with twin := { t.twin with waiting := t.twin.waiting ++ [x] } } else startResolution t x

/-- Two records are of one slice. -/
def samePlace (a b : CrcRec) : Bool :=
  decide (a.channel = b.channel ∧ a.rend = b.rend ∧ a.tile = b.tile ∧ a.row = b.row ∧ a.frame = b.frame)

/-- Compare two records of one slice. -/
def comparePair (s : State) (own twin : CrcRec) : State :=
  let t := s.inc32 Reg.stileCompared
  if own.crc = twin.crc then t else noteMismatch t own

/-- An own record meets the twin's, or waits for it. -/
def ownRecord (s : State) (r : CrcRec) : State :=
  match s.twin.twin.find? (samePlace r) with
  | some q => comparePair { s with twin := { s.twin with twin := s.twin.twin.erase q } } r q
  | none => { s with twin := { s.twin with own := s.twin.own ++ [r] } }

/-- A record of the twin meets the own one, or waits for it. -/
def twinRecord (s : State) (r : CrcRec) : State :=
  match s.twin.own.find? (samePlace r) with
  | some q => comparePair { s with twin := { s.twin with own := s.twin.own.erase q } } q r
  | none => { s with twin := { s.twin with twin := s.twin.twin ++ [r] } }

/-- A slice of the twin comparison, sent while the Stile is up (R389, R396). -/
def sendSliceCrc (s : State) (n r tile row : Nat) (emerg : Bool) (m : Nat) (crc : BitVec 32) : State :=
  if s.twinUp then
    -- message data that the Stile could not read is not sent (R346)
    let lost := s.hbm.failed.any (stillFails s 49)
    let f := startOf (s.chan n) (m / picsPerFrame (s.cfgOf n))
    let rec_ : CrcRec := ⟨Fin.ofNat 128 n, Fin.ofNat 4 r, Fin.ofNat 8 tile, Fin.ofNat 256 row, emerg, f.setWidth 16, crc⟩
    ownRecord (if lost then failsHandled s 49 else { s with sent := .sliceCrc rec_ (stileRows s 0x11 (recordBytes rec_)) :: s.sent }) rec_
  else s

/-- The NAL unit of a slice: its bytes, of as many as its bits fill. -/
def sliceBytes (h : SliceHead) (ctus : List CtuCode) : List (BitVec 8) :=
  (List.range (ceilDiv (headCost h + sumN (ctus.map CtuCode.bits)) 8)).map (Config.sliceByte (.slice h ctus))

/-- A complete slice joins the slice buffer (R52, R122); its CRC stands in SLICE_CRC and goes to the twin (R115, R396). -/
def formSlice (s : State) (n : Nat) (c : ChanCfg) (r : RendCfg) (p : PicInfo) (u : Nat × Nat) (h : SliceHead) (ctus : List CtuCode)
    (emerg : Bool) : State :=
  let ch := s.chan n
  let bytes := sliceBytes h ctus
  let crc := BitVec.ofNat 32 (crc32 (bytes.map BitVec.toNat))
  let i := ((units c r).takeWhile (fun v => decide (v.1 < u.1))).length
  let heads := if u.1 = 0 ∧ h.tile = 0 then (p.heads.zip (List.range p.heads.length)).map (fun e => (p.don + e.2, Config.nalBytes e.1)) else []
  let out : SliceOut :=
    { seqNo := ch.seqNo, m := p.m, row := u.1, rows := u.2, tile := h.tile, count := tileCount c r, don := sliceDon c r p h.tile i, e := unitPoint s ch c r p.m u.1 0
      frame := startOf ch (p.m / picsPerFrame c), emerg := emerg, format := r.format, rtx := rtx r, firstOfAu := decide (u.1 = 0), lastOfAu := decide (u.1 + u.2 = ctuRows c r)
      nals := heads ++ [(sliceDon c r p h.tile i, bytes)] }
  let t := s.setChan n { ch with slices := Store.put (fun _ => []) ch.slices r.r (Store.get (fun _ => []) ch.slices r.r ++ [out]) }
  let t := match (tileSlot t n r.r h.tile).bind (fun k => (t.slot k).eng) with
    | some e => t.setReg (Reg.eeSliceCrc e) crc
    | none => t
  sendSliceCrc t n r.r h.tile u.1 emerg p.m crc

/-! ### Reconstruction (R98, R116, R117) -/

/-- The six RECON words of a completed picture (R116, R117, Table 4-10). -/
def reconWords (s : State) (n : Nat) (c : ChanCfg) (r : RendCfg) (m pic : Nat) : List Word :=
  let a := (reconPic s n r m pic).base
  let p := pitch r.w c.deep
  [BitVec.ofNat 32 a, BitVec.ofNat 32 (a / 2 ^ 32 % 8), BitVec.ofNat 32 p, BitVec.ofNat 32 (p * picH c r), BitVec.ofNat 32 pic,
   startOf (s.chan n) (pic / picsPerFrame c)]

/-- RECON of every member of the rendition's gang (R114, R117). -/
def reconUpdate (s : State) (n : Nat) (c : ChanCfg) (r : RendCfg) (m pic : Nat) : State :=
  let x := s.rc n r.r
  let s := s.setRc n r.r { x with shown := some (reconPic s n r m pic).base }
  match ((s.chan n).place.bind (fun pl => pl.rends.find? (fun x => x.rend = r.r))) with
  | none => s
  | some x =>
    x.slots.foldl (fun t k =>
      let i := (((t.slot k).ctxs.find? (fun y => decide (y.ch = n ∧ y.rend = r.r))).map Ctx.idx).getD 0
      let t := { t with eng := { t.eng with recon := Store.put (fun _ => []) t.eng.recon (k * 16 + i) (reconWords t n c r m pic) } }
      match (t.slot k).eng with | some e => t.showRecon e (some k) | none => t) s

/-- The hash SEI of a picture follows its last slice (HASH_ON, Table 4-4). -/
def addHash (s : State) (n : Nat) (c : ChanCfg) (r : RendCfg) (p : PicInfo) : State :=
  let don := p.don + nalCount c r p - 1
  let nal := (don, Config.nalBytes (.sei (.pictureHash (Config.pictureCrc (wholeRecon s n c r p)))))
  let mine (ch : Chan) (x : SliceOut) : Bool := decide (x.seqNo = ch.seqNo ∧ x.m = p.m ∧ x.tile + 1 = tileCount c r) && x.lastOfAu
  if toolBit r 12 then
    s.modChan n (fun ch => { ch with slices := Store.put (fun _ => []) ch.slices r.r ((Store.get (fun _ => []) ch.slices r.r).map (fun x =>
      if mine ch x then { x with nals := x.nals.filter (fun e => decide (e.1 ≠ don)) ++ [nal] } else x)) })
  else s

/-- Filter stage of one CTU (Table 4-1): over its neighbours across tile and slice boundaries, not beyond a virtual boundary (R98,
R101); the samples go to the reconstruction. -/
def filterOne (s : State) (n : Nat) (c : ChanCfg) (r : RendCfg) (p : PicInfo) (row col : Nat) : State :=
  let x := s.rc n r.r
  let side (i : Nat) : Bool := match virtualBoundary r p with | some v => decide (v ≤ i * r.ctu) | none => false
  let at_ (dj di : Nat) : Option DoneCtu :=
    if row + dj = 0 ∨ col + di = 0 ∨ ctuRows c r < row + dj ∨ ctuCols r < col + di then none
    else if side (col + di - 1) != side col then none
    else Store.get (fun _ => none) x.unf (ctuKey p.m (row + dj - 1) (col + di - 1))
  let b := ctuBox c r row col
  let l := Config.filterCtu r.coding p.alf p.lmcs ((List.range 9).map (fun k => at_ (k / 3) (k % 3)))
  let y := (b.1.2 - b.1.1) * (b.2.2 - b.2.1)
  let l := (List.range (y + if c.c422 then y else y / 2)).map (fun i => l.getD i 0 % (if c.deep then 1024 else 256))
  setBlock s (reconPic s n r p.m p.pic) b.1.1 b.1.2 b.2.1 b.2.2 l

/-- CTU rows of the sequence that every tile has passed. -/
def knownRows (s : State) (n : Nat) (c : ChanCfg) (r : RendCfg) : Nat :=
  (List.range (tileCount c r)).foldl (fun a k => min a (Store.get (fun _ => 0) (s.rc n r.r).tileRows k)) (10 ^ 9)

/-- The Filter stage follows one CTU row behind: a row is filtered when the row below it in the picture is known (Table 4-1). Fuel:
one row at a time. -/
def filterRows (n : Nat) (c : ChanCfg) (r : RendCfg) : Nat → State → State
  | 0, s => s
  | f + 1, s =>
    let x := s.rc n r.r
    let R := max 1 (ctuRows c r)
    let i := x.filtered
    let last := decide (i % R = R - 1)
    match picInfo x (i / R) with
    | none => s
    | some p =>
      if i + (if last then 1 else 2) ≤ knownRows s n c r then
        let t := (List.range (ctuCols r)).foldl (fun t col => filterOne t n c r p (i % R) col) s
        let y := t.rc n r.r
        let unf := if last then y.unf.filter (fun e => decide (p.m ≤ e.1 / 262144 + 1)) else y.unf
        let t := t.setRc n r.r { y with filtered := i + 1, unf := unf }
        filterRows n c r f (if last then addHash (reconUpdate t n c r p.m p.pic) n c r p else t)
      else s

/-- Filter what has become known. -/
def filterKnown (s : State) (n : Nat) (c : ChanCfg) (r : RendCfg) : State :=
  filterRows n c r (knownRows s n c r - (s.rc n r.r).filtered) s

/-! ### Emergency skip slices (R26, R65, R138, R139) -/

/-- Why a slice is replaced: a miss, a lost row (R65), RECOVERY (R412), a Steeple step (R26). -/
inductive EmergCause where
  | miss | lost | recovery | step
  deriving DecidableEq, Repr

/-- CTUs (row, column) of the slice of a tile. -/
def sliceCtus (c : ChanCfg) (r : RendCfg) (tile : Nat) (u : Nat × Nat) : List (Nat × Nat) :=
  let C := ctuCols r
  let N := tileCount c r
  (List.range u.2).flatMap (fun j => (List.range (tileCtus C N tile)).map (fun i => (u.1 + j, tileCol C N tile + i)))

/-- The reconstruction of a skip slice as a decoder forms it; `plain`, its in-loop filters are disabled (R138, R139). -/
def skipCtus (s : State) (n : Nat) (c : ChanCfg) (r : RendCfg) (p : PicInfo) (h : SliceHead) (l : List (Nat × Nat)) : State × List CtuCode :=
  let f := s.free
  let t := if p.list0.isEmpty then s.draw.2 else s
  l.foldl (fun acc e =>
    let x : CtuIn := ctuInput acc.1 n c r p h none e.1 e.2 0 acc.2
    let code := skipCode acc.1 n c r p f e.1 e.2 (min (Config.skipBits x) 64)
    (noteCtu acc.1 n r p h.plain e.1 e.2 0 code, acc.2 ++ [code])) (t, [])

/-- What an emergency skip slice leaves on the registers (R26, R65, R140, R412). -/
def reportEmerg (s : State) (n rend tile row m rows : Nat) (e : Option Nat) (why : EmergCause) : State :=
  let f := startOf (s.chan n) (m / picsPerFrame (s.cfgOf n))
  let t := match e with
    | some e => (s.incSat (Reg.eeEmergRows e) 31 0 rows).evt (Pg.ee e) 0
    | none => s
  let t := t.modChan n (fun ch => { ch with air := { ch.air with emerg := true } })
  match why with
  | .miss =>
    let w := rend + tile * 4 + row * 0x100 + (f.toNat % 65536) * 0x10000
    ((((t.inc32 (Reg.chrcMisses n rend)).setN (Reg.chrcLastMiss n) w).evt (Pg.chrc n) 0).raise 0x2001 (Pg.chrc n) w (e.getD 63))
  | .step => t.evt (Pg.chrc n) 3
  | .lost | .recovery => t

/-- A row of the slice that a slot has in coding ends there (R139). -/
def abandonRow (s : State) (n r tile m : Nat) (u : Nat × Nat) : State :=
  match tileSlot s n r tile with
  | none => s
  | some k => match (s.slot k).job with
    | some j =>
      if j.ch = n ∧ j.rend = r ∧ j.tile = tile ∧ j.pic = m ∧ u.1 ≤ j.row ∧ j.row < u.1 + u.2 then
        let t := s.setSlot k { s.slot k with job := none }
        match (s.slot k).eng with | some e => t.setBit (Reg.eePosition e) 24 true | none => t
      else s
    | none => s

/-- The slice of a tile in unit `u` of picture `m` leaves as an emergency skip slice, which replaces all that has been coded of it (R138
to R140). -/
def replaceSlice (s : State) (n : Nat) (c : ChanCfg) (r : RendCfg) (tile m : Nat) (u : Nat × Nat) (why : EmergCause) : State :=
  let t := abandonRow s n r.r tile m u
  let t := if (unitRc t n r.r m u.1).isSome then t else enterUnit t n c r m u
  match picInfo (t.rc n r.r) m, tileRc t n r.r m u.1 tile with
  | some p, some tl =>
    let e := (tileSlot t n r.r tile).bind (fun k => (t.slot k).eng)
    let h := sliceHead t n c r p tile u.1 u.2 true
    let h := { h with kind := if h.kind = 0 then 1 else h.kind }
    let l := sliceCtus c r tile u
    let q := skipCtus t n c r p h l
    let t := q.1
    let ctus := q.2
    let x := t.rc n r.r
    let R := ctuRows c r
    let t := t.setRc n r.r { x with filtered := min x.filtered (m * R + (u.1 - 1))
                                    lost := x.lost.filter (fun z => decide (¬(z.1 = tile ∧ z.2.1 = m ∧ unitOf c r z.2.2 = u.1))) }
    let t := addBits t n r.r m u.1 (headCost h + sumN (ctus.map CtuCode.bits)) tl.base
    let t := passRows t n r.r tile (m * R + u.1 + u.2)
    let t := formSlice t n c r p u h ctus true
    let t := oweRefresh (reportEmerg t n r.r tile u.1 m u.2 e why) n r p l e
    dropReady (filterKnown (endSlice t n c r m u) n c r) n c r
  | _, _ => t

/-- An engine abandons the slice of the row in coding on a slot (Table 15-9). -/
def abandonSlice (s : State) (k : Nat) : State :=
  match (s.slot k).eng, (s.slot k).job with
  | some e, some j =>
    match rendOf (s.cfgOf j.ch) j.rend with
    | some r => (replaceSlice s j.ch (s.cfgOf j.ch) r j.tile j.pic (unitAt (s.cfgOf j.ch) r j.row) .lost).evt (Pg.ee e) 4
    | none => s
  | _, _ => s

/-- The reference luma that stands in the window of the row in coding on a slot, as spans of bytes (R70, R71). -/
def windowSpans (s : State) (k : Nat) : List (Nat × Nat) :=
  match (s.slot k).job with
  | none => []
  | some j =>
    let c := s.cfgOf j.ch
    match rendOf c j.rend, Store.get (fun _ => none) s.mill.wins (k * 16 + j.ctx), picInfo (s.rc j.ch j.rend) j.pic with
    | some r, some w, some p => ((p.list0 ++ p.list1).eraseDups.filterMap (fun m => picInfo (s.rc j.ch j.rend) m)).map (fun q =>
        ((reconPic s j.ch r q.m q.pic).lumaLine w.lo, (w.hi - w.lo) * pitch r.w c.deep))
    | _, _, _ => []

/-- A line of the window was written with a double-bit error, since its loader could not read it (R346): the engine's read and its refetch
fail, and it abandons the slice. -/
def windowFails (s : State) (k : Nat) : State :=
  let l := windowSpans s k
  if l.any (fun e => readFails s 34 e.1 e.2) then
    abandonSlice (readDone ((s.inc32 Reg.mpRefetch).evt Pg.mp 0) 34 l) k
  else s

/-- The next row of a slot starts, its window loaded. -/
def rowStart (s : State) (k : Nat) : State := windowFails (beginRow s k) k

def execRowStart (slot : Fin 32) (s : State) : Out := .next (rowStart s slot)

/-- A tile's slice of a unit has lost a row to an engine's failure (R65). -/
def sliceLost (s : State) (n : Nat) (c : ChanCfg) (r : RendCfg) (tile m first : Nat) : Bool :=
  (s.rc n r.r).lost.any (fun z => decide (z.1 = tile ∧ z.2.1 = m ∧ unitOf c r z.2.2 = first))

/-- The slices that have lost a row are reconstructed as the skip slices that will replace them (R65). -/
def fillLost (s : State) (n : Nat) (c : ChanCfg) (r : RendCfg) : State :=
  (s.rc n r.r).lost.foldl (fun t z =>
    match picInfo (t.rc n r.r) z.2.1 with
    | some p =>
      let u := unitAt c r z.2.2
      let h := sliceHead t n c r p z.1 u.1 u.2 true
      (skipCtus t n c r p h ((sliceCtus c r z.1 u).filter (fun e =>
        decide (z.2.1 * ctuRows c r + e.1 < Store.get (fun _ => 0) (t.rc n r.r).tileRows z.1)))).1
    | none => t) s

/-- Why a slice is not complete in time: its frame was cut by a step (R26), RECOVERY, no engine, or a miss. -/
def emergWhy (s : State) (n : Nat) (c : ChanCfg) (r : RendCfg) (tile m : Nat) : EmergCause :=
  let ch := s.chan n
  let pic := (picOf c r (s.rc n r.r) (irapGops s n r.r) m).1
  let dead := match tileSlot s n r.r tile with | some k => (s.slot k).eng.isNone | none => true
  if (pic / picsPerFrame c) ∈ ch.cutFrames then .step else if ch.paused then .recovery else if dead then .lost else .miss

/-- Bits and counters of a row that is complete. -/
def countRow (s : State) (c : ChanCfg) (r : RendCfg) (e : Nat) (j : Job) (bits : Nat) (stalls : List Nat) : State :=
  let t := (s.inc32 (Reg.eeRows e)).setReg64 (Reg.eeBitsLo e) (Reg.eeBitsHi e)
    (s.reg64 (Reg.eeBitsLo e) (Reg.eeBitsHi e) + BitVec.ofNat 64 bits)
  let t := (t.incSat (Reg.eeIntraCtus e) 31 0 j.intra).incSat (Reg.eeSkipCtus e) 31 0 j.skip
  let t := (t.incSat (Reg.eeStallClks e) 31 0 (j.stall + sumN stalls)).setN (Reg.eeStallMax e)
    ((j.stallMax :: stalls).foldl max (t.reg (Reg.eeStallMax e)).toNat)
  (t.setN (Reg.eeRowClkMax e) (max (t.reg (Reg.eeRowClkMax e)).toNat (rowClocks c r j.tile j.row))).setBit (Reg.eePosition e) 24 true

/-- An engine under targeted test hands its work over at the row boundary (R397). -/
def testBoundary (s : State) (e : Nat) : State :=
  match s.twin.resolving with
  | some y => if y.engine = e && decide (s.getF Reg.stileResolve 1 0 = 0) then passForTest s e else s
  | none => s

/-- A row or row turn completes (R83, R117): its last CTUs leave the pipeline; `stalls` are the stalls of its stages in clocks beside
refetches, `fixed` the single-bit errors corrected in its reads (R78). With its last row the slice is complete, unless it has lost a
row; what completes at its deadline or later is replaced (R138). -/
def rowComplete (s : State) (k : Nat) (stalls : List Nat) (fixed : Nat) : State :=
  match (s.slot k).eng, (s.slot k).job with
  | some e, some j =>
    let c := s.cfgOf j.ch
    match rendOf c j.rend with
    | none => s
    | some r =>
      let u := unitAt c r j.row
      let s := s.incSat Reg.mpCorrected 31 0 fixed
      if pastDeadline s j.ch c r j.pic j.row && !(sliceLost s j.ch c r j.tile j.pic u.1) then
        testBoundary (replaceSlice s j.ch c r j.tile j.pic u (emergWhy s j.ch c r j.tile j.pic)) e
      else
        let s := decideRest k (tileCtus (ctuCols r) (tileCount c r) j.tile) s
        let j := (s.slot k).job.getD j
        let last := decide (j.row + 1 = u.1 + u.2)
        let tl := tileRc s j.ch j.rend j.pic u.1 j.tile
        let head := tl.bind TileRc.head
        let bits := j.bits + (if last then match head with | some h => headCost h | none => 0 else 0)
        let t := countRow (s.setSlot k { s.slot k with job := none }) c r e j bits stalls
        let t := addBits t j.ch j.rend j.pic u.1 bits 0
        let t := modTile t j.ch j.rend j.pic u.1 j.tile (fun tl => { tl with base := tl.base + bits, bits := tl.base + bits, pipe := [] })
        let t := passRows t j.ch j.rend j.tile (j.pic * ctuRows c r + j.row + 1)
        let t := fillLost t j.ch c r
        let t := match last && !(sliceLost t j.ch c r j.tile j.pic u.1), picInfo (t.rc j.ch j.rend) j.pic, head with
          | true, some p, some h => endSlice (formSlice t j.ch c r p u h ((tl.map TileRc.ctus).getD []) false) j.ch c r j.pic u
          | _, _, _ => t
        dropReady (testBoundary (filterKnown t j.ch c r) e) j.ch c r
  | _, _ => s

def execRowComplete (slot : Fin 32) (stalls : List Nat) (fixed : Nat) (s : State) : Out := .next (rowComplete s slot stalls fixed)

/-- The last picture in decoding order that a channel with `p` input pictures codes: in STD the last of the last GOP whose input
pictures have all arrived (R60, R123). -/
def lastPic (c : ChanCfg) (r : RendCfg) (x : RcSt) (irapGops p : Nat) : Nat :=
  if c.cls = 2 then (((stdOrder (max 1 r.gopLen) irapGops x.cuts x.still p 0 0).map OrderPic.pic).takeWhile (fun k => decide (k < p))).length
  else p - 1

/-- The next row of a tile as the sequence ends: the row that its engine has in coding, or the next one when it is ready, is coded;
otherwise its slice is an emergency skip slice. DEDUCED: a new sequence takes over the channel's state at its first frame start, so
the rows left of the old one, whose slices leave at their own points, are coded there (R141, notes/assumptions/44.md). -/
def finishRow (s : State) (n : Nat) (c : ChanCfg) (r : RendCfg) (tile : Nat) : State :=
  let i := Store.get (fun _ => 0) (s.rc n r.r).tileRows tile
  let R := max 1 (ctuRows c r)
  let k := (tileSlot s n r.r tile).getD 32
  let x := s.slot k
  let mine (j : Job) : Bool := decide (j.ch = n ∧ j.rend = r.r ∧ j.tile = tile)
  match x.job.filter mine, x.eng, x.ctxs.find? (fun y => decide (y.ch = n ∧ y.rend = r.r ∧ y.tile = tile)) with
  | some _, _, _ => rowComplete s k [] 0
  | none, some e, some cx =>
    match nextRow s cx with
    | some (m, row, _) =>
      let t := rowComplete (startRow s k e cx m row) k [] 0
      ({ t.setSlot k { t.slot k with job := x.job } with mill := s.mill } : State).setReg (Reg.eePosition e) (s.reg (Reg.eePosition e))
    | none => replaceSlice s n c r tile (i / R) (unitAt c r (i % R)) (emergWhy s n c r tile (i / R))
  | none, _, _ => replaceSlice s n c r tile (i / R) (unitAt c r (i % R)) (emergWhy s n c r tile (i / R))

/-- Rows of a tile up to row `till` of the sequence. -/
def finishRows (n : Nat) (c : ChanCfg) (r : RendCfg) (tile till : Nat) : Nat → State → State
  | 0, s => s
  | f + 1, s =>
    if till ≤ Store.get (fun _ => 0) (s.rc n r.r).tileRows tile then s else finishRows n c r tile till f (finishRow s n c r tile)

/-- What is left of a channel's sequence is coded (R141). -/
def finishSequence (s : State) (n : Nat) : State :=
  let c := s.cfgOf n
  if (s.chan n).frame = 0 then s
  else c.rends.foldl (fun t r =>
    let till := (lastPic c r (t.rc n r.r) (irapGops t n r.r) ((t.chan n).frame * picsPerFrame c) + 1) * ctuRows c r
    let t := (t.rc n r.r).lost.foldl (fun t z => if (t.rc n r.r).lost.contains z then replaceSlice t n c r z.1 z.2.1 (unitAt c r z.2.2) .lost else t) t
    (List.range (tileCount c r)).foldl (fun t k =>
      finishRows n c r k till (till - Store.get (fun _ => 0) (t.rc n r.r).tileRows k) t) t) s

/-! ### Deadlines (R138 to R140) -/

/-- Every slice whose emission point a step has passed over, and which is not complete, is replaced at the step (R26). Fuel: one slice
at a time. -/
def passTile (n : Nat) (c : ChanCfg) (r : RendCfg) (tile : Nat) : Nat → State → State
  | 0, s => s
  | f + 1, s =>
    let i := Store.get (fun _ => 0) (s.rc n r.r).tileRows tile
    let R := max 1 (ctuRows c r)
    let m := i / R
    if m / picsPerFrame c < (s.chan n).frame ∧ later (unitPoint s (s.chan n) c r m (i % R) 0) s.stp.pos = false then
      passTile n c r tile f (replaceSlice s n c r tile m (unitAt c r (i % R)) .step)
    else s

/-- Time that bytes take at Rtx (R235), in FRAC units. -/
def rtxUnits (s : State) (rate bytes : Nat) : Nat :=
  let (n, d) := s.framePeriod
  ceilDiv (8 * bytes * s.frameUnits * d) (rate * n)

/-- The complete slices that a step has passed over leave at the step, in unit order and at up to Rtx (R26). -/
def repace (s : State) (l : List SliceOut) : List SliceOut :=
  let past := l.filter (fun x => !(later x.e s.stp.pos))
  let size (x : SliceOut) : Nat := sumN (x.nals.map (fun e => e.2.length))
  let first (a b : SliceOut) : Bool := decide (a.seqNo < b.seqNo ∨ (a.seqNo = b.seqNo ∧ (a.m < b.m ∨ (a.m = b.m ∧ a.row < b.row))))
  l.map (fun x => if later x.e s.stp.pos then x else
    { x with e := s.posAdd s.stp.pos (rtxUnits s x.rtx (sumN ((past.filter (fun y => first y x)).map size))) })

def passSlices (s : State) (n : Nat) : State :=
  let c := s.cfgOf n
  let pace (t : State) : State := t.modChan n (fun ch => { ch with slices := c.rends.foldl (fun m r =>
    Store.put (fun _ => []) m r.r (repace t (Store.get (fun _ => []) m r.r))) ch.slices })
  if (s.chan n).frame = 0 then s
  else pace <| c.rends.foldl (fun t r =>
    let t := (t.rc n r.r).lost.foldl (fun t z =>
      if (t.rc n r.r).lost.contains z && !(later (unitPoint t (t.chan n) c r z.2.1 z.2.2 0) t.stp.pos) then
        replaceSlice t n c r z.1 z.2.1 (unitAt c r z.2.2) .lost else t) t
    (List.range (tileCount c r)).foldl (fun t k => passTile n c r k (ctuRows c r * picsPerFrame c * (t.chan n).frame) t) t) s

/-- A slice that is not complete at its deadline is replaced (R138, R139). The tile's next slice is meant, or one that has lost a row to
an engine's failure (R65). A channel that has stopped codes and replaces no picture beyond its last (R60). -/
def deadlineMiss (s : State) (n rend tile row : Nat) : State :=
  let ch := s.chan n
  let c := s.cfgOf n
  match ch.place, rendOf c rend with
  | some _, some r =>
    let x := s.rc n rend
    let R := max 1 (ctuRows c r)
    let i := Store.get (fun _ => 0) x.tileRows tile
    let m := i / R
    match x.lost.find? (fun l => decide (l.1 = tile ∧ unitOf c r l.2.2 = unitOf c r row)) with
    | some l => if pastDeadline s n c r l.2.1 row then replaceSlice s n c r tile l.2.1 (unitAt c r row) .lost else s
    | none =>
      let ends := !ch.running && decide (lastPic c r x (irapGops s n rend) (ch.frame * picsPerFrame c) < m)
      if decide (tile < tileCount c r ∧ m / picsPerFrame c < ch.frame ∧ unitOf c r (i % R) = unitOf c r row ∧ row < R) &&
          pastDeadline s n c r m row && !ends then
        replaceSlice s n c r tile m (unitAt c r row) (emergWhy s n c r tile m)
      else s
  | _, _ => s

def execDeadlineMiss (n : Fin 128) (rend : Fin 4) (tile : Fin 8) (row : Fin 256) (s : State) : Out :=
  .next (deadlineMiss s n rend tile row)

/-! ### Engine and CHRC pages -/

/-- Engines behind an engine page, a rendition gang page or a channel gang page (R51). -/
def pageEngines (s : State) : EePage → List Nat
  | .engine e => [e]
  | .gang g => (s.gangsOf.filter (fun x => decide (x.1 = g.val))).flatMap (fun x => x.2.flatMap (fun b =>
      if b < Pg.gang 0 then [(b - Pg.ee 0) / 0x1000]
      else (s.gangsOf.filter (fun y => decide (Pg.gang y.1 = b))).flatMap (fun y => y.2.map (fun e => (e - Pg.ee 0) / 0x1000))))

/-- CTRL.QUIESCE of an engine or a gang page (R51, R113). -/
def engineQuiesce (s : State) (pg : EePage) (v : Bool) : State :=
  if !(s.answers (Pg.ee 0)) then s else (pageEngines s pg).foldl (fun t e => t.setBit (Pg.ee e + hCtrl) 2 v) s

def execEngineQuiesce (pg : EePage) (v : Bool) (s : State) : Out := .next (engineQuiesce s pg v)

/-- An engine has hung (R376): FAILED at once, ENGINE_HANG, and R65. The stall limit is not applied in RECOVERY. -/
def engineHang (s : State) (e : Nat) (stall : Bool) : State :=
  match s.slotOf e with
  | none => s
  | some k =>
    if (s.slot k).job.isNone || (stall && decide (s.mode = 4)) then s
    else (s.raise 0x2003 (Pg.ee e) e (s.reg (Reg.eePosition e)).toNat).failEngine e

def execEngineHang (e : Fin 34) (stall : Bool) (s : State) : Out := .next (engineHang s e stall)

/-- Counters that EE.STAT_CLR clears (Table 4-10). -/
def eeCleared (e : Nat) : List Nat :=
  [Reg.eeRows e, Reg.eeBitsLo e, Reg.eeBitsHi e, Reg.eeIntraCtus e, Reg.eeSkipCtus e, Reg.eeEmergRows e, Reg.eeRowClkMax e,
   Reg.eeStallClks e, Reg.eeStallMax e]

def eeStatClr (s : State) (pg : EePage) : State :=
  if !(s.answers (Pg.ee 0)) then s else (pageEngines s pg).foldl (fun t e => t.clearRegs (eeCleared e)) s

def execEeStatClr (pg : EePage) (s : State) : Out := .next (eeStatClr s pg)

/-- CHRC.STAT_CLR (Table 5-5). -/
def chrcStatClr (s : State) (n : Nat) : State :=
  if s.answers (Pg.chrc n) then
    s.clearRegs ((List.range 4).flatMap (fun r => [Reg.chrcOvfRows n r, Reg.chrcMisses n r, Reg.chrcFwLate n r])) else s

def execChrcStatClr (n : Fin 128) (s : State) : Out := .next (chrcStatClr s n)

end Sys2Proof.Machine
end

