-- ==== Sys2Proof/Machine/Channels.lean ====
section
/-! DEFINITION. Channel frames (R14, R26, R42, R44, R55, R59 to R63, R130 to R133, R141, R160, R291, R413) and the frame-start and
control-line commands. -/

namespace Sys2Proof.Machine

open State

/-- The next start of a frame of a channel from the present position: the present Steeple frame start when the channel has
not yet begun a frame there, or the next Steeple frame start with FRAME mod DIV = PHASE (R14, notes/assumptions/2.md). -/
def toChannelStart (s : State) (n : Nat) : State :=
  let c := s.cfgOf n
  let ch := s.chan n
  let here := decide (s.inFrame = 0) && chanFrameAt c s.frame && !(ch.running && decide (ch.startFr = s.frame))
  if here then s
  else
    let d := max 1 c.div
    let k := (c.phase + d - (s.frame.toNat + 1) % d) % d
    s.enterFrame (k + 1) 0

/-- GLN_LAST and GLN_FADES at the end of a frame (Table 4-9). -/
def closeGleaner (s : State) (n : Nat) : State :=
  let ch := s.chan n
  let g := ch.gln
  let w := (if g.cutRow.isSome then 1 else 0) + (if g.fadeSeen then 2 else 0) + (g.cutRow.getD 0 % 1024) * 0x10 +
    (ch.startFr.toNat % 65536) * 0x10000
  let t := s.setN (Reg.chGlnLast n) w
  let t := if g.fadeSeen then t.inc32 (Reg.chGlnFades n) else t
  t.setChan n { ch with gln := { g with hasPrev := true, rows := 0, cells := [], prev := (⟨g.cells, g.cutRow, g.weight⟩ :: g.prev).take 64
                                        ratios := [], lastCut := false, cutRow := none, fade := false, fadeSeen := false, weight := none
                                        small := [], smallOld := g.small
                                        fadeRun := if g.hasPrev && fadeTest g.ratios then g.fadeRun + 1 else 0 } }

/-- What is left of the sequence in progress is coded, and the frame in progress of a running channel ends for the Gleaner (R89, R141). -/
def endSequence (s : State) (n : Nat) : State :=
  let t := finishSequence s n
  if (t.chan n).running && decide ((t.chan n).frame ≠ 0) then closeGleaner t n else t

/-- A new coded video sequence begins in the manner of a channel's first frame (R61, R92, R132). -/
def newSequence (s : State) (n : Nat) : State :=
  (endSequence s n).modChan n (fun c => { c with
    running := true, seqNo := c.seqNo + 1, frame := 0, fresh := true, ready := [], rc := [], starts := [], quiets := [], cutFrames := []
    extFrom := 0, gln := GlnSt.init })

/-- Position at which the last unit of the channel has left when it stops now (R60, R122): by the emission point of the next unit, were
there one, every unit has (R126). -/
def lastPoint (s : State) (n : Nat) : BitVec 64 :=
  let ch := s.chan n
  let c := s.cfgOf n
  (c.rends.map (fun r =>
    let m := lastPic c r (s.rc n r.r) (irapGops s n r.r) (ch.frame * picsPerFrame c)
    let u := unitAt c r (ctuRows c r - 1)
    s.posAdd (unitPoint s ch c r m u.1 0) (unitStep c r (m % picsPerFrame c) u * rho c))).foldl
    (fun a b => if later b a then b else a) s.stp.pos

/-- The channel stops because the device has left SERVICE (R413): it is not shed, has not been disabled and stands under no new
check; or it is HELD. -/
def keepsPlace (s : State) (n : Nat) : Bool :=
  decide (s.allotState n = 3) || (s.enabled (Pg.ch n) && !(s.bit (Pg.ch n + hStatus) 2) && decide (s.allotState n ≠ 5))

/-- The frame that ended was the channel's last (R60, R63, R413). A channel that the mode stopped keeps its placement and reads
PENDING, or HELD. -/
def stopAtFrame (s : State) (n : Nat) : State :=
  let keep := keepsPlace s n
  let p := lastPoint s n
  let s := if (s.chan n).frame = 0 then s else closeGleaner s n
  let t := s.modChan n (fun c => { c with running := false, stopping := false, endPos := if keep then none else some p })
  if !keep then t
  else if s.allotState n = 3 then t.closeAir n false
  else (t.closeAir n false).setAllotState n 1

/-- The epoch of this frame start placed the channel: the placement takes effect at the next channel frame start (R44, R61). -/
def placedNow (s : State) (n : Nat) : Bool :=
  match shown (s.chan n) with
  | some pl => decide (pl.epoch = s.frame)
  | none => false

/-- The placement of a HELD channel that was enabled again takes over at its first frame start after the epoch (R61, R141). -/
def takeOver (s : State) (n : Nat) : State :=
  match (s.chan n).place, (s.chan n).next, placedNow s n with
  | some old, some new, false =>
    -- the old sequence runs through the frame before, and its skip pictures leave at the old D (R141)
    let t := (endSequence s n).modChan n (fun c => { c with place := some new, next := none, newExt := none, oldExt := none, oldLeft := 0, extFrom := 0 })
    let t := { t with eng := { t.eng with changed := true } }
    let t := t.dropPlace n old (some new)
    let t := (t.writePlots n new).openGangs n new
    let t := t.syncSlots (new.rends.flatMap RendPl.slots)
    let tf := max 1 (new.cfg.div * s.totalLines)
    -- in COMMISSION, and at the entry to SERVICE, it goes on as PENDING (R42, R415)
    let t := if s.mode = 1 ∨ s.boot.svcAt = some s.frame then
        (t.modChan n (fun c => { c with running := false, stopping := false, frame := 0 })).setAllotState n 1
      else (newSequence (t.modChan n (fun c => { c with frame := 0 })) n).setAllotState n 2
    t.modChan n (fun c => { c with skip := if new.d < old.d then ceilDiv (old.d - new.d) tf else 0 })
  | _, _, _ => s

/-- The channel may start its first frame here: SERVICE or DEGRADED since an earlier frame start (R42, R415), and placed at an
earlier epoch (R44). -/
def mayStart (s : State) (n : Nat) : Bool :=
  let ch := s.chan n
  ch.place.isSome && !ch.running && ch.endPos.isNone && decide (s.mode = 2 ∨ s.mode = 3) && s.enabled (Pg.ch n) &&
    !(placedNow s n) && decide (s.boot.svcAt ≠ some s.frame)

/-- An HBM move takes effect: new frames go to the new extent, the old one is held until its last frame retires (R62). -/
def switchExtent (c : Chan) : Chan :=
  match c.newExt, c.place with
  | some a, some pl => { c with place := some { pl with ext := (a, pl.ext.2) }, newExt := none, oldExt := some pl.ext
                                oldLeft := retireFrames pl.cfg, extFrom := c.frame }
  | _, _ => c

/-- One channel frame begins. -/
def beginFrame (s : State) (n : Nat) : State :=
  let t := if (s.chan n).frame = 0 then s.setF (Reg.chAllotD n) 23 0 (delaySteeple (s.cfgOf n)) else closeGleaner s n
  let f := t.frame
  let t := t.modChan n switchExtent
  let q := t.bit (Pg.ch n + hCtrl) 2
  -- engines whose QUIESCE is set (R113)
  let still := (List.range 34).filter (fun e => t.bit (Pg.ee e + hCtrl) 2)
  let t := t.modChan n (fun c => { c with frame := c.frame + 1, ctrlDone := false, starts := (f :: c.starts).take 128, startFr := f, lines := 0, stages := []
                                          quiets := ((q, still) :: c.quiets).take 128
                                          made := [], inUse := c.active, quiesce := q
                                          -- coding resumes after RECOVERY (R412)
                                          paused := c.paused && decide (t.mode = 4) })
  let t := t.modChan n (fun c => { c with air := { c.air with sec := some (c.air.sec.getD t.secAtFrame)
                                                              quiesce := c.air.quiesce || c.quiesce
                                                              unlocked := c.air.unlocked || decide (t.stpSt ≠ 2) } })
  let t := match (t.chan n).ctrlNext with
    | some l => (t.modChan n (fun c => { c with ctrlNext := none })).setF (Reg.chAllotCtrlLine n) 13 0 l
    | none => t
  let t := t.modChan n (fun c => { c with oldLeft := c.oldLeft - 1 })
  (inputFrame t n).vecReq (256 + 16 * n + 1)

/-- A channel frame starts (R14). -/
def channelFrameStart (s : State) (n : Nat) : State :=
  if !s.running || (s.chan n).place.isNone then s
  else
    let t := releaseLayers (toChannelStart s n) n
    let t := if (t.chan n).running && (t.chan n).stopping then stopAtFrame t n else t
    let t := takeOver t n
    let t := if mayStart t n then
        -- a commit that landed before the first frame is copied here (R161)
        let t := (newSequence t n).setAllotState n (if (t.chan n).moving then 4 else 2)
        copyCommit t n
      else t
    if !(t.chan n).running then t
    else if 0 < (t.chan n).skip then t.modChan n (fun c => { c with skip := c.skip - 1 })
    else beginFrame t n

def execChannelFrameStart (n : Fin 128) (s : State) : Out := .next (channelFrameStart s n)

/-- The channel's control line, once in each frame (R55): the Reeve makes its frame thread ready (R291, R295). -/
def controlLine (s : State) (n : Nat) : State :=
  let ch := s.chan n
  if !s.running || !ch.running || decide (ch.frame = 0) || ch.ctrlDone then s
  else
    let t := s.toPos (linePos s (s.cfgOf n) ch.startFr (s.getF (Reg.chAllotCtrlLine n) 13 0))
    (t.modChan n (fun c => { c with ctrlDone := true })).vecReq (256 + 16 * n)

def execControlLine (n : Fin 128) (s : State) : Out := .next (controlLine s n)

/-! ### The supplied frame thread (R130 to R133) -/

/-- 6 × log2(b ÷ t) + q ÷ k is at least x − 1/2; where they are equal the rounding is open. -/
def qpReaches (b t q k x : Nat) : Bool :=
  let lo := t ^ (12 * k) * 2 ^ ((2 * x - 1) * k)
  let hi := b ^ (12 * k) * 2 ^ (2 * q)
  decide (lo < hi) || (decide (lo = hi) && Config.roundUp b t)

/-- tgt and qp of R133, from the statistics of the last pictures. DEDUCED: they are those of the pictures completed last, one of a field
for an interlaced channel; `i` draws what the bits of pictures that do not exist count as (notes/assumptions/45.md). -/
def frameTarget (c : ChanCfg) (r : RendCfg) (hist : List (Nat × Int × Nat)) (i : Nat) (weight : Nat × Nat) : Nat × Nat :=
  let R := r.bitrate * 1000 * c.den
  let D := c.num * picsPerFrame c
  let s := hist.headD (Config.freeNat i, Config.freeNat i, 1)
  let bits := sumN ((hist.take 8).map Prod.fst) + (if hist.length < 8 then Config.freeNat i else 0)
  let want : Int := ((16 * R : Nat) - (bits * D : Nat)) * weight.1
  let tgt := max (roundOpen R (4 * D)) (min (roundOpen want.toNat (8 * D * weight.2)) (cpbBits c r))
  let qpMin := fld r.qp 13 8
  (tgt, qpMin + ((List.range (fld r.qp 21 16 - qpMin)).filter (fun k => qpReaches s.1 tgt s.2.1.toNat s.2.2 (qpMin + k + 1))).length)

/-- The frame thread of a channel runs: it writes FW_TGT, then FW_QP with VALID, of each rendition; nothing in a first frame (R132). The
weights of STD stand over the GOP of the next frame's first picture. -/
def frameThread (s : State) (n : Nat) : State :=
  let c := s.cfgOf n
  let ch := s.chan n
  if !ch.running || decide (ch.frame < 2) then s
  else c.rends.foldl (fun t r =>
    let x := t.rc n r.r
    let (i, t) := t.draw
    let o := orderOf c r x (irapGops t n r.r) (ch.frame * picsPerFrame c)
    let weight := if c.cls = 2 then (picWeight o.irap o.tid * o.gop.2, o.gop.1) else (1, 1)
    let (tgt, qp) := frameTarget c r x.history i weight
    (t.setN (Reg.chrcFwTgt n r.r) tgt).setN (Reg.chrcFwQp n r.r) (qp + 2 ^ 31)) s

/-- DONE with WAIT: a frame thread has done its work. -/
def threadDone (s : State) (p : Nat) : State :=
  match (s.pair p).running with
  | some k => if 256 ≤ k ∧ k < 2304 ∧ k % 16 = 0 then doneWait (frameThread s ((k - 256) / 16)) p else doneWait s p
  | none => doneWait s p

def execDoneWait (p : Fin 8) (s : State) : Out := .next (threadDone s p)

end Sys2Proof.Machine
end

