-- ==== Sys2Proof/Machine/Millpond.lean ====
section
/-! DEFINITION. The Millpond's errors and plot swaps (R78, R79, R459). -/

namespace Sys2Proof.Machine

open State

/-- A plot in use: a window, staging, REFILL pair or shared RESIDENT plot. -/
def plotInUse (s : State) (p : Nat) : Bool := decide (1 ≤ s.plotKind p ∧ s.plotKind p ≤ 4)

/-- Put another plot in the place of one, wherever placements and pairs name it. -/
def substPlot (s : State) (p q : Nat) : State :=
  let sub (l : List Nat) := l.map (fun x => if x = p then q else x)
  let f (pl : Place) : Place := { pl with plots := sub pl.plots }
  let t := { s with chans := s.chans.foldl (fun (m : Store Chan) (e : Nat × Chan) =>
    Store.put (fun _ => Chan.init) m e.1 { e.2 with place := e.2.place.map f, next := e.2.next.map f }) s.chans }
  { t with eng := { t.eng with slots := t.eng.slots.foldl (fun (m : Store Slot) (e : Nat × Slot) =>
    Store.put Slot.init m e.1 { e.2 with pair := e.2.pair.map (fun x => (sub x.1, x.2)) }) t.eng.slots } }

/-- A plot becomes RETIRED (R79). -/
def retirePlot (s : State) (p : Nat) : State :=
  let t := s.setReg (Reg.mpPlot p) ((s.reg (Reg.mpPlot p) &&& 0x80000000) ||| 6)
  t.setN Reg.mpRetired ((s.reg Reg.mpRetired).toNat + 1)

/-- The windows of the contexts of a channel's rendition are to be loaded again (R79): whole, at their next row. -/
def reloadWindows (s : State) (n r : Nat) : State :=
  (List.range 32).foldl (fun t k =>
    ((t.slot k).ctxs.filter (fun c => decide (c.ch = n ∧ c.rend = r))).foldl (fun t c =>
      { t with mill := { t.mill with wins := Store.put (fun _ => none) t.mill.wins (k * 16 + c.idx) none } }) t) s

/-- Contexts that read a plot: those of the rendition that its word names, and of a REFILL pair all on its engine. -/
def plotReaders (s : State) (p : Nat) : List (Nat × Nat) :=
  let w := s.reg (Reg.mpPlot p)
  let pair := s.eng.slots.flatMap (fun e => match e.2.pair with
    | some (l, _, _) => if l.contains p then (e.2.ctxs.filter Ctx.refill).map (fun c => (c.ch, c.rend)) else []
    | none => [])
  if s.plotKind p = 0 ∨ s.plotKind p = 5 then [] else if pair.isEmpty then [(fld w 10 4, fld w 13 12)] else pair

/-- A row of a rendition that reads the plot is in coding. -/
def plotBusy (s : State) (p : Nat) : Bool :=
  s.eng.slots.any (fun e => match e.2.job with | some j => (plotReaders s p).contains (j.ch, j.rend) | none => false)

/-- Swap a faulty plot for the free plot `q` (R79): `q` takes its word, and the rendition's window is loaded again. -/
def swapPlot (s : State) (p q : Nat) : State :=
  let w := s.reg (Reg.mpPlot p)
  let s := (plotReaders s p).foldl (fun t e => reloadWindows t e.1 e.2) s
  let t := s.setReg (Reg.mpPlot q) ((w &&& 0x7FFFFFF7) ||| (s.reg (Reg.mpPlot q) &&& 0x80000000))
  let t := (substPlot t p q).inc32 Reg.mpSwaps |>.evt Pg.mp 1
  ((retirePlot t p).mpCounts).raise 0x2005 Pg.mp p q

/-- A free plot, lowest first, that is not the faulty one. -/
def freePlotBut (s : State) (p : Nat) : Option Nat := (s.freePlots []).find? (fun q => decide (q ≠ p))

/-- A plot in use is kept although faulty, with no free plot: RETIRED, DEGRADED (R79). -/
def keepFaulty (s : State) (p : Nat) : State :=
  let w := s.reg (Reg.mpPlot p)
  let t := s.setReg (Reg.mpPlot p) ((w &&& 0xFFFFFFF0) ||| 6)
  let t := (t.setN Reg.mpRetired ((s.reg Reg.mpRetired).toNat + 1)).evt Pg.mp 2
  (t.mpCounts).raise 0x2005 Pg.mp p 0xFFFF

/-- A plot is faulty (R79): in use it waits for a row boundary of its rendition; a surplus or free plot is handled at once. -/
def plotFaulty (s : State) (p : Nat) : State :=
  let k := s.plotKind p
  if k = 6 ∨ p ∈ s.mill.due then s
  else if plotInUse s p then { s with mill := { s.mill with due := s.mill.due ++ [p] } }
  else if k = 5 then
    match freePlotBut s p with
    | some q => swapPlot s p q
    | none =>
      let drop (pl : Place) : Place := { pl with plots := pl.plots.filter (fun x => decide (x ≠ p)) }
      let t := { s with chans := s.chans.foldl (fun (m : Store Chan) (e : Nat × Chan) =>
        Store.put (fun _ => Chan.init) m e.1 { e.2 with place := e.2.place.map drop, next := e.2.next.map drop }) s.chans }
      (((retirePlot t p).mpCounts).evt Pg.mp 2).raise 0x2005 Pg.mp p p
  else ((retirePlot s p).mpCounts).raise 0x2005 Pg.mp p p

/-- The clocks of a refetch count as a stall of the row that a slot has in coding (R68, R83). -/
def stallJob (s : State) (k clocks : Nat) : State :=
  let f (j : Job) : Job := { j with stall := j.stall + clocks, stallMax := max j.stallMax clocks }
  s.setSlot k { s.slot k with job := (s.slot k).job.map f }

/-- A double-bit error in a plot (R78, R79) under the row on slot `k`: the line is read again, which takes `clocks`; the third in one
Steeple frame makes the plot faulty. -/
def mpRefetch (s : State) (p k clocks : Nat) : State :=
  let s := stallJob s k clocks
  let t := ((s.inc32 Reg.mpRefetch).evt Pg.mp 0).setBit (Reg.mpPlot p) 31 true
  -- errors of the frame in progress: frame × 4 + count
  let f := s.frame.toNat
  let was := Store.get (fun _ => 0) s.mill.errs p
  let n := if was / 4 = f then was % 4 else 0
  let m := min 3 (n + 1)
  let t := { t with mill := { t.mill with errs := Store.put (fun _ => 0) t.mill.errs p (f * 4 + m) } }
  if m = 3 ∧ n < 3 then plotFaulty t p else t

def execMpRefetch (plot : Fin 384) (slot : Fin 32) (clocks : Nat) (s : State) : Out := .next (mpRefetch s plot slot clocks)

/-- RETIRED plots that stay in use for want of a free plot (R79). -/
def keptFaulty (s : State) : List Nat :=
  ((s.chans.flatMap (fun e => (placesOf e.2).flatMap (fun pl => pl.plots))) ++ s.inheritedPlots).eraseDups.filter (fun p => decide (s.plotKind p = 6))

/-- A kept faulty plot is swapped for a plot that has become free; the MP cause clears with the last one (Table 17-4). -/
def swapKept (s : State) (p q : Nat) : State :=
  let s := (plotReaders s p).foldl (fun t e => reloadWindows t e.1 e.2) s
  let t := substPlot s p q
  let t := t.chans.foldl (fun t e => (placesOf e.2).foldl (fun t pl => if pl.plots.contains q then t.writePlots e.1 pl else t) t) t
  let t := t.eng.slots.foldl (fun t e => match e.2.pair with
    | some (l, f, true) => if l.contains q then t.setPlot q 3 f 0 (t.slotEng e.1) else t
    | _ => t) t
  let t := (((t.inc32 Reg.mpSwaps).evt Pg.mp 1).mpCounts)
  if (keptFaulty t).isEmpty then t.clearCause 3 else t

/-- A faulty plot's rendition reaches a row boundary (R79): no row of it is in coding. -/
def plotSwap (s : State) (p : Nat) : State :=
  if plotBusy s p then s
  else if p ∈ s.mill.due then
    let t := { s with mill := { s.mill with due := s.mill.due.filter (fun x => decide (x ≠ p)) } }
    if plotInUse t p then
      match freePlotBut t p with
      | some q => swapPlot t p q
      | none => keepFaulty t p
    else plotFaulty t p
  else if (keptFaulty s).contains p then
    match freePlotBut s p with
    | some q => swapKept s p q
    | none => s
  else s

def execPlotSwap (plot : Fin 384) (s : State) : Out := .next (plotSwap s plot)

end Sys2Proof.Machine
end

