-- ==== Sys2Proof/Machine/Steeple.lean ====
section
/-! DEFINITION. Steeple (01_steeple_time.md): position reads, ENABLE, reference sources, holdover, jumps, steps and the
arming of action slots. The measuring and locking operations serve PTP as well (R254 to R257). -/

namespace Sys2Proof.Machine

open State

/-! ### Position reads (R10, R11) -/

/-- Latch of a bus master: 0 the host, p + 1 core pair p. -/
def latchOf : Master → Nat
  | .host => 0
  | .cc p => p.val + 1

/-- A read of POS_LO: the low word, with the high word latched for the master. -/
def posLoRead (s : State) (m : Master) : State :=
  if !reaches s m Pg.stp then s
  else
    let t := { s with stp := { s.stp with latch := Store.put (fun _ => 0) s.stp.latch (latchOf m) s.frame } }
    t.answer [(s.stp.pos.setWidth 32).toNat]

def execPosLoRead (m : Master) (s : State) : Out := .next (posLoRead s m)

/-- What a master's read of POS_HI returns. -/
def posHi (s : State) (m : Master) : Word := Store.get (fun _ => 0) s.stp.latch (latchOf m)

/-! ### ENABLE (R458) -/

/-- Tr of R382 by rate code. -/
def rotFrames (code : Nat) : Nat :=
  match code with
  | 0 => 7 | 1 => 7 | 2 => 6 | 3 => 4 | 4 => 4 | 5 => 3 | _ => 0

/-- SEXTON.ROT_FRAMES follows the Steeple rate (R382). -/
def setRotFrames (s : State) : State := s.setN Reg.sextonRotFrames (rotFrames (s.getF Reg.stpRaster 3 0))

/-- STP.RASTER has been written: a source refused for its rate is measured against the new one (R23). -/
def rasterWritten (s : State) : State := (setRotFrames s).setBit Reg.stpState 5 false

/-- RASTER holds values that Table 1-2 and R13 define. -/
def rasterOk (s : State) : Bool := decide (s.getF Reg.stpRaster 3 0 ≤ 5 ∧ 1 ≤ s.getF Reg.stpRaster 29 16)

/-- ENABLE 0→1 on the STP page (R458, R449): the position starts at a frame start. -/
def steepleEnable (s : State) : State :=
  if !(s.answers Pg.stp) || s.enabled Pg.stp then s
  else if !(rasterOk s) then s.failCheck Pg.stp 0x0115 (wordOf Reg.stpRaster) 0
  else
    let t := setRotFrames (s.activate Pg.stp)
    if s.inFrame = 0 then t else t.enterFrame 1 0

def execSteepleEnable (s : State) : Out := .next (steepleEnable s)

/-- A channel reads PENDING, PLACED or HELD (Table 2-7), MOVING being a placed channel in a move. -/
def anyChannelPlaced (s : State) : Bool :=
  (List.range 128).any (fun n => decide (1 ≤ s.allotState n ∧ s.allotState n ≤ 4))

/-- ENABLE 1→0 on the STP page (R458). -/
def steepleDisable (s : State) : State :=
  if !(s.answers Pg.stp) || !(s.enabled Pg.stp) then s
  else if (s.mode = 1 ∨ s.mode = 5) && !(anyChannelPlaced s) && !(s.enabled Pg.stile) then s.deactivate Pg.stp
  else s.refuse Pg.stp 0x0802 1 0

def execSteepleDisable (s : State) : Out := .next (steepleDisable s)

/-! ### States and flags (R19, Table 1-8) -/

/-- Write STATE.ST; a channel that runs while Steeple is not LOCKED notes it for its as-aired record (Table 16-4). -/
def setSt (s : State) (v : Nat) : State :=
  let t := s.setF Reg.stpState 1 0 v
  if v = 2 then t
  else { t with chans := t.chans.map (fun e => if e.2.running then (e.1, { e.2 with air := { e.2.air with unlocked := true } }) else e) }

/-- Mean frequency of the last 64 locked frames (R21); the present one while there is none. -/
def meanFreq (s : State) : Int :=
  if s.stp.lockHist.isEmpty then s.stp.freqPpb
  else tdiv (s.stp.lockHist.foldl (· + ·) 0) s.stp.lockHist.length

/-- Enter HOLDOVER without a jump in position or frequency (R21). -/
def enterHoldover (s : State) : State :=
  let t := { s with stp := { s.stp with freqPpb := meanFreq s, holdPpb := meanFreq s } }
  ((setSt t 3).setReg Reg.stpHoldFrames 0).evt Pg.stp 4

/-- LOCKED goes to HOLDOVER; a HOLDOVER in which a source was being slewed runs on at its holdover frequency (R19, R21); every
other state stays. -/
def holdOver (s : State) : State :=
  if s.stpSt = 2 then enterHoldover s
  else if s.stpSt = 3 then { s with stp := { s.stp with freqPpb := s.stp.holdPpb } }
  else s

/-- Forget what has been measured of a source. -/
def forgetSource (s : State) : State :=
  let t := { s with stp := { s.stp with okRun := 0, okFrame := none, badRun := 0, glitches := [], measured := none
                                        accepted := false, lost := false } }
  t.setF Reg.stpState 7 4 0

/-- LOCKED is entered (R20): the REF cause clears (Table 17-4). DEDUCED: the spec does not say when STATE.REF_LOST clears; it
clears here and at a write of STP.SRC (notes/assumptions/10.md). -/
def enterLocked (s : State) : State :=
  (((setSt s 2).setBit Reg.stpState 4 false).evt Pg.stp 3).clearCause 7

/-- STP.SRC as written. -/
def srcWord (sel : Nat) (refclk : Bool) (input : Nat) : Nat := sel + (if refclk then 0x10 else 0) + input * 0x100

/-- A write to STP.SRC that selects free-run (R19): FREE at once, at the frequency of SYSCLK. -/
def selectFreeRun (s : State) (refclk : Bool) (input : Nat) : State :=
  if !(s.answers Pg.stp) then s
  else
    let t := setSt (forgetSource (s.setN Reg.stpSrc (srcWord 0 refclk input))) 0
    ({ t with stp := { t.stp with freqPpb := 0 } }).clearCause 7

/-- A write to STP.SRC that selects another source (R19). DESIGN CHOICE: a reserved SEL (4 to 7) acts as a source of which
nothing is measured (notes/assumptions/42.md). -/
def selectSource (s : State) (sel : Nat) (refclk : Bool) (input : Nat) : State :=
  if !(s.answers Pg.stp) then s
  else if sel = 0 then selectFreeRun s refclk input
  else
    let t := forgetSource (holdOver (s.setN Reg.stpSrc (srcWord sel refclk input)))
    if t.stpSt = 0 then setSt t 1 else t

def execSourceSelect (sel : Fin 8) (refclk : Bool) (input : Fin 128) (s : State) : Out :=
  .next (selectSource s sel refclk input)
def execSourceSelectFreeRun (refclk : Bool) (input : Fin 128) (s : State) : Out := .next (selectFreeRun s refclk input)

/-! ### Measuring (R20, R22 to R24) -/

/-- STP.SRC.SEL. -/
def srcSel (s : State) : Nat := s.getF Reg.stpSrc 2 0

/-- ns of a phase error in FRAC units, by magnitude, rounded up. -/
def errNs (s : State) (e : Int) : Nat :=
  let (n, d) := s.framePeriod
  ceilDiv (e.natAbs * n * 1000000000) (s.frameUnits * d)

/-- The jump limit in force (R24). -/
def jumpLimit (s : State) : Nat := (s.reg (if srcSel s = 2 then Reg.ptpJumpLimit else Reg.stpJumpLimit)).toNat

/-- PHASE_ERR: signed, saturating. -/
def setPhaseErr (s : State) (e : Int) : State := s.setN Reg.stpPhaseErr (satInt 32 e)

/-- Slew towards a phase error by at most 10 ppm (R20) on top of the source's own rate: a source that is late slows Steeple
down, an early one speeds it up. -/
def slewTo (s : State) (e ppb : Int) : State :=
  let (i, t) := s.draw
  { t with stp := { t.stp with freqPpb := ppb - e.sign * (1 + Config.slew e i % 10000 : Nat) } }

/-- A correction has been measured (R24): within the jump limit it is slewed, beyond it the jump is refused. -/
def correct (s : State) (e ppb : Int) : State :=
  let t := { s with stp := { s.stp with measured := some e } }
  if errNs s e ≤ jumpLimit s then
    slewTo ({ t.setBit Reg.stpState 6 false with stp := { t.stp with accepted := false } }) e ppb
  else if t.bit Reg.stpState 6 then t
  else
    let t := holdOver t
    ((t.setBit Reg.stpState 6 true).evt Pg.stp 2).raise 0x1003 Pg.stp (t.reg Reg.stpPhaseErr).toNat 0

/-- A measurement of the source: LOCKED tracks it by slewing alone (R20), the other states apply the jump rules. -/
def measure (s : State) (e ppb : Int) : State :=
  if s.stpSt = 2 then slewTo { s with stp := { s.stp with measured := some e } } e ppb else correct s e ppb

/-- The run of measurements within ±100 ns (R20): the 16th locks, unless a jump awaits acceptance. -/
def countOk (s : State) (e : Int) : State :=
  let run := if errNs s e ≤ 100 ∧ s.bit Reg.stpState 6 = false then min 16 (s.stp.okRun + 1) else 0
  let t := { s with stp := { s.stp with okRun := run } }
  if run = 16 ∧ (t.stpSt = 1 ∨ t.stpSt = 3) then enterLocked t else t

/-- The frame start that a pulse close to it belongs to: the next one for an early pulse. -/
def pulseFrame (s : State) (e : Int) : BitVec 32 := if e < 0 then s.frame + 1 else s.frame

/-- The run of R20 counts frames: a second pulse of one frame adds nothing, and a frame without a pulse ends the run. -/
def countFrame (s : State) (e : Int) : State :=
  let f := pulseFrame s e
  if s.stp.okFrame = some f then s
  else
    let run := if s.stp.okFrame = some (f - 1) then s.stp.okRun else 0
    countOk { s with stp := { s.stp with okRun := run, okFrame := some f } } e

/-- Two phases lie within 1/8 line of each other, around the frame (R22). -/
def samePhase (s : State) (a b : Int) : Bool :=
  let d := ((a - b) % (s.frameUnits : Int)).toNat
  decide (min d (s.frameUnits - d) ≤ 32768)

/-- Pulses of three consecutive frames at one phase (R22). -/
def consistent (s : State) : Bool :=
  match s.stp.glitches with
  | [a, b, c] => decide (a.2 = b.2 + 1 ∧ b.2 = c.2 + 1) && samePhase s a.1 b.1 && samePhase s a.1 c.1 && samePhase s b.1 c.1
  | _ => false

/-- A pulse joins those that await the test of R22; once they meet it, Steeple re-locks to the phase under R24. -/
def settle (s : State) (e ppb : Int) : State :=
  let t := { s with stp := { s.stp with glitches := ((e, s.frame) :: s.stp.glitches).take 3 } }
  if consistent t then correct (setPhaseErr (t.setBit Reg.stpState 7 false) e) e ppb else t

/-- A REF_FRAME_IN pulse more than 1/8 line away is counted and ignored (R22). DEDUCED: GLITCH_PEND, which the spec only names,
reads 1 from a glitch until a pulse near the frame start, three consistent pulses or a loss of the source
(notes/assumptions/10.md). -/
def glitch (s : State) : State := ((s.inc32 Reg.stpGlitchCnt).evt Pg.stp 5).setBit Reg.stpState 7 true

/-- A REF_FRAME_IN pulse (R20, R22, R24). While a jump is refused, every pulse awaits the 3-frame test: a single one neither
replaces the phase that last met it nor ends the refusal. -/
def pinPulse (s : State) (e ppb : Int) : State :=
  let far := decide (32768 < e.natAbs)
  let t := if far then glitch s else setPhaseErr (s.setBit Reg.stpState 7 false) e
  let u := if far || t.bit Reg.stpState 6 then settle t e ppb
    else measure { t with stp := { t.stp with glitches := [] } } e ppb
  if far then u else countFrame u e

/-- The source's rate differs by more than 100 ppm (R23). -/
def rateRefused (s : State) : State :=
  let t := { s with stp := { s.stp with okRun := 0, okFrame := none, glitches := [], accepted := false, lost := false } }
  if t.bit Reg.stpState 5 then t
  else ((holdOver (t.setBit Reg.stpState 5 true)).evt Pg.stp 1).raise 0x1002 Pg.stp (s.reg Reg.stpSrc).toNat 0

/-- A REF_FRAME_IN pulse or an input frame start (R20 to R24). -/
def refFramePulse (s : State) (e ppb : Int) : State :=
  if !s.running || !(srcSel s = 1 ∨ srcSel s = 3) then s
  else if 100000 < ppb.natAbs then rateRefused s
  else
    let t := { s with stp := { s.stp with lost := false } }
    let t := t.setBit Reg.stpState 5 false
    if srcSel s = 1 then pinPulse t e ppb else countFrame (measure (setPhaseErr t e) e ppb) e

def execRefFramePulse (err ppb : Int) (s : State) : Out := .next (refFramePulse s err ppb)

/-- The selected source is lost (R18, R21, R256); free-run is never lost. -/
def refLost (s : State) : State :=
  if srcSel s = 0 ∨ s.stp.lost then s
  else
    let u := holdOver s
    let t := { u with stp := { u.stp with lost := true, okRun := 0, okFrame := none, badRun := 0, glitches := []
                                          accepted := false } }
    (((t.setBit Reg.stpState 4 true).setBit Reg.stpState 7 false).evt Pg.stp 0).raise 0x1001 Pg.stp (s.reg Reg.stpSrc).toNat 0

def execRefLost (s : State) : Out := .next (refLost s)

/-! ### Jumps (R24, R25, R257) -/

/-- An accept while JUMP_REFUSED is set waits for the next frame start. -/
def acceptJump (s : State) : State :=
  if s.bit Reg.stpState 6 then { s with stp := { s.stp with accepted := true } } else s

/-- STP.JUMP_ACCEPT serves the REF pins and input lock. -/
def jumpAccept (s : State) : State := if s.answers Pg.stp && decide (srcSel s ≠ 2) then acceptJump s else s
/-- PTP.JUMP_ACCEPT serves PTP. -/
def ptpJumpAccept (s : State) : State := if s.answers Pg.ptp && decide (srcSel s = 2) then acceptJump s else s

def execJumpAccept (s : State) : Out := .next (jumpAccept s)
def execPtpJumpAccept (s : State) : Out := .next (ptpJumpAccept s)

/-! ### Action slots (R27 to R35) -/

/-- Period of a slot in FRAC units; 0 for a one-shot. -/
def actPeriod (s : State) (n : Nat) : Nat :=
  s.getF (Reg.stpActPeriodHi n) 15 0 * s.frameUnits + (s.reg (Reg.stpActPeriodLo n)).toNat
/-- The written target. -/
def actTarget (s : State) (n : Nat) : BitVec 64 := s.reg64 (Reg.stpActTgtLo n) (Reg.stpActTgtHi n)
def actNext (s : State) (n : Nat) : BitVec 64 := Store.get (fun _ => 0) s.stp.actNext n
def setActNext (s : State) (n : Nat) (p : BitVec 64) : State :=
  { s with stp := { s.stp with actNext := Store.put (fun _ => 0) s.stp.actNext n p } }
/-- The slot is armed (R35). -/
def actArmed (s : State) (n : Nat) : Bool := s.bit (Reg.stpActStatus n) 0

/-- FRAC units from position `a` to a later position `b`. -/
def unitsBetween (s : State) (a b : BitVec 64) : Nat :=
  let m := 2 ^ 32 * s.frameUnits
  (s.unitsOf b + m - s.unitsOf a % m) % m

/-- ARM and PENDING read 0. -/
def disarm (s : State) (n : Nat) : State :=
  setActNext ((s.setBit (Reg.stpActCtrl n) 0 false).setBit (Reg.stpActStatus n) 0 false) n 0

/-- ARM and PENDING read 1, with the next firing point. -/
def armAt (s : State) (n : Nat) (p : BitVec 64) : State :=
  setActNext ((s.setBit (Reg.stpActCtrl n) 0 true).setBit (Reg.stpActStatus n) 0 true) n p

/-- Add passed points to SKIPPED, saturating (R32, R33). -/
def skipPoints (s : State) (n k : Nat) : State := s.incSat (Reg.stpActStatus n) 31 16 k

/-- LATE of a refused one-shot (R32, Table 1-7). -/
def markLate (s : State) (n : Nat) : State :=
  ((s.setBit (Reg.stpActStatus n) 1 true).setBit (if n < 32 then Reg.stpLateLo else Reg.stpLateHi) (n % 32) true).evt Pg.stp 6

/-- An arm attempt (R30, R32, R35). -/
def armAttempt (s : State) (n : Nat) : State :=
  let t := disarm (s.setReg (Reg.stpActStatus n) 0) n
  let lines := s.getF (Reg.stpActPeriodLo n) 31 18
  let P := actPeriod s n
  let badPer := decide ((0 < P ∧ P < 262144) ∨ s.totalLines ≤ lines)
  let badTgt := decide (s.totalLines ≤ s.getF (Reg.stpActTgtLo n) 31 18)
  if badPer || badTgt then (t.setBit (Reg.stpActStatus n) 4 badPer).setBit (Reg.stpActStatus n) 5 badTgt
  else
    let g := actTarget s n
    if later g s.stp.pos then armAt t n g
    else if P = 0 then markLate t n
    else
      let k := unitsBetween s g s.stp.pos / P + 1
      skipPoints (armAt t n (s.posAdd g (k * P))) n k

/-- A write of ACTn_CTRL: ARM 0→1 is an arm attempt, 1→0 disarms. -/
def actCtrlWrite (s : State) (n : Nat) (w : Word) : State :=
  if !(s.answers Pg.stp) then s
  else
    let armed := s.bit (Reg.stpActCtrl n) 0
    let t := s.setReg (Reg.stpActCtrl n) (w &&& 0x0FFF071F)
    if w.getLsbD 0 && !armed then armAttempt t n
    else if !(w.getLsbD 0) && armed then disarm t n
    else t

def execActionArm (n : Fin 64) (w : BitVec 32) (s : State) : Out := .next (actCtrlWrite s n (putBit w 0 true))
def execActionDisarm (n : Fin 64) (w : BitVec 32) (s : State) : Out := .next (actCtrlWrite s n (putBit w 0 false))

/-- Level of a TIME_OUT pin (R31): the OR of its slots' pulses, then the polarity; none while the output is disabled. -/
def timeOutPin (s : State) (pin : Nat) : Option Bool :=
  if s.bit Reg.stpToutCfg (8 + pin) then
    some ((s.stp.pulses.any (fun p => decide (p.pin = pin) && !(later p.start s.stp.pos) &&
      later (s.posAdd p.start p.width) s.stp.pos)) != s.bit Reg.stpToutCfg pin)
  else none

end Sys2Proof.Machine
end

