-- ==== Sys2Proof/Machine/Clp.lean ====
section
/-! DEFINITION. Celtil lanes (07_celtil_lanes.md): training, sparing, narrowing, markers, data rows and power states. -/

namespace Sys2Proof.Machine

open State

/-! ### Lanes and links -/

def lane (s : State) (n p : Nat) : Lane := Store.get (fun _ => Lane.init) s.clp.lanes (8 * n + p)
def setLane (s : State) (n p : Nat) (x : Lane) : State :=
  { s with clp := { s.clp with lanes := Store.put (fun _ => Lane.init) s.clp.lanes (8 * n + p) x } }
def setLink (s : State) (key : Nat) (x : Link) : State :=
  { s with clp := { s.clp with links := Store.put (fun _ => Link.init) s.clp.links key x } }

/-- Key of a link: 2·n, and 19 for link 9X. -/
def linkKey (n : Nat) (x : Bool) : Nat := if n = 9 ∧ x then 19 else 2 * n
/-- The link that holds a lane. -/
def linkOf (n p : Nat) : Nat := linkKey n (decide (4 ≤ p))

/-- Training state of Table 7-8: 0 OFF, 1 PRESET, 2 CDR, 3 ADAPT, 4 ALIGN, 5 ACTIVE, 6 FAILED. -/
def laneSt (s : State) (n p : Nat) : Nat := s.getF (Reg.clpLaneState n p) 2 0
def setLaneSt (s : State) (n p v : Nat) : State := s.setF (Reg.clpLaneState n p) 2 0 v
def lanePower (s : State) (n p : Nat) : Nat := s.getF (Reg.clpLaneState n p) 5 4
def setLanePower (s : State) (n p v : Nat) : State := s.setF (Reg.clpLaneState n p) 5 4 v
def retrainPending (s : State) (n p : Nat) : Bool := s.bit (Reg.clpLaneState n p) 8
def setRetrainPending (s : State) (n p : Nat) (b : Bool) : State := s.setBit (Reg.clpLaneState n p) 8 b

/-- The lane trains (Table 7-4). -/
def laneTrains (s : State) (n p : Nat) : Bool := decide (1 ≤ laneSt s n p ∧ laneSt s n p ≤ 4)
/-- Bit of LINK_STATE's FAILED mask: the lane is FAILED, or retrains from FAILED and has not rejoined. -/
def laneFailed (s : State) (n p : Nat) : Bool := s.bit (Reg.clpLinkState n) (8 + p)
def setLaneFailed (s : State) (n p : Nat) (b : Bool) : State := s.setBit (Reg.clpLinkState n) (8 + p) b

/-- Role by CLPn.CFG (R173). CLP9 has no spare. -/
def cfgRole (s : State) (n p : Nat) : Nat :=
  let c := s.reg (Reg.clpCfg n)
  if (fld c 15 8).testBit p then 1 else if c.getLsbD 19 && decide (n ≠ 9) && decide (fld c 18 16 = p) then 2 else 0

def setLinkState (s : State) (key v : Nat) : State :=
  if key = 19 then s.setF (Reg.clpLinkState 9) 26 24 v else s.setF (Reg.clpLinkState (key / 2)) 2 0 v

/-- Links of a bundle that have a DATA lane. -/
def linksOf (s : State) (n : Nat) : List Nat :=
  ((if n = 9 then [18, 19] else [2 * n]).filter (fun k => (linkLanes k).any (fun p => laneRole s n p = 1)))

/-- DATA lanes in use that are not FAILED. -/
def goodData (s : State) (key : Nat) : List Nat := (dataInUse s key).filter (fun p => !(laneFailed s (key / 2) p))

/-- A mask of lanes. -/
def maskOf (l : List Nat) : Nat := l.foldl (fun m p => m ||| 2 ^ p) 0

/-- The spare can take over: aligned, or restored at the next BAM row (Table 7-9), not FAILED, and not in use (R187). -/
def spareUsable (s : State) (key : Nat) : Bool :=
  match spareOf s key with
  | some p => (decide (laneSt s (key / 2) p = 5) || (link s key).restore.contains p) && !(laneFailed s (key / 2) p) && (link s key).covered.isNone &&
      (link s key).takeover.isNone
  | none => false

/-! ### The CLP cause (Table 17-4) -/

/-- Every link of a bundle is UP with its spare ACTIVE. -/
def bundleGood (s : State) (n : Nat) : Bool :=
  (linksOf s n).all (fun k => decide (linkState s k = 2) &&
    match spareOf s k with | some p => decide (laneSt s n p = 5) && !(laneFailed s n p) | none => true)

/-- Bring the CLP cause and the bundles' DEGRADED bits up to date. -/
def settleClp (s : State) : State :=
  let bad := (List.range 10).filter (fun n => s.enabled (Pg.clp n) && !(bundleGood s n))
  let t := (List.range 10).foldl (fun t n => if bad.contains n then t else t.unitDegraded (Pg.clp n) false) s
  if bad.isEmpty then t.clearCause 1 else t

/-! ### Link management (R180, R188, R189) -/

/-- Lanes that carry a link's control rows: DATA and SPARE (R181). -/
def txLanes (s : State) (key : Nat) : List Nat := txData s key ++ (spareOf s key).toList

def sendSet (s : State) (key type arg : Nat) : State :=
  { s with sent := .linkSet (key / 2) (decide (key = 19)) type arg (setRows (txLanes s key) type arg) :: s.sent }

/-- Ask the far end for the remaining good DATA lanes (R188). -/
def sendNarrow (s : State) (key : Nat) : State :=
  let m := maskOf (goodData s key)
  let t := sendSet s key 1 m
  setLink t key { link t key with narrowReq := some m, narrowAge := 0, takeover := none }

/-! ### Failure and sparing (R186 to R189) -/

/-- A DATA lane of a link out of training has failed: the spare takes over at the next BAM row, or the link narrows. -/
def coverLane (s : State) (key p : Nat) : State :=
  if spareUsable s key then setLink s key { link s key with takeover := some p } else sendNarrow s key

/-- Lanes of a link that retrain without having failed, other than `p`: their training is aborted (Table 7-9). -/
def abortTrainers (s : State) (n key p : Nat) : State :=
  ((linkLanes key).filter (fun q => decide (q ≠ p) && laneTrains s n q && (lane s n q).held.isSome)).foldl (fun t q =>
    let t := (setRetrainPending t n q true).evt (Pg.clp n) 6
    setLink t key { link t key with restore := (link t key).restore ++ [q] }) s

/-- A lane becomes FAILED (R186). -/
def failLane (s : State) (n p : Nat) : State :=
  let key := linkOf n p
  let role := laneRole s n p
  let t := setRetrainPending (setLaneFailed (setLaneSt s n p 6) n p true) n p false
  let t := setLane t n p { lane t n p with failedAt := s.frame, held := none }
  let t := (t.evt (Pg.clp n) 0).raise 0x4001 (Pg.clp n) n p
  let t := setLink t key { link t key with rejoin := (link t key).rejoin.filter (fun q => decide (q ≠ p)) }
  if linkState t key ≤ 1 then t
  else if role = 1 then coverLane (abortTrainers t n key p) key p
  else if (link t key).covered.isSome ∨ (link t key).takeover.isSome then sendNarrow t key
  else t

/-- Once no lane of a link in TRAINING trains any more, the link comes up with the lanes it has (R191). -/
def linkUp (s : State) (key : Nat) : State :=
  let n := key / 2
  if linkState s key ≠ 1 ∨ (linkLanes key).any (fun p => laneTrains s n p) then s
  else match (dataLanes s key).filter (laneFailed s n) with
    | [] => (setLinkState s key 2).evt (Pg.clp n) 8
    | [p] => coverLane s key p
    | _ => sendNarrow s key

/-! ### Retraining (R192, R193) -/

/-- Every lane of the device, in ascending bundle and lane order. -/
def allLanes : List (Nat × Nat) := (List.range 10).flatMap (fun n => (List.range 8).map (fun p => (n, p)))

/-- R193: the link's spare is aligned, and no other lane of the link is FAILED or training. -/
def retrainAllowed (s : State) (n p : Nat) : Bool :=
  let key := linkOf n p
  (match spareOf s key with
    | some q => decide (laneSt s n q = 5) && !(laneFailed s n q)
    | none => false) &&
  (linkLanes key).all (fun q => decide (q = p) || (!(laneFailed s n q) && !(laneTrains s n q)))

/-- SERVICE and DEGRADED limit retraining. -/
def inService (s : State) : Bool := decide (s.mode = 2 ∨ s.mode = 3)

/-- A pending request starts now. -/
def retrainStarts (s : State) (n p : Nat) : Bool :=
  retrainPending s n p && s.enabled (Pg.clp n) && decide (laneRole s n p ≠ 0) && decide (5 ≤ laneSt s n p ∧ laneSt s n p ≤ 6) &&
  (!(inService s) || (!(allLanes.any (fun l => laneTrains s l.1 l.2)) && (laneFailed s n p || retrainAllowed s n p)))

/-- Start retraining a lane: ACTIVE or FAILED goes to CDR (Table 7-4). -/
def startRetrain (s : State) (n p : Nat) : State :=
  let t := setRetrainPending (setLanePower (setLaneSt s n p 2) n p 0) n p false
  setLane t n p { lane t n p with held := if laneFailed s n p then none else some (s.getF (Reg.clpLaneEq n p) 3 0) }

/-- Serve the pending requests in order. -/
def startRetrains (s : State) : State :=
  allLanes.foldl (fun t l => if retrainStarts t l.1 l.2 then startRetrain t l.1 l.2 else t) s

/-- What follows a change of a lane: the link, the waiting requests and the CLP cause. -/
def afterLane (s : State) (n p : Nat) : State := settleClp (startRetrains (linkUp s (linkOf n p)))

/-- Training ends without a working lane (R191): EVT bit 5 for a retrain. -/
def trainFail (s : State) (n p : Nat) : State :=
  let t := if laneFailed s n p then (setLaneSt s n p 6).evt (Pg.clp n) 5
    else if (lane s n p).held.isSome then (failLane s n p).evt (Pg.clp n) 5 else failLane s n p
  afterLane t n p

/-- A write of GO to CLPn.RETRAIN. -/
def retrain (s : State) (n p : Nat) : State :=
  if !(s.answers (Pg.clp n)) || !(s.enabled (Pg.clp n)) || decide (laneRole s n p = 0) then s
  else
    let t := setRetrainPending s n p true
    let t := if inService s && !(laneFailed s n p) && !(retrainAllowed s n p) then t.evt (Pg.clp n) 6 else t
    startRetrains t

def execRetrain (n : Fin 10) (p : Fin 8) (s : State) : Out := .next (retrain s n p)

/-- The frame starts at which a FAILED lane retrains by itself: the first after it failed, and every 1,024 after that; the next
of them is reached (notes/assumptions/2.md). -/
def autoRetrain (s : State) (n p : Nat) : State :=
  if !(s.bit (Reg.clpAdapt n) 16) || !s.running || !(s.enabled (Pg.clp n)) || decide (laneSt s n p ≠ 6) then s
  else
    let f := (lane s n p).failedAt
    let k := (s.frame - f).toNat
    let here := s.inFrame = 0 ∧ 1 ≤ k ∧ (k - 1) % 1024 = 0
    let t := if here then s else s.enterFrame ((1024 - k % 1024) % 1024 + 1) 0
    startRetrains (setRetrainPending t n p true)

def execAutoRetrain (n : Fin 10) (p : Fin 8) (s : State) : Out := .next (autoRetrain s n p)

/-! ### ENABLE (R174, R196) -/

/-- The check of R196; every field it tests lies in CFG. -/
def clpConfigOk (s : State) (n : Nat) : Bool :=
  let c := s.reg (Reg.clpCfg n)
  decide (fld c 2 0 ≤ 4) && decide (fld c 15 8 ≠ 0) && (!(c.getLsbD 19) || !((fld c 15 8).testBit (fld c 18 16))) &&
    !(decide (n = 9) && c.getLsbD 19)

/-- One lane at ENABLE 0→1: PRESET is loaded and a DATA or SPARE lane goes on to CDR (Table 7-4). -/
def startLane (s : State) (n p : Nat) : State :=
  let role := cfgRole s n p
  let pwr := if role = 0 then s.getF (Reg.clpLanePwr n) (2 * p + 1) (2 * p) else 0
  let t := s.setN (Reg.clpLaneState n p) ((if role = 0 then 0 else 2) + pwr * 0x10 + role * 0x40)
  setLane (t.setN (Reg.clpLaneEq n p) (s.getF (Reg.clpPreset n) 3 0)) n p Lane.init

def clpEnable (s : State) (n : Nat) : State :=
  if !(s.answers (Pg.clp n)) || s.enabled (Pg.clp n) then s
  else if !(clpConfigOk s n) then s.failCheck (Pg.clp n) 0x010B (wordOf (Reg.clpCfg n)) 0
  else
    let t := s.activate (Pg.clp n)
    let t := (List.range 8).foldl (fun t p => startLane t n p) t
    let t := [2 * n, 2 * n + 1].foldl (fun t k => setLink t k Link.init) t
    let t := t.setN (Reg.clpLinkState n) (s.getF (Reg.clpCfg n) 15 8 * 0x10000)
    settleClp ((linksOf t n).foldl (fun t k => setLinkState t k 1) t)

def execClpEnable (n : Fin 10) (s : State) : Out := .next (clpEnable s n)

/-- ENABLE 1→0: every lane in P3 (R174). -/
def clpDisable (s : State) (n : Nat) : State :=
  if !(s.answers (Pg.clp n)) || !(s.enabled (Pg.clp n)) then s
  else
    let t := s.deactivate (Pg.clp n)
    let t := (List.range 8).foldl (fun t p => setLane (t.setN (Reg.clpLaneState n p) 0x30) n p Lane.init) t
    let t := [2 * n, 2 * n + 1].foldl (fun t k => setLink t k Link.init) t
    settleClp (startRetrains (t.setReg (Reg.clpLinkState n) 0))

def execClpDisable (n : Fin 10) (s : State) : Out := .next (clpDisable s n)

/-! ### Training (R190, R191) -/

def laneCdrLock (s : State) (n p : Nat) : State := if laneSt s n p = 2 then setLaneSt s n p 3 else s
def execLaneCdrLock (n : Fin 10) (p : Fin 8) (s : State) : Out := .next (laneCdrLock s n p)

def laneCdrTimeout (s : State) (n p : Nat) : State := if laneSt s n p = 2 then trainFail s n p else s
def execLaneCdrTimeout (n : Fin 10) (p : Fin 8) (s : State) : Out := .next (laneCdrTimeout s n p)

/-- FOM of R190. -/
def fom (v h : Nat) : Nat := min 255 (min v (4 * h))

/-- The working setting of highest FOM, the lower boost on a tie (R191). -/
def bestPoint (fomMin : Nat) (l : List SweepPoint) : Option SweepPoint :=
  minBy (fun a b => decide (fom b.v b.h < fom a.v a.h ∨ (fom a.v a.h = fom b.v b.h ∧ a.boost < b.boost)))
    (l.filter (fun x => decide (fomMin ≤ fom x.v x.h) && !x.cv))

/-- Record a FOM: current, lowest since clear, at last training (Table 7-8). A lowest of 0 stands for none yet. -/
def setFom (s : State) (n p f : Nat) : State :=
  let low := s.getF (Reg.clpLaneFom n p) 15 8
  s.setN (Reg.clpLaneFom n p) (f + (if low = 0 then f else min low f) * 0x100 + f * 0x10000)

/-- The CTLE sweep ends (R191). -/
def laneAdaptComplete (s : State) (n p : Nat) (points wide : List SweepPoint) : State :=
  if laneSt s n p ≠ 3 then s
  else
    let c := s.getF (Reg.clpPreset n) 3 0
    let lim := s.getF (Reg.clpAdapt n) 7 0
    let near := points.filter (fun x => decide (c ≤ x.boost + 3 ∧ x.boost ≤ c + 3))
    let found := match bestPoint lim near with
      | some x => some x
      | none => if s.bit (Reg.clpAdapt n) 17 then bestPoint lim wide else none
    match found with
    | some x => setLaneSt (setFom (s.setN (Reg.clpLaneEq n p) x.boost) n p (fom x.v x.h)) n p 4
    | none => trainFail s n p

def execLaneAdaptComplete (n : Fin 10) (p : Fin 8) (points wide : List SweepPoint) (s : State) : Out :=
  .next (laneAdaptComplete s n p points wide)

/-- MARKER's largest skew. -/
def noteSkew (s : State) (n skew : Nat) : State :=
  s.setF (Reg.clpMarker n) 23 16 (min 255 (max (s.getF (Reg.clpMarker n) 23 16) skew))

/-- Comma lock and deskew (R184, R191): more than 64 characters of skew cannot align. -/
def laneAlignComplete (s : State) (n p skew : Nat) : State :=
  if laneSt s n p ≠ 4 then s
  else
    let key := linkOf n p
    let t := noteSkew s n skew
    if 64 < skew then trainFail t n p
    else
      let again := laneFailed s n p || (lane s n p).held.isSome
      let t := setLane (setLaneSt t n p 5) n p { lane t n p with held := none, bamBad := 0, errRun := 0, errs := (0, 0) }
      let t := if again then
          setLink (t.evt (Pg.clp n) 4) key { link t key with
            rejoin := (link t key).rejoin ++ [p], restore := (link t key).restore.filter (fun q => decide (q ≠ p)) }
        else t
      afterLane t n p

def execLaneAlignComplete (n : Fin 10) (p : Fin 8) (skew : Nat) (s : State) : Out := .next (laneAlignComplete s n p skew)

def laneAlignTimeout (s : State) (n p : Nat) : State := if laneSt s n p = 4 then trainFail s n p else s
def execLaneAlignTimeout (n : Fin 10) (p : Fin 8) (s : State) : Out := .next (laneAlignTimeout s n p)

/-- A cause of R186 stands: alignment lost by characters or by markers, more errors in a window than ERR_LIMIT, training that ends; no
transition on the lane is the receiver's to see. -/
def laneCause (s : State) (n p : Nat) : LaneCause → Bool
  | .noTransition => true
  | .lostAlignment => decide (4 ≤ (lane s n p).errRun ∨ 2 ≤ (lane s n p).bamBad)
  | .tooManyErrors => decide (s.getF (Reg.clpAdapt n) 15 8 < (lane s n p).errs.2)
  | .retrainFailed => laneTrains s n p

/-- A lane in use is declared FAILED (R186). -/
def laneFails (s : State) (n p : Nat) (cause : LaneCause) : State :=
  if !(s.enabled (Pg.clp n)) || decide (laneRole s n p = 0) || decide (laneSt s n p = 6) || !(laneCause s n p cause) then s
  else if laneTrains s n p then trainFail s n p else afterLane (failLane s n p) n p

def execLaneFailed (n : Fin 10) (p : Fin 8) (cause : LaneCause) (s : State) : Out := .next (laneFails s n p cause)

/-! ### Data rows (R176, R177, R181, R185, R384) -/

/-- Count one error toward R186 in the 1 ms window in progress. -/
def noteError (s : State) (n p : Nat) : State :=
  let w := s.stp.timeNs / 1000000
  let x := lane s n p
  setLane s n p { x with errs := (w, (if x.errs.1 = w then x.errs.2 else 0) + 1) }

/-- A character of one lane (R176, R177): its errors are counted; 4 in a row lose alignment. -/
def countChar (s : State) (n p : Nat) (c : LaneChar) : State :=
  let t := if c.violation then noteError (s.inc32 (Reg.clpLaneCv n p)) n p
    else if c.disparity then noteError (s.inc32 (Reg.clpLaneDisp n p)) n p else s
  let x := lane t n p
  setLane t n p { x with errRun := if 4 ≤ x.errRun then 4 else if c.violation || c.disparity then x.errRun + 1 else 0 }

/-- A bad character of R185. -/
def badChar (c : LaneChar) : Bool := c.violation || c.disparity || c.control

/-- The receiver ignores a lane's characters: it has lost alignment, trains, has yet to rejoin, or the spare covers it (R177,
R187, R193). -/
def laneOut (s : State) (key p : Nat) : Bool :=
  let n := key / 2
  laneTrains s n p || decide (4 ≤ (lane s n p).errRun) || (link s key).rejoin.contains p || decide ((link s key).covered = some p)

/-- The packet in assembly ends as if by ABT: the inputs its header names count it, and its later rows are ignored (R185, R198). -/
def abortPacket (s : State) (key : Nat) : State :=
  let x := link s key
  let t := match x.packet with
    | _ :: b :: _ => (inputsFor s key (b.toNat % 16)).foldl (fun t i => t.inc32 (Reg.inpAborts i)) s
    | _ => s
  setLink t key { link t key with packet := [], dead := true }

/-- XOR of bytes. -/
def xorBytes (l : List (BitVec 8)) : BitVec 8 := l.foldl (· ^^^ ·) 0

/-- The character of a lane in a row of groups; a row too short shows none. -/
def rowChar (key : Nat) (chars : List LaneGroup) (p : Nat) : LaneChar := laneChar (chars.getD (p - (if key = 19 then 4 else 0)) ⟨0, false⟩)

/-- The characters of a row are counted on every lane of the link that has a role (R176, R177). -/
def countLanes (s : State) (key : Nat) (chars : List LaneGroup) : State :=
  ((linkLanes key).filter (fun p => decide (laneRole s (key / 2) p ≠ 0))).foldl (fun t p => countChar t (key / 2) p (rowChar key chars p)) s

/-- The packet in assembly takes the bytes of a row, unless it has been ended. -/
def addBytes (s : State) (key : Nat) (l : List (BitVec 8)) : State :=
  if (link s key).dead then s else setLink s key { link s key with packet := (link s key).packet ++ l }

/-- A data row (R185). -/
def clpDataRow (s : State) (n : Nat) (x : Bool) (chars : List LaneGroup) : State :=
  let key := linkKey n x
  if !(s.enabled (Pg.clp n)) || decide (linkState s key < 2) then s
  else
    let at_ (p : Nat) : LaneChar := rowChar key chars p
    let used := dataInUse s key
    let t := countLanes s key chars
    let bad (p : Nat) : Bool := laneOut t key p || badChar (at_ p)
    let spare := (spareOf s key).map (fun q => (q, !(badChar (at_ q)) && decide (laneSt t n q = 5) && !(laneFailed t n q) &&
      decide ((lane t n q).errRun < 4)))
    match used.filter bad with
    | [] =>
      let data := used.map (fun p => (at_ p).byte)
      let t := match spare with
        | some (q, true) => if (at_ q).byte ≠ xorBytes data then noteError t n q else t
        | _ => t
      addBytes t key data
    | [p] =>
      match spare with
      | some (q, true) =>
        let others := xorBytes ((used.filter (fun r => decide (r ≠ p))).map (fun r => (at_ r).byte))
        addBytes (t.inc32 (Reg.clpRecon n)) key (used.map (fun r => if r = p then (at_ q).byte ^^^ others else (at_ r).byte))
      | some (_, false) => abortPacket t key
      | none => addBytes t key (used.map (fun r => (at_ r).byte))
    | _ => abortPacket t key

def execClpDataRow (n : Fin 10) (linkX : Bool) (chars : List LaneGroup) (s : State) : Out := .next (clpDataRow s n linkX chars)

/-- What the control row that ends a packet reads as (R185): the character of more than half of the DATA and SPARE lanes, ABT (0xFE) where
no character has that. -/
def rowVote (s : State) (key : Nat) (chars : List LaneGroup) : Bool × BitVec 8 :=
  let votes := ((dataInUse s key ++ (spareOf s key).toList).filter (fun p => !(laneOut s key p))).map (rowChar key chars)
  let same (a b : LaneChar) : Bool := decide (a.control = b.control ∧ a.byte = b.byte) && !(b.violation || b.disparity)
  match votes.find? (fun a => !(a.violation || a.disparity) && decide (votes.length < 2 * (votes.filter (same a)).length)) with
  | some a => (a.control, a.byte)
  | none => (true, 0xFE)

/-! ### Markers (R182 to R184) -/

/-- The transmitter of a lane holds electrical idle: in reset, and where the lane is UNUSED (R174). -/
def txIdle (s : State) (n p : Nat) : Bool := s.inReset || decide (laneRole s n p = 0)

/-- What each lane of a link that is not idle sends as a marker. -/
def markerLanes (s : State) (key : Nat) : List (Nat × List (Bool × Nat)) :=
  ((linkLanes key).filter (fun p => !(txIdle s (key / 2) p))).map (fun p =>
    (p, markerChars (key / 2) p (decide (laneRole s (key / 2) p = 2)) (link s key).seqTx.toNat))

/-- A marker is sent on every lane of a link that is not idle; a narrowed mask comes into use at its second marker (R182, R189). -/
def bamSend (s : State) (n : Nat) (x : Bool) : State :=
  let key := linkKey n x
  if !(s.enabled (Pg.clp n)) || !((linksOf s n).contains key) then s
  else
    let l := link s key
    let l' : Link := match l.txPend with
      | some (m, k) => if k ≤ 1 then { l with txMask := some m, txPend := none } else { l with txPend := some (m, k - 1) }
      | none => l
    { setLink s key { l' with seqTx := l.seqTx + 1, narrowAge := if l.narrowReq.isSome then l.narrowAge + 1 else 0 } with
      sent := .marker n (decide (key = 19)) l.seqTx (markerLanes s key) :: s.sent }

def execBamSend (n : Fin 10) (linkX : Bool) (s : State) : Out := .next (bamSend s n linkX)

/-- SKP rows deleted or repeated, four at most (R183). -/
def skpAdjust (s : State) (n : Nat) (skp : Int) : State :=
  if skp < 0 then s.incSat (Reg.clpSkpAdj n) 15 0 (min 4 skp.natAbs) else s.incSat (Reg.clpSkpAdj n) 31 16 (min 4 skp.natAbs)

/-- The narrowed mask comes into use (R188): the Watch logs it and the inputs that no longer fit are lost (R213). -/
def applyNarrow (s : State) (key m : Nat) : State :=
  let n := key / 2
  let mine := maskOf (linkLanes key)
  let t := s.setF (Reg.clpLinkState n) 23 16 ((s.getF (Reg.clpLinkState n) 23 16 &&& (255 - mine)) ||| (m &&& mine))
  let t := setLinkState t key 4
  let t := setLink t key { link t key with narrowIn := none, covered := none, takeover := none }
  shedInputs ((t.evt (Pg.clp n) 2).raise 0x4002 (Pg.clp n) n m) key

/-- What waits for a BAM row takes effect (R184, R187, R188, R192). -/
def atBam (s : State) (key : Nat) : State :=
  let n := key / 2
  let x := link s key
  let t := match x.takeover with
    | some p => (setLinkState (setLink s key { x with takeover := none, covered := some p }) key 3).evt (Pg.clp n) 1
    | none => s
  let t := x.rejoin.foldl (fun t p =>
    let t := setLaneFailed t n p false
    if (link t key).covered = some p then
      (setLinkState (setLink t key { link t key with covered := none }) key 2).evt (Pg.clp n) 8
    else t) t
  let t := x.restore.foldl (fun t q =>
    let h := (lane t n q).held
    let t := if laneTrains t n q then setLaneSt t n q 5 else t
    let t := match h with | some e => t.setN (Reg.clpLaneEq n q) e | none => t
    setLane t n q { lane t n q with held := none }) t
  let t := setLink t key { link t key with rejoin := [], restore := [] }
  match (link t key).narrowIn with
  | some (m, k) => if k ≤ 1 then applyNarrow t key m else setLink t key { link t key with narrowIn := some (m, k - 1) }
  | none => t

/-- A lane shows a marker with a good CRC (R182). -/
def bamWhole (b : BamLane) : Bool := b.present && decide (b.crc.toNat = crc8 [b.seq.toNat, b.id.toNat])

/-- A marker is received (R183, R184). -/
def bamReceived (s : State) (n : Nat) (x : Bool) (lanes : List BamLane) (skp : Int) : State :=
  let key := linkKey n x
  if !(s.enabled (Pg.clp n)) || !((linksOf s n).contains key) then s
  else
    let at_ (p : Nat) : BamLane := lanes.getD (p - (if key = 19 then 4 else 0)) ⟨false, 0, 0, 0, 0⟩
    let act := (linkLanes key).filter (fun p => decide (laneRole s n p ≠ 0 ∧ laneSt s n p = 5))
    let whole (p : Nat) : Bool := bamWhole (at_ p)
    match (link s key).seqRx.or ((act.find? whole).map (fun p => (at_ p).seq)) with
    | none => s
    | some seq =>
      let good (p : Nat) : Bool := whole p && decide ((at_ p).seq = seq) && decide ((at_ p).skew ≤ 64) && decide (skp.natAbs ≤ 4)
      let t := act.foldl (fun t p => setLane t n p { lane t n p with bamBad := if good p then 0 else min 2 ((lane t n p).bamBad + 1) }) s
      let t := setLink t key { link t key with seqRx := some (seq + 1) }
      let t := if act.any good then t.setF (Reg.clpMarker n) 7 0 seq.toNat else t
      let t := (act.filter whole).foldl (fun t p => noteSkew t n (at_ p).skew) t
      settleClp (startRetrains (atBam (skpAdjust t n skp) key))

def execBamReceived (n : Fin 10) (linkX : Bool) (lanes : List BamLane) (skp : Int) (s : State) : Out :=
  .next (bamReceived s n linkX lanes skp)

/-! ### Link-management sets -/

/-- A NARROW set is received (R189): acknowledged, and in use from the second marker after it. -/
def narrow (s : State) (n : Nat) (x : Bool) (mask crc : Nat) : State :=
  let key := linkKey n x
  if !(s.enabled (Pg.clp n)) || decide (crc ≠ crc8 [1, mask]) || !((linksOf s n).contains key) then s
  else
    let t := sendSet s key 2 mask
    setLink t key { link t key with txPend := some (mask, 2) }

def execNarrow (n : Fin 10) (linkX : Bool) (mask crc : BitVec 8) (s : State) : Out :=
  .next (narrow s n linkX mask.toNat crc.toNat)

/-- A NARROW_ACK set is received (R188): the latest mask acknowledged applies from the second BAM row after it. -/
def narrowAck (s : State) (n : Nat) (x : Bool) (mask crc : Nat) : State :=
  let key := linkKey n x
  let l := link s key
  match l.narrowReq with
  | some m => if crc = crc8 [2, mask] ∧ m = mask then setLink s key { l with narrowReq := none, narrowIn := some (mask, 2) } else s
  | none => s

def execNarrowAck (n : Fin 10) (linkX : Bool) (mask crc : BitVec 8) (s : State) : Out :=
  .next (narrowAck s n linkX mask.toNat crc.toNat)

/-- A STATUS set is sent or received (R180). -/
def statusSet (s : State) (n : Nat) (x : Bool) (rx : Option (BitVec 8 × BitVec 8)) : State :=
  let key := linkKey n x
  if !(s.enabled (Pg.clp n)) || !((linksOf s n).contains key) then s
  else match rx with
    | none => sendSet s key 3 (maskOf ((linkLanes key).filter (laneFailed s n)))
    | some (m, crc) => if crc.toNat = crc8 [3, m.toNat] then setLink s key { link s key with lastStatus := m.toNat } else s

def execStatus (n : Fin 10) (linkX : Bool) (rx : Option (BitVec 8 × BitVec 8)) (s : State) : Out := .next (statusSet s n linkX rx)

/-- No NARROW_ACK within 8 marker periods: the link is DOWN (R188). -/
def clpBundleDown (s : State) (n : Nat) (x : Bool) : State :=
  let key := linkKey n x
  if (link s key).narrowReq.isNone || decide ((link s key).narrowAge < 8) then s
  else
    let t := setLink s key { link s key with narrowReq := none, narrowIn := none, covered := none, packet := [], dead := false }
    settleClp (((setLinkState t key 0).evt (Pg.clp n) 3).raise 0x4003 (Pg.clp n) n 0)

def execClpBundleDown (n : Fin 10) (linkX : Bool) (s : State) : Out := .next (clpBundleDown s n linkX)

/-! ### Power states and counters (R194, Table 7-8) -/

/-- A lane power request: ignored on a DATA or SPARE lane of an enabled link (R194). -/
def powerRequest (s : State) (n p v : Nat) : State :=
  let role := laneRole s n p
  if s.enabled (Pg.clp n) && decide (role ≠ 0) && decide (v ≠ 0) then s.evt (Pg.clp n) 7
  else
    let t := s.setF (Reg.clpLanePwr n) (2 * p + 1) (2 * p) v
    if !(s.enabled (Pg.clp n)) || decide (role ≠ 0) then t
    else if v ≠ 0 then setLaneSt (setLanePower t n p v) n p 0
    else if lanePower s n p = 3 then setLaneSt (setLanePower t n p 0) n p 2
    else t

def lanePowerRequest (s : State) (n : Nat) (w : Word) : State :=
  if s.answers (Pg.clp n) then (List.range 8).foldl (fun t p => powerRequest t n p (fld w (2 * p + 1) (2 * p))) s else s

def execLanePowerRequest (n : Fin 10) (w : BitVec 32) (s : State) : Out := .next (lanePowerRequest s n w)

/-- A lane leaves P1 or P2 (Table 7-5). -/
def lanePowerExit (s : State) (n p : Nat) : State :=
  if s.enabled (Pg.clp n) && decide ((lanePower s n p = 1 ∨ lanePower s n p = 2) ∧ s.getF (Reg.clpLanePwr n) (2 * p + 1) (2 * p) = 0) then
    setLaneSt (setLanePower s n p 0) n p 5
  else s

def execLanePowerExit (n : Fin 10) (p : Fin 8) (s : State) : Out := .next (lanePowerExit s n p)

/-- LANE_CLR. -/
def laneClr (s : State) (n p : Nat) : State :=
  if s.answers (Pg.clp n) then ((s.setReg (Reg.clpLaneCv n p) 0).setReg (Reg.clpLaneDisp n p) 0).setF (Reg.clpLaneFom n p) 15 8 0
  else s

def execLaneClr (n : Fin 10) (p : Fin 8) (s : State) : Out := .next (laneClr s n p)

/-- A lane that lost alignment realigns on the next comma (R177). -/
def execCharacterAlignment (n : Fin 10) (p : Fin 8) (s : State) : Out :=
  .next (setLane s n p { lane s n p with errRun := 0 })

end Sys2Proof.Machine
end

