-- ==== Sys2Proof/Machine/Ingest.lean ====
section
/-! DEFINITION. Ingest (08_ingest.md): packets, landing in the raw input stores, loss and return, the input check and the ING
window. -/

namespace Sys2Proof.Machine

open State

/-! ### Samples (R199) -/

/-- Samples of a raster payload at 8 or 10 bits. -/
def rasterSamples (bytes : List Nat) (deep : Bool) : List Nat := if deep then unpack10 bytes else bytes

/-- A sample of an input at a channel's depth (R199). -/
def toDepth (fromDeep toDeep : Bool) (v : Nat) : Nat :=
  match fromDeep, toDeep with
  | false, true => v * 4
  | true, false => min 255 ((v + 2) / 4)
  | _, _ => v

/-! ### Landing (R203 to R205, R208) -/

/-- The channel line of a line of a field (R204). -/
def lineOfField (s : State) (i line : Nat) (second : Bool) : Nat :=
  if second then s.getF (Reg.inpTiming i) 13 0 / 2 + line else line

/-- Put samples at a place of a line. -/
def overlayLine (old : List (BitVec 16)) (ofs : Nat) (l : List (BitVec 16)) : List (BitVec 16) :=
  let old := old ++ List.replicate (ofs + l.length - old.length) 0
  old.take ofs ++ l ++ old.drop (ofs + l.length)

/-- Put samples of a line part into the raw store of a unit, of the frame in progress or the next: whole, or from sample `ofs` on. -/
def storeIn (s : State) (u : Nat) (ahead : Bool) (line half : Nat) (ofs : Option Nat) (l : List (BitVec 16)) : State :=
  let par := if ahead then 1 - rawPar s u else rawPar s u
  setRaw s u par line half (match ofs with | none => l | some o => overlayLine (rawPart s u par line half) o l)

/-- A repeated part takes black where the frame before could not be read (R346), in one channel's raw store. -/
def blackFailed (s : State) (n line half : Nat) : State :=
  let c := s.cfgOf n
  let par := rawPar s n
  match pictureLine c line with
  | none => s
  | some (f, y) =>
    let spans := (rawPic s n (1 - par)).spans (frameLine c f y) (frameLine c f y)
    if spans.any (fun e => readFails s 38 e.1 e.2) then
      let at_ (i : Nat) : Nat := if half = 0 then i else i / 4 * 8 + i % 4 + (if half = 2 then 4 else 0)
      let l := rawPart s n par line half
      let t := setRaw s n par line half ((l.zip (List.range l.length)).map (fun e =>
        if rawFails s 38 n (1 - par) (frameLine c f y) (at_ e.2) then BitVec.ofNat 16 (if c.deep then blackAt (at_ e.2) else blackAt (at_ e.2) / 4) else e.1))
      readDone t 38 spans
    else s

/-- The part of the frame before stands in place of a line part (R211). -/
def repeatRead (s : State) (i line half : Nat) : State :=
  (channelsOf s i).foldl (fun t n => blackFailed t n line half) (repeatPart s i line half)

/-- Write samples of a line part into the raw store of every channel that an input feeds, at the channel's depth, and into the input's
FIFO. While the input is LOST, the part of the frame before stands in their place, but for a frame that has not begun (R212). -/
def storePart (s : State) (i : Nat) (ahead : Bool) (line half : Nat) (ofs : Option Nat) (deep : Bool) (l : List Nat) : State :=
  if decide (inSt s i = 3) && !ahead then repeatRead s i line half
  else (channelsOf s i).foldl (fun t n =>
    storeIn t n ahead line half ofs (l.map (fun v => BitVec.ofNat 16 (toDepth deep (t.cfgOf n).deep v))))
      (storeIn s (128 + i) ahead line half ofs (l.map (BitVec.ofNat 16)))

/-- Every part of a line of an input is in its store: both halves of a pair, or the line's whole samples (R204). -/
def lineWhole (s : State) (i par line : Nat) : Bool :=
  let n (half : Nat) := (rawPart s (128 + i) par line half).length
  if inKind s i = 2 then decide (n 1 ≠ 0 ∧ n 2 ≠ 0) else decide (2 * s.getF (Reg.inpGeom i) 13 0 ≤ n 0)

/-- Every part of a line is among parts that have landed. -/
def partsIn (s : State) (i line : Nat) (l : List Nat) : Bool :=
  if inKind s i = 2 then l.contains (line * 3 + 1) && l.contains (line * 3 + 2) else l.contains (line * 3)

/-- A line part has landed: it is marked, and where its line has landed whole, so is the position (R149, R204). -/
def markLanded (s : State) (i : Nat) (ahead : Bool) (line half : Nat) : State :=
  let k := line * 3 + half
  modInp s i (fun x =>
    let l := if ahead then x.early else x.landed
    let l := if l.contains k then l else k :: l
    let m := if ahead then x.landNext else x.land
    let par := if ahead then 1 - rawPar s (128 + i) else rawPar s (128 + i)
    let m := if (Store.get (fun _ => none) m line).isNone && partsIn s i line l && lineWhole s i par line then
      Store.put (fun _ => none) m line (some s.stp.pos) else m
    if ahead then { x with early := l, landNext := m } else { x with landed := l, land := m })

/-- The bundles of a pair carry HALF 1 and HALF 2 (R203); another HALF is not the input's. -/
def halfFits (s : State) (i half : Nat) (bundleB : Bool) : Bool :=
  decide (half ≤ 2) && (decide (inKind s i ≠ 2) || decide (half = if bundleB then 2 else 1))

/-- SKEW: the lines between the bundles of a pair, current and largest (R204). -/
def noteLineSkew (s : State) (i line : Nat) (bundleB : Bool) : State :=
  if inKind s i ≠ 2 then s
  else
    let x := inp s i
    let l := if bundleB then (x.lastLine.1, line) else (line, x.lastLine.2)
    let k := min 127 (max l.1 l.2 - min l.1 l.2)
    let t := setInp s i { x with lastLine := l }
    t.setN (Reg.inpSkew i) (k + max k (s.getF (Reg.inpSkew i) 14 8) * 0x100)

/-- The frame that a part of a CLP line lands for (R204): false the frame in progress, true the next, none another; a part before the
window of every frame is early. -/
def rasterFrame (s : State) (i line : Nat) : Option Bool × Bool :=
  match lineTiming s i line false, lineTiming s i line true with
  | .inTime, _ => (some false, false)
  | .early, _ => (none, true)
  | .late, .inTime => (some true, false)
  | .late, _ => (none, false)

/-- FRAME of the first landed part of the frame in progress or the next (R205). -/
def frameTag (s : State) (i : Nat) (ahead : Bool) : Option Nat := if ahead then (inp s i).tagNext else (inp s i).tag

/-- A raster packet (R199, R203 to R205). -/
def rasterPacket (s : State) (i : Nat) (word : Word) (payload : List (BitVec 8)) (bundleB : Bool) : State :=
  let half := fld word 15 14
  let tag := fld word 23 16
  let line := lineOfField s i (fld word 13 0) (word.getLsbD 24)
  if !(inReceives s i) || decide (inKind s i = 0 ∨ inKind s i = 3) || !(halfFits s i half bundleB) then s
  else match rasterFrame s i line with
    | (none, true) => s.inc32 (Reg.inpEarly i)
    | (none, false) => s
    | (some ahead, _) =>
      if inKind s i = 2 ∧ (frameTag s i ahead).getD tag ≠ tag then s
      else
        let t := modInp s i (fun x => if ahead then { x with tagNext := some (x.tagNext.getD tag) } else { x with tag := some (x.tag.getD tag) })
        let t := storePart t i ahead line half none (word.getLsbD 25) (rasterSamples (payload.map BitVec.toNat) (word.getLsbD 25))
        noteLineSkew (markLanded t i ahead line half) i line bundleB

def execRasterPacket (i : Fin 128) (word : BitVec 32) (payload : List (BitVec 8)) (bundleB : Bool) (s : State) : Out :=
  .next (rasterPacket s i word payload bundleB)

/-- An ancillary packet's record in the input's ring (R200, R455). -/
def ancRecord (s : State) (line : Nat) (words : List Nat) : List Nat :=
  let body := leBytes 4 s.frame.toNat ++ leBytes 2 line ++ leBytes 2 words.length ++ List.replicate 8 0 ++ pack10 words
  body ++ List.replicate ((16 - body.length % 16) % 16) 0

/-- Write bytes into a ring of 64 KiB from an offset on. -/
def ringWrite (r : Store (BitVec 8)) (base ofs : Nat) : List Nat → Store (BitVec 8)
  | [] => r
  | b :: l => ringWrite (Store.put (fun _ => 0) r (base + ofs % 65536) (BitVec.ofNat 8 b)) base (ofs + 1) l

def ancillaryPacket (s : State) (i line : Nat) (words : List Nat) : State :=
  if !(inReceives s i) then s
  else
    let x := inp s i
    let rec_ := ancRecord s line words
    let t := { s with ing := { s.ing with ring := ringWrite s.ing.ring (i * 65536) x.ringPtr rec_ } }
    setInp t i { x with ringPtr := (x.ringPtr + rec_.length) % 65536 }

def execAncillaryPacket (i : Fin 128) (line : BitVec 14) (words : List (BitVec 10)) (s : State) : Out :=
  .next (ancillaryPacket s i line.toNat (words.map BitVec.toNat))

/-- A format packet whose first six fields differ from the input's page (R202). -/
def formatMismatch (s : State) (i : Nat) (b : List Nat) : Bool :=
  let v (o n : Nat) : Nat := leVal ((b.drop o).take n)
  !(decide (v 0 2 = s.getF (Reg.inpGeom i) 13 0 ∧ v 2 2 = s.getF (Reg.inpGeom i) 29 16 ∧ v 4 2 = s.getF (Reg.inpTiming i) 13 0 ∧
    v 6 4 = s.getF (Reg.inpFps i) 19 0 ∧ v 10 2 = s.getF (Reg.inpFps i) 29 20) && (decide (v 12 1 % 2 = 1) == s.bit (Reg.inpTiming i) 16))

/-- A format packet (R202): a mismatch loses the input at the next channel frame start. -/
def formatPacket (s : State) (i : Nat) (b : List Nat) : State :=
  if !(inReceives s i) || !(formatMismatch s i b) then s
  else (modInp s i (fun x => { x with fmtLoss := true, clean := false })).evt (Pg.inp i) 3

def execFormatPacket (i : Fin 128) (payload : List (BitVec 8)) (s : State) : Out :=
  .next (formatPacket s i (payload.map BitVec.toNat))

/-! ### CLP packets (R198) -/

/-- Header, payload and CRC of a packet; `none` when LEN lies beyond the packet or the CRC is wrong. -/
def openPacket (b : List Nat) : Option (Nat × Nat × Word × List Nat) :=
  let len := leVal ((b.drop 2).take 2)
  if b.length < len + 12 then none
  else if leVal ((b.drop (8 + len)).take 4) = crc32 (b.take (8 + len)) then
    some (b.getD 0 0, b.getD 1 0 % 16, BitVec.ofNat 32 (leVal ((b.drop 4).take 4)), (b.drop 8).take len)
  else none

/-- ST 291 words of an ancillary payload: ten-bit words packed as in R116. -/
def ancWords (b : List Nat) : List Nat := unpack10 b

/-- Deliver one good packet to an input by its TYPE (Table 8-1); other TYPEs are discarded. Audio packets are delivered by
*Audio*'s operation, passed in. -/
def deliver (audio : State → Nat → Word → List Nat → State) (s : State) (n i type : Nat) (w : Word) (pl : List Nat) : State :=
  match type with
  | 1 => rasterPacket s i w (pl.map (BitVec.ofNat 8)) (decide (inKind s i = 2 ∧ inBundleB s i = n ∧ inBundleA s i ≠ n))
  | 2 => ancillaryPacket s i (fld w 13 0) (ancWords pl)
  | 3 => audio s i w ((chunks 4 pl.length pl).map leVal)
  | 4 => formatPacket s i pl
  | _ => s

/-- The packet in assembly ends with a control row: an EOP row has it checked (R198) and, when good, acted on; an ABT row drops it. A
packet that a bad row has ended was dropped there. A control row of another kind ends no packet. Packets
of CLP8 are the Stile's (R389), whose operation is passed in as well; 9M receives none. -/
def clpPacket (audio : State → Nat → Word → List Nat → State) (stile : State → Nat → Nat → List Nat → State) (s : State) (n : Nat) (x : Bool) (chars : List LaneGroup) : State :=
  let key := linkKey n x
  if !(s.enabled (Pg.clp n)) || decide (linkState s key < 2) || decide (key = 18) then s
  else
    let u := countLanes s key chars
    let bytes := (link s key).packet.map BitVec.toNat
    let ins := inputsFor s key (bytes.getD 1 0 % 16)
    let ended := setLink u key { link u key with packet := [], dead := false }
    if rowVote s key chars = (true, 0xFE) then
      if (link s key).dead || decide (bytes.length < 2) then ended else ins.foldl (fun t i => t.inc32 (Reg.inpAborts i)) ended
    else if rowVote s key chars = (true, 0xFD) then
      if (link s key).dead || decide (bytes.length < 2) then ended
      else match openPacket bytes with
        | none => ins.foldl (fun t i => t.inc32 (Reg.inpCrcErr i)) ended
        | some (type, st, w, pl) => if key = 16 then stile ended type st pl else ins.foldl (fun t i => deliver audio t n i type w pl) ended
    else u

/-! ### ST 2110-20 (R208, R210) -/

/-- A packet of `len` bytes against a meter (RFC 2698, colour blind): its buckets fill at CIR and PIR up to CBS and PBS; a packet beyond
the peak bucket is red, one beyond the committed bucket yellow. -/
def meterPacket (m : Meter) (cir cbs pir pbs now len : Nat) : Colour × Meter :=
  let c := min (cbs * 8000) (m.c + cir * (now - m.at_))
  let p := min (pbs * 8000) (m.p + pir * (now - m.at_))
  let n := len * 8000
  if p < n then (.red, ⟨c, p, now⟩)
  else if c < n then (.yellow, ⟨c, p - n, now⟩)
  else (.green, ⟨c - n, p - n, now⟩)

/-- The meter of a path takes a packet (R210). -/
def meter (s : State) (i : Nat) (pathB : Bool) (len : Nat) : Colour × State :=
  let x := inp s i
  let r := meterPacket (if pathB then x.meters.2 else x.meters.1) (s.reg (Reg.inpCir i)).toNat (s.reg (Reg.inpCbs i)).toNat
    (s.reg (Reg.inpPir i)).toNat (s.reg (Reg.inpPbs i)).toNat s.stp.timeNs len
  (r.1, setInp s i { x with meters := if pathB then (x.meters.1, r.2) else (r.2, x.meters.2) })

/-- Counters of a meter's drop: RED, YEL_DROP, FULL_DROP, with their event. -/
def meterDrop (s : State) (i : Nat) (pathB : Bool) (colour : Colour) (fifo : Nat) : Option State :=
  let p := if pathB then 1 else 0
  let full := 4 * 2 ^ 20
  match colour with
  | .red => some ((s.wrapAdd (Reg.inpRed i p) 1).evt (Pg.inp i) 4)
  | .yellow => if s.getF Reg.ingYelThresh 6 0 * full < fifo * 100 then some ((s.wrapAdd (Reg.inpYelDrop i p) 1).evt (Pg.inp i) 5) else none
  | .green => if full ≤ fifo then some ((s.wrapAdd (Reg.inpFullDrop i p) 1).evt (Pg.inp i) 6) else none

/-- A path delivers a packet: it is up (R210, Table 17-4). -/
def pathUp (s : State) (i : Nat) (pathB : Bool) : State :=
  let x := inp s i
  let t := setInp s i { x with arrived := if pathB then (x.arrived.1, true) else (true, x.arrived.2)
                               down := if pathB then (x.down.1, false) else (false, x.down.2) }
  let y := inp t i
  let t := if y.down.1 || y.down.2 then t else t.unitDegraded (Pg.inp i) false
  if inDown x pathB then settlePaths t else t

/-- Sequence numbers between the highest seen and a later one, at most 4,096. -/
def gapList (hi seq : BitVec 32) : List (BitVec 32) :=
  (List.range (min 4096 ((seq - hi).toNat - 1))).map (fun k => hi + 1 + BitVec.ofNat 32 k)

/-- The first copy of a sequence number is used (ST 2022-7); PATH_DIFF shows the arrival of path B less that of path A. -/
def mergeSeq (s : State) (i : Nat) (pathB : Bool) (seq : BitVec 32) : State × Bool :=
  let x := inp s i
  match x.seen.find? (fun e => decide (e.1 = seq)) with
  | some (_, b, at_) =>
    let d : Int := (s.stp.timeNs : Int) - at_
    let us := tdiv (if pathB then d else -d) 1000
    (if b = pathB then s else s.setN (Reg.inpPathDiff i) (satInt 32 us), false)
  | none =>
    let gaps := match x.seen with
      | [] => []
      | e :: _ => if 0 < (seq - e.1).toInt then x.gaps ++ gapList e.1 seq else x.gaps.filter (fun g => decide (g ≠ seq))
    let seen := match x.seen with
      | e :: l => if 0 < (seq - e.1).toInt then (seq, pathB, s.stp.timeNs) :: x.seen else e :: (seq, pathB, s.stp.timeNs) :: l
      | [] => [(seq, pathB, s.stp.timeNs)]
    (setInp s i { x with seen := seen.take 65536, gaps := gaps }, true)

/-- Ticks of 90 kHz by which an RTP timestamp with TS_OFFSET lies after the start of the input's frame in progress, in PTP time
under R209. -/
def rtpAfter (s : State) (i : Nat) (f rtp : BitVec 32) : Int :=
  let start : Int := (s.frameTime f 65536000000000 : Nat) + s.ptp.diff
  (rtp + s.reg (Reg.inpTsOffset i) - BitVec.ofInt 32 (start * 9 / 6553600000)).toInt

/-- The frame that a packet belongs to (R208), within half a frame period of its start: false the frame in progress, true the next,
none another. -/
def frameFor (s : State) (i : Nat) (rtp : BitVec 32) : Option Bool :=
  match (inp s i).startAt with
  | none => some false
  | some f =>
    let (n, d) := s.framePeriod
    let half : Int := (inputDiv s i * n * 90000 : Nat)
    let x := 2 * (d : Int) * rtpAfter s i f rtp
    if x.natAbs ≤ half.natAbs then some false
    else if (x - 2 * half).natAbs ≤ half.natAbs then some true
    else none

/-- A segment lands (R208): its samples are stored and counted, and once the line has all of them it has landed. -/
def landSeg (s : State) (i : Nat) (ahead : Bool) (g : SrdSeg) : State :=
  let line := lineOfField s i g.line g.second
  let t := storePart s i ahead line 0 (some (2 * g.offset)) (s.bit (Reg.inpTiming i) 17) (g.samples.map BitVec.toNat)
  let x := inp t i
  let have_ := Store.get (fun _ => 0) (if ahead then x.coverNext else x.cover) line + g.samples.length
  let t := setInp t i (if ahead then { x with coverNext := Store.put (fun _ => 0) x.coverNext line have_ }
    else { x with cover := Store.put (fun _ => 0) x.cover line have_ })
  if 2 * s.getF (Reg.inpGeom i) 13 0 ≤ have_ then markLanded t i ahead line 0 else t

/-- Timing of a segment. -/
def segTiming (s : State) (i : Nat) (ahead : Bool) (g : SrdSeg) : Timing := lineTiming s i (lineOfField s i g.line g.second) ahead

/-- A copy that has passed its meter (R208): early copies are counted; of the others the first is used, with its segments in time. -/
def landCopy (s : State) (i : Nat) (pathB : Bool) (seq rtp : BitVec 32) (segs : List SrdSeg) : State :=
  match frameFor s i rtp with
  | some ahead =>
    if segs.any (fun g => decide (segTiming s i ahead g = .early)) then s.inc32 (Reg.inpEarly i)
    else
      let (u, first) := mergeSeq s i pathB seq
      if first then (segs.filter (fun g => decide (segTiming s i ahead g = .inTime))).foldl (fun t g => landSeg t i ahead g) u else u
  | none => (mergeSeq s i pathB seq).1

/-- An ST 2110-20 packet (R208, R210). -/
def st2110Packet (s : State) (i : Nat) (pathB : Bool) (seq rtp : BitVec 32) (segs : List SrdSeg) (len fifo : Nat) : State :=
  if !(inReceives s i) || decide (inKind s i ≠ 3) || !(inPath s i pathB) then s
  else
    let (colour, t) := meter (pathUp s i pathB) i pathB len
    match meterDrop t i pathB colour fifo with
    | some u => u
    | none => landCopy t i pathB seq rtp segs

def execSt2110Packet (i : Fin 128) (pathB : Bool) (seq rtp : BitVec 32) (segs : List SrdSeg) (len fifo : Nat) (s : State) : Out :=
  .next (st2110Packet s i pathB seq rtp segs len fifo)

/-- A path that has delivered no packet in a channel frame is down (R210). -/
def ingestPathDown (s : State) (i : Nat) (pathB : Bool) : State :=
  let x := inp s i
  if decide (inSt s i = 0 ∨ inKind s i ≠ 3) || !(inPath s i pathB) || inDown x pathB || (if pathB then x.arrived.2 else x.arrived.1) then s
  else
    let t := setInp s i { x with down := if pathB then (x.down.1, true) else (true, x.down.2) }
    (t.evt (Pg.inp i) 7).raise 0x4005 (Pg.inp i) i (if pathB then 1 else 0)

def execIngestPathDown (i : Fin 128) (pathB : Bool) (s : State) : Out := .next (ingestPathDown s i pathB)

/-! ### Missing lines, loss and return (R211 to R214) -/

/-- Sequence numbers still missing when a line's deadline passes are counted (R210). -/
def countSeqLost (s : State) (i : Nat) : State :=
  if inKind s i = 3 then
    (modInp s i (fun x => { x with gaps := [] })).wrapAdd (Reg.inpSeqLost i) (inp s i).gaps.length
  else s

/-- The active channel line before an active line of an input, round the frame (R212). -/
def lineBefore (s : State) (i l : Nat) : Nat :=
  let h := s.getF (Reg.inpGeom i) 29 16
  let b := s.getF (Reg.inpTiming i) 13 0 / 2
  if s.bit (Reg.inpTiming i) 16 then if l = 0 then b + h / 2 - 1 else if l = b then h / 2 - 1 else l - 1
  else if l = 0 then h - 1 else l - 1

/-- A HALF that the input's lines have (R203): 1 and 2 of a pair, the whole line of another input. -/
def isPart (s : State) (i half : Nat) : Bool := if inKind s i = 2 then decide (half = 1 ∨ half = 2) else decide (half = 0)

/-- A line part has not landed by the start of the next channel line, which is reached (R211): the part of the frame before is used. -/
def lineMissing (s : State) (i line half : Nat) : State :=
  let x := inp s i
  if !s.running || decide (inSt s i = 0) || (activeLines s i line).isNone || !(isPart s i half) || x.landed.contains (line * 3 + half) ||
    x.missed.contains (line * 3 + half) then s
  else
    let s := match x.startAt with | some f => s.toPos (inLinePos s i f (line + 1)) | none => s
    let t := repeatRead s i line half
    let run := if x.missLine = some line then x.missRun else if x.missLine = some (lineBefore s i line) then x.missRun + 1 else 1
    -- the compositor and the Gleaner take the repeat as landed (R92, R149)
    let t := modInp t i (fun y => { y with
      land := if (Store.get (fun _ => none) y.land line).isNone then Store.put (fun _ => none) y.land line (some s.stp.pos) else y.land
      missed := (line * 3 + half) :: y.missed, missRun := run, missLine := some line, clean := false })
    countSeqLost ((t.inc32 (Reg.inpRepeats i)).evt (Pg.inp i) 2) i

def execLineMissing (i : Fin 128) (line : Nat) (half : Fin 3) (s : State) : Out := .next (lineMissing s i line half)

/-- A bundle that carries the input is DOWN or disabled. -/
def inBundleDown (s : State) (i : Nat) : Bool :=
  (inLinks s i).any (fun k => !(s.enabled (Pg.clp (k / 2))) || decide (linkState s k = 0))

/-- The input becomes LOST (R212): each cause stands only while its condition does. -/
def inputLost (s : State) (i : Nat) (cause : LossCause) : State :=
  match cause with
  | .format => if s.running && (inp s i).fmtLoss && decide (inSt s i ≠ 0) then declareLost s.toFrameStart i 2 else s
  | .noPtp => if decide (inKind s i = 3) && !(ptpLock s i) then declareLost s i 5 else s
  | _ =>
    if s.getF (Reg.inpLoss i) 29 16 ≤ (inp s i).missRun then
      -- reached on the last active line, the loss is from the next frame start (Table 8-5)
      let t := match (inp s i).missLine, (inp s i).startAt with
        | some l, some f => if s.running && lastActive s i l then s.toPos (State.posOf (f + BitVec.ofNat 32 (inputDiv s i)) 0) else s
        | _, _ => s
      declareLost t i (if inBundleDown s i then 1 else 3)
    else s

def execInputLost (i : Fin 128) (cause : LossCause) (s : State) : Out := .next (inputLost s i cause)

/-- FREEZE_FRAMES have passed (R212): the picture follows LOSS.MODE at this frame start. The reserved MODE 3 keeps the freeze. -/
def freezeExpired (s : State) (i : Nat) : State :=
  if !s.running || decide (inSt s i ≠ 3) then s
  else
    let n := s.getF (Reg.inpLoss i) 15 8 * inputDiv s i
    let t := (s.toFrameStart).toPos (State.posOf ((inp s i).lostAt + 1 + BitVec.ofNat 32 n) 0)
    let m := s.getF (Reg.inpLoss i) 1 0
    setInState t i 3 (if m = 1 then 2 else if m = 2 then 3 else 1) (inCause s i)

def execFreezeExpired (i : Fin 128) (s : State) : Out := .next (freezeExpired s i)

/-- A running channel uses the input. -/
def inUse (s : State) (i : Nat) : Bool := (channelsOf s i).any (fun n => (s.chan n).running)

/-- One whole clean frame has landed: live lines resume at this frame start (R214); a waiting input becomes OK. -/
def inputReturned (s : State) (i : Nat) : State :=
  let t := s.toFrameStart
  let x := inp t i
  let clean := if inUse t i then (if x.startAt = some t.frame then x.wasClean else x.clean) else true
  if s.running && decide (inSt s i = 1 ∨ inSt s i = 3) && clean && mayReturn s i then
    let u := setInp (setInState t i 2 0 0) i { x with fmtLoss := false, missRun := 0, missLine := none }
    if inSt s i = 3 then u.evt (Pg.inp i) 1 else u
  else s

def execInputReturned (i : Fin 128) (s : State) : Out := .next (inputReturned s i)

/-! ### The input's page (R213, R215, R216) -/

/-- L of R208 in µs. -/
def pdLimit (s : State) (i : Nat) : Nat :=
  let num := s.getF (Reg.inpFps i) 19 0
  let den := s.getF (Reg.inpFps i) 29 20
  let lines := s.getF (Reg.inpTiming i) 13 0
  if num = 0 ∨ lines = 0 then 16000 else min 16000 (den * 1000000 * (lines - 64) / (num * lines))

/-- A bundle that an input may name: enabled, 0 to 7 or 9. -/
def bundleOk (s : State) (b : Nat) : Bool := decide (b ≤ 7 ∨ b = 9) && s.enabled (Pg.clp b)

/-- The input check (R215); the word of the first offending register. -/
def inputCheck (s : State) (i : Nat) : Option Refusing :=
  let k := inKind s i
  let w := s.getF (Reg.inpGeom i) 13 0
  let h := s.getF (Reg.inpGeom i) 29 16
  let lines := s.getF (Reg.inpTiming i) 13 0
  let c := 0x010C
  firstFail [
    need (decide (1 ≤ k)) c (wordOf (Reg.inpSrc i)) 0,
    need ((decide (k = 3) || bundleOk s (inBundleA s i)) && (decide (k ≠ 2) || bundleOk s (inBundleB s i))) c (wordOf (Reg.inpSrc i)) 0,
    need (sizeOk w h) c (wordOf (Reg.inpGeom i)) 0,
    need (decide (h + 9 ≤ lines ∧ lines ≤ 16383)) c (wordOf (Reg.inpTiming i)) 0,
    need (decide (s.getF (Reg.inpPdMax i) 13 0 ≤ pdLimit s i)) c (wordOf (Reg.inpPdMax i)) 0,
    need (decide (k ≠ 3) || decide ((s.reg (Reg.inpCir i)).toNat ≤ (s.reg (Reg.inpPir i)).toNat)) c (wordOf (Reg.inpCir i)) 0,
    need (decide (k ≠ 3) || decide (9000 ≤ (s.reg (Reg.inpCbs i)).toNat)) c (wordOf (Reg.inpCbs i)) 0,
    need (decide (k ≠ 3) || decide (9000 ≤ (s.reg (Reg.inpPbs i)).toNat)) c (wordOf (Reg.inpPbs i)) 0,
    need ((inLinks s i).all (fun key => linkFits s key ((loadedOn s key).filter (fun j => decide (j ≠ i)) ++ [i]))) 0x0204 1 0]

/-- A meter with full buckets, as RFC 2698 starts it. -/
def fullMeter (s : State) (i : Nat) : Meter := ⟨(s.reg (Reg.inpCbs i)).toNat * 8000, (s.reg (Reg.inpPbs i)).toNat * 8000, s.stp.timeNs⟩

/-- ENABLE 0→1 on an INi page. -/
def inputEnable (s : State) (i : Nat) : State :=
  if !(s.answers (Pg.inp i)) || s.enabled (Pg.inp i) then s
  else match inputCheck s i with
    | some r => s.failCheck (Pg.inp i) r.code r.word r.page
    | none =>
      let pd := s.getF (Reg.inpPdMax i) 13 0
      let t := setInState (s.activate (Pg.inp i)) i 1 0 0
      setInp (t.setF (Reg.inpPdMax i) 29 16 (if pd = 0 then pdLimit s i else pd)) i
        { Inp.init with ringPtr := (inp s i).ringPtr, meters := (fullMeter s i, fullMeter s i) }

def execInputEnable (i : Fin 128) (s : State) : Out := .next (inputEnable s i)

/-- ENABLE 1→0 on an INi page: OFF. -/
def inputDisable (s : State) (i : Nat) : State :=
  settlePaths (setInp ((setInState (s.deactivate (Pg.inp i)) i 0 0 0).unitDegraded (Pg.inp i) false) i
    { Inp.init with ringPtr := (inp s i).ringPtr })

/-- INi.STAT_CLR clears the counters from 0x08C to 0x0BC, but for itself. -/
def inStatClr (s : State) (i : Nat) : State :=
  if s.answers (Pg.inp i) then
    s.clearRegs ([Reg.inpRepeats i, Reg.inpCrcErr i, Reg.inpAborts i, Reg.inpEarly i, Reg.inpSeqLost i] ++
      [0, 1].flatMap (fun p => [Reg.inpRed i p, Reg.inpYelDrop i p, Reg.inpFullDrop i p]))
  else s

def execInStatClr (i : Fin 128) (s : State) : Out := .next (inStatClr s i)

/-! ### The ING window (R454, R455) -/

/-- Words of a chunk of an ancillary ring. -/
def ringChunk (s : State) (idx : Nat) : List Word :=
  (List.range 8).map (fun k => BitVec.ofNat 32 (leVal ((List.range 4).map (fun b =>
    (Store.get (fun _ => (0 : BitVec 8)) s.ing.ring (idx / 2048 * 65536 + idx % 2048 * 32 + 4 * k + b)).toNat))))

/-- Receive-flow entry. -/
def rxFlow (s : State) (k : Nat) : List Word := Store.get (fun _ => words8) s.ing.flows k

/-- A GO with WRITE clear. -/
def ingTableRead (s : State) : State :=
  if !(s.answers Pg.ing) || s.bit Reg.ingTblAddr 28 then s
  else
    let idx := s.getF Reg.ingTblAddr 17 0
    match s.getF Reg.ingTblAddr 25 24 with
    | 0 => if idx < 512 then (s.putData (Reg.ingTblData 0) 8 (rxFlow s idx)).tblDone Reg.ingTblStat else s.tblRefuse Reg.ingTblStat
    | 1 => (s.putData (Reg.ingTblData 0) 8 (ringChunk s idx)).tblDone Reg.ingTblStat
    | 2 => if idx < 128 then (s.putData (Reg.ingTblData 0) 8 [BitVec.ofNat 32 (inp s idx).ringPtr]).tblDone Reg.ingTblStat
           else s.tblRefuse Reg.ingTblStat
    | _ => s.tblRefuse Reg.ingTblStat

def execIngTableRead (s : State) : Out := .next (ingTableRead s)

/-- A GO with WRITE set: a receive flow; the ring tables are read only. -/
def ingTableWrite (s : State) : State :=
  if !(s.answers Pg.ing) || !(s.bit Reg.ingTblAddr 28) then s
  else
    let idx := s.getF Reg.ingTblAddr 17 0
    if s.getF Reg.ingTblAddr 25 24 = 0 ∧ idx < 512 then
      let l := s.getData (Reg.ingTblData 0) 8
      let e : List Word := [l.getD 0 0 &&& 3, l.getD 1 0, l.getD 2 0, l.getD 3 0, l.getD 4 0, l.getD 5 0 &&& 0xFFFF, 0, 0]
      ({ s with ing := { s.ing with flows := Store.put (fun _ => words8) s.ing.flows idx e } } : State).tblDone Reg.ingTblStat
    else s.tblRefuse Reg.ingTblStat

def execIngTableWrite (s : State) : Out := .next (ingTableWrite s)

end Sys2Proof.Machine
end

