-- ==== Sys2Proof/Machine/Wire.lean ====
section
/-! DEFINITION. The bytes of a copy on a port (R218, R219, R225) and the transport stream of format 2 (R221). The formats are those of the
RFCs and standards that the rules name and do not print (PRESUMED, notes/assumptions/49.md). -/

namespace Sys2Proof.Machine

/-- Big-endian bytes of a number. -/
def beBytes (n v : Nat) : List Nat := (leBytes n v).reverse

/-! ### Ethernet, IP, UDP and RTP -/

/-- What the header of a copy is made of: addresses as bytes in the order of the wire, MAC addresses as numbers. -/
structure WireHead where
  srcMac : Nat
  dstMac : Nat
  mcast  : Bool
  /-- PCP and VID of an 802.1Q tag. -/
  tag    : Option (Nat × Nat)
  v6     : Bool
  dscp   : Nat
  ttl    : Nat
  src    : List Nat
  dst    : List Nat
  udpSrc : Nat
  udpDst : Nat
  deriving DecidableEq, Repr

/-- RTP header fields of a copy. -/
structure RtpHead where
  marker : Bool
  pt     : Nat
  seq    : Nat
  ts     : Nat
  ssrc   : Nat
  deriving DecidableEq, Repr

/-- Sum of the 16-bit words of a byte string, with end-around carry. -/
def onesSum (l : List Nat) : Nat :=
  let fold (v : Nat) : Nat := v % 65536 + v / 65536
  fold (fold (sumN ((chunks 2 l.length (if l.length % 2 = 1 then l ++ [0] else l)).map (fun c => c.getD 0 0 * 256 + c.getD 1 0))))

/-- The Internet checksum. -/
def inetSum (l : List Nat) : Nat := 65535 - onesSum l

/-- Destination MAC: the entry's, or for a multicast destination the one of RFC 1112 or RFC 2464 (R225). -/
def macBytes (h : WireHead) : List Nat :=
  if h.mcast then
    if h.v6 then [0x33, 0x33] ++ h.dst.drop 12
    else [0x01, 0x00, 0x5E, h.dst.getD 1 0 % 128, h.dst.getD 2 0, h.dst.getD 3 0]
  else beBytes 6 h.dstMac

/-- RTP header and payload (R218, R219). -/
def rtpBytes (r : RtpHead) (payload : List Nat) : List Nat :=
  [0x80, (if r.marker then 128 else 0) + r.pt % 128] ++ beBytes 2 r.seq ++ beBytes 4 r.ts ++ beBytes 4 r.ssrc ++ payload

/-- UDP datagram; the checksum is computed for both IP versions, and one that comes to 0 is sent as all ones (R225). -/
def udpBytes (h : WireHead) (data : List Nat) : List Nat :=
  let n := 8 + data.length
  let pseudo := h.src ++ h.dst ++ (if h.v6 then beBytes 4 n ++ [0, 0, 0, 17] else [0, 17] ++ beBytes 2 n)
  let ports := beBytes 2 h.udpSrc ++ beBytes 2 h.udpDst ++ beBytes 2 n
  let c := inetSum (pseudo ++ ports ++ [0, 0] ++ data)
  ports ++ beBytes 2 (if c = 0 then 65535 else c) ++ data

/-- IP packet: IPv4 with DF set and identification 0 (R225), or IPv6. -/
def ipBytes (h : WireHead) (data : List Nat) : List Nat :=
  if h.v6 then
    [0x60 + h.dscp / 4, h.dscp % 4 * 64, 0, 0] ++ beBytes 2 data.length ++ [17, h.ttl] ++ h.src ++ h.dst ++ data
  else
    let head (c : Nat) : List Nat :=
      [0x45, h.dscp * 4] ++ beBytes 2 (20 + data.length) ++ [0, 0, 0x40, 0, h.ttl, 17] ++ beBytes 2 c ++ h.src ++ h.dst
    head (inetSum (head 0)) ++ data

/-- A UDP frame from its destination MAC address through its FCS. -/
def datagramBytes (h : WireHead) (data : List Nat) : List Nat :=
  let tag := match h.tag with | some (pcp, vid) => [0x81, 0x00] ++ beBytes 2 (pcp * 8192 + vid) | none => []
  let body := macBytes h ++ beBytes 6 h.srcMac ++ tag ++ (if h.v6 then [0x86, 0xDD] else [0x08, 0x00]) ++ ipBytes h (udpBytes h data)
  body ++ leBytes 4 (crc32 body)

/-- The frame of an RTP packet. -/
def frameBytes (h : WireHead) (r : RtpHead) (payload : List Nat) : List Nat := datagramBytes h (rtpBytes r payload)

/-! ### Received frames (R246, R253) -/

def byteAt (b : List Nat) (i : Nat) : Nat := b.getD i 0
def be16At (b : List Nat) (i : Nat) : Nat := byteAt b i * 256 + byteAt b (i + 1)
def bytesAt (b : List Nat) (i n : Nat) : List Nat := (b.drop i).take n
def putBytes (b : List Nat) (i : Nat) (l : List Nat) : List Nat := b.take i ++ l ++ b.drop (i + l.length)
/-- A big-endian number. -/
def natOf (l : List Nat) : Nat := l.foldl (fun a x => a * 256 + x) 0

/-- What a port reads of a frame: EtherType, IP version, protocol (0 without IP), addresses in the order of the wire, the offset of what
follows the IP header, and the UDP destination port. -/
structure RxHead where
  etype : Nat
  v6    : Bool
  proto : Nat
  src   : List Nat
  dst   : List Nat
  l4    : Nat
  dport : Nat
  deriving DecidableEq, Repr

/-- The headers of a frame, with or without an 802.1Q tag; IPv6 extension headers are not followed. -/
def rxHead (b : List Nat) : RxHead :=
  let o := if be16At b 12 = 0x8100 then 18 else 14
  let t := be16At b (o - 2)
  let v6 := decide (t = 0x86DD)
  let l4 := if v6 then o + 40 else o + byteAt b o % 16 * 4
  { etype := t, v6 := v6, proto := if v6 then byteAt b (o + 6) else if t = 0x0800 then byteAt b (o + 9) else 0
    src := if v6 then bytesAt b (o + 8) 16 else bytesAt b (o + 12) 4, dst := if v6 then bytesAt b (o + 24) 16 else bytesAt b (o + 16) 4
    l4 := l4, dport := be16At b (l4 + 2) }

/-- The frame check sequence is right. -/
def fcsOk (b : List Nat) : Bool :=
  decide (4 ≤ b.length ∧ b.drop (b.length - 4) = leBytes 4 (crc32 (b.take (b.length - 4))))

/-- A PTP message over UDP (R248): ports 319 and 320. -/
def isPtp (h : RxHead) : Bool := decide (h.proto = 17 ∧ (h.dport = 319 ∨ h.dport = 320))

/-- messageType and domainNumber of a frame's PTP message. -/
def ptpType (b : List Nat) : Nat := byteAt b ((rxHead b).l4 + 8) % 16
def ptpDomainOf (b : List Nat) : Nat := byteAt b ((rxHead b).l4 + 12)

/-- Sync and Delay_Req, the event messages that are forwarded. -/
def isEvent (b : List Nat) : Bool := isPtp (rxHead b) && decide (ptpType b ≤ 1)

/-- The residence time goes into correctionField, then the UDP checksum is updated, the FCS last (R251, R253). -/
def addResidence (b : List Nat) (d : Int) : List Nat :=
  let h := rxHead b
  let o := h.l4 + 16
  let v := ((natOf (bytesAt b o 8) : Int) + d) % 2 ^ 64
  let b := putBytes (putBytes b o (beBytes 8 v.toNat)) (h.l4 + 6) [0, 0]
  let n := be16At b (h.l4 + 4)
  let pseudo := h.src ++ h.dst ++ (if h.v6 then beBytes 4 n ++ [0, 0, 0, 17] else [0, 17] ++ beBytes 2 n)
  let c := inetSum (pseudo ++ bytesAt b h.l4 n)
  let b := putBytes b (h.l4 + 6) (beBytes 2 (if c = 0 then 65535 else c))
  let body := b.take (b.length - 4)
  body ++ leBytes 4 (crc32 body)

/-! ### PTP messages (R248, R251) -/

/-- What a PTP message that the device sends holds beside its body; the correction is in 2^-16 ns. -/
structure PtpMsg where
  type       : Nat
  domain     : Nat
  seq        : BitVec 16
  correction : Int
  flags      : Nat
  /-- Clock identity and port number. -/
  clock      : Nat
  port       : Nat
  control    : Nat
  log        : Int
  deriving DecidableEq, Repr

/-- A 48-bit count of seconds and a 32-bit count of ns. -/
def ptpStamp (ns : Nat) : List Nat := beBytes 6 (ns / 1000000000) ++ beBytes 4 (ns % 1000000000)

/-- The message: header, then body. -/
def ptpBytes (m : PtpMsg) (body : List Nat) : List Nat :=
  [m.type, 0x12] ++ beBytes 2 (34 + body.length) ++ [m.domain, 0] ++ beBytes 2 m.flags ++ beBytes 8 (m.correction % 2 ^ 64).toNat ++
    [0, 0, 0, 0] ++ beBytes 8 m.clock ++ beBytes 2 m.port ++ beBytes 2 m.seq.toNat ++ [m.control, (m.log % 256).toNat] ++ body

/-! ### The transport stream (R221) -/

/-- The six bytes of a PCR: 90 kHz part, then 27 MHz part. -/
def pcrBytes (p : Nat × Nat) : List Nat := beBytes 6 (p.1 % 2 ^ 33 * 2 ^ 15 + 63 * 512 + p.2 % 300)

/-- A TS packet: PID, payload unit start, continuity counter, PCR, payload; stuffing fills a short payload. -/
def tsPacket (pid : Nat) (start : Bool) (cc : Nat) (pcr : Option (Nat × Nat)) (data : List Nat) : List Nat :=
  let field := (match pcr with | some p => 0x10 :: pcrBytes p | none => [])
  let n := 184 - data.length
  let adapt := if n = 0 then [] else if n = 1 then [0] else
    let f := if field.isEmpty then [0] else field
    (n - 1) :: f ++ List.replicate (n - 1 - f.length) 0xFF
  [0x47, (if start then 64 else 0) + pid / 256 % 32, pid % 256, (if n = 0 then 0x10 else 0x30) + cc % 16] ++ adapt ++ data

/-- A time stamp of a PES header. -/
def stampBytes (mark v : Nat) : List Nat :=
  [mark * 16 + v / 2 ^ 30 % 8 * 2 + 1, v / 2 ^ 22 % 256, v / 2 ^ 15 % 128 * 2 + 1, v / 2 ^ 7 % 256, v % 128 * 2 + 1]

/-- The PES header of a video access unit, with a DTS where the two differ. -/
def pesHead (pts dts : Nat) : List Nat :=
  let two := decide (pts ≠ dts)
  [0, 0, 1, 0xE0, 0, 0, 0x80, if two then 0xC0 else 0x80, if two then 10 else 5] ++
    (if two then stampBytes 3 pts ++ stampBytes 1 dts else stampBytes 2 pts)

/-- The PES header of `n` bytes of ST 302M: private_stream_1, with a PTS (R274). -/
def audioPesHead (pts n : Nat) : List Nat := [0, 0, 1, 0xBD, (n + 8) / 256 % 256, (n + 8) % 256, 0x84, 0x80, 5] ++ stampBytes 2 pts

/-- Video packets of one payload unit, `n` at most, the first with the PCR: packets, the next continuity counter, what is left. -/
def videoPackets (pid : Nat) (pcr : Option (Nat × Nat)) (start : Bool) : Nat → Nat → List Nat → List (List Nat) × Nat × List Nat
  | 0, cc, l => ([], cc, l)
  | n + 1, cc, l =>
    if l.isEmpty then ([], cc, l)
    else
      let room := if pcr.isSome then 176 else 184
      let r := videoPackets pid none false n (cc + 1) (l.drop room)
      (tsPacket pid start cc pcr (l.take room) :: r.1, r.2)

/-- Payload units of a unit in format 2: seven TS packets each but the last (Table 9-1), the packets of `lead` in front of the first; of
each its bytes and the bytes of the unit in it. The PCR of a payload unit is that of its release. Fuel: one payload unit at a time. -/
def tsPayloads (pid : Nat) (pcr : Nat → Nat × Nat) (start : Bool) : Nat → Nat → Nat → List (List Nat) → List Nat → List (List Nat × Nat) × Nat
  | 0, cc, _, _, _ => ([], cc)
  | f + 1, cc, used, lead, l =>
    if l.isEmpty then ([], cc)
    else
      let v := videoPackets pid (some (pcr used)) start (7 - lead.length) cc l
      let took := l.length - v.2.2.length
      let r := tsPayloads pid pcr false f v.2.1 (used + took) [] v.2.2
      (((lead ++ v.1).flatten, took) :: r.1, r.2)

end Sys2Proof.Machine
end

