-- ==== Sys2Proof/Machine/Egress.lean ====
section
/-! DEFINITION. The egress traffic manager (09_egress_traffic_manager.md): flows, admission, release, the hierarchy, the
calendar, host rings and the indirect window. -/

namespace Sys2Proof.Machine

open State

/-! ### Contexts and entries (Tables 9-2 and 9-5, R225) -/

def flowCtx (s : State) (f : Nat) : List Word := Store.get (fun _ => words16) s.etm.flows f
def setFlowCtx (s : State) (f : Nat) (l : List Word) : State :=
  { s with etm := { s.etm with flows := Store.put (fun _ => words16) s.etm.flows f l } }
def flowW (l : List Word) (i : Nat) : Word := l.getD i 0
def flowEn (l : List Word) : Bool := (flowW l 8).getLsbD 27
def flowRend (l : List Word) : Nat := fld (flowW l 11) 31 23
/-- PATHS selects path A or B. -/
def flowPath (l : List Word) (pathB : Bool) : Bool := (flowW l 8).getLsbD (if pathB then 25 else 24)
def flowNode (l : List Word) (pathB : Bool) : Nat := if pathB then fld (flowW l 12) 23 12 else fld (flowW l 12) 11 0
def flowHop (l : List Word) (pathB : Bool) : Nat := if pathB then fld (flowW l 8) 23 12 else fld (flowW l 8) 11 0
def flowWeight (l : List Word) : Nat := fld (flowW l 12) 31 24

def nodeEntry (s : State) (i : Nat) : List Word := Store.get (fun _ => nodeInit) s.etm.nodes i
def setNodeEntry (s : State) (i : Nat) (l : List Word) : State :=
  { s with etm := { s.etm with nodes := Store.put (fun _ => nodeInit) s.etm.nodes i l } }
def setNodeWord (s : State) (i k : Nat) (w : Word) : State := setNodeEntry s i ((nodeEntry s i).set k w)
def nodeEn (s : State) (i : Nat) : Bool := (nodeWord s i 0).getLsbD 31
def nodePort (s : State) (i : Nat) : Nat := fld (nodeWord s i 0) 3 0
def nodeOpen (s : State) (i : Nat) : Bool := (nodeWord s i 0).getLsbD 8
def nodeWeight (s : State) (i : Nat) : Nat := fld (nodeWord s i 0) 23 16
/-- IDLE_SLOPE in kbit/s. -/
def nodeSlope (s : State) (i : Nat) : Nat := (nodeWord s i 1).toNat
/-- CREDIT in 1/64 byte. -/
def nodeCredit (s : State) (i : Nat) : Int := (nodeWord s i 4).toInt

/-- A next-hop entry. The spec lists its fields without places (notes/assumptions/22.md): word 0 MAC [31:0]; word 1 [15:0] MAC
[47:32], [16] MCAST, [17] tag present, [20:18] PCP, [31] EN; word 2 [11:0] VID, [17:12] DSCP, [25:18] TTL. -/
def hopEntry (s : State) (i : Nat) : List Word := Store.get (fun _ => words8) s.etm.hops i
def hopTagged (s : State) (i : Nat) : Bool := ((hopEntry s i).getD 1 0).getLsbD 17
def hopEn (s : State) (i : Nat) : Bool := ((hopEntry s i).getD 1 0).getLsbD 31

/-- Header bytes of a flow's copy (R236): Ethernet with FCS, an 802.1Q tag, IP, UDP and RTP. -/
def headerBytes (s : State) (v6 : Bool) (hop : Nat) : Nat := 18 + (if hopTagged s hop then 4 else 0) + (if v6 then 40 else 20) + 20
def flowHeader (s : State) (l : List Word) (pathB : Bool) : Nat := headerBytes s ((flowW l 8).getLsbD 26) (flowHop l pathB)

/-- Enabled flows as pairs of index and context. -/
def enabledFlows (s : State) : List (Nat × List Word) := s.etm.flows.filter (fun e => flowEn e.2)
def flowsOf (s : State) (rend : Nat) : List (Nat × List Word) := (enabledFlows s).filter (fun e => decide (flowRend e.2 = rend))

/-- The flow has a copy under a PACED node (R227). -/
def flowPaced (s : State) (l : List Word) : Bool :=
  [false, true].any (fun b => flowPath l b && nodeEn s (flowNode l b) && !(nodeOpen s (flowNode l b)))

/-- The lead flow of a rendition (R227). -/
def leadOf (s : State) (rend : Nat) : Option Nat :=
  ((minBy (fun a b => decide (a < b)) (((flowsOf s rend).filter (fun e => flowPaced s e.2)).map (fun e => e.1))))

/-- LEAD, FLOWS and FLOWS_EN of a rendition. -/
def showFlows (s : State) (rend : Nat) : State :=
  let n := rend / 4
  let r := rend % 4
  let t := s.setN (Reg.erendLead n r) (match leadOf s rend with | some f => f + 0x80000000 | none => 0)
  let t := t.setN (Reg.erendFlows n r) (flowsOf s rend).length
  t.setN Reg.etmFlowsEn (enabledFlows s).length

/-! ### Ports (R229, R243) -/

/-- ETHx page and sub-port of an ETM port. -/
def portEth (p : Nat) : Nat × Nat := if p = 8 then (2, 0) else if p = 9 then (3, 0) else (p / 4, p % 4)
/-- Path of a port. -/
def portPathB (p : Nat) : Bool := decide (4 ≤ p ∧ p ≤ 7 ∨ p = 9)
/-- The port exists in its page's configuration, with its page enabled. -/
def portPresent (s : State) (p : Nat) : Bool := s.enabled (Pg.eth (portEth p).1) && decide ((portEth p).2 < subPorts s (portEth p).1)
/-- The port's link is up. -/
def portUp (s : State) (p : Nat) : Bool := portPresent s p && s.bit (Reg.ethLink (portEth p).1) (portEth p).2
/-- Port rate in Mbit/s. -/
def portRate (s : State) (p : Nat) : Nat :=
  if 8 ≤ p then 100000 else match s.getF (Reg.ethMode (portEth p).1) 1 0 with | 0 => 400000 | 1 => 200000 | _ => 100000
def portMtu (s : State) (p : Nat) : Nat := s.getF (Reg.ethMtu (portEth p).1) 13 0
def overhead (s : State) (p : Nat) : Nat := s.getF (Reg.eportPcfg p) 5 0
def pathWithdrawn (s : State) (pathB : Bool) : Bool := if pathB then s.etm.withdrawn.2 else s.etm.withdrawn.1

/-- PRESENT and PATH_EN of every port (R237). -/
def showPorts (s : State) : State :=
  (List.range 10).foldl (fun t p =>
    let b := portPresent t p
    (t.setBit (Reg.eportPstat p) 0 b).setBit (Reg.eportPstat p) 1 (b && !(pathWithdrawn t (portPathB p)))) s

/-! ### Calendars (R233, R234) -/

def calWord (s : State) (p k : Nat) : Word := Store.get calReset s.etm.cal (16 * p + k)
/-- Cycle of the calendar in use, in lines. -/
def calCycle (s : State) (p : Nat) : Nat := Store.get (fun _ => 1) s.etm.cycle p

/-- Valid entries of a calendar as pairs of START and CLASS, in order of number. -/
def calEntries (w : Nat → Word) : List (Nat × Nat) :=
  (List.range 16).filterMap (fun k => if (w k).getLsbD 31 then some (fld (w k) 13 0, fld (w k) 17 16) else none)

/-- Windows: START, length in 1/64 line, CLASS. -/
def calWindows (cycle : Nat) : List (Nat × Nat) → List (Nat × Nat × Nat)
  | [] => []
  | [(a, c)] => [(a, cycle * 64 - a, c)]
  | (a, c) :: (b, d) :: l => (a, b - a, c) :: calWindows cycle ((b, d) :: l)

/-- Share of the cycle that PACED and BOTH windows hold, in 1/64 lines of the cycle. -/
def pacedShare (cycle : Nat) (l : List (Nat × Nat)) : Nat :=
  sumN ((calWindows cycle l).map (fun w => if w.2.2 = 0 ∨ w.2.2 = 2 then w.2.1 else 0))

/-! ### Admission (R236) -/

/-- Rtx, MAX_PAYLOAD, and units per second (numerator, denominator) of a rendition. -/
def rendRate (s : State) (rend : Nat) : Nat × Nat × (Nat × Nat) :=
  let n := rend / 4
  let c := match (s.chan n).place with | some pl => pl.cfg | none => chanCfg s n
  match c.rends.find? (fun r => r.r = rend % 4) with
  | some r => (rtx r, fld r.format 17 4, ((units c r).length * picsPerFrame c * c.num, max 1 c.den))
  | none => (0, 1, (0, 1))

/-- R_c of R236 in bit/s, as a fraction. -/
def copyRate (rtx mp : Nat) (nu : Nat × Nat) (ovh : Nat) : Nat × Nat :=
  (rtx * mp * nu.2 + ovh * rtx * nu.2 + 8 * ovh * nu.1 * mp, max 1 (mp * nu.2))

/-- Counted rates of the flow copies under a node. -/
def flowRates (s : State) (i : Nat) : List (Nat × Nat) :=
  (enabledFlows s).flatMap (fun e => [false, true].filterMap (fun b =>
    if flowPath e.2 b && decide (flowNode e.2 b = i) then
      let q := rendRate s (flowRend e.2)
      some (copyRate q.1 q.2.1 q.2.2 (flowHeader s e.2 b + overhead s (nodePort s i)))
    else none))

/-- Payload bytes of an AES67 packet (R275). -/
def aesPayload (s : State) (n k : Nat) : Nat :=
  let w := s.reg (Reg.chaudAesCtrl n k)
  fld w 7 2 * 3 * (s.audFs / (if w.getLsbD 1 then 8000 else 1000))
def aesNode (s : State) (n k : Nat) (pathB : Bool) : Nat :=
  let w := s.reg (Reg.chaudAesNode n k)
  if pathB then fld w 23 12 else fld w 11 0
def aesHop (s : State) (n k : Nat) (pathB : Bool) : Nat :=
  let w := s.reg (Reg.chaudAesNh n k)
  if pathB then fld w 23 12 else fld w 11 0

/-- Counted rates of the AES67 streams under a node (R275). -/
def audioRates (s : State) (i : Nat) : List (Nat × Nat) :=
  (List.range 128).flatMap (fun n => if (s.chan n).place.isNone then [] else (List.range 4).flatMap (fun k =>
    if s.bit (Reg.chaudAesCtrl n k) 0 then [false, true].filterMap (fun b =>
      if aesNode s n k b = i then
        let mp := aesPayload s n k
        some (copyRate (fld (s.reg (Reg.chaudAesCtrl n k)) 7 2 * 24 * s.audFs) mp (0, 1)
          (headerBytes s false (aesHop s n k b) + overhead s (nodePort s i)))
      else none)
    else []))

/-- The copies of a PACED node fit its slope. -/
def nodeFits (s : State) (i : Nat) : Bool :=
  !(nodeEn s i) || nodeOpen s i ||
    (let q := (flowRates s i ++ audioRates s i).foldl addFrac (0, 1)
     decide (q.1 ≤ nodeSlope s i * 1000 * q.2))

/-- Enabled PACED nodes of a port. -/
def pacedNodes (s : State) (p : Nat) : List Nat :=
  (s.etm.nodes.filter (fun e => nodeEn s e.1 && !(nodeOpen s e.1) && decide (nodePort s e.1 = p))).map (fun e => e.1)

/-- Admitted PACED slope of a port in kbit/s. -/
def pacedSlope (s : State) (p : Nat) : Nat := sumN ((pacedNodes s p).map (nodeSlope s))

/-- The PACED slopes of a port fit 0.95 of the rate that a calendar leaves them. -/
def slopesFit (s : State) (p cycle : Nat) (cal : List (Nat × Nat)) : Bool :=
  let (share, whole) := if 8 ≤ p then (1, 1) else (pacedShare cycle cal, cycle * 64)
  decide (pacedSlope s p * 100 * whole ≤ 95 * portRate s p * 1000 * share)

def portFits (s : State) (p : Nat) : Bool := slopesFit s p (calCycle s p) (calEntries (calWord s p))

/-- R236 for the nodes and ports that a change bears on. -/
def admits (s : State) (nodes : List Nat) : Bool :=
  nodes.all (nodeFits s) && (nodes.map (nodePort s)).all (portFits s)

/-- PACED_IS of every port. -/
def showPaced (s : State) : State := (List.range 10).foldl (fun t p => t.setN (Reg.eportPacedIs p) (pacedSlope t p)) s

/-- Nodes that a flow's copies use. -/
def flowNodes (l : List Word) : List Nat := [false, true].filterMap (fun b => if flowPath l b then some (flowNode l b) else none)

/-- The flow check (R226). -/
def flowOk (s : State) (l : List Word) : Bool :=
  let n := flowRend l / 4
  let r := flowRend l % 4
  decide (1 ≤ s.allotState n ∧ s.allotState n ≤ 4) && s.bit (Reg.chRendCtrl n r) 0 && decide (fld (flowW l 8) 25 24 ≠ 0) &&
  decide (1 ≤ flowWeight l) &&
  [false, true].all (fun b => !(flowPath l b) || (nodeOnPath s (flowNode l b) b &&
    decide (s.getF (Reg.erendFormat n r) 17 4 + flowHeader s l b ≤ portMtu s (nodePort s (flowNode l b)))))

/-! ### Copies and tags (R229, R230) -/

/-- Tag of a map that starts at 0. -/
def tag (m : Store (BitVec 32)) (k : Nat) : BitVec 32 := Store.get (fun _ => 0) m k
def putTag (m : Store (BitVec 32)) (k : Nat) (v : BitVec 32) : Store (BitVec 32) := Store.put (fun _ => 0) m k v

def rentKey (node rend : Nat) : Nat := node * 1024 + rend
def flowKey (f : Nat) (pathB : Bool) : Nat := 2 * f + (if pathB then 1 else 0)
def srcKey (p : Nat) (fwd : Bool) : Nat := 2 * p + (if fwd then 1 else 0)

/-- The port of a copy. -/
def copyPort (s : State) (c : Copy) : Nat := if c.fwd then c.node else nodePort s c.node

/-- A copy joins the queue: a child that had nothing to send takes S = V at each level (R230). -/
def enqueue (s : State) (c : Copy) : State :=
  let e := s.etm
  let p := copyPort s c
  let same (f : Copy → Bool) : Bool := e.queue.any (fun d => decide (copyPort s d = p ∧ d.fwd = c.fwd) && f d)
  let srcTag := if same (fun _ => true) then e.srcTag else putTag e.srcTag (srcKey p c.fwd) (tag e.srcV p)
  if c.fwd then { s with etm := { e with srcTag := srcTag, queue := e.queue ++ [c] } }
  else
    let nodeTag := if same (fun d => decide (d.node = c.node)) then e.nodeTag else putTag e.nodeTag c.node (tag e.portV p)
    let rentTag := if same (fun d => decide (d.node = c.node ∧ d.rend = c.rend)) then e.rentTag
      else putTag e.rentTag (rentKey c.node c.rend) (nodeWord s c.node 5)
    let flowTag := if same (fun d => decide (d.flow = c.flow ∧ d.pathB = c.pathB ∧ d.rend = c.rend)) then e.flowTag
      else putTag e.flowTag (flowKey c.flow c.pathB) (tag e.rentV (rentKey c.node c.rend))
    { s with etm := { e with srcTag := srcTag, nodeTag := nodeTag, rentTag := rentTag, flowTag := flowTag, queue := e.queue ++ [c] } }

/-- Copies of a flow that wait. -/
def flowQueue (s : State) (f : Nat) : List Copy := s.etm.queue.filter (fun c => decide (c.flow = f ∧ c.rend < 512) && !c.fwd)

/-- Depth of a flow: payload units with a copy unsent. -/
def flowDepth (s : State) (f : Nat) : Nat := ((flowQueue s f).map (fun c => c.k)).eraseDups.length

/-- NEXT of a flow: the first payload unit with a copy unsent. -/
def flowNext (s : State) (f : Nat) : Nat :=
  match minBy (fun a b => decide (a < b)) ((flowQueue s f).map (fun c => c.k)) with
  | some k => k
  | none => let r := flowRend (flowCtx s f); (s.reg (Reg.erendPkts (r / 4) (r % 4))).toNat

/-- Counted length of a copy on its port (R232). -/
def counted (s : State) (c : Copy) : Nat := c.len + overhead s (copyPort s c)

/-- Depths of the queues above the flow, in counted bytes. -/
def rentDepth (s : State) (node rend : Nat) : Nat :=
  sumN ((s.etm.queue.filter (fun c => decide (c.node = node ∧ c.rend = rend) && !c.fwd)).map (counted s))
def nodeDepth (s : State) (node : Nat) : Nat :=
  sumN ((s.etm.queue.filter (fun c => decide (c.node = node) && !c.fwd)).map (counted s))
def portDepth (s : State) (p : Nat) : Nat :=
  sumN ((s.etm.queue.filter (fun c => decide (copyPort s c = p))).map (counted s))

/-- Raise a field of a context word to a value, saturating. -/
def raiseFld (w : Word) (hi lo v : Nat) : Word := setFld w hi lo (max (fld w hi lo) (satTo (hi - lo + 1) v))

/-- High-water marks of depth after a release (R239). -/
def markDepth (s : State) (c : Copy) : State :=
  let l := flowCtx s c.flow
  let t := if c.rend < 512 then setFlowCtx s c.flow (l.set 15 (raiseFld (flowW l 15) 11 0 (flowDepth s c.flow))) else s
  let t := setNodeWord t c.node 6 (raiseFld (nodeWord t c.node 6) 31 0 (nodeDepth t c.node))
  let h := Store.get (fun _ => (0, 0)) t.etm.rentHwm (rentKey c.node c.rend)
  let m := Store.put (fun _ => (0, 0)) t.etm.rentHwm (rentKey c.node c.rend) (max h.1 (rentDepth t c.node c.rend), h.2)
  { t with etm := { t.etm with rentHwm := m } }

/-- High-water marks of sojourn when a copy leaves (R239). -/
def markSojourn (s : State) (c : Copy) (v : Nat) : State :=
  let l := flowCtx s c.flow
  let t := if c.rend < 512 then setFlowCtx s c.flow (l.set 15 (raiseFld (flowW l 15) 27 12 v)) else s
  let t := setNodeWord t c.node 7 (raiseFld (nodeWord t c.node 7) 15 0 v)
  let h := Store.get (fun _ => (0, 0)) t.etm.rentHwm (rentKey c.node c.rend)
  { t with etm := { t.etm with rentHwm := Store.put (fun _ => (0, 0)) t.etm.rentHwm (rentKey c.node c.rend) (h.1, max h.2 v) } }

/-- Payload units that no copy needs and that are older than the newest released unit leave the model's list. -/
def pruneUnits (s : State) : State :=
  { s with etm := { s.etm with units := s.etm.units.filter (fun u =>
    decide (Store.get (fun _ => 0) s.etm.newest u.rend ≤ u.k) ||
      s.etm.queue.any (fun c => decide (c.rend = u.rend ∧ c.k = u.k) && !c.fwd)) } }

/-! ### Skips (R228) -/

/-- Channel of a rendition as placed. -/
def rendChan (s : State) (rend : Nat) : ChanCfg := s.cfgOf (rend / 4)

/-- A flow's next payload unit is older than OPEN_LAG channel frame periods, or the slice buffer is about to overwrite it. -/
def skipDue (s : State) (rend k : Nat) (release : BitVec 64) : Bool :=
  let c := rendChan s rend
  let lag := s.getF Reg.etmOpenLag 3 0 * c.div * s.frameUnits
  let after := sumN ((s.etm.units.filter (fun u => decide (u.rend = rend ∧ k ≤ u.k))).map (fun u => u.payload.length))
  let size := match c.rends.find? (fun r => r.r = rend % 4) with | some r => ceilDiv (2 * cpbBits c r) 8 | none => 0
  decide (lag < unitsBetween s release s.stp.pos) || decide (size < after)

/-- One flow skips to the newest released unit. -/
def skipFlow (s : State) (f : Nat) : State :=
  match minBy (fun (a b : Copy) => decide (a.k < b.k)) (flowQueue s f) with
  | none => s
  | some c =>
    let new := Store.get (fun _ => 0) s.etm.newest c.rend
    if skipDue s c.rend c.k c.release && decide (c.k < new) then
      let l := flowCtx s f
      let t := setFlowCtx s f (l.set 15 (setFld (flowW l 15) 31 28 (satTo 4 (fld (flowW l 15) 31 28 + 1))))
      let t := { t with etm := { t.etm with queue := t.etm.queue.filter (fun d =>
        !(decide (d.flow = f ∧ d.rend < 512 ∧ d.k < new) && !d.fwd)) } }
      (t.inc32 Reg.etmSkips).evt Pg.etm 0
    else s

/-- Skips of every flow with copies waiting. -/
def skipFlows (s : State) : State :=
  (((s.etm.queue.filter (fun c => decide (c.rend < 512) && !c.fwd)).map (fun c => c.flow)).eraseDups).foldl skipFlow s

/-! ### Release (R226, R235, R237, R238) -/

/-- Free bytes of a host ring before RING_RD: a record that reached it would read as an empty ring. -/
def ringRoom (size wr rd len : Nat) : Bool := decide (size ≠ 0 ∧ (wr + size - rd % size) % size + len < size)

/-- Write bytes into host memory around a ring. -/
def ringBytes (m : Store (BitVec 8)) (base size ofs : Nat) : List Nat → Store (BitVec 8)
  | [] => m
  | b :: l => ringBytes (Store.put (fun _ => 0) m (base + ofs % size) (BitVec.ofNat 8 b)) base size (ofs + 1) l

/-- One record of a host ring (R238). -/
def hostRing (s : State) (n r : Nat) (u : PayUnit) : State :=
  let size := (s.reg (Reg.erendRingSize n r)).toNat
  if size = 0 then s
  else
    let pad := (16 - u.payload.length % 16) % 16
    let rec_ := leBytes 2 u.payload.length ++ leBytes 2 u.don.toNat ++ leBytes 4 u.rtp.toNat ++
      leBytes 4 ((if u.marker then 1 else 0) + (if u.emerg then 2 else 0)) ++ leBytes 4 u.k ++ u.payload.map BitVec.toNat ++ List.replicate pad 0
    let wr := (s.reg (Reg.erendRingWr n r)).toNat
    let rd := (s.reg (Reg.erendRingRd n r)).toNat
    if ringRoom size wr rd rec_.length then
      let base := (s.reg64 (Reg.erendRingBaseLo n r) (Reg.erendRingBaseHi n r)).toNat
      ({ s with etm := { s.etm with hostMem := ringBytes s.etm.hostMem base size wr rec_ } } : State).setN (Reg.erendRingWr n r)
        ((wr + rec_.length) % size)
    else (s.inc32 (Reg.erendRingDrop n r)).evt Pg.etm 1

/-- An access unit begins: flows join, and flows that were disabled stop (R226). -/
def joinFlows (s : State) (rend : Nat) : State :=
  let mine := (flowsOf s rend).map (fun e => e.1)
  let stop := s.etm.leaving.filter (fun f => decide (flowRend (flowCtx s f) = rend))
  { s with etm := { s.etm with joined := (s.etm.joined.filter (fun f => !(stop.contains f && !(mine.contains f)) && !(mine.contains f))) ++ mine
                               leaving := s.etm.leaving.filter (fun f => !(stop.contains f)) } }

/-- RTP timestamp of a payload unit whose input picture's channel frame starts at Steeple frame `f` (R218); in format 2 that of its
release (R221). -/
def videoRtp (s : State) (n r : Nat) (f : BitVec 32) : BitVec 32 :=
  if s.getF (Reg.erendFormat n r) 1 0 = 2 then BitVec.ofNat 32 (s.ptpTime s.stp.pos 90000)
  else BitVec.ofNat 32 (s.frameTime f 90000) + s.reg (Reg.erendTsOffset n r)

/-! ### Payload units (R217, R220, R221) -/

/-- A NAL unit of a unit: decoding order number, bytes, whether it belongs to an emergency slice. -/
structure UnitNal where
  don   : Nat
  bytes : List (BitVec 8)
  emerg : Bool
  deriving DecidableEq, Repr

/-- A payload unit as it is cut: bytes, unit bytes in it, decoding order number, whether it carries an emergency slice. -/
structure Cut where
  bytes : List (BitVec 8)
  used  : Nat
  don   : Nat
  emerg : Bool
  deriving DecidableEq, Repr

/-- Header bytes of RFC 7798 and RFC 9328 (Config.rtpHeader). PRESUMED (those RFCs): 2 bytes in front of an aggregation packet, 3 in
front of a fragment, 2 of DONL and 1 of DOND, 2 of size for each NAL unit of an aggregation packet (notes/assumptions/46.md). -/
def rtpHead (kind n : Nat) (nal : List (BitVec 8)) : List (BitVec 8) := (List.range n).map (Config.rtpHeader kind nal)

/-- Big-endian bytes of a 16-bit number. -/
def be16 (v : Nat) : List (BitVec 8) := [BitVec.ofNat 8 (v / 256), BitVec.ofNat 8 v]

/-- A NAL unit in a packet of its own. -/
def singlePacket (don : Bool) (x : UnitNal) : Cut :=
  ⟨x.bytes.take 2 ++ (if don then be16 x.don else []) ++ x.bytes.drop 2, x.bytes.length, x.don, x.emerg⟩

/-- NAL units in an aggregation packet. -/
def aggregate (don : Bool) (l : List UnitNal) : Cut :=
  let first := l.headD ⟨0, [], false⟩
  let part (e : UnitNal × Nat) : List (BitVec 8) :=
    (if don then if e.2 = 0 then be16 e.1.don else [BitVec.ofNat 8 (e.1.don + 65536 - (l.getD (e.2 - 1) first).don - 1)] else []) ++
      be16 e.1.bytes.length ++ e.1.bytes
  ⟨rtpHead 0 2 (l.flatMap UnitNal.bytes) ++ (l.zip (List.range l.length)).flatMap part, sumN (l.map (fun x => x.bytes.length)), first.don,
    l.any UnitNal.emerg⟩

/-- Fragments of a NAL unit: its first 2 bytes travel in the headers. Fuel: one fragment at a time. -/
def fragments (don : Bool) (room : Nat) (x : UnitNal) (first : Bool) : Nat → List (BitVec 8) → List Cut
  | 0, _ => []
  | f + 1, l =>
    let n := room - 3 - (if don && first then 2 else 0)
    let last := decide (l.length ≤ n)
    ⟨rtpHead (if first then 1 else if last then 3 else 2) 3 x.bytes ++ (if don && first then be16 x.don else []) ++ l.take n,
      (l.take n).length + (if first then 2 else 0), x.don, x.emerg⟩ :: (if last then [] else fragments don room x false f (l.drop n))

/-- Length of the aggregation packet of some NAL units. -/
def aggregateLen (don : Bool) (l : List UnitNal) : Nat :=
  2 + (if don then 1 + l.length else 0) + sumN (l.map (fun x => 2 + x.bytes.length))

/-- Most NAL units in front of a list that fit one aggregation packet together. -/
def fitTogether (don : Bool) (room : Nat) (l : List UnitNal) : Nat :=
  ((List.range (l.length + 1)).filter (fun k => decide (aggregateLen don (l.take k) ≤ room))).foldl max 0

/-- Formats 0 and 1 (Table 9-1). Fuel: one packet at a time. -/
def cutNals (agg don : Bool) (room : Nat) : Nat → List UnitNal → List Cut
  | 0, _ => []
  | _ + 1, [] => []
  | f + 1, x :: l =>
    let k := if agg then fitTogether don room (x :: l) else 0
    if 2 ≤ k then aggregate don ((x :: l).take k) :: cutNals agg don room f ((x :: l).drop k)
    else if x.bytes.length + (if don then 2 else 0) ≤ room then singlePacket don x :: cutNals agg don room f l
    else fragments don room x true x.bytes.length (x.bytes.drop 2) ++ cutNals agg don room f l

/-- PCR of a release: its PTP time at 90 kHz and at 27 MHz. -/
def pcrAt (s : State) (p : BitVec 64) : Nat × Nat := (s.ptpTime p 90000, s.ptpTime p 27000000)

/-- Continuity counters of a rendition's transport stream. -/
def tsCounters (s : State) (rend : Nat) : Nat × Nat × Nat := Store.get (fun _ => (0, 0, 0)) s.etm.tsCc rend

/-- A unit in format 2 (R221): its NAL units as a byte stream, with the PES header where an access unit begins, PAT and PMT in front, and
the continuity counters after it. The model puts PAT and PMT in front of every unit and a PCR into every payload unit
(notes/assumptions/49.md). -/
def tsUnit (s : State) (n r : Nat) (x : SliceOut) (nals : List UnitNal) : List Cut × (Nat × Nat × Nat) :=
  let rend := 4 * n + r
  let (cv, ca, cm) := tsCounters s rend
  let sect (k : Nat) : List Nat := (List.range 184).map (fun i => (Config.sectionByte rend k i).toNat)
  let lead := [tsPacket 0 true ca none (sect 0), tsPacket (s.getF (Reg.erendTsPids n r) 12 0) true cm none (sect 1)]
  let at_ := s.frameTime x.frame 90000
  let second := decide (picsPerFrame (s.cfgOf n) = 2 ∧ x.m % 2 = 1)
  let es := (if x.firstOfAu then pesHead (Config.pts rend at_ second % 2 ^ 33) (Config.dts rend x.m at_ % 2 ^ 33) else []) ++
    nals.flatMap (fun y => [0, 0, 0, 1] ++ y.bytes.map BitVec.toNat)
  let cut := tsPayloads (s.getF (Reg.erendTsPids n r) 28 16) (fun used => pcrAt s (s.posAdd x.e (rtxUnits s x.rtx used))) x.firstOfAu
    es.length cv 0 lead es
  (cut.1.map (fun e => ⟨e.1.map (BitVec.ofNat 8), e.2, 0, nals.any UnitNal.emerg⟩), (cut.2, ca + 1, cm + 1))

/-- NAL units of a unit's slices, which stand in tile order. -/
def unitNals (l : List SliceOut) : List UnitNal := l.flatMap (fun y => y.nals.map (fun e => (⟨e.1 % 65536, e.2, y.emerg⟩ : UnitNal)))

/-- The payload units of a unit, whose slices stand in tile order, with their releases (R217, R235). -/
def cutUnit (s : State) (n r : Nat) (l : List SliceOut) : List PayOut :=
  match l with
  | [] => []
  | x :: _ =>
    let don := decide (s.getF (Reg.erendDonDiff n r) 15 0 ≠ 0)
    let nals := unitNals l
    let size := sumN (nals.map (fun e => e.bytes.length))
    let cuts := if fld x.format 1 0 = 2 then (tsUnit s n r x nals).1
      else cutNals (decide (fld x.format 1 0 = 0)) don (fld x.format 17 4) (nals.length + size) nals
    (cuts.zip (List.range cuts.length)).map (fun e =>
      { payload := e.1.bytes, e := s.posAdd x.e (rtxUnits s x.rtx (sumN ((cuts.take e.2).map Cut.used))), frame := x.frame, don := e.1.don
        marker := x.lastOfAu && decide (e.2 + 1 = cuts.length), emerg := e.1.emerg, firstOfUnit := decide (e.2 = 0)
        firstOfAu := x.firstOfAu && decide (e.2 = 0)
        slices := if e.2 = 0 then l.map (fun y => ((y.nals.find? (fun z => decide (z.1 = y.don))).map Prod.snd).getD []) else [] })

/-- The slices of the next unit to leave, in tile order (R122 to R124): the oldest left of an ended sequence, else the next one of the
sequence; none while one of them is not complete. -/
def nextUnit (s : State) (n r : Nat) : Option (List SliceOut) :=
  let ch := s.chan n
  let all := Store.get (fun _ => []) ch.slices r
  let old := minBy (fun (a b : SliceOut) => decide (a.seqNo < b.seqNo ∨ (a.seqNo = b.seqNo ∧ (a.m < b.m ∨ (a.m = b.m ∧ a.row < b.row)))))
    (all.filter (fun x => decide (x.seqNo ≠ ch.seqNo)))
  let key := match old with | some x => (x.seqNo, x.m, x.row) | none => (ch.seqNo, (s.rc n r).outNext)
  let l := sortBy (fun (a b : SliceOut) => decide (a.tile ≤ b.tile)) (all.filter (fun x => decide ((x.seqNo, x.m, x.row) = key)))
  match l with
  | x :: _ => if l.length = x.count then some l else none
  | [] => none

/-- The next unit is cut into payload units, and leaves the slice buffer. -/
def takeUnit (s : State) (n r : Nat) : State :=
  match nextUnit s n r with
  | none => s
  | some l =>
    let ch := s.chan n
    let x := s.rc n r
    let t := s.setChan n { ch with
      slices := Store.put (fun _ => []) ch.slices r ((Store.get (fun _ => []) ch.slices r).filter (fun y => !(l.contains y)))
      outq := Store.put (fun _ => []) ch.outq r (cutUnit s n r l) }
    let t := match l with
      | y :: _ => if fld y.format 1 0 = 2 then
          { t with etm := { t.etm with tsCc := Store.put (fun _ => (0, 0, 0)) t.etm.tsCc (4 * n + r) (tsUnit s n r y (unitNals l)).2 } } else t
      | [] => t
    match l with
    | y :: _ => if y.seqNo = ch.seqNo then t.setRc n r { x with outNext := if y.lastOfAu then (y.m + 1, 0) else (y.m, y.row + y.rows) } else t
    | [] => t

/-- What a slice contributes to the as-aired digest (R370). -/
def airSlice (r : Nat) (nal : List (BitVec 8)) : List (BitVec 8) := BitVec.ofNat 8 r :: (leBytes 4 nal.length).map (BitVec.ofNat 8) ++ nal

/-- The ETM could not read a flow's context (R346): its copies go, its EN is cleared, and the lead passes on. -/
def loseFlow (s : State) (f : Nat) : State :=
  let l := flowCtx s f
  let t := setFlowCtx s f (l.set 8 (putBit (flowW l 8) 27 false))
  showFlows { t with etm := { t.etm with queue := t.etm.queue.filter (fun c => c.fwd || decide (c.flow ≠ f ∨ 512 ≤ c.rend))
                                         joined := t.etm.joined.filter (fun g => decide (g ≠ f)) } } (flowRend l)

/-- The ETM meets uncorrectable data in a 64-byte line (Table 15-9): a payload unit in it is sent on no flow, a flow whose context lies in
it is cleared. Where either lies the spec does not say (Config.lineUnit, Config.lineFlow). -/
def etmMemError (s : State) (line : Nat) : State :=
  let t := (s.inc32 Reg.etmMemErr).evt Pg.etm 7
  let t := (((enabledFlows t).map (fun e => e.1)).filter (Config.lineFlow line)).foldl loseFlow t
  pruneUnits { t with etm := { t.etm with queue := t.etm.queue.filter (fun c => c.fwd || !(Config.lineUnit line c.rend c.k)) } }

/-- A payload unit lies in a line that the ETM could not read. -/
def unitFails (s : State) (rend k : Nat) : Bool := s.hbm.failed.any (fun e => stillFails s 39 e && Config.lineUnit e.line rend k)

/-- A payload unit is released at the present position (R235): to the host ring and its flows, but to none where it could not be read
(R346). -/
def payloadRelease (s : State) (n r : Nat) (x : PayOut) : State :=
  let payload := x.payload
  let rend := 4 * n + r
  -- a path that has returned takes units anchored at or after the resync frame (R398)
  let early (b : Bool) : Bool := match s.twin.returnAt with
    | some f => (b == s.bit Reg.stileCfg 0) && later (s.posAdd (posOf f 0) (delayUnits (s.cfgOf n))) s.stp.pos
    | none => false
  let k := (s.reg (Reg.erendPkts n r)).toNat
  let u : PayUnit := ⟨rend, k, payload, videoRtp s n r x.frame, if s.getF (Reg.erendDonDiff n r) 15 0 = 0 then 0 else BitVec.ofNat 16 x.don, s.stp.pos, x.marker, x.emerg⟩
  let gone := unitFails s rend k
  let t := (if gone then s else hostRing s n r u).wrapAdd (Reg.erendPkts n r) 1
  let t := { t with etm := { t.etm with units := t.etm.units ++ [u]
                                        newest := if x.firstOfUnit then Store.put (fun _ => 0) t.etm.newest rend k else t.etm.newest } }
  -- every tile's slice of the unit joins the record period (R369, R370)
  let t := t.modChan n (fun c => { c with air := { c.air with count := c.air.count + x.slices.length
                                                              slices := c.air.slices ++ x.slices.flatMap (airSlice r) } })
  let t := if x.firstOfAu then joinFlows t rend else t
  let takers := t.etm.joined.filter (fun f => decide (flowRend (flowCtx t f) = rend))
  let t := takers.foldl (fun t f =>
    let l := flowCtx t f
    [false, true].foldl (fun t b =>
      if flowPath l b && !(pathWithdrawn t b) && !(early b) && !gone then
        let c : Copy := ⟨f, b, flowNode l b, rend, k, payload.length + flowHeader t l b, s.stp.pos, false, none, false, []⟩
        markDepth (enqueue t c) c
      else t) t) t
  pruneUnits (skipFlows t)

/-- The next payload unit of a rendition is released at its point (R217, R235): of the unit that is leaving, or of the next one. -/
def nextPayload (s : State) (n r : Nat) : State :=
  if (s.chan n).place.isNone || !s.running then s
  else
    let t := if (Store.get (fun _ => []) (s.chan n).outq r).isEmpty then takeUnit s n r else s
    match Store.get (fun _ => []) (t.chan n).outq r with
    | [] => t
    | x :: l => payloadRelease ((t.modChan n (fun c => { c with outq := Store.put (fun _ => []) c.outq r l })).toPos x.e) n r x

def execPayloadUnitRelease (n : Fin 128) (rend : Fin 4) (s : State) : Out := .next (nextPayload s n rend)

/-- A path is withdrawn: its queued copies are discarded (R237). -/
def withdrawPath (s : State) (pathB : Bool) : State :=
  if pathWithdrawn s pathB then s
  else
    let t := { s with etm := { s.etm with
      withdrawn := if pathB then (s.etm.withdrawn.1, true) else (true, s.etm.withdrawn.2)
      queue := s.etm.queue.filter (fun c => c.fwd || decide (c.pathB ≠ pathB)) } }
    (showPorts (pruneUnits t)).evt Pg.etm 3

/-- A path is enabled again. -/
def restorePath (s : State) (pathB : Bool) : State :=
  showPorts { s with etm := { s.etm with
    withdrawn := if pathB then (s.etm.withdrawn.1, false) else (false, s.etm.withdrawn.2) } }

/-! ### Shapers (R231) -/

/-- The credit of one node after `ns` nanoseconds: it rises at the slope while frames wait or it is in debt. The whole counted
length is taken at the start of a frame, and the slope's share rises through it. -/
def creditAfter (s : State) (i ns : Nat) : Int :=
  let c := nodeCredit s i
  let rise : Int := nodeSlope s i * ns / 125000
  let high : Int := fld (nodeWord s i 2) 23 0 * 64
  if nodeSlope s i = 0 then c
  else if s.etm.queue.any (fun d => decide (d.node = i) && !d.fwd) then max c (min high (c + rise))
  else min 0 (c + rise)

/-- Bring every credit up to the present position; credits that clear at the end of a frame clear (Table 9-5). -/
def updateCredits (s : State) : State :=
  let ns := s.unitsToNs (unitsBetween s s.etm.creditAt s.stp.pos)
  let t := s.etm.nodes.foldl (fun t e => setNodeWord t e.1 4 (BitVec.ofInt 32 (creditAfter s e.1 ns))) s
  let due := t.etm.clears.filter (fun i => !(later (Store.get (fun _ => 0) t.etm.busy (nodePort t i)) t.stp.pos))
  let t := due.foldl (fun t i => setNodeWord t i 4 0) t
  { t with etm := { t.etm with creditAt := s.stp.pos, clears := t.etm.clears.filter (fun i => !(due.contains i)) } }

/-! ### The hierarchy (R230, R231, R233) -/

/-- A window of class `cls` admits frames of a class: 0 PACED, 1 OPEN, 2 BOTH. -/
def admitsClass (cls frame : Nat) : Bool := decide (cls = 2 ∨ frame = 2 ∨ cls = frame)

/-- Class of a copy. -/
def copyClass (s : State) (c : Copy) : Nat :=
  if c.fwd then s.getF (Reg.eportPcfg c.node) 9 8 else if nodeOpen s c.node then 1 else 0

/-- The copy may start in the window: class, shaper and, with `fit`, length. The cascade ports have no calendar. -/
def mayStartCopy (s : State) (p cls room : Nat) (fit : Bool) (c : Copy) : Bool :=
  (decide (8 ≤ p) || (admitsClass cls (copyClass s c) && (!fit || decide (counted s c ≤ room)))) &&
  (c.fwd || (nodeEn s c.node && (decide (nodeSlope s c.node = 0) || decide (0 ≤ nodeCredit s c.node))))

/-- Copies at the head of their flow, stream or forwarded queue on a port. -/
def heads (s : State) (p : Nat) : List Copy :=
  let q := s.etm.queue.filter (fun c => decide (copyPort s c = p))
  q.filter (fun c => (q.find? (fun d => decide (d.fwd = c.fwd ∧ (c.fwd = true ∨ (d.flow = c.flow ∧ d.pathB = c.pathB ∧ d.rend = c.rend))))) = some c)

/-- The earlier start tag, the lower index on a tie. -/
def tagLt (a b : BitVec 32 × Nat) : Bool := decide ((a.1 - b.1).toInt < 0 ∨ (a.1 = b.1 ∧ a.2 < b.2))

/-- Keep the copies of the child with the earliest start tag. -/
def earliest (key : Copy → Nat) (tg : Copy → BitVec 32) (l : List Copy) : List Copy :=
  match minBy tagLt (l.map (fun c => (tg c, key c))) with
  | some (_, k) => l.filter (fun c => decide (key c = k))
  | none => []

/-- The copy that the hierarchy chooses. -/
def pickCopy (s : State) (p cls room : Nat) (fit : Bool) : Option Copy :=
  let e := s.etm
  let l := (heads s p).filter (mayStartCopy s p cls room fit)
  let l := earliest (fun c => if c.fwd then 1 else 0) (fun c => tag e.srcTag (srcKey p c.fwd)) l
  match l with
  | [] => none
  | c :: _ =>
    if c.fwd then some c
    else
      let l := earliest (fun c => c.node) (fun c => tag e.nodeTag c.node) l
      let l := earliest (fun c => c.rend) (fun c => tag e.rentTag (rentKey c.node c.rend)) l
      (earliest (fun c => flowKey c.flow c.pathB) (fun c => tag e.flowTag (flowKey c.flow c.pathB)) l).head?

/-- What a start tag gains (R230); a weight of 0 leaves it open. -/
def tagGain (len w i : Nat) : BitVec 32 := BitVec.ofNat 32 (if w = 0 then Config.freeNat i else len * 256 / w)

/-- Weight of a copy's rendition entry; the entry of an AES67 stream has weight 1. -/
def rentWeight (s : State) (rend : Nat) : Nat := if rend < 512 then s.getF (Reg.erendWeight (rend / 4) (rend % 4)) 7 0 else 1

/-- Serve a copy: V becomes the start tag served, which then grows, at every level. -/
def serveTags (s : State) (p : Nat) (c : Copy) : State :=
  let (i, s) := s.draw
  let e := s.etm
  let len := counted s c
  let sk := srcKey p c.fwd
  let w := if c.fwd then s.getF (Reg.eportPcfg p) 31 24 else s.getF (Reg.eportPcfg p) 23 16
  let srcV := putTag e.srcV p (tag e.srcTag sk)
  let srcTag := putTag e.srcTag sk (tag e.srcTag sk + tagGain len w i)
  if c.fwd then { s with etm := { e with srcV := srcV, srcTag := srcTag } }
  else
    let rk := rentKey c.node c.rend
    let fk := flowKey c.flow c.pathB
    let t := setNodeWord s c.node 5 (tag e.rentTag rk)
    { t with etm := { t.etm with
        srcV := srcV, srcTag := srcTag
        portV := putTag e.portV p (tag e.nodeTag c.node)
        nodeTag := putTag e.nodeTag c.node (tag e.nodeTag c.node + tagGain len (nodeWeight s c.node) i)
        rentTag := putTag e.rentTag rk (tag e.rentTag rk + tagGain len (rentWeight s c.rend) i)
        rentV := putTag e.rentV rk (tag e.flowTag fk)
        flowTag := putTag e.flowTag fk (tag e.flowTag fk +
          tagGain len (if c.rend < 512 then flowWeight (flowCtx s c.flow) else 1) i) } }

/-- Bytes of later payload units of every rendition: what may have evicted a unit from the 4 MiB egress store (R228). -/
def evictable (s : State) (c : Copy) : Bool :=
  decide (4 * 2 ^ 20 < sumN ((s.etm.units.filter (fun u => decide (u.release ≠ c.release) && later u.release c.release)).map
    (fun u => u.payload.length)))

/-- Counters that the open replacement of the two caches decides: a read again from HBM, a context miss (R224, R228). -/
def cacheCounts (s : State) (c : Copy) : State :=
  if c.fwd ∨ 512 ≤ c.rend then s
  else
    let (i, t) := s.draw
    let (j, t) := t.draw
    let t := if evictable s c && Config.freeBit i then t.inc32 Reg.etmRereads else t
    if Config.freeBit j then t.inc32 Reg.etmCtxMiss else t

/-- A next-hop entry's part of a header (R225), towards a destination from a port's source addresses. -/
def hopHead (s : State) (p hop : Nat) (v6 : Bool) (dst : List Nat) (udpSrc udpDst : Nat) : WireHead :=
  let x := (portEth p).1
  let e := hopEntry s hop
  let w1 := e.getD 1 0
  let w2 := e.getD 2 0
  { srcMac := s.getF (Reg.ethMacHi x) 15 0 * 2 ^ 32 + (s.reg (Reg.ethMacLo x)).toNat
    dstMac := fld w1 15 0 * 2 ^ 32 + (e.getD 0 0).toNat, mcast := w1.getLsbD 16
    tag := if hopTagged s hop then some (fld w1 20 18, fld w2 11 0) else none
    v6 := v6, dscp := fld w2 17 12, ttl := fld w2 25 18
    src := if v6 then (List.range 4).flatMap (fun i => beBytes 4 (s.reg (Reg.ethSrcIp6 x i)).toNat) else beBytes 4 (s.reg (Reg.ethSrcIp4 x)).toNat
    dst := dst, udpSrc := udpSrc, udpDst := udpDst }

/-- The released payload unit that a copy carries. -/
def copyUnit (s : State) (c : Copy) : Option PayUnit := s.etm.units.find? (fun u => decide (u.rend = c.rend ∧ u.k = c.k))

/-- The bytes of a flow's copy on its port (R218, R219, R225). -/
def flowBytes (s : State) (p : Nat) (c : Copy) (u : PayUnit) : List Nat :=
  let l := flowCtx s c.flow
  let v6 := (flowW l 8).getLsbD 26
  let dst := (List.range 4).flatMap (fun i => leBytes 4 (flowW l ((if c.pathB then 4 else 0) + i)).toNat)
  let ts := decide (s.getF (Reg.erendFormat (c.rend / 4) (c.rend % 4)) 1 0 = 2)
  frameBytes (hopHead s p (flowHop l c.pathB) v6 (if v6 then dst else dst.drop 12) (fld (flowW l 9) 31 16) (fld (flowW l 9) 15 0))
    ⟨u.marker && !ts, if ts then 33 else fld (flowW l 11) 22 16, (c.k + fld (flowW l 11) 15 0) % 65536, u.rtp.toNat, (flowW l 10).toNat⟩
    (u.payload.map BitVec.toNat)

/-- The bytes of an AES67 stream's copy (R275). -/
def aesBytes (s : State) (p : Nat) (c : Copy) (u : PayUnit) : List Nat :=
  let n := (c.rend - 512) / 4
  let k := (c.rend - 512) % 4
  let spp := max 1 (s.audFs / (if s.bit (Reg.chaudAesCtrl n k) 1 then 8000 else 1000))
  frameBytes (hopHead s p (aesHop s n k c.pathB) false
      (beBytes 4 (s.reg (if c.pathB then Reg.chaudAesDstB n k else Reg.chaudAesDstA n k)).toNat)
      (s.getF (Reg.chaudAesUdp n k) 31 16) (s.getF (Reg.chaudAesUdp n k) 15 0))
    ⟨false, s.getF (Reg.chaudAesCtrl n k) 22 16, (Config.aesSeq c.rend + c.k / spp) % 65536, u.rtp.toNat, (s.reg (Reg.chaudAesSsrc n k)).toNat⟩
    (u.payload.map BitVec.toNat)

/-- The bytes of a copy. -/
def copyBytes (s : State) (p : Nat) (c : Copy) : List Nat :=
  match copyUnit s c with
  | some u => if c.rend < 512 then flowBytes s p c u else aesBytes s p c u
  | none => []

/-- A timestamp at a port (R250), in 2^-16 ns: the local time with the port's adjustment in ps. -/
def txStamp (s : State) (x : Nat) : Int := s.localTime + (s.reg (Reg.ethTsAdjTx x)).toInt * 65536 / 1000
def rxStamp (s : State) (x : Nat) : Int := s.localTime + (s.reg (Reg.ethTsAdjRx x)).toInt * 65536 / 1000

/-- A forwarded frame as its port sends it: unchanged, but for the residence time of an event message (R247, R253). -/
def forwardBytes (s : State) (p : Nat) (c : Copy) : List Nat :=
  match c.event with
  | some t => addResidence (c.bytes.map BitVec.toNat) (txStamp s (portEth p).1 - t)
  | none => c.bytes.map BitVec.toNat

/-- Time from a copy's release to the present position, in FRAC units (R239). -/
def copyAge (s : State) (c : Copy) : Nat := unitsBetween s c.release s.stp.pos

/-- A copy starts on its port. -/
def sendCopy (s : State) (p : Nat) (c : Copy) : State :=
  let len := counted s c
  -- a PACED copy that starts later than 1 Tl after its release (R235); sojourn in 1/16 line
  let late := decide (262144 < copyAge s c)
  let sojourn := copyAge s c / 16384
  let t := serveTags s p c
  let t := { t with etm := { t.etm with
    queue := t.etm.queue.erase c
    busy := Store.put (fun _ => 0) t.etm.busy p (t.posAdd t.stp.pos (t.nsToUnits (ceilDiv (len * 8000) (portRate t p)))) } }
  let t := t.wrapAdd (Reg.eportFrames p) 1
  let t := t.setReg64 (Reg.eportBytesLo p) (Reg.eportBytesHi p) (t.reg64 (Reg.eportBytesLo p) (Reg.eportBytesHi p) + BitVec.ofNat 64 len)
  if c.fwd then { t with sent := .forward p (forwardBytes s p c) :: t.sent }
  else
    let t := if nodeSlope t c.node = 0 then t else setNodeWord t c.node 4 (BitVec.ofInt 32 (nodeCredit t c.node - len * 64))
    let t := markSojourn (cacheCounts t c) c sojourn
    let t := { t with sent := .frame p c.flow c.k c.pathB (copyBytes s p c) :: t.sent }
    let t := if late && !(nodeOpen s c.node) then ((t.inc32 Reg.etmLate).evt Pg.etm 6).raise 0x6001 Pg.etm p c.flow else t
    pruneUnits t

/-- A frame that the window's rest does not hold waits, and is counted once (R233). -/
def countWait (s : State) (p cls room : Nat) : State :=
  match pickCopy s p cls room false with
  | some c =>
    if !(decide (8 ≤ p)) && decide (room < counted s c) && !c.waited then
      let t := { s with etm := { s.etm with queue := s.etm.queue.map (fun d => if d = c then { d with waited := true } else d) } }
      t.inc32 (Reg.eportWaits p)
    else s
  | none => s

/-- The calendar window in progress on a line sub-port (R233): its class, and the FRAC units to its end; cycles restart at line 0 of every
Steeple frame. -/
def calWindow (s : State) (p : Nat) : Nat × Nat :=
  let cycle := calCycle s p * 262144
  let ofs := s.inFrame % max 1 cycle
  match (calWindows (calCycle s p) (calEntries (calWord s p))).find? (fun w => decide (w.1 * 4096 ≤ ofs ∧ ofs < (w.1 + w.2.1) * 4096)) with
  | some w => (w.2.2, min ((w.1 + w.2.1) * 4096 - ofs) (s.frameUnits - s.inFrame))
  | none => (2, 0)

/-- Counted bytes that a port sends in a number of FRAC units. -/
def bytesIn (s : State) (p u : Nat) : Nat :=
  let (n, d) := s.framePeriod
  u * n * portRate s p * 1000000 / (8 * s.frameUnits * d)

/-- Class and room in counted bytes of the window in progress. -/
def portWindow (s : State) (p : Nat) : Nat × Nat := ((calWindow s p).1, bytesIn s p (calWindow s p).2)

/-- A port that is up is free: the end of the frame in transmission is reached, and the credits and skips are brought up to date. -/
def portFree (s : State) (p : Nat) : State :=
  skipFlows (updateCredits (if s.running then s.toPos (Store.get (fun _ => s.stp.pos) s.etm.busy p) else s))

/-- The same, with the wait of a frame that does not fit its window counted. -/
def portWaits (s : State) (p : Nat) : State :=
  let t := portFree s p
  countWait t p (portWindow t p).1 (portWindow t p).2

/-- The copy that a port starts next. -/
def portPick (s : State) (p : Nat) : Option Copy := pickCopy (portWaits s p) p (portWindow (portFree s p) p).1 (portWindow (portFree s p) p).2 true

/-- A port can start a frame (R230 to R233, R235). While Steeple stands, no calendar runs (R458). -/
def portTransmit (s : State) (p : Nat) : State :=
  if !(portUp s p) || (!s.running && decide (p < 8)) then s
  else match portPick s p with
    | some c => sendCopy (portWaits s p) p c
    | none => portWaits s p

def execPortTransmit (p : Fin 10) (s : State) : Out := .next (portTransmit s p)

/-! ### Calendar commits (R234) -/

/-- CTRL.COMMIT of an EPORT page. The cascade ports have no calendar. -/
def eportCommit (s : State) (p : Nat) : State :=
  if s.answers (Pg.eport p) && decide (p < 8) then
    if s.etm.calPend.contains p then s else { s with etm := { s.etm with calPend := s.etm.calPend ++ [p] } }
  else s

def execEportCommit (p : Fin 10) (s : State) : Out := .next (eportCommit s p)

/-- START rises strictly. -/
def ascending : List Nat → Bool
  | a :: b :: l => decide (a < b) && ascending (b :: l)
  | _ => true

/-- Gaps between starts that follow one another around the cycle. -/
def gaps (cycle : Nat) (l : List Nat) : List Nat :=
  match l with
  | [] => []
  | a :: _ => (l.zip (l.drop 1 ++ [a + cycle * 64])).map (fun e => e.2 - e.1)

/-- The tests of R234 on the shadow calendar. -/
def calendarOk (s : State) (p : Nat) : Bool :=
  let cycle := s.getF (Reg.eportCalCycle p) 8 0
  let cal := calEntries (fun k => s.reg (Reg.eportCal p k))
  let paced := !(pacedNodes s p).isEmpty
  let wins := (calWindows cycle cal).filter (fun w => decide (w.2.2 = 0 ∨ w.2.2 = 2))
  let largest := (portMtu s p + overhead s p) * 8
  let tl := s.framePeriod
  decide (1 ≤ cycle ∧ cycle ≤ 256) && ascending (cal.map (fun e => e.1)) && decide (cal.head?.map (fun e => e.1) = some 0) &&
  cal.all (fun e => decide (e.1 < cycle * 64 ∧ e.2 ≤ 2)) &&
  (!paced || (!wins.isEmpty && (gaps cycle (wins.map (fun w => w.1))).all (fun g => decide (g ≤ 64)) &&
    wins.all (fun w => decide (largest * 64 * s.totalLines * tl.2 ≤ w.2.1 * tl.1 * portRate s p * 1000000)))) &&
  slopesFit s p cycle cal

/-- A pending calendar is tested and copied at a Steeple frame start (R234). -/
def calendarCopy (s : State) (p : Nat) : State :=
  let t := s.toFrameStart
  if !(t.etm.calPend.contains p) || !t.running then s
  else
    let t := { t with etm := { t.etm with calPend := t.etm.calPend.filter (fun q => decide (q ≠ p)) } }
    if calendarOk t p then
      let t := { t with etm := { t.etm with
        cal := (List.range 16).foldl (fun m k => Store.put calReset m (16 * p + k) (t.reg (Reg.eportCal p k))) t.etm.cal
        cycle := Store.put (fun _ => 1) t.etm.cycle p (t.getF (Reg.eportCalCycle p) 8 0) } }
      (t.setBit (Reg.eportPstat p) 2 false).setF (Reg.eportPstat p) 31 16 0
    else ((t.setBit (Reg.eportPstat p) 2 true).setF (Reg.eportPstat p) 31 16 0x0505).evt Pg.etm 2

def execCalendarCopy (p : Fin 10) (s : State) : Out := .next (calendarCopy s p)

/-! ### Samples (R239) -/

/-- Rendition entries in order of node and rendition: pairs with an enabled flow copy under the node (R229). -/
def rents (s : State) : List (Nat × Nat) :=
  sortBy (fun a b => decide (a.1 < b.1 ∨ (a.1 = b.1 ∧ a.2 ≤ b.2)))
    ((enabledFlows s).flatMap (fun e => (flowNodes e.2).map (fun i => (i, flowRend e.2)))).eraseDups

/-- Depth of a queue and its copies. -/
def sampleOf (s : State) (level idx : Nat) : Nat × List Copy :=
  match level with
  | 0 => (flowDepth s idx, flowQueue s idx)
  | 1 => match (rents s)[idx]? with
    | some (i, r) => (rentDepth s i r, s.etm.queue.filter (fun c => decide (c.node = i ∧ c.rend = r) && !c.fwd))
    | none => (0, [])
  | 2 => (nodeDepth s idx, s.etm.queue.filter (fun c => decide (c.node = idx) && !c.fwd))
  | _ => (portDepth s idx, s.etm.queue.filter (fun c => decide (copyPort s c = idx)))

/-- The next Steeple line, counted from frame 0, that is a multiple of PERIOD. -/
def samplePos (s : State) : BitVec 64 :=
  let step := s.getF Reg.etmSampleCfg 15 0 * 262144
  s.posAdd s.stp.pos ((step - s.unitsOf s.stp.pos % max 1 step) % max 1 step)

/-- Every PERIOD lines the 64 slots record depth and head age; off while PERIOD is 0, and while Steeple stands (R458). -/
def sample (s : State) : State :=
  if !s.running || decide (s.getF Reg.etmSampleCfg 15 0 = 0) then s
  else
    let s := s.toPos (samplePos s)
    let t := (List.range 64).foldl (fun t k =>
      let q := sampleOf s (s.getF (Reg.etmSmpSel k) 1 0) (s.getF (Reg.etmSmpSel k) 21 2)
      let age := match q.2 with | c :: _ => unitsBetween s c.release s.stp.pos / 16384 | [] => 0
      t.setN (Reg.etmSmpVal k) (satTo 16 q.1 + satTo 16 age * 0x10000)) s
    t.evt Pg.etm 5

def execSample (s : State) : Out := .next (sample s)

/-! ### The indirect window (R240, R454) -/

/-- A table operation fails: ERR with a reason, EVT bit 4. -/
def etmErr (s : State) (code : Nat) : State := (s.setN Reg.etmTblStat (3 + code * 0x10000)).evt Pg.etm 4

/-- A context access may miss the on-die cache (R224). -/
def ctxMiss (s : State) : State :=
  let (i, t) := s.draw
  if Config.freeBit i then t.inc32 Reg.etmCtxMiss else t

/-- A flow context as read: with its state fields. -/
def flowRead (s : State) (f : Nat) : List Word :=
  let l := flowCtx s f
  ((l.set 13 (BitVec.ofNat 32 (flowNext s f))).set 14 (tag s.etm.flowTag (flowKey f (decide (fld (flowW l 8) 25 24 = 2)))))

/-- A rendition entry as read. The spec gives it no layout (notes/assumptions/22.md): word 0 [11:0] node, [24:16] rendition, [31]
VALID; word 1 start tag; words 2 and 3 the marks of depth and sojourn. -/
def rentRead (s : State) (i : Nat) : List Word :=
  match (rents s)[i]? with
  | some (n, r) =>
    let h := Store.get (fun _ => (0, 0)) s.etm.rentHwm (rentKey n r)
    [BitVec.ofNat 32 (n + r * 0x10000 + 0x80000000), tag s.etm.rentTag (rentKey n r), BitVec.ofNat 32 (satTo 32 h.1),
     BitVec.ofNat 32 (satTo 16 h.2)]
  | none => []

/-- Entries of a table. -/
def etmTableSize (table : Nat) : Nat :=
  match table with
  | 0 => 1048576 | 1 => 4096 | 2 => 8192 | 3 => 4096 | _ => 0

/-- An entry as the data registers show it. -/
def etmEntry (s : State) (table i : Nat) : List Word :=
  match table with
  | 0 => flowRead s i
  | 1 => (nodeEntry s i).set 3 0
  | 2 => rentRead s i
  | _ => hopEntry s i

/-- The operation of TBL_ADDR. -/
def etmOp (s : State) : Nat := s.getF Reg.etmTblAddr 29 28
def etmTable (s : State) : Nat := s.getF Reg.etmTblAddr 26 24
def etmIndex (s : State) : Nat := s.getF Reg.etmTblAddr 19 0

/-- Fill the data registers with an entry, or refuse an operation that TBL_ADDR cannot name. -/
def etmFill (s : State) : State :=
  if etmIndex s < etmTableSize (etmTable s) ∧ etmOp s ≠ 3 then
    let t := if etmTable s = 0 then ctxMiss s else s
    (t.putData (Reg.etmTblData 0) 16 (etmEntry t (etmTable s) (etmIndex s))).tblDone Reg.etmTblStat
  else etmErr s 0x0115

/-- GO with OP READ. -/
def etmTableRead (s : State) : State :=
  if !(s.answers Pg.etm) || decide (etmOp s = 1 ∨ etmOp s = 2) then s else etmFill s

def execEtmTableRead (s : State) : Out := .next (etmTableRead s)

/-- Clear the high-water marks of an entry (R239). -/
def clearMarks (s : State) (table i : Nat) : State :=
  match table with
  | 0 => let l := flowCtx s i; setFlowCtx s i (l.set 15 (setFld (flowW l 15) 27 0 0))
  | 1 => setNodeWord (setNodeWord s i 6 0) i 7 0
  | 2 => match (rents s)[i]? with
    | some (n, r) => { s with etm := { s.etm with rentHwm := Store.put (fun _ => (0, 0)) s.etm.rentHwm (rentKey n r) (0, 0) } }
    | none => s
  | _ => s

/-- GO with OP READ_CLR. -/
def etmTableReadClr (s : State) : State :=
  if !(s.answers Pg.etm) || decide (etmOp s ≠ 2) then s
  else if etmIndex s < etmTableSize (etmTable s) then clearMarks (etmFill s) (etmTable s) (etmIndex s) else etmErr s 0x0115

def execEtmTableReadClr (s : State) : Out := .next (etmTableReadClr s)

/-- The fields that a write may not change while EN is 1: PATHS, REND, NODE_A and NODE_B (R240). -/
def boundFields (l : List Word) : List Nat := [fld (flowW l 8) 25 24, flowRend l, flowNode l false, flowNode l true]

/-- Write a flow context (R226, R227, R236, R240). -/
def writeFlow (s : State) (f : Nat) (l : List Word) : State :=
  let old := flowCtx s f
  let new := l.take 13 ++ [0, 0, flowW old 15]
  let t := setFlowCtx s f new
  let r := flowRend new
  let done (t : State) : State := (showFlows t r).tblDone Reg.etmTblStat
  if flowEn old && decide (boundFields old ≠ boundFields new) then etmErr s 0x0801
  else if flowEn new && !(flowEn old) then
    if !(flowOk s new) then etmErr s 0x010F
    else if (leadOf t r).isNone then etmErr s 0x0110
    else if !(admits t (flowNodes new)) then etmErr s 0x0402
    else done { t with etm := { t.etm with leaving := t.etm.leaving.filter (fun g => decide (g ≠ f)) } }
  else if flowEn old && !(flowEn new) then
    if !(flowsOf t r).isEmpty && (leadOf t r).isNone then etmErr s 0x0110
    else done { t with etm := { t.etm with leaving := t.etm.leaving ++ [f] } }
  else if flowEn new && !(admits t (flowNodes new)) then etmErr s 0x0402
  else done t

/-- Write a node entry: the RW words, with CREDIT_CLEAR (R231, R236). -/
def writeNode (s : State) (i : Nat) (l : List Word) : State :=
  let s := updateCredits s
  let old := nodeEntry s i
  let new := [l.getD 0 0 &&& 0x80FF010F, l.getD 1 0, l.getD 2 0 &&& 0x00FFFFFF, 0] ++ old.drop 4
  let t := setNodeEntry s i new
  if !(admits t [i]) then etmErr s 0x0402
  else
    let t := if (l.getD 3 0).getLsbD 0 then
        if later (Store.get (fun _ => 0) t.etm.busy (nodePort t i)) t.stp.pos then
          { t with etm := { t.etm with clears := t.etm.clears ++ [i] } }
        else setNodeWord t i 4 0
      else t
    let rs := (((enabledFlows t).filter (fun e => (flowNodes e.2).contains i)).map (fun e => flowRend e.2)).eraseDups
    (rs.foldl showFlows (showPaced t)).tblDone Reg.etmTblStat

/-- GO with OP WRITE. A rendition entry holds state alone, so a write of it changes nothing. -/
def etmTableWrite (s : State) : State :=
  if !(s.answers Pg.etm) || decide (etmOp s ≠ 1) then s
  else if etmTableSize (etmTable s) ≤ etmIndex s then etmErr s 0x0115
  else
    let l := s.getData (Reg.etmTblData 0) 16
    match etmTable s with
    | 0 => writeFlow (ctxMiss s) (etmIndex s) l
    | 1 => writeNode s (etmIndex s) l
    | 2 => s.tblDone Reg.etmTblStat
    | _ => ({ s with etm := { s.etm with hops := Store.put (fun _ => words8) s.etm.hops (etmIndex s) (l.take 8) } } : State).tblDone
        Reg.etmTblStat

def execEtmTableWrite (s : State) : Out := .next (etmTableWrite s)

end Sys2Proof.Machine
end

