-- ==== Sys2Proof/Machine/Audio.lean ====
section
/-! DEFINITION. Audio (11_audio.md): the sample grid, sources and their FIFOs, stamps, AES3 outputs, ST 302M and AES67
streams, the AUD window, and CLP packets, whose audio arrives here. -/

namespace Sys2Proof.Machine

open State

/-! ### Sources -/

/-- Key of a source by KIND, UNIT and SUB (Table 11-1). -/
def srcId (kind unit sub : Nat) : Nat := kind * 65536 + unit * 64 + sub

def asrc (s : State) (k : Nat) : ASrc := Store.get (fun _ => ASrc.init) s.aud.srcs k
def setAsrc (s : State) (k : Nat) (x : ASrc) : State :=
  { s with aud := { s.aud with srcs := Store.put (fun _ => ASrc.init) s.aud.srcs k x } }
def ain (s : State) (i : Nat) : AIn := Store.get (fun _ => AIn.init) s.aud.ins i
def setAin (s : State) (i : Nat) (x : AIn) : State :=
  { s with aud := { s.aud with ins := Store.put (fun _ => AIn.init) s.aud.ins i x } }

/-- Silence, marked invalid. -/
def silent (stamp : Int) : ASample := ⟨0, false, false, stamp⟩

/-- A FIFO centred at 32 frames (R260, Table 11-5). -/
def recentre (x : ASrc) : ASrc := { x with fifo := List.replicate 32 (silent 0), under := false }

/-- Sources that the slot table binds. -/
def boundSrcs (s : State) : List Nat :=
  ((s.aud.slots.map (fun e => e.2)).filter (fun w => decide (slotKind w ≠ 0))).map (fun w => srcId (slotKind w) (slotUnit w) (slotSub w))

/-- MASTER mode and its master input (R260). -/
def masterMode (s : State) : Bool := s.bit Reg.audCfg 1
def masterInput (s : State) : Nat := s.getF Reg.audCfg 11 8

/-- A sample joins a FIFO of 64 frames. Which sample a full FIFO loses is free (notes/assumptions/5.md). -/
def pushSample (s : State) (k : Nat) (v : BitVec 24) (valid u : Bool) (stamp : Int) : State :=
  let x := asrc s k
  if x.fifo.length < 64 then setAsrc s k { x with fifo := x.fifo ++ [⟨v, valid, u, stamp⟩] }
  else
    let (i, t) := s.draw
    if Config.freeBit i then setAsrc t k { x with fifo := x.fifo.drop 1 ++ [⟨v, valid, u, stamp⟩] } else t

/-- The FIFO drops or repeats its newest frame (R269). -/
def slipFifo (drop : Bool) (x : ASrc) : ASrc :=
  if drop then { x with fifo := x.fifo.dropLast }
  else { x with fifo := x.fifo ++ (match x.fifo.getLast? with | some y => [y] | none => []) }

/-- The slip that a FIFO level calls for at a block boundary (R269): some true to drop a frame, some false to repeat one. -/
def slipDue (level : Nat) : Option Bool :=
  if 40 ≤ level then some true else if level ≤ 24 then some false else none

/-! ### The PLL and its master (R260, R270) -/

def setPllSt (s : State) (v : Nat) : State := s.setF Reg.audPllStat 1 0 v

/-- The master is lost: the loop holds (R270). -/
def masterLost (s : State) : State :=
  let t := { s with aud := { s.aud with lost := true } }
  ((setPllSt t 2).evt Pg.aud 0).raise 0x6002 Pg.aud (masterInput s) 0

/-- The master has returned (R270). -/
def masterBack (s : State) : State :=
  (setPllSt { s with aud := { s.aud with lost := false } } 1).evt Pg.aud 1

/-- LOOP_BW (R260). -/
def loopBw (s : State) : Nat := s.getF Reg.audCfg 19 16

/-- Steering of the PLL for a FIFO error and an integral part, in 1/16 ppm within ±1,000 ppm (R260). -/
def steering (bw : Nat) (err integ : Int) : Int := max (-16000) (min 16000 ((integ + (Config.loopGains bw).1 * err) / 65536))

/-- A step of the steering loop at a Z of the master, by its FIFO level less 32 (R260). -/
def steerLoop (s : State) (level : Nat) : State :=
  let err : Int := (level : Int) - 32
  let integ := s.aud.integ + (Config.loopGains (loopBw s)).2 * err
  ({ s with aud := { s.aud with integ := integ } } : State).setF Reg.audPllStat 31 16 (satInt 16 (steering (loopBw s) err integ))

/-- ENABLE 0→1 on the AUD page: every value of CFG is defined (R449), so the check passes and the grid starts. -/
def audEnable (s : State) : State :=
  if !(s.answers Pg.aud) || s.enabled Pg.aud then s
  else
    let t := (s.activate Pg.aud).setN Reg.audPllStat (if masterMode s then 1 else 0)
    { t with aud := { t.aud with grid := s.ptpTime s.stp.pos s.audFs, grids := [], srcs := [], ins := [], seqs := [], pes := [], pkts := []
                                 integ := 0, lost := false } }

def execAudEnable (s : State) : Out := .next (audEnable s)

/-- ENABLE 1→0 on the AUD page: the grid stops. -/
def audDisable (s : State) : State :=
  let t := (s.deactivate Pg.aud).setReg Reg.audPllStat 0
  { t with aud := { t.aud with grids := [], srcs := [], ins := [], seqs := [], pes := [], pkts := [], lost := false } }

/-- The master shows no transition for 4 frame times (R270); its input loses block sync. -/
def audioMasterLost (s : State) : State :=
  if !(s.enabled Pg.aud) || !(masterMode s) || s.aud.lost then s
  else
    let i := masterInput s
    let t := setAin s i { ain s i with lock := false, seenZ := false }
    masterLost (t.setBit (Reg.audInStat i) 0 false)

def execAudioMasterLost (s : State) : Out := .next (audioMasterLost s)

/-! ### AES3 inputs (R262 to R264, R268, R269) -/

/-- Keys of the two sub-frames of an input. -/
def aesA (i : Nat) : Nat := srcId 1 i 0
def aesB (i : Nat) : Nat := srcId 1 i 1

/-- Block sync is lost at a glitch (R263). -/
def aesGlitch (s : State) (i : Nat) : State :=
  let t := setAin s i { ain s i with lock := false, seenZ := false }
  ((t.setBit (Reg.audInStat i) 0 false).inc32 (Reg.audInGlitches i)).evt Pg.aud 4

/-- The input's samples are used (R263, R268). -/
def aesOn (x : AIn) : Bool := x.lock && !x.rateBad

/-- The input never slips: it is the master, or lies in SYNC_MASK (R269). -/
def noSlip (s : State) (i : Nat) : Bool := s.bit Reg.audSyncMask i || (masterMode s && decide (masterInput s = i))

/-- A block boundary of an input whose samples are used: an underrun sub-frame rejoins, and the input may slip. -/
def aesBoundary (s : State) (i : Nat) : State :=
  let a := asrc s (aesA i)
  let b := asrc s (aesB i)
  let slip := if noSlip s i then none else if a.under ∧ b.under then none else slipDue (if a.under then b.fifo.length else a.fifo.length)
  let f (x : ASrc) : ASrc := if x.under then recentre x else match slip with | some d => slipFifo d x | none => x
  let t := setAsrc (setAsrc s (aesA i) (f a)) (aesB i) (f b)
  if slip.isSome then (t.inc32 (Reg.audInSlips i)).evt Pg.aud 3 else t

/-- A Z preamble at the right place or the first of a block: sync, rate, slips and the master's loop. -/
def aesZ (s : State) (i : Nat) (ends bad : Bool) : State :=
  let x := ain s i
  let y : AIn := ⟨x.lock || ends, true, 0, x.rateBad && !(ends && x.clean && !bad), !bad⟩
  let t := ((setAin s i y).setBit (Reg.audInStat i) 0 y.lock).setBit (Reg.audInStat i) 1 y.rateBad
  let t := if aesOn y && !(aesOn x) then
      let t := setAsrc (setAsrc t (aesA i) (recentre (asrc t (aesA i)))) (aesB i) (recentre (asrc t (aesB i)))
      if masterMode t && decide (masterInput t = i) && t.aud.lost then masterBack t else t
    else if aesOn y then aesBoundary t i else t
  if masterMode t && decide (masterInput t = i) && aesOn y && !t.aud.lost then steerLoop t (asrc t (aesA i)).fifo.length else t

/-- The rate measured over 64 frames (R268). -/
def aesRate (s : State) (i : Nat) (ppm : Int) : State :=
  let x := ain s i
  let bad := decide (1000 < ppm.natAbs)
  let t := s.setF (Reg.audInStat i) 31 16 (satInt 16 ppm)
  if bad then
    let t := setAin t i { x with rateBad := true, clean := false }
    if x.rateBad then t
    else
      let t := (t.setBit (Reg.audInStat i) 1 true).evt Pg.aud 2
      if masterMode t && decide (masterInput t = i) && !t.aud.lost then masterLost t else t
  else t

/-- Bits of a channel-status or user block as bytes, bit 0 first. -/
def blockBytes (l : List Bool) : List (BitVec 8) :=
  (chunks 8 l.length l).map (fun c => BitVec.ofNat 8 ((c.zip (List.range 8)).foldl (fun n e => n + if e.1 then 2 ^ e.2 else 0) 0))

/-- A channel-status block is complete (R264). -/
def statusBlock (s : State) (i sub : Nat) (l : List Bool) : State :=
  let b := blockBytes l
  let pro := l.headD false
  if pro && decide (crcAes3 ((b.take 23).map BitVec.toNat) ≠ (b.getD 23 0).toNat) then (s.inc32 (Reg.audInCsErr i)).evt Pg.aud 5
  else
    let k := srcId 1 i sub
    (setAsrc s k { asrc s k with csGood := b }).setBit (Reg.audInStat i) (2 + sub) pro

/-- C and U bits of one sub-frame; `z`: the first of its block. -/
def statusBits (s : State) (i sub : Nat) (z u c : Bool) : State :=
  let k := srcId 1 i sub
  let x := asrc s k
  let cs := if z then [c] else if x.cs.length < 192 then x.cs ++ [c] else x.cs
  let us := if z then [u] else if x.ubits.length < 192 then x.ubits ++ [u] else x.ubits
  let t := setAsrc s k { x with cs := cs, ubits := us }
  if cs.length = 192 ∧ (z ∨ x.cs.length < 192) then statusBlock t i sub cs else t

/-- The sample of a sub-frame enters its FIFO (R262). -/
def aesSample (s : State) (i sub : Nat) (sample : BitVec 24) (v u parityOk : Bool) : State :=
  let k := srcId 1 i sub
  let val := if parityOk then sample else (asrc s k).lastV
  let t := if parityOk then s else s.inc32 (Reg.audInParity i)
  let t := setAsrc t k { asrc t k with lastV := val }
  if aesOn (ain t i) && !(asrc t k).under then pushSample t k val (parityOk && !v) u 0 else t

/-- Parity over bits 4 to 31 of a sub-frame is even (R262). -/
def aesParity (w : BitVec 28) : Bool := decide (((List.range 28).filter (fun k => w.getLsbD k)).length % 2 = 0)

/-- One sub-frame of an AES3 input (R262 to R264): bits 4 to 27 are the sample, 28 to 31 V, U, C and parity. -/
def aes3Subframe (s : State) (i : Nat) (pre : AesPreamble) (w : BitVec 28) (violation : Bool) (ppm : Int) : State :=
  let sample := w.setWidth 24
  let v := w.getLsbD 24
  let u := w.getLsbD 25
  let c := w.getLsbD 26
  let parityOk := aesParity w
  let z := decide (pre = .z)
  if !(s.enabled Pg.aud) then s
  else if violation || decide (pre = .missing) then aesGlitch s i
  else if pre = .y then statusBits (aesSample s i 1 sample v u parityOk) i 1 (decide ((ain s i).sinceZ = 0) && (ain s i).seenZ) u c
  else
    let t := aesRate s i ppm
    let x := ain t i
    let n := x.sinceZ + 1
    if z && x.lock && decide (n ≠ 192) then aesGlitch t i
    else
      let t := if z then aesZ t i (x.seenZ && decide (n = 192)) (decide (1000 < ppm.natAbs)) else setAin t i { x with sinceZ := min n 65535 }
      statusBits (aesSample t i 0 sample v u parityOk) i 0 z u c

def execAes3Subframe (i : Fin 16) (pre : AesPreamble) (bits : BitVec 28) (violation : Bool) (ppm : Int) (s : State) : Out :=
  .next (aes3Subframe s i pre bits violation ppm)

/-! ### PDM, CLP and network audio (R201, R265 to R268) -/

/-- The gain step of a microphone (Table 11-3). -/
def pdmGain (s : State) (m : Nat) : Nat := s.getF Reg.audPdmGain (4 * m + 2) (4 * m)

/-- A microphone's decimator after 64 more bits (R265). -/
def pdmFilter (s : State) (m : Nat) (bits : BitVec 64) : Nat := Config.pdmStep (s.bit Reg.audPdmCfg 8) (asrc s (srcId 2 m 0)).filt bits

/-- The decimator delivers a sample of an enabled microphone, stamped 40 instants before its delivery (R265, R267). -/
def pdmSample (s : State) (m : Nat) (bits : BitVec 64) : State :=
  let k := srcId 2 m 0
  if s.enabled Pg.aud && s.bit Reg.audPdmCfg m && (boundSrcs s).contains k then
    let t := setAsrc s k { asrc s k with filt := pdmFilter s m bits }
    pushSample t k (Config.pdmOut (pdmGain s m) (pdmFilter s m bits)) true false ((s.aud.grid : Int) - 40)
  else s

def execPdmSample (m : Fin 8) (bits : BitVec 64) (s : State) : Out := .next (pdmSample s m bits)

/-- One sample frame of a CLP input's audio: `ws` has a word for each channel (R201). -/
def clpAudioFrame (s : State) (i : Nat) (bad : Bool) (ws : List Word) : State :=
  let x := ain s (16 + i)
  let z := ws.any (fun w => w.getLsbD 28)
  let keys := ((List.range ws.length).map (fun c => (c, srcId 3 i c))).filter (fun e => (boundSrcs s).contains e.2)
  let y : AIn := { x with rateBad := bad || (x.rateBad && !(z && x.seenZ && x.clean)), clean := !bad && (z || x.clean)
                          seenZ := (x.seenZ || z) && !bad }
  let t := setAin s (16 + i) y
  let t := if y.rateBad && !x.rateBad then t.evt Pg.aud 2 else t
  let t := if z && !y.rateBad then
      let level := (keys.map (fun e => asrc t e.2)).find? (fun a => !a.under)
      let slip := if x.rateBad then none else (level.map (fun a => slipDue a.fifo.length)).join
      let t := keys.foldl (fun t e =>
        let a := asrc t e.2
        setAsrc t e.2 (if a.under || x.rateBad then recentre a else match slip with | some d => slipFifo d a | none => a)) t
      if slip.isSome then t.evt Pg.aud 3 else t
    else t
  if y.rateBad then t
  else keys.foldl (fun t e =>
    let w := ws.getD e.1 0
    if (asrc t e.2).under then t else pushSample t e.2 (w.setWidth 24) (!(w.getLsbD 24)) (w.getLsbD 25) 0) t

/-- A CLP audio packet (R201): FRAMES × (CHANS + 1) words; a RATE other than CFG.FS is RATE_BAD (R268). -/
def audioPacket (s : State) (i : Nat) (word : Word) (samples : List Nat) : State :=
  if !(s.enabled Pg.aud) || !(inReceives s i) then s
  else
    let chans := fld word 11 8 + 1
    let ok := decide (fld word 13 12 = s.getF Reg.audCfg 0 0)
    ((chunks chans samples.length samples).take (fld word 7 0)).foldl
      (fun t f => clpAudioFrame t i (!ok) (f.map (BitVec.ofNat 32))) s

def execAudioPacket (i : Fin 128) (word : BitVec 32) (samples : List (BitVec 32)) (s : State) : Out :=
  .next (audioPacket s i word (samples.map BitVec.toNat))

/-- A network-flow entry (notes/assumptions/22.md): word 0 [1:0] PATHS, [2] IPv6, [9:3] channels; words 1 to 4 the address; word
5 [15:0] UDP port; word 6 TS_OFFSET, signed. -/
def audFlow (s : State) (f : Nat) : List Word := Store.get (fun _ => words8) s.aud.flows f

/-- PTP time of the present position in samples less the grid's number: 0 in STEEPLE mode, the drift of the PLL in MASTER mode. -/
def gridDrift (s : State) : Int :=
  if masterMode s then (s.ptpTime s.stp.pos s.audFs : Int) - s.aud.grid else 0

/-- The grid instant that an RTP timestamp names, nearest the present instant modulo 2^32 (R267). -/
def rtpInstant (s : State) (rtp : BitVec 32) (ofs : Word) : Int :=
  let now : Int := (s.aud.grid : Int) + gridDrift s
  now + (rtp - ofs - BitVec.ofInt 32 now).toInt - gridDrift s

/-- A channel's tracks carry audio: from its first frame to its last (R272). -/
def audioOn (s : State) (n : Nat) : Bool :=
  let ch := s.chan n
  ch.place.isSome && (ch.running || ch.endPos.isSome)

/-- A stamp at position `p` lies within the channel's frames. -/
def audioAt (s : State) (n : Nat) (p : BitVec 64) : Bool :=
  let ch := s.chan n
  audioOn s n &&
    (decide (ch.seqNo ≠ 1 ∨ 128 < ch.frame) || (match ch.starts.getLast? with | some f => !(later (State.posOf f 0) p) | none => false)) &&
    (ch.running || later (State.posOf (ch.startFr + BitVec.ofNat 32 (s.cfgOf n).div) 0) p)

/-- Channels that have a track on a slot of a source. -/
def usersOf (s : State) (k : Nat) : List Nat :=
  ((s.chans.map (fun e => e.1)).filter (fun n => audioOn s n && (List.range 16).any (fun t =>
    match trackSlot s n t with
    | some i => let w := slotWord s i; decide (srcId (slotKind w) (slotUnit w) (slotSub w) = k)
    | none => false)))

/-- The output instant of a stamp has passed in every channel that uses the source (R271). -/
def lateFor (s : State) (k : Nat) (q : Int) : Bool :=
  let l := usersOf s k
  !l.isEmpty && l.all (fun n => decide (q + s.dSamples (s.cfgOf n) ≤ s.aud.grid))

/-- One network sample is stamped and kept, or is late. -/
def networkSample (s : State) (k : Nat) (v : BitVec 24) (q : Int) : State :=
  if lateFor s k q then (s.inc32 Reg.audLate).evt Pg.aud 7
  else setAsrc s k { asrc s k with delay := ⟨v, true, false, q⟩ :: (asrc s k).delay.filter (fun a => decide (a.stamp ≠ q)) }

/-- Bytes of a sample in a payload of `len` bytes: L24 or L16 in packets of 1 ms or 125 µs (R266). -/
def audioWidth (fs chans len : Nat) : Option Nat :=
  [3, 2].find? (fun b => decide (len = fs / 1000 * chans * b ∨ len = fs / 8000 * chans * b))

/-- Samples of a payload, the most significant byte first; an L16 sample lies at the top of its 24 bits. -/
def audioSamples (b : Nat) (payload : List (BitVec 8)) : List (BitVec 24) :=
  (chunks b payload.length payload).map (fun l => BitVec.ofNat 24 (leVal (l.map BitVec.toNat).reverse * 2 ^ (24 - 8 * b)))

/-- An AES67 or ST 2110-30 packet: the first copy of a sequence number is used (R208, R266). -/
def networkAudioPacket (s : State) (f : Nat) (pathB : Bool) (seq : BitVec 16) (rtp : BitVec 32) (payload : List (BitVec 8)) : State :=
  let e := audFlow s f
  let chans := fld (e.getD 0 0) 9 3
  let width := audioWidth s.audFs chans payload.length
  let samples := audioSamples (width.getD 3) payload
  let seen := Store.get (fun _ => ([] : List (BitVec 16))) s.aud.seqs f
  if !(s.enabled Pg.aud) || !((e.getD 0 0).getLsbD (if pathB then 1 else 0)) || decide (chans = 0 ∨ width = none) || seen.contains seq then s
  else
    let t := { s with aud := { s.aud with seqs := Store.put (fun _ => ([] : List (BitVec 16))) s.aud.seqs f ((seq :: seen).take 4096) } }
    let q0 := rtpInstant s rtp (e.getD 6 0)
    let frames := chunks chans samples.length samples
    (frames.zip (List.range frames.length)).foldl (fun t fr =>
      ((List.range chans).filter (fun c => (boundSrcs s).contains (srcId 4 f c))).foldl
        (fun t c => networkSample t (srcId 4 f c) (fr.1.getD c 0) (q0 + fr.2)) t) t

def execNetworkAudioPacket (flow : Fin 256) (pathB : Bool) (seq : BitVec 16) (rtp : BitVec 32) (payload : List (BitVec 8)) (s : State) : Out :=
  .next (networkAudioPacket s flow pathB seq rtp payload)

/-! ### The grid (R260, R267, R271, R273) -/

/-- Number of the next grid instant in STEEPLE mode: the first whose PTP time is not before the present position. -/
def nextInstant (s : State) : Nat :=
  let (n, d) := s.framePeriod
  max (s.aud.grid + 1) (ceilDiv ((s.ptpMap * s.frameUnits + s.unitsOf s.stp.pos) * n * s.audFs) (s.frameUnits * d))

/-- Position of grid instant `k` in STEEPLE mode. -/
def instantUnits (s : State) (k : Nat) : Nat :=
  let (n, d) := s.framePeriod
  ceilDiv (k * s.frameUnits * d) (s.audFs * n) - s.ptpMap * s.frameUnits
def instantAt (s : State) (k : Nat) : BitVec 64 := s.posAdd 0 (instantUnits s k)

/-- The position at which a past grid instant fell. -/
def instantPos (s : State) (q : Int) : Option (BitVec 64) := (s.aud.grids.find? (fun e => decide ((e.1 : Int) = q))).map (fun e => e.2)

/-- Samples and instants kept: the longest D and two of the longest channel frames. -/
def audKeep (s : State) : Nat :=
  (s.chans.map (fun e => match e.2.place with | some pl => s.dSamples pl.cfg | none => 0)).foldl max 0 + 20000

/-- A source's samples are used at the read (R263, R268, R270, R271). -/
def srcUsed (s : State) (k : Nat) : Bool :=
  let i := k % 65536 / 64
  match k / 65536 with
  | 1 => aesOn (ain s i) && !(masterMode s && s.aud.lost && (decide (masterInput s = i) || s.bit Reg.audSyncMask i))
  | 3 => !(ain s (16 + i)).rateBad
  | _ => true

/-- A stamped sample goes on its way. -/
def keepSample (s : State) (k : Nat) (x : ASrc) (a : ASample) : State :=
  setAsrc s k { x with delay := (a :: x.delay).filter (fun b => decide ((s.aud.grid : Int) ≤ b.stamp + audKeep s)) }

/-- One source is read at the grid. -/
def readSource (s : State) (k : Nat) : State :=
  let x := asrc s k
  let i := k % 65536 / 64
  let kind := k / 65536
  if kind = 4 then
    if x.under ∧ x.underFr ≠ s.frame then setAsrc s k { x with under := false } else s
  else if kind = 2 then
    match x.fifo with
    | a :: l => keepSample s k { x with fifo := l } a
    | [] => s
  else
    let q : Int := (s.aud.grid : Int) - 32 - (if kind = 1 then (s.reg (Reg.audInAdj i)).toInt else 0)
    if !(srcUsed s k) || x.under then keepSample s k x (silent q)
    else match x.fifo with
      | a :: l => keepSample s k { x with fifo := l } { a with stamp := q }
      | [] =>
        let t := keepSample s k { x with under := true, underFr := s.frame } (silent q)
        (if kind = 1 then t.inc32 (Reg.audInUnderruns i) else t).evt Pg.aud 6

/-- Stamps whose output instant in a channel is the present grid instant, the latest first (R273). -/
def dueStamps (s : State) (n : Nat) : List Nat :=
  let D := delayUnits (s.cfgOf n)
  match s.aud.grids with
  | _ :: (_, prev) :: _ =>
    (s.aud.grids.filter (fun e => let x := s.posAdd e.2 D; !(later x s.stp.pos) && later x prev && audioAt s n e.2)).map (fun e => e.1)
  | _ => []

/-- The sample of a slot with a stamp; silence where there is none. -/
def slotSample (s : State) (i : Nat) (q : Nat) : ASample :=
  let w := slotWord s i
  let x := asrc s (srcId (slotKind w) (slotUnit w) (slotSub w))
  if slotKind w = 4 ∧ x.under then silent q else (x.delay.find? (fun a => decide (a.stamp = (q : Int)))).getD (silent q)

/-- The sample of a channel's track with a stamp. -/
def trackSample (s : State) (n t q : Nat) : ASample :=
  match trackSlot s n t with
  | some i => slotSample s i q
  | none => silent q

/-- A network sample that has not arrived by the time a channel needs it: its source has underrun (R271). -/
def networkUnder (s : State) (k : Nat) : State :=
  let x := asrc s k
  let missing := (usersOf s k).any (fun n => (dueStamps s n).any (fun q => !(x.delay.any (fun a => decide (a.stamp = q)))))
  if !x.under && missing then (setAsrc s k { x with under := true, underFr := s.frame }).evt Pg.aud 6 else s

def aout (s : State) (o : Nat) : AOut := Store.get (fun _ => AOut.init) s.aud.outs o
def setAout (s : State) (o : Nat) (x : AOut) : State :=
  { s with aud := { s.aud with outs := Store.put (fun _ => AOut.init) s.aud.outs o x } }

/-- Bit `f` of the professional channel status that an output sends, byte 23 being its CRC. -/
def statusBit (s : State) (f : Nat) : Bool :=
  let b := (List.range 23).map (fun k => (if k = 0 then 1 else 0) ||| (Config.aesStatus s.audFs k % 256))
  ((b ++ [crcAes3 b]).getD (f / 8) 0).testBit (f % 8)

/-- USER_PASS copies the U bits of AES3 and CLP audio (R273). -/
def passesU (s : State) (n t : Nat) : Bool :=
  match trackSlot s n t with
  | some i => let k := slotKind (slotWord s i); decide (k = 1 ∨ k = 3)
  | none => false

/-- An AES3 output at a grid instant (R273, R387, R407). -/
def aesOutput (s : State) (o : Nat) : State :=
  let x := aout s o
  let z := decide (x.frame = 0)
  let cfg := if z then x.next.getD x.cfg else x.cfg
  let y : AOut := { x with cfg := cfg, next := if z then none else x.next, frame := (x.frame + 1) % 192, repeatLast := x.repeatLast && !z }
  if !(cfg.getLsbD 16) || !s.hasRole then setAout s o y
  else
    let c := statusBit s x.frame
    let send (a b : ASample) (u : Bool) : State :=
      let t := setAout s o { y with lastA := a.v, lastB := b.v }
      { t with sent := .aes3 o a.v b.v a.valid b.valid u c z :: t.sent }
    if y.repeatLast then send ⟨x.lastA, false, false, 0⟩ ⟨x.lastB, false, false, 0⟩ false
    else
      let n := fld cfg 6 0
      let t0 := fld cfg 11 8
      match dueStamps s n with
      | q :: _ =>
        let a := trackSample s n t0 q
        send a (trackSample s n (t0 + 1) q) (cfg.getLsbD 17 && passesU s n t0 && a.u)
      | [] => send (silent 0) (silent 0) false

/-- A grid instant: it is stamped, the FIFOs are read, due samples go out. -/
def atInstant (s : State) (k : Nat) : State :=
  let t := { s with aud := { s.aud with grid := k, grids := ((k, s.stp.pos) :: s.aud.grids).take (audKeep s) } }
  let keys := (t.aud.srcs.map (fun e => e.1) ++ boundSrcs t).eraseDups
  let t := keys.foldl readSource t
  let t := (keys.filter (fun k => decide (k / 65536 = 4))).foldl networkUnder t
  (t.aud.outs.map (fun e => e.1)).foldl aesOutput t

/-- In STEEPLE mode the instant falls at its PTP time; in MASTER mode it falls at the present position. -/
def gridInstant (s : State) : State :=
  if !(s.enabled Pg.aud) then s
  else if masterMode s then atInstant s (s.aud.grid + 1)
  else if s.running then
    let k := nextInstant s
    atInstant (s.toPos (instantAt s k)) k
  else s

def execGridInstant (s : State) : Out := .next (gridInstant s)

/-- OUT_o is written; it takes effect at the output's next Z. -/
def outputConfig (s : State) (o : Nat) (w : Word) : State :=
  if s.answers Pg.aud then
    let v := w &&& 0x00030F7F
    setAout (s.setReg (Reg.audOutCfg o) v) o { aout s o with next := some v }
  else s

def execOutputConfigApply (o : Fin 16) (w : BitVec 32) (s : State) : Out := .next (outputConfig s o w)

/-! ### ST 302M and AES67 (R274, R275) -/

/-- Instants of a span of positions, oldest first. -/
def instantsIn (s : State) (a b : BitVec 64) : List (Nat × BitVec 64) :=
  (s.aud.grids.filter (fun e => !(later a e.2) && later b e.2)).reverse

/-- Samples of consecutive tracks at instants, interleaved. -/
def trackBlock (s : State) (n first count : Nat) (l : List (Nat × BitVec 64)) : List (BitVec 24) :=
  l.flatMap (fun e => (List.range count).map (fun t =>
    let a := trackSample s n (first + t) e.1
    if a.valid then a.v else 0))

/-- The bytes of a PES: its header and what ST 302M makes of the samples of pairs of tracks. PRESUMED (ST 302M): 4 bytes of header
and 7 bytes for each pair of 24-bit samples (notes/assumptions/27.md). -/
def pesBytes (pts : Nat) (smp : List (BitVec 24)) : List Nat :=
  let n := 4 + 7 * (smp.length / 2)
  audioPesHead pts n ++ (List.range n).map (fun i => (Config.s302Byte smp i).toNat)

/-- Payload units of at most seven TS packets each (Table 9-1). Fuel: one payload unit at a time. -/
def sevens : Nat → List (List Nat) → List (List Nat)
  | 0, _ => []
  | f + 1, l => if l.isEmpty then [] else (l.take 7).flatten :: sevens f (l.drop 7)

/-- The PES of stream `k` in the transport stream of rendition `r`, released at the present position (R274). -/
def pesInto (s : State) (n k : Nat) (f : BitVec 32) (ofs : Nat) (smp : List (BitVec 24)) (r : Nat) : State :=
  let key := 4 * (4 * n + r) + k
  let cc := Store.get (fun _ => 0) s.aud.pesCc key
  let bytes := pesBytes ((Config.pts (4 * n + r) (s.frameTime f 90000) false + ofs) % 2 ^ 33) smp
  let v := videoPackets (s.getF (Reg.chaudS302 n k) 28 16) none true bytes.length cc bytes
  (sevens bytes.length v.1).foldl (fun t p => payloadRelease t n r
    { payload := p.map (BitVec.ofNat 8), e := s.stp.pos, frame := f, don := 0, marker := false, emerg := false, firstOfUnit := false
      firstOfAu := false, slices := [] }) { s with aud := { s.aud with pesCc := Store.put (fun _ => 0) s.aud.pesCc key v.2.1 } }

/-- FORMAT 2 renditions of a channel. -/
def tsRends (s : State) (n : Nat) : List Nat := ((s.cfgOf n).rends.filter (fun r => decide (fld r.format 1 0 = 2))).map (fun r => r.r)

/-- The PES of the next channel frame of stream `k`, once its samples are known. -/
def pesRelease (s : State) (n k : Nat) : State :=
  let w := s.reg (Reg.chaudS302 n k)
  let done := Store.get (fun _ => 0) s.aud.pes (4 * n + k)
  let next := (s.chan n).starts.reverse.find? (fun f => decide (done = 0 ∨ 0 < (f - BitVec.ofNat 32 (done - 1)).toInt))
  match next with
  | none => s
  | some f =>
    let c := s.cfgOf n
    let a := State.posOf f 0
    let b := State.posOf (f + BitVec.ofNat 32 c.div) 0
    let l := instantsIn s a b
    if !(s.enabled Pg.aud) || !(w.getLsbD 0) || !(audioOn s n) || !(s.aud.grids.any (fun e => !(later b e.2))) then s
    else match l.head?, l.getLast? with
      | some first, some last =>
        let t := s.toPos (s.posAdd last.2 (delayUnits c))
        let (p, d) := s.framePeriod
        let den := s.frameUnits * d
        let ofs := (2 * unitsBetween s a first.2 * p * 90000 + den) / (2 * den)
        let smp := trackBlock t n (fld w 7 4) (2 * (fld w 2 1 + 1)) l
        let t := (tsRends s n).foldl (fun t r => pesInto t n k f ofs smp r) t
        { t with aud := { t.aud with pes := Store.put (fun _ => 0) t.aud.pes (4 * n + k) (f.toNat + 1) }, sent := .pes n k ofs smp :: t.sent }
      | _, _ => s

def execS302mPesRelease (n : Fin 128) (k : Fin 4) (s : State) : Out := .next (pesRelease s n k)

/-- RTP timestamp of a stamp (R275). -/
def rtpOf (s : State) (e : Nat × BitVec 64) : BitVec 32 :=
  BitVec.ofNat 32 (if masterMode s then s.ptpTime e.2 s.audFs else e.1)

/-- The next packet of an AES67 stream, once its last stamp has come. -/
def aes67Release (s : State) (n k : Nat) : State :=
  let w := s.reg (Reg.chaudAesCtrl n k)
  let spp := s.audFs / (if w.getLsbD 1 then 8000 else 1000)
  let next := Store.get (fun _ => 0) s.aud.pkts (4 * n + k)
  let l := ((s.aud.grids.filter (fun e => decide (next ≤ e.1 + 1) && audioAt s n e.2)).reverse).take spp
  match l.head?, l.getLast? with
  | some first, some last =>
    if !(s.enabled Pg.aud) || !(w.getLsbD 0) || decide (l.length < spp) then s
    else
      let t := s.toPos (s.posAdd last.2 (delayUnits (s.cfgOf n)))
      let smp := trackBlock t n (fld w 11 8) (fld w 7 2) l
      -- L24: three bytes of each sample, the most significant first
      let u : PayUnit := ⟨512 + 4 * n + k, first.1, smp.flatMap (fun v => (beBytes 3 v.toNat).map (BitVec.ofNat 8)), rtpOf s first, 0, t.stp.pos, false, false⟩
      let t := { t with aud := { t.aud with pkts := Store.put (fun _ => 0) t.aud.pkts (4 * n + k) (last.1 + 2) }
                        etm := { t.etm with units := t.etm.units ++ [u], newest := Store.put (fun _ => 0) t.etm.newest u.rend (u.k + 1) }
                        sent := .rtpAudio n k (rtpOf s first) smp :: t.sent }
      [false, true].foldl (fun t b =>
        if pathWithdrawn t b then t
        else
          let id := 512 + 4 * n + k
          let c : Copy := ⟨id, b, aesNode t n k b, id, first.1, headerBytes t false (aesHop t n k b) + aesPayload t n k, t.stp.pos, false, none, false, []⟩
          markDepth (enqueue t c) c) t
  | _, _ => s

def execAes67PacketRelease (n : Fin 128) (k : Fin 4) (s : State) : Out := .next (aes67Release s n k)

/-- Delayed samples that lie in a 64-byte line could not be read (R346): they are silence, marked invalid. -/
def audioFails (s : State) (line : Nat) : State :=
  ({ s with aud := { s.aud with srcs := s.aud.srcs.foldl (fun (m : Store ASrc) (e : Nat × ASrc) => Store.put (fun _ => ASrc.init) m e.1
    { e.2 with delay := e.2.delay.map (fun a => if Config.lineAudio line e.1 a.stamp then silent a.stamp else a) }) [] } } : State).evt Pg.aud 6

/-! ### The AUD window (R454) -/

def audTable (s : State) : Nat := s.getF Reg.audTblAddr 13 12
def audIndex (s : State) : Nat := s.getF Reg.audTblAddr 9 0

/-- A good channel-status block as words (R264). -/
def statusWords (s : State) (k : Nat) : List Word :=
  let b := ((asrc s (srcId 1 (k / 2) (k % 2))).csGood).map BitVec.toNat
  (List.range 6).map (fun i => BitVec.ofNat 32 (leVal ((b.drop (4 * i)).take 4)))

/-- A GO with WRITE clear. -/
def audTableRead (s : State) : State :=
  if !(s.answers Pg.aud) || s.bit Reg.audTblAddr 16 then s
  else
    let i := audIndex s
    let put (l : List Word) : State := (s.putData (Reg.audTblData 0) 8 l).tblDone Reg.audTblStat
    match audTable s with
    | 0 => put [slotWord s i]
    | 1 => if i < 256 then put (audFlow s i) else s.tblRefuse Reg.audTblStat
    | 2 => if i < 32 then put (statusWords s i) else s.tblRefuse Reg.audTblStat
    | _ => s.tblRefuse Reg.audTblStat

def execAudTableRead (s : State) : Out := .next (audTableRead s)

/-- A GO with WRITE set: a slot, or a network flow; SLOTS counts the slots in use. -/
def audTableWrite (s : State) : State :=
  if !(s.answers Pg.aud) || !(s.bit Reg.audTblAddr 16) then s
  else
    let i := audIndex s
    let l := s.getData (Reg.audTblData 0) 8
    if audTable s = 0 then
      let m := Store.put (fun _ => (0 : Word)) s.aud.slots i (l.getD 0 0 &&& 0x003FFF07)
      let t := { s with aud := { s.aud with slots := m } }
      (t.setF Reg.audSlots 10 0 (m.filter (fun e => decide (slotKind e.2 ≠ 0))).length).tblDone Reg.audTblStat
    else if audTable s = 1 ∧ i < 256 then
      let e : List Word := [l.getD 0 0 &&& 0x3FF, l.getD 1 0, l.getD 2 0, l.getD 3 0, l.getD 4 0, l.getD 5 0 &&& 0xFFFF, l.getD 6 0, 0]
      ({ s with aud := { s.aud with flows := Store.put (fun _ => words8) s.aud.flows i e } } : State).tblDone Reg.audTblStat
    else s.tblRefuse Reg.audTblStat

def execAudTableWrite (s : State) : Out := .next (audTableWrite s)

end Sys2Proof.Machine
end

