-- ==== Sys2Proof/Machine/Monitor.lean ====
section
/-! DEFINITION. The monitor head (12_monitor_head.md): its check, the lines it composes and sends, its sets and the readback. -/

namespace Sys2Proof.Machine

open State

/-! ### The raster (R278) -/

/-- The monitor raster as a channel's (R14, R16): DEN is 1 or 1,001 as the Steeple rate has it. -/
def monCfg (s : State) : ChanCfg :=
  let r := s.reg Reg.monRaster
  let t := s.reg Reg.monTiming
  let (n, d) := s.framePeriod
  let div := fld t 18 16
  { n := 0, w := fld r 13 0, h := fld r 29 16, c422 := true, deep := true, interl := false, div := div, phase := fld t 21 20
    num := if n = 1 then d * 1000 / max 1 div else d / max 1 div, den := if n = 1 then 1000 else n, lines := fld t 13 0, cls := 0, par := 0
    pad := 0, input := 0, grant := 0, rends := [], stages := [], total := s.totalLines, gln := 0, ctu0 := 0
    pixel := 0, layers := [], latch := 0, filters := [] }

/-- The raster fits link 9M under R213, one part per line (R278). -/
def monFits (s : State) : Bool :=
  let c := monCfg s
  let need := 8 * (ceilDiv (2 * c.w) 4 * 5 + 12) * c.num * c.lines
  decide (need * 100 ≤ 98 * (dataInUse s 18).length * laneGbits (s.getF (Reg.clpCfg 9) 2 0) * 1000000000 * c.den)

/-- The check of R278: the word of the first offending register. -/
def monCheck (s : State) : Option Refusing :=
  let c := monCfg s
  let code := 0x0112
  firstFail [
    need (decide (64 ≤ c.w ∧ c.w ≤ 3840 ∧ 64 ≤ c.h ∧ c.h ≤ 2160 ∧ c.w % 8 = 0 ∧ c.h % 8 = 0)) code (wordOf Reg.monRaster) 0,
    need (decide (c.h + 9 ≤ c.lines ∧ c.lines ≤ 16383)) code (wordOf Reg.monTiming) 0,
    need (decide ((c.div = 1 ∨ c.div = 2 ∨ c.div = 4) ∧ c.phase < c.div)) code (wordOf Reg.monTiming) 0,
    need (rhoWhole c) code (wordOf Reg.monTiming) 0,
    need (s.enabled (Pg.clp 9)) code 1 0,
    need (monFits s) code 1 0]

/-- ENABLE 0→1 on the MON page. -/
def monEnable (s : State) : State :=
  if !(s.answers Pg.mon) || s.enabled Pg.mon then s
  else match monCheck s with
    | some r => s.failCheck Pg.mon r.code r.word r.page
    | none => { s.activate Pg.mon with mon := { s.mon with inFrame := false } }

def execMonEnable (s : State) : Out := .next (monEnable s)

/-- ENABLE 1→0 on the MON page. -/
def monDisable (s : State) : State :=
  let t := (s.deactivate Pg.mon).setBit (Pg.mon + hCtrl) 1 false
  { (t.setBit Reg.monCommitStat 0 false) with mon := { s.mon with inFrame := false } }

/-! ### Sets and commits (R283) -/

/-- Shadow registers of the MON page by offset. -/
def monOffs : List Nat :=
  (List.range 64).flatMap (fun t => [0x100 + 0x10 * t, 0x104 + 0x10 * t]) ++
  (List.range 4).flatMap (fun k => (List.range 8).map (fun i => 0x500 + 0x20 * k + 4 * i))

def monShadow (s : State) : Store Word :=
  monOffs.foldl (fun m o => Store.put (fun _ => (0 : Word)) m o (s.reg (Pg.mon + o))) []

/-- A register of a set. -/
def monWord (m : Store Word) (o : Nat) : Word := Store.get (fun _ => 0) m o
def tileSrc (m : Store Word) (t : Nat) : Word := monWord m (0x100 + 0x10 * t)
def tilePos (m : Store Word) (t : Nat) : Word := monWord m (0x104 + 0x10 * t)
def ovlWord (m : Store Word) (k i : Nat) : Word := monWord m (0x500 + 0x20 * k + 4 * i)

/-- Size and depth of a tile's source: an input's raster, or a placed rendition's picture; none when it has no picture. -/
def tileSource (s : State) (w : Word) : Option (Nat × Nat × Bool) :=
  let n := fld w 8 2
  if w.getLsbD 1 then
    match (s.chan n).place with
    | some pl => (pl.cfg.rends.find? (fun r => decide (r.r = fld w 10 9))).map (fun r => (r.w, picH pl.cfg r, pl.cfg.deep))
    | none => none
  else if inSt s n = 0 then none
  else some (s.getF (Reg.inpGeom n) 13 0, s.getF (Reg.inpGeom n) 29 16, s.bit (Reg.inpTiming n) 17)

/-- Size of the picture that a tile names, with or without a source to show. -/
def tileGeom (s : State) (w : Word) : Nat × Nat :=
  match tileSource s w with
  | some (a, b, _) => (a, b)
  | none =>
    let z := if w.getLsbD 1 then s.reg (Reg.chRendSize (fld w 8 2) (fld w 10 9)) else s.reg (Reg.inpGeom (fld w 8 2))
    (fld z 13 0, fld z 29 16)

/-- RH and RV of a tile. -/
def tileRh (w : Word) : Nat := 2 ^ fld w 13 12
def tileRv (w : Word) : Nat := 2 ^ fld w 15 14

/-- Bytes that an enabled tile or overlay fetches in a frame. -/
def tileBytes (s : State) (w : Word) : Nat :=
  match tileSource s w with
  | some (a, b, deep) => if w.getLsbD 0 then b / tileRv w * a * (if deep then 5 else 4) / 2 else 0
  | none => 0
def ovlBytes (m : Store Word) (k : Nat) : Nat :=
  if (ovlWord m k 0).getLsbD 0 then fld (ovlWord m k 5) 13 0 * fld (ovlWord m k 5) 29 16 * fmtBytes (fld (ovlWord m k 0) 4 2) else 0

/-- The summed fetch is at most 16 GB/s. -/
def fetchFits (s : State) (m : Store Word) : Bool :=
  let c := monCfg s
  let bytes := sumN ((List.range 64).map (fun t => tileBytes s (tileSrc m t))) + sumN ((List.range 4).map (ovlBytes m))
  decide (bytes * c.num ≤ 16000000000 * c.den)

/-- The tests at the copy: those of R162 that apply to overlays, the tiles, the summed fetch. -/
def monCommitFail (s : State) (m : Store Word) : Option Nat :=
  let c := monCfg s
  let on (k : Nat) := (ovlWord m k 0).getLsbD 0
  let w (k : Nat) := fld (ovlWord m k 5) 13 0
  let h (k : Nat) := fld (ovlWord m k 5) 29 16
  let bpp (k : Nat) := fmtBytes (fld (ovlWord m k 0) 4 2)
  let pit (k : Nat) := fld (ovlWord m k 3) 17 0
  let adr (k : Nat) := fld (ovlWord m k 2) 2 0 * 2 ^ 32 + (ovlWord m k 1).toNat
  let t (ok : Nat → Bool) (i : Nat) := (List.range 4).map (fun k => if !(on k) || ok k then none else some ((0x500 + 0x20 * k + 4 * i) / 4))
  firstFail (
    t (fun k => decide (1 ≤ w k ∧ 1 ≤ h k)) 5 ++
    t (fun k => decide (adr k % 64 = 0)) 1 ++
    t (fun k => decide (pit k % 64 = 0 ∧ w k * bpp k ≤ pit k)) 3 ++
    t (fun k => decide (adr k + (h k - 1) * pit k + w k * bpp k ≤ 24 * 2 ^ 30)) 1 ++
    (List.range 64).flatMap (fun k =>
      let a := tileSrc m k
      let p := tilePos m k
      if !(a.getLsbD 0) then []
      else match tileSource s a with
        | none => [some ((0x100 + 0x10 * k) / 4)]
        | some (x, y, _) =>
          if fld p 13 0 + x / tileRh a ≤ c.w ∧ fld p 29 16 + y / tileRv a ≤ c.h then [] else [some ((0x104 + 0x10 * k) / 4)]) ++
    [if fetchFits s m then none else some 1])

/-- The copy of a pending commit. -/
def monCopy (s : State) : State :=
  if !(s.bit Reg.monCommitStat 0) then s
  else
    let t := s.setBit (Pg.mon + hCtrl) 1 false
    let m := monShadow s
    match monCommitFail s m with
    | some w => (t.setReg Reg.monCommitStat ((s.reg Reg.monCommitStat &&& 0xFFFF0000) ||| BitVec.ofNat 32 (2 + w * 0x10))).evt Pg.mon 6
    | none => ({ t with mon := { t.mon with active := m } }.setN Reg.monCommitStat (s.frame.toNat % 65536 * 0x10000)).evt Pg.mon 5

/-- MON.CTRL.COMMIT; no effect while ENABLE reads 0 (R448). -/
def monCommit (s : State) : State :=
  if s.answers Pg.mon && s.enabled Pg.mon then (s.setBit (Pg.mon + hCtrl) 1 true).setBit Reg.monCommitStat 0 true else s

def execMonCommit (s : State) : Out := .next (monCommit s)

/-- Line match at line `l` (R284). -/
def lineMatch (s : State) (l : Nat) : State := if s.getF Reg.monMatchLine 13 0 = l then s.evt Pg.mon 1 else s

/-- Line HEIGHT of the frame in progress: start of blanking, line match, and the copy. -/
def monCommitCopy (s : State) : State :=
  if s.running && s.enabled Pg.mon && s.mon.inFrame then monCopy (lineMatch (s.evt Pg.mon 0) (monCfg s).h) else s

def execMonCommitCopy (s : State) : Out := .next (monCommitCopy s)

/-! ### Composition (R280 to R282, R285) -/

/-- A tile or overlay on screen: its number (overlays from 64), place and size, and whether it is opaque. -/
structure Item where
  idx  : Nat
  x    : Int
  y    : Int
  w    : Nat
  h    : Nat
  full : Bool
  deriving DecidableEq, Repr

/-- Enabled tiles and overlays of the set in use, from bottom to top. -/
def items (s : State) : List Item :=
  let m := s.mon.inUse
  (List.range 64).filterMap (fun t =>
    let a := tileSrc m t
    let p := tilePos m t
    let z := tileGeom s a
    if a.getLsbD 0 then some ⟨t, fld p 13 0, fld p 29 16, z.1 / tileRh a, z.2 / tileRv a, true⟩ else none) ++
  (List.range 4).filterMap (fun k =>
    let p := ovlWord m k 4
    let z := ovlWord m k 5
    if (ovlWord m k 0).getLsbD 0 then
      some ⟨64 + k, ((p.extractLsb' 0 15)).toInt, (p.extractLsb' 16 15).toInt, fld z 13 0, fld z 29 16,
        decide (fld (ovlWord m k 6) 9 0 = 1023 ∧ fld (ovlWord m k 0) 4 2 = 3)⟩
    else none)

/-- The item has samples on line `l`. -/
def onLine (l : Nat) (i : Item) : Bool := decide (i.y ≤ (l : Int) ∧ (l : Int) < i.y + i.h)
/-- The item covers column `x`. -/
def covers (i : Item) (x : Nat) : Bool := decide (i.x ≤ (x : Int) ∧ (x : Int) < i.x + i.w)

/-- An opaque item above covers the whole extent, so nothing is fetched for it (R282). -/
def hiddenBy (l : List Item) (width : Nat) (i : Item) : Bool :=
  l.any (fun j => decide (i.idx < j.idx) && j.full && decide (j.x ≤ max i.x 0 ∧ min (i.x + i.w) width ≤ j.x + j.w))

/-- Row `y` of the latest complete frame of an input, from its raw store, at 10 bits (R199, R204). -/
def inputLine (s : State) (i y : Nat) : List Nat :=
  let l := if s.bit (Reg.inpTiming i) 16 then lineOfField s i (y / 2) (decide (y % 2 = 1)) else y
  rawLine s (128 + i) (1 - rawPar s (128 + i)) l (s.bit (Reg.inpTiming i) 17)

/-- A tile's source row at 10 bits: luma by column, chroma by component and pair; none where no picture is stored (R280). -/
def tileRow (s : State) (a : Word) (y : Nat) : Option ((Nat → Nat) × (Nat → Nat → Nat)) :=
  let n := fld a 8 2
  let r := fld a 10 9
  if a.getLsbD 1 then
    match tileSource s a, (s.rc n r).shown with
    | some (w, h, deep), some base =>
      let p : Pic := ⟨base, w, h, (s.cfgOf n).c422, deep⟩
      let up (v : Nat) : Nat := if deep then v else v * 4
      some (fun x => up (lumaAt s p x y), fun k x => up (chromaAt s p k x (if p.c422 then y else y / 2)))
    | _, _ => none
  else
    let l := inputLine s n y
    if l.isEmpty then none else some (lineY l, fun k x => if k = 0 then lineCb l x else lineCr l x)

/-- The average of a group; a group of one is its sample. -/
def groupMean : List Nat → Nat
  | [x] => x
  | l => Config.average l

/-- Y', Cb, Cr that a tile shows at column `x` of line `l` of the raster; `f`: the draw of this line's free samples. -/
def tilePixel (s : State) (f : Nat) (t : Nat) (i : Item) (l x : Nat) : Nat × Nat × Nat :=
  let a := tileSrc s.mon.inUse t
  let rh := tileRh a
  let col := ((x : Int) - i.x).toNat
  let row := ((l : Int) - i.y).toNat * tileRv a
  let free (k : Nat) : Nat := Config.freeSample f (((t * 4096 + l) * 8192 + x) * 4 + k) % 1024
  match tileRow s a row with
  | none => (free 0, free 1, free 2)
  | some (luma, chroma) =>
    let mean (g : Nat → Nat) (o : Nat) : Nat := groupMean ((List.range rh).map (fun k => g (o * rh + k)))
    (mean luma col, mean (chroma 0) (col / 2), mean (chroma 1) (col / 2))

/-- A word of HBM. -/
def hbmWord (s : State) (a n : Nat) : Nat := leVal (s.memBytes a n)

/-- Y', Cb, Cr and per-pixel alpha of an overlay at a place (Table 6-1, R281). -/
def ovlPixel (s : State) (k : Nat) (i : Item) (l x : Nat) : (Nat × Nat × Nat) × Nat :=
  let m := s.mon.inUse
  let fmt := fld (ovlWord m k 0) 4 2
  let adr := fld (ovlWord m k 2) 2 0 * 2 ^ 32 + (ovlWord m k 1).toNat
  let b := fmtBytes fmt
  let v := hbmWord s (adr + ((l : Int) - i.y).toNat * fld (ovlWord m k 3) 17 0 + ((x : Int) - i.x).toNat * b) b
  let two (n : Nat) : Nat := n % 4 * 341
  let eight (n : Nat) : Nat := n % 256 * 4 + n % 256 / 64
  let conv (p q r : Nat) : Nat × Nat × Nat := Config.fromRgb (s.getF Reg.monCfg 0 0) (if fmt = 0 then 255 else 1023) (p, q, r)
  let col := ovlWord m k 7
  match fmt with
  | 0 => (conv (v % 256) (v / 2 ^ 8 % 256) (v / 2 ^ 16 % 256), eight (v / 2 ^ 24))
  | 1 => (conv (v % 1024) (v / 2 ^ 10 % 1024) (v / 2 ^ 20 % 1024), two (v / 2 ^ 30))
  | 2 => ((v % 1024, v / 2 ^ 10 % 1024, v / 2 ^ 20 % 1024), two (v / 2 ^ 30))
  | 3 => ((v % 1024, v / 2 ^ 10 % 1024, v / 2 ^ 20 % 1024), 1023)
  | _ => ((fld col 9 0, fld col 19 10, fld col 29 20), eight v)

/-- MON.FILL. -/
def monFill (s : State) : Nat × Nat × Nat :=
  let w := s.reg Reg.monFill
  (fld w 9 0, fld w 19 10, fld w 29 20)

/-- A tile shows FILL: its input is OFF or LOST, or its channel is not placed (R281). -/
def tileFills (s : State) (w : Word) : Bool := (tileSource s w).isNone || (!(w.getLsbD 1) && decide (inSt s (fld w 8 2) = 3))

/-- One pixel of a line: items from bottom to top over FILL; `late` names items without data. -/
def monPixel (s : State) (f : Nat) (late : List Nat) (l : Nat) (on : List Item) (x : Nat) : Nat × Nat × Nat :=
  on.foldl (fun p i =>
    if !(covers i x) then p
    else if late.contains i.idx || (decide (i.idx < 64) && tileFills s (tileSrc s.mon.inUse i.idx)) then monFill s
    else if i.idx < 64 then tilePixel s f i.idx i l x
    else
      let k := i.idx - 64
      let (c, a) := ovlPixel s k i l x
      let al := layerAlpha a (fld (ovlWord s.mon.inUse k 6) 9 0)
      (blend p.1 c.1 al, blend p.2.1 c.2.1 al, blend p.2.2 c.2.2 al)) (monFill s)

/-- Chroma of a sample pair: that of both pixels where they agree; otherwise the spec does not state the filter. -/
def pairChroma (a b : Nat) : Nat := if a = b then a else Config.interp a b

/-- The 10-bit 4:2:2 samples of a line, in the order of R199. -/
def monSamples (s : State) (f : Nat) (late : List Nat) (l : Nat) : List Nat :=
  let c := monCfg s
  let on := (items s).filter (onLine l)
  (List.range (c.w / 2)).flatMap (fun k =>
    let p := monPixel s f late l on (2 * k)
    let q := monPixel s f late l on (2 * k + 1)
    [pairChroma p.2.1 q.2.1, p.1, pairChroma p.2.2 q.2.2, q.1])

/-- The bytes that an item reads for line `l`: a tile of an input from its raw store, of a rendition from its reconstruction, an overlay from
its buffer. -/
def itemSpans (s : State) (l : Nat) (i : Item) : List (Nat × Nat) :=
  let m := s.mon.inUse
  let row := ((l : Int) - i.y).toNat
  if i.idx < 64 then
    let a := tileSrc m i.idx
    let y := row * tileRv a
    match tileSource s a with
    | none => []
    | some (w, h, deep) =>
      let n := fld a 8 2
      if a.getLsbD 1 then
        match (s.rc n (fld a 10 9)).shown with
        | some base => let c422 := (s.cfgOf n).c422; (⟨base, w, h, c422, deep⟩ : Pic).spans y (if c422 then y else y / 2)
        | none => []
      else (⟨Config.bufferAt (128 + n) 0 (1 - rawPar s (128 + n)) 0, w, h, true, deep⟩ : Pic).spans y y
  else
    let k := i.idx - 64
    let b := fmtBytes (fld (ovlWord m k 0) 4 2)
    [(fld (ovlWord m k 2) 2 0 * 2 ^ 32 + (ovlWord m k 1).toNat + row * fld (ovlWord m k 3) 17 0, i.w * b)]

/-- Items on a line whose data is uncorrectable (R346). -/
def failedItems (s : State) (l : Nat) : List Nat :=
  (((items s).filter (onLine l)).filter (fun i => (itemSpans s l i).any (fun e => readFails s 40 e.1 e.2))).map (fun i => i.idx)

/-- Items on a line that are fetched for it. -/
def fetched (s : State) (l : Nat) : List Nat :=
  let on := (items s).filter (onLine l)
  (on.filter (fun i => !(hiddenBy on (monCfg s).w i) && !(decide (i.idx < 64) && tileFills s (tileSrc s.mon.inUse i.idx)))).map (fun i => i.idx)

/-! ### Lines and frames (R279, R284, R286) -/

/-- Link 9M carries the raster: the role is held and the link is whole (R279, R286). -/
def link9mGood (s : State) : Bool := s.hasRole && decide (linkState s 18 = 2)

/-- The format packet of R202 for the monitor raster: progressive, 10 bits. -/
def monFormat (s : State) : List Nat :=
  let c := monCfg s
  leBytes 2 c.w ++ leBytes 2 c.h ++ leBytes 2 c.lines ++ leBytes 4 c.num ++ leBytes 2 c.den ++ [2, 0, 0, 0]

/-- Rows of a packet of the head on link 9M (R178, R279). -/
def monRows (s : State) (type word : Nat) (payload : List Nat) : List Row :=
  packetRows (txData s 18) (spareOf s 18) (clpBytes type 0 word payload)

/-- WORD of monitor line `l` (Table 8-2): HALF 0, FIELD 0, DEPTH 1. The spec does not say where the head's source frame count begins: the
model counts monitor frames of the Steeple frame count (notes/assumptions/28.md). -/
def lineWord (s : State) (l : Nat) : Nat := l + s.mon.startFr.toNat / max 1 (monCfg s).div % 256 * 2 ^ 16 + 2 ^ 25

/-- Begin a monitor frame at the next Steeple frame with FRAME mod DIV = PHASE (R14, R278): a commit from before the first frame
is copied here; the active set comes into use (R160, R161). -/
def monBegin (s : State) : State :=
  let c := monCfg s
  let here := decide (s.inFrame = 0) && chanFrameAt c s.frame && !(s.mon.inFrame && decide (s.mon.startFr = s.frame))
  let d := max 1 c.div
  let t := if here then s else s.enterFrame ((c.phase + d - (s.frame.toNat + 1) % d) % d + 1) 0
  let t := if s.mon.inFrame then t else monCopy t
  { t with mon := { t.mon with inUse := t.mon.active, inFrame := true, startFr := t.frame, crc := 0xFFFFFFFF, linkBad := false } }

/-- Monitor line `l`; an item whose data has not arrived (`late`) or is uncorrectable shows FILL on it (R285, R346). -/
def monitorLine (s : State) (l : Nat) (late : List (Fin 68)) : State :=
  if !(s.enabled Pg.mon) || !s.running || (!s.mon.inFrame && decide (l ≠ 0)) then s
  else
    let c := monCfg s
    let t := if l = 0 then monBegin s else s.toPos (linePos s c s.mon.startFr l)
    let t := lineMatch t l
    if c.h ≤ l then (if l = c.h then t.evt Pg.mon 0 else t)
    else
      let gone := (late.map (fun (k : Fin 68) => k.val) ++ failedItems t l).filter (fun k => (fetched t l).contains k)
      let read := ((items t).filter (onLine l)).flatMap (itemSpans t l)
      let (f, t) := t.draw
      let smp := monSamples t f gone l
      let good := link9mGood t
      let t := { t with mon := { t.mon with crc := crcRun 32 0x04C11DB7 true t.mon.crc (pack10 smp), linkBad := t.mon.linkBad || !good }
                        sent := if s.hasRole then (if l + 1 = c.h then [.monFormat (monFormat t) (monRows t 4 0 (monFormat t))] else []) ++
                          .monLine l smp (monRows t 1 (lineWord t l) (pack10 smp)) :: t.sent else t.sent }
      let t := readDone t 40 read
      if gone.isEmpty then t else (t.inc32 Reg.monUnderrun).evt Pg.mon 3

def execMonitorLine (line : Nat) (late : List (Fin 68)) (s : State) : Out := .next (monitorLine s line late)

/-- The CRC over payloads read back (R286). -/
def readCrc (l : List (BitVec 8)) : BitVec 32 := BitVec.ofNat 32 (crc32 (l.map BitVec.toNat))

/-- The readback of a frame's last packet completes (R286). -/
def frameDone (s : State) (readback : List (BitVec 8)) : State :=
  let crcRx := readCrc readback
  if !(s.enabled Pg.mon) || !s.mon.inFrame then s
  else
    let h := (monCfg s).h
    let m := s.getF Reg.monMatchLine 13 0
    let t := s.evt Pg.mon 2
    let t := if h < m ∧ m ≤ h + 2 then t.evt Pg.mon 1 else t
    if s.mon.linkBad then t.setBit Reg.monRbStat 1 true
    else
      let tx := crcOut 32 0xFFFFFFFF true s.mon.crc
      let t := (t.setN Reg.monRbCrcTx tx).setReg Reg.monRbCrcRx crcRx
      if BitVec.ofNat 32 tx = crcRx then t.setN Reg.monRbStat 1
      else (((t.setN Reg.monRbStat 0).inc32 Reg.monRbErr).evt Pg.mon 4).raise 0x6003 Pg.mon tx crcRx.toNat

def execFrameDone (readback : List (BitVec 8)) (s : State) : Out := .next (frameDone s readback)

/-- An accepted Steeple step ends the frame in progress (R287); a pending commit is copied at the step (R163). -/
def monStep (s : State) : State :=
  if !(s.enabled Pg.mon) then s
  else
    let t := monCopy s
    if s.mon.inFrame then { t.setBit Reg.monRbStat 1 true with mon := { t.mon with inFrame := false } } else t

end Sys2Proof.Machine
end

