-- ==== Sys2Proof/Machine/Hbm.lean ====
section
/-! DEFINITION. HBM and the fabric (15_hbm_and_fabric.md): regions, the BAR2 window, the pseudo-channel controllers, tracking,
retraining and retirement. -/

namespace Sys2Proof.Machine

open State

/-! ### Regions (R329 to R331) -/

/-- CFG word in use of region `n`. -/
def regionCfg (s : State) (n : Nat) : Word := Store.get (fun n => BitVec.ofNat 32 (regionReset n)) s.hbm.layout n

def regionEn (w : Word) : Bool := w.getLsbD 0
/-- Grain in bytes. -/
def regionGrain (w : Word) : Nat := 2 ^ (fld w 7 4 + 8)
/-- SIZE in 2 MiB units; 0 for a region that is off. -/
def regionSize (w : Word) : Nat := if regionEn w then fld w 29 16 else 0

/-- Footprint of a region in each of `N` pseudo-channels (R330). -/
def footprint (w : Word) (N : Nat) : Nat := ceilDiv (regionSize w * 0x200000) (regionGrain w * N) * regionGrain w

/-- Size of region 7 over the footprints of regions 0 to 6 (R330). -/
def placementSize (low : List Word) (w7 : Word) (N : Nat) : Nat :=
  let used := sumN (low.map (fun w => footprint w N))
  let g := regionGrain w7
  (0x30000000 - used) / g * g * N / 0x200000

/-- The CFG words of a layout over `N` pseudo-channels, region 7 at its size. -/
def layoutOver (cfg : Nat → Word) (N : Nat) : List Word :=
  let low := (List.range 7).map cfg
  low ++ [putBit (setFld (cfg 7) 29 16 (placementSize low (cfg 7) N)) 0 true]

/-- Put a layout in use: REG_n_CFG of region 7, REG_n_BASE and TOP show it. -/
def useLayout (s : State) (l : List Word) : State :=
  let bases := (List.range 8).map (fun n => sumN ((l.take n).map regionSize))
  let m : Store Word := (l.zip (List.range 8)).foldl
    (fun (m : Store Word) e => Store.put (fun n => BitVec.ofNat 32 (regionReset n)) m e.2 e.1) []
  let t := { s with hbm := { s.hbm with layout := m } }
  let t := t.setF (Reg.hbmRegCfg 7) 29 16 (regionSize (l.getD 7 0))
  let t := (bases.zip (List.range 8)).foldl (fun (t : State) e => t.setN (Reg.hbmRegBase e.2) e.1) t
  t.setN Reg.hbmTop (sumN (l.map regionSize))

/-- The region of a device address. -/
def regionAt (s : State) (a : Nat) : Option Nat :=
  (List.range 8).find? (fun n => decide (s.getF (Reg.hbmRegBase n) 13 0 * 0x200000 ≤ a ∧
    a < (s.getF (Reg.hbmRegBase n) 13 0 + regionSize (regionCfg s n)) * 0x200000))

/-- Numbers of the active pseudo-channels, ascending. -/
def activeList (s : State) : List Nat := (List.range 32).filter (fun c => s.bit Reg.hbmActive c)

/-- Offset of an address in its region, and the unit that holds it (R330). -/
def regionOfs (s : State) (n a : Nat) : Nat := a - s.getF (Reg.hbmRegBase n) 13 0 * 0x200000
def regionUnit (s : State) (n a : Nat) : Nat := regionOfs s n a / regionGrain (regionCfg s n)

/-- The pseudo-channel of a device address (R330). -/
def pcOf (s : State) (a : Nat) : Option Nat :=
  match regionAt s a with
  | some n => (activeList s)[regionUnit s n a % max 1 (activeList s).length]?
  | none => none

/-- The local address of a device address in its pseudo-channel (R330). -/
def localAddr (s : State) (n a : Nat) : Nat :=
  let N := (activeList s).length
  let g := regionGrain (regionCfg s n)
  sumN ((List.range n).map (fun k => footprint (regionCfg s k) N)) + regionUnit s n a / max 1 N * g + regionOfs s n a % g

/-- Row and bank of a device address (R330): with HASH the bank bits are XORed with the lowest row bits. -/
def rowOf (s : State) (a : Nat) : Nat := match regionAt s a with | some n => Config.rowBits (localAddr s n a) | none => 0
def bankOf (s : State) (a : Nat) : Nat :=
  match regionAt s a with
  | some n =>
    let b := Config.bankBits (localAddr s n a)
    (if (regionCfg s n).getLsbD 8 then b ^^^ BitVec.ofNat 6 (rowOf s a) else b).toNat
  | none => 0

/-- Active pseudo-channels. -/
def activePcs (s : State) : Nat := popcount (s.reg Reg.hbmActive)

/-- The contents of the HOST and PLACEMENT regions become undefined: every byte there is a free value. -/
def undefContents (s : State) : State :=
  let (i, t) := s.draw
  { t with hbm := { t.hbm with mem := s.hbm.mem.filter (fun e => decide (e.1 < 0x10000000)), gen := i + 1 } }

/-- A refused layout commit (R331). -/
def refuseLayout (s : State) (code word : Nat) : State := (s.refuse Pg.hbm code word 0).evt Pg.hbm 6

/-- The first region that fails the test of R331: HOST regions have SIZE ≥ 1 and a defined GRAIN; region 7 keeps 512 MiB. -/
def layoutFail (s : State) (l : List Word) : Option Nat :=
  firstFail ((List.range 6).map (fun k =>
    let w := s.reg (Reg.hbmRegCfg (k + 1))
    if !(regionEn w) || decide (1 ≤ fld w 29 16 ∧ fld w 7 4 ≤ 8) then none else some (wordOf (Reg.hbmRegCfg (k + 1)))) ++
    [if fld (s.reg (Reg.hbmRegCfg 7)) 7 4 ≤ 8 ∧ 256 ≤ regionSize (l.getD 7 0) then none else some (wordOf (Reg.hbmRegCfg 7))])

/-- HBM.CTRL.COMMIT. -/
def hbmLayoutCommit (s : State) : State :=
  if !(s.answers Pg.hbm) then s
  else if s.mode ≠ 1 ∨ anyChannelPlaced s then refuseLayout s 0x0803 1
  else
    let l := layoutOver (fun n => s.reg (Reg.hbmRegCfg n)) (activePcs s)
    match layoutFail s l with
    | some w => refuseLayout s 0x0113 w
    | none => undefContents (useLayout s l)

def execHbmLayoutCommit (s : State) : Out := .next (hbmLayoutCommit s)

/-! ### The BAR2 window (R332) -/

/-- A device address lies in the host region: an enabled HOST region in use. -/
def inHost (s : State) (a : Nat) : Bool :=
  [1, 2, 3, 4, 5, 6].any (fun n =>
    let b := s.getF (Reg.hbmRegBase n) 13 0 * 0x200000
    decide (b ≤ a ∧ a < b + regionSize (regionCfg s n) * 0x200000))

/-- Device address of an offset of the window. -/
def bar2Addr (s : State) (off : Nat) : Nat := s.getF Reg.hbmBar2Base 13 0 * 0x200000 + off

/-- Every address of a span satisfies a test. -/
def spanAll (a n : Nat) (p : Nat → Bool) : Bool := (List.range n).all (fun i => p (a + i))

/-- A host write through the window; a guarded write outside the host region is dropped, and nothing lies at or above TOP. -/
def bar2Write (s : State) (off : Nat) (bytes : List (BitVec 8)) : State :=
  let a := bar2Addr s off
  if s.mode = 0 then s
  else if s.bit Reg.hbmCfg 0 && !(spanAll a bytes.length (inHost s)) then (s.inc32 Reg.hbmBar2Wdrop).evt Pg.hbm 5
  else if s.hbmEnd < a + bytes.length then s
  else s.setMem a bytes

def execBar2Write (off : BitVec 28) (bytes : List (BitVec 8)) (s : State) : Out := .next (bar2Write s off.toNat bytes)

/-- A host read through the window: the bytes, or an error response at or above TOP. -/
def bar2Read (s : State) (off len : Nat) : State :=
  let a := bar2Addr s off
  if s.mode = 0 ∨ s.hbmEnd < a + len then { s with bus := ⟨[], .error⟩ }
  else { s with bus := ⟨s.memBytes a len, .ok⟩ }

def execBar2Read (off : BitVec 28) (len : Fin 9) (s : State) : Out := .next (bar2Read s off.toNat len)

/-! ### Controllers (R333 to R338) -/

def pch (s : State) (c : Nat) : PchSt := Store.get (fun _ => PchSt.init) s.hbm.pchs c
def setPch (s : State) (c : Nat) (x : PchSt) : State :=
  { s with hbm := { s.hbm with pchs := Store.put (fun _ => PchSt.init) s.hbm.pchs c x } }
def pchSt (s : State) (c : Nat) : Nat := s.getF (Reg.pchPstate c) 2 0
def setPchSt (s : State) (c v : Nat) : State := s.setF (Reg.pchPstate c) 2 0 v
/-- The controller serves requests: ACTIVE, SELF_REFRESH, TRACKING or DRIFTING. -/
def pchServes (s : State) (c : Nat) : Bool := decide (1 ≤ pchSt s c ∧ pchSt s c ≤ 4)

/-- The controller holds a deadline request. -/
def holdsDeadline (x : PchSt) : Bool := x.queue.any (fun e => masterDeadline e.1.master)

/-- RAAIMT of a controller (RFM_THRESH). -/
def raaimt (s : State) (c : Nat) : Nat := s.getF (Reg.pchRfmThresh c) 15 0

/-- Bank and row of a request (R330). -/
def reqBank (s : State) (r : MemReq) : Nat := bankOf s r.addr.toNat
def reqRow (s : State) (r : MemReq) : Nat := rowOf s r.addr.toNat

/-- The request hits the open row of its bank. -/
def rowHit (s : State) (x : PchSt) (r : MemReq) : Bool := decide (Store.get (fun _ => 0) x.open_ (reqBank s r) = reqRow s r + 1)

/-- Time that a request has waited, in ns. -/
def waitedNow (s : State) (e : MemReq × Nat) : Nat := e.1.waited + (s.stp.timeNs - e.2)

/-- A request has waited longer than its class's age cap. -/
def aged (s : State) (e : MemReq × Nat) : Bool :=
  decide (s.getF (if masterDeadline e.1.master then Reg.hbmAgeDl else Reg.hbmAgeBulk)
    (if masterDeadline e.1.master then 11 else 15) 0 < waitedNow s e)

/-- A throttled master's bank is served only as row hits or one activation per THROTTLE ns (R337). -/
def held337 (s : State) (x : PchSt) (r : MemReq) : Bool :=
  decide (Store.get (fun _ => 0) x.thr (reqBank s r) = r.master.val + 1) && !(rowHit s x r) &&
    decide (s.stp.timeNs < Store.get (fun _ => 0) x.thrAt (reqBank s r) + s.getF Reg.hbmThrottle 15 0)

/-- Requests that may be chosen: the first of a master to a line (R334), not held back by a throttle. -/
def eligibleReqs (s : State) (x : PchSt) : List MemReq → List (MemReq × Nat) → List (MemReq × Nat)
  | _, [] => []
  | seen, e :: l =>
    let first := !(seen.any (fun r => decide (r.master = e.1.master ∧ r.addr.toNat / 64 = e.1.addr.toNat / 64)))
    (if first && !(held337 s x e.1) then [e] else []) ++ eligibleReqs s x (e.1 :: seen) l

/-- The oldest of a list of requests in order of arrival: the one that has waited longest, the earlier on a tie. -/
def oldest (s : State) (l : List (MemReq × Nat)) : Option (MemReq × Nat) :=
  minBy (fun a b => decide (waitedNow s b < waitedNow s a)) l

/-- The next request of a controller (R333). -/
def nextReq (s : State) (x : PchSt) : Option (MemReq × Nat) :=
  let l := eligibleReqs s x [] x.queue
  let dl := l.filter (fun e => masterDeadline e.1.master)
  let bulk := l.filter (fun e => !(masterDeadline e.1.master))
  let hits (k : List (MemReq × Nat)) := k.filter (fun e => rowHit s x e.1)
  ([l.filter (aged s), hits dl, dl, hits bulk, bulk].map (oldest s)).findSome? id

/-- Activations of a bank in the window by one master, and by all. -/
def winOf (x : PchSt) (m bank : Nat) : Nat := Store.get (fun _ => 0) x.win (m * 64 + bank)
def winAll (x : PchSt) (bank : Nat) : Nat := sumN ((List.range 50).map (fun m => winOf x m bank))

/-- The bulk master with the most activations of a bank in the window, the lowest number on a tie. -/
def worstBulk (x : PchSt) (bank : Nat) : Option Nat :=
  minBy (fun a b => decide (winOf x b bank < winOf x a bank))
    ((List.range 50).filter (fun m => !(masterDeadline m) && decide (0 < winOf x m bank)))

/-- Activate a row: RFM first at RAAIMT (R336); a bank at 2 × RAAIMT in the window throttles a bulk master (R337). -/
def activateRow (s : State) (c : Nat) (r : MemReq) : State :=
  let x := pch s c
  let bank := reqBank s r
  let lim := raaimt s c
  let n := Store.get (fun _ => 0) x.acts bank
  let rfm := decide (0 < lim ∧ lim ≤ n)
  let t := if rfm then (s.inc32 (Reg.pchRfmCmds c)).evt (Pg.pch c) 3 else s
  let x := { x with acts := Store.put (fun _ => 0) x.acts bank ((if rfm then n - lim else n) + 1)
                    open_ := Store.put (fun _ => 0) x.open_ bank (reqRow s r + 1)
                    win := Store.put (fun _ => 0) x.win (r.master.val * 64 + bank) (winOf x r.master bank + 1)
                    thrAt := if Store.get (fun _ => 0) x.thr bank = r.master.val + 1 then Store.put (fun _ => 0) x.thrAt bank s.stp.timeNs else x.thrAt }
  if 0 < lim ∧ 2 * lim ≤ winAll x bank ∧ Store.get (fun _ => 0) x.thr bank = 0 then
    match worstBulk x bank with
    | some m =>
      let t := setPch t c { x with thr := Store.put (fun _ => 0) x.thr bank (m + 1)
                                   thrAt := Store.put (fun _ => 0) x.thrAt bank s.stp.timeNs }
      ((t.inc32 (Reg.pchThrottles c)).setN (Reg.pchThrLast c) (m + bank * 0x100)).evt (Pg.pch c) 4
    | none => setPch t c x
  else setPch t c x

/-! ### Errors and drift (R341, R345, R346) -/

/-- The controller becomes DRIFTING (R341). -/
def drift (s : State) (c : Nat) : State :=
  if 1 ≤ pchSt s c ∧ pchSt s c ≤ 3 then
    (((setPchSt s c 4).evt Pg.hbm 0).evt (Pg.pch c) 6).raise 0x3002 (Pg.pch c) c (s.reg (Reg.pchTrim c)).toNat
  else s

/-- A corrected error is counted; more than ERR_LIMIT in a second make the controller drift. -/
def noteCorr (s : State) (c : Nat) : State :=
  let x := pch s c
  let sec := s.stp.timeNs / 1000000000
  let n := (if x.corrSec.1 = sec then x.corrSec.2 else 0) + 1
  let t := ((setPch s c { x with corrSec := (sec, n) }).inc32 (Reg.pchCorr c)).evt (Pg.pch c) 0
  if (s.reg Reg.hbmErrLimit).toNat < n then drift t c else t

/-- The error response of an uncorrectable read (R345). -/
def noteUncorr (s : State) (c : Nat) (addr : BitVec 35) : State :=
  let t := (s.inc32 (Reg.pchUncorr c)).setReg (Reg.pchErrAddrLo c) (addr.setWidth 32)
  let hi : Word := (addr >>> 32).setWidth 32 ||| 0x80000000
  let t := ((t.setReg (Reg.pchErrAddrHi c) hi).evt (Pg.pch c) 1).evt Pg.hbm 4
  t.raise 0x3001 (Pg.pch c) (addr.setWidth 32).toNat hi.toNat

/-- A failed read that its master has still to handle; older ones go. -/
def markFailed (s : State) (m line : Nat) : State :=
  { s with hbm := { s.hbm with failed := ⟨m, line, s.frame⟩ :: s.hbm.failed.filter (fun e => stillFails s e.master e) } }

/-- Channels with records in a 64-byte line. -/
def recordChans (s : State) (line : Nat) : List Nat :=
  ((s.chans.filter (fun e => e.2.running)).map (fun e => e.1)).filter (fun n => !(recordFrames s n line).isEmpty)

/-- An engine or its rate control meets uncorrectable data: records become first-frame records; otherwise the slice is abandoned. -/
def engineError (s : State) (e line : Nat) : State :=
  match recordChans s line with
  | [] => match s.slotOf e with | some k => abandonSlice s k | none => s
  | l => l.foldl (fun t n => failRecords t n line) s

/-- What a master does with uncorrectable read data in a 64-byte line (Table 15-9). The Gleaner, the compositors, the ladder, ingest, the
monitor head and the Stile handle it in the command that reads the line; the check-value units have one of their own. Which core pair
needed the data the spec does not say (log 32). -/
def masterError (s : State) (m line : Nat) : State :=
  if m < 34 then engineError s m line
  else if m = 34 then (List.range 32).foldl windowFails (markFailed s 34 line)
  else if m = 39 then etmMemError (markFailed s 39 line) line
  else if m = 41 then
    let (i, t) := s.draw
    doneWait t (Config.freeNat i % 8)
  else if m = 42 then { s with bus := ⟨s.bus.rdata, .poisoned⟩ }
  else if m = 43 then audioFails s line
  else if m = 48 then s.inc32 Reg.sextonTestFails
  else if 44 ≤ m ∧ m ≤ 47 then s
  else markFailed s m line

/-! ### Matrix arbitration (R349) -/

/-- PRIO of a master for an HBM port, targets 0 to 15. -/
def mtxPrio (s : State) (m k : Nat) : Nat :=
  s.getF (if k < 8 then Reg.mtxPrio0 m else Reg.mtxPrio1 m) (4 * (k % 8) + 3) (4 * (k % 8))

/-- The request has waited AGE_PROMOTE cycles of 1.2 GHz. -/
def promoted (s : State) (r : MemReq) : Bool := decide (5 * s.getF Reg.mtxAgePromote 11 0 ≤ 6 * r.waited)

/-- Place of a request without promotion at target `k`: its priority, then round robin from the master after `g`. -/
def grantKey (s : State) (k g : Nat) (r : MemReq) : Nat := mtxPrio s r.master k * 50 + (r.master.val + 49 - g) % 50

/-- The request that target `k` grants next: the oldest promoted one, else by priority and round robin. -/
def grantNext (s : State) (k g : Nat) (l : List MemReq) : Option MemReq :=
  match minBy (fun a b => decide (b.waited < a.waited)) (l.filter (promoted s)) with
  | some r => some r
  | none => minBy (fun a b => decide (grantKey s k g a < grantKey s k g b)) l

/-- The order in which target `k` grants the requests that stand at it, and the master granted last. Fuel: one a request. -/
def grantOrder : Nat → State → Nat → Nat → List MemReq → List MemReq × Nat
  | 0, _, _, g, _ => ([], g)
  | f + 1, s, k, g, l =>
    match grantNext s k g l with
    | none => ([], g)
    | some r =>
      let x := grantOrder f s k r.master.val (l.erase r)
      (r :: x.1, x.2)

/-- Master granted last at a target. -/
def lastGranted (s : State) (k : Nat) : Nat := Store.get (fun _ => 49) s.hbm.granted k
def setGranted (s : State) (k g : Nat) : State :=
  { s with hbm := { s.hbm with granted := Store.put (fun _ => 49) s.hbm.granted k g } }

/-- Reinitialisation of the matrix: its round robin starts anew (R380). -/
def resetMatrix (s : State) : State := { s with hbm := { s.hbm with granted := [] } }

/-- The requests that arrive at a controller, in the order in which its matrix port grants them. -/
def granted (s : State) (c : Nat) (l : List MemReq) : List MemReq × Nat := grantOrder l.length s (c / 2) (lastGranted s (c / 2)) l

/-- A controller serves its next request; requests whose address lies in another controller do not arrive (R330). `err` is what a read of
the array met. -/
def memoryRequest (s : State) (c : Nat) (arrivals : List MemReq) (err : ReadErr) : State :=
  let arrivals := arrivals.filter (fun r => decide (pcOf s r.addr.toNat = some c))
  if !(pchServes s c) then s
  else
    -- a request to a controller in self-refresh waits for its exit (R338)
    let t := if pchSt s c = 2 ∧ arrivals ≠ [] then
        ((setPchSt s c 1).incSat (Reg.pchSrLateHits c) 31 0 arrivals.length).evt (Pg.pch c) 5
      else s
    let t := setGranted t (c / 2) (granted s c arrivals).2
    let t := if arrivals.any (promoted s) then t.evt Pg.mtx 1 else t
    let x := pch t c
    let x := { x with queue := x.queue ++ (granted s c arrivals).1.map (fun r => (r, s.stp.timeNs)) }
    let t := setPch t c x
    if pchSt t c = 2 then t
    else match nextReq t x with
      | none => t
      | some e =>
        let r := e.1
        let t := setPch t c { x with queue := x.queue.erase e }
        let t := if rowHit s x r then t else activateRow t c r
        if r.write then { t with bus := ⟨t.bus.rdata, .ok⟩ }
        else match err with
          | .none | .transient => { t with bus := ⟨t.bus.rdata, .ok⟩ }
          | .corrected => noteCorr { t with bus := ⟨t.bus.rdata, .ok⟩ } c
          | .stays => masterError (noteUncorr { t with bus := ⟨t.bus.rdata, .error⟩ } c r.addr) r.master (r.addr.toNat / 64)

def execMemoryRequest (c : Fin 32) (arrivals : List MemReq) (err : ReadErr) (s : State) : Out := .next (memoryRequest s c arrivals err)

/-! ### Refresh and self-refresh (R335, R338) -/

def owed (s : State) (c : Nat) : Nat := s.getF (Reg.pchRefOwed c) 3 0
def setOwed (s : State) (c n : Nat) : State :=
  s.setN (Reg.pchRefOwed c) (n + max n (s.getF (Reg.pchRefOwed c) 7 4) * 0x10)

/-- The tREFI point: a new window of R337 begins; the refresh is issued, or postponed while a deadline request is held. -/
def refreshDue (s : State) (c : Nat) : State :=
  if !(pchServes s c) || decide (pchSt s c = 2) then s
  else
    let x := pch s c
    let t := setPch s c { x with win := [], thr := [], thrAt := [] }
    if !(holdsDeadline x) then t
    else if min 8 (s.getF Reg.hbmRefCfg 3 0) ≤ owed s c then (t.inc32 (Reg.pchRefForced c)).evt (Pg.pch c) 2
    else setOwed t c (owed s c + 1)

def execRefreshDue (c : Fin 32) (s : State) : Out := .next (refreshDue s c)

/-- One refresh of a make-up burst; a deadline request leaves the rest owed. -/
def refreshMakeup (s : State) (c : Nat) : State :=
  if pchServes s c && !(holdsDeadline (pch s c)) && decide (0 < owed s c) then s.setF (Reg.pchRefOwed c) 3 0 (owed s c - 1) else s

def execRefreshMakeup (c : Fin 32) (s : State) : Out := .next (refreshMakeup s c)

/-- The idle time has passed: the self-refresh-entry command is issued; a request that arrived before it aborts the entry. -/
def selfRefreshEntry (s : State) (c : Nat) : State :=
  if pchSt s c ≠ 1 ∨ s.getF Reg.hbmSrIdle 15 0 = 0 ∨ owed s c ≠ 0 then s
  else if (pch s c).queue = [] then setPchSt s c 2
  else s.inc32 (Reg.pchSrAborts c)

def execSelfRefreshEntry (c : Fin 32) (s : State) : Out := .next (selfRefreshEntry s c)

/-! ### Tracking, retraining and retirement (R340 to R344) -/

/-- The largest trim offset after a tracking window, which moves a pin's by at most one step: within one step of the largest before, in
value on the same pin, in size on another. -/
def trimTo (old : Int) (samePin : Bool) (trim : Int) : Int :=
  if samePin then clampI trim (old - 1) (old + 1)
  else
    let v := clampI trim.natAbs (old.natAbs - 1) (old.natAbs + 1)
    if trim < 0 then -v else v

/-- A tracking window, in SERVICE and DEGRADED, when the controller owes no refresh (R340). -/
def trackingWindow (s : State) (c : Nat) (trim : Int) (pin : Nat) : State :=
  if (s.mode = 2 ∨ s.mode = 3) ∧ pchSt s c = 1 ∧ owed s c = 0 then
    let was := s.reg (Reg.pchTrim c)
    let trim := trimTo (was.setWidth 8 : BitVec 8).toInt (decide (fld was 15 8 = pin)) trim
    let t := s.setN (Reg.pchTrim c) (satInt 8 trim + pin * 0x100)
    if 8 ≤ trim.natAbs then drift t c else t
  else s

def execTrackingWindow (c : Fin 32) (trim : Int) (pin : BitVec 8) (s : State) : Out := .next (trackingWindow s c trim pin.toNat)

/-- Bit 0 of RECOVER_REQ is served when no controller drifts, retrains or stands at the salvage rate. -/
def settleDrift (s : State) : State :=
  if (List.range 32).any (fun c => decide (4 ≤ pchSt s c ∧ pchSt s c ≤ 6)) then s else s.setBit Reg.watchRecoverReq 0 false

/-- The layout over the remaining controllers; the controller is RETIRED (R343). The Allotter moves and sheds at the next epoch
(R38). -/
def retirePc (s : State) (c : Nat) : State :=
  let t := (s.setBit Reg.hbmActive c false).setBit Reg.hbmRetired c true
  let t := setPch (setPchSt t c 7) c PchSt.init
  let t := useLayout t (layoutOver (regionCfg s) (activePcs t))
  let t := { t with eng := { t.eng with fitDue := true } }
  ((t.evt Pg.hbm 1).raise 0x3003 (Pg.pch c) c 0).setCause 2

/-- Retraining is under way: in RECOVERY, or for a request served in COMMISSION or TEST (R342, R414). -/
def recovering (s : State) : Bool := decide (s.mode = 4 ∨ ((s.mode = 1 ∨ s.mode = 5) ∧ s.bit Reg.watchRecoverReq 0 = true))

/-- The next drifting controller is retrained, in ascending order (R342). -/
def nextRetrain (s : State) : State :=
  if !(recovering s) || (List.range 32).any (fun c => decide (pchSt s c = 5 ∨ pchSt s c = 6)) then s
  else match firstThat (fun c => decide (pchSt s c = 4)) (List.range 32) with
    | some c => setPchSt s c 5
    | none => s

/-- After the copy of the layout a salvaged controller is RETIRED. Device addresses keep their contents (R343). -/
def hbmPcRetired (s : State) (c : Nat) : State :=
  if pchSt s c = 6 ∧ recovering s then settleDrift (nextRetrain (retirePc s c)) else s

def execHbmPcRetired (c : Fin 32) (s : State) : Out := .next (hbmPcRetired s c)

/-- Every placed channel restarts as a new coded video sequence (R344). -/
def restartAll (s : State) : State :=
  (s.placed.map (fun e => e.1)).foldl (fun t n => if (t.chan n).running then newSequence t n else t) s

/-- A controller that cannot be brought up has lost its contents (R344). -/
def losePc (s : State) (c : Nat) : State :=
  let t := retirePc (restartAll (undefContents s)) c
  ((t.evt Pg.hbm 2).evt Pg.hbm 3).raise 0x3004 (Pg.pch c) c 0

/-- The full retraining of a controller ends (R342 to R344). -/
def retrainComplete (s : State) (c : Nat) (ok salvage : Bool) : State :=
  if recovering s ∧ pchSt s c = 5 then
    if ok then settleDrift (nextRetrain ((setPchSt s c 1).setReg (Reg.pchTrim c) 0))
    else if salvage then setPchSt s c 6
    else settleDrift (nextRetrain (losePc s c))
  else s

def execRetrainComplete (c : Fin 32) (ok salvage : Bool) (s : State) : Out := .next (retrainComplete s c ok salvage)

/-! ### Parity, counters, decode errors (R347, R352, R353, R380) -/

/-- Parity of a controller's state: its requests complete with an error response, which each reading master handles as Table
15-9 gives (R380). -/
def hbmParity (s : State) (c : Nat) : State :=
  let t := setPch s c { pch s c with queue := [] }
  let t := ((pch s c).queue.filter (fun e => !e.1.write)).foldl (fun t e => masterError t e.1.master (e.1.addr.toNat / 64)) t
  (t.evt Pg.hbm 7).raise 0x3005 (Pg.pch c) c 0

def execHbmParity (loc : ParityLoc) (s : State) : Out := .next (if loc.unit < 32 then hbmParity s loc.unit else s)

/-- Parity of matrix state. -/
def execMtxParity (loc : ParityLoc) (s : State) : Out :=
  .next (((s.inc32 Reg.mtxParErr).evt Pg.mtx 0).raise 0x3006 Pg.mtx loc.unit 0)

/-- PCHc.STAT_CLR; the refreshes owed now stay owed. -/
def pchStatClr (s : State) (c : Nat) : State :=
  if s.answers (Pg.pch c) then
    (s.clearRegs [Reg.pchCorr c, Reg.pchUncorr c, Reg.pchErrAddrLo c, Reg.pchErrAddrHi c, Reg.pchRefForced c, Reg.pchSrAborts c,
      Reg.pchSrLateHits c, Reg.pchRfmCmds c, Reg.pchThrottles c]).setF (Reg.pchRefOwed c) 7 4 0
  else s

def execPchStatClr (c : Fin 32) (s : State) : Out := .next (pchStatClr s c)

/-- The page that a gang's window page shows: member `a − first` of the gang whose run holds it; none while unassigned. -/
def shownBy (s : State) (a : Nat) : Option Nat :=
  (s.gangsOf.map (fun g =>
    let r := gangRun s g.1
    if r.1 ≤ a ∧ a < r.1 + r.2 then g.2[a - r.1]? else none)).findSome? id

/-- The page that an access at a page index reaches. -/
def pageOf (s : State) (idx : Nat) : Option PageRef :=
  match pageAt idx with
  | none => none
  | some p =>
    match p.lay with
    | .aliasPg => match shownBy s p.n with
      | some b => pageAt (b / 0x1000)
      | none => none
    | _ => some p

/-- A BAR0 access that is not performed: it names no page (a window page that shows none included), or R453 does not perform it. -/
def badAccess (s : State) (off size : Nat) : Bool := (pageOf s (off / 0x1000)).isNone || decide ((size ≠ 4 ∧ size ≠ 8) ∨ off % size ≠ 0)

/-- It is counted, and a read returns 0 (R352). -/
def decodeErr (s : State) (write : Bool) : State :=
  let t := (s.inc32 Reg.mtxDecodeErr).evt Pg.mtx 2
  if write then t else t.answer [0]

def execDecodeErr (_m : Master) (offset : BitVec 26) (size : Fin 9) (write : Bool) (s : State) : Out :=
  .next (if badAccess s offset.toNat size then decodeErr s write else s)

end Sys2Proof.Machine
end

