-- ==== Sys2Proof/Machine/CvuBook.lean ====
section
/-! DEFINITION. The check-value units and the Parish Book (16_check_values_and_parish_book.md). -/

namespace Sys2Proof.Machine

open State

/-! ### Check-value units (R357 to R360) -/

def cvu (s : State) (n : Nat) : CvuSt := Store.get (fun _ => CvuSt.init) s.cvu n
def setCvu (s : State) (n : Nat) (x : CvuSt) : State := { s with cvu := Store.put (fun _ => CvuSt.init) s.cvu n x }

/-- Width w of a unit. -/
def cvuW (s : State) (n : Nat) : Nat := s.getF (Reg.cvuCfg n) 5 0 + 1
/-- A 64-bit value of a unit, without the bits at and above w (R358). -/
def cvuVal (s : State) (n lo hi : Nat) : Nat := (s.reg64 lo hi).toNat % 2 ^ cvuW s n
def cvuCur (s : State) (n : Nat) : Nat := cvuVal s n (Reg.cvuCurLo n) (Reg.cvuCurHi n)
def setCur (s : State) (n v : Nat) : State := s.setReg64 (Reg.cvuCurLo n) (Reg.cvuCurHi n) (BitVec.ofNat 64 v)
def cvuStart (s : State) (n : Nat) : Nat := s.getF (Reg.cvuStartHi n) 2 0 * 2 ^ 32 + (s.reg (Reg.cvuStartLo n)).toNat
def cvuLen (s : State) (n : Nat) : Nat := s.getF (Reg.cvuLenHi n) 2 0 * 2 ^ 32 + (s.reg (Reg.cvuLenLo n)).toNat

/-- SSTAT.ERR, with its event (R372). -/
def cvuErr (s : State) (n : Nat) : State := (s.setBit (Reg.cvuSstat n) 1 true).evt (Pg.cvu n) 1

/-- STATUS.BUSY of a unit. -/
def setBusy (s : State) (n : Nat) (b : Bool) : State := s.setBit (Pg.cvu n + hStatus) 2 b

/-- The running value over bytes read from an address on (R357). -/
def cvuRun (s : State) (n a len : Nat) : Nat :=
  crcRun (cvuW s n) (cvuVal s n (Reg.cvuPolyLo n) (Reg.cvuPolyHi n)) (s.bit (Reg.cvuCfg n) 8) (cvuCur s n) (s.memBytes a len)

/-- A write of GO (R357, R360). -/
def cvuGo (s : State) (n : Nat) (loadInit : Bool) : State :=
  if !(s.answers (Pg.cvu n)) then s
  else if (cvu s n).busy then cvuErr s n
  else
    let t := s.setReg (Reg.cvuSstat n) 0
    if cvuLen s n = 0 then cvuErr (t.refuse (Pg.cvu n) 0x0114 (wordOf (Reg.cvuLenLo n)) 0) n
    else if s.hbmEnd < cvuStart s n + cvuLen s n then cvuErr (t.refuse (Pg.cvu n) 0x0114 1 0) n
    else
      let t := setCvu (setBusy t n true) n ⟨true, cvuStart s n, cvuLen s n, false⟩
      if loadInit then setCur t n (cvuVal s n (Reg.cvuInitLo n) (Reg.cvuInitHi n)) else t

def execCvuGo (n : Fin 4) (loadInit : Bool) (s : State) : Out := .next (cvuGo s n loadInit)

/-- A write of ABORT: the scan in progress stops at the next 64-byte boundary (R359). -/
def cvuAbort (s : State) (n : Nat) : State :=
  if s.answers (Pg.cvu n) && (cvu s n).busy then setCvu s n { cvu s n with abort := true } else s

def execCvuAbort (n : Fin 4) (s : State) : Out := .next (cvuAbort s n)

/-- The scan ends (R357). -/
def cvuScanDone (s : State) (n : Nat) : State :=
  let x := cvu s n
  if !x.busy then s
  else
    let v := cvuRun s n x.start x.len
    let r := crcOut (cvuW s n) (cvuVal s n (Reg.cvuXoroutLo n) (Reg.cvuXoroutHi n)) (s.bit (Reg.cvuCfg n) 9) v
    let t := (setCur s n v).setReg64 (Reg.cvuResultLo n) (Reg.cvuResultHi n) (BitVec.ofNat 64 r)
    ((setBusy (setCvu t n CvuSt.init) n false).setBit (Reg.cvuSstat n) 0 true).evt (Pg.cvu n) 0

def execCvuScanDone (n : Fin 4) (s : State) : Out := .next (cvuScanDone s n)

/-- The address at which a scan that has read `count` bytes stops: the start of the failing 64-byte line, or the next 64-byte
boundary (R359). -/
def stopAt (x : CvuSt) (count : Nat) (err : Bool) : Nat :=
  let a := x.start + min count x.len
  if err then max x.start (a / 64 * 64) else ceilDiv a 64 * 64

/-- The scan stops early (R359); one that reaches its end completes (Table 16-6). -/
def cvuScanStopped (s : State) (n count : Nat) (err : Bool) : State :=
  let x := cvu s n
  let p := stopAt x count err
  if !x.busy || !(err || x.abort) then s
  else if !err && decide (x.start + x.len ≤ p) then cvuScanDone s n
  else
    let t := setCur s n (cvuRun s n x.start (p - x.start))
    let t := t.setReg64 (Reg.cvuNextLo n) (Reg.cvuNextHi n) (BitVec.ofNat 64 p)
    let t := t.setReg64 (Reg.cvuLeftLo n) (Reg.cvuLeftHi n) (BitVec.ofNat 64 (x.start + x.len - p))
    let t := setBusy (setCvu t n CvuSt.init) n false
    if err then cvuErr t n else (t.setBit (Reg.cvuSstat n) 2 true).evt (Pg.cvu n) 2

def execCvuScanStopped (n : Fin 4) (count : Nat) (err : Bool) (s : State) : Out := .next (cvuScanStopped s n count err)

/-! ### Lines of the Book (R361 to R366) -/

/-- A line as the Book held it before the model's start (Config.bookByte). -/
def bookDefault (key : Nat) : BLine :=
  let b (i : Nat) := (Config.bookByte key i).toNat
  let w (i : Nat) := leVal [b i, b (i + 1), b (i + 2), b (i + 3)]
  ⟨b 0, b 1, leVal [b 2, b 3], BitVec.ofNat 32 (w 4), (List.range 48).map (fun i => Config.bookByte key (8 + i)),
   BitVec.ofNat 32 (w 56), BitVec.ofNat 32 (w 60)⟩

/-- Key of a ring position. -/
def lineKey (area pos : Nat) : Nat := area * 65536 + pos

def bookLine (s : State) (key : Nat) : BLine := Store.get bookDefault s.book.lines key
def setLine (s : State) (key : Nat) (l : BLine) : State :=
  { s with book := { s.book with lines := Store.put bookDefault s.book.lines key l } }

/-- A position fails with no spare left (R363). -/
def deadLine (s : State) (key : Nat) : State :=
  (({ s with book := { s.book with dead := key :: s.book.dead } }).evt Pg.pbook 3).raise 0x8003 Pg.pbook 0 0

/-- Physical lines: a spare by its number, and the line that holds a position. -/
def spareKey (i : Nat) : Nat := lineKey 3 i
def physLine (s : State) (key : Nat) : Nat :=
  match Store.get (fun _ => 0) s.book.spareAt key with
  | 0 => key
  | i + 1 => spareKey i

/-- A spare is mapped to a position. -/
def useSpare (s : State) (key i : Nat) : State :=
  { s with book := { s.book with spareAt := Store.put (fun _ => 0) s.book.spareAt key (i + 1) } }

/-- A physical line is programmed once more; WEAR_MAX is the highest such count in thousands (Table 16-5). -/
def countWear (s : State) (phys : Nat) : State :=
  let n := Store.get Config.lineWear s.book.wear phys + 1
  ({ s with book := { s.book with wear := Store.put Config.lineWear s.book.wear phys n } }).setN Reg.pbookWearMax
    (max (s.reg Reg.pbookWearMax).toNat (n / 1000))

/-- Program one line; a line that fails verification goes to a spare (R363). A position that has failed stays so. -/
def programLine (s : State) (x : Staged) (verifyOk : Bool) : State :=
  let key := lineKey x.area x.pos
  let left := s.getF Reg.pbookSpares 9 0
  let t := countWear (setLine s key x.line) (physLine s key)
  if verifyOk || s.book.dead.contains key then t
  else if 0 < left then
    (countWear (useSpare (t.setF Reg.pbookSpares 9 0 (left - 1)) key (512 - left)) (spareKey (512 - left))).evt Pg.pbook 2
  else deadLine t key

/-- A fault line that further occurrences in the Steeple frame in progress still raise (R367): it stays staged. -/
def lineOpen (s : State) (x : Staged) : Bool :=
  s.running && decide (x.area = 0 ∧ x.line.type = 1) &&
    decide (leVal ((x.line.payload.take 2).map BitVec.toNat) ≠ 0xFFFF ∧
      leVal (((x.line.payload.drop 4).take 4).map BitVec.toNat) = s.frame.toNat)

/-- The Book programs the oldest staged line that is complete (R364). -/
def bookLineProgram (s : State) (verifyOk : Bool) : State :=
  match s.book.staged.find? (fun x => !(lineOpen s x)) with
  | none => s
  | some x => programLine ({ s with book := { s.book with staged := s.book.staged.erase x } } : State).bufLevel x verifyOk

def execBookLineProgram (verifyOk : Bool) (s : State) : Out := .next (bookLineProgram s verifyOk)

/-- Commit every staged line (R417, R428). -/
def commitLines (s : State) : State :=
  s.book.staged.foldl (fun t x => programLine t x true) ({ s with book := { s.book with staged := [] } } : State).bufLevel

/-- The ring position of a SEQ that R362 places in an area. -/
def placeOf (s : State) (area : Nat) (seq : Word) : Option Nat :=
  let d := (s.reg (Reg.pbookAreaHead area) - seq).toNat
  if area ≤ 2 ∧ 1 ≤ d ∧ d ≤ areaLines area then some ((s.bookCount area + areaLines area - d) % areaLines area) else none

/-- The 64 bytes of a line (Table 16-3). -/
def allBytes (l : BLine) : List Nat := lineBytes l ++ leBytes 4 l.chkA.toNat ++ leBytes 4 l.chkB.toNat

/-- RD_DATA0 to RD_DATA15. -/
def putLine (s : State) (l : BLine) : State :=
  s.putData (Reg.pbookRdData 0) 16 ((chunks 4 64 (allBytes l)).map (fun g => BitVec.ofNat 32 (leVal g)))

/-- RD_STAT: DONE and RESULT. -/
def readStat (s : State) (result : Nat) : State := s.setN Reg.pbookRdStat (1 + 2 * result)

/-- A line read as BAD (R366). -/
def readBad (s : State) (area : Nat) (seq : Word) (l : BLine) : State :=
  (((readStat (putLine s l) 2).inc32 Reg.pbookLineBad).evt Pg.pbook 1).raise 0x8002 Pg.pbook area seq.toNat

/-- A line read as REPAIRED (R366): it is staged to be programmed again with both checks recomputed. -/
def readRepaired (s : State) (area pos : Nat) (seq : Word) (l : BLine) : State :=
  let again := s.book.closed || s.book.staged.any (fun x => x.repair && decide (x.area = area ∧ x.pos = pos))
  let t := if again then s
    else ({ s with book := { s.book with staged := s.book.staged ++ [⟨area, pos, sealLine l pos, true⟩] } } : State).bufLevel
  (((readStat (putLine t l) 1).inc32 Reg.pbookChkRepair).evt Pg.pbook 0).raise 0x8001 Pg.pbook area seq.toNat

/-- A write of RD_GO (R364, R366, R371). -/
def bookRead (s : State) : State :=
  let area := s.getF Reg.pbookRdArea 1 0
  let seq := s.reg Reg.pbookRdSeq
  if !(s.answers Pg.pbook) then s
  else match placeOf s area seq with
    | none => readStat s 3
    | some pos =>
      match s.book.staged.find? (fun x => !x.repair && decide (x.area = area ∧ x.pos = pos)) with
      | some x => readStat (putLine s x.line) 0
      | none =>
        let l := bookLine s (lineKey area pos)
        let c := lineChecks l pos
        if s.book.dead.contains (lineKey area pos) || decide (l.chkA ≠ c.1 ∧ l.chkB ≠ c.2) then readBad s area seq l
        else if l.chkA = c.1 ∧ l.chkB = c.2 then readStat (putLine s l) 0
        else readRepaired s area pos seq l

def execBookRead (s : State) : Out := .next (bookRead s)

/-! ### Snapshots (R368) -/

/-- All blocks of a snapshot: page index, block number, words. -/
def snapBlocks (s : State) : List (Nat × Nat × List Nat) :=
  snapshotPages.flatMap (fun p => (pageBlocks s p s.reg).map (fun e => (p.index, e.1, e.2)))

/-- Write a snapshot and its end line. A closed Book accepts none (R428). -/
def snapshot (s : State) : State :=
  if s.book.closed then s
  else
    let l := snapBlocks s
    let t := l.foldl (fun (t : State) e => t.stageLine 1 2 e.2.1 e.1 (e.2.2.flatMap (leBytes 4))) s
    (t.stageLine 1 3 0 0 (leBytes 8 (s.reg64 Reg.devPlaceDigestLo Reg.devPlaceDigestHi).toNat ++ leBytes 4 s.frame.toNat ++
      leBytes 6 s.ptpSeconds ++ leBytes 4 l.length)).evt Pg.pbook 7

def snapWrite (s : State) : State := if s.answers Pg.pbook then snapshot s else s

def execSnap (s : State) : Out := .next (snapWrite s)

/-! ### The as-aired record (R369, R370) -/

/-- A record period closes at a channel frame start at or after a whole second of PTP time. -/
def recordClose (s : State) (n : Nat) : State :=
  let c := s.chan n
  if c.running && decide (c.startFr = s.frame) && (match c.air.sec with | some x => decide (x < s.secAtFrame) | none => false) then
    s.closeAir n false
  else s

def execRecordClose (n : Fin 128) (s : State) : Out := .next (recordClose s n)

end Sys2Proof.Machine
end

