-- ==== Sys2Proof/Machine/Actions.lean ====
section
/-! DEFINITION. Firings of the action slots and the accepted Steeple step (01_steeple_time.md, R25 to R33), which reach the
commits of the other blocks. -/

namespace Sys2Proof.Machine

open State

/-- A write of 1 to CTRL.COMMIT of a page, where COMMIT has an effect (R448). -/
def pageCommit (s : State) (p : PageRef) : State :=
  match p.lay with
  | .chcomp => chcompCommit s p.n
  | .mon => monCommit s
  | .eport => eportCommit s p.n
  | .hbm => hbmLayoutCommit s
  | _ => s

/-- The COMMIT effect of a slot (R29). -/
def commitIndex (s : State) (idx : Nat) : State :=
  match pageAt idx with
  | some p => pageCommit s p
  | none => s

/-- Width of a slot's pulse in FRAC units: WIDTH in 1/64 line, clipped to the period less 1/64 line (R31). -/
def pulseWidth (s : State) (n : Nat) : Nat :=
  let w := max 1 (s.getF (Reg.stpActCtrl n) 27 16) * 4096
  if actPeriod s n = 0 then w else min w (actPeriod s n - 4096)

/-- Drive a TIME_OUT pin; pulses that have ended are dropped. -/
def pulse (s : State) (n : Nat) : State :=
  let live := s.stp.pulses.filter (fun p => later (s.posAdd p.start p.width) s.stp.pos)
  { s with stp := { s.stp with pulses := live ++ [⟨n, s.getF (Reg.stpActCtrl n) 10 8, s.stp.pos, pulseWidth s n⟩] } }

/-- The interrupt of a slot: Belfry source 64 + n (R29). -/
def actIrq (s : State) (n : Nat) : State :=
  (if s.isEdge (64 + n) then s.assertEdge (64 + n) else s.fireBinding (64 + n)).updateLines

/-- The effects selected in ACTn_CTRL, all at one instant (R27, R29). -/
def fireEffects (s : State) (n : Nat) : State :=
  let c := s.reg (Reg.stpActCtrl n)
  let t := if c.getLsbD 1 then pulse s n else s
  let t := if c.getLsbD 2 then actIrq t n else t
  let t := if c.getLsbD 3 then t.vecReq (s.getF (Reg.stpActThread n) 11 0) else t
  if c.getLsbD 4 then commitIndex t (s.getF (Reg.stpActPage n) 15 0) else t

/-- An armed slot reaches its next point: a one-shot disarms, a periodic slot goes on (R27, R30). -/
def actionFire (s : State) (n : Nat) : State :=
  if !s.running || !(actArmed s n) then s
  else
    let g := actNext s n
    let t := fireEffects (s.toPos g) n
    if actPeriod s n = 0 then disarm t n else setActNext t n (s.posAdd g (actPeriod s n))

def execActionFire (n : Fin 64) (s : State) : Out := .next (actionFire s n)

/-! ### The accepted step (R25, R26, R33) -/

/-- One armed slot at a step to the present position (R33). DEDUCED: a target at the position reached counts as passed over
(notes/assumptions/10.md). -/
def stepSlot (s : State) (n : Nat) : State :=
  let g := actNext s n
  let P := actPeriod s n
  if !(actArmed s n) || later g s.stp.pos then s
  else if P = 0 then disarm ((fireEffects s n).setBit (Reg.stpActStatus n) 2 true) n
  else
    let k := unitsBetween s g s.stp.pos / P + 1
    skipPoints (setActNext s n (s.posAdd g (k * P))) n k

/-- Every running channel ends its frame at the step (R26): what it has passed over leaves at the step, and its pending commit is copied
(R163). -/
def stepChan (s : State) (n : Nat) : State :=
  let t := s.modChan n (fun c => { c with cutFrames := if c.frame = 0 then c.cutFrames else (c.frame - 1) :: c.cutFrames, air := { c.air with step := true } })
  stepCommit (passSlices t n) n

/-- The accepted jump as one forward step of the phase difference modulo a frame (R25), at a Steeple frame start. -/
def applyStep (s : State) (err : Int) : State :=
  let F : Int := s.frameUnits
  let d := ((-err) % F).toNat
  let t := s.setPos (posOf s.frame d)
  let t := keepGmTime (t.setPtpMap (((s.ptpMap : Int) - ((d : Int) + err) / F) % 2 ^ 48).toNat) s.localTime
  let t := { t.setBit Reg.stpState 6 false with stp := { t.stp with accepted := false, okRun := 0, okFrame := none, glitches := [], measured := none } }
  let t := (List.range 64).foldl stepSlot t
  let t := (t.chans.filter (fun e => e.2.running)).foldl (fun t e => stepChan t e.1) t
  (monStep t).raise 0x1004 Pg.stp (d / 262144) 0

/-- The Steeple frame start at which an accepted jump is applied. -/
def steepleStep (s : State) : State :=
  match s.stp.measured with
  | some e =>
    if s.running && s.stp.accepted && !s.stp.lost && !(s.bit Reg.stpState 5) then applyStep s.toFrameStart e else s
  | none => s

def execSteepleStep (s : State) : Out := .next (steepleStep s)

end Sys2Proof.Machine
end

