-- ==== Sys2Proof/Machine/Allotter.lean ====
section
/-! DEFINITION. The commands of the Allotter (02_channels_and_allotment.md) but for frame starts and control lines. -/

namespace Sys2Proof.Machine

/-- Compare the digests of one epoch (R395): DIGEST_MISMATCH at the first that differs after one that agreed. -/
def compareDigests (s : State) : State :=
  match s.twin.ownDigest, s.twin.twinDigest with
  | some (f, p, c), some (g, q, d) =>
    if f ≠ g then s
    else
      let t := (s.setBit Reg.stileState 11 (decide (p ≠ q))).setBit Reg.stileState 12 (decide (c ≠ d))
      let same := decide (p = q ∧ c = d)
      let t := if !same && s.twin.agreedEpoch then
          t.raise 0x7006 Pg.stile ((if p ≠ q then p else c).setWidth 32).toNat ((if p ≠ q then q else d).setWidth 32).toNat
        else t
      let t := if same then t else t.evt Pg.stile 11
      { t with twin := { t.twin with agreedEpoch := same, ownDigest := none, twinDigest := none } }
  | _, _ => s

/-- The digests of the epoch are computed, sent and compared in twin mode (R395). -/
def sendDigest (s : State) : State :=
  if s.inStep then
    let c := s.cfgDigest
    let p := s.reg64 Reg.devPlaceDigestLo Reg.devPlaceDigestHi
    let t := s.setReg64 Reg.stileCfgDigestLo Reg.stileCfgDigestHi c
    let t := { t with twin := { t.twin with ownDigest := some (s.frame, p, c) } }
    compareDigests (if s.twinUp then { t with sent := .digest s.frame p c (stileRows t 0x12 (digestBytes s.frame p c)) :: t.sent } else t)
  else s

/-- Everything at line 0 of a Steeple frame (R38, R39). The frame start in progress is handled once; after it, the next
frame start is reached (notes/assumptions/2.md). The Allotter acts only while Steeple runs (R458). -/
def placementEpoch (s : State) : State :=
  if s.running then
    let t := if s.inFrame = 0 ∧ s.stp.epochOf ≠ some s.frame then s else s.enterFrame 1 0
    sendDigest ({ t with stp := { t.stp with epochOf := some t.frame } } : State).epoch
  else s

def execPlacementEpoch (s : State) : Out := .next (placementEpoch s)

/-- ENABLE 0→1 on a CH page (R38, R449): the check runs at the next epoch. -/
def channelEnable (s : State) (n : Nat) : State :=
  if !(s.answers (Pg.ch n)) || s.enabled (Pg.ch n) then s
  else (s.setBit (Pg.ch n + hCtrl) 0 true).setBit (Pg.ch n + hStatus) 2 true

def execChannelEnable (n : Fin 128) (s : State) : Out := .next (channelEnable s n)

/-- A channel that is to stop without a frame in progress is released at the next epoch (R60). -/
def stopIdle (s : State) (n : Nat) : State := s.modChan n (fun c => { c with endPos := some s.stp.pos })

/-- The channel stops: at the end of its frame while it runs, at the next epoch otherwise (R60). -/
def stopChan (s : State) (n : Nat) : State :=
  if (s.chan n).running then s.modChan n (fun c => { c with stopping := true }) else stopIdle s n

/-- ENABLE 1→0 on a CH page (R60, Table 2-11). -/
def channelDisable (s : State) (n : Nat) : State :=
  if !(s.answers (Pg.ch n)) || !(s.enabled (Pg.ch n)) then s
  else
    let t := s.setBit (Pg.ch n + hCtrl) 0 false
    if s.bit (Pg.ch n + hStatus) 2 then t.setBit (Pg.ch n + hStatus) 2 false
    else if s.allotState n = 5 then
      let t := if (s.chan n).place.isSome then t else (t.setAllotState n 0).unitDegraded (Pg.ch n) false
      if (s.chan n).place.isSome || (List.range 128).any (fun m => decide (t.allotState m = 5)) then t else t.clearCause 6
    else if (s.chan n).place.isNone then t
    else
      let t := t.setBit (Pg.ch n + hStatus) 0 false
      if s.bit (Pg.ch n + hCtrl) 2 then t.setAllotState n 3 else stopChan t n

def execChannelDisable (n : Fin 128) (s : State) : Out := .next (channelDisable s n)

/-- CTRL.QUIESCE written 1 (R59): in effect from the next frame start. -/
def quiesceSet (s : State) (n : Nat) : State :=
  if s.answers (Pg.ch n) then s.setBit (Pg.ch n + hCtrl) 2 true else s

def execQuiesceSet (n : Fin 128) (s : State) : Out := .next (quiesceSet s n)

/-- CTRL.QUIESCE written 0 (R59); a HELD channel that has not been enabled again leaves HELD and stops (R61). -/
def quiesceClear (s : State) (n : Nat) : State :=
  if !(s.answers (Pg.ch n)) then s
  else
    let t := s.setBit (Pg.ch n + hCtrl) 2 false
    if s.allotState n = 3 ∧ !(s.enabled (Pg.ch n)) then stopChan (t.setAllotState n 2) n else t

def execQuiesceClear (n : Fin 128) (s : State) : Out := .next (quiesceClear s n)

/-- DEV.ALLOT_COMPACT (R62): compaction runs at the epochs that follow. -/
def allotCompact (s : State) : State := if s.answers Pg.dev then { s with eng := { s.eng with compact := true } } else s

def execAllotCompact (s : State) : Out := .next (allotCompact s)

/-- The last frame in a channel's old extent has retired: the extent is freed (R62). -/
def oldExtentFreed (s : State) (n : Nat) : State :=
  let c := s.chan n
  if c.oldExt.isSome ∧ c.oldLeft = 0 then
    (s.setChan n { c with oldExt := none }).settleMove n
  else s

def execOldExtentFreed (n : Fin 128) (s : State) : Out := .next (oldExtentFreed s n)

/-- An engine may lend: LOAN_OK and not FAILED (R381, R382). -/
def mayLend (s : State) (k : Nat) : Bool :=
  match (s.slot k).eng with
  | some e => s.bit (Pg.ee e + hCtrl) 3 && s.enabled (Pg.ee e)
  | none => false

/-- The loaned engine returns at a rotation point if it passed; a member's turn needs a spare to take its slot. -/
def spareFor (s : State) : Option Nat :=
  match s.eng.standby with
  | some b => some b
  | none => if s.eng.loanPass then s.eng.loan else none

/-- A loan is noted: SEXTON.EVT bit 1 once all 34 engines have been loaned since the last such event (R385). -/
def noteLoan (s : State) (e : Nat) : State :=
  let l := if s.eng.loaned.contains e then s.eng.loaned else e :: s.eng.loaned
  if l.length = 34 then ({ s with eng := { s.eng with loaned := [] } }).evt Pg.sexton 1
  else { s with eng := { s.eng with loaned := l } }

/-- Hand a slot over (R64): the spare takes the slot and the member goes on LOAN; the engine just returned becomes
STANDBY when it passed its test. -/
def handOver (s : State) (k : Nat) : State :=
  match (s.slot k).eng, spareFor s with
  | some m, some b =>
    let back := if s.eng.standby.isSome && s.eng.loanPass then s.eng.loan else none
    let t := { s with eng := { s.eng with loan := some m, standby := back, loanPass := false, chosen := none } }
    let t := t.giveSlot k (some b)
    let t := match back with | some x => t.syncEngine x | none => t
    ((noteLoan t m).syncSpares).sparesCause
  | _, _ => { s with eng := { s.eng with chosen := none } }

/-- A rotation point (R64, R382): FRAME mod Tr is 0. It is deferred where the epoch changed a placement (Table 2-11),
passes over slots that lend nothing, and waits for the member's CTU row. -/
def rotationPoint (s : State) : State :=
  let t := s.toFrameStart
  let tr := max 1 (t.getF Reg.sextonRotFrames 3 0)
  if !(t.enabled Pg.sexton) || !t.running || decide (t.frame.toNat % tr ≠ 0) || t.eng.changed ||
      (t.eng.loan.isSome && !t.eng.loanPass) then t
  else
    let order := (List.range 32).map (fun i => (t.eng.rotNext + i) % 32)
    match firstThat (fun k => mayLend t k) order with
    | none => t
    | some k =>
      let t := { t with eng := { t.eng with rotNext := (k + 1) % 32, chosen := some k } }.syncSpares
      if (t.slot k).job.isSome then t else handOver t k

def execRotationPoint (s : State) : Out := .next (rotationPoint s)

/-- The chosen member has finished its CTU row (R64). -/
def rotationHandover (s : State) : State :=
  match s.eng.chosen with
  | some k => if (s.slot k).job.isSome then s else handOver s k
  | none => s

def execRotationHandover (s : State) : Out := .next (rotationHandover s)

end Sys2Proof.Machine
end

