-- ==== Sys2Proof/Machine/NetTime.lean ====
section
/-! DEFINITION. Ethernet ports and network time (10_network_time.md). -/

namespace Sys2Proof.Machine

open State

/-! ### Ports (R243 to R247) -/

/-- MODE and MTU hold values that the chapter defines (R243, R245, R449). -/
def ethCheck (s : State) (x : Nat) : Option Refusing :=
  firstFail [
    need (decide (2 ≤ x ∨ s.getF (Reg.ethMode x) 1 0 ≤ 2)) 0x0115 (wordOf (Reg.ethMode x)) 0,
    need (decide (1518 ≤ portMtu s (if 2 ≤ x then x + 6 else 4 * x) ∧ portMtu s (if 2 ≤ x then x + 6 else 4 * x) ≤ 9216)) 0x0115
      (wordOf (Reg.ethMtu x)) 0]

/-- ENABLE 0→1 on an ETHx page. -/
def ethEnable (s : State) (x : Nat) : State :=
  if !(s.answers (Pg.eth x)) || s.enabled (Pg.eth x) then s
  else match ethCheck s x with
    | some r => s.failCheck (Pg.eth x) r.code r.word r.page
    | none => showPorts (s.activate (Pg.eth x))

def execEthEnable (x : Fin 4) (s : State) : Out := .next (ethEnable s x)

/-- ENABLE 1→0 on an ETHx page: no link. -/
def ethDisable (s : State) (x : Nat) : State :=
  settlePaths (showPorts (((s.deactivate (Pg.eth x)).setF (Reg.ethLink x) 11 0 0).unitDegraded (Pg.eth x) false))

def ethStatClr (s : State) (x : Nat) : State :=
  if s.answers (Pg.eth x) then
    s.clearRegs [Reg.ethFecCorr x, Reg.ethFecUncorr x, Reg.ethRxDrop x, Reg.ethRxPause x, Reg.ethRxOther x]
  else s

def execEthStatClr (x : Fin 4) (s : State) : Out := .next (ethStatClr s x)

/-- Reference clock of a port: ETHREFCLK0 serves ETHA and CASA, ETHREFCLK1 ETHB and CASB (Table 19-6). -/
def portClock (x : Nat) : Nat := x % 2

/-- A port's link and FEC lock come up (R244, Table 17-4). -/
def portLinkUp (s : State) (x sub : Nat) : State :=
  if s.enabled (Pg.eth x) && decide (sub < subPorts s x) && s.bit Reg.devClkStat (portClock x) then
    settlePaths ((s.setBit (Reg.ethLink x) sub true).setBit (Reg.ethLink x) (4 + sub) true)
  else s

def execPortLinkUp (x : Fin 4) (sub : Fin 4) (s : State) : Out := .next (portLinkUp s x sub)

/-- The slave port (R249). -/
def slavePort (s : State) : Nat := s.getF Reg.ptpCfg 0 0

/-- The PTP source is lost (R256): at once for ingest, and for Steeple where it selects PTP. -/
def ptpLost (s : State) : State :=
  let t := { s with ptp := { s.ptp with lost := true, changing := false } }
  if srcSel t = 2 then refLost t else t

/-- A sub-port's link goes down (R420, Table 10-5). Port state 4 is LISTENING. -/
def linePortDown (s : State) (x sub : Nat) : State :=
  if s.bit (Reg.ethLink x) sub then
    let t := (s.setBit (Reg.ethLink x) sub false).setBit (Reg.ethLink x) (4 + sub) false
    let t := t.raise 0x6004 (Pg.eth x) x sub
    if t.enabled Pg.ptp && decide (x = slavePort s) then ptpLost (t.setF Reg.ptpPortState 3 0 4) else t
  else s

def execLinePortDown (x : Fin 4) (sub : Fin 4) (s : State) : Out := .next (linePortDown s x sub)

/-- Where a received frame goes (R244 to R246). -/
inductive LineFrame where
  | pausePfc
  | oversizeOrBadFcs
  | ptp (event : Bool)
  | ptpDiscarded
  | receiveFlow (entry : Nat)
  | audioFlow (entry : Nat)
  | network
  | other
  deriving DecidableEq, Repr

/-- The destination that words 1 to 4 of a table entry hold (Table 9-2). -/
def entryDst (l : List Word) (v6 : Bool) : List Nat :=
  let d := (List.range 4).flatMap (fun i => leBytes 4 (l.getD (1 + i) 0).toNat)
  if v6 then d else d.drop 12

/-- The UDP destination of a frame is that of a table entry with its IPv6 bit at `b`. -/
def entryMatches (h : RxHead) (l : List Word) (b : Nat) : Bool :=
  let v6 := (l.getD 0 0).getLsbD b
  decide (h.proto = 17 ∧ v6 = h.v6 ∧ entryDst l v6 = h.dst ∧ fld (l.getD 5 0) 15 0 = h.dport)

/-- MAC address of a port, in the order of the wire. -/
def portMac (s : State) (x : Nat) : List Nat := beBytes 6 (s.getF (Reg.ethMacHi x) 15 0 * 2 ^ 32 + (s.reg (Reg.ethMacLo x)).toNat)

/-- ARP, ICMP, ICMPv6 or IGMP to the port's address or to a group (R246). -/
def forNetwork (s : State) (x : Nat) (b : List Nat) (h : RxHead) : Bool :=
  decide (h.etype = 0x0806 ∨ (h.v6 = false ∧ (h.proto = 1 ∨ h.proto = 2)) ∨ (h.v6 = true ∧ h.proto = 58)) &&
  (decide (b.take 6 = portMac s x) || decide (byteAt b 0 % 2 = 1))

/-- MTU of an ETHx page, by its first port. -/
def ethMtuOf (s : State) (x : Nat) : Nat := portMtu s (if 2 ≤ x then x + 6 else 4 * x)

/-- What no port takes: flow control, and a frame too large or damaged (R244, R245). -/
def refusedFrame (s : State) (x : Nat) (b : List Nat) : Option LineFrame :=
  if ethMtuOf s x < b.length || !(fcsOk b) then some .oversizeOrBadFcs
  else if (rxHead b).etype = 0x8808 then some .pausePfc
  else none

/-- The sorting of a frame on a line port: the first rule that matches (R246, R248). -/
def sortFrame (s : State) (x : Nat) (b : List Nat) : LineFrame :=
  let h := rxHead b
  match refusedFrame s x b with
  | some f => f
  | none =>
    if isPtp h then
      if decide (ptpType b ∈ [2, 3, 10, 12, 13]) && s.enabled Pg.ptp && decide (ptpDomainOf b = s.getF Reg.ptpDomain 7 0) then .ptpDiscarded
      else .ptp (isEvent b)
    else match s.ing.flows.find? (fun e => (e.2.getD 0 0).getLsbD 0 && entryMatches h e.2 1) with
      | some e => .receiveFlow e.1
      | none => match s.aud.flows.find? (fun e => (e.2.getD 0 0).getLsbD x && entryMatches h e.2 2) with
        | some e => .audioFlow e.1
        | none => if forNetwork s x b h then .network else .other

/-- A frame waits to be forwarded on a port, an event message with its ingress timestamp (R247, R253). -/
def forwardFrame (s : State) (x p : Nat) (bytes : List (BitVec 8)) : State :=
  if portMtu s p < bytes.length then s
  else
    enqueue s ⟨0, portPathB p, p, 0, 0, bytes.length, s.stp.pos, true,
      if isEvent (bytes.map BitVec.toNat) then some (rxStamp s x) else none, false, bytes⟩

/-- A frame received on a line port (R244 to R246). What an input, an audio flow or the network thread does with it is that packet's own
command; a PTP frame goes on to the cascade port of its path where CAS_FWD is set (R247). -/
def linePortFrame (s : State) (x : Nat) (bytes : List (BitVec 8)) : State :=
  if !(s.enabled (Pg.eth x)) || decide (s.getF (Reg.ethLink x) 3 0 = 0) then s
  else match sortFrame s x (bytes.map BitVec.toNat) with
    | .pausePfc => s.inc32 (Reg.ethRxPause x)
    | .oversizeOrBadFcs => s.inc32 (Reg.ethRxDrop x)
    | .ptp _ => if s.bit Reg.ptpCfg 8 && s.enabled (Pg.eth (2 + x)) then forwardFrame s x (8 + x) bytes else s
    | .ptpDiscarded => s.inc32 Reg.ptpDiscards
    | .receiveFlow _ => s
    | .audioFlow _ => s
    | .network => s
    | .other => s.inc32 (Reg.ethRxOther x)

def execLinePortFrame (x : Fin 2) (bytes : List (BitVec 8)) (s : State) : Out := .next (linePortFrame s x bytes)

/-- A frame received on a cascade port waits for the line port that CAS_MAP names (R244, R245, R247). -/
def cascadeFrame (s : State) (x : Nat) (bytes : List (BitVec 8)) : State :=
  if !(s.enabled (Pg.eth (2 + x))) || !(s.bit (Reg.ethLink (2 + x)) 0) then s
  else match refusedFrame s (2 + x) (bytes.map BitVec.toNat) with
    | some .pausePfc => s.inc32 (Reg.ethRxPause (2 + x))
    | some _ => s.inc32 (Reg.ethRxDrop (2 + x))
    | none => forwardFrame s (2 + x) (4 * x + s.getF (Reg.ethCasMap (2 + x)) 1 0) bytes

def execCascadeFrame (x : Fin 2) (bytes : List (BitVec 8)) (s : State) : Out := .next (cascadeFrame s x bytes)

/-! ### PTP (R248 to R258) -/

/-- ENABLE 0→1 on the PTP page: every field value is defined; the slave port listens. -/
def ptpEnable (s : State) : State :=
  if !(s.answers Pg.ptp) || s.enabled Pg.ptp then s
  else
    let t := (s.activate Pg.ptp).setF Reg.ptpPortState 3 0 4
    { t with ptp := { t.ptp with annAt := t.stp.pos, syncAt := t.stp.pos } }

def execPtpEnable (s : State) : Out := .next (ptpEnable s)

/-- ENABLE 1→0 on the PTP page. -/
def ptpDisable (s : State) : State :=
  let t := (s.deactivate Pg.ptp).setReg Reg.ptpPortState 0
  let t := { t with ptp := { t.ptp with reqs := [], recent := [], kept := [], lastSync := none, master := 0, changing := false } }
  if srcSel t = 2 then refLost t else t

/-- The port listens to a message of the domain (R248). -/
def hears (s : State) (x : Nat) (domain : BitVec 8) : Bool :=
  s.enabled Pg.ptp && s.enabled (Pg.eth x) && decide (domain.toNat = s.getF Reg.ptpDomain 7 0)

/-- The port is the slave port, in UNCALIBRATED (8) or SLAVE (9). -/
def slaveOn (s : State) (x : Nat) : Bool :=
  decide (x = slavePort s ∧ (s.getF Reg.ptpPortState 3 0 = 8 ∨ s.getF Reg.ptpPortState 3 0 = 9))

/-- Take or leave the master role on ports; EVT bit 3 when it is taken. While it is held the difference of R209 is 0. -/
def setMaster (s : State) (b : BitVec 4) : State :=
  let b := if slaveOnly s then 0 else b &&& BitVec.ofNat 4 (s.getF Reg.ptpCfg 7 4)
  let t := { s with ptp := { s.ptp with master := b, diff := if b = 0 then s.ptp.diff else 0 } }
  if b &&& ~~~ s.ptp.master = 0#4 then t else t.evt Pg.ptp 3

/-! ### Sync (R252, R254 to R256) -/

/-- Mean path delay in 2^-16 ns (R252). -/
def meanDelay (s : State) : Int := s.ptp.kept.foldl (· + ·) 0 / ((max 1 s.ptp.kept.length : Nat) : Int)

/-- FRAC units by which the local time lies after the grandmaster's. -/
def aheadUnits (s : State) (diff : Int) : Int :=
  let (n, d) := s.framePeriod
  (0 - diff) * (s.frameUnits * d : Nat) / (n * 65536000000000 : Nat)

/-- The phase error (R255): the position against the alignment points of the grandmaster's time, within half a frame. -/
def phaseErr (s : State) (diff : Int) : Int :=
  let m := aheadUnits s diff % (s.frameUnits : Int)
  if 2 * m ≤ s.frameUnits then m else m - s.frameUnits

/-- MAP at a lock to PTP (R254): frame starts fall on the alignment points. The local counter follows, and the difference with it. -/
def alignMap (s : State) (diff : Int) : State :=
  let j := (aheadUnits s diff - phaseErr s diff) / (s.frameUnits : Int)
  keepGmTime (s.setPtpMap (((s.ptpMap : Int) - j) % 2 ^ 48).toNat) s.localTime

/-- 16 consecutive errors above 1 µs take LOCKED back to ACQUIRE (R255). -/
def countBad (s : State) (e : Int) : State :=
  let run := if 1000 < errNs s e then min 16 (s.stp.badRun + 1) else 0
  let t := { s with stp := { s.stp with badRun := run } }
  if run = 16 ∧ t.stpSt = 2 then setSt { t with stp := { t.stp with badRun := 0, okRun := 0 } } 1 else t

/-- What a Sync measures for Steeple (R255, R256). -/
def syncSteeple (s : State) (diff ppb : Int) : State :=
  let e := phaseErr s diff
  if !s.running || decide (srcSel s ≠ 2) then s
  else if 100000 < ppb.natAbs then rateRefused s
  else
    let t := { s.setBit Reg.stpState 5 false with stp := { s.stp with lost := false } }
    let t := setPhaseErr t e
    if t.ptp.changing ∧ t.ptp.gmSyncs < 15 then
      { t with ptp := { t.ptp with gmSyncs := t.ptp.gmSyncs + 1 }, stp := { t.stp with measured := some e } }
    else
      let t := { t with ptp := { t.ptp with changing := false, gmSyncs := 0 } }
      let u := countBad (countOk (measure t e ppb) e) e
      if u.stpSt = 2 ∧ s.stpSt ≠ 2 then alignMap u diff else u

/-- A Sync on the slave port (R252, R255): t1 is its origin time with its corrections, t2 the ingress timestamp. -/
def sync (s : State) (x : Nat) (domain : BitVec 8) (origin : Nat) (corr ppb : Int) : State :=
  if !(hears s x domain) || !(slaveOn s x) then s
  else
    let t1 := (origin : Int) * 65536 + corr
    let t2 := rxStamp s x
    let diff := t1 + meanDelay s - t2
    let t := s.setN Reg.ptpOffset (satInt 32 (diff / 65536))
    let t := { t with ptp := { t.ptp with diff := if (List.range 4).any (masterOn s) then 0 else diff, lastSync := some (t1, t2), lost := false
                                          syncAt := t.stp.pos } }
    syncSteeple t diff ppb

def execSync (x : Fin 4) (domain : BitVec 8) (origin : Nat) (corr ppb : Int) (s : State) : Out := .next (sync s x domain origin corr ppb)

/-! ### Messages of the device (R248, R249, R251) -/

/-- A nibble of INTERVALS as a signed logarithm, and the interval in ns. -/
def logOf (s : State) (hi lo : Nat) : Int := (BitVec.ofNat 4 (s.getF Reg.ptpIntervals hi lo)).toInt
def intervalNs (l : Int) : Nat := if 0 ≤ l then 1000000000 * 2 ^ l.toNat else 1000000000 / 2 ^ (-l).toNat

/-- The transmission of a PTP frame begins (R231, R233): after the frame in transmission, in a window in which it fits. -/
def ptpStart (s : State) (x len : Nat) : State :=
  let p := if 2 ≤ x then x + 6 else 4 * x
  if !s.running then s
  else
    let t := s.toPos (Store.get (fun _ => s.stp.pos) s.etm.busy p)
    let w := (calWindow t p).2
    let t := if p < 8 ∧ bytesIn t p w < len + overhead t p then t.toPos (t.posAdd t.stp.pos w) else t
    { t with etm := { t.etm with
      busy := Store.put (fun _ => 0) t.etm.busy p (t.posAdd t.stp.pos (t.nsToUnits (ceilDiv ((len + overhead t p) * 8000) (portRate t p)))) } }

/-- Bytes of a PTP frame whose message body has `n` bytes. -/
def ptpLen (s : State) (n : Nat) : Nat := 14 + (if s.bit Reg.ptpCfg 1 then 40 else 20) + 8 + 34 + n + 4

/-- A PTP frame of a port: to 224.0.1.129 or FF0E::181, ports 319 for event messages and 320 for others (R248). -/
def ptpFrame (s : State) (x : Nat) (m : PtpMsg) (body : List Nat) : List Nat :=
  let v6 := s.bit Reg.ptpCfg 1
  let udp := if m.type ≤ 1 then 319 else 320
  datagramBytes
    { srcMac := natOf (portMac s x), dstMac := 0, mcast := true, tag := none, v6 := v6, dscp := Config.ptpDscp.toNat, ttl := Config.ptpTtl.toNat
      src := if v6 then (List.range 4).flatMap (fun i => beBytes 4 (s.reg (Reg.ethSrcIp6 x i)).toNat) else beBytes 4 (s.reg (Reg.ethSrcIp4 x)).toNat
      dst := if v6 then [0xFF, 0x0E] ++ List.replicate 12 0 ++ [0x01, 0x81] else [224, 0, 1, 129], udpSrc := udp, udpDst := udp }
    (ptpBytes m body)

/-- A message of the device on a port. -/
def sendPtp (s : State) (x type : Nat) (seq : BitVec 16) (corr : Int) (control : Nat) (log : Int) (body : List Nat) : State :=
  let m : PtpMsg := ⟨type, s.getF Reg.ptpDomain 7 0, seq, corr, (Config.ptpFlags type).toNat, Config.clockId.toNat, x + 1, control, log⟩
  { s with sent := .ptp x type seq (ptpFrame s x m body) :: s.sent }

/-- Wait for the time at which a periodic message is due; the next is due an interval later, with the next sequenceId. -/
def reachDue (s : State) (key : Nat) : State :=
  match Store.get (fun _ => none) s.ptp.due key with
  | some p => if s.running then s.toPos p else s
  | none => s
def seqOf (s : State) (key : Nat) : BitVec 16 := Store.get (fun _ => 0) s.ptp.seqs key
def nextDue (s : State) (key : Nat) (l : Int) : State :=
  { s with ptp := { s.ptp with seqs := Store.put (fun _ => 0) s.ptp.seqs key (seqOf s key + 1)
                               due := Store.put (fun _ => none) s.ptp.due key (some (s.posAdd s.stp.pos (s.nsToUnits (intervalNs l)))) } }

/-- A one-step Sync (R251): originTimestamp is the egress timestamp in ns, the rest below a ns is in correctionField; the flags are 0, so
twoStepFlag is. -/
def syncSend (s : State) (x : Nat) : State :=
  if !(masterOn s x) then s
  else
    let t := ptpStart (reachDue s (2 * x)) x (ptpLen s 10)
    let o := txStamp t x
    let l := logOf t 7 4
    sendPtp (nextDue t (2 * x) l) x 0 (seqOf t (2 * x)) (o % 65536) 0 l (ptpStamp (o / 65536).toNat)

def execSyncSend (x : Fin 4) (s : State) : Out := .next (syncSend s x)

/-- An Announce at the announce interval (R249). -/
def announceSend (s : State) (x : Nat) : State :=
  if !(masterOn s x) then s
  else
    let t := ptpStart (reachDue s (2 * x + 1)) x (ptpLen s 30)
    let l := logOf t 3 0
    sendPtp (nextDue t (2 * x + 1) l) x 11 (seqOf t (2 * x + 1)) 0 5 l
      (ptpStamp 0 ++ beBytes 2 Config.ownUtc.toNat ++ [0, t.getF Reg.ptpPriority 7 0] ++ beBytes 4 Config.clockQuality.toNat ++
        [t.getF Reg.ptpPriority 15 8] ++ beBytes 8 Config.clockId.toNat ++ [0, 0, Config.timeSource.toNat])

def execAnnounceSend (x : Fin 4) (s : State) : Out := .next (announceSend s x)

/-! ### Announce (R248, R249, R256) -/

/-- The BMCA selects a grandmaster (R256): a different identity than the one before is measured anew, in holdover. -/
def selectGm (s : State) (best : BitVec 64) : State :=
  if best = s.ptp.gm then s
  else
    let known := decide (s.ptp.gm ≠ 0)
    let t := (s.setReg64 Reg.ptpGmIdLo Reg.ptpGmIdHi best).setBit Reg.ptpPortState 4 true
    let t := { t with ptp := { t.ptp with gm := best, changing := known, gmSyncs := 0 } }
    let t := t.evt Pg.ptp 0
    if decide (srcSel t = 2) && known then
      holdOver { t with stp := { t.stp with okRun := 0, badRun := 0 } }
    else t

/-- A received Announce. One of the grandmaster gives UTC_OFFSET and restarts the time-out. The BMCA's decision takes effect; a slave
port is no master. -/
def announce (s : State) (x : Nat) (domain : BitVec 8) (gm : BitVec 64) (utc : BitVec 16) (best : BitVec 64) (state : Nat) (master : BitVec 4) :
    State :=
  if !(hears s x domain) then s
  else
    let t := if gm = best then { s.setReg Reg.ptpUtcOffset (utc.signExtend 32) with ptp := { s.ptp with annAt := s.stp.pos } } else s
    let t := t.setF Reg.ptpPortState 3 0 state
    setMaster (selectGm t best) (if state = 8 ∨ state = 9 then master &&& ~~~ ((1 : BitVec 4) <<< slavePort s) else master)

def execAnnounce (x : Fin 4) (domain : BitVec 8) (gm : BitVec 64) (utc : BitVec 16) (best : BitVec 64) (state : Fin 16) (master : BitVec 4)
    (s : State) : Out :=
  .next (announce s x domain gm utc best state master)

/-! ### Path delay (R252) -/

/-- A Delay_Req is sent and entered in the 8-entry table with its egress timestamp t3. -/
def delayReqSend (s : State) : State :=
  let x := slavePort s
  if s.enabled Pg.ptp && slaveOn s x then
    let t := ptpStart s x (ptpLen s 10)
    let seq := t.ptp.seqReq
    let l := t.ptp.reqs ++ [(seq, txStamp t x)]
    sendPtp { t with ptp := { t.ptp with reqs := l.drop (l.length - 8), seqReq := seq + 1 } } x 1 seq 0 1 127 (ptpStamp 0)
  else s

def execDelayReqSend (s : State) : Out := .next (delayReqSend s)

/-- A received Delay_Req is answered by a master with its ingress timestamp (R248). -/
def delayReq (s : State) (x : Nat) (domain : BitVec 8) (seq : BitVec 16) (source : BitVec 80) (corr : Int) : State :=
  if hears s x domain && masterOn s x then
    let o := rxStamp s x
    sendPtp (ptpStart s x (ptpLen s 20)) x 9 seq (corr - o % 65536) 3 (logOf s 11 8) (ptpStamp (o / 65536).toNat ++ beBytes 10 source.toNat)
  else s

def execDelayReq (x : Fin 4) (domain : BitVec 8) (seq : BitVec 16) (source : BitVec 80) (corr : Int) (s : State) : Out :=
  .next (delayReq s x domain seq source corr)

/-- The middle of the last samples. -/
def medianInt (l : List Int) : Int := (sortBy (fun a b => decide (a ≤ b)) l).getD (l.length / 2) 0

/-- A path-delay sample (R252): one more than 1 µs from the median of the last 16 is discarded; MPD is the mean of the last 16 kept. -/
def delaySample (s : State) (v : Int) : State :=
  let recent := s.ptp.recent
  let t := { s with ptp := { s.ptp with recent := (v :: recent).take 16 } }
  if !recent.isEmpty && decide (65536000 < (v - medianInt recent).natAbs) then (t.inc32 Reg.ptpDelayDiscard).evt Pg.ptp 4
  else
    let u := { t with ptp := { t.ptp with kept := (v :: t.ptp.kept).take 16 } }
    u.setN Reg.ptpMpd (meanDelay u / 65536).toNat

/-- A Delay_Resp (R252): unmatched it is discarded; matched it gives the sample of t1 to t4. -/
def delayResp (s : State) (x : Nat) (domain : BitVec 8) (seq : BitVec 16) (received : Nat) (corr : Int) : State :=
  if !(hears s x domain) || decide (x ≠ slavePort s) then s
  else match s.ptp.reqs.find? (fun e => decide (e.1 = seq)) with
    | none => s.inc32 Reg.ptpDiscards
    | some e =>
      let t := { s with ptp := { s.ptp with reqs := s.ptp.reqs.erase e } }
      match s.ptp.lastSync with
      | none => t
      | some (t1, t2) => delaySample t (((t2 - t1) + ((received : Int) * 65536 - corr - e.2)) / 2)

def execDelayResp (x : Fin 4) (domain : BitVec 8) (seq : BitVec 16) (received : Nat) (corr : Int) (s : State) : Out :=
  .next (delayResp s x domain seq received corr)

/-! ### Time-outs (R256) -/

/-- Reach a time in ns after a position. -/
def reachAfter (s : State) (p : BitVec 64) (ns : Nat) : State := if s.running then s.toPos (s.posAdd p (s.nsToUnits ns)) else s

/-- No Announce for ANNOUNCE_TIMEOUT intervals: the source is lost, and the BMCA gives the master role where it may. -/
def announceTimeout (s : State) : State :=
  if !(s.enabled Pg.ptp) || masterOn s (slavePort s) then s
  else
    let t := reachAfter s s.ptp.annAt (s.getF Reg.ptpIntervals 15 12 * intervalNs (logOf s 3 0))
    let t := ptpLost (t.evt Pg.ptp 1)
    let t := setMaster t 15
    t.setF Reg.ptpPortState 3 0 (if masterOn t (slavePort t) then 6 else 4)

def execAnnounceTimeout (s : State) : Out := .next (announceTimeout s)

/-- No Sync for 16 sync intervals. -/
def syncTimeout (s : State) : State :=
  if !(s.enabled Pg.ptp) || masterOn s (slavePort s) then s
  else ptpLost ((reachAfter s s.ptp.syncAt (16 * intervalNs (logOf s 7 4))).evt Pg.ptp 2)

def execSyncTimeout (s : State) : Out := .next (syncTimeout s)

/-- A read of PORT_STATE clears the grandmaster-changed bit (R453). -/
def portStateRead (s : State) (m : Master) : State :=
  if reaches s m Pg.ptp then (s.answer [(s.view Reg.ptpPortState).toNat]).setBit Reg.ptpPortState 4 false else s

def execPortStateRead (m : Master) (s : State) : Out := .next (portStateRead s m)

end Sys2Proof.Machine
end

