-- ==== Sys2Proof/Machine/Watch.lean ====
section
/-! DEFINITION. Faults, the Watch and the Sexton (17_single_fault_guarantee.md). -/

namespace Sys2Proof.Machine

open State

/-! ### The fault journal (R367, Table 17-2) -/

/-- Payload of a fault line. -/
def faultPayload (s : State) (code rep modeIn modeOut loc0 loc1 ustat : Nat) : List Nat :=
  leBytes 2 code ++ leBytes 2 rep ++ leBytes 4 s.frame.toNat ++ leBytes 2 s.line ++ leBytes 6 s.ptpSeconds ++
    [modeIn, modeOut, 0, 0] ++ leBytes 4 loc0 ++ leBytes 4 loc1 ++ leBytes 4 ustat

/-- A staged line is the one that a further occurrence of a code at a unit raises. -/
def sameFault (s : State) (code unit : Nat) (x : Staged) : Bool :=
  lineOpen s x && decide (x.line.unit = unit ∧ leVal ((x.line.payload.take 2).map BitVec.toNat) = code)

/-- One more occurrence in the same staged line: REPEAT, saturating, with FLAGS bit 0. -/
def bumpLine (x : Staged) : Staged :=
  let rep := min 0xFFFF (leVal (((x.line.payload.drop 2).take 2).map BitVec.toNat) + 1)
  let bytes := (leBytes 2 rep).map (BitVec.ofNat 8)
  { x with line := sealLine { x.line with payload := x.line.payload.take 2 ++ bytes ++ x.line.payload.drop 4
                                          flags := if rep = 0xFFFF then 1 else 0 } x.pos }

/-- Journal one fault (R367): at most 1,000 lines in a second, PWR_FAIL's own line apart (R428). -/
def journal (s : State) (r : FaultRec) (modeIn : Nat) : State :=
  let pf := decide (r.code = 0x8004)
  if s.book.closed then s
  else if s.book.staged.any (sameFault s r.code r.unit) then
    { s with book := { s.book with staged := s.book.staged.map (fun x => if sameFault s r.code r.unit x then bumpLine x else x) } }
  else if !pf && decide (1000 ≤ s.book.second) then
    ({ (s.inc32 Reg.pbookFaultSupp).evt Pg.pbook 6 with book := { s.book with supp := s.book.supp + 1 } })
  else
    let t := s.stageLine 0 1 0 r.unit (faultPayload s r.code 1 modeIn s.mode r.loc0 r.loc1 (s.view (r.unit * 0x1000 + hStatus)).toNat)
    { t with book := { t.book with second := if pf then t.book.second else t.book.second + 1 } }

/-- A second ends: one line summarises the faults that the ceiling suppressed in it (R367). -/
def faultSummary (s : State) : State :=
  let n := s.book.supp
  let t := { s with book := { s.book with second := 0, supp := 0 } }
  if n = 0 then t
  else t.stageLine 0 1 (if 0xFFFF ≤ n then 1 else 0) (Pg.watch / 0x1000) (faultPayload s 0xFFFF (min 0xFFFF n) s.mode s.mode 0 0 0)

def execFaultSummary (s : State) : Out := .next (faultSummary s)

/-! ### Mode effects (Table 17-3) -/

/-- The DEGRADED cause that a code sets. -/
def causeOf (code loc1 : Nat) : Option Nat :=
  match code with
  | 0x1001 | 0x1002 => some 7
  | 0x2002 | 0x2003 => some 0
  | 0x2004 => some 6
  | 0x2005 => if loc1 = 0xFFFF then some 3 else none
  | 0x3003 | 0x3004 => some 2
  | 0x4001 | 0x4002 | 0x4003 => some 1
  | 0x4005 | 0x6004 => some 8
  | 0x5002 => some 4
  | 0x7001 | 0x7004 => some 5
  | 0x8003 => some 9
  | _ => none

/-- The bit of RECOVER_REQ that a code sets (Table 17-8); HBM_PC_DRIFT sets one under HBM.CFG.AUTO_RECOVER. -/
def recoverOf (code : Nat) (auto : Bool) : Option Nat :=
  match code with
  | 0x3002 => if auto then some 0 else none
  | 0x5005 => some 1
  | 0x5006 => some 2
  | 0x3006 | 0x3007 => some 3
  | 0x3005 => some 4
  | _ => none

/-- A parity error in BOOT restarts the boot once; a second halts it with ERROR 9 (R414). -/
def bootParity (s : State) : State :=
  let t := { s with boot := { s.boot with parityErrs := s.boot.parityErrs + 1 } }
  if s.boot.parityErrs = 0 then (t.setBit Reg.devResetCause 3 true).setReg Reg.devBootStat 0
  else (t.setF Reg.devBootStat 15 8 9).setF Reg.devBootStat 3 0 15

/-- The mode effect of a fault (R377 step 5). -/
def faultEffect (s : State) (r : FaultRec) : State :=
  let t := match causeOf r.code r.loc1 with
    | some i => (s.unitDegraded (r.unit * 0x1000) true).setCause i
    | none => s
  match recoverOf r.code (s.bit Reg.hbmCfg 1) with
  | some i => if s.mode = 0 ∧ i ≠ 0 then bootParity t else t.recoverReq i
  | none => t

/-- The Watch takes one fault code (R377). -/
def logFault (s : State) (r : FaultRec) : State :=
  let pg := r.unit * 0x1000
  let t := (s.setN Reg.watchLastCode (r.code + r.unit * 0x10000)).setN Reg.watchLastPos s.frame.toNat
  let t := (t.setN Reg.watchLastLine s.line).inc32 (Reg.watchClassCnt (r.code / 0x1000))
  let t := (t.setN (pg + hFault) r.code).setBit (pg + hStatus) 3 true
  (journal (faultEffect t r) r s.mode).evt Pg.watch 0

/-- Among the faults of the oldest cycle, the least code, then the least unit (R377). -/
def nextFault (l : List FaultRec) : Option FaultRec :=
  match l with
  | [] => none
  | h :: _ => minBy (fun a b => decide (a.code < b.code ∨ (a.code = b.code ∧ a.unit < b.unit))) (l.filter (fun r => decide (r.time = h.time)))

/-- The Watch logs the next raised fault. -/
def faultLog (s : State) : State :=
  match nextFault s.faults with
  | none => s
  | some r => logFault { s with faults := s.faults.erase r } r

def execFaultLog (s : State) : Out := .next (faultLog s)

/-! ### DEGRADED and RECOVERY (R378 to R380) -/

/-- The frame start at which the Watch acts: the one after an entry to SERVICE from COMMISSION (Table 19-10). -/
def watchStart (s : State) : State :=
  let t := s.toFrameStart
  if t.running && decide (t.boot.svcAt = some t.frame) then t.enterFrame 1 0 else t

/-- Causes that stand no longer clear (Table 17-4). -/
def settleCauses (s : State) : State :=
  let t := settlePaths (settleClp s.sparesCause)
  let t := if t.stpSt = 2 ∨ srcSel t = 0 then t.clearCause 7 else t
  let t := if t.bit Reg.stileState 4 && t.bit Reg.stileState 5 then t.clearCause 5 else t
  if (List.range 128).any (fun n => decide (t.allotState n = 5)) then t else t.clearCause 6

/-- SERVICE is entered: WATCH.EVT bit 2 on a return, and a snapshot on every entry (R368, R385). -/
def enterService (s : State) (again : Bool) : State :=
  let t := s.setMode 2
  snapshot (if again then t.evt Pg.watch 2 else t)

/-- A Steeple frame start at which DEGR_CAUSE reads 0 (R378). -/
def serviceReentry (s : State) : State :=
  if s.mode ≠ 3 then s
  else
    let t := settleCauses (watchStart s)
    if t.getF Reg.watchDegrCause 9 0 = 0 then enterService t true else t

def execServiceReentry (s : State) : Out := .next (serviceReentry s)

/-- Every enabled thread becomes IDLE, then READY once (R380). -/
def reinitReeve (s : State) : State :=
  let t := (List.range 8).foldl (fun t p => t.setPair p { t.pair p with running := none, offered := none, dispatch := false }) s
  let l := t.rv.threads.filter (fun e => e.2.en)
  (l.foldl (fun t e => t.newReadiness e.1 { t.thread e.1 with state := 1, cancel := false, rerun := false }) t).offer

/-- One source after ACTIVE has been cleared: a level source re-pends from its input, an edge source with an enabled target is
pending once (R380). -/
def reinitSource (s : State) (n : Nat) : State :=
  let t := s.setActive n false
  if !(sourceExists n) then t
  else if t.isEdge n then (if (List.range 9).any (fun k => t.enableBit n k) then t.setPending n true else t)
  else t.setPending n (t.inputBit n)

def reinitBelfry (s : State) : State :=
  ((List.range 4096).foldl reinitSource { s with bf := { s.bf with active := [] } }).updateLines

/-- Blocks that reported a parity error are reinitialised (R380). The copies that the Reeve, the Belfry and the matrix keep equal
the RW fields; the matrix forgets its round robin, and a controller's queue was emptied at the detection. -/
def reinitBlocks (s : State) : State :=
  let t := if s.bit Reg.watchRecoverReq 1 then reinitReeve s else s
  let t := if s.bit Reg.watchRecoverReq 2 then reinitBelfry t else t
  let t := if s.bit Reg.watchRecoverReq 3 then resetMatrix t else t
  [1, 2, 3, 4].foldl (fun t i => t.setBit Reg.watchRecoverReq i false) t

/-- Serve the requests that stand: reinitialisation, and retraining of drifting controllers (R342, R380). -/
def serveRequests (s : State) : State := nextRetrain (reinitBlocks s)

/-- RECOVERY is entered: every placed channel stops coding (R412). -/
def enterRecovery (s : State) : State :=
  let t := (s.setMode 4).evt Pg.watch 3
  (t.chans.filter (fun e => e.2.running)).foldl (fun t e => t.modChan e.1 (fun c => { c with paused := true })) t

/-- A RECOVERY request takes effect: at the next frame start in SERVICE and DEGRADED; in RECOVERY, COMMISSION and TEST it is
served in that mode (R379, R414). -/
def recoveryEntry (s : State) : State :=
  if s.getF Reg.watchRecoverReq 4 0 = 0 then s
  else if s.mode = 2 ∨ s.mode = 3 then serveRequests (enterRecovery (watchStart s))
  else if s.mode = 0 then s
  else serveRequests s

def execRecoveryEntry (s : State) : Out := .next (recoveryEntry s)

/-- Channels that RECOVERY has paused. -/
def pausedMask (s : State) : BitVec 128 :=
  s.chans.foldl (fun (m : BitVec 128) e => if e.2.running && e.2.paused then m ||| BitVec.twoPow 128 e.1 else m) 0

/-- All requests have been served: DEGRADED while a cause stands, else SERVICE (R379). A twin requests a resync of the channels
that were paused (Table 18-6). -/
def recoveryExit (s : State) : State :=
  if s.mode = 4 ∧ s.getF Reg.watchRecoverReq 4 0 = 0 ∧ (List.range 32).all (fun c => decide (pchSt s c < 5 ∨ pchSt s c = 7)) then
    (if s.getF Reg.watchDegrCause 9 0 = 0 then enterService s true else (s.setMode 3).evt Pg.watch 1).requestResync (pausedMask s)
  else s

def execRecoveryExit (s : State) : Out := .next (recoveryExit s)

/-- WATCH.STAT_CLR. -/
def watchStatClr (s : State) : State :=
  if s.answers Pg.watch then s.clearRegs ((List.range 16).map Reg.watchClassCnt) else s

def execWatchStatClr (s : State) : Out := .next (watchStatClr s)

/-! ### The Sexton (R381 to R385) -/

/-- A test failed: TEST_FAILS and SEXTON.EVT bit 0. -/
def testFailed (s : State) : State := (s.inc32 Reg.sextonTestFails).evt Pg.sexton 0

/-- A test of kind `k` of a unit may end: the unit lends, and the Sexton is enabled or finishes the test in progress. -/
def testRuns (s : State) (k page : Nat) : Bool :=
  decide (s.mode ≠ 0) && s.bit (page + hCtrl) 3 && (s.enabled Pg.sexton || s.eng.tail.contains k)

/-- The test in progress of a kind has finished. -/
def testOver (s : State) (k : Nat) : State :=
  if s.enabled Pg.sexton then s else { s with eng := { s.eng with tail := s.eng.tail.erase k } }

/-- The loaned engine's test set ends (R383); step 0 is a pass. -/
def loanTestComplete (s : State) (step : Nat) : State :=
  match s.eng.loan with
  | none => s
  | some e =>
    if s.eng.loanPass || decide (s.mode = 0) then s
    else
      let t := s.inc32 Reg.sextonEngTests
      if step = 0 then { t with eng := { t.eng with loanPass := true } }
      else (testFailed (t.inc32 Reg.sextonEngFails)).raise 0x2002 (Pg.ee e) e step |>.failEngine e

def execLoanTestComplete (step : Nat) (s : State) : Out := .next (loanTestComplete s step)

/-- A March test of a free or surplus plot ends (R80, R381). -/
def plotMarchTest (s : State) (p : Nat) (ok : Bool) : State :=
  if testRuns s 0 Pg.mp && decide (s.plotKind p = 0 ∨ s.plotKind p = 5) then
    let t := (testOver s 0).inc32 Reg.sextonMpTests
    if ok then t else plotFaulty (testFailed t) p
  else s

def execPlotMarchTest (plot : Fin 384) (ok : Bool) (s : State) : Out := .next (plotMarchTest s plot ok)

/-- The scrub moves on to the next line; a pass ends at the top of memory. -/
def scrubOn (s : State) : State :=
  if (s.eng.scrub + 1) * 64 < s.hbmEnd then
    let t := { s with eng := { s.eng with scrub := s.eng.scrub + 1 } }
    t.setN Reg.sextonScrubAddr (t.eng.scrub / 32768)
  else
    let t := { s with eng := { s.eng with scrub := 0 } }
    ((t.setReg Reg.sextonScrubAddr 0).inc32 Reg.sextonScrubPasses).evt Pg.sexton 2

/-- The patrol scrub reads a line (R345, R381): a corrected line is written back, an uncorrectable one is left. -/
def patrolScrub (s : State) (err : ReadErr) : State :=
  if !(testRuns s 1 Pg.hbm) then s
  else
    let a := s.eng.scrub * 64
    let t := scrubOn (testOver s 1)
    match pcOf s a with
    | none => t
    | some c => match err with
      | .none | .transient => t
      | .corrected => noteCorr t c
      | .stays => testFailed (noteUncorr t c (BitVec.ofNat 35 a))

def execPatrolScrub (err : ReadErr) (s : State) : Out := .next (patrolScrub s err)

/-- A write, read and compare to a matrix target ends; the targets take turns (R381). -/
def matrixPathTest (s : State) (ok : Bool) : State :=
  if testRuns s 2 Pg.mtx then
    let target := s.eng.mtxNext
    let t := testOver { s with eng := { s.eng with mtxNext := (target + 1) % 23 } } 2
    let t := t.inc32 Reg.sextonMtxTests
    if ok then t else (testFailed t).raise 0x3007 Pg.mtx target 0
  else s

def execMatrixPathTest (ok : Bool) (s : State) : Out := .next (matrixPathTest s ok)

/-- A PRBS31 loopback test of an UNUSED lane ends (R195). -/
def lanePrbsTest (s : State) (n p : Nat) (ok : Bool) : State :=
  if testRuns s 3 (Pg.clp n) && decide (laneRole s n p = 0) && decide (laneSt s n p ≠ 6) then
    let t := (testOver s 3).inc32 Reg.sextonClpTests
    if ok then t
    else ((setLaneFailed (setLaneSt (testFailed t) n p 6) n p true).evt (Pg.clp n) 0).raise 0x4001 (Pg.clp n) n p
  else s

def execLanePrbsTest (n : Fin 10) (p : Fin 8) (ok : Bool) (s : State) : Out := .next (lanePrbsTest s n p ok)

/-- A write of SEXTON.CTRL.ENABLE (R381): 0 lets the tests in progress finish and starts no other. -/
def sextonEnableWrite (s : State) (v : Bool) : State :=
  if !(s.answers Pg.sexton) then s
  else
    let t := if s.enabled Pg.sexton && !v then { s with eng := { s.eng with tail := [0, 1, 2, 3] } } else s
    (t.setBit (Pg.sexton + hCtrl) 0 v).guarantee

def execSextonEnableWrite (v : Bool) (s : State) : Out := .next (sextonEnableWrite s v)

/-- SEXTON.STAT_CLR (Table 17-9). -/
def sextonStatClr (s : State) : State :=
  if s.answers Pg.sexton then
    s.clearRegs [Reg.sextonEngTests, Reg.sextonEngFails, Reg.sextonMpTests, Reg.sextonScrubAddr, Reg.sextonScrubPasses,
      Reg.sextonClpTests, Reg.sextonMtxTests, Reg.sextonTestFails]
  else s

def execSextonStatClr (s : State) : Out := .next (sextonStatClr s)

end Sys2Proof.Machine
end

