-- ==== Sys2Proof/Machine/Twin.lean ====
section
/-! DEFINITION. Twin operation (18_twin_operation.md): stepping in, heartbeats and routes, comparison, resolutions, resync, the
control role. -/

namespace Sys2Proof.Machine

open State

/-! ### STILE.STATE -/

/-- The device is the mirror (R386). -/
def isMirror (s : State) : Bool := s.bit Reg.stileCfg 0
def stileUp (s : State) : Bool := s.bit Reg.stileState 4
def netUp (s : State) : Bool := s.bit Reg.stileState 5
/-- STEP: 0 OFF, 1 HELLO, 2 IN_STEP. -/
def stepSt (s : State) : Nat := s.getF Reg.stileState 1 0

/-- COMPARING: in step with the Stile route up (R396, R399). -/
def setComparing (s : State) : State := s.setBit Reg.stileState 10 s.twinUp

/-- TWIN_TOKEN is driven low: the control role's output, from COMMISSION on (R387, Table 19-4). -/
def tokenDriven (s : State) : Bool := decide (s.mode ≠ 0) && s.hasRole

/-- The pin that ROLE_GPIO names, and its level (R387). -/
def roleGpio (s : State) : Option (Nat × Bool) :=
  if s.bit Reg.stileCfg 13 then some (s.getF Reg.stileCfg 12 8, s.hasRole) else none

/-! ### The control role (R387, R403 to R407) -/

/-- A device takes the control role and logs ROLE_TAKEN. -/
def takeRole (s : State) : State := ((s.setBit Reg.stileState 3 true).evt Pg.stile 8).raise 0x7005 Pg.stile 1 0

/-- The role is taken at a frame start from another controller: the outputs are handed over (R407). -/
def takeOverRole (s : State) : State :=
  let t := takeRole s
  let g := match s.twin.lastHb with | some (m, _) => m.gpioOut | none => s.pins.gpioShown
  { t with pins := { t.pins with gpioShown := g }
           twin := { t.twin with handover := some (s.frame + 3) }
           aud := { t.aud with outs := t.aud.outs.map (fun e => (e.1, { e.2 with repeatLast := true })) } }

/-- A device releases the control role. -/
def dropRole (s : State) : State := (s.setBit Reg.stileState 3 false).evt Pg.stile 9

/-! ### ENABLE (R386, R391, R392) -/

/-- CLP8 is enabled with 7 DATA lanes and SPARE_EN. -/
def clp8Ok (s : State) : Bool :=
  s.enabled (Pg.clp 8) && s.bit (Reg.clpCfg 8) 19 && decide (((List.range 8).filter (fun p => s.bit (Reg.clpCfg 8) (8 + p))).length = 7)

/-- The tests of Table 18-2, in its order. -/
def stileTests (s : State) : Option (Nat × Nat) :=
  if s.mode ≠ 1 ∨ anyChannelPlaced s then some (0x0701, 1)
  else if !(clp8Ok s) then some (0x0702, 1)
  else if s.stpSt ≠ 2 ∨ srcSel s = 0 then some (0x0703, 1)
  else if s.reg Reg.stileBeaconDst = 0 then some (0x0704, wordOf Reg.stileBeaconDst)
  else if s.getF Reg.stileBeaconPort 15 0 = 0 ∨ s.getF Reg.stileBeaconPort 31 16 = 0 then some (0x0704, wordOf Reg.stileBeaconPort)
  else if !(hopEn s (s.getF Reg.stileBeaconNh 11 0)) then some (0x0704, wordOf Reg.stileBeaconNh)
  else none

def TwinSt.init : TwinSt := State.reset.twin

/-- ENABLE 0→1: the checks of Table 18-2, then HELLO. The role is given up until step-in (R387), and the twin's path is withdrawn
(R386). -/
def stileEnable (s : State) : State :=
  if !(s.answers Pg.stile) || s.enabled Pg.stile then s
  else match stileTests s with
    | some (c, w) => s.failCheck Pg.stile c w 0
    | none =>
      let t := { (s.activate Pg.stile).setN Reg.stileState 1 with twin := TwinSt.init }
      withdrawPath (t.evt Pg.stile 9) (!(isMirror s))

def execStileEnable (s : State) : Out := .next (stileEnable s)

/-- ENABLE 1→0: refused while a channel reads PLACED, PENDING or HELD; otherwise both paths are the device's again. -/
def stileDisable (s : State) : State :=
  if !(s.answers Pg.stile) || !(s.enabled Pg.stile) then s
  else if anyChannelPlaced s then s.refuse Pg.stile 0x0701 1 0
  else
    let t := { (s.deactivate Pg.stile).setReg Reg.stileState 0 with twin := TwinSt.init }
    (restorePath (restorePath t false) true).guarantee

def execStileDisable (s : State) : Out := .next (stileDisable s)

/-! ### HELLO and step-in (R392, R394) -/

/-- A received HELLO is compared with the own one. -/
def hello (s : State) (m : HelloMsg) : State :=
  if !(s.enabled Pg.stile) || decide (stepSt s ≠ 1) then s
  else
    let no (t : State) : State := { t with twin := { t.twin with agreed := false, named := none } }
    if m.ident = isMirror s then no (s.refuse Pg.stile 0x0706 (wordOf Reg.stileCfg) 0)
    else if m.raster ≠ s.reg Reg.stpRaster ∨ m.sel.val ≠ srcSel s ∨ m.stepping ≠ 0xB0 then no (s.refuse Pg.stile 0x0707 1 0)
    else { s with twin := { s.twin with agreed := true, named := if isMirror s then m.named else s.twin.named } }

def execHello (msg : HelloMsg) (s : State) : Out := .next (hello s msg)

/-- The own HELLO; the primary names the next frame start once 16 heartbeats lay within ±1/8 line. -/
def helloSend (s : State) : State :=
  if !(s.enabled Pg.stile) || decide (stepSt s ≠ 1) then s
  else
    let name := if !(isMirror s) && s.twin.agreed && decide (16 ≤ s.twin.hbRun) then some (s.frame + 1) else none
    let m : HelloMsg := ⟨isMirror s, s.reg Reg.stpRaster, Fin.ofNat 8 (srcSel s), 0xB0, name⟩
    { s with sent := .hello m (stileRows s 0x16 (helloBytes m)) :: s.sent, twin := if isMirror s then s.twin else { s.twin with named := name } }

def execHelloSend (s : State) : Out := .next (helloSend s)

/-- A position under a renumbering of frames (R12, R394). -/
def movePos (d : BitVec 32) (p : BitVec 64) : BitVec 64 := posOf ((p >>> 32).setWidth 32 + d) (p.setWidth 32).toNat

/-- The threads under a renumbering. -/
def moveThreads (s : State) (d : BitVec 32) : State :=
  { s with rv := { s.rv with threads := s.rv.threads.map (fun e =>
    if e.2.hasDue then (e.1, { e.2 with duePos := movePos d e.2.duePos, due := s.dueWord (movePos d e.2.duePos) }) else e) } }

/-- Every other position that the device holds, under a renumbering. No channel is placed at step-in. -/
def movePositions (s : State) (d : BitVec 32) : State :=
  let mv := movePos d
  let b64 (m : Store (BitVec 64)) : Store (BitVec 64) := m.foldl (fun (a : Store (BitVec 64)) (e : Nat × BitVec 64) => Store.put (fun _ => 0) a e.1 (mv e.2)) []
  let o64 (m : Store (Option (BitVec 64))) : Store (Option (BitVec 64)) := m.foldl (fun (a : Store (Option (BitVec 64))) (e : Nat × Option (BitVec 64)) => Store.put (fun _ => none) a e.1 (e.2.map mv)) []
  { s with
    stp := { s.stp with
      epochOf := s.stp.epochOf.map (· + d)
      okFrame := s.stp.okFrame.map (· + d)
      glitches := s.stp.glitches.map (fun g => (g.1, g.2 + d))
      pulses := s.stp.pulses.map (fun p => { p with start := mv p.start }) }
    clp := { s.clp with lanes := s.clp.lanes.foldl (fun (a : Store Lane) (e : Nat × Lane) =>
      Store.put (fun _ => Lane.init) a e.1 { e.2 with failedAt := e.2.failedAt + d }) [] }
    ing := { s.ing with inps := s.ing.inps.foldl (fun (a : Store Inp) (e : Nat × Inp) =>
      Store.put (fun _ => Inp.init) a e.1 { e.2 with lostAt := e.2.lostAt + d, startAt := e.2.startAt.map (· + d), land := o64 e.2.land, landNext := o64 e.2.landNext }) [] }
    ptp := { s.ptp with due := o64 s.ptp.due, annAt := mv s.ptp.annAt, syncAt := mv s.ptp.syncAt }
    etm := { s.etm with
      units := s.etm.units.map (fun u => { u with release := mv u.release })
      queue := s.etm.queue.map (fun c => { c with release := mv c.release })
      creditAt := mv s.etm.creditAt
      busy := b64 s.etm.busy }
    aud := { s.aud with
      grids := s.aud.grids.map (fun g => (g.1, mv g.2))
      srcs := s.aud.srcs.foldl (fun (a : Store ASrc) (e : Nat × ASrc) => Store.put (fun _ => ASrc.init) a e.1 { e.2 with underFr := e.2.underFr + d }) [] }
    mon := { s.mon with startFr := s.mon.startFr + d }
    mill := { s.mill with errs := s.mill.errs.foldl (fun (a : Store Nat) (e : Nat × Nat) => Store.put (fun _ => 0) a e.1
      ((BitVec.ofNat 32 (e.2 / 4) + d).toNat * 4 + e.2 % 4)) [] }
    boot := { s.boot with svcAt := s.boot.svcAt.map (· + d) }
    twin := { s.twin with lastHb := s.twin.lastHb.map (fun h => (h.1, mv h.2)) } }

/-- The frames of failed reads under a renumbering. -/
def moveFails (s : State) (d : BitVec 32) : State := { s with hbm := { s.hbm with failed := s.hbm.failed.map (fun e => { e with frame := e.frame + d }) } }

/-- The mirror takes the primary's frame count without a phase step; MAP follows, and its slots are disarmed (R394). -/
def renumber (s : State) (f : BitVec 32) : State :=
  let d := f - s.frame
  let t := moveThreads (moveFails (movePositions s d) d) d
  let t := t.setPtpMap (((s.ptpMap : Int) + s.frame.toNat - f.toNat) % 2 ^ 48).toNat
  (List.range 64).foldl (fun t n => if actArmed t n then disarm t n else t) (t.setPos (posOf f s.inFrame))

/-- The named frame start (R394). -/
def stepIn (s : State) : State :=
  match s.twin.named with
  | none => s
  | some f =>
    if !(s.enabled Pg.stile) || decide (stepSt s ≠ 1) || !s.running then s
    else
      let t := if isMirror s then renumber s.toFrameStart f else takeRole (s.toPos (posOf f 0))
      let t := (t.setF Reg.stileState 1 0 2).evt Pg.stile 0
      withdrawPath (setComparing { t with twin := { t.twin with named := none } }).guarantee (!(isMirror s))

def execStepIn (s : State) : Out := .next (stepIn s)

/-! ### Heartbeats and beacons (R390, R393, R401) -/

/-- The payload of a heartbeat: the last one received is echoed; before any the echo is a free value, as is GPIO_OUT, whose source
the spec does not give. -/
def heartbeatMsg (s : State) : HeartbeatMsg × State :=
  let (i, t) := s.draw
  let echo : BitVec 64 × BitVec 32 := match s.twin.lastHb with
    | some (m, p) => (m.sentPos, BitVec.ofNat 32 (unitsBetween s p s.stp.pos))
    | none => (BitVec.ofNat 64 (Config.freeNat (2 * i)), BitVec.ofNat 32 (Config.freeNat (2 * i)))
  (⟨s.stp.pos, echo.1, echo.2, (s.reg Reg.stileState).setWidth 14, BitVec.ofNat 32 (Config.freeNat (2 * i + 1))⟩, t)

/-- Reach the next position whose LINE is a multiple of 64. -/
def toLine64 (s : State) : State :=
  if s.inFrame % (64 * 262144) = 0 then s
  else
    let u := (s.inFrame / (64 * 262144) + 1) * (64 * 262144)
    if u < s.frameUnits then s.setPos (posOf s.frame u) else s.enterFrame 1 0

def heartbeatSend (s : State) : State :=
  if !(s.enabled Pg.stile) || !s.running then s
  else
    let (m, t) := heartbeatMsg (toLine64 s)
    { t with sent := .heartbeat m (stileRows t 0x10 (heartbeatBytes m)) :: t.sent }

def execHeartbeatSend (s : State) : Out := .next (heartbeatSend s)

/-- A difference of FRAC units modulo a frame, nearest to 0: the twins' frame counts differ before step-in. -/
def phaseMod (s : State) (d : Int) : Int :=
  let F : Int := s.frameUnits
  let m := d % F
  if F < 2 * m then m - F else m

/-- Round trip and phase of a heartbeat at its arrival (R393), in FRAC units. -/
def hbMeasure (s : State) (m : HeartbeatMsg) : Nat × Int :=
  let F : Int := s.frameUnits
  let off (p : BitVec 64) : Int := (p.setWidth 32).toNat
  let rtt := ((s.inFrame : Int) - off m.echoPos - m.echoAge.toNat) % F
  (rtt.toNat, phaseMod s (off m.sentPos + rtt / 2 - s.inFrame))

/-- Both devices hold the role (R405); the mirror releases it at the next frame start. -/
def noteDual (s : State) (twinCtrl : Bool) : State :=
  (s.setBit Reg.stileState 9 (decide (stepSt s = 2) && s.bit Reg.stileState 3 && twinCtrl))

/-- The STILE cause clears once both routes are up (Table 17-4). -/
def settleStile (s : State) : State := (if stileUp s && netUp s then s.clearCause 5 else s.guarantee)

/-- A received HEARTBEAT. -/
def heartbeat (s : State) (m : HeartbeatMsg) : State :=
  if !(s.enabled Pg.stile) then s
  else
    let (rtt, phase) := hbMeasure s m
    let t := (s.setN Reg.stilePhase (satInt 32 phase)).setN Reg.stileRtt (s.unitsToNs rtt)
    let t := { t with twin := { t.twin with lastHb := some (m, s.stp.pos) } }
    if 65536 < phase.natAbs then { t.evt Pg.stile 1 with twin := { t.twin with hbRun := 0 } }
    else
      let ctrl := m.state.getLsbD 3
      let t := { t with twin := { t.twin with hbRun := if phase.natAbs ≤ 32768 then min 16 (t.twin.hbRun + 1) else 0
                                              twinCtrl := ctrl } }
      let t := noteDual t ctrl
      if linkState t 16 = 2 ∨ linkState t 16 = 3 then
        settleStile (setComparing { t.setBit Reg.stileState 4 true with twin := { t.twin with holdoff := none } })
      else t

def execHeartbeat (msg : HeartbeatMsg) (s : State) : Out := .next (heartbeat s msg)

/-- The UDP frame of a beacon on a port, to BEACON_DST by way of BEACON_NH (R401). -/
def beaconFrame (s : State) (p : Nat) (m : HeartbeatMsg) : List Nat :=
  datagramBytes (hopHead s p (s.getF Reg.stileBeaconNh 11 0) false (beBytes 4 (s.reg Reg.stileBeaconDst).toNat)
    (s.getF Reg.stileBeaconPort 31 16) (s.getF Reg.stileBeaconPort 15 0)) (heartbeatBytes m)

/-- The beacon of every 8 ms, from the line port of the own path (R386, R401), on its sub-port 0. -/
def beaconSend (s : State) : State :=
  if !(s.enabled Pg.stile) then s
  else
    let (m, t) := heartbeatMsg s
    let p := if isMirror s then 4 else 0
    { t with sent := .beacon m p (beaconFrame t p m) :: t.sent }

def execBeaconSend (s : State) : Out := .next (beaconSend s)

/-- A received beacon: the network route is up. -/
def beacon (s : State) (m : HeartbeatMsg) : State :=
  if !(s.enabled Pg.stile) then s
  else
    let t := { s.setBit Reg.stileState 5 true with twin := { s.twin with holdoff := none, twinCtrl := m.state.getLsbD 3 } }
    settleStile (noteDual t (m.state.getLsbD 3))

def execBeacon (msg : HeartbeatMsg) (s : State) : Out := .next (beacon s msg)

/-- Both routes are down: a device in step without the role starts its hold-off (R403). -/
def startHoldoff (s : State) : State :=
  if decide (stepSt s = 2) && !(stileUp s) && !(netUp s) && !(s.bit Reg.stileState 3) && s.twin.holdoff.isNone then
    let f := s.frame + BitVec.ofNat 32 (s.getF Reg.stileCfg 23 16) + (if s.inFrame = 0 then 0 else 1)
    { s with twin := { s.twin with holdoff := some f } }
  else s

/-- No beacon for 24 ms: the network route is down (R401, R402). -/
def twinHeartbeatLost (s : State) : State :=
  if !(s.enabled Pg.stile) || !(netUp s) then s
  else
    let t := ((s.setBit Reg.stileState 5 false).evt Pg.stile 3).incSat Reg.stileHbLost 31 16 1
    startHoldoff ((t.raise 0x7004 Pg.stile 1 0).guarantee)

def execTwinHeartbeatLost (s : State) : Out := .next (twinHeartbeatLost s)

/-- No valid heartbeat within 256 lines, or CLP8 down: the Stile route is down and comparison is suspended (R390, R399, R402). -/
def stileDown (s : State) : State :=
  if !(s.enabled Pg.stile) || !(stileUp s) then s
  else
    let t := ((s.setBit Reg.stileState 4 false).evt Pg.stile 2).incSat Reg.stileHbLost 15 0 1
    let t := setComparing t
    startHoldoff ((if netUp s then t.raise 0x7001 Pg.stile 0 0 else t.raise 0x7004 Pg.stile 0 0).guarantee)

def execStileDown (s : State) : Out := .next (stileDown s)

/-! ### Slice comparison and resolution (R396, R397) -/

/-- Records of the twin; comparison is suspended while the Stile route is down (R399). -/
def sliceCrc (s : State) (l : List CrcRec) : State := if s.twinUp then l.foldl twinRecord s else s

def execSliceCrc (records : List CrcRec) (s : State) : Out := .next (sliceCrc s records)

/-- A record without a partner 64 lines after the row's emission point. -/
def crcMissing (s : State) (own : Bool) (r : CrcRec) : State :=
  let l := if own then s.twin.own else s.twin.twin
  if l.contains r then
    ({ s with twin := if own then { s.twin with own := s.twin.own.erase r } else { s.twin with twin := s.twin.twin.erase r } } : State).inc32
      Reg.stileCrcMissing
  else s

def execCrcMissing (own : Bool) (r : CrcRec) (s : State) : Out := .next (crcMissing s own r)

/-- A received DIGEST (R395). -/
def digest (s : State) (frame : BitVec 32) (place cfg : BitVec 64) : State :=
  if !s.inStep then s
  else
    let t := (s.setReg64 Reg.stileTwinPlaceLo Reg.stileTwinPlaceHi place).setReg64 Reg.stileTwinCfgLo Reg.stileTwinCfgHi cfg
    compareDigests { t with twin := { t.twin with twinDigest := some (frame, place, cfg) } }

def execDigest (frame : BitVec 32) (place cfg : BitVec 64) (s : State) : Out := .next (digest s frame place cfg)

/-- The targeted test ends; step 0 is a pass. TEST_RESULT is sent while the Stile route is up. -/
def targetedTestComplete (s : State) (step : Nat) : State :=
  match s.twin.resolving with
  | none => s
  | some x =>
    if s.getF Reg.stileResolve 1 0 ≠ 0 then s
    else
      let t := passForTest s x.engine
      if (t.slotOf x.engine).isSome then s
      else
        let t := t.setF Reg.stileResolve 1 0 (if step = 0 then 1 else 2)
        let t := { t with twin := { t.twin with resolving := some { x with step := step } } }
        let rows := stileRows t 0x13 (resultBytes x (decide (step = 0)))
        if t.twinUp then { t with sent := .testResult x.channel x.rend x.tile x.row x.engine (decide (step = 0)) rows :: t.sent } else t

def execTargetedTestComplete (step : Nat) (s : State) : Out := .next (targetedTestComplete s step)

/-- A resolution is of a slice. -/
def sameSlice (x : Resolve) (n r k j : Nat) : Bool := decide (x.channel = n ∧ x.rend = r ∧ x.tile = k ∧ x.row = j)

/-- A received TEST_RESULT: of the resolution in progress, or of one that waits. -/
def testResult (s : State) (n r k j : Nat) (pass : Bool) : State :=
  let v := if pass then 1 else 2
  let put (x : Resolve) : Resolve := if sameSlice x n r k j then { x with twinRes := v } else x
  let t := match s.twin.resolving with
    | some x => if sameSlice x n r k j then s.setF Reg.stileResolve 3 2 v else s
    | none => s
  { t with twin := { t.twin with resolving := t.twin.resolving.map put, waiting := t.twin.waiting.map put } }

def execTestResult (channel : Fin 128) (rend : Fin 4) (tile : Fin 8) (row : Fin 256) (_engine : Fin 34) (pass : Bool) (s : State) : Out :=
  .next (testResult s channel rend tile row pass)

/-- The tested engine has passed and becomes STANDBY; where a rotation has filled that place, LOAN. One that has failed meanwhile, or has
its place again, stays as it is. -/
def returnEngine (s : State) (e : Nat) : State :=
  if 34 ≤ e || !(s.enabled (Pg.ee e)) || (s.slotOf e).isSome || s.eng.loan = some e || s.eng.standby = some e then s else
  let t := if s.eng.standby.isNone then { s with eng := { s.eng with standby := some e } }
    else if s.eng.loan.isNone then { s with eng := { s.eng with loan := some e, loanPass := false } } else s
  ((t.syncEngine e).syncSpares).sparesCause

/-- The tested engine has failed (R65, R383); 63 stands for a slice that no engine holds. -/
def failTested (s : State) (x : Resolve) : State :=
  if 34 ≤ x.engine then s else (s.raise 0x2002 (Pg.ee x.engine) x.engine x.step).failEngine x.engine

/-- The device withdraws its own path (R386, R397). -/
def withdrawOwn (s : State) : State := withdrawPath ((s.setBit Reg.stileState 6 true).evt Pg.stile 6) (isMirror s)

/-- The outcome of Table 18-3 by the own and the twin's result (0 none, 1 pass, 2 fail). -/
def outcome (s : State) (x : Resolve) (own twin : Nat) : State :=
  let m := BitVec.twoPow 128 x.channel
  match own, twin with
  | 1, 1 =>
    let w := x.rend * 0x100 + x.tile * 0x400 + x.row * 0x10000
    let t := ((returnEngine s x.engine).inc32 Reg.stileUnresolved).raise 0x7002 Pg.stile x.channel w
    if !(isMirror s) && s.bit Reg.stileCfg 1 then t.requestResync m else t
  | 2, 1 => (withdrawOwn (failTested s x)).requestResync m
  | 1, _ => returnEngine s x.engine
  | 2, 2 => (if isMirror s then withdrawOwn (failTested s x) else failTested s x).requestResync m
  | _, _ => withdrawOwn (failTested s x)

/-- The resolution ends (R397); the next one that waits starts. -/
def resolutionEnd (s : State) : State :=
  match s.twin.resolving with
  | none => s
  | some x =>
    let own := s.getF Reg.stileResolve 1 0
    if own = 0 then s
    else
      let t := { s with twin := { s.twin with resolving := none } }
      let t := (outcome ((t.setBit Reg.stileState 13 false).evt Pg.stile 5) x own (s.getF Reg.stileResolve 3 2))
      match t.twin.waiting with
      | [] => t
      | y :: l =>
        startResolution { t with twin := { t.twin with waiting := l } } y

def execResolutionEnd (s : State) : Out := .next (resolutionEnd s)

/-! ### Resync (R398 to R400) -/

/-- RESYNC_MASK. -/
def resyncMask (s : State) : BitVec 128 :=
  s.reg (Reg.stileResyncMask 3) ++ s.reg (Reg.stileResyncMask 2) ++ s.reg (Reg.stileResyncMask 1) ++ s.reg (Reg.stileResyncMask 0)

/-- A write of RESYNC_GO; with the Stile route down nothing is sent (R399). -/
def resyncGo (s : State) : State :=
  if !(s.answers Pg.stile) then s
  else if s.twinUp then s.requestResync (resyncMask s)
  else s.evt Pg.stile 13

def execResyncGo (s : State) : Out := .next (resyncGo s)

/-- A received RESYNC. -/
def resync (s : State) (m : BitVec 128) (f : BitVec 32) : State := if s.inStep then s.schedule m f else s

def execResync (mask : BitVec 128) (start : BitVec 32) (s : State) : Out := .next (resync s mask start)

/-- The frame named first. -/
def nextResync (s : State) : Option (BitVec 32) :=
  minBy (fun a b => decide (sdiff a b < 0)) (s.twin.resyncs.map (fun e => e.2))

/-- The named frame start: the channels begin a new coded video sequence and are no longer diverged; a withdrawn path returns
(R398). -/
def resyncApplied (s : State) : State :=
  match nextResync s with
  | none => s
  | some f =>
    if !s.running then s
    else
      let t := s.toPos (posOf f 0)
      let ns := (s.twin.resyncs.filter (fun e => decide (e.2 = f))).map (fun e => e.1)
      let t := ns.foldl (fun t n => if (t.chan n).running then newSequence t n else t) t
      let t := { t with twin := { t.twin with resyncs := t.twin.resyncs.filter (fun e => decide (e.2 ≠ f))
                                              diverged := t.twin.diverged.filter (fun n => !(ns.contains n)) } }
      let t := t.evt Pg.stile 12
      if s.bit Reg.stileState 6 then
        let u := restorePath ((t.setBit Reg.stileState 6 false).evt Pg.stile 7) (isMirror s)
        { u with twin := { u.twin with returnAt := some f } }
      else t

def execResyncApplied (s : State) : Out := .next (resyncApplied s)

/-! ### Swaps, hold-off and token (R403 to R407) -/

/-- A swap is scheduled at the earlier of two frames. -/
def scheduleSwap (s : State) (f : BitVec 32) : State :=
  match s.twin.swapAt with
  | some g => if 0 < sdiff g f then { s with twin := { s.twin with swapAt := some f } } else s
  | none => { s with twin := { s.twin with swapAt := some f } }

/-- A write of ROLE_SWAP, or its refusal. -/
def roleSwap (s : State) : State :=
  if !(s.answers Pg.stile) then s
  else if !s.twinUp || s.twin.swapAt.isSome || s.twin.resolving.isSome then (s.refuse Pg.stile 0x0705 1 0).evt Pg.stile 13
  else scheduleSwap { s with sent := .swap (s.frame + 3) (stileRows s 0x15 (leBytes 4 (s.frame + 3).toNat)) :: s.sent } (s.frame + 3)

def execRoleSwap (s : State) : Out := .next (roleSwap s)

/-- A received SWAP. -/
def swap (s : State) (f : BitVec 32) : State := if s.inStep then scheduleSwap s f else s

def execSwap (frame : BitVec 32) (s : State) : Out := .next (swap s frame)

/-- Frame start S of a swap. -/
def swapApplied (s : State) : State :=
  match s.twin.swapAt with
  | none => s
  | some f =>
    if !s.running then s
    else
      let t := s.toPos (posOf f 0)
      let t := { t with twin := { t.twin with swapAt := none } }
      if t.bit Reg.stileState 3 then dropRole t else takeOverRole t

def execSwapApplied (s : State) : Out := .next (swapApplied s)

/-- S + 3 frames: the GPIO outputs take their own values, whose source the spec does not give. -/
def roleOutputHandoverEnd (s : State) : State :=
  match s.twin.handover with
  | none => s
  | some f =>
    let (i, t) := (s.toPos (posOf f 0)).draw
    { t with twin := { t.twin with handover := none }, pins := { t.pins with gpioShown := BitVec.ofNat 32 (Config.freeNat i) } }

def execRoleOutputHandoverEnd (s : State) : Out := .next (roleOutputHandoverEnd s)

/-- TWIN_TOKEN as read. -/
def readToken (s : State) (high : Bool) : State :=
  { s.setBit Reg.stileState 7 high with pins := { s.pins with token := high } }

/-- The end of the hold-off, and every frame start after it while both routes stay down (R403). -/
def holdoffExpired (s : State) (high : Bool) : State :=
  match s.twin.holdoff with
  | none => s
  | some f =>
    if !(s.enabled Pg.stile) || stileUp s || netUp s || s.bit Reg.stileState 3 || !s.running then s
    else
      let t := readToken (s.toPos (posOf f 0)) high
      if high then takeOverRole { t with twin := { t.twin with holdoff := none } }
      else { t with twin := { t.twin with holdoff := some (t.frame + 1) } }

def execHoldoffExpired (token : Bool) (s : State) : Out := .next (holdoffExpired s token)

/-- The token is read back each line (R404): by the controller, and by the other device while the Stile route is up. -/
def tokenReadback (s : State) (high : Bool) : State :=
  if !s.running || !(s.hasRole || stileUp s) then s
  else
    let t := readToken s high
    let bad := high && (s.hasRole || s.twin.twinCtrl)
    let t := t.setBit Reg.stileState 8 bad
    if bad then t.evt Pg.stile 10 else t

def execTokenReadback (token : Bool) (s : State) : Out := .next (tokenReadback s token)

/-- Both devices hold the role: the mirror releases it at the next frame start (R405). -/
def dualRelease (s : State) : State :=
  if s.bit Reg.stileState 9 && isMirror s && s.running then (dropRole s.toFrameStart).setBit Reg.stileState 9 false else s

def execDualRelease (s : State) : Out := .next (dualRelease s)

/-! ### Messages as packets of CLP8 (R389, Table 18-1) -/

/-- Bytes of a payload as a number. -/
def payloadAt (b : List Nat) (i n : Nat) : Nat := leVal ((b.drop i).take n)

def heartbeatOf (b : List Nat) : HeartbeatMsg :=
  ⟨BitVec.ofNat 64 (payloadAt b 0 8), BitVec.ofNat 64 (payloadAt b 8 8), BitVec.ofNat 32 (payloadAt b 16 4),
   BitVec.ofNat 14 (payloadAt b 20 4), BitVec.ofNat 32 (payloadAt b 24 4)⟩
def helloOf (b : List Nat) : HelloMsg :=
  let (ident, raster, sel, stepping, named) := Config.helloFields b
  ⟨ident, raster, Fin.ofNat 8 sel, stepping, named⟩
def recordOf (b : List Nat) : CrcRec :=
  ⟨Fin.ofNat 128 (payloadAt b 0 1), Fin.ofNat 4 (payloadAt b 1 1), Fin.ofNat 8 (payloadAt b 1 1 / 4), Fin.ofNat 256 (payloadAt b 2 1),
   decide (payloadAt b 3 1 % 2 = 1), BitVec.ofNat 16 (payloadAt b 4 2), BitVec.ofNat 32 (payloadAt b 8 4)⟩

/-- A good packet of CLP8 by its TYPE and STREAM; any other is discarded. -/
def stileMessage (s : State) (type stream : Nat) (b : List Nat) : State :=
  if stream ≠ 0 then s
  else match type with
    | 0x10 => heartbeat s (heartbeatOf b)
    | 0x11 => sliceCrc s ((chunks 12 64 b).map recordOf)
    | 0x12 => digest s (BitVec.ofNat 32 (payloadAt b 0 4)) (BitVec.ofNat 64 (payloadAt b 4 8)) (BitVec.ofNat 64 (payloadAt b 12 8))
    | 0x13 => testResult s (payloadAt b 0 1) (payloadAt b 1 1) (payloadAt b 2 1) (payloadAt b 3 1) (decide (payloadAt b 5 1 = 1))
    | 0x14 => resync s (BitVec.ofNat 128 (payloadAt b 0 16)) (BitVec.ofNat 32 (payloadAt b 16 4))
    | 0x15 => swap s (BitVec.ofNat 32 (payloadAt b 0 4))
    | 0x16 => hello s (helloOf b)
    | _ => s

/-- The end row of a CLP packet. -/
def execClpPacket (n : Fin 10) (linkX : Bool) (chars : List LaneGroup) (s : State) : Out :=
  .next (clpPacket audioPacket stileMessage s n linkX chars)

end Sys2Proof.Machine
end

