-- ==== Sys2Proof/Machine/Modes.lean ====
section
/-! DEFINITION. Modes, resets, boot, clocks and power failure (19_modes_startup_power.md). The CONFIG stage stands in
Machine/Pages.lean, beside the writes that it makes. -/

namespace Sys2Proof.Machine

open State

/-! ### Mode requests (R410, R411, R413) -/

/-- The transition of a request is in Table 19-2. -/
def requestAllowed (mode req : Nat) : Bool :=
  (decide (mode = 1) && (decide (req = 2) || decide (req = 5))) || ((decide (mode = 2) || decide (mode = 3)) && decide (req = 1))

/-- The reason for which a request is refused: the first of the list of R411. -/
def requestRefusal (s : State) (req : Nat) : Option Nat :=
  if !(requestAllowed s.mode req) then some 0x0802
  else if req = 2 ∧ s.running ∧ s.stpSt = 1 then some 0x0601
  else if req = 2 ∧ s.enabled Pg.stile ∧ s.getF Reg.stileState 1 0 ≠ 2 then some 0x0708
  else if req = 5 ∧ anyChannelPlaced s then some 0x0804
  else if s.pins.pwrFailLow then some 0x0805
  else none

/-- A request is recorded in MODE_REQ, or refused with DEV.EVT bit 1; a refused request leaves a pending one as it stands. -/
def modeRequest (s : State) (req : Nat) (at_ : BitVec 16) : State :=
  if s.inReset then s
  else match requestRefusal s req with
    | some code => (s.refuse Pg.dev code 1 0).evt Pg.dev 1
    | none => s.setN Reg.devModeReq (req + at_.toNat * 0x10000)

/-- The channels that run stop at the end of the frame that has begun (R413). -/
def stopForMode (s : State) : State :=
  (s.chans.filter (fun e => e.2.running)).foldl (fun t e => t.modChan e.1 (fun c => { c with stopping := true })) s

/-- SERVICE is entered from COMMISSION, or DEGRADED where a cause stands; a snapshot is written (R368, R410). -/
def enterFromCommission (s : State) : State :=
  let t := { s with boot := { s.boot with svcAt := some s.frame } }
  if t.getF Reg.watchDegrCause 9 0 = 0 then enterService t false else snapshot ((t.setMode 3).evt Pg.watch 1)

/-- The pending request takes effect; one whose transition no longer applies is dropped. -/
def applyRequest (s : State) : State :=
  let req := s.getF Reg.devModeReq 2 0
  let t := s.setF Reg.devModeReq 2 0 0
  if !(requestAllowed s.mode req) then t
  else match req with
    | 1 => stopForMode (t.setMode 1)
    | 2 => enterFromCommission t
    | _ => t.setMode 5

/-- The Steeple frame start that AT names: the next for 0, else the first whose frame count has low 16 bits equal to AT. -/
def requestFrame (s : State) : State :=
  let at_ := s.getF Reg.devModeReq 31 16
  let t := s.toFrameStart
  if at_ = 0 then t
  else
    let k := (BitVec.ofNat 16 at_ - t.frame.setWidth 16).toNat
    if k = 0 then t else t.enterFrame k 0

/-- A pending request takes effect: TEST at once, the others at the Steeple frame start that AT names. -/
def modeChange (s : State) : State :=
  let req := s.getF Reg.devModeReq 2 0
  if s.inReset || decide (req = 0) then s
  else if req = 5 then applyRequest s
  else if s.running then applyRequest (requestFrame s)
  else s

def execModeReqCommission (at_ : BitVec 16) (s : State) : Out := .next (modeRequest s 1 at_)
def execModeReqService (at_ : BitVec 16) (s : State) : Out := .next (modeRequest s 2 at_)
/-- A request of TEST takes effect at once (R410). -/
def execModeReqTest (at_ : BitVec 16) (s : State) : Out :=
  let t := modeRequest s 5 at_
  .next (if t.getF Reg.devModeReq 2 0 = 5 then modeChange t else t)
def execModeChange (s : State) : Out := .next (modeChange s)

/-! ### Resets (R416 to R418) -/

/-- Staged lines are lost: the counts of their areas fall back to what the areas hold. -/
def dropStaged (s : State) : State :=
  let count (k : Nat) := s.bookCount k - (s.book.staged.filter (fun x => !x.repair && decide (x.area = k))).length
  { s with book := { s.book with
      staged := []
      count := [0, 1, 2].foldl (fun (m : Store Nat) k => Store.put (fun k => (Config.bookCount k).toNat) m k (count k)) s.book.count } }

/-- The device resets. The fuses, the Book's contents, the pins, what lies outside the device and the model's own counters
stand; every other part of the state returns to its reset value, with the bits `cause` in RESET_CAUSE. A Book whose PWR_FAIL_N
stands asserted stays closed. -/
def resetDevice (s : State) (cause : Nat) : State :=
  let r := State.reset
  let closed := s.pins.pwrFailLow
  let t := { r with
    pins := { r.pins with porLow := s.pins.porLow, resetLow := s.pins.resetLow, swReset := s.pins.swReset
                          pwrFailLow := closed, token := s.pins.token, msixSent := s.pins.msixSent }
    stp := { r.stp with timeNs := s.stp.timeNs }
    book := { s.book with staged := [], closed := closed, second := 0, supp := 0 }
    etm := { r.etm with hostMem := s.etm.hostMem }
    sent := s.sent
    free := s.free
    pending := s.pending }
  let t := ((t.setReg Reg.devFuseStat (s.reg Reg.devFuseStat)).setN Reg.devResetCause cause).setReg Reg.pbookSpares (s.reg Reg.pbookSpares)
  let t := t.setReg Reg.pbookWearMax (s.reg Reg.pbookWearMax)
  let t := [0, 1, 2].foldl (fun (t : State) k => t.setN (Reg.pbookAreaHead k) (t.bookCount k)) t
  if closed then t.setN Reg.devPwrStat 3 else t

/-- A further source while the device is in reset: its bit joins RESET_CAUSE. -/
def joinCause (s : State) (i : Nat) : State := s.setBit Reg.devResetCause i true

/-- POR_N falls: the device resets at once, and staged lines are lost (R417). -/
def porN (s : State) : State :=
  let t := { s with pins := { s.pins with porLow := true } }
  if s.inReset then joinCause t 0 else resetDevice (dropStaged t) 1

def execPorN (s : State) : Out := .next (porN s)

/-- RESET_N falls: the staged lines are committed before the reset (R417). -/
def resetN (s : State) : State :=
  let t := { s with pins := { s.pins with resetLow := true } }
  if s.inReset then joinCause t 1 else resetDevice (commitLines t) 2

def execResetN (s : State) : Out := .next (resetN s)

/-- A write of DEV.SWRESET: with the key it resets as RESET_N does (R416). -/
def swreset (s : State) (key : Nat) : State :=
  if s.inReset ∨ key ≠ 0xA5C3 then s
  else resetDevice (commitLines { s with pins := { s.pins with swReset := true } }) 4

def execSwreset (key : BitVec 16) (s : State) : Out := .next (swreset s key.toNat)

/-- A PCIe hot reset, link disable or link down resets the endpoint alone: the host target is ineligible until MSI-X is enabled
again (R416, R318). -/
def pcieHotReset (s : State) : State :=
  ({ s with pins := { s.pins with pcieUp := false, msixOn := false, msixMasked := true, msixPend := false } } : State).updateLines

def execPcieHotReset (s : State) : Out := .next (pcieHotReset s)

/-- The PCIe link trains up. -/
def pcieLinkUp (s : State) : State :=
  if s.inReset then s else ({ s with pins := { s.pins with pcieUp := true } } : State).updateLines

def execPcieLinkUp (s : State) : Out := .next (pcieLinkUp s)

/-- The release of a reset: the device stands in BOOT at stage ROM (R410). -/
def execResetRelease (s : State) : Out :=
  .next { s with pins := { s.pins with porLow := false, resetLow := false, swReset := false } }

/-! ### Boot (R420 to R427, R339); STAGE is the stage under way -/

/-- Stage `k` is under way. -/
def booting (s : State) (k : Nat) : Bool := !s.inReset && decide (s.mode = 0) && decide (s.getF Reg.devBootStat 3 0 = k)

def setStage (s : State) (k : Nat) : State := s.setF Reg.devBootStat 3 0 k

/-- The boot halts with an error (R426). -/
def halt (s : State) (error : Nat) : State := setStage (s.setF Reg.devBootStat 15 8 error) 15

/-- The ROM has measured each clock but REF_CLK_IN (R420). Which clocks are present beside a bad one, the spec leaves open. -/
def clocks (s : State) (bad : Bool) : State :=
  if booting s 0 || booting s 1 then
    if bad then
      let (i, t) := s.draw
      halt (t.setF Reg.devClkStat 3 0 (Config.freeNat i)) 1
    else setStage (s.setF Reg.devClkStat 3 0 15) 2
  else s

def execClocks (badClock : Bool) (s : State) : Out := .next (clocks s badClock)

/-- One controller after training: ACTIVE with the stack's RAAIMT and RAAMMT, or RETIRED (R336, R339). -/
def trainPc (s : State) (c : Nat) (ok : Bool) : State :=
  if ok then (setPchSt s c 1).setN (Reg.pchRfmThresh c) (Config.raaimt c % 65536 + Config.raammt c % 65536 * 0x10000)
  else
    let t := ((setPchSt s c 7).setBit Reg.hbmActive c false).setBit Reg.hbmRetired c true
    (t.evt Pg.hbm 1).raise 0x3003 (Pg.pch c) c 0

/-- HBM training ends (R339). -/
def hbmTraining (s : State) (trained : Word) : State :=
  if booting s 2 then
    let t := (List.range 32).foldl (fun t c => trainPc t c (trained.getLsbD c)) s
    if activePcs t < 16 then halt t 7
    else
      let t := setStage t 3
      if activePcs t = 32 then t else useLayout t (layoutOver (regionCfg t) (activePcs t))
  else s

def execHbmTraining (trained : BitVec 32) (s : State) : Out := .next (hbmTraining s trained)

/-- Device address of the image in the SYSTEM region, which the spec leaves open. -/
def imageAddr : Nat := Config.imageAt % (0x10000000 - 62914560)

/-- The payload streams to the SYSTEM region; it has at most 60 MiB (R421). -/
def imageLoad (s : State) (image : List (BitVec 8)) : State :=
  if booting s 3 then
    let t := setStage s 4
    if image.length ≤ 62914560 then t.setMem imageAddr image else t
  else s

def execImageLoad (image : List (BitVec 8)) (s : State) : Out := .next (imageLoad s image)

/-- A slot has passed every check: its image runs. -/
def runImage (s : State) (slot rollback : Nat) : State :=
  let t := (setStage s 5).setF Reg.devBootStat 4 4 slot
  ({ t with boot := { t.boot with slotRollback := rollback } }).setF Reg.devImgVer 5 0 rollback

/-- Slot A as loaded: the first check that it fails. -/
def slotAError (s : State) (a : List Nat) : Nat := imageError s a (s.memBytes imageAddr (imageLength a))

/-- Slot B as it loads: the bytes of its payload, and the first check that it fails. -/
def slotBPayload (b : List Nat) (payload : List (BitVec 8)) : List (BitVec 8) := if headerOk b then payload.take (imageLength b) else []
def slotBError (s : State) (b : List Nat) (payload : List (BitVec 8)) : Nat :=
  imageError s b ((slotBPayload b payload).map BitVec.toNat)

/-- The ROM checks slot A, and loads and checks slot B when it fails (R422); when both fail, ERROR is the first failure. -/
def imageVerify (s : State) (a b : List Nat) (payload : List (BitVec 8)) : State :=
  if booting s 4 then
    let e := slotAError s a
    if e = 0 then runImage s 0 (imageRollback a)
    else
      let t := (s.setBit Reg.devBootStat 5 true).evt Pg.dev 3
      let t := t.setMem imageAddr (slotBPayload b payload)
      if slotBError s b payload = 0 then runImage t 1 (imageRollback b)
      else halt (t.setF Reg.devBootStat 4 4 1) e
  else s

def execImageVerify (a b : List (BitVec 8)) (payload : List (BitVec 8)) (s : State) : Out :=
  .next (imageVerify s (a.map BitVec.toNat) (b.map BitVec.toNat) payload)

/-- Unundori runs on every pair (Table 19-8). -/
def execCores (s : State) : Out := .next (if booting s 5 then (setStage s 6).updateLines else s)

/-- The Book's heads are found (Table 19-8). -/
def bookHeads (s : State) : State :=
  if booting s 6 then
    setStage ([0, 1, 2].foldl (fun (t : State) k => t.setN (Reg.pbookAreaHead k) (t.bookCount k)) s) 7
  else s

def execBook (s : State) : Out := .next (bookHeads s)

/-- An engine fails its start-up test; the failing step is open. -/
def failAtStart (s : State) (e : Nat) : State :=
  let (i, t) := s.draw
  (t.raise 0x2002 (Pg.ee e) e (Config.freeNat i)).failEngine e

/-- All 34 engines have run the test set (R427); those that fail are FAILED. -/
def startEngines (s : State) (passed : BitVec 34) : State :=
  if booting s 7 then
    let t := (List.range 34).foldl (fun t e => if passed.getLsbD e then t else failAtStart t e) s
    setStage ((List.range 34).foldl (fun t e => t.syncEngine e) t).syncSpares 8
  else s

def execEngines (passed : BitVec 34) (s : State) : Out := .next (startEngines s passed)

/-- A write of 1 to ROLLBACK_COMMIT in COMMISSION raises the fuse rollback count to the running image's (R423). -/
def rollbackCommit (s : State) : State :=
  let v := s.getF Reg.devImgVer 5 0
  if s.answers Pg.dev && decide (s.mode = 1) && decide (s.getF Reg.devFuseStat 22 16 < v) then s.setF Reg.devFuseStat 22 16 v else s

def execRollbackCommit (s : State) : Out := .next (rollbackCommit s)

/-! ### Clocks in later modes (R420) -/

/-- Bit of CLK_STAT. -/
def clockBit : ClockId → Nat
  | .eth0 => 0 | .eth1 => 1 | .clp => 2 | .pcie => 3 | .refClk => 4

/-- The ports of an ETHREFCLK go down, each sub-port. -/
def portsDown (s : State) (i : Nat) : State :=
  [i, i + 2].foldl (fun t x => (List.range 4).foldl (fun t sub => linePortDown t x sub) t) s

/-- Every enabled lane fails (R186). -/
def lanesFail (s : State) : State :=
  (List.range 10).foldl (fun t n => (List.range 8).foldl (fun t p => laneFails t n p .noTransition) t) s

/-- A clock is lost: CLK_STAT shows it, and its ports or lanes fail. -/
def clockLost (s : State) (c : ClockId) : State :=
  if s.inReset then s
  else
    let t := s.setBit Reg.devClkStat (clockBit c) false
    if s.mode = 0 then t
    else match c with
      | .eth0 => portsDown t 0
      | .eth1 => portsDown t 1
      | .clp => lanesFail t
      | .pcie | .refClk => t

def execClockLost (c : ClockId) (s : State) : Out := .next (clockLost s c)

def execClockPresent (c : ClockId) (s : State) : Out :=
  .next (if s.inReset then s else s.setBit Reg.devClkStat (clockBit c) true)

/-! ### Power failure (R428, R429) -/

/-- PWR_FAIL_N is asserted: the Watch stages PWR_FAIL, the Book commits every staged line and closes. -/
def pwrFail (s : State) : State :=
  if s.pins.pwrFailLow then s
  else
    let t := { s with pins := { s.pins with pwrFailLow := true, pwrHighAt := none } }
    if s.inReset then { t with book := { t.book with closed := true } }.setN Reg.devPwrStat 3
    else
      let t := (t.incSat Reg.devPwrStat 31 16 1).setBit Reg.devPwrStat 0 true
      let t := logFault t ⟨0x8004, Pg.dev / 0x1000, 0, 0, s.stp.timeNs⟩
      let t := commitLines t
      { t with book := { t.book with closed := true } }.setBit Reg.devPwrStat 1 true

def execPwrFail (s : State) : Out := .next (pwrFail s)

/-- PWR_FAIL_N rises: mode requests are accepted again, and the 10 ms to the reopening begin. -/
def pwrFailNHigh (s : State) : State :=
  if s.pins.pwrFailLow then
    { s with pins := { s.pins with pwrFailLow := false, pwrHighAt := some s.stp.timeNs } }.setBit Reg.devPwrStat 0 false
  else s

def execPwrFailNHigh (s : State) : Out := .next (pwrFailNHigh s)

/-- PWR_FAIL_N has been high for 10 ms: the Book reopens (R429). -/
def bookReopen (s : State) : State :=
  if s.book.closed && !s.pins.pwrFailLow && !s.inReset && s.pins.pwrHighAt.isSome then
    ({ s with book := { s.book with closed := false }, pins := { s.pins with pwrHighAt := none } }.setBit Reg.devPwrStat 1 false).evt Pg.dev 2
  else s

def execBookReopen (s : State) : Out := .next (bookReopen s)

end Sys2Proof.Machine
end

