-- ==== Sys2Proof/Machine/Pages.lean ====
section
/-! DEFINITION. The register pages (21_register_pages.md): what a 32-bit write and a 32-bit read of BAR0 do to and show of every
register; EVT writes, the check of ENABLE 0→1, and the boot configuration record, whose entries are such writes. -/

namespace Sys2Proof.Machine

open State

/-! ### Gang and window pages (R49 to R51, R446) -/

/-- Engines behind a gang page, member 0 first. -/
def gangEngines (s : State) (g : Nat) : List Nat := if h : g < 384 then pageEngines s (.gang ⟨g, h⟩) else []

/-! ### ENABLE and CTRL (R448 to R450) -/

/-- Pages whose ENABLE is RW (Table 21-3). -/
def enableRw (l : Layout) : Bool :=
  match l with
  | .stp | .ptp | .ch | .clp | .inp | .mon | .eth | .aud | .stile | .sexton => true
  | _ => false

/-- ENABLE 0→1: the page's check (R449). -/
def enableCheck (s : State) (p : PageRef) : State :=
  match p.lay with
  | .stp => steepleEnable s
  | .ptp => ptpEnable s
  | .ch => channelEnable s p.n
  | .clp => clpEnable s p.n
  | .inp => inputEnable s p.n
  | .mon => monEnable s
  | .eth => ethEnable s p.n
  | .aud => audEnable s
  | .stile => stileEnable s
  | .sexton => sextonEnableWrite s true
  | _ => s

/-- ENABLE 1→0. -/
def disablePage (s : State) (p : PageRef) : State :=
  match p.lay with
  | .stp => steepleDisable s
  | .ptp => ptpDisable s
  | .ch => channelDisable s p.n
  | .clp => clpDisable s p.n
  | .inp => inputDisable s p.n
  | .mon => monDisable s
  | .eth => ethDisable s p.n
  | .aud => audDisable s
  | .stile => stileDisable s
  | .sexton => sextonEnableWrite s false
  | _ => s

/-- CTRL.COMMIT. -/
def commitPage (s : State) (p : PageRef) : State :=
  match p.lay with
  | .chcomp => chcompCommit s p.n
  | .mon => monCommit s
  | .eport => eportCommit s p.n
  | .hbm => hbmLayoutCommit s
  | _ => s

/-- QUIESCE as written (R59, R113). -/
def quiescePage (s : State) (p : PageRef) (v : Bool) : State :=
  match p.lay with
  | .ch => if v then quiesceSet s p.n else if s.bit (p.base + hCtrl) 2 then quiesceClear s p.n else s
  | .ee => if h : p.n < 34 then engineQuiesce s (.engine ⟨p.n, h⟩) v else s
  | _ => s

/-- LOAN_OK as written (R448). -/
def loanPage (s : State) (p : PageRef) (v : Bool) : State :=
  match p.lay with
  | .ee | .mp | .hbm | .mtx | .clp => (s.setBit (p.base + hCtrl) 3 v).guarantee
  | _ => s

/-- ENABLE as written. -/
def enableWrite (s : State) (p : PageRef) (v : Bool) : State :=
  if enableRw p.lay && v && !(s.enabled p.base) then enableCheck s p
  else if enableRw p.lay && !v && s.enabled p.base then disablePage s p
  else s

/-- A write of a page's CTRL, whose fields all lie in byte 0. A write that sets ENABLE acts on it before QUIESCE, one that clears
it after; the refusal clears when ENABLE is left unchanged and COMMIT written 0 (R450). -/
def ctrlWrite (s : State) (p : PageRef) (w : Word) : State :=
  if decide (p.lay ≠ .ch) && s.bit (p.base + hStatus) 2 then s.refuse p.base 0x0806 1 0
  else
    let v := w.getLsbD 0
    let changes := enableRw p.lay && decide (v ≠ s.enabled p.base)
    let t := if v then quiescePage (enableWrite s p v) p (w.getLsbD 2) else enableWrite (quiescePage s p (w.getLsbD 2)) p v
    let t := loanPage t p (w.getLsbD 3)
    if changes then t
    else if w.getLsbD 1 then commitPage t p
    else t.clearRefusal p.base

/-! ### EVT (R451, R452) -/

/-- A write of EVT on one page: ones clear; STATUS.FAULT clears while the unit holds no DEGRADED cause. -/
def evtClear (s : State) (page : Nat) (w : Word) : State :=
  let t := s.setReg (page + hEvt) (s.reg (page + hEvt) &&& ~~~w)
  let t := if decide (w ≠ 0) && !(s.bit (page + hStatus) 4) then t.setBit (page + hStatus) 3 false else t
  if page = Pg.belfry then t.updateLines else t

/-- A write of EVT; on a gang page it reaches every member (R51). -/
def evtWrite (s : State) (idx : Nat) (w : Word) : State :=
  match pageOf s idx with
  | none => s
  | some p =>
    if !(s.answers p.base) then s
    else match p.lay with
      | .gang => (gangEngines s p.n).foldl (fun t e => evtClear t (Pg.ee e) w) s
      | _ => evtClear s p.base w

def execEvtWrite (page : Fin 0x4000) (w : BitVec 32) (s : State) : Out := .next (evtWrite s page w)

/-- ENABLE 0→1 on the page of an index (R449). -/
def pageEnableCheck (s : State) (idx : Nat) : State :=
  match pageOf s idx with
  | none => s
  | some p => if s.answers p.base then enableWrite s p true else s

def execPageEnableCheck (page : Fin 0x4000) (s : State) : Out := .next (pageEnableCheck s page)

/-! ### Writes of the other registers (R6, R41, R453) -/

/-- The bytes of a write: the enabled ones of the new word, the others of the old. -/
def mergeBytes (old w : Word) (be : BitVec 4) : Word :=
  [0, 1, 2, 3].foldl (fun v i => if be.getLsbD i then setFld v (8 * i + 7) (8 * i) (fld w (8 * i + 7) (8 * i)) else v) old

/-- The writable bits of a register as the old word and the write leave them. -/
def maskedWrite (old w mask : Word) (be : BitVec 4) : Word := (old &&& ~~~mask) ||| (mergeBytes old w be &&& mask)

/-- PAGE code of R40. -/
def subPage (l : Layout) : Nat :=
  match l with
  | .chrc => 1 | .chcomp => 2 | .chaud => 3 | .erend => 4 | _ => 0

/-- A write that is not performed is counted (R352, R453). -/
def discardWrite (s : State) : State := decodeErr s true

/-- A DOORBELL write (Table 13-2). -/
def doorbellWrite (s : State) (m : Master) (w : Word) : State :=
  let op := fld w 15 12
  let arg := fld w 31 16
  if 5 ≤ op then doorbellBad s m
  else doorbell s m (fld w 11 0) op (if op = 2 then arg % 64 else if op = 3 then arg % 256 else if op = 4 then arg else 0)

/-- A completion written at a COMPLETE_t register, `o` bytes into its block of nine. -/
def completeWrite (s : State) (m : Master) (bell : Option (Fin 64)) (o : Nat) (w : Word) : State :=
  if o % 0x10 = 0 then complete s m bell (o / 0x10) (fld w 11 0) else s

/-- A bell by its number. -/
def bellOf (n : Nat) : Option (Fin 64) := if h : n < 64 then some ⟨n, h⟩ else none

/-- A GO of a table window: the read, and the write where the address register names it. -/
def lutGoWrite (s : State) (n : Nat) (w : Word) : State :=
  if w.getLsbD 4 then lutPreset s n (fld w 6 5) (w.getLsbD 0)
  else if w.getLsbD 0 then lutRead (lutWrite s n) n
  else s

/-- A whole write of a WO or RWS register: the command that it gives. `o` is the offset in the page. -/
def commandWrite (s : State) (m : Master) (p : PageRef) (o : Nat) (w : Word) : State :=
  let go := w.getLsbD 0
  match p.lay with
  | .dev =>
    if o = 0x050 then swreset s (fld w 15 0)
    else if o = 0x058 ∧ go then rollbackCommit s
    else if o = 0x400 ∧ go then allotCompact s else s
  | .stp => if go then jumpAccept s else s
  | .ptp => if go then ptpJumpAccept s else s
  | .belfry => if o = 0x04C then (if go then orphanClr s else s) else completeWrite s m none (o - 0x108) w
  | .bell => completeWrite s m (bellOf p.n) (o - 0x10C) w
  | .reeve =>
    if o = 0x040 then doorbellWrite s m w
    else if go then (if (reeveAddr s).2.2 = 1 then reeveTableWrite s m else reeveTableRead s) else s
  | .cc => if o = 0x044 then (if go then doneYield s p.n else threadDone s p.n) else if go then load s p.n else s
  | .ee => if go then s.clearRegs (eeCleared p.n) else s
  | .chrc => if go then chrcStatClr s p.n else s
  | .chcomp => lutGoWrite s p.n w
  | .clp =>
    if o = 0x05C then (if w.getLsbD 8 then retrain s p.n (fld w 2 0) else s)
    else if go then laneClr s p.n ((o - 0x114) / 0x20) else s
  | .ing => if go then (if s.bit Reg.ingTblAddr 28 then ingTableWrite s else ingTableRead s) else s
  | .inp => if go then inStatClr s p.n else s
  | .etm =>
    if go then (if etmOp s = 1 then etmTableWrite s else if etmOp s = 2 then etmTableReadClr s else etmTableRead s) else s
  | .eth => if go then ethStatClr s p.n else s
  | .pch => if go then pchStatClr s p.n else s
  | .cvu => let t := if go then cvuGo s p.n (w.getLsbD 1) else s
    if w.getLsbD 2 then cvuAbort t p.n else t
  | .watch => if go then watchStatClr s else s
  | .sexton => if go then sextonStatClr s else s
  | .aud => if go then (if s.bit Reg.audTblAddr 16 then audTableWrite s else audTableRead s) else s
  | .stile => if go then (if o = 0x090 then roleSwap s else resyncGo s) else s
  | .pbook => if go then (if o = 0x048 then bookRead s else snapWrite s) else s
  | _ => s

/-- A write of MODE_REQ (R411): REQ 0 is no request, a reserved REQ one that Table 19-2 does not hold. -/
def modeReqWrite (s : State) (v : Word) : State :=
  if fld v 2 0 = 0 then s
  else
    let t := modeRequest s (fld v 2 0) (v.extractLsb' 16 16)
    if t.getF Reg.devModeReq 2 0 = 5 then modeChange t else t

/-- The target and period registers of an armed slot keep their values; WR_IGN is set (Table 1-5). -/
def actRegWrite (s : State) (n o : Nat) (a : Nat) (v : Word) : State :=
  if o = 0x10 then actCtrlWrite s n v
  else if o < 0x10 ∧ s.bit (Reg.stpActCtrl n) 0 then s.setBit (Reg.stpActStatus n) 3 true
  else s.setReg a v

/-- Bits that a write of REG_n_CFG changes: none of region 0, all but SIZE of region 7 (Table 15-8). -/
def regionMask (n : Nat) : Word := if n = 0 then 0 else if n = 7 then 0x000001F1 else 0x3FFF01F1

/-- A write of an RW register that has an effect beyond its value; `v` is the register's new value. -/
def rwWrite (s : State) (p : PageRef) (o a : Nat) (v : Word) : State :=
  match p.lay with
  | .dev => if o = 0x040 then modeReqWrite s v else s.setReg a v
  | .stp =>
    if o = 0x04C then selectSource s (fld v 2 0) (v.getLsbD 4) (fld v 14 8)
    else if 0x100 ≤ o ∧ o < 0x900 then actRegWrite s ((o - 0x100) / 0x20) ((o - 0x100) % 0x20) a v
    else s.setReg a v
  | .bell =>
    if o = 0x040 then pendingWrite s p.n false v
    else if o = 0x044 then pendingWrite s p.n true v
    else if 0x200 ≤ o then
      let src := 64 * p.n + (o - 0x200) / 4
      let keep : Word := if isGpio src then 0xFFFFFC00 else 0xFFFFFF00
      let t := s.setReg a ((s.reg a &&& keep) ||| (v &&& ~~~keep))
      -- POL turned over inverts the pin's level before the filter (R313)
      if (t.reg a).getLsbD 9 = (s.reg a).getLsbD 9 then t.updateLines
      else if t.inputBit src then (sourceDeassert t src).updateLines else (sourceAssertion t src).updateLines
    else (s.setReg a v).updateLines
  | .cc => if o = 0x050 then (if v.getLsbD 0 then drain s p.n else undrain s p.n) else s.setReg a v
  | .ee =>
    let t := s.setReg a v
    match t.slotOf p.n with
    | some k => t.showRecon p.n (some k)
    | none => t
  | .clp => if o = 0x060 then lanePowerRequest s p.n v else s.setReg a v
  | .cvu => if (o = 0x06C ∨ o = 0x070) ∧ (cvu s p.n).busy then cvuErr s p.n else s.setReg a v
  | .aud => if 0x300 ≤ o ∧ o < 0x340 then outputConfig s ((o - 0x300) / 4) v else s.setReg a v
  | .hbm => if 0x080 ≤ o then
      let m := regionMask ((o - 0x080) / 8)
      s.setReg a ((s.reg a &&& ~~~m) ||| (v &&& m))
    else s.setReg a v
  | _ => s.setReg a v

/-- RW bits of a register beyond its table mask: DRAIN is acted on by the core pair. -/
def rowMask (p : PageRef) (o : Nat) (r : RegRow) : Word :=
  if p.lay = .cc ∧ o = 0x050 then 1 else BitVec.ofNat 32 r.mask

/-- A write of a block register by its access code (R6, R41, R453). -/
def rowWrite (s : State) (m : Master) (p : PageRef) (o a : Nat) (r : RegRow) (w : Word) (be : BitVec 4) : State :=
  match r.acc with
  | .ro => s
  | .rw => rwWrite s p o a (maskedWrite (s.reg a) w (rowMask p o r) be)
  | .rwe =>
    if s.enabled (enableOwner p) then s.refuse (enableOwner p) 0x0801 (o / 4) (subPage p.lay)
    else
      let t := s.setReg a (maskedWrite (s.reg a) w (BitVec.ofNat 32 r.mask) be)
      if a = Reg.stpRaster then rasterWritten t else t
  | .w1c => s.setReg a (s.reg a &&& ~~~(mergeBytes 0 w be &&& BitVec.ofNat 32 r.mask))
  | .wo | .rws => if be = 15 then commandWrite s m p o w else discardWrite s

/-- A write at offset `o` of a page. -/
def offsetWrite (s : State) (m : Master) (p : PageRef) (o : Nat) (w : Word) (be : BitVec 4) : State :=
  if o = hCtrl then (if be.getLsbD 0 then ctrlWrite s p w else s)
  else if o = hEvt then evtClear s p.base (mergeBytes 0 w be)
  else if o = hEvtEn then
    let t := s.setReg (p.base + o) (mergeBytes (s.reg (p.base + o)) w be)
    if p.lay = .belfry then t.updateLines else t
  else if o < 0x040 then s
  else match rowAt p.lay o with
    | some r => rowWrite s m p o (p.base + o) r w be
    | none => s

/-- A write of a gang page (R51, R114): QUIESCE, EVT and STAT_CLR act on every member, everything else on member 0. -/
def gangWrite (s : State) (m : Master) (g o : Nat) (w : Word) (be : BitVec 4) : State :=
  let l := gangEngines s g
  let first (t : State) : State := match l with
    | e :: _ => offsetWrite t m ⟨.ee, e⟩ o w be
    | [] => t
  if o = hEvt then l.foldl (fun t e => offsetWrite t m ⟨.ee, e⟩ o w be) s
  else if o = 0x06C then (if be = 15 then l.foldl (fun t e => commandWrite t m ⟨.ee, e⟩ o w) s else discardWrite s)
  else if o = hCtrl ∧ be.getLsbD 0 then first (l.foldl (fun t e => t.setBit (Pg.ee e + hCtrl) 2 (w.getLsbD 2)) s)
  else first s

/-- A 32-bit write of BAR0 with byte enables (R352, R409, R445, R453). In BOOT a page other than DEV discards it uncounted. -/
def busWrite (s : State) (m : Master) (addr : Nat) (w : Word) (be : BitVec 4) : State :=
  if be = 0 ∨ s.inReset then s
  else if !(reaches s m (addr / 0x1000 * 0x1000)) then s
  else if addr % 4 ≠ 0 then discardWrite s
  else match pageOf s (addr / 0x1000) with
    | none => discardWrite s
    | some p => match p.lay with
      | .gang => gangWrite s m p.n (addr % 0x1000) w be
      | _ => offsetWrite s m p (addr % 0x1000) w be

def execRegisterWrite (m : Master) (addr : BitVec 26) (w : BitVec 32) (byteEn : BitVec 4) (s : State) : Out :=
  .next (busWrite s m addr.toNat w byteEn)

/-! ### What a 32-bit read shows (R6, R51, R409, R446) -/

/-- Bits at and above w of a 64-bit value of a check-value unit read 0 (R358). -/
def cvuShown (s : State) (n a lo hi : Nat) : Word :=
  let v := BitVec.ofNat 64 (cvuVal s n lo hi)
  if a = lo then v.setWidth 32 else (v >>> 32).setWidth 32

/-- A register of a page that is not a gang page, without a read's effects; a WO or RWS register reads 0. -/
def pageWord (s : State) (m : Master) (p : PageRef) (o : Nat) : Word :=
  let a := p.base + o
  if o < 0x040 then s.view a
  else match p.lay with
    | .stp => if o = 0x040 then s.stp.pos.setWidth 32 else if o = 0x044 then posHi s m else s.reg a
    | .cvu =>
      if o = 0x054 ∨ o = 0x058 then cvuShown s p.n a (Reg.cvuPolyLo p.n) (Reg.cvuPolyHi p.n)
      else if o = 0x05C ∨ o = 0x060 then cvuShown s p.n a (Reg.cvuInitLo p.n) (Reg.cvuInitHi p.n)
      else if o = 0x064 ∨ o = 0x068 then cvuShown s p.n a (Reg.cvuXoroutLo p.n) (Reg.cvuXoroutHi p.n)
      else if o = 0x06C ∨ o = 0x070 then cvuShown s p.n a (Reg.cvuCurLo p.n) (Reg.cvuCurHi p.n)
      else s.reg a
    | _ => s.reg a

/-- Counters of an engine page that a gang page sums (R51); BITS is one counter of 64 bits. -/
def eeCounters : List Nat := [0x04C, 0x058, 0x05C, 0x060, 0x070]

/-- A register of a gang page (R49, R51, R114). -/
def gangWord (s : State) (m : Master) (g o : Nat) : Word :=
  let l := gangEngines s g
  let words (o : Nat) := l.map (fun e => pageWord s m ⟨.ee, e⟩ o)
  let sum (o : Nat) : Nat := sumN ((words o).map BitVec.toNat)
  let orAll (o : Nat) : Word := (words o).foldl (· ||| ·) 0
  let first : Word := (words o).headD 0
  if o = 0x000 ∨ o = 0x01C ∨ o = 0x020 then s.reg (Pg.gang g + o)
  else if o = hCtrl then putBit first 0 (!l.isEmpty)
  else if o = hStatus then
    let st := if l.isEmpty then setFld 0 15 8 s.mode else first
    [2, 3, 4].foldl (fun v i => putBit v i ((orAll o).getLsbD i)) st
  else if o = hEvt then orAll o
  else if eeCounters.contains o then BitVec.ofNat 32 (satTo 32 (sum o))
  else if o = 0x050 ∨ o = 0x054 then
    let v := BitVec.ofNat 64 (satTo 64 (sum 0x050 + sum 0x054 * 2 ^ 32))
    if o = 0x050 then v.setWidth 32 else (v >>> 32).setWidth 32
  else first

/-- The word that a 32-bit read of BAR0 returns, its side effects apart (they are commands of their own). -/
def busRead (s : State) (m : Master) (addr : Nat) : Word :=
  if !(reaches s m (addr / 0x1000 * 0x1000)) || decide (addr % 4 ≠ 0) then 0
  else match pageOf s (addr / 0x1000) with
    | none => 0
    | some p => match p.lay with
      | .gang => gangWord s m p.n (addr % 0x1000)
      | _ => pageWord s m p (addr % 0x1000)

/-! ### The CONFIG stage (R425, R427) -/

/-- The boot configuration record, applied in order as host writes are. -/
def applyRecord (s : State) (record : List (BitVec 26 × BitVec 32)) : State :=
  let t := record.foldl (fun t e => busWrite t .host e.1.toNat e.2 15) { s with boot := { s.boot with applying := true } }
  { t with boot := { t.boot with applying := false } }

/-- The record is applied, and the device enters COMMISSION. -/
def config (s : State) (record : List (BitVec 26 × BitVec 32)) (ms : Nat) : State :=
  if booting s 8 then
    let t := applyRecord s record
    if booting t 8 then ((setStage t 9).setN Reg.devBootTime ms).setMode 1 else t
  else s

def execConfig (record : List (BitVec 26 × BitVec 32)) (ms : Nat) (s : State) : Out := .next (config s record ms)

end Sys2Proof.Machine
end

