-- ==== Sys2Proof/Machine/Dispatch.lean ====
section
/-! DEFINITION. The dispatch of a command to its meaning: one arm per row of spec/opcode_table.json. -/

namespace Sys2Proof.Machine

def exec (i : Instr) (s : State) : Host.Outcome State Fault Refusal :=
  match i with
  | .posLoRead m => Sys2Proof.Machine.execPosLoRead m s
  | .steepleEnable => Sys2Proof.Machine.execSteepleEnable s
  | .steepleDisable => Sys2Proof.Machine.execSteepleDisable s
  | .sourceSelect sel refclk input => Sys2Proof.Machine.execSourceSelect sel refclk input s
  | .sourceSelectFreeRun refclk input => Sys2Proof.Machine.execSourceSelectFreeRun refclk input s
  | .refFramePulse err ppb => Sys2Proof.Machine.execRefFramePulse err ppb s
  | .refLost => Sys2Proof.Machine.execRefLost s
  | .jumpAccept => Sys2Proof.Machine.execJumpAccept s
  | .ptpJumpAccept => Sys2Proof.Machine.execPtpJumpAccept s
  | .steepleStep => Sys2Proof.Machine.execSteepleStep s
  | .actionArm n w => Sys2Proof.Machine.execActionArm n w s
  | .actionDisarm n w => Sys2Proof.Machine.execActionDisarm n w s
  | .actionFire n => Sys2Proof.Machine.execActionFire n s
  | .placementEpoch => Sys2Proof.Machine.execPlacementEpoch s
  | .channelEnable n => Sys2Proof.Machine.execChannelEnable n s
  | .channelDisable n => Sys2Proof.Machine.execChannelDisable n s
  | .quiesceSet n => Sys2Proof.Machine.execQuiesceSet n s
  | .quiesceClear n => Sys2Proof.Machine.execQuiesceClear n s
  | .allotCompact => Sys2Proof.Machine.execAllotCompact s
  | .oldExtentFreed n => Sys2Proof.Machine.execOldExtentFreed n s
  | .channelFrameStart n => Sys2Proof.Machine.execChannelFrameStart n s
  | .controlLine n => Sys2Proof.Machine.execControlLine n s
  | .rotationPoint => Sys2Proof.Machine.execRotationPoint s
  | .rotationHandover => Sys2Proof.Machine.execRotationHandover s
  | .mpRefetch plot slot clocks => Sys2Proof.Machine.execMpRefetch plot slot clocks s
  | .plotSwap plot => Sys2Proof.Machine.execPlotSwap plot s
  | .gleanerRecordsReady n row => Sys2Proof.Machine.execGleanerRecordsReady n row s
  | .rowStart slot => Sys2Proof.Machine.execRowStart slot s
  | .ctuDecide slot => Sys2Proof.Machine.execCtuDecide slot s
  | .rowComplete slot stalls fixed => Sys2Proof.Machine.execRowComplete slot stalls fixed s
  | .engineQuiesce pg v => Sys2Proof.Machine.execEngineQuiesce pg v s
  | .engineHang e stall => Sys2Proof.Machine.execEngineHang e stall s
  | .deadlineMiss n rend tile row => Sys2Proof.Machine.execDeadlineMiss n rend tile row s
  | .eeStatClr pg => Sys2Proof.Machine.execEeStatClr pg s
  | .chrcStatClr n => Sys2Proof.Machine.execChrcStatClr n s
  | .compositeLine n line late => Sys2Proof.Machine.execCompositeLine n line late s
  | .ladderLine n stage line => Sys2Proof.Machine.execLadderLine n stage line s
  | .chcompCommit n => Sys2Proof.Machine.execChcompCommit n s
  | .commitCopy n => Sys2Proof.Machine.execCommitCopy n s
  | .layerRelease n => Sys2Proof.Machine.execLayerRelease n s
  | .lutEntryWrite n => Sys2Proof.Machine.execLutEntryWrite n s
  | .lutEntryRead n => Sys2Proof.Machine.execLutEntryRead n s
  | .lutPresetGo n preset go => Sys2Proof.Machine.execLutPresetGo n preset go s
  | .clpEnable n => Sys2Proof.Machine.execClpEnable n s
  | .clpDisable n => Sys2Proof.Machine.execClpDisable n s
  | .laneCdrLock n p => Sys2Proof.Machine.execLaneCdrLock n p s
  | .laneCdrTimeout n p => Sys2Proof.Machine.execLaneCdrTimeout n p s
  | .laneAdaptComplete n p points wide => Sys2Proof.Machine.execLaneAdaptComplete n p points wide s
  | .laneAlignComplete n p skew => Sys2Proof.Machine.execLaneAlignComplete n p skew s
  | .laneAlignTimeout n p => Sys2Proof.Machine.execLaneAlignTimeout n p s
  | .clpDataRow n linkX chars => Sys2Proof.Machine.execClpDataRow n linkX chars s
  | .bamSend n linkX => Sys2Proof.Machine.execBamSend n linkX s
  | .bamReceived n linkX lanes skp => Sys2Proof.Machine.execBamReceived n linkX lanes skp s
  | .laneFailed n p cause => Sys2Proof.Machine.execLaneFailed n p cause s
  | .narrow n linkX mask crc => Sys2Proof.Machine.execNarrow n linkX mask crc s
  | .narrowAck n linkX mask crc => Sys2Proof.Machine.execNarrowAck n linkX mask crc s
  | .status n linkX rx => Sys2Proof.Machine.execStatus n linkX rx s
  | .clpBundleDown n linkX => Sys2Proof.Machine.execClpBundleDown n linkX s
  | .retrain n p => Sys2Proof.Machine.execRetrain n p s
  | .autoRetrain n p => Sys2Proof.Machine.execAutoRetrain n p s
  | .lanePowerRequest n w => Sys2Proof.Machine.execLanePowerRequest n w s
  | .laneClr n p => Sys2Proof.Machine.execLaneClr n p s
  | .clpPacket n linkX chars => Sys2Proof.Machine.execClpPacket n linkX chars s
  | .rasterPacket inp word payload bundleB => Sys2Proof.Machine.execRasterPacket inp word payload bundleB s
  | .ancillaryPacket inp line words => Sys2Proof.Machine.execAncillaryPacket inp line words s
  | .audioPacket inp word samples => Sys2Proof.Machine.execAudioPacket inp word samples s
  | .formatPacket inp payload => Sys2Proof.Machine.execFormatPacket inp payload s
  | .st2110Packet inp pathB seq rtp segs len fifo => Sys2Proof.Machine.execSt2110Packet inp pathB seq rtp segs len fifo s
  | .lineMissing inp line half => Sys2Proof.Machine.execLineMissing inp line half s
  | .inputLost inp cause => Sys2Proof.Machine.execInputLost inp cause s
  | .freezeExpired inp => Sys2Proof.Machine.execFreezeExpired inp s
  | .inputReturned inp => Sys2Proof.Machine.execInputReturned inp s
  | .ingestPathDown inp pathB => Sys2Proof.Machine.execIngestPathDown inp pathB s
  | .inputEnable inp => Sys2Proof.Machine.execInputEnable inp s
  | .inStatClr inp => Sys2Proof.Machine.execInStatClr inp s
  | .ingTableRead => Sys2Proof.Machine.execIngTableRead s
  | .ingTableWrite => Sys2Proof.Machine.execIngTableWrite s
  | .payloadUnitRelease n rend => Sys2Proof.Machine.execPayloadUnitRelease n rend s
  | .portTransmit p => Sys2Proof.Machine.execPortTransmit p s
  | .etmTableRead => Sys2Proof.Machine.execEtmTableRead s
  | .etmTableWrite => Sys2Proof.Machine.execEtmTableWrite s
  | .etmTableReadClr => Sys2Proof.Machine.execEtmTableReadClr s
  | .eportCommit p => Sys2Proof.Machine.execEportCommit p s
  | .calendarCopy p => Sys2Proof.Machine.execCalendarCopy p s
  | .sample => Sys2Proof.Machine.execSample s
  | .ethEnable x => Sys2Proof.Machine.execEthEnable x s
  | .ethStatClr x => Sys2Proof.Machine.execEthStatClr x s
  | .linePortFrame x bytes => Sys2Proof.Machine.execLinePortFrame x bytes s
  | .cascadeFrame x bytes => Sys2Proof.Machine.execCascadeFrame x bytes s
  | .linePortDown x sub => Sys2Proof.Machine.execLinePortDown x sub s
  | .ptpEnable => Sys2Proof.Machine.execPtpEnable s
  | .sync x domain origin corr ppb => Sys2Proof.Machine.execSync x domain origin corr ppb s
  | .syncSend x => Sys2Proof.Machine.execSyncSend x s
  | .announce x domain gm utc best state master => Sys2Proof.Machine.execAnnounce x domain gm utc best state master s
  | .delayReqSend => Sys2Proof.Machine.execDelayReqSend s
  | .delayReq x domain seq source corr => Sys2Proof.Machine.execDelayReq x domain seq source corr s
  | .delayResp x domain seq received corr => Sys2Proof.Machine.execDelayResp x domain seq received corr s
  | .announceTimeout => Sys2Proof.Machine.execAnnounceTimeout s
  | .syncTimeout => Sys2Proof.Machine.execSyncTimeout s
  | .portStateRead m => Sys2Proof.Machine.execPortStateRead m s
  | .audEnable => Sys2Proof.Machine.execAudEnable s
  | .aes3Subframe k pre bits violation ppm => Sys2Proof.Machine.execAes3Subframe k pre bits violation ppm s
  | .audioMasterLost => Sys2Proof.Machine.execAudioMasterLost s
  | .pdmSample m bits => Sys2Proof.Machine.execPdmSample m bits s
  | .networkAudioPacket flow pathB seq rtp payload => Sys2Proof.Machine.execNetworkAudioPacket flow pathB seq rtp payload s
  | .gridInstant => Sys2Proof.Machine.execGridInstant s
  | .outputConfigApply o w => Sys2Proof.Machine.execOutputConfigApply o w s
  | .s302mPesRelease n k => Sys2Proof.Machine.execS302mPesRelease n k s
  | .aes67PacketRelease n k => Sys2Proof.Machine.execAes67PacketRelease n k s
  | .audTableRead => Sys2Proof.Machine.execAudTableRead s
  | .audTableWrite => Sys2Proof.Machine.execAudTableWrite s
  | .monEnable => Sys2Proof.Machine.execMonEnable s
  | .monitorLine line late => Sys2Proof.Machine.execMonitorLine line late s
  | .monCommit => Sys2Proof.Machine.execMonCommit s
  | .monCommitCopy => Sys2Proof.Machine.execMonCommitCopy s
  | .frameDone readback => Sys2Proof.Machine.execFrameDone readback s
  | .doorbellReady m t => Sys2Proof.Machine.execDoorbellReady m t s
  | .doorbellCancel m t => Sys2Proof.Machine.execDoorbellCancel m t s
  | .doorbellPrio m t prio => Sys2Proof.Machine.execDoorbellPrio m t prio s
  | .doorbellAffinity m t mask => Sys2Proof.Machine.execDoorbellAffinity m t mask s
  | .doorbellDeadline m t dl => Sys2Proof.Machine.execDoorbellDeadline m t dl s
  | .doorbellReserved m op => Sys2Proof.Machine.execDoorbellReserved m op s
  | .reeveStall => Sys2Proof.Machine.execReeveStall s
  | .listEngineOperation => Sys2Proof.Machine.execListEngineOperation s
  | .nextRead m p => Sys2Proof.Machine.execNextRead m p s
  | .doneWait p => Sys2Proof.Machine.execDoneWait p s
  | .doneYield p => Sys2Proof.Machine.execDoneYield p s
  | .threadLate t => Sys2Proof.Machine.execThreadLate t s
  | .reeveParity loc => Sys2Proof.Machine.execReeveParity loc s
  | .reeveTableRead => Sys2Proof.Machine.execReeveTableRead s
  | .reeveTableWrite m => Sys2Proof.Machine.execReeveTableWrite m s
  | .drain p => Sys2Proof.Machine.execDrain p s
  | .drained p => Sys2Proof.Machine.execDrained p s
  | .undrain p => Sys2Proof.Machine.execUndrain p s
  | .load p => Sys2Proof.Machine.execLoad p s
  | .loadComplete p => Sys2Proof.Machine.execLoadComplete p s
  | .ccLockstep p => Sys2Proof.Machine.execCcLockstep p s
  | .pairRestartComplete p => Sys2Proof.Machine.execPairRestartComplete p s
  | .sourceAssertion src => Sys2Proof.Machine.execSourceAssertion src s
  | .sourceDeassert src => Sys2Proof.Machine.execSourceDeassert src s
  | .arbitration b => Sys2Proof.Machine.execArbitration b s
  | .claim m bell t => Sys2Proof.Machine.execClaim m bell t s
  | .complete m bell t src => Sys2Proof.Machine.execComplete m bell t src s
  | .pendingWrite b hi w => Sys2Proof.Machine.execPendingWrite b hi w s
  | .orphanClr => Sys2Proof.Machine.execOrphanClr s
  | .belfryParity loc => Sys2Proof.Machine.execBelfryParity loc s
  | .hbmLayoutCommit => Sys2Proof.Machine.execHbmLayoutCommit s
  | .bar2Write off bytes => Sys2Proof.Machine.execBar2Write off bytes s
  | .bar2Read off len => Sys2Proof.Machine.execBar2Read off len s
  | .memoryRequest c arrivals err => Sys2Proof.Machine.execMemoryRequest c arrivals err s
  | .refreshDue c => Sys2Proof.Machine.execRefreshDue c s
  | .refreshMakeup c => Sys2Proof.Machine.execRefreshMakeup c s
  | .selfRefreshEntry c => Sys2Proof.Machine.execSelfRefreshEntry c s
  | .trackingWindow c trim pin => Sys2Proof.Machine.execTrackingWindow c trim pin s
  | .retrainComplete c ok salvage => Sys2Proof.Machine.execRetrainComplete c ok salvage s
  | .hbmPcRetired c => Sys2Proof.Machine.execHbmPcRetired c s
  | .hbmParity loc => Sys2Proof.Machine.execHbmParity loc s
  | .mtxParity loc => Sys2Proof.Machine.execMtxParity loc s
  | .pchStatClr c => Sys2Proof.Machine.execPchStatClr c s
  | .decodeErr m offset size write => Sys2Proof.Machine.execDecodeErr m offset size write s
  | .cvuGo n loadInit => Sys2Proof.Machine.execCvuGo n loadInit s
  | .cvuAbort n => Sys2Proof.Machine.execCvuAbort n s
  | .cvuScanDone n => Sys2Proof.Machine.execCvuScanDone n s
  | .cvuScanStopped n count err => Sys2Proof.Machine.execCvuScanStopped n count err s
  | .bookLineProgram verifyOk => Sys2Proof.Machine.execBookLineProgram verifyOk s
  | .bookRead => Sys2Proof.Machine.execBookRead s
  | .snap => Sys2Proof.Machine.execSnap s
  | .recordClose n => Sys2Proof.Machine.execRecordClose n s
  | .faultSummary => Sys2Proof.Machine.execFaultSummary s
  | .faultLog => Sys2Proof.Machine.execFaultLog s
  | .serviceReentry => Sys2Proof.Machine.execServiceReentry s
  | .recoveryEntry => Sys2Proof.Machine.execRecoveryEntry s
  | .recoveryExit => Sys2Proof.Machine.execRecoveryExit s
  | .watchStatClr => Sys2Proof.Machine.execWatchStatClr s
  | .loanTestComplete step => Sys2Proof.Machine.execLoanTestComplete step s
  | .plotMarchTest plot ok => Sys2Proof.Machine.execPlotMarchTest plot ok s
  | .patrolScrub err => Sys2Proof.Machine.execPatrolScrub err s
  | .matrixPathTest ok => Sys2Proof.Machine.execMatrixPathTest ok s
  | .lanePrbsTest n p ok => Sys2Proof.Machine.execLanePrbsTest n p ok s
  | .sextonEnableWrite v => Sys2Proof.Machine.execSextonEnableWrite v s
  | .sextonStatClr => Sys2Proof.Machine.execSextonStatClr s
  | .stileEnable => Sys2Proof.Machine.execStileEnable s
  | .stileDisable => Sys2Proof.Machine.execStileDisable s
  | .hello msg => Sys2Proof.Machine.execHello msg s
  | .helloSend => Sys2Proof.Machine.execHelloSend s
  | .stepIn => Sys2Proof.Machine.execStepIn s
  | .heartbeatSend => Sys2Proof.Machine.execHeartbeatSend s
  | .heartbeat msg => Sys2Proof.Machine.execHeartbeat msg s
  | .sliceCrc records => Sys2Proof.Machine.execSliceCrc records s
  | .crcMissing own r => Sys2Proof.Machine.execCrcMissing own r s
  | .digest frame place cfg => Sys2Proof.Machine.execDigest frame place cfg s
  | .targetedTestComplete step => Sys2Proof.Machine.execTargetedTestComplete step s
  | .testResult channel rend tile row engine pass => Sys2Proof.Machine.execTestResult channel rend tile row engine pass s
  | .resolutionEnd => Sys2Proof.Machine.execResolutionEnd s
  | .resyncGo => Sys2Proof.Machine.execResyncGo s
  | .resync mask start => Sys2Proof.Machine.execResync mask start s
  | .resyncApplied => Sys2Proof.Machine.execResyncApplied s
  | .roleSwap => Sys2Proof.Machine.execRoleSwap s
  | .swap frame => Sys2Proof.Machine.execSwap frame s
  | .swapApplied => Sys2Proof.Machine.execSwapApplied s
  | .roleOutputHandoverEnd => Sys2Proof.Machine.execRoleOutputHandoverEnd s
  | .beaconSend => Sys2Proof.Machine.execBeaconSend s
  | .beacon msg => Sys2Proof.Machine.execBeacon msg s
  | .twinHeartbeatLost => Sys2Proof.Machine.execTwinHeartbeatLost s
  | .stileDown => Sys2Proof.Machine.execStileDown s
  | .holdoffExpired token => Sys2Proof.Machine.execHoldoffExpired token s
  | .tokenReadback token => Sys2Proof.Machine.execTokenReadback token s
  | .dualRelease => Sys2Proof.Machine.execDualRelease s
  | .modeReqCommission at_ => Sys2Proof.Machine.execModeReqCommission at_ s
  | .modeReqService at_ => Sys2Proof.Machine.execModeReqService at_ s
  | .modeReqTest at_ => Sys2Proof.Machine.execModeReqTest at_ s
  | .modeChange => Sys2Proof.Machine.execModeChange s
  | .porN => Sys2Proof.Machine.execPorN s
  | .resetN => Sys2Proof.Machine.execResetN s
  | .swreset key => Sys2Proof.Machine.execSwreset key s
  | .pcieHotReset => Sys2Proof.Machine.execPcieHotReset s
  | .resetRelease => Sys2Proof.Machine.execResetRelease s
  | .clocks badClock => Sys2Proof.Machine.execClocks badClock s
  | .hbmTraining trained => Sys2Proof.Machine.execHbmTraining trained s
  | .imageLoad image => Sys2Proof.Machine.execImageLoad image s
  | .imageVerify a b payload => Sys2Proof.Machine.execImageVerify a b payload s
  | .cores => Sys2Proof.Machine.execCores s
  | .book => Sys2Proof.Machine.execBook s
  | .engines passed => Sys2Proof.Machine.execEngines passed s
  | .config record ms => Sys2Proof.Machine.execConfig record ms s
  | .clockLost c => Sys2Proof.Machine.execClockLost c s
  | .pwrFail => Sys2Proof.Machine.execPwrFail s
  | .bookReopen => Sys2Proof.Machine.execBookReopen s
  | .rollbackCommit => Sys2Proof.Machine.execRollbackCommit s
  | .evtWrite page w => Sys2Proof.Machine.execEvtWrite page w s
  | .pageEnableCheck page => Sys2Proof.Machine.execPageEnableCheck page s
  | .registerWrite m addr w byteEn => Sys2Proof.Machine.execRegisterWrite m addr w byteEn s
  | .portLinkUp x sub => Sys2Proof.Machine.execPortLinkUp x sub s
  | .clockPresent c => Sys2Proof.Machine.execClockPresent c s
  | .pcieLinkUp => Sys2Proof.Machine.execPcieLinkUp s
  | .msixEnable enable mask => Sys2Proof.Machine.execMsixEnable enable mask s
  | .announceSend x => Sys2Proof.Machine.execAnnounceSend x s
  | .wfi p => Sys2Proof.Machine.execWfi p s
  | .pwrFailNHigh => Sys2Proof.Machine.execPwrFailNHigh s
  | .characterAlignment n p => Sys2Proof.Machine.execCharacterAlignment n p s
  | .lanePowerExit n p => Sys2Proof.Machine.execLanePowerExit n p s

end Sys2Proof.Machine
end

