-- ==== Sys2Proof/WellFormed.lean ====
section
/-! DEFINITION. Well-formed commands: the operands that a command's rule admits where their type admits more. -/

namespace Sys2Proof

/-- Link 9X belongs to bundle CLP9 (R173). -/
def linkOf9 (n : Fin 10) (linkX : Bool) : Bool := !linkX || decide (n.val = 9)

/-- An image header has 512 bytes (R421). -/
def headOk (h : List (BitVec 8)) : Bool := decide (h.length = 512)

/-- The operands of a command are among those that its rule admits. -/
def Instr.wf : Instr → Bool
  | .posLoRead _ => true
  | .steepleEnable => true
  | .steepleDisable => true
  | .sourceSelect sel _ _ => decide (sel.val ≠ 0)
  | .sourceSelectFreeRun _ _ => true
  | .refFramePulse _ _ => true
  | .refLost => true
  | .jumpAccept => true
  | .ptpJumpAccept => true
  | .steepleStep => true
  | .actionArm _ _ => true
  | .actionDisarm _ _ => true
  | .actionFire _ => true
  | .placementEpoch => true
  | .channelEnable _ => true
  | .channelDisable _ => true
  | .quiesceSet _ => true
  | .quiesceClear _ => true
  | .allotCompact => true
  | .oldExtentFreed _ => true
  | .channelFrameStart _ => true
  | .controlLine _ => true
  | .rotationPoint => true
  | .rotationHandover => true
  | .mpRefetch _ _ _ => true
  | .plotSwap _ => true
  | .gleanerRecordsReady _ row => decide (row < 512)
  | .rowStart _ => true
  | .ctuDecide _ => true
  | .rowComplete _ _ _ => true
  | .engineQuiesce _ _ => true
  | .engineHang _ _ => true
  | .deadlineMiss _ _ _ _ => true
  | .eeStatClr _ => true
  | .chrcStatClr _ => true
  | .compositeLine _ line _ => decide (line < 16384)
  | .ladderLine _ _ line => decide (line < 16384)
  | .chcompCommit _ => true
  | .commitCopy _ => true
  | .layerRelease _ => true
  | .lutEntryWrite _ => true
  | .lutEntryRead _ => true
  | .lutPresetGo _ preset _ => decide (preset.val ≠ 3)
  | .clpEnable _ => true
  | .clpDisable _ => true
  | .laneCdrLock _ _ => true
  | .laneCdrTimeout _ _ => true
  | .laneAdaptComplete _ _ points wide => decide (points.length ≤ 16 ∧ wide.length ≤ 16)
  | .laneAlignComplete _ _ _ => true
  | .laneAlignTimeout _ _ => true
  | .clpDataRow n linkX chars => decide (chars.length = 8) && linkOf9 n linkX
  | .bamSend n linkX => linkOf9 n linkX
  | .bamReceived n linkX lanes _ => decide (lanes.length = 8) && linkOf9 n linkX
  | .laneFailed _ _ _ => true
  | .narrow n linkX _ _ => linkOf9 n linkX
  | .narrowAck n linkX _ _ => linkOf9 n linkX
  | .status n linkX _ => linkOf9 n linkX
  | .clpBundleDown n linkX => linkOf9 n linkX
  | .retrain _ _ => true
  | .autoRetrain _ _ => true
  | .lanePowerRequest _ _ => true
  | .laneClr _ _ => true
  | .clpPacket n linkX chars => decide (chars.length = 8) && linkOf9 n linkX
  | .rasterPacket _ _ _ _ => true
  | .ancillaryPacket _ _ words => decide (words.length < 65536)
  | .audioPacket _ _ _ => true
  | .formatPacket _ payload => decide (payload.length = 16)
  | .st2110Packet _ _ _ _ segs _ _ => decide (segs.length ≤ 3) && segs.all (fun g => decide (g.line < 16384))
  | .lineMissing _ line _ => decide (line < 16384)
  | .inputLost _ _ => true
  | .freezeExpired _ => true
  | .inputReturned _ => true
  | .ingestPathDown _ _ => true
  | .inputEnable _ => true
  | .inStatClr _ => true
  | .ingTableRead => true
  | .ingTableWrite => true
  | .payloadUnitRelease _ _ => true
  | .portTransmit _ => true
  | .etmTableRead => true
  | .etmTableWrite => true
  | .etmTableReadClr => true
  | .eportCommit _ => true
  | .calendarCopy _ => true
  | .sample => true
  | .ethEnable _ => true
  | .ethStatClr _ => true
  | .linePortFrame _ _ => true
  | .cascadeFrame _ _ => true
  | .linePortDown _ _ => true
  | .ptpEnable => true
  | .sync _ _ _ _ _ => true
  | .syncSend _ => true
  | .announce _ _ _ _ _ _ _ => true
  | .delayReqSend => true
  | .delayReq _ _ _ _ _ => true
  | .delayResp _ _ _ _ _ => true
  | .announceTimeout => true
  | .syncTimeout => true
  | .portStateRead _ => true
  | .audEnable => true
  | .aes3Subframe _ _ _ _ _ => true
  | .audioMasterLost => true
  | .pdmSample _ _ => true
  | .networkAudioPacket _ _ _ _ _ => true
  | .gridInstant => true
  | .outputConfigApply _ _ => true
  | .s302mPesRelease _ _ => true
  | .aes67PacketRelease _ _ => true
  | .audTableRead => true
  | .audTableWrite => true
  | .monEnable => true
  | .monitorLine line _ => decide (line < 16384)
  | .monCommit => true
  | .monCommitCopy => true
  | .frameDone _ => true
  | .doorbellReady _ _ => true
  | .doorbellCancel _ _ => true
  | .doorbellPrio _ _ _ => true
  | .doorbellAffinity _ _ _ => true
  | .doorbellDeadline _ _ _ => true
  | .doorbellReserved _ op => decide (5 ≤ op.val)
  | .reeveStall => true
  | .listEngineOperation => true
  | .nextRead _ _ => true
  | .doneWait _ => true
  | .doneYield _ => true
  | .threadLate _ => true
  | .reeveParity _ => true
  | .reeveTableRead => true
  | .reeveTableWrite _ => true
  | .drain _ => true
  | .drained _ => true
  | .undrain _ => true
  | .load _ => true
  | .loadComplete _ => true
  | .ccLockstep _ => true
  | .pairRestartComplete _ => true
  | .sourceAssertion _ => true
  | .sourceDeassert _ => true
  | .arbitration _ => true
  | .claim _ _ _ => true
  | .complete _ _ _ _ => true
  | .pendingWrite _ _ _ => true
  | .orphanClr => true
  | .belfryParity loc => decide (loc.unit ≤ 64)
  | .hbmLayoutCommit => true
  | .bar2Write off bytes => !bytes.isEmpty && decide (off.toNat + bytes.length ≤ 0x10000000)
  | .bar2Read off len => decide (1 ≤ len.val ∧ off.toNat + len.val ≤ 0x10000000)
  | .memoryRequest _ _ _ => true
  | .refreshDue _ => true
  | .refreshMakeup _ => true
  | .selfRefreshEntry _ => true
  | .trackingWindow _ _ _ => true
  | .retrainComplete _ ok salvage => !(ok && salvage)
  | .hbmPcRetired _ => true
  | .hbmParity loc => decide (loc.unit < 32)
  | .mtxParity loc => decide (loc.unit < 23)
  | .pchStatClr _ => true
  | .decodeErr _ _ size _ => decide (size.val ≠ 0)
  | .cvuGo _ _ => true
  | .cvuAbort _ => true
  | .cvuScanDone _ => true
  | .cvuScanStopped _ _ _ => true
  | .bookLineProgram _ => true
  | .bookRead => true
  | .snap => true
  | .recordClose _ => true
  | .faultSummary => true
  | .faultLog => true
  | .serviceReentry => true
  | .recoveryEntry => true
  | .recoveryExit => true
  | .watchStatClr => true
  | .loanTestComplete _ => true
  | .plotMarchTest _ _ => true
  | .patrolScrub _ => true
  | .matrixPathTest _ => true
  | .lanePrbsTest _ _ _ => true
  | .sextonEnableWrite _ => true
  | .sextonStatClr => true
  | .stileEnable => true
  | .stileDisable => true
  | .hello _ => true
  | .helloSend => true
  | .stepIn => true
  | .heartbeatSend => true
  | .heartbeat _ => true
  | .sliceCrc records => decide (1 ≤ records.length ∧ records.length ≤ 64)
  | .crcMissing _ _ => true
  | .digest _ _ _ => true
  | .targetedTestComplete _ => true
  | .testResult _ _ _ _ _ _ => true
  | .resolutionEnd => true
  | .resyncGo => true
  | .resync _ _ => true
  | .resyncApplied => true
  | .roleSwap => true
  | .swap _ => true
  | .swapApplied => true
  | .roleOutputHandoverEnd => true
  | .beaconSend => true
  | .beacon _ => true
  | .twinHeartbeatLost => true
  | .stileDown => true
  | .holdoffExpired _ => true
  | .tokenReadback _ => true
  | .dualRelease => true
  | .modeReqCommission _ => true
  | .modeReqService _ => true
  | .modeReqTest _ => true
  | .modeChange => true
  | .porN => true
  | .resetN => true
  | .swreset _ => true
  | .pcieHotReset => true
  | .resetRelease => true
  | .clocks _ => true
  | .hbmTraining _ => true
  | .imageLoad image => decide (image.length ≤ 62914560)
  | .imageVerify a b payload => headOk a && headOk b && decide (payload.length ≤ 62914560)
  | .cores => true
  | .book => true
  | .engines _ => true
  | .config record _ => record.all (fun e => decide (e.1.toNat % 4 = 0))
  | .clockLost _ => true
  | .pwrFail => true
  | .bookReopen => true
  | .rollbackCommit => true
  | .evtWrite _ _ => true
  | .pageEnableCheck _ => true
  | .registerWrite _ addr _ _ => decide (addr.toNat % 4 = 0)
  | .portLinkUp _ _ => true
  | .clockPresent _ => true
  | .pcieLinkUp => true
  | .msixEnable _ _ => true
  | .announceSend _ => true
  | .wfi _ => true
  | .pwrFailNHigh => true
  | .characterAlignment _ _ => true
  | .lanePowerExit _ _ => true

end Sys2Proof
end

