-- ==== Sys2Proof/Safety.lean ====
section
/-! DEFINITION. What claims call a sound state and a sound step: the canonical form of the register file and of HBM, the queue of
commands taken in order, and the parts of the state that a command may change. -/

namespace Sys2Proof.Machine

/-- The register file and HBM are in canonical form: addresses strictly rising, and no entry equal to what an unlisted address
reads as. -/
def State.Canonical (s : State) : Prop := Store.wf resetVal s.regs = true ∧ s.hbm.wf = true

/-- Every waiting command is well formed. -/
def State.QueueOk (s : State) : Prop := ∀ c ∈ s.pending, c.wf = true

/-- No byte of HBM differs between two states. -/
def SameMemory (s t : State) : Prop := ∀ a, t.memByte a = s.memByte a

/-- Every register but those listed holds in `t` what it held in `s`. -/
def SameRegsBut (l : List Nat) (s t : State) : Prop := ∀ a, a ∉ l → t.reg a = s.reg a

/-- The parts of the state that belong to one block, one group of registers or one record each. `mem` is the contents of HBM, `hbm`
the rest of the HBM subsystem; the queue and the counter of the free values are no part. -/
inductive Part where
  | regs | bus | pins | stp | chans | eng | mill | clp | ing | etm | ptp | aud | mon | rv | bf | hbm | mem | cvu | book
  | faults | twin | boot | sent
  deriving DecidableEq, Repr

/-- A part is the same in two states. -/
def Part.Same : Part → State → State → Prop
  | .regs, s, t => t.regs = s.regs
  | .bus, s, t => t.bus = s.bus
  | .pins, s, t => t.pins = s.pins
  | .stp, s, t => t.stp = s.stp
  | .chans, s, t => t.chans = s.chans
  | .eng, s, t => t.eng = s.eng
  | .mill, s, t => t.mill = s.mill
  | .clp, s, t => t.clp = s.clp
  | .ing, s, t => t.ing = s.ing
  | .etm, s, t => t.etm = s.etm
  | .ptp, s, t => t.ptp = s.ptp
  | .aud, s, t => t.aud = s.aud
  | .mon, s, t => t.mon = s.mon
  | .rv, s, t => t.rv = s.rv
  | .bf, s, t => t.bf = s.bf
  | .hbm, s, t => t.hbm.pchs = s.hbm.pchs ∧ (t.hbm.layout, t.hbm.granted, t.hbm.failed) = (s.hbm.layout, s.hbm.granted, s.hbm.failed)
  | .mem, s, t => t.hbm.mem = s.hbm.mem ∧ t.hbm.gen = s.hbm.gen
  | .cvu, s, t => t.cvu = s.cvu
  | .book, s, t => t.book = s.book
  | .faults, s, t => t.faults = s.faults
  | .twin, s, t => t.twin = s.twin
  | .boot, s, t => t.boot = s.boot
  | .sent, s, t => t.sent = s.sent

/-- Every part but those listed is the same in two states. -/
def SameBut (l : List Part) (s t : State) : Prop := ∀ p, p ∉ l → p.Same s t

/-- The command completes, and `P` holds of the state after it. -/
def Does (c : Instr) (s : State) (P : State → Prop) : Prop := ∃ t, exec c s = .next t ∧ P t

/-- The parts of the state that a command may change, read off the rules of its block: every other part stands whatever the
command does. -/
def touches : Instr → List Part
  | .posLoRead _ => [.bus, .stp]
  | .steepleEnable => [.regs, .stp]
  | .steepleDisable => [.regs]
  | .sourceSelect _ _ _ | .sourceSelectFreeRun _ _ => [.regs, .stp, .chans]
  | .refFramePulse _ _ | .refLost => [.regs, .stp, .chans, .faults]
  | .jumpAccept | .ptpJumpAccept => [.stp]
  | .steepleStep => [.regs, .pins, .stp, .chans, .eng, .etm, .ptp, .mon, .rv, .hbm, .mem, .faults, .twin, .sent]
  | .actionArm _ _ | .actionDisarm _ _ => [.regs, .stp]
  | .actionFire _ => [.regs, .pins, .stp, .chans, .etm, .rv, .hbm, .mem]
  | .placementEpoch => [.regs, .stp, .chans, .eng, .mill, .rv, .book, .faults, .twin, .sent]
  | .channelEnable _ => [.regs]
  | .channelDisable _ => [.regs, .chans]
  | .quiesceSet _ => [.regs]
  | .quiesceClear _ => [.regs, .chans]
  | .allotCompact => [.eng]
  | .oldExtentFreed _ => [.regs, .chans]
  | .channelFrameStart _ => [.regs, .stp, .chans, .eng, .mill, .ing, .rv, .hbm, .mem, .book, .faults, .twin, .sent]
  | .controlLine _ => [.regs, .stp, .chans, .rv]
  | .rotationPoint => [.regs, .stp, .eng]
  | .rotationHandover => [.regs, .eng]
  | .mpRefetch _ _ _ | .plotSwap _ => [.regs, .chans, .eng, .mill, .faults]
  | .gleanerRecordsReady _ _ => [.regs, .stp, .chans, .hbm, .mem]
  | .rowStart _ => [.regs, .chans, .eng, .mill, .hbm, .mem, .faults, .twin, .sent]
  | .ctuDecide _ => [.regs, .chans, .eng]
  | .rowComplete _ _ _ => [.regs, .chans, .eng, .hbm, .mem, .faults, .twin, .sent]
  | .engineQuiesce _ _ => [.regs]
  | .engineHang _ _ => [.regs, .chans, .eng, .faults]
  | .deadlineMiss _ _ _ _ => [.regs, .chans, .eng, .hbm, .mem, .faults, .twin, .sent]
  | .eeStatClr _ | .chrcStatClr _ => [.regs]
  | .compositeLine _ _ _ => [.regs, .stp, .chans, .hbm, .mem]
  | .ladderLine _ _ _ => [.chans, .hbm, .mem]
  | .chcompCommit _ | .lutEntryWrite _ => [.regs, .chans]
  | .commitCopy _ | .layerRelease _ => [.regs, .stp, .chans]
  | .lutEntryRead _ => [.regs]
  | .lutPresetGo _ _ _ => [.regs, .chans]
  | .clpEnable _ | .clpDisable _ => [.regs, .clp]
  | .laneCdrLock _ _ => [.regs]
  | .laneCdrTimeout _ _ | .laneAdaptComplete _ _ _ _ | .laneAlignComplete _ _ _ | .laneAlignTimeout _ _
    => [.regs, .clp, .faults, .sent]
  | .clpDataRow _ _ _ => [.regs, .clp]
  | .bamSend _ _ => [.clp, .sent]
  | .bamReceived _ _ _ _ => [.regs, .clp, .ing, .faults]
  | .laneFailed _ _ _ => [.regs, .clp, .faults, .sent]
  | .narrow _ _ _ _ => [.clp, .sent]
  | .narrowAck _ _ _ _ => [.clp]
  | .status _ _ _ => [.clp, .sent]
  | .clpBundleDown _ _ => [.regs, .clp, .faults]
  | .retrain _ _ => [.regs, .clp]
  | .autoRetrain _ _ => [.regs, .stp, .clp]
  | .lanePowerRequest _ _ | .laneClr _ _ => [.regs]
  | .clpPacket _ _ _ => [.regs, .clp, .ing, .aud, .hbm, .twin, .eng, .faults]
  | .rasterPacket _ _ _ _ => [.regs, .ing, .hbm]
  | .ancillaryPacket _ _ _ => [.ing]
  | .audioPacket _ _ _ => [.regs, .aud]
  | .formatPacket _ _ => [.regs, .ing]
  | .st2110Packet _ _ _ _ _ _ _ => [.regs, .ing, .hbm]
  | .lineMissing _ _ _ => [.regs, .stp, .ing, .hbm]
  | .inputLost _ _ => [.regs, .stp, .ing, .faults]
  | .freezeExpired _ => [.regs, .stp]
  | .inputReturned _ => [.regs, .stp, .ing]
  | .ingestPathDown _ _ => [.regs, .ing, .faults]
  | .inputEnable _ => [.regs, .ing]
  | .inStatClr _ | .ingTableRead => [.regs]
  | .ingTableWrite => [.regs, .ing]
  | .payloadUnitRelease _ _ => [.regs, .stp, .chans, .etm]
  | .portTransmit _ => [.regs, .stp, .etm, .faults, .sent]
  | .etmTableRead => [.regs]
  | .etmTableWrite | .etmTableReadClr => [.regs, .etm]
  | .eportCommit _ => [.etm]
  | .calendarCopy _ => [.regs, .stp, .etm]
  | .sample => [.regs, .stp]
  | .ethEnable _ | .ethStatClr _ => [.regs]
  | .linePortFrame _ _ => [.regs, .etm]
  | .cascadeFrame _ _ => [.regs, .etm]
  | .linePortDown _ _ => [.regs, .stp, .chans, .ptp, .faults]
  | .ptpEnable => [.regs, .ptp]
  | .sync _ _ _ _ _ => [.regs, .stp, .chans, .ptp, .faults]
  | .syncSend _ => [.regs, .stp, .etm, .ptp, .sent]
  | .announce _ _ _ _ _ _ _ => [.regs, .stp, .chans, .ptp]
  | .delayReqSend => [.regs, .stp, .etm, .ptp, .sent]
  | .delayReq _ _ _ _ _ => [.regs, .stp, .etm, .sent]
  | .delayResp _ _ _ _ _ => [.regs, .ptp]
  | .announceTimeout | .syncTimeout => [.regs, .stp, .chans, .ptp, .faults]
  | .portStateRead _ => [.regs, .bus]
  | .audEnable => [.regs, .aud]
  | .aes3Subframe _ _ _ _ _ | .audioMasterLost => [.regs, .aud, .faults]
  | .pdmSample _ _ => [.aud]
  | .networkAudioPacket _ _ _ _ _ => [.regs, .aud]
  | .gridInstant => [.regs, .stp, .aud, .sent]
  | .outputConfigApply _ _ => [.regs, .aud]
  | .s302mPesRelease _ _ => [.regs, .stp, .etm, .chans, .aud, .sent]
  | .aes67PacketRelease _ _ => [.regs, .stp, .etm, .aud, .sent]
  | .audTableRead => [.regs]
  | .audTableWrite => [.regs, .aud]
  | .monEnable => [.regs, .mon]
  | .monitorLine _ _ => [.regs, .stp, .mon, .hbm, .sent]
  | .monCommit => [.regs]
  | .monCommitCopy => [.regs, .mon]
  | .frameDone _ => [.regs, .faults]
  | .doorbellReady _ _ | .doorbellCancel _ _ | .doorbellPrio _ _ _ | .doorbellAffinity _ _ _ | .doorbellDeadline _ _ _
    => [.regs, .bus, .rv]
  | .doorbellReserved _ _ => [.regs]
  | .reeveStall => [.regs, .rv, .faults]
  | .listEngineOperation => [.regs, .rv]
  | .nextRead _ _ => [.regs, .bus, .chans, .rv]
  | .doneWait _ | .doneYield _ => [.regs, .chans, .rv]
  | .threadLate _ => [.regs, .rv, .faults]
  | .reeveParity _ => [.regs, .faults]
  | .reeveTableRead => [.regs]
  | .reeveTableWrite _ => [.regs, .rv]
  | .drain _ => [.regs, .pins, .rv]
  | .drained _ => [.regs, .rv]
  | .undrain _ => [.regs, .pins, .rv]
  | .load _ => [.regs, .pins, .rv, .bf]
  | .loadComplete _ => [.regs, .pins, .rv]
  | .ccLockstep _ | .pairRestartComplete _ => [.regs, .pins, .rv, .bf, .faults]
  | .sourceAssertion _ => [.regs, .pins, .rv]
  | .sourceDeassert _ | .arbitration _ => [.regs, .pins, .rv, .bf]
  | .claim _ _ _ => [.regs, .bus, .pins, .rv, .bf]
  | .complete _ _ _ _ | .pendingWrite _ _ _ => [.regs, .pins, .rv, .bf]
  | .orphanClr => [.regs]
  | .belfryParity _ => [.regs, .faults]
  | .hbmLayoutCommit => [.regs, .hbm, .mem]
  | .bar2Write _ _ => [.regs, .mem]
  | .bar2Read _ _ => [.bus]
  | .memoryRequest _ _ _ => [.regs, .bus, .chans, .eng, .etm, .aud, .rv, .hbm, .mem, .faults, .twin, .sent]
  | .refreshDue _ => [.regs, .hbm]
  | .refreshMakeup _ | .selfRefreshEntry _ => [.regs]
  | .trackingWindow _ _ _ => [.regs, .faults]
  | .retrainComplete _ _ _ => [.regs, .chans, .eng, .mill, .hbm, .mem, .faults, .twin, .sent]
  | .hbmPcRetired _ => [.regs, .eng, .hbm, .faults]
  | .hbmParity _ => [.regs, .bus, .chans, .eng, .etm, .aud, .rv, .hbm, .mem, .faults, .twin, .sent]
  | .mtxParity _ => [.regs, .faults]
  | .pchStatClr _ => [.regs]
  | .decodeErr _ _ _ _ => [.regs, .bus]
  | .cvuGo _ _ => [.regs, .cvu]
  | .cvuAbort _ => [.cvu]
  | .cvuScanDone _ | .cvuScanStopped _ _ _ => [.regs, .cvu]
  | .bookLineProgram _ | .bookRead => [.regs, .book, .faults]
  | .snap => [.regs, .book]
  | .recordClose _ => [.regs, .chans, .book]
  | .faultSummary => [.regs, .book]
  | .faultLog => [.regs, .book, .faults, .boot]
  | .serviceReentry => [.regs, .stp, .book]
  | .recoveryEntry => [.regs, .pins, .stp, .chans, .rv, .bf, .hbm]
  | .recoveryExit => [.regs, .book, .twin, .sent]
  | .watchStatClr => [.regs]
  | .loanTestComplete _ => [.regs, .chans, .eng, .faults]
  | .plotMarchTest _ _ => [.regs, .chans, .eng, .mill, .faults]
  | .patrolScrub _ => [.regs, .eng, .hbm, .faults]
  | .matrixPathTest _ | .lanePrbsTest _ _ _ => [.regs, .eng, .faults]
  | .sextonEnableWrite _ => [.regs, .eng]
  | .sextonStatClr => [.regs]
  | .stileEnable | .stileDisable => [.regs, .etm, .twin]
  | .hello _ => [.regs, .twin]
  | .helloSend => [.twin, .sent]
  | .stepIn => [.regs, .stp, .mill, .clp, .ing, .etm, .ptp, .aud, .mon, .rv, .hbm, .faults, .twin, .boot]
  | .heartbeatSend => [.regs, .stp, .sent]
  | .heartbeat _ => [.regs, .twin]
  | .sliceCrc _ => [.regs, .eng, .faults, .twin]
  | .crcMissing _ _ => [.regs, .twin]
  | .digest _ _ _ => [.regs, .faults, .twin]
  | .targetedTestComplete _ => [.regs, .eng, .twin, .sent]
  | .testResult _ _ _ _ _ _ => [.regs, .twin]
  | .resolutionEnd => [.regs, .chans, .eng, .etm, .faults, .twin, .sent]
  | .resyncGo => [.regs, .twin, .sent]
  | .resync _ _ => [.twin]
  | .resyncApplied => [.regs, .stp, .chans, .eng, .mill, .etm, .hbm, .mem, .faults, .twin, .sent]
  | .roleSwap => [.regs, .twin, .sent]
  | .swap _ => [.twin]
  | .swapApplied => [.regs, .pins, .stp, .aud, .faults, .twin]
  | .roleOutputHandoverEnd => [.regs, .pins, .stp, .twin]
  | .beaconSend => [.sent]
  | .beacon _ => [.regs, .twin]
  | .twinHeartbeatLost | .stileDown => [.regs, .faults, .twin]
  | .holdoffExpired _ => [.regs, .pins, .stp, .aud, .faults, .twin]
  | .tokenReadback _ => [.regs, .pins]
  | .dualRelease => [.regs, .stp]
  | .modeReqCommission _ | .modeReqService _ => [.regs]
  | .modeReqTest _ | .modeChange => [.regs, .stp, .chans, .book, .boot]
  | .porN | .resetN | .swreset _
    => [.regs, .bus, .pins, .stp, .chans, .eng, .mill, .clp, .ing, .etm, .ptp, .aud, .mon, .rv, .bf, .hbm, .mem, .cvu,
        .book, .faults, .twin, .boot]
  | .pcieHotReset => [.regs, .pins, .rv]
  | .resetRelease => [.pins]
  | .clocks _ => [.regs]
  | .hbmTraining _ => [.regs, .hbm, .faults]
  | .imageLoad _ => [.regs, .mem]
  | .imageVerify _ _ _ => [.regs, .boot, .mem]
  | .cores => [.regs, .pins, .rv]
  | .book => [.regs]
  | .engines _ => [.regs, .chans, .eng, .faults]
  | .config _ _
    => [.regs, .bus, .pins, .stp, .chans, .eng, .mill, .clp, .ing, .etm, .ptp, .aud, .mon, .rv, .bf, .hbm, .mem, .cvu,
        .book, .faults, .twin, .boot, .sent]
  | .clockLost _ => [.regs, .stp, .chans, .clp, .ptp, .faults, .sent]
  | .pwrFail => [.regs, .pins, .book, .faults, .boot]
  | .bookReopen => [.regs, .pins, .book]
  | .rollbackCommit => [.regs]
  | .evtWrite _ _ => [.regs, .pins, .rv]
  | .pageEnableCheck _ => [.regs, .stp, .chans, .eng, .clp, .ing, .etm, .ptp, .aud, .mon, .faults, .twin]
  | .registerWrite _ _ _ _
    => [.regs, .bus, .pins, .stp, .chans, .eng, .mill, .clp, .ing, .etm, .ptp, .aud, .mon, .rv, .bf, .hbm, .mem, .cvu,
        .book, .faults, .twin, .boot, .sent]
  | .portLinkUp _ _ | .clockPresent _ => [.regs]
  | .pcieLinkUp | .msixEnable _ _ => [.regs, .pins, .rv]
  | .announceSend _ => [.regs, .stp, .etm, .ptp, .sent]
  | .wfi _ => [.regs, .rv]
  | .pwrFailNHigh => [.regs, .pins]
  | .characterAlignment _ _ => [.clp]
  | .lanePowerExit _ _ => [.regs]

end Sys2Proof.Machine
end

