-- ==== Sys2Proof/Certificates/Slice0/Obligations.lean ====
section
/-! DEFINITION. The statements about the block: the whole machine first, then the commands block by block. `Does c s P` says that
the command `c` completes from `s` and that `P` holds of the state after it. -/

open Sys2Proof Sys2Proof.Machine Sys2Proof.Machine.State

/-- A step runs the command at the front of the queue with the rest; on an empty queue it is one tick (the model's choice, log 1).
For every command and state, step with that command at the front of the queue is exec of it on the state with the rest of the
queue. With an empty queue step lets one nanosecond of the model's clock pass: that is this model's design choice (assumption
log 1), no rule of the spec. (95_what_each_step_holds.md) -/
def Obligations.StepRunsTheFrontCommand : Prop :=
  (∀ (c : Instr) (l : List Instr) (s : State), step { s with pending := c :: l } = exec c { s with pending := l }) ∧
  (∀ s : State, s.pending = [] → step s = .next s.tick)

/-- Every command completes, leaves the queue as it is and never goes back over the free values drawn. For every command, with every
operand, and every state, exec answers a next state: no command of the table ends in a fault or a refusal. That state has the
same queue, and its counter of free values (the model's own, assumption log 5) has not fallen. (95_what_each_step_holds.md,
21_register_pages.md) -/
def Obligations.EveryCommandCompletes : Prop :=
  ∀ (c : Instr) (s : State), ∃ t, exec c s = .next t ∧ t.pending = s.pending ∧ s.free ≤ t.free

/-- Every step keeps the register file and HBM in canonical form. From every state whose register file and whose HBM list strictly
rising addresses and no entry equal to what an unlisted address reads as, a step to a next state keeps both so, whatever command
it runs. Equal registers and equal memories are thus equal data. (15_hbm_and_fabric.md, 21_register_pages.md) -/
def Obligations.StepKeepsCanonicalForms : Prop :=
  ∀ s t : State, s.Canonical → step s = .next t → t.Canonical

/-- The state after reset is in canonical form and no command waits in it. State.reset has its register file and HBM in canonical
form, and its queue is empty. (19_modes_startup_power.md) -/
def Obligations.ResetIsCanonical : Prop :=
  State.reset.Canonical ∧ State.reset.pending = []

/-- Every command changes at most the parts of the state that its block's rules let it change. For every command, operands and
state, every part of the state that the table touches does not list for the command is the same after it as before: the register
file, the bus, the pins, Steeple, channels, engines, the Millpond, CLP, ingest, the ETM, PTP, audio, the monitor head, the
Reeve, the Belfry, HBM's controllers, HBM's contents, check-value units, the Parish Book, raised faults, the twin, boot and what
was sent. A command that does not list HBM's contents leaves every byte of HBM. (95_what_each_step_holds.md,
02_channels_and_allotment.md, 15_hbm_and_fabric.md, 21_register_pages.md) -/
def Obligations.EveryCommandChangesOnlyItsParts : Prop :=
  ∀ (c : Instr) (s t : State), exec c s = .next t → SameBut (touches c) s t ∧ (Part.mem ∉ touches c → SameMemory s t)

/-- What reset leaves: BOOT, Steeple stopped at 0, pages disabled, LOAN_OK and the reset values the spec gives. After reset the mode
is BOOT and RESET_CAUSE shows POR_N alone (that State.reset is the power-on reset is the model's choice, assumption log 7);
STP.CTRL.ENABLE is 0 and the position is 0; every CH, INi and CLPn page is disabled, SEXTON enabled; LOAN_OK is 1 on the EE,
CLPn, MP, HBM and MTX pages; BAR2_WGUARD is 1, SR_IDLE is 10, TRACK_PERIOD is 4, SLAVE_ONLY is 1; both LUTs of every channel
hold preset 0; committed slots 0 to 31 are on engines 0 to 31, EE32 on LOAN and EE33 STANDBY. (R154, R249, R332, R338, R340,
R416, R448, R457, R458, 06_compositor_and_ladder.md, 19_modes_startup_power.md, 21_register_pages.md) -/
def Obligations.ResetLeaves : Prop :=
  (State.reset.mode = 0 ∧ State.reset.reg Reg.devResetCause = 1) ∧
  (State.reset.enabled Pg.stp = false ∧ State.reset.stp.pos = 0) ∧
  (∀ n < 128, State.reset.enabled (Pg.ch n) = false ∧ State.reset.enabled (Pg.inp n) = false) ∧
  (∀ n < 10, State.reset.enabled (Pg.clp n) = false ∧ State.reset.bit (Pg.clp n + hCtrl) 3 = true) ∧
  State.reset.enabled Pg.sexton = true ∧
  (∀ e < 34, State.reset.bit (Pg.ee e + hCtrl) 3 = true) ∧
  (State.reset.bit (Pg.mp + hCtrl) 3 = true ∧ State.reset.bit (Pg.hbm + hCtrl) 3 = true ∧ State.reset.bit (Pg.mtx + hCtrl) 3 = true) ∧
  (State.reset.bit Reg.hbmCfg 0 = true ∧ State.reset.getF Reg.hbmSrIdle 15 0 = 10 ∧ State.reset.getF Reg.hbmTrackPeriod 7 0 = 4 ∧
    State.reset.bit Reg.ptpCfg 16 = true) ∧
  (∀ n k, lutEntry (State.reset.chan n) k = lutReset 0 k) ∧
  ((∀ k < 32, (State.reset.slot k).eng = some k) ∧ State.reset.eng.loan = some 32 ∧ State.reset.eng.standby = some 33)

/-- A read of POS_LO latches the high word for the reading master alone, and POS_HI returns it. A POS_LO read by a master that
reaches the STP page returns bits [31:0] of the position and latches bits [63:32] in that master's latch; what a POS_HI read of
that master then returns is the latched word, and the latches of the other eight masters keep what they hold. Nothing but the
latches and the bus response changes. (R10, 01_steeple_time.md) -/
def Obligations.PositionReadLatches : Prop :=
  -- posLoRead
  (∀ (m : Master) (s : State),
    reaches s m Pg.stp = true →
    Does (.posLoRead m) s (fun t =>
      t.bus = ⟨[(s.stp.pos.setWidth 32).toNat], .ok⟩ ∧ posHi t m = (s.stp.pos >>> 32).setWidth 32 ∧
      (∀ k, k ≠ m → posHi t k = posHi s k) ∧ t.stp = { s.stp with latch := t.stp.latch } ∧ SameBut [.bus, .stp] s t))

/-- Steeple starts at a frame start when RASTER is valid, is refused otherwise, and stops only with nothing placed. Writing ENABLE 0
to 1 on the STP page with a RASTER of Table 1-2 sets ENABLE and ACTIVE and clears the refusal, and the position stands at a
frame start; a RASTER outside that table leaves ENABLE and ACTIVE at 0 and reports code 0x0115 with RASTER's word offset.
Writing 1 to 0 in COMMISSION or TEST with no channel placed and the STILE page off clears both bits and holds the position; in
any other mode it changes nothing but the refusal 0x0802. (R458, R449, R450, 01_steeple_time.md) -/
def Obligations.SteepleEnableAndDisable : Prop :=
  -- steepleEnable
  (∀ (s : State),
    s.answers Pg.stp = true → s.enabled Pg.stp = false → rasterOk s = true →
    Does (.steepleEnable) s (fun t =>
      t.enabled Pg.stp = true ∧ t.bit (Pg.stp + hStatus) 0 = true ∧ t.bit (Pg.stp + hStatus) 1 = false ∧ t.inFrame = 0 ∧
      t.reg (Pg.stp + hRefuse) = 0)) ∧
  -- steepleEnableRefused
  (∀ (s : State),
    s.answers Pg.stp = true → s.enabled Pg.stp = false → rasterOk s = false →
    Does (.steepleEnable) s (fun t =>
      t.enabled Pg.stp = false ∧ t.bit (Pg.stp + hStatus) 0 = false ∧ t.bit (Pg.stp + hStatus) 1 = true ∧
      t.reg (Pg.stp + hRefuse) = 0x00120115 ∧ t.stp = s.stp)) ∧
  -- steepleDisable
  (∀ (s : State),
    s.answers Pg.stp = true → s.enabled Pg.stp = true → (s.mode = 1 ∨ s.mode = 5) → anyChannelPlaced s = false →
    s.enabled Pg.stile = false →
    Does (.steepleDisable) s (fun t =>
      t.enabled Pg.stp = false ∧ t.bit (Pg.stp + hStatus) 0 = false ∧ t.stp = s.stp ∧
      SameRegsBut [Pg.stp + hCtrl, Pg.stp + hStatus] s t)) ∧
  -- steepleDisableRefused
  (∀ (s : State),
    s.answers Pg.stp = true → s.enabled Pg.stp = true → ¬(s.mode = 1 ∨ s.mode = 5) →
    Does (.steepleDisable) s (fun t =>
      t.enabled Pg.stp = true ∧ t.bit (Pg.stp + hStatus) 1 = true ∧ t.reg (Pg.stp + hRefuse) = 0x00010802 ∧
      SameRegsBut [Pg.stp + hStatus, Pg.stp + hRefuse] s t))

/-- Selecting a source, losing it, and what REF_FRAME_IN does to the phase error, the lock and the position. Selecting source SEL
writes STP.SRC, leaves the position where it is, takes LOCKED to HOLDOVER and FREE to ACQUIRE; selecting free-run enters FREE at
the frequency of SYSCLK. A REF_FRAME_IN pulse within 1/8 line and within the jump limit writes PHASE_ERR and clears RATE_REFUSED
and GLITCH_PEND; the pulse of the sixteenth consecutive
frame within 100 ns, while no jump is refused, takes ACQUIRE to LOCKED and clears REF_LOST. A lost
reference sets REF_LOST and event 0, holds LOCKED over and raises fault 0x1001. None of them moves the position. (R18, R19, R20,
R21, 01_steeple_time.md) -/
def Obligations.SteepleSourcesAndLoss : Prop :=
  -- sourceSelect
  (∀ (sel : Fin 8) (refclk : Bool) (i : Fin 128) (s : State),
    s.answers Pg.stp = true → sel.val ≠ 0 →
    Does (.sourceSelect sel refclk i) s (fun t =>
      t.reg Reg.stpSrc = BitVec.ofNat 32 (sel.val + (if refclk then 16 else 0) + i.val * 256) ∧ t.stp.pos = s.stp.pos ∧
      (s.stpSt = 0 → t.stpSt = 1) ∧ (s.stpSt = 2 → t.stpSt = 3) ∧ (s.stpSt = 1 ∨ s.stpSt = 3 → t.stpSt = s.stpSt))) ∧
  -- sourceSelectFreeRun
  (∀ (refclk : Bool) (i : Fin 128) (s : State),
    s.answers Pg.stp = true →
    Does (.sourceSelectFreeRun refclk i) s (fun t =>
      t.stpSt = 0 ∧ t.stp.freqPpb = 0 ∧ t.stp.pos = s.stp.pos ∧ t.bit Reg.watchDegrCause 7 = false)) ∧
  -- refFramePulse
  (∀ (err : Int) (ppb : Int) (s : State),
    s.running = true → srcSel s = 1 → ppb.natAbs ≤ 100000 → err.natAbs ≤ 32768 → (s.stpSt = 2 ∨ errNs s err ≤ jumpLimit s) →
    Does (.refFramePulse err ppb) s (fun t =>
      t.reg Reg.stpPhaseErr = BitVec.ofNat 32 (satInt 32 err) ∧ t.bit Reg.stpState 5 = false ∧ t.bit Reg.stpState 7 = false ∧
      t.stp.pos = s.stp.pos)) ∧
  -- lock
  (∀ (err : Int) (ppb : Int) (s : State),
    s.running = true → srcSel s = 1 → ppb.natAbs ≤ 100000 → err.natAbs ≤ 32768 → s.stpSt = 1 → errNs s err ≤ 100 →
    errNs s err ≤ jumpLimit s → s.bit Reg.stpState 6 = false → 15 ≤ s.stp.okRun →
    s.stp.okFrame = some (pulseFrame s err - 1) →
    Does (.refFramePulse err ppb) s (fun t =>
      t.stpSt = 2 ∧ t.bit Reg.stpState 4 = false ∧ t.bit (Pg.stp + hEvt) 3 = true)) ∧
  -- refLost
  (∀ (s : State),
    srcSel s ≠ 0 → s.stp.lost = false →
    Does (.refLost) s (fun t =>
      t.bit Reg.stpState 4 = true ∧ t.bit (Pg.stp + hEvt) 0 = true ∧ t.stp.lost = true ∧ t.stp.pos = s.stp.pos ∧
      (s.stpSt = 2 → t.stpSt = 3) ∧ t.faults = s.faults ++ [⟨0x1001, 0x100, (s.reg Reg.stpSrc).toNat, 0, s.stp.timeNs⟩]))

/-- A jump is accepted only for the source in force, and the accepted jump is applied at a frame start. STP.JUMP_ACCEPT registers an
accept for every source but PTP, and PTP.JUMP_ACCEPT for PTP, while JUMP_REFUSED is set, and neither writes a register; a step
without an accept changes nothing. An accepted and measured jump whose source has been neither lost nor refused for its rate is applied at a Steeple frame
start and clears JUMP_REFUSED and the accept; with no channel placed and no slot armed it leaves the position within that frame
at the phase difference modulo one frame. (R24, R25, R33, R257, 01_steeple_time.md, 10_network_time.md) -/
def Obligations.AcceptedJumpsAndSteps : Prop :=
  -- jumpAccept
  (∀ (s : State),
    s.answers Pg.stp = true → srcSel s ≠ 2 → s.bit Reg.stpState 6 = true →
    Does (.jumpAccept) s (fun t =>
      t = { s with stp := { s.stp with accepted := true } })) ∧
  -- ptpJumpAccept
  (∀ (s : State),
    s.answers Pg.ptp = true → srcSel s = 2 → s.bit Reg.stpState 6 = true →
    Does (.ptpJumpAccept) s (fun t =>
      t = { s with stp := { s.stp with accepted := true } })) ∧
  -- steepleStep
  (∀ (err : Int) (s : State),
    s.running = true → s.stp.measured = some err → s.stp.accepted = true → s.stp.lost = false →
    s.bit Reg.stpState 5 = false → s.chans = [] → (∀ n < 64, actArmed s n = false) →
    Does (.steepleStep) s (fun t =>
      t.stp.accepted = false ∧ t.bit Reg.stpState 6 = false ∧
      t.stp.pos = posOf s.toFrameStart.frame ((-err) % (s.frameUnits : Int)).toNat)) ∧
  -- notAccepted
  (∀ (s : State),
    s.stp.accepted = false →
    Does (.steepleStep) s (fun t =>
      t = s))

/-- Arming, disarming and firing of an action slot. Arming an unarmed slot with a legal period and a target later than the position
arms it for that target with SKIPPED, LATE and the fault bits at 0; an illegal period or target refuses with bit 4 or 5 of its
status and leaves it unarmed; a one-shot whose target has passed is refused as LATE. Disarming clears ARM and writes no register
but the slot's control and status. Firing an armed slot disarms a one-shot and moves a periodic slot's next point on by its
period. (R27, R30, R32, R35, 01_steeple_time.md) -/
def Obligations.ActionSlotsArmAndFire : Prop :=
  -- actionArm
  (∀ (n : Fin 64) (w : BitVec 32) (s : State),
    s.answers Pg.stp = true → s.bit (Reg.stpActCtrl n) 0 = false → (actPeriod s n = 0 ∨ 262144 ≤ actPeriod s n) →
    s.getF (Reg.stpActPeriodLo n) 31 18 < s.totalLines → s.getF (Reg.stpActTgtLo n) 31 18 < s.totalLines →
    later (actTarget s n) s.stp.pos = true →
    Does (.actionArm n w) s (fun t =>
      actArmed t n = true ∧ actNext t n = actTarget s n ∧ t.reg (Reg.stpActStatus n) = 1 ∧
      t.reg (Reg.stpActCtrl n) = (putBit w 0 true &&& 0x0FFF071F))) ∧
  -- actionArmIllegal
  (∀ (n : Fin 64) (w : BitVec 32) (s : State),
    s.answers Pg.stp = true → s.bit (Reg.stpActCtrl n) 0 = false →
    ((0 < actPeriod s n ∧ actPeriod s n < 262144) ∨ s.totalLines ≤ s.getF (Reg.stpActPeriodLo n) 31 18 ∨ s.totalLines ≤ s.getF (Reg.stpActTgtLo n) 31
      18) →
    Does (.actionArm n w) s (fun t =>
      actArmed t n = false ∧ (t.bit (Reg.stpActStatus n) 4 = true ∨ t.bit (Reg.stpActStatus n) 5 = true))) ∧
  -- actionDisarm
  (∀ (n : Fin 64) (w : BitVec 32) (s : State),
    s.answers Pg.stp = true → s.bit (Reg.stpActCtrl n) 0 = true →
    Does (.actionDisarm n w) s (fun t =>
      actArmed t n = false ∧ t.bit (Reg.stpActCtrl n) 0 = false ∧ SameRegsBut [Reg.stpActCtrl n, Reg.stpActStatus n] s t)) ∧
  -- actionFireOnce
  (∀ (n : Fin 64) (s : State),
    s.running = true → actArmed s n = true → actPeriod s n = 0 →
    Does (.actionFire n) s (fun t =>
      actArmed t n = false)) ∧
  -- actionFirePeriodic
  (∀ (n : Fin 64) (s : State),
    s.running = true → actArmed s n = true → actPeriod s n ≠ 0 →
    Does (.actionFire n) s (fun t =>
      actNext t n = s.posAdd (actNext s n) (actPeriod s n))) ∧
  -- actionLate
  (∀ (n : Fin 64) (w : BitVec 32) (s : State),
    s.answers Pg.stp = true → s.bit (Reg.stpActCtrl n) 0 = false → actPeriod s n = 0 →
    s.getF (Reg.stpActPeriodLo n) 31 18 < s.totalLines → s.getF (Reg.stpActTgtLo n) 31 18 < s.totalLines →
    later (actTarget s n) s.stp.pos = false →
    Does (.actionArm n w) s (fun t =>
      actArmed t n = false ∧ t.bit (Reg.stpActStatus n) 1 = true ∧ t.bit (Pg.stp + hEvt) 6 = true))

/-- Enabling, disabling and quiescing a channel writes its own CTRL, STATUS and allotment and touches no other channel. Writing
ENABLE 0 to 1 on a CH page that answers sets ENABLE and BUSY and changes no other register and no other part of the state.
Writing 1 to 0 while BUSY clears both; on a running placed channel it clears ENABLE and ACTIVE, and the channel holds (HELD)
when CTRL.QUIESCE is 1 and stops at the end of its frame when it is 0. QUIESCE 1 only sets the bit; QUIESCE 0 clears it and
takes a HELD channel that is not enabled out of HELD and stops it. (R38, R43, R59, R60, R61, 02_channels_and_allotment.md) -/
def Obligations.ChannelEnableAndHold : Prop :=
  -- channelEnable
  (∀ (n : Fin 128) (s : State),
    s.answers (Pg.ch n) = true → s.enabled (Pg.ch n) = false →
    Does (.channelEnable n) s (fun t =>
      t.enabled (Pg.ch n) = true ∧ t.bit (Pg.ch n + hStatus) 2 = true ∧ SameRegsBut [Pg.ch n + hCtrl, Pg.ch n + hStatus] s t ∧
      SameBut [.regs] s t)) ∧
  -- channelDisableBusy
  (∀ (n : Fin 128) (s : State),
    s.answers (Pg.ch n) = true → s.enabled (Pg.ch n) = true → s.bit (Pg.ch n + hStatus) 2 = true →
    Does (.channelDisable n) s (fun t =>
      t.enabled (Pg.ch n) = false ∧ t.bit (Pg.ch n + hStatus) 2 = false ∧
      SameRegsBut [Pg.ch n + hCtrl, Pg.ch n + hStatus] s t ∧ SameBut [.regs] s t)) ∧
  -- channelDisableRunning
  (∀ (n : Fin 128) (s : State),
    s.answers (Pg.ch n) = true → s.enabled (Pg.ch n) = true → s.bit (Pg.ch n + hStatus) 2 = false →
    s.bit (Pg.ch n + hCtrl) 2 = false → s.allotState n = 2 → (s.chan n).place.isSome = true → (s.chan n).running = true →
    Does (.channelDisable n) s (fun t =>
      t.enabled (Pg.ch n) = false ∧ t.bit (Pg.ch n + hStatus) 0 = false ∧ (t.chan n) = { s.chan n with stopping := true } ∧
      (∀ m, m ≠ n.val → t.chan m = s.chan m))) ∧
  -- channelDisableQuiesced
  (∀ (n : Fin 128) (s : State),
    s.answers (Pg.ch n) = true → s.enabled (Pg.ch n) = true → s.bit (Pg.ch n + hStatus) 2 = false →
    s.bit (Pg.ch n + hCtrl) 2 = true → s.allotState n = 2 → (s.chan n).place.isSome = true →
    Does (.channelDisable n) s (fun t =>
      t.enabled (Pg.ch n) = false ∧ t.bit (Pg.ch n + hStatus) 0 = false ∧ t.allotState n = 3 ∧ t.chans = s.chans)) ∧
  -- quiesceSet
  (∀ (n : Fin 128) (s : State),
    s.answers (Pg.ch n) = true →
    Does (.quiesceSet n) s (fun t =>
      t.bit (Pg.ch n + hCtrl) 2 = true ∧ SameRegsBut [Pg.ch n + hCtrl] s t ∧ SameBut [.regs] s t)) ∧
  -- quiesceClear
  (∀ (n : Fin 128) (s : State),
    s.answers (Pg.ch n) = true → s.allotState n = 3 → s.enabled (Pg.ch n) = false → (s.chan n).running = true →
    Does (.quiesceClear n) s (fun t =>
      t.bit (Pg.ch n + hCtrl) 2 = false ∧ t.allotState n = 2 ∧ (t.chan n).stopping = true))

/-- A placement epoch runs at line 0, compaction and a freed extent do what R62 says. While Steeple runs a placement epoch
stands at line 0 of a Steeple frame, records that frame as handled and leaves Steeple's latches, the slots' targets and every
byte of HBM alone; with Steeple stopped it changes nothing. DEV.ALLOT_COMPACT starts compaction and changes nothing else. When
the last frame of an old extent has retired the channel holds no old extent, and DEV.EPOCH and every other channel stay; with
no thread of the channel still running and no work waiting for an engine its move is over and it is PLACED again. (R38, R39,
R62, 02_channels_and_allotment.md) -/
def Obligations.PlacementEpochsAndMoves : Prop :=
  -- placementEpoch
  (∀ (s : State),
    s.running = true →
    Does (.placementEpoch) s (fun t =>
      t.stp.epochOf = some t.frame ∧ t.inFrame = 0 ∧ t.stp.latch = s.stp.latch ∧ t.stp.actNext = s.stp.actNext ∧
      SameMemory s t)) ∧
  -- epochStopped
  (∀ (s : State),
    s.running = false →
    Does (.placementEpoch) s (fun t =>
      t = s)) ∧
  -- allotCompact
  (∀ (s : State),
    s.answers Pg.dev = true →
    Does (.allotCompact) s (fun t =>
      t = { s with eng := { s.eng with compact := true } })) ∧
  -- oldExtentFreed
  (∀ (n : Fin 128) (s : State),
    (s.chan n).oldExt.isSome = true → (s.chan n).oldLeft = 0 →
    Does (.oldExtentFreed n) s (fun t =>
      (t.chan n).oldExt = none ∧ t.reg Reg.devEpoch = s.reg Reg.devEpoch ∧ (∀ m, m ≠ n.val → t.chan m = s.chan m) ∧
      SameBut [.regs, .chans] s t)) ∧
  -- moveEnds
  (∀ (n : Fin 128) (s : State),
    (s.chan n).oldExt.isSome = true → (s.chan n).oldLeft = 0 → (s.chan n).moving = true → (s.chan n).newExt = none →
    (∀ k < 6, (s.thread (256 + 16 * n.val + k)).state ≠ 3) → (∀ e ∈ s.eng.slots, e.2.eng.isSome = true) → s.allotState n = 4 →
    Does (.oldExtentFreed n) s (fun t =>
      (t.chan n).moving = false ∧ t.allotState n = 2))

/-- A running channel's frame start begins its next frame, its control line requests its frame thread once a frame, and that
thread writes a target and QP. At a frame start of a running channel that is neither stopping, skipping nor about to be taken
over, the channel counts one more frame, starts at the Steeple frame then in progress with no line composited, and uses the
active set of registers; every other channel stays as it was. The control line of a running channel stands at the line
ALLOT_CTRL_LINE names, puts the channel's frame thread in the Reeve's request vector, and does so once in a frame. When the
supplied frame thread ends with DONE and WAIT it has written FW_QP with VALID for each rendition; in a first frame it writes
nothing. (R14, R26, R55, R132, R133, R160, R295, 02_channels_and_allotment.md, 05_fixed_delay_rate_control.md,
06_compositor_and_ladder.md, 13_control_cores_and_reeve.md) -/
def Obligations.ChannelFramesAndControlLines : Prop :=
  -- channelFrameStart
  (∀ (n : Fin 128) (s : State),
    s.running = true → (s.chan n).place.isSome = true → (s.chan n).running = true → (s.chan n).stopping = false →
    (s.chan n).next = none → (s.chan n).skip = 0 → 0 < (s.chan n).frame →
    Does (.channelFrameStart n) s (fun t =>
      (t.chan n).frame = (s.chan n).frame + 1 ∧ (t.chan n).startFr = t.frame ∧ (t.chan n).lines = 0 ∧
      (t.chan n).inUse = (s.chan n).active ∧ (∀ m, m ≠ n.val → t.chan m = s.chan m))) ∧
  -- controlLine
  (∀ (n : Fin 128) (s : State),
    s.running = true → (s.chan n).running = true → (s.chan n).frame ≠ 0 → (s.chan n).ctrlDone = false →
    (256 + 16 * n.val) ∉ s.rv.vector →
    Does (.controlLine n) s (fun t =>
      (256 + 16 * n.val) ∈ t.rv.vector ∧ t.chan n = { s.chan n with ctrlDone := true } ∧
      t.stp.pos = (s.toPos (linePos s (s.cfgOf n) (s.chan n).startFr (s.getF (Reg.chAllotCtrlLine n) 13 0))).stp.pos ∧
      (∀ m, m ≠ n.val → t.chan m = s.chan m) ∧ SameBut [.regs, .stp, .chans, .rv] s t)) ∧
  -- controlLineOnce
  (∀ (n : Fin 128) (s : State),
    (s.chan n).ctrlDone = true →
    Does (.controlLine n) s (fun t =>
      t = s)) ∧
  -- frameThread
  (∀ (p : Fin 8) (n : Fin 128) (r : Fin 4) (x : RendCfg) (s : State),
    (s.pair p).running = some (256 + 16 * n.val) → (s.chan n).running = true → 2 ≤ (s.chan n).frame →
    rendOf (s.cfgOf n) r = some x →
    Does (.doneWait p) s (fun t =>
      t.bit (Reg.chrcFwQp n r) 31 = true)) ∧
  -- frameThreadFirstFrame
  (∀ (p : Fin 8) (n : Fin 128) (r : Fin 4) (s : State),
    (s.pair p).running = some (256 + 16 * n.val) → (s.chan n).frame < 2 →
    Does (.doneWait p) s (fun t =>
      t.reg (Reg.chrcFwQp n r) = s.reg (Reg.chrcFwQp n r) ∧ t.reg (Reg.chrcFwTgt n r) = s.reg (Reg.chrcFwTgt n r)))

/-- A double-bit error is counted, stalls the row that reads and is read again, the third in a frame condemns the plot, and a
swap moves its kind to a free plot. The first double-bit error of a plot in a Steeple frame sets MP.EVT bit 0 and the plot's
error bit, counts in MP.REFETCH, counts its clocks as a stall of the row in coding on the engine that reads, and writes no
other register. The third in one frame marks a plot in use as due for a swap. While no row of the rendition is in coding the
lowest free plot other than the faulty one takes its KIND, the faulty plot becomes RETIRED, and fault 0x2005 names both; while
one is, nothing changes. (R68, R78, R79, R83, R459, 03_millpond.md, 04_encode_engines.md) -/
def Obligations.MillpondErrorsAndSwaps : Prop :=
  -- mpRefetch
  (∀ (p : Fin 384) (k : Fin 32) (clocks : Nat) (s : State),
    Store.get (fun _ => 0) s.mill.errs p / 4 ≠ s.frame.toNat →
    Does (.mpRefetch p k clocks) s (fun t =>
      t.bit (Pg.mp + hEvt) 0 = true ∧ t.bit (Reg.mpPlot p) 31 = true ∧
      (s.reg Reg.mpRefetch ≠ BitVec.allOnes 32 → t.reg Reg.mpRefetch = s.reg Reg.mpRefetch + 1) ∧
      (t.slot k).job = (s.slot k).job.map (fun j => { j with stall := j.stall + clocks, stallMax := max j.stallMax clocks }) ∧
      (∀ i, i ≠ k.val → t.slot i = s.slot i) ∧
      SameRegsBut [Reg.mpRefetch, Pg.mp + hEvt, Reg.mpPlot p] s t ∧ SameBut [.regs, .mill, .eng] s t)) ∧
  -- mpRefetchThird
  (∀ (p : Fin 384) (k : Fin 32) (clocks : Nat) (s : State),
    Store.get (fun _ => 0) s.mill.errs p = s.frame.toNat * 4 + 2 → plotInUse s p = true → p.val ∉ s.mill.due →
    Does (.mpRefetch p k clocks) s (fun t =>
      t.mill.due = s.mill.due ++ [p.val] ∧ t.plotKind p = s.plotKind p ∧ t.chans = s.chans)) ∧
  -- plotSwap
  (∀ (p : Fin 384) (q : Nat) (s : State),
    plotBusy s p = false → p.val ∈ s.mill.due → plotInUse s p = true → freePlotBut s p = some q →
    Does (.plotSwap p) s (fun t =>
      t.plotKind q = s.plotKind p ∧ t.plotKind p = 6 ∧ p.val ∉ t.mill.due ∧
      t.faults = s.faults ++ [⟨0x2005, 0x2400, p.val, q, s.stp.timeNs⟩])) ∧
  -- plotSwapWaits
  (∀ (p : Fin 384) (s : State),
    plotBusy s p = true →
    Does (.plotSwap p) s (fun t =>
      t = s))

/-- Cell records, CTU rows, CTU decisions and missed deadlines move the coding of a channel on. The records of the next cell
row of a running channel are ready once its lines have landed: one of each cell is kept, the count of cell rows rises by one,
and the record is written after the samples of the encode source and nowhere else; in a first frame a record reads INTER
0xFFFF, a zero vector and neither CUT nor STATIC. A row start on a committed slot with an engine and no row in coding takes
the row that the slot's contexts have ready first, and the engine's POSITION shows it. A decided CTU of the row in coding
leaves one CTU fewer in the tile's part of the unit, counts one more decided and adds its cost; it ends no row, and the bits
of the tile with the bounds of what the pipeline holds and 64 for each CTU left stay within the tile's allowance. A row that
completes before its deadline frees the slot for the next row, and away from twin comparison the engine's ROWS counts one
more; at its deadline or later it is replaced and does not count. For a placed channel, the tile's next slice that is not
complete when its deadline has passed is replaced by an emergency skip slice, which the as-aired record notes and which leaves
at its unit's emission point; unless a step, RECOVERY or a lost engine is the cause, the miss is counted, LAST_MISS names
rendition, tile, row and frame, CHRC event 0 is set and DEADLINE_MISS is raised. Before the deadline nothing happens. (R83,
R85, R86, R88, R92, R135, R136, R138, R139, R140, 04_encode_engines.md, 05_fixed_delay_rate_control.md) -/
def Obligations.RowsDecisionsAndDeadlines : Prop :=
  -- gleanerRecordsReady
  (∀ (n : Fin 128) (row : Nat) (p : BitVec 64) (s : State),
    (s.chan n).running = true → (s.chan n).frame ≠ 0 → row = (s.chan n).gln.rows →
    row < cellPicRows (s.cfgOf n) * picsPerFrame (s.cfgOf n) → recordsReady s n row = some p →
    Does (.gleanerRecordsReady n row) s (fun t =>
      (t.chan n).gln.rows = row + 1 ∧ (Store.get (fun _ => []) (t.chan n).gln.cells row).length = cellCols (s.cfgOf n) ∧
      (t.chan n).frame = (s.chan n).frame ∧ t.stp.pos = (s.toPos p).stp.pos ∧ (∀ m, m ≠ n.val → t.chan m = s.chan m))) ∧
  -- recordsStored
  (∀ (n : Fin 128) (row : Nat) (p : BitVec 64) (base : Nat) (s : State),
    (s.chan n).running = true → (s.chan n).frame ≠ 0 → row = (s.chan n).gln.rows →
    row < cellPicRows (s.cfgOf n) * picsPerFrame (s.cfgOf n) → recordsReady s n row = some p →
    base = (sourcePic s n ((s.chan n).frame - 1)).base +
      storeBytes (s.cfgOf n).w (s.cfgOf n).h (s.cfgOf n).c422 (s.cfgOf n).deep + 8 * (row * cellCols (s.cfgOf n)) →
    Does (.gleanerRecordsReady n row) s (fun t =>
      t.memBytes base (8 * cellCols (s.cfgOf n)) =
        (Store.get (fun _ => []) (t.chan n).gln.cells row).flatMap (fun x => leBytes 8 (cellWord x)) ∧
      (∀ a, a < base ∨ base + 8 * cellCols (s.cfgOf n) ≤ a → t.memByte a = s.memByte a))) ∧
  -- recordsOfAFirstFrame
  (∀ (n : Fin 128) (row : Nat) (p : BitVec 64) (s : State),
    (s.chan n).running = true → (s.chan n).frame ≠ 0 → row = (s.chan n).gln.rows →
    row < cellPicRows (s.cfgOf n) * picsPerFrame (s.cfgOf n) → recordsReady s n row = some p → (s.chan n).gln.hasPrev = false →
    Does (.gleanerRecordsReady n row) s (fun t =>
      ∀ x ∈ Store.get (fun _ => []) (t.chan n).gln.cells row,
        x.inter = 0xFFFF ∧ x.mvx = 0 ∧ x.mvy = 0 ∧ x.cut = false ∧ x.still = false)) ∧
  -- rowStart
  (∀ (k : Fin 32) (e m row : Nat) (cx : Ctx) (p : BitVec 64) (r : RendCfg) (s : State),
    (s.slot k).eng = some e → (s.slot k).job = none → pickCtx s k = some (cx, m, row, p) →
    rendOf (s.cfgOf cx.ch) cx.rend = some r →
    (unitRc s cx.ch cx.rend m (unitAt (s.cfgOf cx.ch) r row).1 = none ∨ (picInfo (s.rc cx.ch cx.rend) m).isSome = true) →
    (∀ e ∈ s.hbm.failed, e.master ≠ 34) →
    Does (.rowStart k) s (fun t =>
      (t.slot k).job = some ⟨cx.idx, cx.ch, cx.rend, cx.tile, m, row, 0, 0, 0, 0, 0, 0⟩ ∧ (t.slot k).eng = some e ∧
      (t.slot k).ctxs = (s.slot k).ctxs ∧
      t.reg (Reg.eePosition e) = BitVec.ofNat 32 (cx.ch + cx.rend * 0x100 + cx.tile * 0x1000 + row * 0x10000))) ∧
  -- ctuDecide
  (∀ (k : Fin 32) (e : Nat) (j : Job) (r : RendCfg) (u : UnitRc) (tl : TileRc) (p : PicInfo) (h : SliceHead) (s : State),
    (s.slot k).eng = some e → (s.slot k).job = some j → rendOf (s.cfgOf j.ch) j.rend = some r →
    unitRc s j.ch j.rend j.pic (unitAt (s.cfgOf j.ch) r j.row).1 = some u →
    tileRc s j.ch j.rend j.pic (unitAt (s.cfgOf j.ch) r j.row).1 j.tile = some tl → picInfo (s.rc j.ch j.rend) j.pic = some p →
    tl.head = some h → tl.left ≠ 0 → j.done < tileCtus (ctuCols r) (tileCount (s.cfgOf j.ch) r) j.tile →
    Does (.ctuDecide k) s (fun t =>
      (∃ x, tileRc t j.ch j.rend j.pic (unitAt (s.cfgOf j.ch) r j.row).1 j.tile = some x ∧ x.left = tl.left - 1 ∧
        x.num = tl.num + 1 ∧ x.ctus.length = tl.ctus.length + 1 ∧
        x.done = tl.done + ctuCost (s.chan j.ch) (s.cfgOf j.ch) r p.pic j.row
          (tileCol (ctuCols r) (tileCount (s.cfgOf j.ch) r) j.tile + j.done)
          (p.intra || inBand r p j.row (tileCol (ctuCols r) (tileCount (s.cfgOf j.ch) r) j.tile + j.done))) ∧
      (∃ y, (t.slot k).job = some y ∧ y.done = j.done + 1 ∧ y.ch = j.ch ∧ y.rend = j.rend ∧ y.tile = j.tile ∧ y.pic = j.pic ∧
        y.row = j.row ∧ j.bits ≤ y.bits))) ∧
  -- tileBudget
  (∀ (k : Fin 32) (e : Nat) (j : Job) (r : RendCfg) (u : UnitRc) (tl : TileRc) (p : PicInfo) (h : SliceHead) (s : State),
    (s.slot k).eng = some e → (s.slot k).job = some j → rendOf (s.cfgOf j.ch) j.rend = some r →
    unitRc s j.ch j.rend j.pic (unitAt (s.cfgOf j.ch) r j.row).1 = some u →
    tileRc s j.ch j.rend j.pic (unitAt (s.cfgOf j.ch) r j.row).1 j.tile = some tl → picInfo (s.rc j.ch j.rend) j.pic = some p →
    tl.head = some h → tl.left ≠ 0 → j.done < tileCtus (ctuCols r) (tileCount (s.cfgOf j.ch) r) j.tile →
    (tl.bits + sumN (tl.pipe.map Prod.fst) + 64 * tl.left + 64 : Nat) ≤ tl.a → (∀ b ∈ tl.pipe, b.2 ≤ b.1) →
    Does (.ctuDecide k) s (fun t =>
      ∃ x, tileRc t j.ch j.rend j.pic (unitAt (s.cfgOf j.ch) r j.row).1 j.tile = some x ∧ x.a = tl.a ∧
        (x.bits + sumN (x.pipe.map Prod.fst) + 64 * x.left + 64 : Nat) ≤ x.a ∧ (∀ b ∈ x.pipe, b.2 ≤ b.1))) ∧
  -- rowComplete
  (∀ (k : Fin 32) (stalls : List Nat) (fixed e : Nat) (j : Job) (r : RendCfg) (s : State),
    (s.slot k).eng = some e → (s.slot k).job = some j → rendOf (s.cfgOf j.ch) j.rend = some r → s.twinUp = false →
    s.twin.resolving = none → pastDeadline s j.ch (s.cfgOf j.ch) r j.pic j.row = false →
    Does (.rowComplete k stalls fixed) s (fun t =>
      (t.slot k).job = none ∧ (t.slot k).eng = some e ∧ t.bit (Reg.eePosition e) 24 = true ∧
      (s.reg (Reg.eeRows e) ≠ BitVec.allOnes 32 → t.reg (Reg.eeRows e) = s.reg (Reg.eeRows e) + 1))) ∧
  -- rowCompleteLate
  (∀ (k : Fin 32) (stalls : List Nat) (fixed e : Nat) (j : Job) (r : RendCfg) (s : State),
    (s.slot k).eng = some e → (s.slot k).job = some j → rendOf (s.cfgOf j.ch) j.rend = some r → s.twinUp = false →
    s.twin.resolving = none → pastDeadline s j.ch (s.cfgOf j.ch) r j.pic j.row = true →
    sliceLost s j.ch (s.cfgOf j.ch) r j.tile j.pic (unitAt (s.cfgOf j.ch) r j.row).1 = false →
    tileSlot s j.ch j.rend j.tile = some k.val → j.row < ctuRows (s.cfgOf j.ch) r →
    (picInfo (s.rc j.ch j.rend) j.pic).isSome = true →
    (tileRc s j.ch j.rend j.pic (unitAt (s.cfgOf j.ch) r j.row).1 j.tile).isSome = true →
    Does (.rowComplete k stalls fixed) s (fun t =>
      (t.slot k).job = none ∧ t.reg (Reg.eeRows e) = s.reg (Reg.eeRows e) ∧ (t.chan j.ch).air.emerg = true)) ∧
  -- deadlineMiss
  (∀ (n : Fin 128) (rend : Fin 4) (tile : Fin 8) (row : Fin 256) (r : RendCfg) (m : Nat) (s : State),
    (s.chan n).place.isSome = true → rendOf (s.cfgOf n) rend = some r → (s.rc n rend).lost = [] →
    m = Store.get (fun _ => 0) (s.rc n rend).tileRows tile.val / max 1 (ctuRows (s.cfgOf n) r) →
    tile < tileCount (s.cfgOf n) r → m / picsPerFrame (s.cfgOf n) < (s.chan n).frame →
    ((s.chan n).running = true ∨
      m ≤ lastPic (s.cfgOf n) r (s.rc n rend) (irapGops s n rend) ((s.chan n).frame * picsPerFrame (s.cfgOf n))) →
    unitOf (s.cfgOf n) r (Store.get (fun _ => 0) (s.rc n rend).tileRows tile.val % max 1 (ctuRows (s.cfgOf n) r)) = unitOf (s.cfgOf n) r row →
    row < max 1 (ctuRows (s.cfgOf n) r) → later (unitPoint s (s.chan n) (s.cfgOf n) r m row 4) s.stp.pos = false →
    (unitRc s n rend m (unitAt (s.cfgOf n) r row).1 = none ∨
      ((picInfo (s.rc n rend) m).isSome = true ∧ (tileRc s n rend m (unitAt (s.cfgOf n) r row).1 tile).isSome = true)) →
    (picOf (s.cfgOf n) r (s.rc n rend) (irapGops s n rend) m).1 / picsPerFrame (s.cfgOf n) ∉ (s.chan n).cutFrames →
    (s.chan n).paused = false → ((tileSlot s n rend tile).bind (fun k => (s.slot k).eng)).isSome = true →
    Does (.deadlineMiss n rend tile row) s (fun t =>
      (t.chan n).air.emerg = true ∧ t.bit (Pg.chrc n + hEvt) 0 = true ∧
      (s.reg (Reg.chrcMisses n rend) ≠ BitVec.allOnes 32 → t.reg (Reg.chrcMisses n rend) = s.reg (Reg.chrcMisses n rend) + 1) ∧
      t.reg (Reg.chrcLastMiss n) = BitVec.ofNat 32 (rend.val + tile.val * 4 + (unitAt (s.cfgOf n) r row).1 * 0x100 + (startOf (s.chan n) (m /
        picsPerFrame (s.cfgOf n))).toNat % 65536 * 0x10000) ∧
      (t.faults.any (fun f => decide (f.code = 0x2001 ∧ f.unit = Pg.chrc n / 0x1000 ∧ f.loc0 = rend.val + tile.val * 4 + (unitAt (s.cfgOf n) r row).1
        * 0x100 + (startOf (s.chan n) (m / picsPerFrame (s.cfgOf n))).toNat % 65536 * 0x10000))) = true)) ∧
  -- emergencySliceLeavesAtItsPoint
  (∀ (n : Fin 128) (rend : Fin 4) (tile : Fin 8) (row : Fin 256) (r : RendCfg) (m : Nat) (s : State),
    (s.chan n).place.isSome = true → rendOf (s.cfgOf n) rend = some r → (s.rc n rend).lost = [] →
    m = Store.get (fun _ => 0) (s.rc n rend).tileRows tile.val / max 1 (ctuRows (s.cfgOf n) r) →
    tile < tileCount (s.cfgOf n) r → m / picsPerFrame (s.cfgOf n) < (s.chan n).frame → (s.chan n).running = true →
    unitOf (s.cfgOf n) r (Store.get (fun _ => 0) (s.rc n rend).tileRows tile.val % max 1 (ctuRows (s.cfgOf n) r)) = unitOf (s.cfgOf n) r row →
    row < max 1 (ctuRows (s.cfgOf n) r) → later (unitPoint s (s.chan n) (s.cfgOf n) r m row 4) s.stp.pos = false →
    unitRc s n rend m (unitAt (s.cfgOf n) r row).1 = none →
    Does (.deadlineMiss n rend tile row) s (fun t =>
      ((Store.get (fun _ => []) (t.chan n).slices rend.val).any (fun x => decide (x.m = m ∧ x.row = (unitAt (s.cfgOf n) r row).1 ∧
        x.tile = tile.val ∧ x.emerg = true ∧ x.e = unitPoint s (s.chan n) (s.cfgOf n) r m row 0))) = true)) ∧
  -- deadlineMissEarly
  (∀ (n : Fin 128) (rend : Fin 4) (tile : Fin 8) (row : Fin 256) (r : RendCfg) (s : State),
    rendOf (s.cfgOf n) rend = some r → (s.rc n rend).lost = [] →
    later (unitPoint s (s.chan n) (s.cfgOf n) r (Store.get (fun _ => 0) (s.rc n rend).tileRows tile.val / max 1 (ctuRows (s.cfgOf n) r)) row 4)
      s.stp.pos = true →
    Does (.deadlineMiss n rend tile row) s (fun t =>
      t = s))

/-- QUIESCE and STAT_CLR reach every engine behind a page and nothing else; a hung engine fails; rotation hands a slot to the spare.
A QUIESCE write on an engine or gang page writes CTRL.QUIESCE of each engine behind the page and no other register; STAT_CLR
clears the counters of Table 4-10 of each of them and no other register, and CHRC.STAT_CLR the twelve counters of Table 5-5. An
engine that hangs in a row raises fault 0x2003 with its number and its position. At a rotation point where the loan has passed
its test and the Sexton is enabled, the first slot in turn that may lend and has no CTU row in coding goes to the spare and its
member goes on LOAN; a slot that was chosen while it coded a row is handed over once that row is done. The slot keeps its
contexts, and the engine that was on loan becomes STANDBY. (R51, R64, R65, R113, R376, R382, 02_channels_and_allotment.md,
04_encode_engines.md, 05_fixed_delay_rate_control.md, 17_single_fault_guarantee.md) -/
def Obligations.EnginePagesRotationAndHangs : Prop :=
  -- engineQuiesce
  (∀ (pg : EePage) (v : Bool) (s : State),
    s.answers (Pg.ee 0) = true →
    Does (.engineQuiesce pg v) s (fun t =>
      (∀ e ∈ pageEngines s pg, t.bit (Pg.ee e + hCtrl) 2 = v) ∧
      SameRegsBut ((pageEngines s pg).map (fun e => Pg.ee e + hCtrl)) s t ∧ SameBut [.regs] s t)) ∧
  -- eeStatClr
  (∀ (pg : EePage) (s : State),
    s.answers (Pg.ee 0) = true →
    Does (.eeStatClr pg) s (fun t =>
      (∀ e ∈ pageEngines s pg, ∀ a ∈ eeCleared e, t.reg a = 0) ∧ SameRegsBut ((pageEngines s pg).flatMap eeCleared) s t ∧
      SameBut [.regs] s t)) ∧
  -- chrcStatClr
  (∀ (n : Fin 128) (s : State),
    s.answers (Pg.chrc n) = true →
    Does (.chrcStatClr n) s (fun t =>
      (∀ r < 4, t.reg (Reg.chrcOvfRows n r) = 0 ∧ t.reg (Reg.chrcMisses n r) = 0 ∧ t.reg (Reg.chrcFwLate n r) = 0) ∧
      SameRegsBut ((List.range 4).flatMap (fun r => [Reg.chrcOvfRows n r, Reg.chrcMisses n r, Reg.chrcFwLate n r])) s t ∧
      SameBut [.regs] s t)) ∧
  -- engineHang
  (∀ (e : Fin 34) (stall : Bool) (k : Nat) (s : State),
    s.slotOf e = some k → (s.slot k).job.isSome = true → (stall && decide (s.mode = 4)) = false →
    Does (.engineHang e stall) s (fun t =>
      t.faults = s.faults ++ [⟨0x2003, 0x400 + e.val, e.val, (s.reg (Reg.eePosition e)).toNat, s.stp.timeNs⟩] ∧
      (s.enabled (Pg.ee e) = true → t.enabled (Pg.ee e) = false))) ∧
  -- rotationPoint
  (∀ (k m b : Nat) (s : State),
    s.running = true → s.inFrame = 0 → s.enabled Pg.sexton = true →
    s.frame.toNat % max 1 (s.getF Reg.sextonRotFrames 3 0) = 0 → s.eng.changed = false → s.eng.loanPass = true →
    s.eng.standby = some b →
    firstThat (fun k => mayLend s k) ((List.range 32).map (fun i => (s.eng.rotNext + i) % 32)) = some k →
    (s.slot k).eng = some m → (s.slot k).job = none →
    Does (.rotationPoint) s (fun t =>
      t.eng.loan = some m ∧ t.eng.standby = s.eng.loan ∧ t.slot k = { s.slot k with eng := some b } ∧
      t.eng.rotNext = (k + 1) % 32 ∧ t.eng.chosen = none)) ∧
  -- rotationHandover
  (∀ (k m b : Nat) (s : State),
    s.eng.chosen = some k → (s.slot k).job = none → (s.slot k).eng = some m → s.eng.standby = some b → s.eng.loanPass = true →
    Does (.rotationHandover) s (fun t =>
      t.eng.loan = some m ∧ t.eng.standby = s.eng.loan ∧ t.slot k = { s.slot k with eng := some b } ∧ t.eng.chosen = none))

/-- A commit waits for the latch line, takes the shadow set whole or not at all, and releases old buffers once. COMMIT on an
enabled channel's CHCOMP page shows PENDING, notes where it landed and writes no layer register; a second one while it is
pending changes nothing. At the latch line of a running channel a commit that landed before it and whose tests pass makes the
shadow set the active set, records the frame and sets event 8; one that fails a test leaves the active set as it is, reports
the offending word in COMMIT_STAT and sets event 9; one that landed in the latch line or after it waits. A release stands at
its line, sets the layers' events, forgets them and writes no other register but those a frame start writes. A commit leaves
every other channel as it was. (R160, R161, R162, R164, R448, 06_compositor_and_ladder.md) -/
def Obligations.CompositorCommitsAndReleases : Prop :=
  -- chcompCommit
  (∀ (n : Fin 128) (s : State),
    s.answers (Pg.chcomp n) = true → s.enabled (Pg.ch n) = true → s.bit (Reg.chcompCommitStat n) 0 = false →
    Does (.chcompCommit n) s (fun t =>
      t.bit (Reg.chcompCommitStat n) 0 = true ∧ t.bit (Pg.chcomp n + hCtrl) 1 = true ∧
      t.chan n = { s.chan n with commitAt := s.stp.pos } ∧ (∀ m, m ≠ n.val → t.chan m = s.chan m) ∧
      SameRegsBut [Pg.chcomp n + hCtrl, Reg.chcompCommitStat n] s t ∧ SameBut [.regs, .chans] s t)) ∧
  -- chcompCommitPending
  (∀ (n : Fin 128) (s : State),
    s.bit (Reg.chcompCommitStat n) 0 = true →
    Does (.chcompCommit n) s (fun t =>
      t = s)) ∧
  -- chcompCommitOff
  (∀ (n : Fin 128) (s : State),
    s.enabled (Pg.ch n) = false →
    Does (.chcompCommit n) s (fun t =>
      t = s)) ∧
  -- commitCopy
  (∀ (n : Fin 128) (p : BitVec 64) (u s : State),
    s.running = true → (s.chan n).running = true → (s.chan n).frame ≠ 0 → s.bit (Reg.chcompCommitStat n) 0 = true →
    p = linePos s (s.cfgOf n) (s.chan n).startFr (latchLine (s.cfgOf n)) → u = s.toPos p → later p (s.chan n).commitAt = true →
    commitFail u n = none →
    Does (.commitCopy n) s (fun t =>
      (t.chan n).active = shadowSet s n ∧ t.bit (Pg.chcomp n + hEvt) 8 = true ∧ t.bit (Pg.chcomp n + hCtrl) 1 = false ∧
      t.reg (Reg.chcompCommitStat n) = BitVec.ofNat 32 (u.frame.toNat % 65536 * 0x10000) ∧ t.stp = u.stp ∧
      (t.chan n).inUse = (s.chan n).inUse ∧ (∀ m, m ≠ n.val → t.chan m = s.chan m))) ∧
  -- commitCopyFails
  (∀ (n : Fin 128) (w : Nat) (p : BitVec 64) (s : State),
    s.running = true → (s.chan n).running = true → (s.chan n).frame ≠ 0 → s.bit (Reg.chcompCommitStat n) 0 = true →
    p = linePos s (s.cfgOf n) (s.chan n).startFr (latchLine (s.cfgOf n)) → later p (s.chan n).commitAt = true →
    commitFail (s.toPos p) n = some w → w < 4096 →
    Does (.commitCopy n) s (fun t =>
      t.chans = s.chans ∧ t.bit (Pg.chcomp n + hEvt) 9 = true ∧ t.bit (Pg.chcomp n + hCtrl) 1 = false ∧
      t.bit (Reg.chcompCommitStat n) 1 = true ∧ t.bit (Reg.chcompCommitStat n) 0 = false)) ∧
  -- commitInTheLatchLineWaits
  (∀ (n : Fin 128) (p : BitVec 64) (s : State),
    s.running = true → (s.chan n).running = true → (s.chan n).frame ≠ 0 →
    p = linePos s (s.cfgOf n) (s.chan n).startFr (latchLine (s.cfgOf n)) → later p (s.chan n).commitAt = false →
    Does (.commitCopy n) s (fun t =>
      t = s.toPos p)) ∧
  -- layerRelease
  (∀ (n : Fin 128) (s : State),
    s.running = true → (s.chan n).running = true → (s.chan n).frame ≠ 0 → (s.chan n).release ≠ [] →
    Does (.layerRelease n) s (fun t =>
      (∀ k ∈ (s.chan n).release, k < 32 → t.bit (Pg.chcomp n + hEvt) k = true) ∧ (t.chan n).release = [] ∧
      t.stp.pos = (s.toPos (linePos s (s.cfgOf n) (s.chan n).startFr (releaseLine (s.cfgOf n)))).stp.pos ∧
      SameRegsBut [Pg.chcomp n + hEvt, Reg.stpHoldFrames, Reg.ptpMapLo, Reg.ptpMapHi] s t)) ∧
  -- layerReleaseNone
  (∀ (n : Fin 128) (s : State),
    (s.chan n).release = [] →
    Does (.layerRelease n) s (fun t =>
      t = s))

/-- Composited and ladder lines advance the channel, and LUT entries are read and written only while it is disabled. A picture
line of a running channel is composited at the line after it and makes the lines through it available; live layers whose lines
missed their window are counted in LIVE_MISS with event 10; where layer 0 stands at full GALPHA and no layer above it shows,
the line is the input's luma and chroma unchanged. The next output line of a ladder stage in use whose input lines are there
counts as written; every other channel stays. A LUT write on a disabled channel stores the entry LUT_ADDR names and reports
DONE without ERR; a read returns the entry in LUT_DATA; PRESET_GO replaces both tables and sets event 12; while the channel is
enabled a write is refused with code 0x0801 on the CH page and stores nothing. (R41, R146, R149, R153, R154, R157, R166, R167,
R169, 06_compositor_and_ladder.md) -/
def Obligations.CompositorLinesAndLuts : Prop :=
  -- compositeLine
  (∀ (n : Fin 128) (line f y : Nat) (late : List (Fin 8)) (s : State),
    s.running = true → (s.chan n).running = true → (s.chan n).frame ≠ 0 → pictureLine (s.cfgOf n) line = some (f, y) →
    (s.chan n).lines ≤ line →
    Does (.compositeLine n line late) s (fun t =>
      (t.chan n).lines = line + 1 ∧ (t.chan n).frame = (s.chan n).frame ∧
      t.stp.pos = (s.toPos (linePos s (s.cfgOf n) (s.chan n).startFr (line + 1))).stp.pos ∧
      (∀ m, m ≠ n.val → t.chan m = s.chan m) ∧ SameBut [.regs, .stp, .chans, .hbm, .mem] s t)) ∧
  -- compositeLineMissed
  (∀ (n : Fin 128) (line f y : Nat) (late : List (Fin 8)) (u s : State),
    s.running = true → (s.chan n).running = true → (s.chan n).frame ≠ 0 → pictureLine (s.cfgOf n) line = some (f, y) →
    (s.chan n).lines ≤ line → u = s.toPos (linePos s (s.cfgOf n) (s.chan n).startFr (line + 1)) →
    missedLayers u n (s.chan n).inUse line ≠ [] →
    Does (.compositeLine n line late) s (fun t =>
      t.bit (Pg.chcomp n + hEvt) 10 = true ∧
      (t.reg (Reg.chcompLiveMiss n)).toNat =
        min ((s.reg (Reg.chcompLiveMiss n)).toNat + (missedLayers u n (s.chan n).inUse line).length) 0xFFFFFFFF ∧
      SameRegsBut [Reg.chcompLiveMiss n, Reg.chcompLayerLate n, Pg.chcomp n + hEvt, Reg.inpRepeats (s.cfgOf n).input, Reg.stpHoldFrames,
        Reg.ptpMapLo, Reg.ptpMapHi] s t)) ∧
  -- uncoveredLinePassesThrough
  (∀ (n l f y : Nat) (out : List Nat) (s : State),
    fld (setWordAt (s.chan n).inUse (layerOff 0 0x1C)) 9 0 = 1023 → 0 ∉ layersAbove (s.chan n).inUse 0 →
    (∀ k ∈ layersAbove (s.chan n).inUse 0, visibleGraphics s n (s.chan n).inUse k = false ∧ visibleLive s n (s.chan n).inUse k = false) →
    composited s n l f y out =
      ((List.range ((s.cfgOf n).w / 2)).flatMap (fun k => [lineY (baseLine s n l) (2 * k), lineY (baseLine s n l) (2 * k + 1)]),
       (List.range ((s.cfgOf n).w / 2)).flatMap (fun k => [lineCb (baseLine s n l) k, lineCr (baseLine s n l) k]))) ∧
  -- ladderLine
  (∀ (n : Fin 128) (stage : Fin 3) (line ho hi : Nat) (g : Bool × Nat × Nat) (s : State),
    (s.chan n).running = true → (s.chan n).frame ≠ 0 → (s.cfgOf n).stages[stage.val]? = some g → g.1 = true →
    ho = (scaledPic s n stage ((s.chan n).frame - 1)).h / picsPerFrame (s.cfgOf n) →
    hi = (stageInput s n stage ((s.chan n).frame - 1)).h / picsPerFrame (s.cfgOf n) →
    line = Store.get (fun _ => 0) (s.chan n).stages stage → line < ho * picsPerFrame (s.cfgOf n) → 2 ≤ hi →
    (∀ y < hi, stageHas s n stage (line / max 1 ho) y = true) →
    Does (.ladderLine n stage line) s (fun t =>
      Store.get (fun _ => 0) (t.chan n).stages stage = line + 1 ∧
      (∀ m, m ≠ n.val → t.chan m = s.chan m) ∧ SameBut [.chans, .hbm, .mem] s t)) ∧
  -- lutEntryWrite
  (∀ (n : Fin 128) (s : State),
    s.answers (Pg.chcomp n) = true → s.bit (Reg.chcompLutAddr n) 16 = true → s.enabled (Pg.ch n) = false →
    s.getF (Reg.chcompLutAddr n) 11 10 ≠ 3 →
    Does (.lutEntryWrite n) s (fun t =>
      lutEntry (t.chan n) (lutKey (s.getF (Reg.chcompLutAddr n) 12 12) (s.getF (Reg.chcompLutAddr n) 11 10) (s.getF (Reg.chcompLutAddr n) 9 0)) =
        (s.reg (Reg.chcompLutData n)).setWidth 18 ∧
      t.reg (Reg.chcompLutStat n) = 1 ∧ (∀ m, m ≠ n.val → t.chan m = s.chan m))) ∧
  -- lutWhileEnabled
  (∀ (n : Fin 128) (s : State),
    s.answers (Pg.chcomp n) = true → s.bit (Reg.chcompLutAddr n) 16 = true → s.enabled (Pg.ch n) = true →
    Does (.lutEntryWrite n) s (fun t =>
      t.chans = s.chans ∧ t.reg (Reg.chcompLutStat n) = 3 ∧ t.bit (Pg.ch n + hStatus) 1 = true ∧
      t.reg (Pg.ch n + hRefuse) = BitVec.ofNat 32 (0x20000801 + wordOf (Reg.chcompLutGo n) * 0x10000))) ∧
  -- lutEntryRead
  (∀ (n : Fin 128) (s : State),
    s.answers (Pg.chcomp n) = true → s.bit (Reg.chcompLutAddr n) 16 = false → s.getF (Reg.chcompLutAddr n) 11 10 ≠ 3 →
    Does (.lutEntryRead n) s (fun t =>
      t.reg (Reg.chcompLutData n) = (lutEntry (s.chan n) (lutKey (s.getF (Reg.chcompLutAddr n) 12 12) (s.getF (Reg.chcompLutAddr n) 11 10) (s.getF
        (Reg.chcompLutAddr n) 9 0))).setWidth 32 ∧
      t.reg (Reg.chcompLutStat n) = 1 ∧ t.chans = s.chans)) ∧
  -- lutPresetGo
  (∀ (n : Fin 128) (preset : Fin 4) (s : State),
    s.answers (Pg.chcomp n) = true → s.enabled (Pg.ch n) = false → preset.val ≠ 3 →
    Does (.lutPresetGo n preset false) s (fun t =>
      (∀ k, lutEntry (t.chan n) k = lutReset preset k) ∧ t.bit (Pg.chcomp n + hEvt) 12 = true ∧
      t.reg (Reg.chcompLutStat n) = 1 ∧ (∀ m, m ≠ n.val → t.chan m = s.chan m)))

/-- A legal CLP configuration starts every lane of its role in training; disabling puts every lane in P3. ENABLE on a CLP page with
a configuration that R196 admits sets ENABLE and ACTIVE, gives every lane the role CFG names, and starts DATA and SPARE lanes in
CDR; a configuration outside R196 is refused with code 0x010B and CFG's word offset and starts nothing. Disabling clears ENABLE
and leaves every lane OFF in P3. A power request on a disabled bundle writes LANE_PWR. (R173, R174, R190, R196,
07_celtil_lanes.md) -/
def Obligations.BundleEnableAndDisable : Prop :=
  -- clpEnable
  (∀ (n : Fin 10) (s : State),
    s.answers (Pg.clp n) = true → s.enabled (Pg.clp n) = false → clpConfigOk s n = true →
    Does (.clpEnable n) s (fun t =>
      t.enabled (Pg.clp n) = true ∧ t.bit (Pg.clp n + hStatus) 0 = true ∧
      (∀ p < 8, laneRole t n p = cfgRole s n p ∧ laneSt t n p = if cfgRole s n p = 0 then 0 else 2))) ∧
  -- clpEnableRefused
  (∀ (n : Fin 10) (s : State),
    s.answers (Pg.clp n) = true → s.enabled (Pg.clp n) = false → clpConfigOk s n = false →
    Does (.clpEnable n) s (fun t =>
      t.enabled (Pg.clp n) = false ∧ t.bit (Pg.clp n + hStatus) 0 = false ∧ t.reg (Pg.clp n + hRefuse) = 0x0010010B ∧
      t.clp = s.clp)) ∧
  -- clpDisable
  (∀ (n : Fin 10) (s : State),
    s.answers (Pg.clp n) = true → s.enabled (Pg.clp n) = true →
    Does (.clpDisable n) s (fun t =>
      t.enabled (Pg.clp n) = false ∧ t.bit (Pg.clp n + hStatus) 0 = false ∧ (∀ p < 8, laneSt t n p = 0 ∧ lanePower t n p = 3))) ∧
  -- lanePowerRequest
  (∀ (n : Fin 10) (w : BitVec 32) (s : State),
    s.answers (Pg.clp n) = true → s.enabled (Pg.clp n) = false →
    Does (.lanePowerRequest n w) s (fun t =>
      t.getF (Reg.clpLanePwr n) 15 0 = fld w 15 0 ∧ SameRegsBut [Reg.clpLanePwr n] s t))

/-- A training lane moves CDR to ADAPT to ALIGN to ACTIVE, and fails with fault 0x4001 when a step runs out. CDR lock takes a lane
in CDR to ADAPT. A CTLE sweep in ADAPT that finds a working setting near PRESET applies the one of highest figure of merit and
goes to ALIGN. Comma lock within 64 characters of skew takes ALIGN to ACTIVE where no retrain waits. A CDR or alignment timeout
of a lane that has not failed before, and a failure of an ACTIVE lane for a cause of R186 that stands, leave it FAILED and raise
fault 0x4001 with bundle and lane; a cause that does not stand fails nothing. (R184, R186, R190, R191, 07_celtil_lanes.md) -/
def Obligations.LaneTraining : Prop :=
  -- laneCdrLock
  (∀ (n : Fin 10) (p : Fin 8) (s : State),
    laneSt s n p = 2 →
    Does (.laneCdrLock n p) s (fun t =>
      laneSt t n p = 3 ∧ SameRegsBut [Reg.clpLaneState n p] s t ∧ SameBut [.regs] s t)) ∧
  -- laneCdrTimeout
  (∀ (n : Fin 10) (p : Fin 8) (s : State),
    laneSt s n p = 2 → laneFailed s n p = false → (lane s n p).held = none →
    Does (.laneCdrTimeout n p) s (fun t =>
      laneSt t n p = 6 ∧ t.faults = s.faults ++ [⟨0x4001, 0x1400 + n.val, n.val, p.val, s.stp.timeNs⟩])) ∧
  -- laneAdaptComplete
  (∀ (n : Fin 10) (p : Fin 8) (points : List SweepPoint) (wide : List SweepPoint) (x : SweepPoint) (s : State),
    laneSt s n p = 3 →
    bestPoint (s.getF (Reg.clpAdapt n) 7 0) (points.filter (fun x => decide (s.getF (Reg.clpPreset n) 3 0 ≤ x.boost + 3 ∧ x.boost ≤ s.getF
      (Reg.clpPreset n) 3 0 + 3))) = some x →
    Does (.laneAdaptComplete n p points wide) s (fun t =>
      laneSt t n p = 4 ∧ t.reg (Reg.clpLaneEq n p) = BitVec.ofNat 32 x.boost ∧ t.getF (Reg.clpLaneFom n p) 7 0 = fom x.v x.h ∧
      SameRegsBut [Reg.clpLaneState n p, Reg.clpLaneEq n p, Reg.clpLaneFom n p] s t)) ∧
  -- laneAlignComplete
  (∀ (n : Fin 10) (p : Fin 8) (skew : Nat) (s : State),
    laneSt s n p = 4 → skew ≤ 64 → retrainPending s n p = false →
    Does (.laneAlignComplete n p skew) s (fun t =>
      laneSt t n p = 5 ∧ (lane t n p).errRun = 0 ∧ (lane t n p).bamBad = 0)) ∧
  -- laneAlignTimeout
  (∀ (n : Fin 10) (p : Fin 8) (s : State),
    laneSt s n p = 4 → laneFailed s n p = false → (lane s n p).held = none →
    Does (.laneAlignTimeout n p) s (fun t =>
      laneSt t n p = 6 ∧ t.faults = s.faults ++ [⟨0x4001, 0x1400 + n.val, n.val, p.val, s.stp.timeNs⟩])) ∧
  -- laneFailed
  (∀ (n : Fin 10) (p : Fin 8) (cause : LaneCause) (s : State),
    s.enabled (Pg.clp n) = true → laneRole s n p ≠ 0 → laneSt s n p = 5 →
    (match cause with
      | .noTransition => True
      | .lostAlignment => 4 ≤ (lane s n p).errRun ∨ 2 ≤ (lane s n p).bamBad
      | .tooManyErrors => s.getF (Reg.clpAdapt n) 15 8 < (lane s n p).errs.2
      | .retrainFailed => False) →
    Does (.laneFailed n p cause) s (fun t =>
      laneSt t n p = 6 ∧ t.faults = s.faults ++ [⟨0x4001, 0x1400 + n.val, n.val, p.val, s.stp.timeNs⟩])) ∧
  -- laneFailedNoCause
  (∀ (n : Fin 10) (p : Fin 8) (cause : LaneCause) (s : State),
    laneCause s n p cause = false →
    Does (.laneFailed n p cause) s (fun t =>
      t = s))

/-- Retraining starts at CDR in COMMISSION, power and counters follow their requests, and realignment clears the error run. Outside
SERVICE and DEGRADED a RETRAIN write on an ACTIVE or FAILED lane of an enabled bundle starts it in CDR, and automatic retraining
does the same to a FAILED lane at a frame start. A lane that leaves P1 or P2 on a request for P0 becomes ACTIVE in P0. LANE_CLR
clears the lane's two error counters, and character alignment ends its run of errors. (R177, R192, R193, R194,
07_celtil_lanes.md) -/
def Obligations.LaneRetrainingAndCounters : Prop :=
  -- retrain
  (∀ (n : Fin 10) (p : Fin 8) (s : State),
    s.answers (Pg.clp n) = true → s.enabled (Pg.clp n) = true → laneRole s n p ≠ 0 → (laneSt s n p = 5 ∨ laneSt s n p = 6) →
    inService s = false →
    Does (.retrain n p) s (fun t =>
      laneSt t n p = 2 ∧ retrainPending t n p = false)) ∧
  -- autoRetrain
  (∀ (n : Fin 10) (p : Fin 8) (s : State),
    s.bit (Reg.clpAdapt n) 16 = true → s.running = true → s.enabled (Pg.clp n) = true → laneRole s n p ≠ 0 → laneSt s n p = 6 →
    inService s = false →
    Does (.autoRetrain n p) s (fun t =>
      laneSt t n p = 2 ∧ t.inFrame = 0)) ∧
  -- lanePowerExit
  (∀ (n : Fin 10) (p : Fin 8) (s : State),
    s.enabled (Pg.clp n) = true → (lanePower s n p = 1 ∨ lanePower s n p = 2) →
    s.getF (Reg.clpLanePwr n) (2 * p + 1) (2 * p) = 0 →
    Does (.lanePowerExit n p) s (fun t =>
      lanePower t n p = 0 ∧ laneSt t n p = 5 ∧ SameRegsBut [Reg.clpLaneState n p] s t)) ∧
  -- laneClr
  (∀ (n : Fin 10) (p : Fin 8) (s : State),
    s.answers (Pg.clp n) = true →
    Does (.laneClr n p) s (fun t =>
      t.reg (Reg.clpLaneCv n p) = 0 ∧ t.reg (Reg.clpLaneDisp n p) = 0 ∧ t.getF (Reg.clpLaneFom n p) 15 8 = 0 ∧
      SameRegsBut [Reg.clpLaneCv n p, Reg.clpLaneDisp n p, Reg.clpLaneFom n p] s t ∧ SameBut [.regs] s t)) ∧
  -- characterAlignment
  (∀ (n : Fin 10) (p : Fin 8) (s : State),
    Does (.characterAlignment n p) s (fun t =>
      (lane t n p).errRun = 0 ∧ (∀ m q, 8 * m + q ≠ 8 * n.val + p.val → lane t m q = lane s m q) ∧ SameBut [.clp] s t))

/-- Data rows, markers and link-management sets on a link of an enabled bundle. A data row on an UP link without a spare whose
groups all decode to clean data and whose lanes are all aligned adds the bytes of the DATA lanes in use to the packet in assembly,
unless a bad row has ended it; two bad lanes in a row end it. Every data byte and control character decodes from its 8b/10b group to
itself (the code table is the standard one that R176 names, assumption log 48).
A marker is sent with the sequence number the link holds and the number rises; a marker received sets the number expected next.
A NARROW set with a good CRC is acknowledged on every lane and its mask waits for the second marker; a NARROW_ACK for the mask
requested does the same at the requesting end; a STATUS set shows the FAILED mask sent or received; a set with a wrong CRC changes
nothing. Without a NARROW_ACK within 8 marker periods the link is DOWN with fault 0x4003. (R176, R180, R182, R184, R185, R188, R189,
07_celtil_lanes.md) -/
def Obligations.LinkRowsAndMarkers : Prop :=
  -- clpDataRow
  (∀ (n : Fin 10) (chars : List LaneGroup) (s : State),
    s.enabled (Pg.clp n) = true → 2 ≤ linkState s (2 * n.val) → spareOf s (2 * n.val) = none →
    (∀ p ∈ linkLanes (2 * n.val), badChar (laneChar (chars.getD p ⟨0, false⟩)) = false ∧ laneOut s (2 * n.val) p = false) →
    Does (.clpDataRow n false chars) s (fun t =>
      (link t (2 * n.val)).packet = (link s (2 * n.val)).packet ++
        (if (link s (2 * n.val)).dead then [] else (dataInUse s (2 * n.val)).map (fun p => (laneChar (chars.getD p ⟨0, false⟩)).byte)))) ∧
  -- clpDataRowTwoBad
  (∀ (n : Fin 10) (chars : List LaneGroup) (p q : Nat) (s : State),
    s.enabled (Pg.clp n) = true → 2 ≤ linkState s (2 * n.val) → p ∈ dataInUse s (2 * n.val) → q ∈ dataInUse s (2 * n.val) → p ≠ q →
    badChar (laneChar (chars.getD p ⟨0, false⟩)) = true → badChar (laneChar (chars.getD q ⟨0, false⟩)) = true →
    Does (.clpDataRow n false chars) s (fun t =>
      (link t (2 * n.val)).packet = [] ∧ (link t (2 * n.val)).dead = true)) ∧
  -- groups
  (∀ (rd : Bool) (b : BitVec 8), laneChar ⟨BitVec.ofNat 10 (dataGroup rd b.toNat), rd⟩ = ⟨b, false, false, false⟩) ∧
  (∀ (rd : Bool), ∀ e ∈ controlCodes, laneChar ⟨BitVec.ofNat 10 (controlGroup rd e.2), rd⟩ = ⟨BitVec.ofNat 8 e.1, true, false, false⟩) ∧
  -- bamSend
  (∀ (n : Fin 10) (x : Bool) (s : State),
    s.enabled (Pg.clp n) = true → (linksOf s n).contains (linkKey n x) = true →
    Does (.bamSend n x) s (fun t =>
      t.sent = .marker n (decide (linkKey n x = 19)) (link s (linkKey n x)).seqTx (markerLanes s (linkKey n x)) :: s.sent ∧
      (markerLanes s (linkKey n x)).map (fun e => e.1) = (linkLanes (linkKey n x)).filter (fun p => !(txIdle s n p)) ∧
      (∀ e ∈ markerLanes s (linkKey n x), e.2 = markerChars n e.1 (decide (laneRole s n e.1 = 2)) (link s (linkKey n x)).seqTx.toNat) ∧
      (link t (linkKey n x)).seqTx = (link s (linkKey n x)).seqTx + 1 ∧ SameBut [.clp, .sent] s t)) ∧
  -- bamReceived
  (∀ (n : Fin 10) (x : Bool) (lanes : List BamLane) (skp : Int) (q : BitVec 8) (s : State),
    s.enabled (Pg.clp n) = true → (linksOf s n).contains (linkKey n x) = true → (link s (linkKey n x)).seqRx = some q →
    Does (.bamReceived n x lanes skp) s (fun t =>
      (link t (linkKey n x)).seqRx = some (q + 1))) ∧
  -- narrow
  (∀ (n : Fin 10) (x : Bool) (mask crc : BitVec 8) (s : State),
    s.enabled (Pg.clp n) = true → (linksOf s n).contains (linkKey n x) = true → crc.toNat = crc8 [1, mask.toNat] →
    Does (.narrow n x mask crc) s (fun t =>
      t.sent = .linkSet (linkKey n x / 2) (decide (linkKey n x = 19)) 2 mask.toNat
        (controlRow (txLanes s (linkKey n x)) 0x3C :: [2, mask.toNat, crc8 [2, mask.toNat]].map (fun b =>
          (txLanes s (linkKey n x)).map (fun p => (p, false, b)))) :: s.sent ∧
      (link t (linkKey n x)).txPend = some (mask.toNat, 2) ∧ SameBut [.clp, .sent] s t)) ∧
  -- narrowAck
  (∀ (n : Fin 10) (x : Bool) (mask crc : BitVec 8) (s : State),
    (link s (linkKey n x)).narrowReq = some mask.toNat → crc.toNat = crc8 [2, mask.toNat] →
    Does (.narrowAck n x mask crc) s (fun t =>
      (link t (linkKey n x)).narrowIn = some (mask.toNat, 2) ∧ (link t (linkKey n x)).narrowReq = none ∧ SameBut [.clp] s t)) ∧
  -- status
  (∀ (n : Fin 10) (x : Bool) (mask crc : BitVec 8) (s : State),
    s.enabled (Pg.clp n) = true → (linksOf s n).contains (linkKey n x) = true → crc.toNat = crc8 [3, mask.toNat] →
    Does (.status n x (some (mask, crc))) s (fun t =>
      (link t (linkKey n x)).lastStatus = mask.toNat ∧ t.sent = s.sent ∧ SameBut [.clp] s t)) ∧
  -- setsWithAWrongCrc
  (∀ (n : Fin 10) (x : Bool) (mask crc : BitVec 8) (s : State),
    (crc.toNat ≠ crc8 [1, mask.toNat] → Does (.narrow n x mask crc) s (fun t => t = s)) ∧
    (crc.toNat ≠ crc8 [2, mask.toNat] → Does (.narrowAck n x mask crc) s (fun t => t = s)) ∧
    (crc.toNat ≠ crc8 [3, mask.toNat] → Does (.status n x (some (mask, crc))) s (fun t => t = s))) ∧
  -- clpBundleDown
  (∀ (n : Fin 10) (x : Bool) (s : State),
    (link s (linkKey n x)).narrowReq.isSome = true → 8 ≤ (link s (linkKey n x)).narrowAge →
    Does (.clpBundleDown n x) s (fun t =>
      linkState t (linkKey n x) = 0 ∧ t.bit (Pg.clp n + hEvt) 3 = true ∧
      t.faults = s.faults ++ [⟨0x4003, 0x1400 + n.val, n.val, 0, s.stp.timeNs⟩] ∧ (link t (linkKey n x)).packet = []))

/-- CLP, raster, ancillary and format packets land for the inputs they name, and bad ones only count. The end row of a CLP packet with a
wrong length or CRC writes no register but the lanes' error counters and the CRC counters of the inputs it names, and the packet lands
nowhere; a good one of TYPE 4 that
disagrees with the input's page marks the input for loss. A raster packet of a receiving input marks its line part landed and,
for the one channel the input feeds, stores its samples at the channel's depth; one before its line's window is only counted, one
after it changes nothing, and while the input is LOST the part of the frame before stands in its place. An ABT row counts ABORTS. An ancillary
packet's record moves the ring pointer by its length. A format packet that agrees with the page changes nothing, one that
disagrees sets event 3. (R185, R198, R199, R200, R202, R203, R204, R205, R212, R455, 08_ingest.md) -/
def Obligations.PacketsLandForTheirInputs : Prop :=
  -- clpPacketBad
  (∀ (n : Fin 10) (x : Bool) (chars : List LaneGroup) (bytes : List (BitVec 8)) (s : State),
    s.enabled (Pg.clp n) = true → 2 ≤ linkState s (linkKey n x) → (linkKey n x ≠ 16 ∧ linkKey n x ≠ 18) →
    rowVote s (linkKey n x) chars = (true, 0xFD) → bytes = (link s (linkKey n x)).packet → openPacket (bytes.map BitVec.toNat) = none →
    Does (.clpPacket n x chars) s (fun t =>
      t.ing = s.ing ∧ (link t (linkKey n x)).packet = [] ∧ (link t (linkKey n x)).dead = false ∧ t.faults = s.faults ∧ t.twin = s.twin ∧
      SameRegsBut ((List.range 8).flatMap (fun p => [Reg.clpLaneCv n p, Reg.clpLaneDisp n p]) ++
        (inputsFor s (linkKey n x) ((bytes.map BitVec.toNat).getD 1 0 % 16)).map Reg.inpCrcErr) s t)) ∧
  -- clpPacketAborted
  (∀ (n : Fin 10) (x : Bool) (chars : List LaneGroup) (bytes : List (BitVec 8)) (s : State),
    s.enabled (Pg.clp n) = true → 2 ≤ linkState s (linkKey n x) → (linkKey n x ≠ 16 ∧ linkKey n x ≠ 18) →
    rowVote s (linkKey n x) chars = (true, 0xFE) → bytes = (link s (linkKey n x)).packet →
    Does (.clpPacket n x chars) s (fun t =>
      t.ing = s.ing ∧ (link t (linkKey n x)).packet = [] ∧ (link t (linkKey n x)).dead = false ∧ t.faults = s.faults ∧ t.twin = s.twin ∧
      SameRegsBut ((List.range 8).flatMap (fun p => [Reg.clpLaneCv n p, Reg.clpLaneDisp n p]) ++
        (inputsFor s (linkKey n x) ((bytes.map BitVec.toNat).getD 1 0 % 16)).map Reg.inpAborts) s t)) ∧
  -- clpPacketFormat
  (∀ (n : Fin 10) (x : Bool) (chars : List LaneGroup) (bytes : List (BitVec 8)) (i : Nat) (k : Nat) (w : Word) (pl : List Nat) (s : State),
    s.enabled (Pg.clp n) = true → 2 ≤ linkState s (linkKey n x) → (linkKey n x ≠ 16 ∧ linkKey n x ≠ 18) →
    rowVote s (linkKey n x) chars = (true, 0xFD) → bytes = (link s (linkKey n x)).packet → (link s (linkKey n x)).dead = false →
    openPacket (bytes.map BitVec.toNat) = some (4, k, w, pl) →
    inputsFor s (linkKey n x) ((bytes.map BitVec.toNat).getD 1 0 % 16) = [i] → inReceives s i = true →
    formatMismatch s i pl = true →
    Does (.clpPacket n x chars) s (fun t =>
      (inp t i).fmtLoss = true ∧ t.bit (Pg.inp i + hEvt) 3 = true ∧ (link t (linkKey n x)).packet = [])) ∧
  -- rasterPacket
  (∀ (i : Fin 128) (w : BitVec 32) (payload : List (BitVec 8)) (bundleB : Bool) (s : State),
    inReceives s i = true → inKind s i = 1 → fld w 15 14 ≤ 2 → inSt s i ≠ 3 →
    lineTiming s i (lineOfField s i (fld w 13 0) (w.getLsbD 24)) false = .inTime →
    Does (.rasterPacket i w payload bundleB) s (fun t =>
      ((inp t i).landed.contains (lineOfField s i (fld w 13 0) (w.getLsbD 24) * 3 + fld w 15 14)) = true ∧
      (∀ n, channelsOf s i = [n] → rawPart t n (rawPar s n) (lineOfField s i (fld w 13 0) (w.getLsbD 24)) (fld w 15 14) = (rasterSamples (payload.map
        BitVec.toNat) (w.getLsbD 25)).map (fun v => BitVec.ofNat 16 (toDepth (w.getLsbD 25) (s.cfgOf n).deep v))) ∧
      SameBut [.ing] s t)) ∧
  -- rasterPacketEarly
  (∀ (i : Fin 128) (w : BitVec 32) (payload : List (BitVec 8)) (bundleB : Bool) (s : State),
    inReceives s i = true → inKind s i = 1 → fld w 15 14 ≤ 2 →
    lineTiming s i (lineOfField s i (fld w 13 0) (w.getLsbD 24)) false = .early →
    Does (.rasterPacket i w payload bundleB) s (fun t =>
      (s.reg (Reg.inpEarly i) ≠ BitVec.allOnes 32 → t.reg (Reg.inpEarly i) = s.reg (Reg.inpEarly i) + 1) ∧
      SameRegsBut [Reg.inpEarly i] s t ∧ SameBut [.regs] s t)) ∧
  -- rasterPacketLate
  (∀ (i : Fin 128) (w : BitVec 32) (payload : List (BitVec 8)) (bundleB : Bool) (s : State),
    inKind s i = 1 → lineTiming s i (lineOfField s i (fld w 13 0) (w.getLsbD 24)) false = .late →
    lineTiming s i (lineOfField s i (fld w 13 0) (w.getLsbD 24)) true ≠ .inTime →
    Does (.rasterPacket i w payload bundleB) s (fun t =>
      t = s)) ∧
  -- rasterPacketWhileLost
  (∀ (i : Fin 128) (w : BitVec 32) (payload : List (BitVec 8)) (bundleB : Bool) (s : State),
    inReceives s i = true → inKind s i = 1 → fld w 15 14 ≤ 2 → inSt s i = 3 →
    lineTiming s i (lineOfField s i (fld w 13 0) (w.getLsbD 24)) false = .inTime →
    Does (.rasterPacket i w payload bundleB) s (fun t =>
      (∀ n, channelsOf s i = [n] → n < 128 → rawPar s n ≤ 1 →
        rawPart t n (rawPar s n) (lineOfField s i (fld w 13 0) (w.getLsbD 24)) (fld w 15 14) =
        rawPart s n (1 - rawPar s n) (lineOfField s i (fld w 13 0) (w.getLsbD 24)) (fld w 15 14)) ∧
      SameBut [.ing] s t)) ∧
  -- ancillaryPacket
  (∀ (i : Fin 128) (line : BitVec 14) (words : List (BitVec 10)) (s : State),
    inReceives s i = true →
    Does (.ancillaryPacket i line words) s (fun t =>
      (inp t i).ringPtr = ((inp s i).ringPtr + (ancRecord s line.toNat (words.map BitVec.toNat)).length) % 65536 ∧
      (inp t i).landed = (inp s i).landed ∧ SameBut [.ing] s t)) ∧
  -- formatPacket
  (∀ (i : Fin 128) (payload : List (BitVec 8)) (s : State),
    inReceives s i = true → formatMismatch s i (payload.map BitVec.toNat) = true →
    Does (.formatPacket i payload) s (fun t =>
      (inp t i).fmtLoss = true ∧ (inp t i).clean = false ∧ t.bit (Pg.inp i + hEvt) 3 = true ∧
      SameRegsBut [Pg.inp i + hEvt] s t)) ∧
  -- formatPacketAgrees
  (∀ (i : Fin 128) (payload : List (BitVec 8)) (s : State),
    formatMismatch s i (payload.map BitVec.toNat) = false →
    Does (.formatPacket i payload) s (fun t =>
      t = s))

/-- ST 2110-20 packets and paths, and missing lines, loss, freeze and return of an input, follow R208 to R214. The meter of a path colours
a packet by its length against its two buckets. A green packet on an enabled path of a receiving network input, with room in the port
FIFO and a sequence number not seen before, marks its sequence number seen and its path up; when its segment completes its line, it
marks the line landed when its RTP timestamp belongs to the frame in progress, landed ahead when it belongs to the next frame, and it
lands nothing when it belongs to neither. A red one sets event 4 and lands nothing. A path that has delivered no packet is declared
down with event 7 and fault 0x4005, and no register but the page's event changes. A line part that has not landed is counted,
sets event 2 and spoils the frame, once. An input that is not OFF and whose run of missing lines reaches LOSS.LINES is LOST with its
freeze on the output, event 0 and fault 0x4004. When the freeze expires at a frame start, the output follows LOSS.MODE. A lost
input that has had one clean frame and may return is OK again and sets event 1. (R204, R208, R210, R211, R212, R214, 08_ingest.md) -/
def Obligations.NetworkVideoAndInputLoss : Prop :=
  -- st2110Packet
  (∀ (i : Fin 128) (pathB : Bool) (seq rtp : BitVec 32) (g : SrdSeg) (len fifo line : Nat) (s : State),
    inReceives s i = true → inKind s i = 3 → inPath s i pathB = true → (meter (pathUp s i pathB) i pathB len).1 = .green → fifo < 4 * 2 ^ 20 →
    line = lineOfField s i g.line g.second → (inp s i).seen.find? (fun e => decide (e.1 = seq)) = none → frameFor s i rtp = some false →
    lineTiming s i line false = .inTime → 2 * s.getF (Reg.inpGeom i) 13 0 ≤ Store.get (fun _ => 0) (inp s i).cover line + g.samples.length →
    Does (.st2110Packet i pathB seq rtp [g] len fifo) s (fun t =>
      ((inp t i).landed.contains (line * 3)) = true ∧ (inp t i).early = (inp s i).early ∧
      ((inp t i).seen.any (fun e => decide (e.1 = seq))) = true ∧ inDown (inp t i) pathB = false)) ∧
  -- st2110PacketOfTheNextFrame
  (∀ (i : Fin 128) (pathB : Bool) (seq rtp : BitVec 32) (g : SrdSeg) (len fifo line : Nat) (s : State),
    inReceives s i = true → inKind s i = 3 → inPath s i pathB = true → (meter (pathUp s i pathB) i pathB len).1 = .green → fifo < 4 * 2 ^ 20 →
    line = lineOfField s i g.line g.second → (inp s i).seen.find? (fun e => decide (e.1 = seq)) = none → frameFor s i rtp = some true →
    lineTiming s i line true = .inTime → 2 * s.getF (Reg.inpGeom i) 13 0 ≤ Store.get (fun _ => 0) (inp s i).coverNext line + g.samples.length →
    Does (.st2110Packet i pathB seq rtp [g] len fifo) s (fun t =>
      ((inp t i).early.contains (line * 3)) = true ∧ (inp t i).landed = (inp s i).landed ∧
      ((inp t i).seen.any (fun e => decide (e.1 = seq))) = true ∧ inDown (inp t i) pathB = false)) ∧
  -- st2110PacketOfNoFrame
  (∀ (i : Fin 128) (pathB : Bool) (seq rtp : BitVec 32) (segs : List SrdSeg) (len fifo : Nat) (s : State),
    inReceives s i = true → inKind s i = 3 → inPath s i pathB = true → (meter (pathUp s i pathB) i pathB len).1 = .green → fifo < 4 * 2 ^ 20 →
    (inp s i).seen.find? (fun e => decide (e.1 = seq)) = none → frameFor s i rtp = none →
    Does (.st2110Packet i pathB seq rtp segs len fifo) s (fun t =>
      (inp t i).landed = (inp s i).landed ∧ (inp t i).early = (inp s i).early ∧ t.ing.raw = s.ing.raw ∧
      ((inp t i).seen.any (fun e => decide (e.1 = seq))) = true ∧ inDown (inp t i) pathB = false)) ∧
  -- st2110PacketRed
  (∀ (i : Fin 128) (pathB : Bool) (seq rtp : BitVec 32) (segs : List SrdSeg) (len fifo : Nat) (s : State),
    inReceives s i = true → inKind s i = 3 → inPath s i pathB = true → (meter (pathUp s i pathB) i pathB len).1 = .red →
    Does (.st2110Packet i pathB seq rtp segs len fifo) s (fun t =>
      (inp t i).landed = (inp s i).landed ∧ (inp t i).seen = (inp s i).seen ∧ t.bit (Pg.inp i + hEvt) 4 = true ∧
      t.ing.raw = s.ing.raw)) ∧
  -- st2110PacketMeter
  (∀ (i : Fin 128) (len : Nat) (s : State),
    (let m := (inp s i).meters.1
     let c := min ((s.reg (Reg.inpCbs i)).toNat * 8000) (m.c + (s.reg (Reg.inpCir i)).toNat * (s.stp.timeNs - m.at_))
     let p := min ((s.reg (Reg.inpPbs i)).toNat * 8000) (m.p + (s.reg (Reg.inpPir i)).toNat * (s.stp.timeNs - m.at_))
     (meter s i false len).1 = if p < len * 8000 then .red else if c < len * 8000 then .yellow else .green)) ∧
  -- ingestPathDown
  (∀ (i : Fin 128) (pathB : Bool) (s : State),
    inSt s i ≠ 0 → inKind s i = 3 → inPath s i pathB = true → inDown (inp s i) pathB = false →
    (if pathB then (inp s i).arrived.2 else (inp s i).arrived.1) = false →
    Does (.ingestPathDown i pathB) s (fun t =>
      inDown (inp t i) pathB = true ∧ t.bit (Pg.inp i + hEvt) 7 = true ∧ SameRegsBut [Pg.inp i + hEvt] s t ∧
      t.faults = s.faults ++ [⟨0x4005, 0x1420 + i.val, i.val, if pathB then 1 else 0, s.stp.timeNs⟩])) ∧
  -- lineMissing
  (∀ (i : Fin 128) (line : Nat) (half : Fin 3) (s : State),
    s.running = true → inSt s i ≠ 0 → (activeLines s i line).isSome = true → isPart s i half = true →
    (inp s i).landed.contains (line * 3 + half.val) = false → (inp s i).missed.contains (line * 3 + half.val) = false →
    Does (.lineMissing i line half) s (fun t =>
      t.bit (Pg.inp i + hEvt) 2 = true ∧ (inp t i).clean = false ∧ (inp t i).missLine = some line ∧
      (s.reg (Reg.inpRepeats i) ≠ BitVec.allOnes 32 → t.reg (Reg.inpRepeats i) = s.reg (Reg.inpRepeats i) + 1))) ∧
  -- inputLost
  (∀ (i : Fin 128) (s : State),
    (inSt s i = 1 ∨ inSt s i = 2) → s.getF (Reg.inpLoss i) 29 16 ≤ (inp s i).missRun → (inp s i).missLine.all (fun l => !(lastActive s i l)) = true →
    Does (.inputLost i .noSignal) s (fun t =>
      inSt t i = 3 ∧ inOut t i = 1 ∧ inCause t i = (if inBundleDown s i then 1 else 3) ∧ t.bit (Pg.inp i + hEvt) 0 = true ∧
      t.faults = s.faults ++ [⟨0x4004, 0x1420 + i.val, i.val, (t.reg (Reg.inpState i)).toNat, s.stp.timeNs⟩] ∧
      SameRegsBut [Reg.inpState i, Pg.inp i + hEvt] s t)) ∧
  -- freezeExpired
  (∀ (i : Fin 128) (s : State),
    s.running = true → inSt s i = 3 →
    Does (.freezeExpired i) s (fun t =>
      t.inFrame = 0 ∧ inSt t i = 3 ∧ inCause t i = inCause s i ∧
      inOut t i = (if s.getF (Reg.inpLoss i) 1 0 = 1 then 2 else if s.getF (Reg.inpLoss i) 1 0 = 2 then 3 else 1))) ∧
  -- inputReturned
  (∀ (i : Fin 128) (s : State),
    s.running = true → s.inFrame = 0 → inSt s i = 3 → (inUse s i = false ∨ ((inp s i).startAt = some s.frame ∧ (inp s i).wasClean = true)) →
    mayReturn s i = true →
    Does (.inputReturned i) s (fun t =>
      inSt t i = 2 ∧ inOut t i = 0 ∧ t.bit (Pg.inp i + hEvt) 1 = true ∧ (inp t i).missRun = 0 ∧ (inp t i).fmtLoss = false))

/-- Enabling an input, clearing its counters and the ING table window. ENABLE on an input whose check passes sets ENABLE and ACTIVE
and waits for its first clean frame; a failed check leaves ENABLE at 0 and reports the code and word of the first offending
register. STAT_CLR zeroes the eleven counters of the page and writes nothing else. A receive-flow entry read through the window
fills TBL_DATA, a write replaces exactly that entry, and an index out of range is refused and changes nothing but the window's
status. (R215, R216, R449, R450, R454, 08_ingest.md, 21_register_pages.md) -/
def Obligations.InputPagesAndFlows : Prop :=
  -- inputEnable
  (∀ (i : Fin 128) (s : State),
    s.answers (Pg.inp i) = true → s.enabled (Pg.inp i) = false → inputCheck s i = none →
    Does (.inputEnable i) s (fun t =>
      t.enabled (Pg.inp i) = true ∧ t.bit (Pg.inp i + hStatus) 0 = true ∧ inSt t i = 1 ∧ inOut t i = 0 ∧
      t.reg (Pg.inp i + hRefuse) = 0 ∧ SameBut [.regs, .ing] s t)) ∧
  -- inputEnableRefused
  (∀ (i : Fin 128) (r : Refusing) (s : State),
    s.answers (Pg.inp i) = true → s.enabled (Pg.inp i) = false → inputCheck s i = some r →
    Does (.inputEnable i) s (fun t =>
      t.enabled (Pg.inp i) = false ∧ t.bit (Pg.inp i + hStatus) 0 = false ∧ t.bit (Pg.inp i + hStatus) 1 = true ∧
      t.reg (Pg.inp i + hRefuse) = BitVec.ofNat 32 (r.code + r.word * 0x10000 + r.page * 0x10000000) ∧ t.ing = s.ing)) ∧
  -- inStatClr
  (∀ (i : Fin 128) (s : State),
    s.answers (Pg.inp i) = true →
    Does (.inStatClr i) s (fun t =>
      t.reg (Reg.inpRepeats i) = 0 ∧ t.reg (Reg.inpCrcErr i) = 0 ∧ t.reg (Reg.inpAborts i) = 0 ∧ t.reg (Reg.inpEarly i) = 0 ∧
      t.reg (Reg.inpSeqLost i) = 0 ∧
      (∀ p < 2, t.reg (Reg.inpRed i p) = 0 ∧ t.reg (Reg.inpYelDrop i p) = 0 ∧ t.reg (Reg.inpFullDrop i p) = 0) ∧
      SameBut [.regs] s t)) ∧
  -- ingTableRead
  (∀ (s : State),
    s.answers Pg.ing = true → s.bit Reg.ingTblAddr 28 = false → s.getF Reg.ingTblAddr 25 24 = 0 →
    s.getF Reg.ingTblAddr 17 0 < 512 →
    Does (.ingTableRead) s (fun t =>
      (∀ k < 8, t.reg (Reg.ingTblData k) = (rxFlow s (s.getF Reg.ingTblAddr 17 0)).getD k 0) ∧ t.reg Reg.ingTblStat = 1 ∧
      SameBut [.regs] s t)) ∧
  -- ingTableWrite
  (∀ (s : State),
    s.answers Pg.ing = true → s.bit Reg.ingTblAddr 28 = true → s.getF Reg.ingTblAddr 25 24 = 0 →
    s.getF Reg.ingTblAddr 17 0 < 512 →
    Does (.ingTableWrite) s (fun t =>
      rxFlow t (s.getF Reg.ingTblAddr 17 0) = [s.reg (Reg.ingTblData 0) &&& 3, s.reg (Reg.ingTblData 1), s.reg (Reg.ingTblData 2), s.reg
        (Reg.ingTblData 3), s.reg (Reg.ingTblData 4), s.reg (Reg.ingTblData 5) &&& 0xFFFF, 0, 0] ∧
      (∀ k, k ≠ s.getF Reg.ingTblAddr 17 0 → rxFlow t k = rxFlow s k) ∧ t.reg Reg.ingTblStat = 1 ∧
      SameRegsBut [Reg.ingTblStat] s t)) ∧
  -- ingTableWriteRefused
  (∀ (s : State),
    s.answers Pg.ing = true → s.bit Reg.ingTblAddr 28 = true →
    (s.getF Reg.ingTblAddr 25 24 ≠ 0 ∨ 512 ≤ s.getF Reg.ingTblAddr 17 0) →
    Does (.ingTableWrite) s (fun t =>
      t.reg Reg.ingTblStat = 0x01150003 ∧ SameRegsBut [Reg.ingTblStat] s t ∧ SameBut [.regs] s t))

/-- Released payload units join the store and the counters, and a port sends the copy its hierarchy chooses. The next payload
unit of a rendition of a placed channel is released at its point and not before; it counts in PKTS, is kept while it is the
newest, and adds its unit's slices to the record period; with no placement, or with Steeple stopped, nothing is released. A
port that is up sends the copy that the hierarchy picks after skips and credits: the copy leaves the queue, the frame and its
counted bytes are counted, and it appears on the wire; with nothing to pick, or a port that is down, nothing is sent. (R122,
R228, R230, R235, R239, R242, 05_fixed_delay_rate_control.md, 09_egress_traffic_manager.md) -/
def Obligations.PayloadUnitsReleaseAndTransmit : Prop :=
  -- payloadUnitRelease
  (∀ (n : Fin 128) (r : Fin 4) (x : PayOut) (l : List PayOut) (s : State),
    (s.chan n).place.isSome = true → s.running = true → Store.get (fun _ => []) (s.chan n).outq r.val = x :: l → x.firstOfUnit = true →
    Does (.payloadUnitRelease n r) s (fun t =>
      t.reg (Reg.erendPkts n r) = s.reg (Reg.erendPkts n r) + 1 ∧
      (t.etm.units.any (fun u => decide (u.rend = 4 * n.val + r.val ∧ u.k = (s.reg (Reg.erendPkts n r)).toNat ∧ u.payload = x.payload ∧
        u.release = t.stp.pos))) = true ∧
      later x.e t.stp.pos = false ∧ Store.get (fun _ => []) (t.chan n).outq r.val = l ∧
      (t.chan n).air.count = (s.chan n).air.count + x.slices.length ∧ SameBut [.regs, .stp, .chans, .etm] s t)) ∧
  -- payloadUnitReleaseOff
  (∀ (n : Fin 128) (r : Fin 4) (s : State),
    ((s.chan n).place = none ∨ s.running = false) →
    Does (.payloadUnitRelease n r) s (fun t =>
      t = s)) ∧
  -- portTransmitForwarded
  (∀ (p : Fin 10) (cp : Copy) (s : State),
    portUp s p = true → (s.running = true ∨ 8 ≤ p.val) → portPick s p = some cp → cp.fwd = true →
    Does (.portTransmit p) s (fun t =>
      t.sent = .forward p (forwardBytes (portWaits s p) p cp) :: (portWaits s p).sent ∧
      t.reg (Reg.eportFrames p) = (portWaits s p).reg (Reg.eportFrames p) + 1 ∧
      t.reg64 (Reg.eportBytesLo p) (Reg.eportBytesHi p) =
        (portWaits s p).reg64 (Reg.eportBytesLo p) (Reg.eportBytesHi p) + BitVec.ofNat 64 (counted (portWaits s p) cp) ∧
      t.etm.queue = (portWaits s p).etm.queue.erase cp)) ∧
  -- portTransmitFlow
  (∀ (p : Fin 10) (cp : Copy) (s : State),
    portUp s p = true → (s.running = true ∨ 8 ≤ p.val) → portPick s p = some cp → cp.fwd = false →
    Does (.portTransmit p) s (fun t =>
      t.sent = .frame p cp.flow cp.k cp.pathB (copyBytes (portWaits s p) p cp) :: (portWaits s p).sent ∧
      t.reg (Reg.eportFrames p) = (portWaits s p).reg (Reg.eportFrames p) + 1 ∧
      t.etm.queue = (portWaits s p).etm.queue.erase cp ∧
      (262144 < copyAge (portWaits s p) cp → nodeOpen (portWaits s p) cp.node = false →
        t.bit (Pg.etm + hEvt) 6 = true ∧
        t.faults = (portWaits s p).faults ++ [⟨0x6001, Pg.etm / 0x1000, p.val, cp.flow, (portWaits s p).stp.timeNs⟩]))) ∧
  -- portTransmitNothing
  (∀ (p : Fin 10) (s : State),
    (portUp s p = false ∨ s.etm.queue = []) →
    Does (.portTransmit p) s (fun t =>
      t.sent = s.sent ∧ t.faults = s.faults ∧ t.reg (Reg.eportFrames p) = s.reg (Reg.eportFrames p))) ∧
  -- portTransmitStopped
  (∀ (p : Fin 10) (s : State),
    s.running = false → p.val < 8 →
    Does (.portTransmit p) s (fun t =>
      t = s))

/-- Reads, writes and clears through the ETM window. A read fills TBL_DATA with the entry and sets DONE. READ_CLR of a node also
clears its two marks. A next-hop write replaces that entry alone. A write of a flow that stays disabled stores its words, state
words apart; a write that changes PATHS, REND or a node of an enabled flow is refused with 0x0801, sets event 4 and changes no
flow. An index beyond the table is refused. (R226, R239, R240, R454, 09_egress_traffic_manager.md) -/
def Obligations.EgressTableWindow : Prop :=
  -- etmTableRead
  (∀ (s : State),
    s.answers Pg.etm = true → etmOp s = 0 → etmIndex s < etmTableSize (etmTable s) →
    Does (.etmTableRead) s (fun t =>
      (∀ k < 16, t.reg (Reg.etmTblData k) = (etmEntry s (etmTable s) (etmIndex s)).getD k 0) ∧ t.reg Reg.etmTblStat = 1 ∧
      SameBut [.regs] s t)) ∧
  -- etmTableReadClr
  (∀ (s : State),
    s.answers Pg.etm = true → etmOp s = 2 → etmTable s = 1 → etmIndex s < 4096 → (nodeEntry s (etmIndex s)).length = 8 →
    Does (.etmTableReadClr) s (fun t =>
      (∀ k < 8, k ≠ 3 → t.reg (Reg.etmTblData k) = (nodeEntry s (etmIndex s)).getD k 0) ∧
      nodeEntry t (etmIndex s) = (nodeEntry s (etmIndex s)).take 6 ++ [0, 0] ∧ t.reg Reg.etmTblStat = 1 ∧
      SameBut [.regs, .etm] s t)) ∧
  -- etmTableWriteHop
  (∀ (s : State),
    s.answers Pg.etm = true → etmOp s = 1 → etmTable s = 3 → etmIndex s < 4096 →
    Does (.etmTableWrite) s (fun t =>
      hopEntry t (etmIndex s) = (List.range 8).map (fun k => s.reg (Reg.etmTblData k)) ∧
      (∀ i, i ≠ etmIndex s → hopEntry t i = hopEntry s i) ∧ t.reg Reg.etmTblStat = 1 ∧ SameRegsBut [Reg.etmTblStat] s t)) ∧
  -- etmTableWriteFlow
  (∀ (s : State),
    s.answers Pg.etm = true → etmOp s = 1 → etmTable s = 0 → flowEn (flowCtx s (etmIndex s)) = false →
    s.bit (Reg.etmTblData 8) 27 = false →
    Does (.etmTableWrite) s (fun t =>
      (∀ k < 13, (flowCtx t (etmIndex s)).getD k 0 = s.reg (Reg.etmTblData k)) ∧
      (∀ i, i ≠ etmIndex s → flowCtx t i = flowCtx s i) ∧ t.reg Reg.etmTblStat = 1)) ∧
  -- etmTableWriteBound
  (∀ (s : State),
    s.answers Pg.etm = true → etmOp s = 1 → etmTable s = 0 → flowEn (flowCtx s (etmIndex s)) = true →
    boundFields (flowCtx s (etmIndex s)) ≠ boundFields ((List.range 16).map (fun k => s.reg (Reg.etmTblData k))) →
    Does (.etmTableWrite) s (fun t =>
      t.reg Reg.etmTblStat = 0x08010003 ∧ t.bit (Pg.etm + hEvt) 4 = true ∧ t.etm = s.etm)) ∧
  -- etmTableRange
  (∀ (s : State),
    s.answers Pg.etm = true → etmOp s = 1 → etmTableSize (etmTable s) ≤ etmIndex s →
    Does (.etmTableWrite) s (fun t =>
      t.reg Reg.etmTblStat = 0x01150003 ∧ t.bit (Pg.etm + hEvt) 4 = true ∧ SameBut [.regs] s t))

/-- A port calendar is committed, tested and copied at a frame start, and depths are sampled. COMMIT on a line port's page makes its
shadow calendar pending; the cascade ports have none. At a frame start a pending calendar that passes the tests of R234 becomes
the calendar in use; one that fails leaves it as it is, sets REFUSED with 0x0505 and event 2. A sample writes the depth of each
selected queue, saturated to 16 bits, and sets event 5; with PERIOD 0 nothing happens. (R233, R234, R239, R440,
09_egress_traffic_manager.md) -/
def Obligations.CalendarsAndSamples : Prop :=
  -- eportCommit
  (∀ (p : Fin 10) (s : State),
    s.answers (Pg.eport p) = true → p < 8 →
    Does (.eportCommit p) s (fun t =>
      t.etm.calPend.contains p.val = true ∧ (∀ q : Nat, q ≠ p.val → t.etm.calPend.contains q = s.etm.calPend.contains q) ∧
      SameBut [.etm] s t)) ∧
  -- eportCommitCascade
  (∀ (p : Fin 10) (s : State),
    8 ≤ p.val →
    Does (.eportCommit p) s (fun t =>
      t = s)) ∧
  -- calendarCopy
  (∀ (p : Fin 10) (s : State),
    s.inFrame = 0 → s.running = true → s.etm.calPend.contains p.val = true → calendarOk s p = true →
    Does (.calendarCopy p) s (fun t =>
      (∀ k < 16, calWord t p k = s.reg (Reg.eportCal p k)) ∧ calCycle t p = s.getF (Reg.eportCalCycle p) 8 0 ∧
      t.bit (Reg.eportPstat p) 2 = false ∧ t.getF (Reg.eportPstat p) 31 16 = 0 ∧ t.etm.calPend.contains p.val = false ∧
      SameRegsBut [Reg.eportPstat p] s t)) ∧
  -- calendarRefused
  (∀ (p : Fin 10) (s : State),
    s.inFrame = 0 → s.running = true → s.etm.calPend.contains p.val = true → calendarOk s p = false →
    Does (.calendarCopy p) s (fun t =>
      t.etm.cal = s.etm.cal ∧ t.etm.cycle = s.etm.cycle ∧ t.bit (Reg.eportPstat p) 2 = true ∧
      t.getF (Reg.eportPstat p) 31 16 = 0x0505 ∧ t.bit (Pg.etm + hEvt) 2 = true ∧ t.etm.calPend.contains p.val = false)) ∧
  -- sample
  (∀ (s : State),
    s.running = true → s.getF Reg.etmSampleCfg 15 0 ≠ 0 →
    Does (.sample) s (fun t =>
      (∀ k < 64, t.getF (Reg.etmSmpVal k) 15 0 =
        satTo 16 (sampleOf (s.toPos (samplePos s)) (s.getF (Reg.etmSmpSel k) 1 0) (s.getF (Reg.etmSmpSel k) 21 2)).1) ∧
      later (samplePos s) t.stp.pos = false ∧ t.bit (Pg.etm + hEvt) 5 = true ∧ SameBut [.regs, .stp] s t)) ∧
  -- sampleOff
  (∀ (s : State),
    s.getF Reg.etmSampleCfg 15 0 = 0 →
    Does (.sample) s (fun t =>
      t = s))

/-- Ethernet pages, links, received frames and the cascade follow R243 to R247. ENABLE with MODE and MTU in range activates the
page; a line port whose MODE is reserved is refused with 0x0115 and the word of MODE. STAT_CLR zeroes the page's five counters
alone. A frame too large or with a bad FCS only counts in RX_DROP; flow control, and a frame that nothing takes, only count in RX_PAUSE and
RX_OTHER; what goes to an input, an audio flow or the network thread changes nothing here. A PTP message joins the queue of the
cascade port where CAS_FWD is set, an event message with its ingress timestamp, and the residence time added to one in flight changes
its correctionField by just that. A cascade frame within the MTU joins the queue of the line port that CAS_MAP names. A link that comes up or goes down sets
or clears its two LINK bits, and going down raises 0x6004. (R243, R244, R245, R246, R247, R253, R449, 10_network_time.md) -/
def Obligations.EthernetPortsAndFrames : Prop :=
  -- ethEnable
  (∀ (x : Fin 4) (s : State),
    s.answers (Pg.eth x) = true → s.enabled (Pg.eth x) = false → ethCheck s x = none →
    Does (.ethEnable x) s (fun t =>
      t.enabled (Pg.eth x) = true ∧ t.bit (Pg.eth x + hStatus) 0 = true ∧ t.reg (Pg.eth x + hRefuse) = 0 ∧
      SameBut [.regs] s t)) ∧
  -- ethEnableRefused
  (∀ (x : Fin 4) (s : State),
    s.answers (Pg.eth x) = true → s.enabled (Pg.eth x) = false → x < 2 → s.getF (Reg.ethMode x) 1 0 = 3 →
    Does (.ethEnable x) s (fun t =>
      t.enabled (Pg.eth x) = false ∧ t.bit (Pg.eth x + hStatus) 0 = false ∧ t.bit (Pg.eth x + hStatus) 1 = true ∧
      t.reg (Pg.eth x + hRefuse) = BitVec.ofNat 32 (0x0115 + wordOf (Reg.ethMode x) * 0x10000))) ∧
  -- ethStatClr
  (∀ (x : Fin 4) (s : State),
    s.answers (Pg.eth x) = true →
    Does (.ethStatClr x) s (fun t =>
      t.reg (Reg.ethFecCorr x) = 0 ∧ t.reg (Reg.ethFecUncorr x) = 0 ∧ t.reg (Reg.ethRxDrop x) = 0 ∧
      t.reg (Reg.ethRxPause x) = 0 ∧ t.reg (Reg.ethRxOther x) = 0 ∧ SameBut [.regs] s t ∧
      SameRegsBut [Reg.ethFecCorr x, Reg.ethFecUncorr x, Reg.ethRxDrop x, Reg.ethRxPause x, Reg.ethRxOther x] s t)) ∧
  -- linePortFrameDropped
  (∀ (x : Fin 2) (bytes : List (BitVec 8)) (s : State),
    s.enabled (Pg.eth x) = true → s.getF (Reg.ethLink x) 3 0 ≠ 0 → s.reg (Reg.ethRxDrop x) ≠ BitVec.allOnes 32 →
    (portMtu s (4 * x) < bytes.length ∨ fcsOk (bytes.map BitVec.toNat) = false) →
    Does (.linePortFrame x bytes) s (fun t =>
      t.reg (Reg.ethRxDrop x) = s.reg (Reg.ethRxDrop x) + 1 ∧ SameRegsBut [Reg.ethRxDrop x] s t ∧ SameBut [.regs] s t)) ∧
  -- linePortFrameForwarded
  (∀ (x : Fin 2) (bytes : List (BitVec 8)) (e : Bool) (s : State),
    s.enabled (Pg.eth x) = true → s.getF (Reg.ethLink x) 3 0 ≠ 0 → s.bit Reg.ptpCfg 8 = true → s.enabled (Pg.eth (2 + x)) = true →
    sortFrame s x (bytes.map BitVec.toNat) = .ptp e → bytes.length ≤ portMtu s (8 + x) →
    Does (.linePortFrame x bytes) s (fun t =>
      t.etm.queue = s.etm.queue ++ [⟨0, decide (x.val = 1), 8 + x.val, 0, 0, bytes.length, s.stp.pos, true,
        if isEvent (bytes.map BitVec.toNat) then some (rxStamp s x) else none, false, bytes⟩] ∧ SameBut [.etm] s t)) ∧
  -- linePortFrameSorted
  (∀ (x : Fin 2) (bytes : List (BitVec 8)) (s : State),
    s.enabled (Pg.eth x) = true → s.getF (Reg.ethLink x) 3 0 ≠ 0 →
    Does (.linePortFrame x bytes) s (fun t =>
      match sortFrame s x (bytes.map BitVec.toNat) with
      | .receiveFlow _ | .audioFlow _ | .network => t = s
      | .pausePfc => SameRegsBut [Reg.ethRxPause x] s t ∧ (s.reg (Reg.ethRxPause x) ≠ BitVec.allOnes 32 →
          t.reg (Reg.ethRxPause x) = s.reg (Reg.ethRxPause x) + 1)
      | .other => SameRegsBut [Reg.ethRxOther x] s t ∧ (s.reg (Reg.ethRxOther x) ≠ BitVec.allOnes 32 →
          t.reg (Reg.ethRxOther x) = s.reg (Reg.ethRxOther x) + 1)
      | .ptpDiscarded => SameRegsBut [Reg.ptpDiscards] s t
      | .oversizeOrBadFcs | .ptp _ => True)) ∧
  -- residence
  (∀ (b : List Nat) (d : Int) (o : Nat),
    o = (rxHead b).l4 → o + 24 ≤ b.length - 4 →
    (addResidence b d).length = b.length ∧ (addResidence b d).take (o + 6) = b.take (o + 6) ∧
    ((natOf (bytesAt (addResidence b d) (o + 16) 8) : Int) - ((natOf (bytesAt b (o + 16) 8) : Int) + d)) % 2 ^ 64 = 0) ∧
  -- cascadeFrame
  (∀ (x : Fin 2) (bytes : List (BitVec 8)) (s : State),
    s.enabled (Pg.eth (2 + x)) = true → s.bit (Reg.ethLink (2 + x)) 0 = true →
    refusedFrame s (2 + x) (bytes.map BitVec.toNat) = none →
    bytes.length ≤ portMtu s (4 * x.val + s.getF (Reg.ethCasMap (2 + x)) 1 0) →
    Does (.cascadeFrame x bytes) s (fun t =>
      t.etm.queue = s.etm.queue ++ [⟨0, decide (x.val = 1), 4 * x.val + s.getF (Reg.ethCasMap (2 + x)) 1 0, 0, 0, bytes.length, s.stp.pos, true,
        if isEvent (bytes.map BitVec.toNat) then some (rxStamp s (2 + x)) else none, false, bytes⟩] ∧
      t.etm.flows = s.etm.flows ∧ SameBut [.etm] s t)) ∧
  -- linePortDown
  (∀ (x : Fin 4) (sub : Fin 4) (s : State),
    s.bit (Reg.ethLink x) sub = true → s.enabled Pg.ptp = false →
    Does (.linePortDown x sub) s (fun t =>
      t.bit (Reg.ethLink x) sub = false ∧ t.bit (Reg.ethLink x) (4 + sub) = false ∧ SameRegsBut [Reg.ethLink x] s t ∧
      t.faults = s.faults ++ [⟨0x6004, Pg.eth x / 0x1000, x.val, sub.val, s.stp.timeNs⟩] ∧ SameBut [.regs, .faults] s t)) ∧
  -- linePortDownPtp
  (∀ (x : Fin 4) (sub : Fin 4) (s : State),
    s.bit (Reg.ethLink x) sub = true → s.enabled Pg.ptp = true → x.val = slavePort s → srcSel s ≠ 2 →
    Does (.linePortDown x sub) s (fun t =>
      t.bit (Reg.ethLink x) sub = false ∧ t.getF Reg.ptpPortState 3 0 = 4 ∧ t.ptp.lost = true ∧ t.stp = s.stp)) ∧
  -- portLinkUp
  (∀ (x : Fin 4) (sub : Fin 4) (s : State),
    s.enabled (Pg.eth x) = true → sub < subPorts s x → s.bit Reg.devClkStat (portClock x) = true →
    Does (.portLinkUp x sub) s (fun t =>
      t.bit (Reg.ethLink x) sub = true ∧ t.bit (Reg.ethLink x) (4 + sub) = true ∧ t.faults = s.faults))

/-- A port in the master role sends Sync and Announce and answers Delay_Req. A port whose page is enabled, with MASTER_EN set and
the master role held, sends a Sync whose originTimestamp and correctionField hold its egress timestamp, sends an Announce, each at
its interval with the next sequenceId, and answers a Delay_Req
of its domain; a port without the role, or one while SLAVE_ONLY is in force, sends nothing. ENABLE on the PTP page leaves the slave port listening. An Announce
timeout, ANNOUNCE_TIMEOUT intervals after the grandmaster's last Announce, sets event 1 and marks the source lost. (R248, R249, R251, R256, 10_network_time.md) -/
def Obligations.PtpMasterSide : Prop :=
  -- syncSend
  (∀ (x : Fin 4) (s : State),
    masterOn s x = true → s.running = false →
    Does (.syncSend x) s (fun t =>
      t.sent = .ptp x 0 (seqOf s (2 * x)) (ptpFrame s x ⟨0, s.getF Reg.ptpDomain 7 0, seqOf s (2 * x), txStamp s x % 65536,
        (Config.ptpFlags 0).toNat, Config.clockId.toNat, x + 1, 0, logOf s 7 4⟩ (ptpStamp (txStamp s x / 65536).toNat)) :: s.sent ∧
      seqOf t (2 * x) = seqOf s (2 * x) + 1 ∧ SameBut [.ptp, .sent] s t)) ∧
  -- syncSendRunning
  (∀ (x : Fin 4) (s : State),
    masterOn s x = true → s.running = true →
    Does (.syncSend x) s (fun t =>
      (∃ b, t.sent = .ptp x 0 (seqOf s (2 * x)) b :: s.sent) ∧ seqOf t (2 * x) = seqOf s (2 * x) + 1 ∧
      Store.get (fun _ => none) t.ptp.due (2 * x) = some (t.posAdd t.stp.pos (t.nsToUnits (intervalNs (logOf s 7 4)))) ∧
      SameBut [.regs, .stp, .etm, .ptp, .sent] s t)) ∧
  -- announceSend
  (∀ (x : Fin 4) (s : State),
    masterOn s x = true →
    Does (.announceSend x) s (fun t =>
      (∃ b, t.sent = .ptp x 11 (seqOf s (2 * x + 1)) b :: s.sent) ∧ seqOf t (2 * x + 1) = seqOf s (2 * x + 1) + 1 ∧
      SameBut [.regs, .stp, .etm, .ptp, .sent] s t)) ∧
  -- syncSendNoRole
  (∀ (x : Fin 4) (s : State),
    (s.ptp.master.getLsbD x = false ∨ s.bit Reg.ptpCfg (4 + x) = false ∨ slaveOnly s = true) →
    Does (.syncSend x) s (fun t =>
      t = s)) ∧
  -- delayReq
  (∀ (x : Fin 4) (domain : BitVec 8) (seq : BitVec 16) (source : BitVec 80) (corr : Int) (s : State),
    masterOn s x = true → domain.toNat = s.getF Reg.ptpDomain 7 0 →
    Does (.delayReq x domain seq source corr) s (fun t =>
      (∃ b, t.sent = .ptp x 9 seq b :: s.sent) ∧ t.ptp = s.ptp ∧ SameBut [.regs, .stp, .etm, .sent] s t)) ∧
  -- ptpEnable
  (∀ (s : State),
    s.answers Pg.ptp = true → s.enabled Pg.ptp = false →
    Does (.ptpEnable) s (fun t =>
      t.enabled Pg.ptp = true ∧ t.bit (Pg.ptp + hStatus) 0 = true ∧ t.getF Reg.ptpPortState 3 0 = 4 ∧ t.ptp.annAt = s.stp.pos ∧
      t.ptp.syncAt = s.stp.pos ∧ SameBut [.regs, .ptp] s t)) ∧
  -- announceTimeout
  (∀ (s : State),
    s.enabled Pg.ptp = true → masterOn s (slavePort s) = false →
    Does (.announceTimeout) s (fun t =>
      t.bit (Pg.ptp + hEvt) 1 = true ∧ t.ptp.lost = true ∧
      (s.running = true → later (s.posAdd s.ptp.annAt (s.nsToUnits (s.getF Reg.ptpIntervals 15 12 * intervalNs (logOf s 3 0)))) t.stp.pos = false) ∧
      t.getF Reg.ptpPortState 3 0 = (if masterOn t (slavePort t) then 6 else 4)))

/-- The slave port measures offset and delay and follows its grandmaster. A Sync of the domain on the slave port gives t1 and t2;
the offset they give with the mean path delay is written, saturated to 32 bits, and a loss ends; any other Sync is ignored. A Delay_Req
in a slave state is entered in the table with its t3, the table keeping the last eight. A matched Delay_Resp gives the sample of t1 to
t4; one within 1 us of the median of the last 16 samples enters the mean in MPD; one further off is counted and sets event 4; an unmatched one is counted
in DISCARDS. An Announce of the domain that names another grandmaster writes GM_ID, sets the changed bit and event 0; a read of
PORT_STATE answers the register and clears that bit. A Sync timeout sets event 2. (R248, R249, R252, R255, R256, R453,
10_network_time.md) -/
def Obligations.PtpSlaveSide : Prop :=
  -- sync
  (∀ (x : Fin 4) (domain : BitVec 8) (origin : Nat) (corr ppb : Int) (s : State),
    hears s x domain = true → slaveOn s x = true → srcSel s ≠ 2 →
    Does (.sync x domain origin corr ppb) s (fun t =>
      t.ptp.lastSync = some ((origin : Int) * 65536 + corr, rxStamp s x) ∧ t.ptp.lost = false ∧ t.ptp.syncAt = s.stp.pos ∧
      t.reg Reg.ptpOffset = BitVec.ofInt 32 (max (-0x80000000) (min (((origin : Int) * 65536 + corr + meanDelay s - rxStamp s x) / 65536) 0x7FFFFFFF)) ∧
      ((∀ y < 4, masterOn s y = false) → t.ptp.diff = (origin : Int) * 65536 + corr + meanDelay s - rxStamp s x) ∧
      SameRegsBut [Reg.ptpOffset] s t ∧ SameBut [.regs, .ptp] s t)) ∧
  -- syncIgnored
  (∀ (x : Fin 4) (domain : BitVec 8) (origin : Nat) (corr ppb : Int) (s : State),
    (domain.toNat ≠ s.getF Reg.ptpDomain 7 0 ∨ x.val ≠ slavePort s) →
    Does (.sync x domain origin corr ppb) s (fun t =>
      t = s)) ∧
  -- delayReqSend
  (∀ (s : State),
    s.enabled Pg.ptp = true → s.getF Reg.ptpPortState 3 0 = 9 → s.running = false →
    Does (.delayReqSend) s (fun t =>
      (∃ b, t.sent = .ptp (slavePort s) 1 s.ptp.seqReq b :: s.sent) ∧ t.ptp.seqReq = s.ptp.seqReq + 1 ∧
      (s.ptp.reqs.length < 8 → t.ptp.reqs = s.ptp.reqs ++ [(s.ptp.seqReq, txStamp s (slavePort s))]) ∧
      t.ptp.reqs.length ≤ max 8 s.ptp.reqs.length ∧ t.regs = s.regs)) ∧
  -- delayReqSendRunning
  (∀ (s : State),
    s.enabled Pg.ptp = true → (s.getF Reg.ptpPortState 3 0 = 8 ∨ s.getF Reg.ptpPortState 3 0 = 9) → s.running = true →
    Does (.delayReqSend) s (fun t =>
      (∃ b, t.sent = .ptp (slavePort s) 1 s.ptp.seqReq b :: s.sent) ∧ (s.ptp.seqReq, txStamp t (slavePort s)) ∈ t.ptp.reqs ∧
      SameBut [.regs, .stp, .etm, .ptp, .sent] s t)) ∧
  -- delayResp
  (∀ (x : Fin 4) (domain : BitVec 8) (seq : BitVec 16) (received : Nat) (corr t1 t2 v : Int) (e : BitVec 16 × Int) (s : State),
    hears s x domain = true → x.val = slavePort s → s.ptp.reqs.find? (fun e => decide (e.1 = seq)) = some e →
    s.ptp.lastSync = some (t1, t2) → v = ((t2 - t1) + ((received : Int) * 65536 - corr - e.2)) / 2 →
    (s.ptp.recent = [] ∨ (v - medianInt s.ptp.recent).natAbs ≤ 65536000) →
    Does (.delayResp x domain seq received corr) s (fun t =>
      t.ptp.kept = (v :: s.ptp.kept).take 16 ∧ t.reg Reg.ptpMpd = BitVec.ofNat 32 (meanDelay t / 65536).toNat ∧
      t.ptp.reqs = s.ptp.reqs.erase e ∧ SameRegsBut [Reg.ptpMpd] s t)) ∧
  -- delayRespOutlier
  (∀ (x : Fin 4) (domain : BitVec 8) (seq : BitVec 16) (received : Nat) (corr t1 t2 v : Int) (e : BitVec 16 × Int) (s : State),
    hears s x domain = true → x.val = slavePort s → s.ptp.reqs.find? (fun e => decide (e.1 = seq)) = some e →
    s.ptp.lastSync = some (t1, t2) → v = ((t2 - t1) + ((received : Int) * 65536 - corr - e.2)) / 2 →
    s.ptp.recent ≠ [] → 65536000 < (v - medianInt s.ptp.recent).natAbs →
    Does (.delayResp x domain seq received corr) s (fun t =>
      t.ptp.kept = s.ptp.kept ∧ t.reg Reg.ptpMpd = s.reg Reg.ptpMpd ∧ t.bit (Pg.ptp + hEvt) 4 = true ∧
      (s.reg Reg.ptpDelayDiscard ≠ BitVec.allOnes 32 → t.reg Reg.ptpDelayDiscard = s.reg Reg.ptpDelayDiscard + 1))) ∧
  -- delayRespUnmatched
  (∀ (x : Fin 4) (domain : BitVec 8) (seq : BitVec 16) (received : Nat) (corr : Int) (s : State),
    hears s x domain = true → x.val = slavePort s → (∀ e ∈ s.ptp.reqs, e.1 ≠ seq) →
    Does (.delayResp x domain seq received corr) s (fun t =>
      t.ptp = s.ptp ∧ SameRegsBut [Reg.ptpDiscards] s t ∧
      (s.reg Reg.ptpDiscards ≠ BitVec.allOnes 32 → t.reg Reg.ptpDiscards = s.reg Reg.ptpDiscards + 1))) ∧
  -- announce
  (∀ (x : Fin 4) (domain : BitVec 8) (gm best : BitVec 64) (utc : BitVec 16) (st : Fin 16) (master : BitVec 4) (s : State),
    hears s x domain = true → best ≠ s.ptp.gm →
    Does (.announce x domain gm utc best st master) s (fun t =>
      t.ptp.gm = best ∧ t.reg64 Reg.ptpGmIdLo Reg.ptpGmIdHi = best ∧ t.bit Reg.ptpPortState 4 = true ∧
      t.bit (Pg.ptp + hEvt) 0 = true ∧ t.getF Reg.ptpPortState 3 0 = st.val ∧ (slaveOnly s = true → t.ptp.master = 0) ∧
      (gm = best → t.reg Reg.ptpUtcOffset = utc.signExtend 32 ∧ t.ptp.annAt = s.stp.pos))) ∧
  -- portStateRead
  (∀ (m : Master) (s : State),
    reaches s m Pg.ptp = true →
    Does (.portStateRead m) s (fun t =>
      t.bus = ⟨[(s.reg Reg.ptpPortState).toNat], .ok⟩ ∧ t.reg Reg.ptpPortState = putBit (s.reg Reg.ptpPortState) 4 false ∧
      SameRegsBut [Reg.ptpPortState] s t ∧ SameBut [.regs, .bus] s t)) ∧
  -- syncTimeout
  (∀ (s : State),
    s.enabled Pg.ptp = true → masterOn s (slavePort s) = false →
    Does (.syncTimeout) s (fun t =>
      t.bit (Pg.ptp + hEvt) 2 = true ∧ t.ptp.lost = true ∧ t.ptp.changing = false ∧
      (s.running = true → later (s.posAdd s.ptp.syncAt (s.nsToUnits (16 * intervalNs (logOf s 7 4)))) t.stp.pos = false)))

/-- AES3, CLP, PDM and network samples reach their FIFOs, and the master can be lost. ENABLE starts the grid at the present sample
with the PLL in steering where MASTER is set. A second sub-frame of a used AES3 input in block sync, a CLP audio word, and a
decimated sample each append one sample to a FIFO with room, with its validity and stamp; a glitch ends block sync, is counted
and sets event 4; a CLP packet at another rate marks its input RATE_BAD and stores nothing. A network packet seen before changes
nothing; a new one of a flow of one channel keeps its sample at the grid instant that its timestamp names. Loss of the master
holds the loop, sets event 0 and raises 0x6002. (R201, R262, R263, R265, R266, R268, R270, 11_audio.md) -/
def Obligations.AudioSourcesFillTheirFifos : Prop :=
  -- audEnable
  (∀ (s : State),
    s.answers Pg.aud = true → s.enabled Pg.aud = false →
    Does (.audEnable) s (fun t =>
      t.enabled Pg.aud = true ∧ t.bit (Pg.aud + hStatus) 0 = true ∧ t.aud.grid = s.ptpTime s.stp.pos s.audFs ∧
      t.aud.lost = false ∧ t.getF Reg.audPllStat 1 0 = (if s.bit Reg.audCfg 1 then 1 else 0) ∧ SameBut [.regs, .aud] s t)) ∧
  -- audioPacket
  (∀ (i : Fin 128) (word w : BitVec 32) (s : State),
    s.enabled Pg.aud = true → inReceives s i = true → (fld word 11 8 = 0 ∧ fld word 7 0 = 1) →
    fld word 13 12 = s.getF Reg.audCfg 0 0 → (ain s (16 + i)).rateBad = false → w.getLsbD 28 = false →
    (boundSrcs s).contains (srcId 3 i 0) = true →
    ((asrc s (srcId 3 i 0)).under = false ∧ (asrc s (srcId 3 i 0)).fifo.length < 64) →
    Does (.audioPacket i word [w]) s (fun t =>
      (asrc t (srcId 3 i 0)).fifo = (asrc s (srcId 3 i 0)).fifo ++ [⟨w.setWidth 24, !(w.getLsbD 24), w.getLsbD 25, 0⟩] ∧
      SameBut [.aud] s t)) ∧
  -- audioPacketRateBad
  (∀ (i : Fin 128) (word w : BitVec 32) (s : State),
    s.enabled Pg.aud = true → inReceives s i = true → (fld word 11 8 = 0 ∧ fld word 7 0 = 1) →
    fld word 13 12 ≠ s.getF Reg.audCfg 0 0 → (ain s (16 + i)).rateBad = false →
    Does (.audioPacket i word [w]) s (fun t =>
      (ain t (16 + i)).rateBad = true ∧ t.bit (Pg.aud + hEvt) 2 = true ∧ t.aud.srcs = s.aud.srcs ∧
      SameRegsBut [Pg.aud + hEvt] s t)) ∧
  -- aes3Subframe
  (∀ (i : Fin 16) (w : BitVec 28) (ppm : Int) (s : State),
    s.enabled Pg.aud = true → ((ain s i).lock = true ∧ (ain s i).rateBad = false) →
    ((asrc s (aesB i)).under = false ∧ (asrc s (aesB i)).fifo.length < 64) →
    Does (.aes3Subframe i .y w false ppm) s (fun t =>
      (asrc t (aesB i)).fifo = (asrc s (aesB i)).fifo ++
        [⟨if aesParity w then w.setWidth 24 else (asrc s (aesB i)).lastV, aesParity w && !(w.getLsbD 24), w.getLsbD 25, 0⟩] ∧
      (aesParity w = true → t.reg (Reg.audInParity i) = s.reg (Reg.audInParity i)) ∧
      (aesParity w = false → s.reg (Reg.audInParity i) ≠ BitVec.allOnes 32 → t.reg (Reg.audInParity i) = s.reg (Reg.audInParity i) + 1) ∧ (ain t i) = ain s i ∧
      SameBut [.regs, .aud] s t)) ∧
  -- aes3Glitch
  (∀ (i : Fin 16) (pre : AesPreamble) (w : BitVec 28) (violation : Bool) (ppm : Int) (s : State),
    s.enabled Pg.aud = true → (violation = true ∨ pre = .missing) →
    Does (.aes3Subframe i pre w violation ppm) s (fun t =>
      (ain t i).lock = false ∧ t.bit (Reg.audInStat i) 0 = false ∧ t.bit (Pg.aud + hEvt) 4 = true ∧ t.aud.srcs = s.aud.srcs ∧
      (s.reg (Reg.audInGlitches i) ≠ BitVec.allOnes 32 → t.reg (Reg.audInGlitches i) = s.reg (Reg.audInGlitches i) + 1) ∧
      SameRegsBut [Reg.audInStat i, Reg.audInGlitches i, Pg.aud + hEvt] s t)) ∧
  -- audioMasterLost
  (∀ (s : State),
    s.enabled Pg.aud = true → s.bit Reg.audCfg 1 = true → s.aud.lost = false →
    Does (.audioMasterLost) s (fun t =>
      t.aud.lost = true ∧ t.getF Reg.audPllStat 1 0 = 2 ∧ t.bit (Pg.aud + hEvt) 0 = true ∧
      t.bit (Reg.audInStat (masterInput s)) 0 = false ∧
      t.faults = s.faults ++ [⟨0x6002, Pg.aud / 0x1000, masterInput s, 0, s.stp.timeNs⟩])) ∧
  -- pdmSample
  (∀ (m : Fin 8) (v : BitVec 64) (s : State),
    s.enabled Pg.aud = true → s.bit Reg.audPdmCfg m = true → (boundSrcs s).contains (srcId 2 m 0) = true →
    (asrc s (srcId 2 m 0)).fifo.length < 64 →
    Does (.pdmSample m v) s (fun t =>
      (asrc t (srcId 2 m 0)).fifo = (asrc s (srcId 2 m 0)).fifo ++
        [⟨Config.pdmOut (pdmGain s m) (asrc t (srcId 2 m 0)).filt, true, false, (s.aud.grid : Int) - 40⟩] ∧
      (asrc t (srcId 2 m 0)).filt = pdmFilter s m v ∧
      SameBut [.aud] s t)) ∧
  -- networkAudioPacket
  (∀ (f : Fin 256) (pathB : Bool) (seq : BitVec 16) (rtp : BitVec 32) (payload : List (BitVec 8)) (width : Nat) (s : State),
    s.enabled Pg.aud = true → ((audFlow s f).getD 0 0).getLsbD (if pathB then 1 else 0) = true →
    audioWidth s.audFs 1 payload.length = some width → 0 < payload.length → fld ((audFlow s f).getD 0 0) 9 3 = 1 →
    (Store.get (fun _ => ([] : List (BitVec 16))) s.aud.seqs f.val).contains seq = false →
    (boundSrcs s).contains (srcId 4 f 0) = true → (∀ j < payload.length / width, lateFor s (srcId 4 f 0) (rtpInstant s rtp ((audFlow s f).getD 6 0) + j) = false) →
    Does (.networkAudioPacket f pathB seq rtp payload) s (fun t =>
      (asrc t (srcId 4 f 0)).delay.head? = some ⟨(audioSamples width payload).getLastD 0, true, false,
        rtpInstant s rtp ((audFlow s f).getD 6 0) + ((payload.length / width : Nat) - 1)⟩ ∧
      (Store.get (fun _ => ([] : List (BitVec 16))) t.aud.seqs f.val).contains seq = true ∧ SameBut [.aud] s t)) ∧
  -- networkAudioPacketSeen
  (∀ (f : Fin 256) (pathB : Bool) (seq : BitVec 16) (rtp : BitVec 32) (payload : List (BitVec 8)) (s : State),
    (Store.get (fun _ => ([] : List (BitVec 16))) s.aud.seqs f.val).contains seq = true →
    Does (.networkAudioPacket f pathB seq rtp payload) s (fun t =>
      t = s))

/-- Grid instants, AES3 outputs and the ST 302M and AES67 streams follow the sample grid. In MASTER mode a grid instant is the next
number at the present position; in STEEPLE mode it is the next instant of the PTP grid, and the position moves there. A write of
OUT_o shows at once and waits for the next Z. A PES carries the samples of the instants of its channel frame; an AES67 packet
carries its count of consecutive instants with the first stamp, and a copy joins the queue of each path. (R260, R267, R273,
R274, R275, 11_audio.md) -/
def Obligations.AudioGridAndStreams : Prop :=
  -- gridInstantMaster
  (∀ (s : State),
    s.enabled Pg.aud = true → s.bit Reg.audCfg 1 = true →
    Does (.gridInstant) s (fun t =>
      t.aud.grid = s.aud.grid + 1 ∧ t.stp = s.stp ∧ t.faults = s.faults)) ∧
  -- gridInstantSteeple
  (∀ (s : State),
    s.enabled Pg.aud = true → s.bit Reg.audCfg 1 = false → s.running = true →
    Does (.gridInstant) s (fun t =>
      t.aud.grid = nextInstant s ∧ t.stp.pos = (s.toPos (instantAt s (nextInstant s))).stp.pos ∧ t.faults = s.faults)) ∧
  -- outputConfigApply
  (∀ (o : Fin 16) (w : BitVec 32) (s : State),
    s.answers Pg.aud = true →
    Does (.outputConfigApply o w) s (fun t =>
      t.reg (Reg.audOutCfg o) = w &&& 0x00030F7F ∧ (aout t o).next = some (w &&& 0x00030F7F) ∧
      (aout t o).cfg = (aout s o).cfg ∧ SameRegsBut [Reg.audOutCfg o] s t ∧ SameBut [.regs, .aud] s t)) ∧
  -- s302mPesRelease
  (∀ (n : Fin 128) (k : Fin 4) (f : BitVec 32) (first last : Nat × BitVec 64) (s : State),
    s.enabled Pg.aud = true → s.bit (Reg.chaudS302 n k) 0 = true → audioOn s n = true →
    (s.chan n).starts.reverse.find? (fun g => decide (Store.get (fun _ => 0) s.aud.pes (4 * n.val + k.val) = 0 ∨ 0 < (g - BitVec.ofNat 32 (Store.get
      (fun _ => 0) s.aud.pes (4 * n.val + k.val) - 1)).toInt)) = some f →
    (s.aud.grids.any (fun e => !(later (State.posOf (f + BitVec.ofNat 32 (s.cfgOf n).div) 0) e.2))) = true →
    (instantsIn s (State.posOf f 0) (State.posOf (f + BitVec.ofNat 32 (s.cfgOf n).div) 0)).head? = some first →
    (instantsIn s (State.posOf f 0) (State.posOf (f + BitVec.ofNat 32 (s.cfgOf n).div) 0)).getLast? = some last →
    Does (.s302mPesRelease n k) s (fun t =>
      t.sent.head? = some (.pes n k ((2 * unitsBetween s (State.posOf f 0) first.2 * s.framePeriod.1 * 90000 + s.frameUnits * s.framePeriod.2) / (2 *
        (s.frameUnits * s.framePeriod.2))) (trackBlock s n (s.getF (Reg.chaudS302 n k) 7 4) (2 * (s.getF (Reg.chaudS302 n k) 2 1 + 1)) (instantsIn s
        (State.posOf f 0) (State.posOf (f + BitVec.ofNat 32 (s.cfgOf n).div) 0)))) ∧
      Store.get (fun _ => 0) t.aud.pes (4 * n.val + k.val) = f.toNat + 1 ∧
      t.stp.pos = (s.toPos (s.posAdd last.2 (delayUnits (s.cfgOf n)))).stp.pos)) ∧
  -- aes67PacketRelease
  (∀ (n : Fin 128) (k : Fin 4) (l : List (Nat × BitVec 64)) (first last : Nat × BitVec 64) (s : State),
    s.enabled Pg.aud = true → s.bit Reg.audCfg 1 = false → s.bit (Reg.chaudAesCtrl n k) 0 = true →
    l = ((s.aud.grids.filter (fun e => decide (Store.get (fun _ => 0) s.aud.pkts (4 * n.val + k.val) ≤ e.1 + 1) && audioAt s n e.2)).reverse).take
      (s.audFs / (if s.bit (Reg.chaudAesCtrl n k) 1 then 8000 else 1000)) →
    l.head? = some first → l.getLast? = some last →
    s.audFs / (if s.bit (Reg.chaudAesCtrl n k) 1 then 8000 else 1000) ≤ l.length → s.etm.withdrawn = (false, false) →
    Does (.aes67PacketRelease n k) s (fun t =>
      t.sent.head? = some (.rtpAudio n k (BitVec.ofNat 32 first.1) (trackBlock s n (s.getF (Reg.chaudAesCtrl n k) 11 8) (s.getF (Reg.chaudAesCtrl n
        k) 7 2) l)) ∧
      t.etm.queue.length = s.etm.queue.length + 2 ∧ Store.get (fun _ => 0) t.aud.pkts (4 * n.val + k.val) = last.1 + 2))

/-- The AUD window reads and writes slots, network flows and channel status. A read of a slot shows its word, a read of a flow its
eight words; a write of a slot keeps the fields of Table 11-1, leaves every other slot and writes no register but TBL_STAT and
SLOTS; an unknown table, or a status index out of range, is refused. (R261, R264, R266, R454, 11_audio.md, 21_register_pages.md) -/
def Obligations.AudioTableWindow : Prop :=
  -- audTableReadSlot
  (∀ (s : State),
    s.answers Pg.aud = true → s.bit Reg.audTblAddr 16 = false → audTable s = 0 →
    Does (.audTableRead) s (fun t =>
      t.reg (Reg.audTblData 0) = slotWord s (audIndex s) ∧ (∀ k, 1 ≤ k ∧ k < 8 → t.reg (Reg.audTblData k) = 0) ∧
      t.reg Reg.audTblStat = 1 ∧ SameBut [.regs] s t)) ∧
  -- audTableReadFlow
  (∀ (s : State),
    s.answers Pg.aud = true → s.bit Reg.audTblAddr 16 = false → audTable s = 1 → audIndex s < 256 →
    Does (.audTableRead) s (fun t =>
      (∀ k < 8, t.reg (Reg.audTblData k) = (audFlow s (audIndex s)).getD k 0) ∧ t.reg Reg.audTblStat = 1 ∧
      SameBut [.regs] s t)) ∧
  -- audTableReadRefused
  (∀ (s : State),
    s.answers Pg.aud = true → s.bit Reg.audTblAddr 16 = false → (audTable s = 3 ∨ (audTable s = 2 ∧ 32 ≤ audIndex s)) →
    Does (.audTableRead) s (fun t =>
      t.reg Reg.audTblStat = 0x01150003 ∧ SameRegsBut [Reg.audTblStat] s t)) ∧
  -- audTableWriteSlot
  (∀ (s : State),
    s.answers Pg.aud = true → s.bit Reg.audTblAddr 16 = true → audTable s = 0 →
    Does (.audTableWrite) s (fun t =>
      slotWord t (audIndex s) = s.reg (Reg.audTblData 0) &&& 0x003FFF07 ∧ (∀ k, k ≠ audIndex s → slotWord t k = slotWord s k) ∧
      t.reg Reg.audTblStat = 1 ∧ SameRegsBut [Reg.audTblStat, Reg.audSlots] s t))

/-- The monitor head checks, commits, sends its lines and reads its frames back. ENABLE with a raster that fits activates the page;
otherwise the page reports 0x0112 and the word. COMMIT on the enabled page shows as pending. A pending commit that passes makes
the registers the active set and sets event 5; one that fails leaves the set, reports the word and sets event 6. A line of the
frame in progress is sent with its samples while the role is held; line HEIGHT sends nothing and sets event 0. A readback on a
good link writes both CRCs: equal sets MATCH alone, different counts, sets event 4 and raises 0x6003. (R278, R279, R283, R284,
R286, R448, 12_monitor_head.md) -/
def Obligations.MonitorHeadFrames : Prop :=
  -- monEnable
  (∀ (s : State),
    s.answers Pg.mon = true → s.enabled Pg.mon = false → monCheck s = none →
    Does (.monEnable) s (fun t =>
      t.enabled Pg.mon = true ∧ t.bit (Pg.mon + hStatus) 0 = true ∧ t.reg (Pg.mon + hRefuse) = 0 ∧ t.mon.inFrame = false ∧
      SameBut [.regs, .mon] s t)) ∧
  -- monEnableRefused
  (∀ (r : Refusing) (s : State),
    s.answers Pg.mon = true → s.enabled Pg.mon = false → monCheck s = some r →
    Does (.monEnable) s (fun t =>
      t.enabled Pg.mon = false ∧ t.bit (Pg.mon + hStatus) 0 = false ∧ t.bit (Pg.mon + hStatus) 1 = true ∧ r.code = 0x0112 ∧
      t.reg (Pg.mon + hRefuse) = BitVec.ofNat 32 (0x0112 + r.word * 0x10000 + r.page * 0x10000000) ∧ t.mon = s.mon)) ∧
  -- monCommit
  (∀ (s : State),
    s.answers Pg.mon = true → s.enabled Pg.mon = true →
    Does (.monCommit) s (fun t =>
      t.bit (Pg.mon + hCtrl) 1 = true ∧ t.bit Reg.monCommitStat 0 = true ∧
      SameRegsBut [Pg.mon + hCtrl, Reg.monCommitStat] s t ∧ SameBut [.regs] s t)) ∧
  -- monCommitCopy
  (∀ (s : State),
    s.running = true → s.enabled Pg.mon = true → s.mon.inFrame = true → s.bit Reg.monCommitStat 0 = true →
    monCommitFail s (monShadow s) = none →
    Does (.monCommitCopy) s (fun t =>
      t.mon.active = monShadow s ∧ t.bit (Pg.mon + hEvt) 0 = true ∧ t.bit (Pg.mon + hEvt) 5 = true ∧
      t.bit (Pg.mon + hCtrl) 1 = false ∧ t.reg Reg.monCommitStat = BitVec.ofNat 32 (s.frame.toNat % 65536 * 0x10000))) ∧
  -- monCommitCopyRefused
  (∀ (w : Nat) (s : State),
    s.running = true → s.enabled Pg.mon = true → s.mon.inFrame = true → s.bit Reg.monCommitStat 0 = true →
    monCommitFail s (monShadow s) = some w →
    Does (.monCommitCopy) s (fun t =>
      t.mon = s.mon ∧ t.bit (Pg.mon + hEvt) 6 = true ∧ t.bit (Pg.mon + hCtrl) 1 = false ∧
      t.reg Reg.monCommitStat = (s.reg Reg.monCommitStat &&& 0xFFFF0000) ||| BitVec.ofNat 32 (2 + w * 0x10))) ∧
  -- monitorLine
  (∀ (ln : Nat) (s : State),
    s.enabled Pg.mon = true → s.running = true → s.mon.inFrame = true → s.hasRole = true → 1 ≤ ln → ln + 1 < (monCfg s).h →
    Does (.monitorLine ln []) s (fun t =>
      t.sent = .monLine ln (monSamples (s.toPos (linePos s (monCfg s) s.mon.startFr ln)) s.free [] ln)
        (packetRows (txData s 18) (spareOf s 18) (clpBytes 1 0 (lineWord s ln)
          (pack10 (monSamples (s.toPos (linePos s (monCfg s) s.mon.startFr ln)) s.free [] ln)))) :: s.sent ∧
      t.stp.pos = (s.toPos (linePos s (monCfg s) s.mon.startFr ln)).stp.pos ∧ t.faults = s.faults)) ∧
  -- monitorLineBlanking
  (∀ (ln : Nat) (late : List (Fin 68)) (s : State),
    s.enabled Pg.mon = true → s.running = true → s.mon.inFrame = true → 1 ≤ (monCfg s).h → ln = (monCfg s).h →
    Does (.monitorLine ln late) s (fun t =>
      t.sent = s.sent ∧ t.bit (Pg.mon + hEvt) 0 = true ∧ t.mon = s.mon)) ∧
  -- frameDone
  (∀ (rx : BitVec 32) (readback : List (BitVec 8)) (s : State),
    s.enabled Pg.mon = true → s.mon.inFrame = true → s.mon.linkBad = false → readCrc readback = rx →
    BitVec.ofNat 32 (crcOut 32 0xFFFFFFFF true s.mon.crc) = rx →
    Does (.frameDone readback) s (fun t =>
      t.reg Reg.monRbStat = 1 ∧ t.reg Reg.monRbCrcTx = rx ∧ t.reg Reg.monRbCrcRx = rx ∧ t.bit (Pg.mon + hEvt) 2 = true ∧
      t.faults = s.faults ∧ SameRegsBut [Reg.monRbStat, Reg.monRbCrcTx, Reg.monRbCrcRx, Pg.mon + hEvt] s t)) ∧
  -- frameDoneDiffers
  (∀ (rx : BitVec 32) (readback : List (BitVec 8)) (s : State),
    s.enabled Pg.mon = true → s.mon.inFrame = true → s.mon.linkBad = false → readCrc readback = rx →
    BitVec.ofNat 32 (crcOut 32 0xFFFFFFFF true s.mon.crc) ≠ rx →
    Does (.frameDone readback) s (fun t =>
      t.reg Reg.monRbStat = 0 ∧ t.reg Reg.monRbCrcRx = rx ∧ t.bit (Pg.mon + hEvt) 4 = true ∧
      (s.reg Reg.monRbErr ≠ BitVec.allOnes 32 → t.reg Reg.monRbErr = s.reg Reg.monRbErr + 1) ∧
      t.faults = s.faults ++ [⟨0x6003, Pg.mon / 0x1000, crcOut 32 0xFFFFFFFF true s.mon.crc, rx.toNat, s.stp.timeNs⟩]))

/-- Doorbells from an owner wait in the FIFO; the host's for other threads are dropped and counted. A doorbell of any of the five
operations from a core pair, or from the host to a thread from 2,304 up, joins the FIFO with its operand and its master while
there is room, and changes no thread. A READY of the host for a thread below 2,304 is dropped: OWNER_DROP counts it and event 3
is set. A reserved operation only sets event 1. The oldest hold not yet logged is counted once, with event 2 and fault 0x5004,
and stays held. (R292, R297, R298, R300, R409, 13_control_cores_and_reeve.md) -/
def Obligations.DoorbellsEnterTheFifo : Prop :=
  -- doorbellReady
  (∀ (m : Master) (k : Fin 4096) (s : State),
    reaches s m Pg.reeve = true → owns m k = true → s.rv.fifo.length < 256 →
    Does (.doorbellReady m k) s (fun t =>
      t.rv.fifo = s.rv.fifo ++ [⟨k, 0, 0, masterNumber m⟩] ∧ t.rv.threads = s.rv.threads ∧ t.bus = ⟨[], .ok⟩ ∧
      SameBut [.rv, .regs, .bus] s t)) ∧
  -- doorbellCancel
  (∀ (m : Master) (k : Fin 4096) (s : State),
    reaches s m Pg.reeve = true → owns m k = true → s.rv.fifo.length < 256 →
    Does (.doorbellCancel m k) s (fun t =>
      t.rv.fifo = s.rv.fifo ++ [⟨k, 1, 0, masterNumber m⟩] ∧ t.rv.threads = s.rv.threads ∧ t.bus = ⟨[], .ok⟩ ∧
      SameBut [.rv, .regs, .bus] s t)) ∧
  -- doorbellPrio
  (∀ (m : Master) (k : Fin 4096) (v : Fin 64) (s : State),
    reaches s m Pg.reeve = true → owns m k = true → s.rv.fifo.length < 256 →
    Does (.doorbellPrio m k v) s (fun t =>
      t.rv.fifo = s.rv.fifo ++ [⟨k, 2, v, masterNumber m⟩] ∧ t.rv.threads = s.rv.threads ∧ t.bus = ⟨[], .ok⟩ ∧
      SameBut [.rv, .regs, .bus] s t)) ∧
  -- doorbellAffinity
  (∀ (m : Master) (k : Fin 4096) (v : BitVec 8) (s : State),
    reaches s m Pg.reeve = true → owns m k = true → s.rv.fifo.length < 256 →
    Does (.doorbellAffinity m k v) s (fun t =>
      t.rv.fifo = s.rv.fifo ++ [⟨k, 3, v.toNat, masterNumber m⟩] ∧ t.rv.threads = s.rv.threads ∧ t.bus = ⟨[], .ok⟩ ∧
      SameBut [.rv, .regs, .bus] s t)) ∧
  -- doorbellDeadline
  (∀ (m : Master) (k : Fin 4096) (v : BitVec 16) (s : State),
    reaches s m Pg.reeve = true → owns m k = true → s.rv.fifo.length < 256 →
    Does (.doorbellDeadline m k v) s (fun t =>
      t.rv.fifo = s.rv.fifo ++ [⟨k, 4, v.toNat, masterNumber m⟩] ∧ t.rv.threads = s.rv.threads ∧ t.bus = ⟨[], .ok⟩ ∧
      SameBut [.rv, .regs, .bus] s t)) ∧
  -- doorbellDropped
  (∀ (k : Fin 4096) (s : State),
    s.answers Pg.reeve = true → k < 2304 →
    Does (.doorbellReady .host k) s (fun t =>
      t.rv = s.rv ∧ t.bit (Pg.reeve + hEvt) 3 = true ∧ SameRegsBut [Reg.reeveOwnerDrop, Pg.reeve + hEvt] s t ∧
      (s.reg Reg.reeveOwnerDrop ≠ BitVec.allOnes 32 → t.reg Reg.reeveOwnerDrop = s.reg Reg.reeveOwnerDrop + 1))) ∧
  -- doorbellReserved
  (∀ (m : Master) (op : Fin 16) (s : State),
    reaches s m Pg.reeve = true → 5 ≤ op →
    Does (.doorbellReserved m op) s (fun t =>
      t = s.evt Pg.reeve 1)) ∧
  -- reeveStall
  (∀ (b : Bell) (s : State),
    firstStalled s.rv.held = some b →
    Does (.reeveStall) s (fun t =>
      t.bit (Pg.reeve + hEvt) 2 = true ∧ t.rv.held.length = s.rv.held.length ∧ t.rv.fifo = s.rv.fifo ∧
      t.faults = s.faults ++ [⟨0x5004, Pg.reeve / 0x1000, b.master, s.rv.fifo.length, s.stp.timeNs⟩] ∧
      (s.reg Reg.reeveDbStalls ≠ BitVec.allOnes 32 → t.reg Reg.reeveDbStalls = s.reg Reg.reeveDbStalls + 1))) ∧
  -- reeveStallNone
  (∀ (s : State),
    firstStalled s.rv.held = none →
    Does (.reeveStall) s (fun t =>
      t = s))

/-- The list engine makes threads READY, and dispatch points move them between pairs and lists. A READY taken from the FIFO by the
list engine makes an idle thread READY with a due position DL lines on; a priority change reaches a thread that is not running.
A read of NEXT by a pair that runs nothing takes the best thread, which runs on it, or answers 0. DONE with WAIT leaves the
thread idle, with YIELD ready, and the pair without a thread. A due thread that has not run is late once: its misses, event 0
and fault 0x5003. Parity in the Reeve sets event 5 and raises 0x5005. WFI stops a pair that has no request. (R294, R296, R303,
R304, R305, 13_control_cores_and_reeve.md) -/
def Obligations.ListEngineAndDispatchPoints : Prop :=
  -- listEngineReady
  (∀ (b : Bell) (s : State),
    s.rv.vector = [] → s.rv.held = [] → s.rv.fifo.head? = some b → b.op = 0 → (s.thread b.thread).state = 1 →
    Does (.listEngineOperation) s (fun t =>
      (t.thread b.thread).state = 2 ∧ (t.thread b.thread).duePos = s.posAdd s.stp.pos ((s.thread b.thread).dl * 262144) ∧
      t.rv.fifo = s.rv.fifo.drop 1 ∧ (∀ k, k ≠ b.thread → t.thread k = s.thread k))) ∧
  -- listEnginePrio
  (∀ (b : Bell) (s : State),
    s.rv.vector = [] → s.rv.held = [] → s.rv.fifo.head? = some b → b.op = 2 → (s.thread b.thread).state ≠ 3 →
    Does (.listEngineOperation) s (fun t =>
      t.thread b.thread = { s.thread b.thread with prio := b.arg } ∧ t.rv.fifo = s.rv.fifo.drop 1 ∧
      (∀ k, k ≠ b.thread → t.thread k = s.thread k))) ∧
  -- nextRead
  (∀ (m : Master) (p : Fin 8) (b : Nat) (y : Thread) (s : State),
    reaches s m (Pg.cc p) = true → (s.pair p).running = none → (s.pair p).cancelled = false → s.best p = some (b, y) →
    Does (.nextRead m p) s (fun t =>
      t.bus = ⟨[0x1000 + b], .ok⟩ ∧ (t.thread b).state = 3 ∧ (t.thread b).pair = p ∧ (t.pair p).running = some b ∧
      (t.pair p).dispatch = false)) ∧
  -- nextReadNone
  (∀ (m : Master) (p : Fin 8) (s : State),
    reaches s m (Pg.cc p) = true → (s.pair p).running = none → (s.pair p).cancelled = false → s.rv.threads = [] →
    Does (.nextRead m p) s (fun t =>
      t.bus = ⟨[0], .ok⟩ ∧ (t.pair p).running = none)) ∧
  -- doneWait
  (∀ (p : Fin 8) (r : Nat) (s : State),
    (s.pair p).running = some r → ((s.thread r).cancel = false ∧ (s.thread r).freeing = false ∧ (s.thread r).rerun = false) →
    Does (.doneWait p) s (fun t =>
      (t.thread r).state = 1 ∧ (t.pair p).running = none ∧ (∀ k, k ≠ r → t.thread k = s.thread k))) ∧
  -- doneYield
  (∀ (p : Fin 8) (r : Nat) (s : State),
    (s.pair p).running = some r → ((s.thread r).cancel = false ∧ (s.thread r).freeing = false) →
    Does (.doneYield p) s (fun t =>
      (t.thread r).state = 2 ∧ (t.thread r).rank = s.rv.rankNext ∧ (t.pair p).running = none ∧
      (∀ k, k ≠ r → t.thread k = s.thread k))) ∧
  -- threadLate
  (∀ (k : Fin 4096) (s : State),
    dueNow s (s.thread k) = true →
    Does (.threadLate k) s (fun t =>
      (t.thread k).checked = true ∧ (t.thread k).misses = satTo 16 ((s.thread k).misses + 1) ∧
      t.bit (Pg.reeve + hEvt) 0 = true ∧
      t.faults = s.faults ++ [⟨0x5003, Pg.reeve / 0x1000, k.val, (s.thread k).due.toNat, s.stp.timeNs⟩] ∧
      (∀ j, j ≠ k.val → t.thread j = s.thread j))) ∧
  -- reeveParity
  (∀ (loc : ParityLoc) (s : State),
    Does (.reeveParity loc) s (fun t =>
      t.bit (Pg.reeve + hEvt) 5 = true ∧ SameRegsBut [Pg.reeve + hEvt] s t ∧
      t.faults = s.faults ++ [⟨0x5005, Pg.reeve / 0x1000, loc.unit, loc.index, s.stp.timeNs⟩] ∧ SameBut [.regs, .faults] s t)) ∧
  -- wfi
  (∀ (p : Fin 8) (s : State),
    s.pstate p ≤ 3 → (s.pair p).dispatch = false → s.bit Reg.belfryReq p = false →
    Does (.wfi p) s (fun t =>
      (t.pair p).wfi = true ∧ (t.pair p).running = (s.pair p).running ∧ SameRegsBut [Reg.ccPstate p, Reg.ccRunning p] s t ∧
      SameBut [.regs, .rv] s t))

/-- The REEVE window reads and writes thread contexts and bindings, by ownership. A read shows the four words of a context or the
binding word. A write by an owner sets PRIO, AFF, DL and EN of a thread that is not running; one by another master changes no
context and is counted; a binding write keeps VALID and the thread number. (R292, R454, 13_control_cores_and_reeve.md,
21_register_pages.md) -/
def Obligations.ReeveTableWindow : Prop :=
  -- reeveTableRead
  (∀ (s : State),
    s.answers Pg.reeve = true → s.getF Reg.reeveTblAddr 17 16 = 0 → s.bit Reg.reeveTblAddr 12 = false →
    Does (.reeveTableRead) s (fun t =>
      (∀ k < 4, t.reg (Reg.reeveTblData k) = (threadWords (s.thread (s.getF Reg.reeveTblAddr 11 0))).getD k 0) ∧
      t.reg Reg.reeveTblStat = 1 ∧ SameBut [.regs] s t)) ∧
  -- reeveTableReadBinding
  (∀ (s : State),
    s.answers Pg.reeve = true → s.getF Reg.reeveTblAddr 17 16 = 0 → s.bit Reg.reeveTblAddr 12 = true →
    Does (.reeveTableRead) s (fun t =>
      t.reg (Reg.reeveTblData 0) = Store.get (fun _ => (0 : Word)) s.rv.bindings (s.getF Reg.reeveTblAddr 11 0) ∧
      t.reg Reg.reeveTblStat = 1 ∧ SameBut [.regs] s t)) ∧
  -- reeveTableWrite
  (∀ (m : Master) (s : State),
    reaches s m Pg.reeve = true → s.getF Reg.reeveTblAddr 17 16 = 1 → s.bit Reg.reeveTblAddr 12 = false →
    owns m (s.getF Reg.reeveTblAddr 11 0) = true → (s.thread (s.getF Reg.reeveTblAddr 11 0)).state ≠ 3 →
    Does (.reeveTableWrite m) s (fun t =>
      (t.thread (s.getF Reg.reeveTblAddr 11 0)).prio = s.getF (Reg.reeveTblData 0) 5 0 ∧
      (t.thread (s.getF Reg.reeveTblAddr 11 0)).aff = s.getF (Reg.reeveTblData 0) 15 8 ∧
      (t.thread (s.getF Reg.reeveTblAddr 11 0)).dl = s.getF (Reg.reeveTblData 1) 15 0 ∧
      (t.thread (s.getF Reg.reeveTblAddr 11 0)).en = s.bit (Reg.reeveTblData 0) 31 ∧ t.reg Reg.reeveTblStat = 1 ∧
      (∀ k, k ≠ s.getF Reg.reeveTblAddr 11 0 → t.thread k = s.thread k))) ∧
  -- reeveTableWriteDropped
  (∀ (s : State),
    s.answers Pg.reeve = true → s.getF Reg.reeveTblAddr 17 16 = 1 → s.bit Reg.reeveTblAddr 12 = false →
    s.getF Reg.reeveTblAddr 11 0 < 2304 →
    Does (.reeveTableWrite .host) s (fun t =>
      t.rv = s.rv ∧ t.bit (Pg.reeve + hEvt) 3 = true ∧ t.reg Reg.reeveTblStat = 1 ∧
      (s.reg Reg.reeveOwnerDrop ≠ BitVec.allOnes 32 → t.reg Reg.reeveOwnerDrop = s.reg Reg.reeveOwnerDrop + 1))) ∧
  -- reeveTableWriteBinding
  (∀ (p : Fin 8) (s : State),
    s.inReset = false → s.getF Reg.reeveTblAddr 17 16 = 1 → s.bit Reg.reeveTblAddr 12 = true →
    Does (.reeveTableWrite (.cc p)) s (fun t =>
      Store.get (fun _ => (0 : Word)) t.rv.bindings (s.getF Reg.reeveTblAddr 11 0) = s.reg (Reg.reeveTblData 0) &&& 0x8FFF ∧
      t.rv.threads = s.rv.threads ∧ t.reg Reg.reeveTblStat = 1 ∧ SameBut [.regs, .rv] s t))

/-- Core pairs drain, load, fall out of lockstep and restart as R288, R289 and R306 to R309 say. DRAIN with no other pair draining
or loading sets the pair's drain; otherwise it is refused with 0x0902. A draining pair without a thread and without homed
channels is DRAINED, with event 0; DRAIN 0 takes it back. LOAD starts from DRAINED only; its end returns to DRAINED with event
1, or with event 2 and 0x0A01 when the check fails. A lockstep mismatch takes the pair OFFLINE with its thread READY, counts,
sets event 3 and raises 0x5001; the restart ends it, or the pair is FAILED with 0x5002 after a second within 10 s. (R288, R289,
R306, R307, R308, R309, 13_control_cores_and_reeve.md) -/
def Obligations.PairsDrainLoadAndRestart : Prop :=
  -- drain
  (∀ (p : Fin 8) (s : State),
    s.answers (Pg.cc p) = true → (s.pair p).drain = false → drainBusy s p = false →
    Does (.drain p) s (fun t =>
      (t.pair p).drain = true ∧ t.bit (Reg.ccDrain p) 0 = true ∧ (t.pair p).running = (s.pair p).running ∧
      (∀ q : Nat, q ≠ p → (t.pair q).drain = (s.pair q).drain))) ∧
  -- drainRefused
  (∀ (p : Fin 8) (s : State),
    s.answers (Pg.cc p) = true → (s.pair p).drain = false → drainBusy s p = true →
    Does (.drain p) s (fun t =>
      t.reg (Pg.cc p + hRefuse) = 0x00140902 ∧ t.bit (Pg.cc p + hStatus) 1 = true ∧
      SameRegsBut [Pg.cc p + hRefuse, Pg.cc p + hStatus] s t ∧ SameBut [.regs] s t)) ∧
  -- drained
  (∀ (p : Fin 8) (s : State),
    s.pstate p = 2 → (s.pair p).running = none → homed s p = [] →
    Does (.drained p) s (fun t =>
      t.pstate p = 3 ∧ t.getF (Reg.ccPstate p) 2 0 = 3 ∧ t.bit (Pg.cc p + hEvt) 0 = true)) ∧
  -- undrain
  (∀ (p : Fin 8) (s : State),
    s.answers (Pg.cc p) = true → (s.pair p).loading = false →
    Does (.undrain p) s (fun t =>
      (t.pair p).drain = false ∧ (t.pair p).drained = false ∧ t.bit (Reg.ccDrain p) 0 = false ∧
      (t.pair p).running = (s.pair p).running)) ∧
  -- load
  (∀ (p : Fin 8) (s : State),
    s.answers (Pg.cc p) = true → s.pstate p = 3 →
    Does (.load p) s (fun t =>
      t.pstate p = 4 ∧ t.getF (Reg.ccPstate p) 2 0 = 4 ∧ t.rv.threads = s.rv.threads)) ∧
  -- loadComplete
  (∀ (p : Fin 8) (s : State),
    s.pstate p = 4 → (s.pair p).undrain = false → (s.pair p).drained = true →
    Does (.loadComplete p) s (fun t =>
      t.pstate p = 3 ∧
      ((pairImage s p).2 = 0 → t.bit (Pg.cc p + hEvt) 1 = true ∧ t.reg (Pg.cc p + hRefuse) = s.reg (Pg.cc p + hRefuse)) ∧
      ((pairImage s p).2 ≠ 0 → t.bit (Pg.cc p + hEvt) 2 = true ∧ t.reg (Pg.cc p + hRefuse) = 0x00010A01 ∧
        t.bit (Pg.cc p + hStatus) 1 = true))) ∧
  -- loadFails
  (∀ (p : Fin 8) (s : State),
    s.pstate p = 4 → (s.pair p).undrain = false → (s.pair p).drained = true → headerOk (pairImage s p).1 = false →
    Does (.loadComplete p) s (fun t =>
      t.pstate p = 3 ∧ t.bit (Pg.cc p + hEvt) 2 = true ∧ t.reg (Pg.cc p + hRefuse) = 0x00010A01 ∧
      t.bit (Pg.cc p + hStatus) 1 = true)) ∧
  -- ccLockstep
  (∀ (p : Fin 8) (r : Nat) (s : State),
    (s.pair p).failed = false → (s.pair p).running = some r →
    Does (.ccLockstep p) s (fun t =>
      t.pstate p = 5 ∧ (t.pair p).running = none ∧ (t.thread r).state = 2 ∧ t.bit (Pg.cc p + hEvt) 3 = true ∧
      t.faults = s.faults ++ [⟨0x5001, Pg.cc p / 0x1000, p.val, r, s.stp.timeNs⟩] ∧
      (s.reg (Reg.ccLockstepErr p) ≠ BitVec.allOnes 32 → t.reg (Reg.ccLockstepErr p) = s.reg (Reg.ccLockstepErr p) + 1))) ∧
  -- pairRestartComplete
  (∀ (p : Fin 8) (s : State),
    (s.pair p).offline = true → (s.pair p).secondLock = false →
    Does (.pairRestartComplete p) s (fun t =>
      (t.pair p).offline = false ∧ (t.pair p).drain = (s.pair p).drain ∧ t.faults = s.faults)) ∧
  -- pairFails
  (∀ (p : Fin 8) (s : State),
    (s.pair p).offline = true → (s.pair p).secondLock = true →
    Does (.pairRestartComplete p) s (fun t =>
      t.pstate p = 6 ∧ t.getF (Reg.ccPstate p) 2 0 = 6 ∧
      t.faults = s.faults ++ [⟨0x5002, Pg.cc p / 0x1000, p.val, 0, s.stp.timeNs⟩]))

/-- A claim or a completion from a master other than its target is refused. For every target t and every master that is not target
t, a read of CLAIM_t on the root page or a Bell's page answers 0 and changes nothing else, and a write of COMPLETE_t with any
source number changes nothing. (R317) -/
def Obligations.OtherMastersCannotClaim : Prop :=
  -- claimRefused
  (∀ (m : Master) (bell : Option (Fin 64)) (k : Fin 9) (s : State),
    isTarget m k = false →
    Does (.claim m bell k) s (fun t =>
      t = { s with bus := ⟨[0], .ok⟩ })) ∧
  -- completeRefused
  (∀ (m : Master) (bell : Option (Fin 64)) (k : Fin 9) (src : Fin 4096) (s : State),
    isTarget m k = false →
    Does (.complete m bell k src) s (fun t =>
      t = s))

/-- Sources assert, are assigned to eligible targets, claimed and completed. A filtered level assertion sets INPUT and, when the
source is not ACTIVE, its pending bit; its fall takes both and the assignment. An arbitration leaves no assignment in its Bell
but to a pending source, not ACTIVE, on an enabled and eligible target, and assigns every pending edge source that has one. A
claim by target t of its best source answers its number, clears its pending bit and makes it ACTIVE for t; the completion by t
clears ACTIVE. A PENDING write sets each software source's bit to the bit written. The MSI-X enable and mask are kept, and an
unmasked message that waits goes out. ORPHAN_CLR clears ORPHAN; parity sets event 1 and raises 0x5006. (R312, R313, R314, R315,
R316, R319, R320, R460, 14_belfry_interrupts.md) -/
def Obligations.SourcesPendAndAreServed : Prop :=
  -- sourceAssertion
  (∀ (n : Fin 4096) (pg : Nat) (s : State),
    sourcePage n = some pg → eventsUp s pg = true → s.isEdge n = false → s.inputBit n = false → s.activeBit n = false →
    Does (.sourceAssertion n) s (fun t =>
      t.inputBit n = true ∧ t.pendingBit n = true ∧ t.assignedTo n = s.assignedTo n ∧ t.faults = s.faults)) ∧
  -- sourceAssertionEdge
  (∀ (n : Fin 4096) (s : State),
    sourceExists n = true → (isSoft n = false ∧ isGpio n = false) → s.isEdge n = true →
    Does (.sourceAssertion n) s (fun t =>
      t.pendingBit n = true ∧ (∀ b : Nat, b ≠ n.val / 64 → t.reg (Reg.bellMerged b) = s.reg (Reg.bellMerged b)) ∧
      t.faults = s.faults)) ∧
  -- sourceDeassert
  (∀ (n : Fin 4096) (pg : Nat) (s : State),
    sourcePage n = some pg → sourceExists n = true → isSoft n = false → eventsUp s pg = false → s.inputBit n = true →
    Does (.sourceDeassert n) s (fun t =>
      t.inputBit n = false ∧ t.pendingBit n = false ∧ t.assignedTo n = 15)) ∧
  -- arbitration
  (∀ (b : Fin 64) (s : State),
    Does (.arbitration b) s (fun t =>
      (∀ i < 64, t.assignedTo (64 * b.val + i) < 9 → t.pendingBit (64 * b.val + i) = true ∧ t.activeBit (64 * b.val + i) = false ∧ t.enableBit (64 *
        b.val + i) (t.assignedTo (64 * b.val + i)) = true ∧ t.eligible (t.assignedTo (64 * b.val + i)) = true) ∧
      (∀ i < 64, s.isEdge (64 * b.val + i) = true → s.pendingBit (64 * b.val + i) = true → s.activeBit (64 * b.val + i) = false → ((List.range 9).any
        (fun k => s.enableBit (64 * b.val + i) k && s.eligible k)) = true → t.assignedTo (64 * b.val + i) < 9) ∧
      (∀ i < 64, s.isEdge (64 * b.val + i) = true → t.pendingBit (64 * b.val + i) = s.pendingBit (64 * b.val + i)))) ∧
  -- claim
  (∀ (m : Master) (bell : Option (Fin 64)) (k : Fin 9) (pr n : Nat) (s : State),
    reaches s m (bellPage bell) = true → isTarget m k = true →
    State.bestSource (s.claimable k (bell.map Fin.val)) = some (pr, n) →
    Does (.claim m bell k) s (fun t =>
      t.bus = ⟨[n], .ok⟩ ∧ t.pendingBit n = false ∧ t.activeBit n = true ∧ t.assignedTo n = 15 ∧
      Store.get (fun _ => 15) t.bf.active n = k.val)) ∧
  -- complete
  (∀ (m : Master) (k : Fin 9) (src : Fin 4096) (s : State),
    reaches s m Pg.belfry = true → isTarget m k = true → Store.get (fun _ => 15) s.bf.active src.val = k.val →
    Does (.complete m none k src) s (fun t =>
      t.activeBit src = false ∧ Store.get (fun _ => 15) t.bf.active src.val = 15 ∧
      (s.isEdge src = false → t.pendingBit src = s.inputBit src) ∧
      (s.isEdge src = true → t.pendingBit src = s.pendingBit src))) ∧
  -- completeIgnored
  (∀ (m : Master) (k : Fin 9) (src : Fin 4096) (s : State),
    reaches s m Pg.belfry = true → isTarget m k = true → Store.get (fun _ => 15) s.bf.active src.val ≠ k.val →
    Does (.complete m none k src) s (fun t =>
      t.bit (Pg.belfry + hEvt) 2 = true ∧ t.activeBit src = s.activeBit src ∧ t.pendingBit src = s.pendingBit src ∧
      (s.reg (Reg.bellCompleteIgn (src.val / 64)) ≠ BitVec.allOnes 32 → t.reg (Reg.bellCompleteIgn (src.val / 64)) = s.reg (Reg.bellCompleteIgn
        (src.val / 64)) + 1))) ∧
  -- pendingWrite
  (∀ (b : Fin 64) (hi : Bool) (w : BitVec 32) (s : State),
    s.answers (Pg.bell b) = true → 48 ≤ b →
    Does (.pendingWrite b hi w) s (fun t =>
      t.reg (if hi then Reg.bellPendingLo b + 4 else Reg.bellPendingLo b) = w ∧
      (∀ i < 32, w.getLsbD i = false → t.assignedTo (64 * b.val + (if hi then 32 else 0) + i) = 15))) ∧
  -- orphanClr
  (∀ (s : State),
    s.answers Pg.belfry = true →
    Does (.orphanClr) s (fun t =>
      t.reg Reg.belfryOrphan = 0 ∧ SameRegsBut [Reg.belfryOrphan] s t ∧ SameBut [.regs] s t)) ∧
  -- belfryParity
  (∀ (loc : ParityLoc) (s : State),
    Does (.belfryParity loc) s (fun t =>
      t.bit (Pg.belfry + hEvt) 1 = true ∧ SameRegsBut [Pg.belfry + hEvt] s t ∧
      t.faults = s.faults ++ [⟨0x5006, Pg.belfry / 0x1000, loc.unit, loc.index, s.stp.timeNs⟩] ∧ SameBut [.regs, .faults] s t)) ∧
  -- msixEnable
  (∀ (enable mask : Bool) (s : State),
    Does (.msixEnable enable mask) s (fun t =>
      t.pins.msixOn = enable ∧ t.pins.msixMasked = mask ∧ (enable = true → mask = false → t.pins.msixPend = false) ∧
      t.faults = s.faults))

/-- The BAR2 window reads and writes HBM within its limits, and a layout is committed or refused. A host write that the guard admits
and that ends at or below TOP stores exactly its bytes; one outside the host region under GUARD changes no byte, is counted and
sets event 5. A read answers the bytes of memory, or an error at or above TOP. COMMIT in COMMISSION with no channel placed and a
sound layout puts the layout in use; in another mode it is refused with 0x0803 and event 6. A bad BAR0 access is counted, and a
read of it returns 0. (R330, R331, R332, R409, R352, 15_hbm_and_fabric.md) -/
def Obligations.HostWindowAndLayout : Prop :=
  -- bar2Write
  (∀ (off : BitVec 28) (bytes : List (BitVec 8)) (s : State),
    s.mode ≠ 0 → (s.bit Reg.hbmCfg 0 = false ∨ spanAll (bar2Addr s off.toNat) bytes.length (inHost s) = true) →
    bar2Addr s off.toNat + bytes.length ≤ s.hbmEnd →
    Does (.bar2Write off bytes) s (fun t =>
      (∀ i < bytes.length, t.memByte (bar2Addr s off.toNat + i) = bytes.getD i 0) ∧
      (∀ a, (a < bar2Addr s off.toNat ∨ bar2Addr s off.toNat + bytes.length ≤ a) → t.memByte a = s.memByte a) ∧
      SameBut [.mem] s t)) ∧
  -- bar2WriteGuarded
  (∀ (off : BitVec 28) (bytes : List (BitVec 8)) (s : State),
    s.mode ≠ 0 → s.bit Reg.hbmCfg 0 = true → spanAll (bar2Addr s off.toNat) bytes.length (inHost s) = false →
    Does (.bar2Write off bytes) s (fun t =>
      SameMemory s t ∧ t.bit (Pg.hbm + hEvt) 5 = true ∧ SameRegsBut [Reg.hbmBar2Wdrop, Pg.hbm + hEvt] s t ∧
      (s.reg Reg.hbmBar2Wdrop ≠ BitVec.allOnes 32 → t.reg Reg.hbmBar2Wdrop = s.reg Reg.hbmBar2Wdrop + 1))) ∧
  -- bar2Read
  (∀ (off : BitVec 28) (len : Fin 9) (s : State),
    s.mode ≠ 0 → bar2Addr s off.toNat + len ≤ s.hbmEnd →
    Does (.bar2Read off len) s (fun t =>
      t.bus = ⟨s.memBytes (bar2Addr s off.toNat) len, .ok⟩ ∧ SameBut [.bus] s t)) ∧
  -- bar2ReadAbove
  (∀ (off : BitVec 28) (len : Fin 9) (s : State),
    s.hbmEnd < bar2Addr s off.toNat + len →
    Does (.bar2Read off len) s (fun t =>
      t.bus = ⟨[], .error⟩ ∧ SameBut [.bus] s t)) ∧
  -- hbmLayoutCommit
  (∀ (s : State),
    s.answers Pg.hbm = true → s.mode = 1 → anyChannelPlaced s = false →
    layoutFail s (layoutOver (fun n => s.reg (Reg.hbmRegCfg n)) (activePcs s)) = none →
    Does (.hbmLayoutCommit) s (fun t =>
      (∀ n < 8, regionCfg t n = (layoutOver (fun n => s.reg (Reg.hbmRegCfg n)) (activePcs s)).getD n 0) ∧
      t.reg Reg.hbmTop = BitVec.ofNat 32 (sumN ((layoutOver (fun n => s.reg (Reg.hbmRegCfg n)) (activePcs s)).map regionSize)) ∧
      (∀ a, a < 0x10000000 → t.memByte a = s.memByte a) ∧ t.faults = s.faults)) ∧
  -- hbmLayoutCommitRefused
  (∀ (s : State),
    s.answers Pg.hbm = true → (s.mode ≠ 1 ∨ anyChannelPlaced s = true) →
    Does (.hbmLayoutCommit) s (fun t =>
      t.reg (Pg.hbm + hRefuse) = 0x00010803 ∧ t.bit (Pg.hbm + hStatus) 1 = true ∧ t.bit (Pg.hbm + hEvt) 6 = true ∧
      SameBut [.regs] s t)) ∧
  -- decodeErr
  (∀ (m : Master) (offset : BitVec 26) (size : Fin 9) (write : Bool) (s : State),
    badAccess s offset.toNat size = true →
    Does (.decodeErr m offset size write) s (fun t =>
      t.bit (Pg.mtx + hEvt) 2 = true ∧ SameRegsBut [Reg.mtxDecodeErr, Pg.mtx + hEvt] s t ∧
      (write = false → t.bus = ⟨[0], .ok⟩) ∧
      (s.reg Reg.mtxDecodeErr ≠ BitVec.allOnes 32 → t.reg Reg.mtxDecodeErr = s.reg Reg.mtxDecodeErr + 1)))

/-- Pseudo-channel controllers serve requests, refresh, enter self-refresh and count errors. A write that arrives alone at a
serving controller and is not throttled is served and leaves no request; an uncorrectable read of the host writes the error
address, sets event 1 and raises 0x3001; one of the Gleaner, the compositors, the ladder, ingest, the monitor head or the Stile is marked
for the command that handles it, and one of the ETM is counted in MEM_ERR with event 7 and its payload unit sent on no flow. A refresh that falls due while a deadline request is held is owed, up to the limit,
then forced and counted. A make-up issues one. An idle controller that owes none enters self-refresh; a request that came
first aborts the entry. STAT_CLR zeroes the counters and keeps the refreshes owed. Parity empties a controller's queue with
event 7 and 0x3005, and where only writes waited it writes no other register; matrix parity is counted with 0x3006. (R333,
R335, R338, R345, R346, R347, R353, R380, 15_hbm_and_fabric.md) -/
def Obligations.ControllersServeAndRefresh : Prop :=
  -- memoryRequest
  (∀ (c : Fin 32) (r : MemReq) (err : ReadErr) (s : State),
    (pchSt s c = 1 ∨ pchSt s c = 3 ∨ pchSt s c = 4) → (pch s c).queue = [] → pcOf s r.addr.toNat = some c.val → held337 s (pch s c) r = false → r.write = true →
    Does (.memoryRequest c [r] err) s (fun t =>
      t.bus = ⟨s.bus.rdata, .ok⟩ ∧ (pch t c).queue = [] ∧ t.faults = s.faults ∧ (∀ d : Nat, d ≠ c.val → pch t d = pch s d))) ∧
  -- memoryRequestUncorrectable
  (∀ (c : Fin 32) (r : MemReq) (s : State),
    (pchSt s c = 1 ∨ pchSt s c = 3 ∨ pchSt s c = 4) → (pch s c).queue = [] → pcOf s r.addr.toNat = some c.val → held337 s (pch s c) r = false → r.write = false →
    r.master = 42 →
    Does (.memoryRequest c [r] .stays) s (fun t =>
      t.bus.resp = .poisoned ∧ t.bit (Pg.pch c + hEvt) 1 = true ∧ t.bit (Pg.hbm + hEvt) 4 = true ∧
      t.reg (Reg.pchErrAddrLo c) = r.addr.setWidth 32 ∧
      t.faults = s.faults ++ [⟨0x3001, Pg.pch c / 0x1000, (r.addr.setWidth 32).toNat, (((r.addr >>> 32).setWidth 32 : Word) ||| 0x80000000).toNat,
        s.stp.timeNs⟩])) ∧
  -- memoryRequestHandledByItsReader
  (∀ (c : Fin 32) (r : MemReq) (s : State),
    (pchSt s c = 1 ∨ pchSt s c = 3 ∨ pchSt s c = 4) → (pch s c).queue = [] → pcOf s r.addr.toNat = some c.val →
    held337 s (pch s c) r = false → r.write = false → r.master ∈ [35, 36, 37, 38, 40, 49] →
    Does (.memoryRequest c [r] .stays) s (fun t =>
      t.hbm.failed.head? = some ⟨r.master.val, r.addr.toNat / 64, s.frame⟩ ∧ t.bus = ⟨s.bus.rdata, .error⟩ ∧ t.chans = s.chans ∧
      t.hbm.mem = s.hbm.mem)) ∧
  -- memoryRequestOfTheEtm
  (∀ (c : Fin 32) (r : MemReq) (s : State),
    (pchSt s c = 1 ∨ pchSt s c = 3 ∨ pchSt s c = 4) → (pch s c).queue = [] → pcOf s r.addr.toNat = some c.val →
    held337 s (pch s c) r = false → r.write = false → r.master = 39 →
    Does (.memoryRequest c [r] .stays) s (fun t =>
      t.bit (Pg.etm + hEvt) 7 = true ∧
      (s.reg Reg.etmMemErr ≠ BitVec.allOnes 32 → t.reg Reg.etmMemErr = s.reg Reg.etmMemErr + 1) ∧
      (∀ d ∈ t.etm.queue, d.fwd = false → Config.lineUnit (r.addr.toNat / 64) d.rend d.k = false))) ∧
  -- refreshDue
  (∀ (c : Fin 32) (s : State),
    (pchSt s c = 1 ∨ pchSt s c = 3 ∨ pchSt s c = 4) → holdsDeadline (pch s c) = true →
    owed s c < min 8 (s.getF Reg.hbmRefCfg 3 0) →
    Does (.refreshDue c) s (fun t =>
      owed t c = owed s c + 1 ∧ (pch t c).win = [] ∧ (pch t c).queue = (pch s c).queue ∧ SameRegsBut [Reg.pchRefOwed c] s t)) ∧
  -- refreshForced
  (∀ (c : Fin 32) (s : State),
    (pchSt s c = 1 ∨ pchSt s c = 3 ∨ pchSt s c = 4) → holdsDeadline (pch s c) = true →
    min 8 (s.getF Reg.hbmRefCfg 3 0) ≤ owed s c →
    Does (.refreshDue c) s (fun t =>
      owed t c = owed s c ∧ t.bit (Pg.pch c + hEvt) 2 = true ∧ SameRegsBut [Reg.pchRefForced c, Pg.pch c + hEvt] s t ∧
      (s.reg (Reg.pchRefForced c) ≠ BitVec.allOnes 32 → t.reg (Reg.pchRefForced c) = s.reg (Reg.pchRefForced c) + 1))) ∧
  -- refreshMakeup
  (∀ (c : Fin 32) (s : State),
    pchServes s c = true → holdsDeadline (pch s c) = false → 0 < owed s c →
    Does (.refreshMakeup c) s (fun t =>
      owed t c + 1 = owed s c ∧ SameRegsBut [Reg.pchRefOwed c] s t ∧ SameBut [.regs] s t)) ∧
  -- selfRefreshEntry
  (∀ (c : Fin 32) (s : State),
    pchSt s c = 1 → s.getF Reg.hbmSrIdle 15 0 ≠ 0 → owed s c = 0 → (pch s c).queue = [] →
    Does (.selfRefreshEntry c) s (fun t =>
      pchSt t c = 2 ∧ SameRegsBut [Reg.pchPstate c] s t ∧ SameBut [.regs] s t)) ∧
  -- selfRefreshAbort
  (∀ (c : Fin 32) (s : State),
    pchSt s c = 1 → s.getF Reg.hbmSrIdle 15 0 ≠ 0 → owed s c = 0 → (pch s c).queue ≠ [] →
    Does (.selfRefreshEntry c) s (fun t =>
      pchSt t c = 1 ∧ SameRegsBut [Reg.pchSrAborts c] s t ∧
      (s.reg (Reg.pchSrAborts c) ≠ BitVec.allOnes 32 → t.reg (Reg.pchSrAborts c) = s.reg (Reg.pchSrAborts c) + 1))) ∧
  -- pchStatClr
  (∀ (c : Fin 32) (s : State),
    s.answers (Pg.pch c) = true →
    Does (.pchStatClr c) s (fun t =>
      t.reg (Reg.pchCorr c) = 0 ∧ t.reg (Reg.pchUncorr c) = 0 ∧ t.reg (Reg.pchErrAddrLo c) = 0 ∧
      t.reg (Reg.pchErrAddrHi c) = 0 ∧ t.reg (Reg.pchRefForced c) = 0 ∧ t.reg (Reg.pchThrottles c) = 0 ∧ owed t c = owed s c ∧
      SameBut [.regs] s t)) ∧
  -- hbmParity
  (∀ (loc : ParityLoc) (s : State),
    loc.unit < 32 →
    Does (.hbmParity loc) s (fun t =>
      (pch t loc.unit).queue = [] ∧ t.bit (Pg.hbm + hEvt) 7 = true ∧ (∀ d, d ≠ loc.unit → pch t d = pch s d) ∧
      t.faults.getLast? = some ⟨0x3005, Pg.pch loc.unit / 0x1000, loc.unit, 0, s.stp.timeNs⟩)) ∧
  -- hbmParityOfWrites
  (∀ (loc : ParityLoc) (s : State),
    loc.unit < 32 → (∀ e ∈ (pch s loc.unit).queue, e.1.write = true) →
    Does (.hbmParity loc) s (fun t =>
      SameRegsBut [Pg.hbm + hEvt] s t ∧ SameBut [.regs, .hbm, .faults] s t ∧
      t.faults = s.faults ++ [⟨0x3005, Pg.pch loc.unit / 0x1000, loc.unit, 0, s.stp.timeNs⟩])) ∧
  -- mtxParity
  (∀ (loc : ParityLoc) (s : State),
    Does (.mtxParity loc) s (fun t =>
      t.bit (Pg.mtx + hEvt) 0 = true ∧ SameRegsBut [Reg.mtxParErr, Pg.mtx + hEvt] s t ∧
      (s.reg Reg.mtxParErr ≠ BitVec.allOnes 32 → t.reg Reg.mtxParErr = s.reg Reg.mtxParErr + 1) ∧
      t.faults = s.faults ++ [⟨0x3006, Pg.mtx / 0x1000, loc.unit, 0, s.stp.timeNs⟩]))

/-- A controller drifts, is retrained, salvaged or retired as R340 to R344 say. A tracking window of an ACTIVE controller that owes
no refresh writes its trim, which moves by one step at most; a trim of 8 or more in size makes it DRIFTING, with its events and 0x3002. A full retraining that
succeeds ends in ACTIVE with a trim of 0; one that fails ends at the salvage rate, or RETIRED with event 3 where the contents
are lost. A salvaged controller ends RETIRED, out of ACTIVE. (R340, R341, R342, R343, R344, 15_hbm_and_fabric.md) -/
def Obligations.DriftRetrainingAndRetirement : Prop :=
  -- trackingWindow
  (∀ (c : Fin 32) (trim v : Int) (pin : BitVec 8) (s : State),
    (s.mode = 2 ∨ s.mode = 3) → pchSt s c = 1 → owed s c = 0 →
    v = trimTo ((s.reg (Reg.pchTrim c)).setWidth 8 : BitVec 8).toInt (decide (s.getF (Reg.pchTrim c) 15 8 = pin.toNat)) trim → v.natAbs < 8 →
    Does (.trackingWindow c trim pin) s (fun t =>
      t.reg (Reg.pchTrim c) = BitVec.ofNat 32 ((v % 256).toNat + pin.toNat * 0x100) ∧ SameRegsBut [Reg.pchTrim c] s t ∧
      SameBut [.regs] s t)) ∧
  -- trimMovesOneStep
  (∀ (old trim : Int) (same : Bool),
    (trimTo old same trim).natAbs ≤ old.natAbs + 1 ∧ old.natAbs ≤ (trimTo old same trim).natAbs + 1 ∧
    (same = true → (trimTo old same trim - old).natAbs ≤ 1)) ∧
  -- trackingDrift
  (∀ (c : Fin 32) (trim v : Int) (pin : BitVec 8) (s : State),
    (s.mode = 2 ∨ s.mode = 3) → pchSt s c = 1 → owed s c = 0 →
    v = trimTo ((s.reg (Reg.pchTrim c)).setWidth 8 : BitVec 8).toInt (decide (s.getF (Reg.pchTrim c) 15 8 = pin.toNat)) trim → 8 ≤ v.natAbs →
    Does (.trackingWindow c trim pin) s (fun t =>
      pchSt t c = 4 ∧ t.bit (Pg.hbm + hEvt) 0 = true ∧ t.bit (Pg.pch c + hEvt) 6 = true ∧
      t.faults = s.faults ++ [⟨0x3002, Pg.pch c / 0x1000, c.val, (t.reg (Reg.pchTrim c)).toNat, s.stp.timeNs⟩])) ∧
  -- retrainComplete
  (∀ (c : Fin 32) (salvage : Bool) (s : State),
    recovering s → pchSt s c = 5 →
    Does (.retrainComplete c true salvage) s (fun t =>
      pchSt t c = 1 ∧ t.reg (Reg.pchTrim c) = 0 ∧ t.faults = s.faults)) ∧
  -- retrainSalvage
  (∀ (c : Fin 32) (s : State),
    recovering s → pchSt s c = 5 →
    Does (.retrainComplete c false true) s (fun t =>
      pchSt t c = 6 ∧ SameRegsBut [Reg.pchPstate c] s t ∧ SameBut [.regs] s t)) ∧
  -- retrainLost
  (∀ (c : Fin 32) (s : State),
    recovering s → pchSt s c = 5 →
    Does (.retrainComplete c false false) s (fun t =>
      pchSt t c = 7 ∧ t.bit Reg.hbmActive c = false ∧ t.bit Reg.hbmRetired c = true ∧ t.bit (Pg.hbm + hEvt) 3 = true)) ∧
  -- hbmPcRetired
  (∀ (c : Fin 32) (s : State),
    recovering s → pchSt s c = 6 →
    Does (.hbmPcRetired c) s (fun t =>
      pchSt t c = 7 ∧ t.bit Reg.hbmActive c = false ∧ t.bit Reg.hbmRetired c = true ∧ t.bit (Pg.hbm + hEvt) 1 = true ∧
      SameMemory s t))

/-- A check-value unit scans, aborts and reports as R357 to R360 say. GO on an idle unit whose span is not empty and lies below TOP
starts the scan, clears SSTAT and loads INIT where asked; on a busy unit it only reports an error. A finished scan writes the
running value and the result of the CRC over its bytes and sets DONE; memory does not change. A scan that meets an error stops
at the failing line with NEXT there and reports ERR. (R357, R358, R359, R360, R372, 16_check_values_and_parish_book.md) -/
def Obligations.CheckValueScans : Prop :=
  -- cvuGo
  (∀ (n : Fin 4) (s : State),
    s.answers (Pg.cvu n) = true → (cvu s n).busy = false → 1 ≤ cvuLen s n → cvuStart s n + cvuLen s n ≤ s.hbmEnd →
    Does (.cvuGo n true) s (fun t =>
      cvu t n = ⟨true, cvuStart s n, cvuLen s n, false⟩ ∧ t.reg (Reg.cvuSstat n) = 0 ∧ t.bit (Pg.cvu n + hStatus) 2 = true ∧
      t.reg64 (Reg.cvuCurLo n) (Reg.cvuCurHi n) = BitVec.ofNat 64 (cvuVal s n (Reg.cvuInitLo n) (Reg.cvuInitHi n)) ∧
      SameBut [.regs, .cvu] s t)) ∧
  -- cvuGoBusy
  (∀ (n : Fin 4) (loadInit : Bool) (s : State),
    s.answers (Pg.cvu n) = true → (cvu s n).busy = true →
    Does (.cvuGo n loadInit) s (fun t =>
      cvu t n = cvu s n ∧ t.bit (Reg.cvuSstat n) 1 = true ∧ t.bit (Pg.cvu n + hEvt) 1 = true ∧
      SameRegsBut [Reg.cvuSstat n, Pg.cvu n + hEvt] s t)) ∧
  -- cvuAbort
  (∀ (n : Fin 4) (s : State),
    s.answers (Pg.cvu n) = true → (cvu s n).busy = true →
    Does (.cvuAbort n) s (fun t =>
      cvu t n = { cvu s n with abort := true } ∧ SameBut [.cvu] s t)) ∧
  -- cvuScanDone
  (∀ (n : Fin 4) (s : State),
    (cvu s n).busy = true →
    Does (.cvuScanDone n) s (fun t =>
      (cvu t n).busy = false ∧ t.bit (Reg.cvuSstat n) 0 = true ∧ t.bit (Pg.cvu n + hEvt) 0 = true ∧
      t.reg64 (Reg.cvuCurLo n) (Reg.cvuCurHi n) = BitVec.ofNat 64 (cvuRun s n (cvu s n).start (cvu s n).len) ∧
      t.reg64 (Reg.cvuResultLo n) (Reg.cvuResultHi n) = BitVec.ofNat 64 (crcOut (cvuW s n) (cvuVal s n (Reg.cvuXoroutLo n) (Reg.cvuXoroutHi n))
        (s.bit (Reg.cvuCfg n) 9) (cvuRun s n (cvu s n).start (cvu s n).len)) ∧
      SameBut [.regs, .cvu] s t)) ∧
  -- cvuScanStopped
  (∀ (n : Fin 4) (count : Nat) (s : State),
    (cvu s n).busy = true →
    Does (.cvuScanStopped n count true) s (fun t =>
      (cvu t n).busy = false ∧ t.bit (Reg.cvuSstat n) 1 = true ∧ t.bit (Pg.cvu n + hEvt) 1 = true ∧
      t.reg64 (Reg.cvuNextLo n) (Reg.cvuNextHi n) = BitVec.ofNat 64 (max (cvu s n).start (((cvu s n).start + min count (cvu s n).len) / 64 * 64)) ∧
      SameBut [.regs, .cvu] s t))

/-- The Parish Book programs, reads back and snapshots its lines. The oldest complete staged line is programmed at its position; a
line that fails verification takes a spare and sets event 2. A read of a SEQ outside the ring answers GONE; a sound line is
shown with its sixteen words; a line with one wrong check is REPAIRED, set to be programmed again, with event 0 and 0x8001. A
snapshot stages one line for each block and an end line and sets event 7; a closed Book takes none. A record period that is over
stages an as-aired line and starts the count anew. (R361, R362, R363, R364, R366, R368, R370, R428,
16_check_values_and_parish_book.md) -/
def Obligations.ParishBookLines : Prop :=
  -- bookLineProgram
  (∀ (x : Staged) (s : State),
    s.book.staged.find? (fun y => !(lineOpen s y)) = some x →
    Does (.bookLineProgram true) s (fun t =>
      bookLine t (lineKey x.area x.pos) = x.line ∧ t.book.staged = s.book.staged.erase x ∧
      (∀ k, k ≠ lineKey x.area x.pos → bookLine t k = bookLine s k) ∧ t.reg Reg.pbookWearMax = BitVec.ofNat 32 (max (s.reg Reg.pbookWearMax).toNat
        ((Store.get Config.lineWear s.book.wear (physLine s (lineKey x.area x.pos)) + 1) / 1000)) ∧
      SameRegsBut [Reg.pbookBufLvl, Reg.pbookWearMax] s t)) ∧
  -- bookLineSpare
  (∀ (x : Staged) (s : State),
    s.book.staged.find? (fun y => !(lineOpen s y)) = some x → s.book.dead.contains (lineKey x.area x.pos) = false →
    0 < s.getF Reg.pbookSpares 9 0 →
    Does (.bookLineProgram false) s (fun t =>
      bookLine t (lineKey x.area x.pos) = x.line ∧ t.getF Reg.pbookSpares 9 0 + 1 = s.getF Reg.pbookSpares 9 0 ∧
      t.bit (Pg.pbook + hEvt) 2 = true)) ∧
  -- bookReadGone
  (∀ (s : State),
    s.answers Pg.pbook = true → placeOf s (s.getF Reg.pbookRdArea 1 0) (s.reg Reg.pbookRdSeq) = none →
    Does (.bookRead) s (fun t =>
      t.reg Reg.pbookRdStat = 7 ∧ SameRegsBut [Reg.pbookRdStat] s t ∧ SameBut [.regs] s t)) ∧
  -- bookRead
  (∀ (pos : Nat) (s : State),
    s.answers Pg.pbook = true → placeOf s (s.getF Reg.pbookRdArea 1 0) (s.reg Reg.pbookRdSeq) = some pos → s.book.staged = [] →
    s.book.dead = [] →
    (bookLine s (lineKey (s.getF Reg.pbookRdArea 1 0) pos)).chkA = (lineChecks (bookLine s (lineKey (s.getF Reg.pbookRdArea 1 0) pos)) pos).1 →
    (bookLine s (lineKey (s.getF Reg.pbookRdArea 1 0) pos)).chkB = (lineChecks (bookLine s (lineKey (s.getF Reg.pbookRdArea 1 0) pos)) pos).2 →
    Does (.bookRead) s (fun t =>
      t.reg Reg.pbookRdStat = 1 ∧
      (∀ k < 16, t.reg (Reg.pbookRdData k) = BitVec.ofNat 32 (leVal ((allBytes (bookLine s (lineKey (s.getF Reg.pbookRdArea 1 0) pos))).drop (4 * k)
        |>.take 4))) ∧
      SameBut [.regs] s t)) ∧
  -- bookReadRepaired
  (∀ (pos : Nat) (s : State),
    s.answers Pg.pbook = true → placeOf s (s.getF Reg.pbookRdArea 1 0) (s.reg Reg.pbookRdSeq) = some pos → s.book.staged = [] →
    s.book.dead = [] → s.book.closed = false →
    (bookLine s (lineKey (s.getF Reg.pbookRdArea 1 0) pos)).chkA ≠ (lineChecks (bookLine s (lineKey (s.getF Reg.pbookRdArea 1 0) pos)) pos).1 →
    (bookLine s (lineKey (s.getF Reg.pbookRdArea 1 0) pos)).chkB = (lineChecks (bookLine s (lineKey (s.getF Reg.pbookRdArea 1 0) pos)) pos).2 →
    Does (.bookRead) s (fun t =>
      t.reg Reg.pbookRdStat = 3 ∧ t.bit (Pg.pbook + hEvt) 0 = true ∧ t.book.staged.length = 1 ∧
      t.faults = s.faults ++ [⟨0x8001, Pg.pbook / 0x1000, s.getF Reg.pbookRdArea 1 0, (s.reg Reg.pbookRdSeq).toNat, s.stp.timeNs⟩])) ∧
  -- snap
  (∀ (s : State),
    s.answers Pg.pbook = true → s.book.closed = false →
    Does (.snap) s (fun t =>
      t.bit (Pg.pbook + hEvt) 7 = true ∧ t.book.staged.length = s.book.staged.length + (snapBlocks s).length + 1 ∧
      t.reg (Reg.pbookAreaHead 1) = BitVec.ofNat 32 (s.bookCount 1 + (snapBlocks s).length + 1) ∧ t.book.lines = s.book.lines)) ∧
  -- snapClosed
  (∀ (s : State),
    s.book.closed = true →
    Does (.snap) s (fun t =>
      t = s)) ∧
  -- recordClose
  (∀ (n : Fin 128) (x : Nat) (s : State),
    (s.chan n).running = true → (s.chan n).startFr = s.frame → (s.chan n).air.sec = some x → x < s.secAtFrame →
    s.book.closed = false →
    Does (.recordClose n) s (fun t =>
      (t.chan n).air.count = 0 ∧ (t.chan n).air.sec = some s.secAtFrame ∧ t.book.staged.length = s.book.staged.length + 1 ∧
      t.bookCount 2 = s.bookCount 2 + 1 ∧ (∀ m, m ≠ n.val → t.chan m = s.chan m) ∧ t.faults = s.faults))

/-- The Watch logs faults and journals the suppressed ones; RECOVERY is entered and left, and SERVICE re-entered. Of the faults of
the oldest cycle the Watch takes the least code and unit: LAST_CODE, LAST_POS and LAST_LINE name it, its class is counted, the
unit's FAULT and STATUS.FAULT show it, event 0 is set, and the record leaves the list. The end of a second clears the journal's
count and stages one summary line where faults were suppressed. WATCH.STAT_CLR zeroes the sixteen class counters alone. A
request in SERVICE or DEGRADED at a frame start takes the device to RECOVERY with event 3, pauses every running channel and
serves bits 1 to 4; with no request left and every controller settled it returns to SERVICE, or to DEGRADED while a cause
stands. In DEGRADED with no cause left a frame start takes it back to SERVICE with event 2. (R367, R377, R378, R379, R380, R385,
R412, R451, 17_single_fault_guarantee.md) -/
def Obligations.FaultsAndRecovery : Prop :=
  -- faultLog
  (∀ (r : FaultRec) (s : State),
    nextFault s.faults = some r →
    Does (.faultLog) s (fun t =>
      t.reg Reg.watchLastCode = BitVec.ofNat 32 (r.code + r.unit * 0x10000) ∧
      t.reg Reg.watchLastPos = BitVec.ofNat 32 s.frame.toNat ∧ t.reg Reg.watchLastLine = BitVec.ofNat 32 s.line ∧
      t.reg (r.unit * 0x1000 + hFault) = BitVec.ofNat 32 r.code ∧ t.bit (r.unit * 0x1000 + hStatus) 3 = true ∧
      t.bit (Pg.watch + hEvt) 0 = true ∧ t.faults = s.faults.erase r ∧
      (s.reg (Reg.watchClassCnt (r.code / 0x1000)) ≠ BitVec.allOnes 32 → r.code < 0x10000 → t.reg (Reg.watchClassCnt (r.code / 0x1000)) = s.reg
        (Reg.watchClassCnt (r.code / 0x1000)) + 1))) ∧
  -- faultSummary
  (∀ (s : State),
    (s.book.supp = 0 ∨ s.book.closed = true) →
    Does (.faultSummary) s (fun t =>
      t.book.second = 0 ∧ t.book.supp = 0 ∧ t.book.staged = s.book.staged ∧ t.regs = s.regs)) ∧
  -- faultSummaryLine
  (∀ (s : State),
    0 < s.book.supp → s.book.closed = false →
    Does (.faultSummary) s (fun t =>
      t.book.second = 0 ∧ t.book.supp = 0 ∧ t.book.staged.length = s.book.staged.length + 1 ∧
      t.bookCount 0 = s.bookCount 0 + 1)) ∧
  -- watchStatClr
  (∀ (s : State),
    s.answers Pg.watch = true →
    Does (.watchStatClr) s (fun t =>
      (∀ k < 16, t.reg (Reg.watchClassCnt k) = 0) ∧ SameRegsBut ((List.range 16).map Reg.watchClassCnt) s t ∧
      SameBut [.regs] s t)) ∧
  -- recoveryEntry
  (∀ (s : State),
    (s.mode = 2 ∨ s.mode = 3) → s.getF Reg.watchRecoverReq 4 0 ≠ 0 → s.inFrame = 0 → s.running = true → s.boot.svcAt = none →
    Does (.recoveryEntry) s (fun t =>
      t.mode = 4 ∧ t.bit (Pg.watch + hEvt) 3 = true ∧ t.getF Reg.watchRecoverReq 4 1 = 0 ∧
      (∀ n, (s.chan n).running = true → (t.chan n).paused = true) ∧ t.faults = s.faults)) ∧
  -- recoveryExit
  (∀ (s : State),
    s.mode = 4 → s.getF Reg.watchRecoverReq 4 0 = 0 →
    (List.range 32).all (fun c => decide (pchSt s c < 5 ∨ pchSt s c = 7)) = true →
    Does (.recoveryExit) s (fun t =>
      t.mode = (if s.getF Reg.watchDegrCause 9 0 = 0 then 2 else 3) ∧
      (s.getF Reg.watchDegrCause 9 0 = 0 → t.bit (Pg.watch + hEvt) 2 = true) ∧
      (s.getF Reg.watchDegrCause 9 0 ≠ 0 → t.bit (Pg.watch + hEvt) 1 = true))) ∧
  -- serviceReentry
  (∀ (s : State),
    s.mode = 3 →
    Does (.serviceReentry) s (fun t =>
      t.mode = (if (settleCauses (watchStart s)).getF Reg.watchDegrCause 9 0 = 0 then 2 else 3) ∧
      ((settleCauses (watchStart s)).getF Reg.watchDegrCause 9 0 = 0 → t.bit (Pg.watch + hEvt) 2 = true)))

/-- The Sexton's tests count, and their failures are reported. A passed loan test marks the loaned engine; a failed one is counted,
raises 0x2002 and takes the engine out. A passed March, matrix or lane test only counts. A failed matrix path raises 0x3007; a
failed lane test makes the UNUSED lane FAILED with 0x4001. A patrol read of a sound line moves the scrub on. A write of ENABLE
sets or clears it, and clearing lets each test in progress end; STAT_CLR zeroes the counters. (R80, R195, R345, R381, R383,
R384, 17_single_fault_guarantee.md) -/
def Obligations.SextonTests : Prop :=
  -- loanTestComplete
  (∀ (e : Nat) (s : State),
    s.eng.loan = some e → s.eng.loanPass = false → s.mode ≠ 0 →
    Does (.loanTestComplete 0) s (fun t =>
      t.eng.loanPass = true ∧ SameRegsBut [Reg.sextonEngTests] s t ∧
      (s.reg Reg.sextonEngTests ≠ BitVec.allOnes 32 → t.reg Reg.sextonEngTests = s.reg Reg.sextonEngTests + 1))) ∧
  -- loanTestFails
  (∀ (e step : Nat) (s : State),
    s.eng.loan = some e → s.eng.loanPass = false → s.mode ≠ 0 → 1 ≤ step → e < 34 →
    Does (.loanTestComplete step) s (fun t =>
      t.enabled (Pg.ee e) = false ∧ t.bit (Pg.sexton + hEvt) 0 = true ∧
      t.faults.contains ⟨0x2002, Pg.ee e / 0x1000, e, step, s.stp.timeNs⟩ = true ∧
      (s.reg Reg.sextonEngFails ≠ BitVec.allOnes 32 → t.reg Reg.sextonEngFails = s.reg Reg.sextonEngFails + 1))) ∧
  -- plotMarchTest
  (∀ (p : Fin 384) (s : State),
    testRuns s 0 Pg.mp = true → (s.plotKind p = 0 ∨ s.plotKind p = 5) →
    Does (.plotMarchTest p true) s (fun t =>
      SameRegsBut [Reg.sextonMpTests] s t ∧
      (s.reg Reg.sextonMpTests ≠ BitVec.allOnes 32 → t.reg Reg.sextonMpTests = s.reg Reg.sextonMpTests + 1) ∧
      t.faults = s.faults ∧ t.mill = s.mill)) ∧
  -- plotMarchFails
  (∀ (p : Fin 384) (s : State),
    testRuns s 0 Pg.mp = true → s.plotKind p = 0 →
    Does (.plotMarchTest p false) s (fun t =>
      t.bit (Pg.sexton + hEvt) 0 = true ∧
      (s.reg Reg.sextonTestFails ≠ BitVec.allOnes 32 → t.reg Reg.sextonTestFails = s.reg Reg.sextonTestFails + 1))) ∧
  -- patrolScrub
  (∀ (err : ReadErr) (s : State),
    testRuns s 1 Pg.hbm = true → (err = .none ∨ err = .transient) →
    Does (.patrolScrub err) s (fun t =>
      t.eng.scrub = (if (s.eng.scrub + 1) * 64 < s.hbmEnd then s.eng.scrub + 1 else 0) ∧ SameMemory s t ∧ t.faults = s.faults ∧
      SameRegsBut [Reg.sextonScrubAddr, Reg.sextonScrubPasses, Pg.sexton + hEvt] s t)) ∧
  -- matrixPathTest
  (∀ (s : State),
    testRuns s 2 Pg.mtx = true →
    Does (.matrixPathTest true) s (fun t =>
      t.eng.mtxNext = (s.eng.mtxNext + 1) % 23 ∧ SameRegsBut [Reg.sextonMtxTests] s t ∧ t.faults = s.faults ∧
      (s.reg Reg.sextonMtxTests ≠ BitVec.allOnes 32 → t.reg Reg.sextonMtxTests = s.reg Reg.sextonMtxTests + 1))) ∧
  -- matrixPathFails
  (∀ (s : State),
    testRuns s 2 Pg.mtx = true →
    Does (.matrixPathTest false) s (fun t =>
      t.eng.mtxNext = (s.eng.mtxNext + 1) % 23 ∧
      t.bit (Pg.sexton + hEvt) 0 = true ∧ t.faults = s.faults ++ [⟨0x3007, Pg.mtx / 0x1000, s.eng.mtxNext, 0, s.stp.timeNs⟩])) ∧
  -- lanePrbsTest
  (∀ (n : Fin 10) (p : Fin 8) (s : State),
    testRuns s 3 (Pg.clp n) = true → laneRole s n p = 0 → laneSt s n p ≠ 6 →
    Does (.lanePrbsTest n p true) s (fun t =>
      SameRegsBut [Reg.sextonClpTests] s t ∧ t.faults = s.faults ∧
      (s.reg Reg.sextonClpTests ≠ BitVec.allOnes 32 → t.reg Reg.sextonClpTests = s.reg Reg.sextonClpTests + 1))) ∧
  -- lanePrbsFails
  (∀ (n : Fin 10) (p : Fin 8) (s : State),
    testRuns s 3 (Pg.clp n) = true → laneRole s n p = 0 → laneSt s n p ≠ 6 →
    Does (.lanePrbsTest n p false) s (fun t =>
      laneSt t n p = 6 ∧ t.bit (Pg.clp n + hEvt) 0 = true ∧ t.bit (Pg.sexton + hEvt) 0 = true ∧
      t.faults = s.faults ++ [⟨0x4001, Pg.clp n / 0x1000, n.val, p.val, s.stp.timeNs⟩])) ∧
  -- sextonEnableWrite
  (∀ (v : Bool) (s : State),
    s.answers Pg.sexton = true →
    Does (.sextonEnableWrite v) s (fun t =>
      t.enabled Pg.sexton = v ∧ (s.enabled Pg.sexton = true → v = false → t.eng.tail = [0, 1, 2, 3]) ∧
      SameRegsBut [Pg.sexton + hCtrl, Reg.watchGuarantee, Pg.watch + hEvt] s t ∧ t.faults = s.faults)) ∧
  -- sextonStatClr
  (∀ (s : State),
    s.answers Pg.sexton = true →
    Does (.sextonStatClr) s (fun t =>
      t.reg Reg.sextonEngTests = 0 ∧ t.reg Reg.sextonEngFails = 0 ∧ t.reg Reg.sextonMpTests = 0 ∧
      t.reg Reg.sextonScrubPasses = 0 ∧ t.reg Reg.sextonClpTests = 0 ∧ t.reg Reg.sextonMtxTests = 0 ∧
      t.reg Reg.sextonTestFails = 0 ∧ SameBut [.regs] s t))

/-- The STILE page is enabled and left, HELLOs are exchanged and the twins step in. ENABLE with the tests of Table 18-2 passed
starts HELLO without the role and withdraws the twin's path; a failed test reports its code and word. With no channel placed,
ENABLE 0 leaves twin operation and takes both paths back. An agreeing HELLO of the other identity is noted, one of the same
identity is refused with 0x0706. The primary names the next frame after 16 good heartbeats, takes the role there and is IN_STEP;
the mirror takes the primary's frame count at its frame start. (R386, R387, R391, R392, R394, 18_twin_operation.md) -/
def Obligations.TwinStepIn : Prop :=
  -- stileEnable
  (∀ (s : State),
    s.answers Pg.stile = true → s.enabled Pg.stile = false → stileTests s = none →
    Does (.stileEnable) s (fun t =>
      t.enabled Pg.stile = true ∧ t.bit (Pg.stile + hStatus) 0 = true ∧ t.reg Reg.stileState = 1 ∧
      t.bit (Pg.stile + hEvt) 9 = true ∧ pathWithdrawn t (!(isMirror s)) = true ∧ t.twin = TwinSt.init)) ∧
  -- stileEnableRefused
  (∀ (code word : Nat) (s : State),
    s.answers Pg.stile = true → s.enabled Pg.stile = false → stileTests s = some (code, word) →
    Does (.stileEnable) s (fun t =>
      t.enabled Pg.stile = false ∧ t.bit (Pg.stile + hStatus) 1 = true ∧
      t.reg (Pg.stile + hRefuse) = BitVec.ofNat 32 (code + word * 0x10000) ∧ t.twin = s.twin ∧ t.etm = s.etm)) ∧
  -- stileDisable
  (∀ (s : State),
    s.answers Pg.stile = true → s.enabled Pg.stile = true → anyChannelPlaced s = false →
    Does (.stileDisable) s (fun t =>
      t.enabled Pg.stile = false ∧ t.reg Reg.stileState = 0 ∧ t.etm.withdrawn = (false, false) ∧ t.twin = TwinSt.init ∧
      t.faults = s.faults)) ∧
  -- hello
  (∀ (m : HelloMsg) (s : State),
    s.enabled Pg.stile = true → stepSt s = 1 → m.ident ≠ isMirror s → m.raster = s.reg Reg.stpRaster → m.sel = srcSel s →
    m.stepping = 0xB0 →
    Does (.hello m) s (fun t =>
      t.twin.agreed = true ∧ t.twin.named = (if isMirror s then m.named else s.twin.named) ∧ SameBut [.twin] s t)) ∧
  -- helloRefused
  (∀ (m : HelloMsg) (s : State),
    s.enabled Pg.stile = true → stepSt s = 1 → m.ident = isMirror s →
    Does (.hello m) s (fun t =>
      t.twin.agreed = false ∧ t.twin.named = none ∧ t.bit (Pg.stile + hStatus) 1 = true ∧
      t.reg (Pg.stile + hRefuse) = BitVec.ofNat 32 (0x0706 + wordOf Reg.stileCfg * 0x10000))) ∧
  -- helloSend
  (∀ (s : State),
    s.enabled Pg.stile = true → stepSt s = 1 → isMirror s = false → s.twin.agreed = true → 16 ≤ s.twin.hbRun →
    Does (.helloSend) s (fun t =>
      t.twin.named = some (s.frame + 1) ∧
      t.sent = .hello ⟨false, s.reg Reg.stpRaster, Fin.ofNat 8 (srcSel s), 0xB0, some (s.frame + 1)⟩
        (stileRows s 0x16 (helloBytes ⟨false, s.reg Reg.stpRaster, Fin.ofNat 8 (srcSel s), 0xB0, some (s.frame + 1)⟩)) :: s.sent ∧
      SameBut [.twin, .sent] s t)) ∧
  -- stepInPrimary
  (∀ (f : BitVec 32) (s : State),
    s.enabled Pg.stile = true → stepSt s = 1 → s.running = true → s.twin.named = some f → isMirror s = false →
    Does (.stepIn) s (fun t =>
      stepSt t = 2 ∧ t.bit Reg.stileState 3 = true ∧ t.bit (Pg.stile + hEvt) 0 = true ∧ t.bit (Pg.stile + hEvt) 8 = true ∧
      t.twin.named = none ∧ t.stp.pos = (s.toPos (posOf f 0)).stp.pos ∧
      t.faults = s.faults ++ [⟨0x7005, Pg.stile / 0x1000, 1, 0, s.stp.timeNs⟩])) ∧
  -- stepInMirror
  (∀ (f : BitVec 32) (s : State),
    s.enabled Pg.stile = true → stepSt s = 1 → s.running = true → s.twin.named = some f → isMirror s = true → s.inFrame = 0 →
    Does (.stepIn) s (fun t =>
      stepSt t = 2 ∧ t.bit (Pg.stile + hEvt) 0 = true ∧ t.twin.named = none ∧ t.frame = f ∧ t.inFrame = 0 ∧
      t.faults = s.faults))

/-- Heartbeats and beacons measure the twin and hold the routes up; their loss takes a route down. Every sent heartbeat and beacon
carries the position and STATE. A received heartbeat writes PHASE; one outside the range sets event 1 and ends the run of good
ones; a valid one on a good link brings the Stile route up. A beacon brings the network route up and ends a hold-off. The loss
of a route clears its STATE bit, counts, sets its event and raises 0x7001, or 0x7004 for the network or where both are down; a
device in step without the role then starts its hold-off. (R390, R393, R399, R401, R402, R403, R405, 18_twin_operation.md) -/
def Obligations.HeartbeatsAndRoutes : Prop :=
  -- heartbeatSend
  (∀ (s : State),
    s.enabled Pg.stile = true → s.running = true → s.inFrame % (64 * 262144) = 0 →
    Does (.heartbeatSend) s (fun t =>
      (match t.sent.head? with
        | some (.heartbeat m rows) => m.sentPos = s.stp.pos ∧ m.state = (s.reg Reg.stileState).setWidth 14 ∧ rows = stileRows s 0x10 (heartbeatBytes m)
        | _ => False) ∧
      t.stp = s.stp ∧ t.sent.length = s.sent.length + 1 ∧ SameBut [.sent] s t)) ∧
  -- beaconSend
  (∀ (s : State),
    s.enabled Pg.stile = true →
    Does (.beaconSend) s (fun t =>
      (match t.sent.head? with
        | some (.beacon m p bytes) =>
          m.sentPos = s.stp.pos ∧ m.state = (s.reg Reg.stileState).setWidth 14 ∧ p = (if isMirror s then 4 else 0) ∧ bytes = beaconFrame s p m
        | _ => False) ∧
      t.sent.length = s.sent.length + 1 ∧ SameBut [.sent] s t)) ∧
  -- heartbeat
  (∀ (m : HeartbeatMsg) (s : State),
    s.enabled Pg.stile = true → (hbMeasure s m).2.natAbs ≤ 32768 → (linkState s 16 = 2 ∨ linkState s 16 = 3) →
    Does (.heartbeat m) s (fun t =>
      t.reg Reg.stilePhase = BitVec.ofNat 32 (satInt 32 (hbMeasure s m).2) ∧ stileUp t = true ∧
      t.twin.hbRun = min 16 (s.twin.hbRun + 1) ∧ t.twin.lastHb = some (m, s.stp.pos) ∧ t.twin.twinCtrl = m.state.getLsbD 3 ∧
      t.twin.holdoff = none)) ∧
  -- heartbeatInvalid
  (∀ (m : HeartbeatMsg) (s : State),
    s.enabled Pg.stile = true → 65536 < (hbMeasure s m).2.natAbs →
    Does (.heartbeat m) s (fun t =>
      t.reg Reg.stilePhase = BitVec.ofNat 32 (satInt 32 (hbMeasure s m).2) ∧ t.bit (Pg.stile + hEvt) 1 = true ∧
      t.twin.hbRun = 0 ∧ stileUp t = stileUp s ∧ t.twin.lastHb = some (m, s.stp.pos))) ∧
  -- beacon
  (∀ (m : HeartbeatMsg) (s : State),
    s.enabled Pg.stile = true →
    Does (.beacon m) s (fun t =>
      netUp t = true ∧ t.twin.holdoff = none ∧ t.twin.twinCtrl = m.state.getLsbD 3 ∧ t.faults = s.faults)) ∧
  -- twinHeartbeatLost
  (∀ (s : State),
    s.enabled Pg.stile = true → netUp s = true →
    Does (.twinHeartbeatLost) s (fun t =>
      netUp t = false ∧ t.bit (Pg.stile + hEvt) 3 = true ∧
      t.faults = s.faults ++ [⟨0x7004, Pg.stile / 0x1000, 1, 0, s.stp.timeNs⟩] ∧
      (stepSt s = 2 → stileUp s = false → s.bit Reg.stileState 3 = false → t.twin.holdoff.isSome = true))) ∧
  -- stileDown
  (∀ (s : State),
    s.enabled Pg.stile = true → stileUp s = true →
    Does (.stileDown) s (fun t =>
      stileUp t = false ∧ t.bit Reg.stileState 10 = false ∧ t.bit (Pg.stile + hEvt) 2 = true ∧
      t.faults = s.faults ++ [⟨if netUp s then 0x7001 else 0x7004, Pg.stile / 0x1000, 0, 0, s.stp.timeNs⟩] ∧
      (stepSt s = 2 → netUp s = false → s.bit Reg.stileState 3 = false → t.twin.holdoff.isSome = true)))

/-- Slices and digests are compared, and a mismatch is resolved as R395 to R397 say. A received record without an own partner waits
while the Stile is up; one that differs from its partner counts, marks the channel diverged, names it in LAST_MISMATCH with
event 4 and raises 0x7003, and a resolution starts. A record without a partner is counted. A received digest is shown. The own
targeted test, once its engine is free, writes its result and sends it; the twin's result is noted. A resolution that both
passed counts as unresolved with 0x7002; one that only this device failed withdraws its path with event 6. (R395, R396, R397,
R399, 18_twin_operation.md) -/
def Obligations.TwinComparisonAndResolution : Prop :=
  -- sliceCrcWaits
  (∀ (r : CrcRec) (s : State),
    s.twinUp = true → (s.twin.own.find? (samePlace r)) = none →
    Does (.sliceCrc [r]) s (fun t =>
      t.twin.twin = s.twin.twin ++ [r] ∧ t.twin.own = s.twin.own ∧ SameBut [.twin] s t)) ∧
  -- sliceCrcMismatch
  (∀ (r q : CrcRec) (s : State),
    s.twinUp = true → (s.twin.own.find? (samePlace r)) = some q → q.crc ≠ r.crc →
    s.twin.diverged.contains r.channel.val = false → s.twin.resolving = none →
    Does (.sliceCrc [r]) s (fun t =>
      t.twin.diverged.contains r.channel.val = true ∧ t.reg Reg.stileLastMismatch = BitVec.ofNat 32 (recWord q) ∧
      t.bit (Pg.stile + hEvt) 4 = true ∧ t.twin.resolving.isSome = true ∧ t.bit Reg.stileState 13 = true ∧
      t.twin.own = s.twin.own.erase q ∧
      t.faults = s.faults ++ [⟨0x7003, Pg.stile / 0x1000, q.channel.val, recWord q - q.channel.val, s.stp.timeNs⟩])) ∧
  -- crcMissing
  (∀ (r : CrcRec) (s : State),
    s.twin.own.contains r = true →
    Does (.crcMissing true r) s (fun t =>
      t.twin.own = s.twin.own.erase r ∧ t.twin.twin = s.twin.twin ∧ SameRegsBut [Reg.stileCrcMissing] s t ∧
      (s.reg Reg.stileCrcMissing ≠ BitVec.allOnes 32 → t.reg Reg.stileCrcMissing = s.reg Reg.stileCrcMissing + 1))) ∧
  -- digest
  (∀ (f : BitVec 32) (place cfg : BitVec 64) (s : State),
    s.inStep = true →
    Does (.digest f place cfg) s (fun t =>
      t.reg64 Reg.stileTwinPlaceLo Reg.stileTwinPlaceHi = place ∧ t.reg64 Reg.stileTwinCfgLo Reg.stileTwinCfgHi = cfg ∧
      (s.twin.ownDigest = some (f, place, cfg) → t.bit Reg.stileState 11 = false ∧ t.bit Reg.stileState 12 = false ∧ t.twin.agreedEpoch = true))) ∧
  -- targetedTestComplete
  (∀ (step : Nat) (x : Resolve) (s : State),
    s.twin.resolving = some x → s.getF Reg.stileResolve 1 0 = 0 → s.slotOf x.engine = none → s.twinUp = true →
    Does (.targetedTestComplete step) s (fun t =>
      t.getF Reg.stileResolve 1 0 = (if step = 0 then 1 else 2) ∧ t.twin.resolving = some { x with step := step } ∧
      t.sent = .testResult x.channel x.rend x.tile x.row x.engine (decide (step = 0)) (stileRows s 0x13 (resultBytes x (decide (step = 0)))) :: s.sent ∧
      SameBut [.regs, .twin, .sent] s t)) ∧
  -- testResult
  (∀ (n : Fin 128) (r : Fin 4) (k : Fin 8) (j : Fin 256) (e : Fin 34) (pass : Bool) (x : Resolve) (s : State),
    s.twin.resolving = some x → sameSlice x n r k j = true →
    Does (.testResult n r k j e pass) s (fun t =>
      t.getF Reg.stileResolve 3 2 = (if pass then 1 else 2) ∧
      t.twin.resolving = some { x with twinRes := if pass then 1 else 2 } ∧ SameRegsBut [Reg.stileResolve] s t ∧
      SameBut [.regs, .twin] s t)) ∧
  -- resolutionEndBothPass
  (∀ (x : Resolve) (s : State),
    s.twin.resolving = some x → s.twin.waiting = [] → s.getF Reg.stileResolve 1 0 = 1 → s.getF Reg.stileResolve 3 2 = 1 →
    Does (.resolutionEnd) s (fun t =>
      t.twin.resolving = none ∧ t.bit Reg.stileState 13 = false ∧ t.bit (Pg.stile + hEvt) 5 = true ∧
      (s.reg Reg.stileUnresolved ≠ BitVec.allOnes 32 → t.reg Reg.stileUnresolved = s.reg Reg.stileUnresolved + 1) ∧
      t.faults = s.faults ++ [⟨0x7002, Pg.stile / 0x1000, x.channel, x.rend * 0x100 + x.tile * 0x400 + x.row * 0x10000, s.stp.timeNs⟩])) ∧
  -- resolutionEndOwnFails
  (∀ (x : Resolve) (s : State),
    s.twin.resolving = some x → x.engine < 34 → s.twin.waiting = [] → s.getF Reg.stileResolve 1 0 = 2 →
    s.getF Reg.stileResolve 3 2 = 1 →
    Does (.resolutionEnd) s (fun t =>
      t.twin.resolving = none ∧ t.bit Reg.stileState 6 = true ∧ t.bit (Pg.stile + hEvt) 6 = true ∧
      pathWithdrawn t (isMirror s) = true ∧
      (t.faults.contains ⟨0x2002, Pg.ee x.engine / 0x1000, x.engine, x.step, s.stp.timeNs⟩) = true))

/-- A resync is requested, scheduled and applied, and the role is swapped, as R398 to R400 and R406 say. RESYNC_GO with the Stile up
sends the mask with the third frame start from now and schedules its channels; with the route down it only sets event 13. A
received RESYNC and SWAP schedule theirs. At the named frame the channels are no longer diverged, event 12 is set, and a
withdrawn path returns with event 7. ROLE_SWAP with the Stile up and nothing under way schedules the third frame start;
otherwise it is refused with 0x0705. At the swap's frame the controller drops the role and the other takes it, with the outputs
handed over until three frames later. A SWAP that arrives as a good CLP packet on CLP8 does the same; a packet of no TYPE of Table 18-1,
or of another STREAM, changes nothing but its link. (R389, R398, R399, R400, R406, R407, 18_twin_operation.md) -/
def Obligations.ResyncAndSwaps : Prop :=
  -- resyncGo
  (∀ (s : State),
    s.answers Pg.stile = true → s.twinUp = true → resyncMask s ≠ 0 → s.twin.resyncs = [] →
    Does (.resyncGo) s (fun t =>
      t.sent = .resync (resyncMask s) (s.frame + 3) (stileRows s 0x14 (resyncBytes (resyncMask s) (s.frame + 3))) :: s.sent ∧
      t.twin.resyncs = (maskChans (resyncMask s)).map (fun n => (n, s.frame + 3)) ∧ SameBut [.twin, .sent] s t)) ∧
  -- resyncGoDown
  (∀ (s : State),
    s.answers Pg.stile = true → s.twinUp = false →
    Does (.resyncGo) s (fun t =>
      t = s.evt Pg.stile 13)) ∧
  -- resync
  (∀ (m : BitVec 128) (f : BitVec 32) (s : State),
    s.inStep = true → s.twin.resyncs = [] →
    Does (.resync m f) s (fun t =>
      t.twin.resyncs = (maskChans m).map (fun n => (n, f)) ∧ SameBut [.twin] s t)) ∧
  -- resyncApplied
  (∀ (f : BitVec 32) (s : State),
    nextResync s = some f → s.running = true →
    Does (.resyncApplied) s (fun t =>
      t.bit (Pg.stile + hEvt) 12 = true ∧ t.bit Reg.stileState 6 = false ∧
      (t.twin.resyncs.all (fun e => decide (e.2 ≠ f))) = true ∧
      (s.twin.resyncs.all (fun e => decide (e.2 = f → t.twin.diverged.contains e.1 = false))) = true ∧
      (s.bit Reg.stileState 6 = true → t.bit (Pg.stile + hEvt) 7 = true ∧ pathWithdrawn t (isMirror s) = false))) ∧
  -- roleSwap
  (∀ (s : State),
    s.answers Pg.stile = true → s.twinUp = true → s.twin.swapAt = none → s.twin.resolving = none →
    Does (.roleSwap) s (fun t =>
      t.twin.swapAt = some (s.frame + 3) ∧ t.sent = .swap (s.frame + 3) (stileRows s 0x15 (leBytes 4 (s.frame + 3).toNat)) :: s.sent ∧ SameBut [.twin, .sent] s t)) ∧
  -- roleSwapRefused
  (∀ (s : State),
    s.answers Pg.stile = true → (s.twinUp = false ∨ s.twin.swapAt.isSome = true ∨ s.twin.resolving.isSome = true) →
    Does (.roleSwap) s (fun t =>
      t.reg (Pg.stile + hRefuse) = 0x00010705 ∧ t.bit (Pg.stile + hStatus) 1 = true ∧ t.bit (Pg.stile + hEvt) 13 = true ∧
      t.twin = s.twin ∧ t.sent = s.sent)) ∧
  -- swap
  (∀ (f : BitVec 32) (s : State),
    s.inStep = true → s.twin.swapAt = none →
    Does (.swap f) s (fun t =>
      t.twin.swapAt = some f ∧ SameBut [.twin] s t)) ∧
  -- swapAppliedTakes
  (∀ (f : BitVec 32) (s : State),
    s.twin.swapAt = some f → s.running = true → s.bit Reg.stileState 3 = false →
    Does (.swapApplied) s (fun t =>
      t.bit Reg.stileState 3 = true ∧ t.bit (Pg.stile + hEvt) 8 = true ∧ t.twin.swapAt = none ∧
      t.twin.handover = some ((s.toPos (posOf f 0)).frame + 3) ∧ t.stp.pos = (s.toPos (posOf f 0)).stp.pos ∧
      t.faults = s.faults ++ [⟨0x7005, Pg.stile / 0x1000, 1, 0, s.stp.timeNs⟩])) ∧
  -- swapAppliedDrops
  (∀ (f : BitVec 32) (s : State),
    s.twin.swapAt = some f → s.running = true → s.bit Reg.stileState 3 = true →
    Does (.swapApplied) s (fun t =>
      t.bit Reg.stileState 3 = false ∧ t.bit (Pg.stile + hEvt) 9 = true ∧ t.twin.swapAt = none ∧ t.faults = s.faults ∧
      t.twin.handover = s.twin.handover)) ∧
  -- roleOutputHandoverEnd
  (∀ (f : BitVec 32) (s : State),
    s.twin.handover = some f →
    Does (.roleOutputHandoverEnd) s (fun t =>
      t.twin.handover = none ∧ t.stp.pos = (s.toPos (posOf f 0)).stp.pos ∧ t.faults = s.faults)) ∧
  -- clpPacketSwap
  (∀ (chars : List LaneGroup) (bytes : List (BitVec 8)) (w : Word) (pl : List Nat) (s : State),
    s.enabled (Pg.clp 8) = true → 2 ≤ linkState s 16 → rowVote s 16 chars = (true, 0xFD) → bytes = (link s 16).packet →
    (link s 16).dead = false → openPacket (bytes.map BitVec.toNat) = some (0x15, 0, w, pl) → s.inStep = true → s.twin.swapAt = none →
    Does (.clpPacket 8 false chars) s (fun t =>
      t.twin.swapAt = some (BitVec.ofNat 32 (payloadAt pl 0 4)) ∧ (link t 16).packet = [] ∧ t.faults = s.faults ∧
      SameBut [.regs, .clp, .twin] s t)) ∧
  -- clpPacketOfAnotherType
  (∀ (chars : List LaneGroup) (bytes : List (BitVec 8)) (type k : Nat) (w : Word) (pl : List Nat) (s : State),
    s.enabled (Pg.clp 8) = true → 2 ≤ linkState s 16 → rowVote s 16 chars = (true, 0xFD) → bytes = (link s 16).packet →
    (link s 16).dead = false → openPacket (bytes.map BitVec.toNat) = some (type, k, w, pl) → (k ≠ 0 ∨ type < 0x10 ∨ 0x16 < type) →
    Does (.clpPacket 8 false chars) s (fun t =>
      (link t 16).packet = [] ∧ SameBut [.regs, .clp] s t ∧
      SameRegsBut ((List.range 8).flatMap (fun p => [Reg.clpLaneCv 8 p, Reg.clpLaneDisp 8 p])) s t))

/-- The hold-off, the token and a doubled role end as R403 to R405 say. At the end of a hold-off with both routes down a device
without the role reads the token: high, it takes the role with 0x7005; low, it waits for the next frame start. Read back by a
device that holds the role, a high token sets the disagreement bit and event 10, and a low one clears it. A mirror that holds
the role twice over releases it at the next frame start. (R403, R404, R405, 18_twin_operation.md) -/
def Obligations.HoldoffTokenAndDualRole : Prop :=
  -- holdoffTakes
  (∀ (f : BitVec 32) (s : State),
    s.twin.holdoff = some f → s.enabled Pg.stile = true → s.running = true → stileUp s = false → netUp s = false →
    s.bit Reg.stileState 3 = false →
    Does (.holdoffExpired true) s (fun t =>
      t.bit Reg.stileState 3 = true ∧ t.bit Reg.stileState 7 = true ∧ t.twin.holdoff = none ∧ t.pins.token = true ∧
      t.faults = s.faults ++ [⟨0x7005, Pg.stile / 0x1000, 1, 0, s.stp.timeNs⟩])) ∧
  -- holdoffWaits
  (∀ (f : BitVec 32) (s : State),
    s.twin.holdoff = some f → s.enabled Pg.stile = true → s.running = true → stileUp s = false → netUp s = false →
    s.bit Reg.stileState 3 = false →
    Does (.holdoffExpired false) s (fun t =>
      t.bit Reg.stileState 3 = false ∧ t.bit Reg.stileState 7 = false ∧
      t.twin.holdoff = some ((s.toPos (posOf f 0)).frame + 1) ∧ t.faults = s.faults)) ∧
  -- tokenReadback
  (∀ (high : Bool) (s : State),
    s.running = true → s.hasRole = true →
    Does (.tokenReadback high) s (fun t =>
      t.bit Reg.stileState 7 = high ∧ t.bit Reg.stileState 8 = high ∧ t.pins.token = high ∧
      (high = true → t.bit (Pg.stile + hEvt) 10 = true) ∧ SameRegsBut [Reg.stileState, Pg.stile + hEvt] s t)) ∧
  -- dualRelease
  (∀ (s : State),
    s.bit Reg.stileState 9 = true → isMirror s = true → s.running = true →
    Does (.dualRelease) s (fun t =>
      t.bit Reg.stileState 3 = false ∧ t.bit Reg.stileState 9 = false ∧ t.bit (Pg.stile + hEvt) 9 = true ∧ t.inFrame = 0 ∧
      t.faults = s.faults))

/-- Mode requests are recorded or refused, and take effect as R410 to R413 say. A request that Table 19-2 holds and R411 does not
refuse is recorded with its AT; a refused one leaves the request as it stands, reports the reason and sets DEV event 1. TEST is
entered at once. At the frame start a SERVICE request enters SERVICE, or DEGRADED while a cause stands, sets DEV event 0 and
starts a snapshot; a COMMISSION request enters COMMISSION and every running channel stops at the end of its frame. (R368, R410,
R411, R413, 19_modes_startup_power.md) -/
def Obligations.ModeRequestsTakeEffect : Prop :=
  -- modeReqCommission
  (∀ (k : BitVec 16) (s : State),
    s.inReset = false → requestRefusal s 1 = none →
    Does (.modeReqCommission k) s (fun t =>
      t.reg Reg.devModeReq = BitVec.ofNat 32 (1 + k.toNat * 0x10000) ∧ SameRegsBut [Reg.devModeReq] s t ∧ SameBut [.regs] s t)) ∧
  -- modeReqService
  (∀ (k : BitVec 16) (s : State),
    s.inReset = false → requestRefusal s 2 = none →
    Does (.modeReqService k) s (fun t =>
      t.reg Reg.devModeReq = BitVec.ofNat 32 (2 + k.toNat * 0x10000) ∧ SameRegsBut [Reg.devModeReq] s t ∧ SameBut [.regs] s t)) ∧
  -- modeReqRefused
  (∀ (k : BitVec 16) (code : Nat) (s : State),
    s.inReset = false → requestRefusal s 2 = some code →
    Does (.modeReqService k) s (fun t =>
      t.reg Reg.devModeReq = s.reg Reg.devModeReq ∧ t.reg (Pg.dev + hRefuse) = BitVec.ofNat 32 (code + 0x10000) ∧
      t.bit (Pg.dev + hStatus) 1 = true ∧ t.bit (Pg.dev + hEvt) 1 = true ∧ t.mode = s.mode)) ∧
  -- modeReqTest
  (∀ (k : BitVec 16) (s : State),
    s.inReset = false → requestRefusal s 5 = none →
    Does (.modeReqTest k) s (fun t =>
      t.mode = 5 ∧ t.getF Reg.devModeReq 2 0 = 0 ∧ t.bit (Pg.dev + hEvt) 0 = true ∧ t.chans = s.chans ∧ t.faults = s.faults)) ∧
  -- modeChangeService
  (∀ (s : State),
    s.inReset = false → s.running = true → s.inFrame = 0 → s.mode = 1 → s.getF Reg.devModeReq 2 0 = 2 →
    s.getF Reg.devModeReq 31 16 = 0 →
    Does (.modeChange) s (fun t =>
      t.mode = (if s.getF Reg.watchDegrCause 9 0 = 0 then 2 else 3) ∧ t.getF Reg.devModeReq 2 0 = 0 ∧
      t.bit (Pg.dev + hEvt) 0 = true ∧ (s.book.closed = false → t.bit (Pg.pbook + hEvt) 7 = true) ∧
      t.boot.svcAt = some s.frame)) ∧
  -- modeChangeCommission
  (∀ (s : State),
    s.inReset = false → s.running = true → s.inFrame = 0 → (s.mode = 2 ∨ s.mode = 3) → s.getF Reg.devModeReq 2 0 = 1 →
    s.getF Reg.devModeReq 31 16 = 0 →
    Does (.modeChange) s (fun t =>
      t.mode = 1 ∧ t.getF Reg.devModeReq 2 0 = 0 ∧ t.bit (Pg.dev + hEvt) 0 = true ∧
      ((s.chans.filter (fun e => e.2.running)).all (fun e => (t.chan e.1).stopping)) = true ∧ t.faults = s.faults))

/-- Resets return the device to BOOT and keep what survives, and the PCIe link resets alone. POR_N resets at once and loses the
staged lines; RESET_N and SWRESET with its key commit them first; each leaves BOOT and its bit alone in RESET_CAUSE; POR_N and
RESET_N keep the fuses, and POR_N the Book's lines. Any other key does nothing. The release of a reset changes the pins alone. A
hot reset takes the endpoint's link and MSI-X down; a link that trains up is seen. A clock's presence and REF_CLK_IN's loss only
show in CLK_STAT. (R316, R318, R409, R416, R417, 19_modes_startup_power.md) -/
def Obligations.ResetsAndLinks : Prop :=
  -- porN
  (∀ (s : State),
    s.inReset = false →
    Does (.porN) s (fun t =>
      t.reg Reg.devResetCause = 1 ∧ t.mode = 0 ∧ t.inReset = true ∧ t.book.staged = [] ∧ t.book.lines = s.book.lines ∧
      t.reg Reg.devFuseStat = s.reg Reg.devFuseStat ∧ t.chans = [] ∧ t.faults = [] ∧ t.stp.pos = 0)) ∧
  -- porNAgain
  (∀ (s : State),
    s.inReset = true →
    Does (.porN) s (fun t =>
      t.bit Reg.devResetCause 0 = true ∧ t.pins.porLow = true ∧ SameRegsBut [Reg.devResetCause] s t ∧ t.book = s.book)) ∧
  -- resetN
  (∀ (s : State),
    s.inReset = false →
    Does (.resetN) s (fun t =>
      t.reg Reg.devResetCause = 2 ∧ t.mode = 0 ∧ t.inReset = true ∧ t.book.staged = [] ∧
      t.book.lines = (commitLines s).book.lines ∧ t.reg Reg.devFuseStat = s.reg Reg.devFuseStat ∧ t.chans = [])) ∧
  -- swreset
  (∀ (s : State),
    s.inReset = false →
    Does (.swreset 0xA5C3) s (fun t =>
      t.reg Reg.devResetCause = 4 ∧ t.mode = 0 ∧ t.book.staged = [] ∧ t.book.lines = (commitLines s).book.lines ∧
      t.chans = [])) ∧
  -- swresetKey
  (∀ (key : BitVec 16) (s : State),
    key ≠ 0xA5C3 →
    Does (.swreset key) s (fun t =>
      t = s)) ∧
  -- resetRelease
  (∀ (s : State),
    Does (.resetRelease) s (fun t =>
      t.inReset = false ∧ t.pins.pwrFailLow = s.pins.pwrFailLow ∧ SameBut [.pins] s t)) ∧
  -- pcieHotReset
  (∀ (s : State),
    Does (.pcieHotReset) s (fun t =>
      t.pins.pcieUp = false ∧ t.pins.msixOn = false ∧ t.bit Reg.belfryEligible 8 = false ∧ t.mode = s.mode ∧
      t.chans = s.chans)) ∧
  -- pcieLinkUp
  (∀ (s : State),
    s.inReset = false →
    Does (.pcieLinkUp) s (fun t =>
      t.pins.pcieUp = true ∧ t.pins.msixOn = s.pins.msixOn ∧ t.mode = s.mode ∧ t.chans = s.chans)) ∧
  -- clockLost
  (∀ (s : State),
    s.inReset = false →
    Does (.clockLost .refClk) s (fun t =>
      t.bit Reg.devClkStat 4 = false ∧ SameRegsBut [Reg.devClkStat] s t ∧ SameBut [.regs] s t)) ∧
  -- clockLostPorts
  (∀ (s : State),
    s.inReset = false → s.mode ≠ 0 →
    Does (.clockLost .eth0) s (fun t =>
      t.bit Reg.devClkStat 0 = false ∧ (∀ k < 4, t.bit (Reg.ethLink 0) k = false ∧ t.bit (Reg.ethLink 2) k = false) ∧
      t.reg (Reg.ethLink 1) = s.reg (Reg.ethLink 1) ∧ t.reg (Reg.ethLink 3) = s.reg (Reg.ethLink 3))) ∧
  -- clockPresent
  (∀ (c : ClockId) (s : State),
    s.inReset = false →
    Does (.clockPresent c) s (fun t =>
      t.bit Reg.devClkStat (clockBit c) = true ∧ SameRegsBut [Reg.devClkStat] s t ∧ SameBut [.regs] s t))

/-- Each boot stage ends in the next one or halts with its error. Good clocks lead from ROM and CLOCKS to HBM training, a bad one
halts with error 1; training leaves each controller ACTIVE or RETIRED and needs 16; the image is stored and checked in slot A,
then B, or halts with its error; the cores, the Book's heads and the engines follow, with failed engines disabled; CONFIG
applies its record, notes BOOT_TIME and enters COMMISSION. ROLLBACK_COMMIT raises the fuse count to the image's. (R336, R339,
R420, R421, R422, R423, R425, R426, R427, 19_modes_startup_power.md) -/
def Obligations.BootStagesAdvance : Prop :=
  -- clocks
  (∀ (s : State),
    (booting s 0 = true ∨ booting s 1 = true) →
    Does (.clocks false) s (fun t =>
      booting t 2 = true ∧ t.getF Reg.devClkStat 3 0 = 15 ∧ SameRegsBut [Reg.devBootStat, Reg.devClkStat] s t)) ∧
  -- clocksBad
  (∀ (s : State),
    (booting s 0 = true ∨ booting s 1 = true) →
    Does (.clocks true) s (fun t =>
      t.getF Reg.devBootStat 3 0 = 15 ∧ t.getF Reg.devBootStat 15 8 = 1 ∧ t.faults = s.faults)) ∧
  -- hbmTraining
  (∀ (trained : BitVec 32) (s : State),
    booting s 2 = true → 16 ≤ popcount (s.reg Reg.hbmActive &&& trained) →
    Does (.hbmTraining trained) s (fun t =>
      booting t 3 = true ∧ (∀ c < 32, pchSt t c = (if trained.getLsbD c then 1 else 7)) ∧
      t.reg Reg.hbmActive = s.reg Reg.hbmActive &&& trained)) ∧
  -- hbmTrainingFails
  (∀ (trained : BitVec 32) (s : State),
    booting s 2 = true → popcount (s.reg Reg.hbmActive &&& trained) < 16 →
    Does (.hbmTraining trained) s (fun t =>
      t.getF Reg.devBootStat 3 0 = 15 ∧ t.getF Reg.devBootStat 15 8 = 7 ∧ t.mode = 0)) ∧
  -- imageLoad
  (∀ (image : List (BitVec 8)) (s : State),
    booting s 3 = true → image.length ≤ 62914560 →
    Does (.imageLoad image) s (fun t =>
      booting t 4 = true ∧ (∀ i < image.length, t.memByte (imageAddr + i) = image.getD i 0) ∧ SameBut [.regs, .mem] s t)) ∧
  -- imageVerify
  (∀ (a b payload : List (BitVec 8)) (s : State),
    booting s 4 = true →
    Does (.imageVerify a b payload) s (fun t =>
      (slotAError s (a.map BitVec.toNat) = 0 →
        booting t 5 = true ∧ t.bit Reg.devBootStat 4 = false ∧ t.getF Reg.devImgVer 5 0 = imageRollback (a.map BitVec.toNat) % 64 ∧
        t.boot.slotRollback = imageRollback (a.map BitVec.toNat) ∧ SameMemory s t) ∧
      (slotAError s (a.map BitVec.toNat) ≠ 0 → slotBError s (b.map BitVec.toNat) payload = 0 →
        booting t 5 = true ∧ t.bit Reg.devBootStat 4 = true ∧ t.bit Reg.devBootStat 5 = true ∧ t.bit (Pg.dev + hEvt) 3 = true ∧
        t.getF Reg.devImgVer 5 0 = imageRollback (b.map BitVec.toNat) % 64) ∧
      (slotAError s (a.map BitVec.toNat) ≠ 0 → slotBError s (b.map BitVec.toNat) payload ≠ 0 →
        t.getF Reg.devBootStat 3 0 = 15 ∧ t.getF Reg.devBootStat 15 8 = slotAError s (a.map BitVec.toNat) ∧ t.mode = 0))) ∧
  -- imageVerifyNoHeader
  (∀ (a b payload : List (BitVec 8)) (s : State),
    booting s 4 = true → headerOk (a.map BitVec.toNat) = false → headerOk (b.map BitVec.toNat) = false →
    Does (.imageVerify a b payload) s (fun t =>
      t.getF Reg.devBootStat 3 0 = 15 ∧ t.getF Reg.devBootStat 15 8 = 2 ∧ t.mode = 0 ∧ SameMemory s t)) ∧
  -- imageChecks
  (∀ (h payload : List Nat) (s : State),
    (headerOk h = true → headField h 0x010 1 < 4 → s.bit Reg.devFuseStat (4 + headField h 0x010 1) = true → imageError s h payload = 3) ∧
    (headerOk h = true → 4 ≤ imageError s h payload ∨ imageError s h payload = 0 → (imageError s h payload = 4 ↔ imageRollback h < s.getF Reg.devFuseStat 22 16)) ∧
    imageError s h payload ≤ 6) ∧
  -- cores
  (∀ (s : State),
    booting s 5 = true →
    Does (.cores) s (fun t =>
      booting t 6 = true ∧ t.faults = s.faults)) ∧
  -- book
  (∀ (s : State),
    booting s 6 = true →
    Does (.book) s (fun t =>
      booting t 7 = true ∧ (∀ k < 3, t.reg (Reg.pbookAreaHead k) = BitVec.ofNat 32 (s.bookCount k)) ∧ t.book = s.book)) ∧
  -- engines
  (∀ (passed : BitVec 34) (s : State),
    booting s 7 = true →
    Does (.engines passed) s (fun t =>
      booting t 8 = true ∧ (∀ e < 34, passed.getLsbD e = false → t.enabled (Pg.ee e) = false) ∧
      (passed = BitVec.allOnes 34 → t.faults = s.faults))) ∧
  -- config
  (∀ (record : List (BitVec 26 × BitVec 32)) (ms : Nat) (s : State),
    booting s 8 = true → booting (applyRecord s record) 8 = true →
    Does (.config record ms) s (fun t =>
      t.mode = 1 ∧ t.getF Reg.devBootStat 3 0 = 9 ∧ t.reg Reg.devBootTime = BitVec.ofNat 32 ms ∧
      t.bit (Pg.dev + hEvt) 0 = true ∧ t.boot.applying = false)) ∧
  -- rollbackCommit
  (∀ (s : State),
    s.inReset = false → s.mode = 1 → s.getF Reg.devFuseStat 22 16 < s.getF Reg.devImgVer 5 0 →
    Does (.rollbackCommit) s (fun t =>
      t.getF Reg.devFuseStat 22 16 = s.getF Reg.devImgVer 5 0 ∧ SameRegsBut [Reg.devFuseStat] s t ∧ SameBut [.regs] s t))

/-- PWR_FAIL_N commits the staged lines and closes the Book, which reopens later. On the assertion the fault PWR_FAIL is logged in
LAST_CODE, every staged line is committed, the Book closes and PWR_STAT shows both; a second assertion changes nothing. When the
pin rises PWR_STAT bit 0 clears and the Book stays closed; the reopening clears bit 1 and sets DEV event 2. (R428, R429,
19_modes_startup_power.md) -/
def Obligations.PowerFailureClosesTheBook : Prop :=
  -- pwrFail
  (∀ (s : State),
    s.pins.pwrFailLow = false → s.inReset = false →
    Does (.pwrFail) s (fun t =>
      t.pins.pwrFailLow = true ∧ t.book.closed = true ∧ t.book.staged = [] ∧ t.bit Reg.devPwrStat 0 = true ∧
      t.bit Reg.devPwrStat 1 = true ∧ t.getF Reg.watchLastCode 15 0 = 0x8004 ∧ t.mode = s.mode)) ∧
  -- pwrFailAgain
  (∀ (s : State),
    s.pins.pwrFailLow = true →
    Does (.pwrFail) s (fun t =>
      t = s)) ∧
  -- pwrFailNHigh
  (∀ (s : State),
    s.pins.pwrFailLow = true →
    Does (.pwrFailNHigh) s (fun t =>
      t.pins.pwrFailLow = false ∧ t.pins.pwrHighAt = some s.stp.timeNs ∧ t.bit Reg.devPwrStat 0 = false ∧ t.book = s.book ∧
      SameRegsBut [Reg.devPwrStat] s t)) ∧
  -- bookReopen
  (∀ (s : State),
    s.book.closed = true → s.pins.pwrFailLow = false → s.inReset = false → s.pins.pwrHighAt.isSome = true →
    Does (.bookReopen) s (fun t =>
      t.book.closed = false ∧ t.bit Reg.devPwrStat 1 = false ∧ t.bit (Pg.dev + hEvt) 2 = true ∧ t.book.staged = s.book.staged ∧
      SameRegsBut [Reg.devPwrStat, Pg.dev + hEvt] s t))

/-- Writes of BAR0 reach their register by its access, its mask and the page's ENABLE. A write of EVT clears exactly the bits
written 1. ENABLE 0 to 1 on a CH page runs that channel's check; on an enabled page it does nothing. A write of an RWE register
on a page that is not enabled takes its masked, enabled bytes and nothing else; on an enabled page it changes no register but is
refused with 0x0801 and its word. An RO register keeps its value. A misaligned write is counted as a decode error. In reset, or
in BOOT outside the DEV page, the host's write changes nothing. (R6, R41, R352, R449, R450, R452, R453, 21_register_pages.md) -/
def Obligations.RegisterPageWrites : Prop :=
  -- evtWrite
  (∀ (page : Fin 0x4000) (w : BitVec 32) (p : PageRef) (s : State),
    pageOf s page = some p → s.answers p.base = true → p.lay ≠ .gang → p.lay ≠ .belfry →
    Does (.evtWrite page w) s (fun t =>
      t.reg (p.base + hEvt) = s.reg (p.base + hEvt) &&& ~~~w ∧ SameRegsBut [p.base + hEvt, p.base + hStatus] s t ∧
      (w = 0 → t.reg (p.base + hStatus) = s.reg (p.base + hStatus)))) ∧
  -- pageEnableCheck
  (∀ (page : Fin 0x4000) (n : Fin 128) (s : State),
    pageOf s page = some ⟨.ch, n⟩ → s.answers (Pg.ch n) = true → s.enabled (Pg.ch n) = false →
    Does (.pageEnableCheck page) s (fun t =>
      t = channelEnable s n)) ∧
  -- pageEnableCheckEnabled
  (∀ (page : Fin 0x4000) (p : PageRef) (s : State),
    pageOf s page = some p → s.enabled p.base = true →
    Does (.pageEnableCheck page) s (fun t =>
      t = s)) ∧
  -- registerWrite
  (∀ (m : Master) (addr : BitVec 26) (w : BitVec 32) (be : BitVec 4) (p : PageRef) (r : RegRow) (s : State),
    be ≠ 0 → s.inReset = false → reaches s m (addr.toNat / 0x1000 * 0x1000) = true → addr.toNat % 4 = 0 →
    pageOf s (addr.toNat / 0x1000) = some p → p.lay ≠ .gang → 0x040 ≤ addr.toNat % 0x1000 →
    rowAt p.lay (addr.toNat % 0x1000) = some r → r.acc = .rwe → s.enabled (State.enableOwner p) = false →
    p.base + addr.toNat % 0x1000 ≠ Reg.stpRaster →
    Does (.registerWrite m addr w be) s (fun t =>
      t.reg (p.base + addr.toNat % 0x1000) = maskedWrite (s.reg (p.base + addr.toNat % 0x1000)) w (BitVec.ofNat 32 r.mask) be ∧
      SameRegsBut [p.base + addr.toNat % 0x1000] s t ∧ SameBut [.regs] s t)) ∧
  -- registerWriteEnabled
  (∀ (m : Master) (addr : BitVec 26) (w : BitVec 32) (be : BitVec 4) (p : PageRef) (r : RegRow) (s : State),
    be ≠ 0 → s.inReset = false → reaches s m (addr.toNat / 0x1000 * 0x1000) = true → addr.toNat % 4 = 0 →
    pageOf s (addr.toNat / 0x1000) = some p → p.lay ≠ .gang → 0x040 ≤ addr.toNat % 0x1000 →
    rowAt p.lay (addr.toNat % 0x1000) = some r → r.acc = .rwe → s.enabled (State.enableOwner p) = true →
    Does (.registerWrite m addr w be) s (fun t =>
      t.reg (State.enableOwner p + hRefuse) = BitVec.ofNat 32 (0x0801 + addr.toNat % 0x1000 / 4 * 0x10000 + subPage p.lay * 0x10000000) ∧
      t.bit (State.enableOwner p + hStatus) 1 = true ∧
      SameRegsBut [State.enableOwner p + hRefuse, State.enableOwner p + hStatus] s t ∧ SameBut [.regs] s t)) ∧
  -- registerWriteRo
  (∀ (m : Master) (addr : BitVec 26) (w : BitVec 32) (be : BitVec 4) (p : PageRef) (r : RegRow) (s : State),
    addr.toNat % 4 = 0 → pageOf s (addr.toNat / 0x1000) = some p → p.lay ≠ .gang → 0x040 ≤ addr.toNat % 0x1000 →
    rowAt p.lay (addr.toNat % 0x1000) = some r → r.acc = .ro →
    Does (.registerWrite m addr w be) s (fun t =>
      t = s)) ∧
  -- registerWriteMisaligned
  (∀ (m : Master) (addr : BitVec 26) (w : BitVec 32) (be : BitVec 4) (s : State),
    be ≠ 0 → s.inReset = false → reaches s m (addr.toNat / 0x1000 * 0x1000) = true → addr.toNat % 4 ≠ 0 →
    Does (.registerWrite m addr w be) s (fun t =>
      t.bit (Pg.mtx + hEvt) 2 = true ∧ SameRegsBut [Reg.mtxDecodeErr, Pg.mtx + hEvt] s t ∧ SameBut [.regs] s t ∧
      (s.reg Reg.mtxDecodeErr ≠ BitVec.allOnes 32 → t.reg Reg.mtxDecodeErr = s.reg Reg.mtxDecodeErr + 1))) ∧
  -- registerWriteClosed
  (∀ (addr : BitVec 26) (w : BitVec 32) (be : BitVec 4) (s : State),
    s.answers (addr.toNat / 0x1000 * 0x1000) = false →
    Does (.registerWrite .host addr w be) s (fun t =>
      t = s))

/-- Thirteen commands of the inputs and of the memory controllers complete with their own effect, whatever else they meet. A
packet of any colour on an enabled path of a receiving network input makes the path up and arrived; a path without a packet in
a frame is down, the other path as it was. A missing line that follows a missing line makes the run one longer, a second
missing part of one line does not. A format mismatch loses an input at a frame start with CAUSE 2, a lost PTP lock a network
input at once with CAUSE 5. An expired freeze acts at a frame start and writes only the input's STATE beside what a frame
start writes. A waiting input with a clean frame is OK without an event. A request to a controller in self-refresh ends it
with event 5 and is served; a refresh with no deadline request held is issued and begins a new window; a make-up leaves one
fewer owed and the most owed as it was; self-refresh entry leaves the controller serving; STAT_CLR writes its counters and
REF_OWED alone; parity with no request and matrix parity set their event and log one fault. (R208, R210, R211, R212, R214,
R335, R337, R338, R353, R380, 08_ingest.md, 15_hbm_and_fabric.md) -/
def Obligations.InputAndControllerCommandsTakeEffect : Prop :=
  -- st2110Packet
  (∀ (i : Fin 128) (pathB : Bool) (seq rtp : BitVec 32) (segs : List SrdSeg) (len fifo : Nat) (s : State),
    inReceives s i = true → inKind s i = 3 → inPath s i pathB = true →
    Does (.st2110Packet i pathB seq rtp segs len fifo) s (fun t =>
      inDown (inp t i) pathB = false ∧ (if pathB then (inp t i).arrived.2 else (inp t i).arrived.1) = true ∧
      (∀ j, j ≠ i.val → inp t j = inp s j) ∧ SameBut [.regs, .ing] s t)) ∧
  -- ingestPathDown
  (∀ (i : Fin 128) (pathB : Bool) (s : State),
    inSt s i ≠ 0 → inKind s i = 3 → inPath s i pathB = true → inDown (inp s i) pathB = false →
    (if pathB then (inp s i).arrived.2 else (inp s i).arrived.1) = false →
    Does (.ingestPathDown i pathB) s (fun t =>
      inDown (inp t i) pathB = true ∧ inDown (inp t i) (!pathB) = inDown (inp s i) (!pathB) ∧
      (∀ j, j ≠ i.val → inp t j = inp s j) ∧ t.faults.length = s.faults.length + 1 ∧ SameBut [.regs, .ing, .faults] s t)) ∧
  -- lineMissingInARun
  (∀ (i : Fin 128) (line : Nat) (half : Fin 3) (s : State),
    s.running = true → inSt s i ≠ 0 → (activeLines s i line).isSome = true → isPart s i half = true →
    (inp s i).landed.contains (line * 3 + half.val) = false → (inp s i).missed.contains (line * 3 + half.val) = false → lineBefore s i line ≠ line →
    (inp s i).missLine = some (lineBefore s i line) →
    Does (.lineMissing i line half) s (fun t =>
      (inp t i).missRun = (inp s i).missRun + 1 ∧ (inp t i).missLine = some line ∧ (∀ j, j ≠ i.val → inp t j = inp s j) ∧
      SameBut [.regs, .stp, .ing] s t)) ∧
  -- lineMissingSecondPart
  (∀ (i : Fin 128) (line : Nat) (half : Fin 3) (s : State),
    s.running = true → inSt s i ≠ 0 → (activeLines s i line).isSome = true → isPart s i half = true →
    (inp s i).landed.contains (line * 3 + half.val) = false → (inp s i).missed.contains (line * 3 + half.val) = false →
    (inp s i).missLine = some line →
    Does (.lineMissing i line half) s (fun t =>
      (inp t i).missRun = (inp s i).missRun ∧ (inp t i).clean = false)) ∧
  -- inputLostFormat
  (∀ (i : Fin 128) (s : State),
    s.running = true → (inp s i).fmtLoss = true → (inSt s i = 1 ∨ inSt s i = 2) →
    Does (.inputLost i .format) s (fun t =>
      inSt t i = 3 ∧ inOut t i = 1 ∧ inCause t i = 2 ∧ t.inFrame = 0 ∧ t.bit (Pg.inp i + hEvt) 0 = true ∧
      t.faults.length = s.faults.length + 1)) ∧
  -- inputLostNoPtp
  (∀ (i : Fin 128) (s : State),
    inKind s i = 3 → ptpLock s i = false → (inSt s i = 1 ∨ inSt s i = 2) →
    Does (.inputLost i .noPtp) s (fun t =>
      inSt t i = 3 ∧ inOut t i = 1 ∧ inCause t i = 5 ∧ SameRegsBut [Reg.inpState i, Pg.inp i + hEvt] s t ∧
      t.faults.length = s.faults.length + 1)) ∧
  -- freezeExpired
  (∀ (i : Fin 128) (s : State),
    s.running = true → inSt s i = 3 →
    Does (.freezeExpired i) s (fun t =>
      t.inFrame = 0 ∧ t.faults = s.faults ∧ SameRegsBut [Reg.inpState i, Reg.stpHoldFrames, Reg.ptpMapLo, Reg.ptpMapHi] s t ∧
      SameBut [.regs, .stp] s t)) ∧
  -- firstCleanFrame
  (∀ (i : Fin 128) (s : State),
    s.running = true → s.inFrame = 0 → inSt s i = 1 → (inUse s i = false ∨ ((inp s i).startAt = some s.frame ∧ (inp s i).wasClean = true)) →
    mayReturn s i = true →
    Does (.inputReturned i) s (fun t =>
      inSt t i = 2 ∧ inOut t i = 0 ∧ inCause t i = 0 ∧ SameRegsBut [Reg.inpState i] s t ∧ t.faults = s.faults)) ∧
  -- memoryRequestInSelfRefresh
  (∀ (c : Fin 32) (r : MemReq) (err : ReadErr) (s : State),
    pchSt s c = 2 → (pch s c).queue = [] → pcOf s r.addr.toNat = some c.val → held337 s (pch s c) r = false → r.write = true →
    Does (.memoryRequest c [r] err) s (fun t =>
      pchSt t c = 1 ∧ t.bit (Pg.pch c + hEvt) 5 = true ∧ (pch t c).queue = [] ∧ t.bus = ⟨s.bus.rdata, .ok⟩ ∧ t.faults = s.faults)) ∧
  -- refreshIssued
  (∀ (c : Fin 32) (s : State),
    (pchSt s c = 1 ∨ pchSt s c = 3 ∨ pchSt s c = 4) → holdsDeadline (pch s c) = false →
    Does (.refreshDue c) s (fun t =>
      pch t c = { pch s c with win := [], thr := [], thrAt := [] } ∧ (∀ d : Nat, d ≠ c.val → pch t d = pch s d) ∧
      SameBut [.hbm] s t)) ∧
  -- refreshMakeup
  (∀ (c : Fin 32) (n : Nat) (s : State),
    pchServes s c = true → holdsDeadline (pch s c) = false → owed s c = n + 1 →
    Does (.refreshMakeup c) s (fun t =>
      owed t c = n ∧ t.getF (Reg.pchRefOwed c) 7 4 = s.getF (Reg.pchRefOwed c) 7 4 ∧ SameBut [.regs] s t)) ∧
  -- selfRefreshEntry
  (∀ (c : Fin 32) (s : State),
    pchSt s c = 1 → s.getF Reg.hbmSrIdle 15 0 ≠ 0 → owed s c = 0 → (pch s c).queue = [] →
    Does (.selfRefreshEntry c) s (fun t =>
      pchSt t c = 2 ∧ pchServes t c = true ∧ owed t c = 0 ∧ (∀ d : Nat, pch t d = pch s d))) ∧
  -- pchStatClr
  (∀ (c : Fin 32) (s : State),
    s.answers (Pg.pch c) = true →
    Does (.pchStatClr c) s (fun t =>
      t.reg (Reg.pchSrAborts c) = 0 ∧ t.reg (Reg.pchSrLateHits c) = 0 ∧ t.reg (Reg.pchRfmCmds c) = 0 ∧
      t.getF (Reg.pchRefOwed c) 7 4 = 0 ∧
      SameRegsBut [Reg.pchCorr c, Reg.pchUncorr c, Reg.pchErrAddrLo c, Reg.pchErrAddrHi c, Reg.pchRefForced c, Reg.pchSrAborts c,
        Reg.pchSrLateHits c, Reg.pchRfmCmds c, Reg.pchThrottles c, Reg.pchRefOwed c] s t)) ∧
  -- hbmParityOfNoRequest
  (∀ (loc : ParityLoc) (s : State),
    loc.unit < 32 → (pch s loc.unit).queue = [] →
    Does (.hbmParity loc) s (fun t =>
      t.bit (Pg.hbm + hEvt) 7 = true ∧ SameRegsBut [Pg.hbm + hEvt] s t ∧ (∀ d, pch t d = pch s d) ∧
      t.faults.length = s.faults.length + 1)) ∧
  -- mtxParity
  (∀ (loc : ParityLoc) (s : State),
    Does (.mtxParity loc) s (fun t =>
      t.bit (Pg.mtx + hEvt) 0 = true ∧ t.faults.length = s.faults.length + 1 ∧ SameBut [.regs, .faults] s t))
end

