-- ==== Sys2Proof/Laws/Store.lean ====
section
/-! SUPPORT. The laws of the sparse store: read after write, and every operation keeps the canonical form. -/

namespace Sys2Proof.Store

variable {α : Type}

/-- Every key that the table lists is above `lo`. -/
def Above (lo : Option Nat) (m : Store α) : Prop := ∀ l, lo = some l → ∀ e ∈ m, l < e.1

@[simp] theorem get_erase_same (d : Nat → α) (m : Store α) (k : Nat) : get d (erase m k) k = d k := by
  induction m with
  | nil => rfl
  | cons e m ih =>
    obtain ⟨k', v⟩ := e
    by_cases h : k' = k <;> simp [erase, get, h, ih]

theorem get_erase_other (d : Nat → α) (m : Store α) {k j : Nat} (h : j ≠ k) : get d (erase m k) j = get d m j := by
  induction m with
  | nil => rfl
  | cons e m ih =>
    obtain ⟨k', v⟩ := e
    by_cases hk : k' = k
    · have : k' ≠ j := fun he => h (he ▸ hk)
      simp [erase, get, hk, ih]
      exact fun he => absurd he.symm h
    · simp [erase, get, hk, ih]

@[simp] theorem get_insert_same (d : Nat → α) (m : Store α) (k : Nat) (v : α) (h : ∀ e ∈ m, e.1 ≠ k) :
    get d (insert k v m) k = v := by
  induction m with
  | nil => simp [insert, get]
  | cons e m ih =>
    obtain ⟨k', v'⟩ := e
    have h1 : k' ≠ k := h (k', v') (by simp)
    by_cases hk : k < k'
    · simp [insert, get, hk]
    · simp [insert, get, hk, h1, ih (fun e he => h e (by simp [he]))]

theorem get_insert_other (d : Nat → α) (m : Store α) {k j : Nat} (v : α) (h : j ≠ k) :
    get d (insert k v m) j = get d m j := by
  induction m with
  | nil => simp [insert, get, Ne.symm h]
  | cons e m ih =>
    obtain ⟨k', v'⟩ := e
    by_cases hk : k < k'
    · simp [insert, get, hk, Ne.symm h]
    · simp [insert, get, hk, ih]

theorem mem_erase {m : Store α} {k : Nat} {e : Nat × α} (h : e ∈ erase m k) : e ∈ m ∧ e.1 ≠ k := by
  induction m with
  | nil => simp [erase] at h
  | cons x m ih =>
    obtain ⟨k', v⟩ := x
    by_cases hk : k' = k
    · simp only [erase, hk, if_true] at h
      exact ⟨List.mem_cons_of_mem _ (ih h).1, (ih h).2⟩
    · simp only [erase, hk, if_false, List.mem_cons] at h
      rcases h with rfl | h
      · exact ⟨by simp, hk⟩
      · exact ⟨List.mem_cons_of_mem _ (ih h).1, (ih h).2⟩

section
variable [DecidableEq α]

/-- A read after a write to the same key gives the value written. -/
@[simp] theorem get_put_same (d : Nat → α) (m : Store α) (k : Nat) (v : α) : get d (put d m k v) k = v := by
  by_cases h : v = d k
  · simp [put, h]
  · simp only [put, h, if_false]
    exact get_insert_same d _ k v (fun e he => (mem_erase he).2)

/-- A write leaves every other key alone. -/
theorem get_put_other (d : Nat → α) (m : Store α) {k j : Nat} (v : α) (h : j ≠ k) : get d (put d m k v) j = get d m j := by
  by_cases hv : v = d k
  · simp [put, hv, get_erase_other d m h]
  · simp only [put, hv, if_false]
    rw [get_insert_other d _ v h, get_erase_other d m h]

theorem get_put (d : Nat → α) (m : Store α) (k j : Nat) (v : α) : get d (put d m k v) j = if j = k then v else get d m j := by
  by_cases h : j = k
  · subst h; simp
  · simp [h, get_put_other d m v h]

theorem get_putMany_below (d : Nat → α) (m : Store α) (base : Nat) (vs : List α) {j : Nat} (h : j < base) :
    get d (putMany d m base vs) j = get d m j := by
  induction vs generalizing m base with
  | nil => rfl
  | cons v vs ih =>
    simp only [putMany]
    rw [ih _ _ (by omega), get_put_other d m v (by omega)]

theorem get_putMany_above (d : Nat → α) (m : Store α) (base : Nat) (vs : List α) {j : Nat} (h : base + vs.length ≤ j) :
    get d (putMany d m base vs) j = get d m j := by
  induction vs generalizing m base with
  | nil => rfl
  | cons v vs ih =>
    simp only [putMany, List.length_cons] at h ⊢
    rw [ih _ _ (by omega), get_put_other d m v (by omega)]

theorem get_putMany_in (d : Nat → α) (m : Store α) (base : Nat) (vs : List α) {i : Nat} (h : i < vs.length) :
    get d (putMany d m base vs) (base + i) = vs[i] := by
  induction vs generalizing m base i with
  | nil => simp at h
  | cons v vs ih =>
    simp only [putMany]
    cases i with
    | zero => rw [Nat.add_zero, get_putMany_below _ _ _ _ (by omega)]; simp
    | succ i =>
      have := ih (put d m base v) (base + 1) (i := i) (by simpa using h)
      rw [show base + (i + 1) = base + 1 + i by omega, this]; simp

/-! ### Canonical form -/

theorem wfFrom_iff (d : Nat → α) (lo : Option Nat) (m : Store α) :
    wfFrom d lo m = true ↔ (∀ l, lo = some l → ∀ e ∈ m, l < e.1) ∧ (m.Pairwise fun a b => a.1 < b.1) ∧ ∀ e ∈ m, e.2 ≠ d e.1 := by
  induction m generalizing lo with
  | nil => simp [wfFrom]
  | cons e m ih =>
    obtain ⟨k, v⟩ := e
    simp only [wfFrom, Bool.and_eq_true, ih, List.pairwise_cons, List.mem_cons, decide_eq_true_eq]
    constructor
    · rintro ⟨⟨h1, h2⟩, h3, h4, h5⟩
      refine ⟨?_, ⟨fun e he => h3 k rfl e he, h4⟩, ?_⟩
      · rintro l rfl e (rfl | he)
        · simpa using h1
        · have := h3 k rfl e he
          simp only [decide_eq_true_eq] at h1
          omega
      · rintro e (rfl | he)
        · exact h2
        · exact h5 e he
    · rintro ⟨h1, ⟨h2, h3⟩, h4⟩
      refine ⟨⟨?_, h4 (k, v) (Or.inl rfl)⟩, ?_, h3, fun e he => h4 e (Or.inr he)⟩
      · cases lo with
        | none => rfl
        | some l => simpa using h1 l rfl (k, v) (Or.inl rfl)
      · rintro l hl e he
        cases hl
        exact h2 e he

theorem wf_iff (d : Nat → α) (m : Store α) :
    wf d m = true ↔ (m.Pairwise fun a b => a.1 < b.1) ∧ ∀ e ∈ m, e.2 ≠ d e.1 := by
  simp [wf, wfFrom_iff]

omit [DecidableEq α] in
theorem erase_sublist (m : Store α) (k : Nat) : (erase m k).Sublist m := by
  induction m with
  | nil => exact List.Sublist.refl _
  | cons e m ih =>
    obtain ⟨k', v⟩ := e
    by_cases h : k' = k
    · simp only [erase, h, if_true]; exact ih.cons _
    · simp only [erase, h, if_false]; exact ih.cons_cons _

omit [DecidableEq α] in
theorem mem_insert {m : Store α} {k : Nat} {v : α} {e : Nat × α} : e ∈ insert k v m ↔ e = (k, v) ∨ e ∈ m := by
  induction m with
  | nil => simp [insert]
  | cons x m ih =>
    obtain ⟨k', v'⟩ := x
    by_cases h : k < k'
    · simp [insert, h]
    · simp only [insert, h, if_false, List.mem_cons, ih]
      constructor
      · rintro (h | h | h) <;> simp [h]
      · rintro (h | h | h) <;> simp [h]

omit [DecidableEq α] in
theorem insert_pairwise {m : Store α} {k : Nat} {v : α} (h : m.Pairwise fun a b => a.1 < b.1) (hk : ∀ e ∈ m, e.1 ≠ k) :
    (insert k v m).Pairwise fun a b => a.1 < b.1 := by
  induction m with
  | nil => simp [insert]
  | cons x m ih =>
    obtain ⟨k', v'⟩ := x
    have hne : k' ≠ k := hk (k', v') (by simp)
    rw [List.pairwise_cons] at h
    by_cases hlt : k < k'
    · simp only [insert, hlt, if_true, List.pairwise_cons]
      refine ⟨?_, h⟩
      rintro e he
      rcases List.mem_cons.1 he with rfl | he
      · exact hlt
      · exact Nat.lt_trans hlt (h.1 e he)
    · simp only [insert, hlt, if_false, List.pairwise_cons]
      refine ⟨?_, ih h.2 (fun e he => hk e (by simp [he]))⟩
      intro e he
      rcases mem_insert.1 he with rfl | he
      · simp only; omega
      · exact h.1 e he

/-- A write keeps the canonical form. -/
theorem put_wf {d : Nat → α} {m : Store α} (k : Nat) (v : α) (h : wf d m = true) : wf d (put d m k v) = true := by
  rw [wf_iff] at h ⊢
  have he : (erase m k).Pairwise fun a b => a.1 < b.1 := h.1.sublist (erase_sublist m k)
  have hd : ∀ e ∈ erase m k, e.2 ≠ d e.1 := fun e hm => h.2 e (mem_erase hm).1
  by_cases hv : v = d k
  · simp only [put, hv, if_true]; exact ⟨he, hd⟩
  · simp only [put, hv, if_false]
    refine ⟨insert_pairwise he (fun e hm => (mem_erase hm).2), fun e hm => ?_⟩
    rcases mem_insert.1 hm with rfl | hm
    · exact hv
    · exact hd e hm

theorem putMany_wf {d : Nat → α} {m : Store α} (base : Nat) (vs : List α) (h : wf d m = true) :
    wf d (putMany d m base vs) = true := by
  induction vs generalizing m base with
  | nil => exact h
  | cons v vs ih => exact ih (base + 1) (put_wf base v h)

/-- Entries may be dropped, and the defaults of the keys that stay may be stated anew. -/
theorem filter_wf {d d' : Nat → α} {m : Store α} (p : Nat × α → Bool) (h : wf d m = true)
    (hd : ∀ e ∈ m, p e = true → d' e.1 = d e.1) : wf d' (m.filter p) = true := by
  rw [wf_iff] at h ⊢
  refine ⟨h.1.sublist List.filter_sublist, fun e he => ?_⟩
  obtain ⟨hm, hp⟩ := List.mem_filter.1 he
  rw [hd e hm hp]
  exact h.2 e hm

end

end Sys2Proof.Store
end

