-- ==== Sys2Proof/Laws/Regs.lean ====
section
/-! SUPPORT. The laws of register words, fields and bits, and of the register file: a read after a write, and what a write leaves
alone. -/

namespace Sys2Proof.Machine

/-! ### Words -/

theorem getLsbD_fldMask (hi lo i : Nat) : (fldMask hi lo).getLsbD i = (decide (i < 32) && decide (lo ≤ i) && decide (i - lo < hi - lo + 1)) := by
  by_cases h1 : i < 32 <;> by_cases h2 : lo ≤ i <;> by_cases h3 : i - lo < hi - lo + 1 <;>
    simp [fldMask, h1, h2, h3, BitVec.getLsbD_shiftLeft] <;> omega

theorem getLsbD_setFld (w : Word) (hi lo v i : Nat) : (setFld w hi lo v).getLsbD i =
    if i < 32 ∧ lo ≤ i ∧ i - lo < hi - lo + 1 then v.testBit (i - lo) else w.getLsbD i := by
  unfold setFld
  simp only [BitVec.getLsbD_or, BitVec.getLsbD_and, BitVec.getLsbD_not, getLsbD_fldMask, BitVec.getLsbD_shiftLeft, BitVec.getLsbD_ofNat]
  by_cases h1 : i < 32 <;> by_cases h2 : lo ≤ i <;> by_cases h3 : i - lo < hi - lo + 1 <;> simp [h1, h2, h3]
  all_goals first | omega | skip
  · have : i - lo < 32 := by omega
    have h4 : ¬ i < lo := by omega
    simp [this, h4]
  all_goals exact BitVec.getLsbD_of_ge w i (by omega)

theorem getLsbD_putBit (w : Word) (i j : Nat) (b : Bool) (hi : i < 32) : (putBit w i b).getLsbD j = if j = i then b else w.getLsbD j := by
  unfold putBit
  by_cases hj : j = i
  · subst hj; cases b <;> simp [hi]
  · have : ¬ i = j := fun h => hj h.symm
    cases b
    · simp only [Bool.false_eq_true, if_false, hj, BitVec.getLsbD_and, BitVec.getLsbD_not, BitVec.getLsbD_twoPow]
      by_cases h32 : j < 32
      · simp [h32, this]
      · simp [h32, BitVec.getLsbD_of_ge w j (by omega)]
    · simp [hj, this]

theorem getElem_putBit (w : Word) (i j : Nat) (b : Bool) (hi : i < 32) (hj : j < 32) : (putBit w i b)[j] = if j = i then b else w[j] := by
  rw [← BitVec.getLsbD_eq_getElem, getLsbD_putBit w i j b hi, BitVec.getLsbD_eq_getElem]

theorem getElem_setFld (w : Word) (hi lo v i : Nat) (h : i < 32) : (setFld w hi lo v)[i] =
    if lo ≤ i ∧ i - lo < hi - lo + 1 then v.testBit (i - lo) else w[i] := by
  rw [← BitVec.getLsbD_eq_getElem, getLsbD_setFld]
  simp [h]

theorem fld_eq_of_bits {w w' : Word} {hi lo : Nat} (h : ∀ i, i < hi - lo + 1 → w.getLsbD (lo + i) = w'.getLsbD (lo + i)) :
    fld w hi lo = fld w' hi lo := by
  unfold fld
  congr 1
  apply BitVec.eq_of_getLsbD_eq
  intro i hi'
  simp [hi', h i hi']

/-- A field holds what was written to it, as far as it is wide. -/
theorem fld_setFld (w : Word) {hi lo : Nat} (v : Nat) (h : hi < 32) (hl : lo ≤ hi) : fld (setFld w hi lo v) hi lo = v % 2 ^ (hi - lo + 1) := by
  unfold fld
  apply Nat.eq_of_testBit_eq
  intro i
  rw [BitVec.testBit_toNat, BitVec.getLsbD_extractLsb', Nat.testBit_mod_two_pow, getLsbD_setFld]
  by_cases hi' : i < hi - lo + 1
  · have : lo + i < 32 ∧ lo ≤ lo + i ∧ lo + i - lo < hi - lo + 1 := by omega
    simp [hi', this]
  · simp [hi']

/-- A field that shares no bit with the one written stands. -/
theorem fld_setFld_other (w : Word) {hi lo hi' lo' : Nat} (v : Nat) (hl : lo ≤ hi) (hl' : lo' ≤ hi') (h : hi' < lo ∨ hi < lo') :
    fld (setFld w hi lo v) hi' lo' = fld w hi' lo' := by
  apply fld_eq_of_bits
  intro i hi1
  rw [getLsbD_setFld, if_neg]
  intro ⟨_, h2, h3⟩
  rcases h with h | h <;> omega

theorem getLsbD_setFld_other (w : Word) {hi lo i : Nat} (v : Nat) (h : i < lo ∨ (hi < i ∧ lo ≤ hi)) : (setFld w hi lo v).getLsbD i = w.getLsbD i := by
  rw [getLsbD_setFld, if_neg]
  rintro ⟨h1, h2, h3⟩
  rcases h with h | h <;> omega

theorem fld_putBit_other (w : Word) {hi lo i : Nat} (b : Bool) (hi32 : i < 32) (hl : lo ≤ hi) (h : i < lo ∨ hi < i) :
    fld (putBit w i b) hi lo = fld w hi lo := by
  apply fld_eq_of_bits
  intro j hj
  rw [getLsbD_putBit w i _ b hi32, if_neg (by omega)]

theorem fld_lt (w : Word) (hi lo : Nat) : fld w hi lo < 2 ^ (hi - lo + 1) := BitVec.isLt _

/-- The whole word as one field. -/
theorem fld_whole (w : Word) : fld w 31 0 = w.toNat := by
  simp [fld]

theorem setFld_whole (w : Word) (v : Nat) : setFld w 31 0 v = BitVec.ofNat 32 v := by
  apply BitVec.eq_of_getLsbD_eq
  intro i hi
  rw [getLsbD_setFld]
  rw [if_pos (by omega), BitVec.getLsbD_ofNat]
  simp [hi]

namespace State

variable (s : State) (a b : Nat) (w : Word)

/-! ### The register file -/

@[simp] theorem reg_setReg_same : (s.setReg a w).reg a = w := Store.get_put_same _ _ _ _

theorem reg_setReg_other {a b : Nat} (h : b ≠ a) : (s.setReg a w).reg b = s.reg b := Store.get_put_other _ _ _ h

theorem reg_setReg : (s.setReg a w).reg b = if b = a then w else s.reg b := Store.get_put _ _ _ _ _

@[simp] theorem reg_setBit_same (i : Nat) (v : Bool) : (s.setBit a i v).reg a = putBit (s.reg a) i v := reg_setReg_same _ _ _
theorem reg_setBit_other {a b : Nat} (i : Nat) (v : Bool) (h : b ≠ a) : (s.setBit a i v).reg b = s.reg b := reg_setReg_other _ _ h
theorem reg_setBit (i : Nat) (v : Bool) : (s.setBit a i v).reg b = if b = a then putBit (s.reg a) i v else s.reg b := reg_setReg _ _ _ _

@[simp] theorem reg_setF_same (hi lo v : Nat) : (s.setF a hi lo v).reg a = setFld (s.reg a) hi lo v := reg_setReg_same _ _ _
theorem reg_setF_other {a b : Nat} (hi lo v : Nat) (h : b ≠ a) : (s.setF a hi lo v).reg b = s.reg b := reg_setReg_other _ _ h
theorem reg_setF (hi lo v : Nat) : (s.setF a hi lo v).reg b = if b = a then setFld (s.reg a) hi lo v else s.reg b := reg_setReg _ _ _ _

@[simp] theorem reg_setN_same (n : Nat) : (s.setN a n).reg a = BitVec.ofNat 32 n := reg_setReg_same _ _ _
theorem reg_setN_other {a b : Nat} (n : Nat) (h : b ≠ a) : (s.setN a n).reg b = s.reg b := reg_setReg_other _ _ h
theorem reg_setN (n : Nat) : (s.setN a n).reg b = if b = a then BitVec.ofNat 32 n else s.reg b := reg_setReg _ _ _ _

@[simp] theorem getF_setF_same {hi lo : Nat} (v : Nat) (h : hi < 32) (hl : lo ≤ hi) :
    (s.setF a hi lo v).getF a hi lo = v % 2 ^ (hi - lo + 1) := by
  simp [getF, fld_setFld _ v h hl]

theorem getF_setF_other {hi lo hi' lo' : Nat} (v : Nat) (hl : lo ≤ hi) (hl' : lo' ≤ hi') (h : hi' < lo ∨ hi < lo') :
    (s.setF a hi lo v).getF a hi' lo' = s.getF a hi' lo' := by
  simp [getF, fld_setFld_other _ v hl hl' h]

@[simp] theorem bit_setBit_same {i : Nat} (v : Bool) (hi : i < 32) : (s.setBit a i v).bit a i = v := by
  simp [bit, getLsbD_putBit _ _ _ _ hi]

theorem bit_setBit_other {i j : Nat} (v : Bool) (hi : i < 32) (h : j ≠ i) : (s.setBit a i v).bit a j = s.bit a j := by
  simp [bit, getLsbD_putBit _ _ _ _ hi, h]

/-- EVT bits only rise when an event is set. -/
@[simp] theorem bit_evt_same {i : Nat} (hi : i < 32) (p : Nat) : (s.evt p i).bit (p + hEvt) i = true := bit_setBit_same _ _ _ hi

theorem reg_evt_other {p i c : Nat} (h : c ≠ p + hEvt) : (s.evt p i).reg c = s.reg c := reg_setReg_other _ _ h

theorem reg_evt (p i c : Nat) : (s.evt p i).reg c = if c = p + hEvt then putBit (s.reg (p + hEvt)) i true else s.reg c :=
  reg_setReg _ _ _ _

@[simp] theorem reg_raise (c p l m : Nat) : (s.raise c p l m).reg a = s.reg a := rfl

/-- A saturating 32-bit counter below its ceiling counts one. -/
theorem reg_inc32 (h : s.reg a ≠ BitVec.allOnes 32) : (s.inc32 a).reg a = s.reg a + 1 := by
  have h1 : (s.reg a).toNat ≠ 2 ^ 32 - 1 := fun e => h (BitVec.eq_of_toNat_eq (by simpa using e))
  have h2 := (s.reg a).isLt
  apply BitVec.eq_of_toNat_eq
  simp only [inc32, incSat, reg_setF_same, getF, fld_whole, setFld_whole, satTo, BitVec.toNat_ofNat, BitVec.toNat_add]
  have h3 : min ((s.reg a).toNat + 1) (2 ^ (31 - 0 + 1) - 1) = (s.reg a).toNat + 1 := by omega
  simp only [h3]
  rfl

/-- At its ceiling it stays there. -/
theorem reg_inc32_sat (h : s.reg a = BitVec.allOnes 32) : (s.inc32 a).reg a = BitVec.allOnes 32 := by
  apply BitVec.eq_of_toNat_eq
  simp [inc32, incSat, getF, fld_whole, setFld_whole, satTo, h]

theorem reg_inc32_other {a b : Nat} (h : b ≠ a) : (s.inc32 a).reg b = s.reg b := reg_setReg_other _ _ h

/-- What a refusal shows (R450). -/
theorem reg_refuse (p c wd sub : Nat) : (s.refuse p c wd sub).reg (p + hRefuse) = BitVec.ofNat 32 (c + wd * 0x10000 + sub * 0x10000000) :=
  reg_setReg_same _ _ _

theorem bit_refuse (p c wd sub : Nat) : (s.refuse p c wd sub).bit (p + hStatus) 1 = true := by
  have h : p + hStatus ≠ p + hRefuse := by simp [hStatus, hRefuse]
  rw [refuse, bit, reg_setN_other _ _ h, reg_setBit_same, getLsbD_putBit _ _ _ _ (by omega), if_pos rfl]

theorem reg_refuse_other {p c wd sub k : Nat} (h1 : k ≠ p + hStatus) (h2 : k ≠ p + hRefuse) : (s.refuse p c wd sub).reg k = s.reg k := by
  simp [refuse, reg_setN_other _ _ h2, reg_setBit_other _ _ _ h1]

end State
end Sys2Proof.Machine
end

