-- ==== Sys2Proof/Laws/State.lean ====
section
/-! SUPPORT. What each update of the state leaves alone, field by field, and read after write for each table of the state. -/

namespace Sys2Proof.Machine

variable (s : State)

@[simp] theorem State.setReg_bus (a : Nat) (w : Word) : (s.setReg a w).bus = s.bus := rfl
@[simp] theorem State.setReg_pins (a : Nat) (w : Word) : (s.setReg a w).pins = s.pins := rfl
@[simp] theorem State.setReg_stp (a : Nat) (w : Word) : (s.setReg a w).stp = s.stp := rfl
@[simp] theorem State.setReg_chans (a : Nat) (w : Word) : (s.setReg a w).chans = s.chans := rfl
@[simp] theorem State.setReg_eng (a : Nat) (w : Word) : (s.setReg a w).eng = s.eng := rfl
@[simp] theorem State.setReg_mill (a : Nat) (w : Word) : (s.setReg a w).mill = s.mill := rfl
@[simp] theorem State.setReg_clp (a : Nat) (w : Word) : (s.setReg a w).clp = s.clp := rfl
@[simp] theorem State.setReg_ing (a : Nat) (w : Word) : (s.setReg a w).ing = s.ing := rfl
@[simp] theorem State.setReg_etm (a : Nat) (w : Word) : (s.setReg a w).etm = s.etm := rfl
@[simp] theorem State.setReg_ptp (a : Nat) (w : Word) : (s.setReg a w).ptp = s.ptp := rfl
@[simp] theorem State.setReg_aud (a : Nat) (w : Word) : (s.setReg a w).aud = s.aud := rfl
@[simp] theorem State.setReg_mon (a : Nat) (w : Word) : (s.setReg a w).mon = s.mon := rfl
@[simp] theorem State.setReg_rv (a : Nat) (w : Word) : (s.setReg a w).rv = s.rv := rfl
@[simp] theorem State.setReg_bf (a : Nat) (w : Word) : (s.setReg a w).bf = s.bf := rfl
@[simp] theorem State.setReg_hbm (a : Nat) (w : Word) : (s.setReg a w).hbm = s.hbm := rfl
@[simp] theorem State.setReg_cvu (a : Nat) (w : Word) : (s.setReg a w).cvu = s.cvu := rfl
@[simp] theorem State.setReg_book (a : Nat) (w : Word) : (s.setReg a w).book = s.book := rfl
@[simp] theorem State.setReg_faults (a : Nat) (w : Word) : (s.setReg a w).faults = s.faults := rfl
@[simp] theorem State.setReg_twin (a : Nat) (w : Word) : (s.setReg a w).twin = s.twin := rfl
@[simp] theorem State.setReg_boot (a : Nat) (w : Word) : (s.setReg a w).boot = s.boot := rfl
@[simp] theorem State.setReg_sent (a : Nat) (w : Word) : (s.setReg a w).sent = s.sent := rfl
@[simp] theorem State.setReg_free (a : Nat) (w : Word) : (s.setReg a w).free = s.free := rfl
@[simp] theorem State.setReg_pending (a : Nat) (w : Word) : (s.setReg a w).pending = s.pending := rfl

@[simp] theorem State.setF_bus (a h l v : Nat) : (s.setF a h l v).bus = s.bus := by rw [State.setF, State.setReg_bus]
@[simp] theorem State.setF_pins (a h l v : Nat) : (s.setF a h l v).pins = s.pins := by rw [State.setF, State.setReg_pins]
@[simp] theorem State.setF_stp (a h l v : Nat) : (s.setF a h l v).stp = s.stp := by rw [State.setF, State.setReg_stp]
@[simp] theorem State.setF_chans (a h l v : Nat) : (s.setF a h l v).chans = s.chans := by rw [State.setF, State.setReg_chans]
@[simp] theorem State.setF_eng (a h l v : Nat) : (s.setF a h l v).eng = s.eng := by rw [State.setF, State.setReg_eng]
@[simp] theorem State.setF_mill (a h l v : Nat) : (s.setF a h l v).mill = s.mill := by rw [State.setF, State.setReg_mill]
@[simp] theorem State.setF_clp (a h l v : Nat) : (s.setF a h l v).clp = s.clp := by rw [State.setF, State.setReg_clp]
@[simp] theorem State.setF_ing (a h l v : Nat) : (s.setF a h l v).ing = s.ing := by rw [State.setF, State.setReg_ing]
@[simp] theorem State.setF_etm (a h l v : Nat) : (s.setF a h l v).etm = s.etm := by rw [State.setF, State.setReg_etm]
@[simp] theorem State.setF_ptp (a h l v : Nat) : (s.setF a h l v).ptp = s.ptp := by rw [State.setF, State.setReg_ptp]
@[simp] theorem State.setF_aud (a h l v : Nat) : (s.setF a h l v).aud = s.aud := by rw [State.setF, State.setReg_aud]
@[simp] theorem State.setF_mon (a h l v : Nat) : (s.setF a h l v).mon = s.mon := by rw [State.setF, State.setReg_mon]
@[simp] theorem State.setF_rv (a h l v : Nat) : (s.setF a h l v).rv = s.rv := by rw [State.setF, State.setReg_rv]
@[simp] theorem State.setF_bf (a h l v : Nat) : (s.setF a h l v).bf = s.bf := by rw [State.setF, State.setReg_bf]
@[simp] theorem State.setF_hbm (a h l v : Nat) : (s.setF a h l v).hbm = s.hbm := by rw [State.setF, State.setReg_hbm]
@[simp] theorem State.setF_cvu (a h l v : Nat) : (s.setF a h l v).cvu = s.cvu := by rw [State.setF, State.setReg_cvu]
@[simp] theorem State.setF_book (a h l v : Nat) : (s.setF a h l v).book = s.book := by rw [State.setF, State.setReg_book]
@[simp] theorem State.setF_faults (a h l v : Nat) : (s.setF a h l v).faults = s.faults := by rw [State.setF, State.setReg_faults]
@[simp] theorem State.setF_twin (a h l v : Nat) : (s.setF a h l v).twin = s.twin := by rw [State.setF, State.setReg_twin]
@[simp] theorem State.setF_boot (a h l v : Nat) : (s.setF a h l v).boot = s.boot := by rw [State.setF, State.setReg_boot]
@[simp] theorem State.setF_sent (a h l v : Nat) : (s.setF a h l v).sent = s.sent := by rw [State.setF, State.setReg_sent]
@[simp] theorem State.setF_free (a h l v : Nat) : (s.setF a h l v).free = s.free := by rw [State.setF, State.setReg_free]
@[simp] theorem State.setF_pending (a h l v : Nat) : (s.setF a h l v).pending = s.pending := by rw [State.setF, State.setReg_pending]

@[simp] theorem State.setBit_bus (a i : Nat) (b : Bool) : (s.setBit a i b).bus = s.bus := by rw [State.setBit, State.setReg_bus]
@[simp] theorem State.setBit_pins (a i : Nat) (b : Bool) : (s.setBit a i b).pins = s.pins := by rw [State.setBit, State.setReg_pins]
@[simp] theorem State.setBit_stp (a i : Nat) (b : Bool) : (s.setBit a i b).stp = s.stp := by rw [State.setBit, State.setReg_stp]
@[simp] theorem State.setBit_chans (a i : Nat) (b : Bool) : (s.setBit a i b).chans = s.chans := by rw [State.setBit, State.setReg_chans]
@[simp] theorem State.setBit_eng (a i : Nat) (b : Bool) : (s.setBit a i b).eng = s.eng := by rw [State.setBit, State.setReg_eng]
@[simp] theorem State.setBit_mill (a i : Nat) (b : Bool) : (s.setBit a i b).mill = s.mill := by rw [State.setBit, State.setReg_mill]
@[simp] theorem State.setBit_clp (a i : Nat) (b : Bool) : (s.setBit a i b).clp = s.clp := by rw [State.setBit, State.setReg_clp]
@[simp] theorem State.setBit_ing (a i : Nat) (b : Bool) : (s.setBit a i b).ing = s.ing := by rw [State.setBit, State.setReg_ing]
@[simp] theorem State.setBit_etm (a i : Nat) (b : Bool) : (s.setBit a i b).etm = s.etm := by rw [State.setBit, State.setReg_etm]
@[simp] theorem State.setBit_ptp (a i : Nat) (b : Bool) : (s.setBit a i b).ptp = s.ptp := by rw [State.setBit, State.setReg_ptp]
@[simp] theorem State.setBit_aud (a i : Nat) (b : Bool) : (s.setBit a i b).aud = s.aud := by rw [State.setBit, State.setReg_aud]
@[simp] theorem State.setBit_mon (a i : Nat) (b : Bool) : (s.setBit a i b).mon = s.mon := by rw [State.setBit, State.setReg_mon]
@[simp] theorem State.setBit_rv (a i : Nat) (b : Bool) : (s.setBit a i b).rv = s.rv := by rw [State.setBit, State.setReg_rv]
@[simp] theorem State.setBit_bf (a i : Nat) (b : Bool) : (s.setBit a i b).bf = s.bf := by rw [State.setBit, State.setReg_bf]
@[simp] theorem State.setBit_hbm (a i : Nat) (b : Bool) : (s.setBit a i b).hbm = s.hbm := by rw [State.setBit, State.setReg_hbm]
@[simp] theorem State.setBit_cvu (a i : Nat) (b : Bool) : (s.setBit a i b).cvu = s.cvu := by rw [State.setBit, State.setReg_cvu]
@[simp] theorem State.setBit_book (a i : Nat) (b : Bool) : (s.setBit a i b).book = s.book := by rw [State.setBit, State.setReg_book]
@[simp] theorem State.setBit_faults (a i : Nat) (b : Bool) : (s.setBit a i b).faults = s.faults := by rw [State.setBit, State.setReg_faults]
@[simp] theorem State.setBit_twin (a i : Nat) (b : Bool) : (s.setBit a i b).twin = s.twin := by rw [State.setBit, State.setReg_twin]
@[simp] theorem State.setBit_boot (a i : Nat) (b : Bool) : (s.setBit a i b).boot = s.boot := by rw [State.setBit, State.setReg_boot]
@[simp] theorem State.setBit_sent (a i : Nat) (b : Bool) : (s.setBit a i b).sent = s.sent := by rw [State.setBit, State.setReg_sent]
@[simp] theorem State.setBit_free (a i : Nat) (b : Bool) : (s.setBit a i b).free = s.free := by rw [State.setBit, State.setReg_free]
@[simp] theorem State.setBit_pending (a i : Nat) (b : Bool) : (s.setBit a i b).pending = s.pending := by rw [State.setBit, State.setReg_pending]

@[simp] theorem State.setN_bus (a n : Nat) : (s.setN a n).bus = s.bus := by rw [State.setN, State.setReg_bus]
@[simp] theorem State.setN_pins (a n : Nat) : (s.setN a n).pins = s.pins := by rw [State.setN, State.setReg_pins]
@[simp] theorem State.setN_stp (a n : Nat) : (s.setN a n).stp = s.stp := by rw [State.setN, State.setReg_stp]
@[simp] theorem State.setN_chans (a n : Nat) : (s.setN a n).chans = s.chans := by rw [State.setN, State.setReg_chans]
@[simp] theorem State.setN_eng (a n : Nat) : (s.setN a n).eng = s.eng := by rw [State.setN, State.setReg_eng]
@[simp] theorem State.setN_mill (a n : Nat) : (s.setN a n).mill = s.mill := by rw [State.setN, State.setReg_mill]
@[simp] theorem State.setN_clp (a n : Nat) : (s.setN a n).clp = s.clp := by rw [State.setN, State.setReg_clp]
@[simp] theorem State.setN_ing (a n : Nat) : (s.setN a n).ing = s.ing := by rw [State.setN, State.setReg_ing]
@[simp] theorem State.setN_etm (a n : Nat) : (s.setN a n).etm = s.etm := by rw [State.setN, State.setReg_etm]
@[simp] theorem State.setN_ptp (a n : Nat) : (s.setN a n).ptp = s.ptp := by rw [State.setN, State.setReg_ptp]
@[simp] theorem State.setN_aud (a n : Nat) : (s.setN a n).aud = s.aud := by rw [State.setN, State.setReg_aud]
@[simp] theorem State.setN_mon (a n : Nat) : (s.setN a n).mon = s.mon := by rw [State.setN, State.setReg_mon]
@[simp] theorem State.setN_rv (a n : Nat) : (s.setN a n).rv = s.rv := by rw [State.setN, State.setReg_rv]
@[simp] theorem State.setN_bf (a n : Nat) : (s.setN a n).bf = s.bf := by rw [State.setN, State.setReg_bf]
@[simp] theorem State.setN_hbm (a n : Nat) : (s.setN a n).hbm = s.hbm := by rw [State.setN, State.setReg_hbm]
@[simp] theorem State.setN_cvu (a n : Nat) : (s.setN a n).cvu = s.cvu := by rw [State.setN, State.setReg_cvu]
@[simp] theorem State.setN_book (a n : Nat) : (s.setN a n).book = s.book := by rw [State.setN, State.setReg_book]
@[simp] theorem State.setN_faults (a n : Nat) : (s.setN a n).faults = s.faults := by rw [State.setN, State.setReg_faults]
@[simp] theorem State.setN_twin (a n : Nat) : (s.setN a n).twin = s.twin := by rw [State.setN, State.setReg_twin]
@[simp] theorem State.setN_boot (a n : Nat) : (s.setN a n).boot = s.boot := by rw [State.setN, State.setReg_boot]
@[simp] theorem State.setN_sent (a n : Nat) : (s.setN a n).sent = s.sent := by rw [State.setN, State.setReg_sent]
@[simp] theorem State.setN_free (a n : Nat) : (s.setN a n).free = s.free := by rw [State.setN, State.setReg_free]
@[simp] theorem State.setN_pending (a n : Nat) : (s.setN a n).pending = s.pending := by rw [State.setN, State.setReg_pending]

@[simp] theorem State.evt_bus (p i : Nat) : (s.evt p i).bus = s.bus := by rw [State.evt, State.setBit_bus]
@[simp] theorem State.evt_pins (p i : Nat) : (s.evt p i).pins = s.pins := by rw [State.evt, State.setBit_pins]
@[simp] theorem State.evt_stp (p i : Nat) : (s.evt p i).stp = s.stp := by rw [State.evt, State.setBit_stp]
@[simp] theorem State.evt_chans (p i : Nat) : (s.evt p i).chans = s.chans := by rw [State.evt, State.setBit_chans]
@[simp] theorem State.evt_eng (p i : Nat) : (s.evt p i).eng = s.eng := by rw [State.evt, State.setBit_eng]
@[simp] theorem State.evt_mill (p i : Nat) : (s.evt p i).mill = s.mill := by rw [State.evt, State.setBit_mill]
@[simp] theorem State.evt_clp (p i : Nat) : (s.evt p i).clp = s.clp := by rw [State.evt, State.setBit_clp]
@[simp] theorem State.evt_ing (p i : Nat) : (s.evt p i).ing = s.ing := by rw [State.evt, State.setBit_ing]
@[simp] theorem State.evt_etm (p i : Nat) : (s.evt p i).etm = s.etm := by rw [State.evt, State.setBit_etm]
@[simp] theorem State.evt_ptp (p i : Nat) : (s.evt p i).ptp = s.ptp := by rw [State.evt, State.setBit_ptp]
@[simp] theorem State.evt_aud (p i : Nat) : (s.evt p i).aud = s.aud := by rw [State.evt, State.setBit_aud]
@[simp] theorem State.evt_mon (p i : Nat) : (s.evt p i).mon = s.mon := by rw [State.evt, State.setBit_mon]
@[simp] theorem State.evt_rv (p i : Nat) : (s.evt p i).rv = s.rv := by rw [State.evt, State.setBit_rv]
@[simp] theorem State.evt_bf (p i : Nat) : (s.evt p i).bf = s.bf := by rw [State.evt, State.setBit_bf]
@[simp] theorem State.evt_hbm (p i : Nat) : (s.evt p i).hbm = s.hbm := by rw [State.evt, State.setBit_hbm]
@[simp] theorem State.evt_cvu (p i : Nat) : (s.evt p i).cvu = s.cvu := by rw [State.evt, State.setBit_cvu]
@[simp] theorem State.evt_book (p i : Nat) : (s.evt p i).book = s.book := by rw [State.evt, State.setBit_book]
@[simp] theorem State.evt_faults (p i : Nat) : (s.evt p i).faults = s.faults := by rw [State.evt, State.setBit_faults]
@[simp] theorem State.evt_twin (p i : Nat) : (s.evt p i).twin = s.twin := by rw [State.evt, State.setBit_twin]
@[simp] theorem State.evt_boot (p i : Nat) : (s.evt p i).boot = s.boot := by rw [State.evt, State.setBit_boot]
@[simp] theorem State.evt_sent (p i : Nat) : (s.evt p i).sent = s.sent := by rw [State.evt, State.setBit_sent]
@[simp] theorem State.evt_free (p i : Nat) : (s.evt p i).free = s.free := by rw [State.evt, State.setBit_free]
@[simp] theorem State.evt_pending (p i : Nat) : (s.evt p i).pending = s.pending := by rw [State.evt, State.setBit_pending]

@[simp] theorem State.incSat_bus (a h l n : Nat) : (s.incSat a h l n).bus = s.bus := by rw [State.incSat, State.setF_bus]
@[simp] theorem State.incSat_pins (a h l n : Nat) : (s.incSat a h l n).pins = s.pins := by rw [State.incSat, State.setF_pins]
@[simp] theorem State.incSat_stp (a h l n : Nat) : (s.incSat a h l n).stp = s.stp := by rw [State.incSat, State.setF_stp]
@[simp] theorem State.incSat_chans (a h l n : Nat) : (s.incSat a h l n).chans = s.chans := by rw [State.incSat, State.setF_chans]
@[simp] theorem State.incSat_eng (a h l n : Nat) : (s.incSat a h l n).eng = s.eng := by rw [State.incSat, State.setF_eng]
@[simp] theorem State.incSat_mill (a h l n : Nat) : (s.incSat a h l n).mill = s.mill := by rw [State.incSat, State.setF_mill]
@[simp] theorem State.incSat_clp (a h l n : Nat) : (s.incSat a h l n).clp = s.clp := by rw [State.incSat, State.setF_clp]
@[simp] theorem State.incSat_ing (a h l n : Nat) : (s.incSat a h l n).ing = s.ing := by rw [State.incSat, State.setF_ing]
@[simp] theorem State.incSat_etm (a h l n : Nat) : (s.incSat a h l n).etm = s.etm := by rw [State.incSat, State.setF_etm]
@[simp] theorem State.incSat_ptp (a h l n : Nat) : (s.incSat a h l n).ptp = s.ptp := by rw [State.incSat, State.setF_ptp]
@[simp] theorem State.incSat_aud (a h l n : Nat) : (s.incSat a h l n).aud = s.aud := by rw [State.incSat, State.setF_aud]
@[simp] theorem State.incSat_mon (a h l n : Nat) : (s.incSat a h l n).mon = s.mon := by rw [State.incSat, State.setF_mon]
@[simp] theorem State.incSat_rv (a h l n : Nat) : (s.incSat a h l n).rv = s.rv := by rw [State.incSat, State.setF_rv]
@[simp] theorem State.incSat_bf (a h l n : Nat) : (s.incSat a h l n).bf = s.bf := by rw [State.incSat, State.setF_bf]
@[simp] theorem State.incSat_hbm (a h l n : Nat) : (s.incSat a h l n).hbm = s.hbm := by rw [State.incSat, State.setF_hbm]
@[simp] theorem State.incSat_cvu (a h l n : Nat) : (s.incSat a h l n).cvu = s.cvu := by rw [State.incSat, State.setF_cvu]
@[simp] theorem State.incSat_book (a h l n : Nat) : (s.incSat a h l n).book = s.book := by rw [State.incSat, State.setF_book]
@[simp] theorem State.incSat_faults (a h l n : Nat) : (s.incSat a h l n).faults = s.faults := by rw [State.incSat, State.setF_faults]
@[simp] theorem State.incSat_twin (a h l n : Nat) : (s.incSat a h l n).twin = s.twin := by rw [State.incSat, State.setF_twin]
@[simp] theorem State.incSat_boot (a h l n : Nat) : (s.incSat a h l n).boot = s.boot := by rw [State.incSat, State.setF_boot]
@[simp] theorem State.incSat_sent (a h l n : Nat) : (s.incSat a h l n).sent = s.sent := by rw [State.incSat, State.setF_sent]
@[simp] theorem State.incSat_free (a h l n : Nat) : (s.incSat a h l n).free = s.free := by rw [State.incSat, State.setF_free]
@[simp] theorem State.incSat_pending (a h l n : Nat) : (s.incSat a h l n).pending = s.pending := by rw [State.incSat, State.setF_pending]

@[simp] theorem State.inc32_bus (a : Nat) : (s.inc32 a).bus = s.bus := by rw [State.inc32, State.incSat_bus]
@[simp] theorem State.inc32_pins (a : Nat) : (s.inc32 a).pins = s.pins := by rw [State.inc32, State.incSat_pins]
@[simp] theorem State.inc32_stp (a : Nat) : (s.inc32 a).stp = s.stp := by rw [State.inc32, State.incSat_stp]
@[simp] theorem State.inc32_chans (a : Nat) : (s.inc32 a).chans = s.chans := by rw [State.inc32, State.incSat_chans]
@[simp] theorem State.inc32_eng (a : Nat) : (s.inc32 a).eng = s.eng := by rw [State.inc32, State.incSat_eng]
@[simp] theorem State.inc32_mill (a : Nat) : (s.inc32 a).mill = s.mill := by rw [State.inc32, State.incSat_mill]
@[simp] theorem State.inc32_clp (a : Nat) : (s.inc32 a).clp = s.clp := by rw [State.inc32, State.incSat_clp]
@[simp] theorem State.inc32_ing (a : Nat) : (s.inc32 a).ing = s.ing := by rw [State.inc32, State.incSat_ing]
@[simp] theorem State.inc32_etm (a : Nat) : (s.inc32 a).etm = s.etm := by rw [State.inc32, State.incSat_etm]
@[simp] theorem State.inc32_ptp (a : Nat) : (s.inc32 a).ptp = s.ptp := by rw [State.inc32, State.incSat_ptp]
@[simp] theorem State.inc32_aud (a : Nat) : (s.inc32 a).aud = s.aud := by rw [State.inc32, State.incSat_aud]
@[simp] theorem State.inc32_mon (a : Nat) : (s.inc32 a).mon = s.mon := by rw [State.inc32, State.incSat_mon]
@[simp] theorem State.inc32_rv (a : Nat) : (s.inc32 a).rv = s.rv := by rw [State.inc32, State.incSat_rv]
@[simp] theorem State.inc32_bf (a : Nat) : (s.inc32 a).bf = s.bf := by rw [State.inc32, State.incSat_bf]
@[simp] theorem State.inc32_hbm (a : Nat) : (s.inc32 a).hbm = s.hbm := by rw [State.inc32, State.incSat_hbm]
@[simp] theorem State.inc32_cvu (a : Nat) : (s.inc32 a).cvu = s.cvu := by rw [State.inc32, State.incSat_cvu]
@[simp] theorem State.inc32_book (a : Nat) : (s.inc32 a).book = s.book := by rw [State.inc32, State.incSat_book]
@[simp] theorem State.inc32_faults (a : Nat) : (s.inc32 a).faults = s.faults := by rw [State.inc32, State.incSat_faults]
@[simp] theorem State.inc32_twin (a : Nat) : (s.inc32 a).twin = s.twin := by rw [State.inc32, State.incSat_twin]
@[simp] theorem State.inc32_boot (a : Nat) : (s.inc32 a).boot = s.boot := by rw [State.inc32, State.incSat_boot]
@[simp] theorem State.inc32_sent (a : Nat) : (s.inc32 a).sent = s.sent := by rw [State.inc32, State.incSat_sent]
@[simp] theorem State.inc32_free (a : Nat) : (s.inc32 a).free = s.free := by rw [State.inc32, State.incSat_free]
@[simp] theorem State.inc32_pending (a : Nat) : (s.inc32 a).pending = s.pending := by rw [State.inc32, State.incSat_pending]

@[simp] theorem State.wrapAdd_bus (a n : Nat) : (s.wrapAdd a n).bus = s.bus := by rw [State.wrapAdd, State.setReg_bus]
@[simp] theorem State.wrapAdd_pins (a n : Nat) : (s.wrapAdd a n).pins = s.pins := by rw [State.wrapAdd, State.setReg_pins]
@[simp] theorem State.wrapAdd_stp (a n : Nat) : (s.wrapAdd a n).stp = s.stp := by rw [State.wrapAdd, State.setReg_stp]
@[simp] theorem State.wrapAdd_chans (a n : Nat) : (s.wrapAdd a n).chans = s.chans := by rw [State.wrapAdd, State.setReg_chans]
@[simp] theorem State.wrapAdd_eng (a n : Nat) : (s.wrapAdd a n).eng = s.eng := by rw [State.wrapAdd, State.setReg_eng]
@[simp] theorem State.wrapAdd_mill (a n : Nat) : (s.wrapAdd a n).mill = s.mill := by rw [State.wrapAdd, State.setReg_mill]
@[simp] theorem State.wrapAdd_clp (a n : Nat) : (s.wrapAdd a n).clp = s.clp := by rw [State.wrapAdd, State.setReg_clp]
@[simp] theorem State.wrapAdd_ing (a n : Nat) : (s.wrapAdd a n).ing = s.ing := by rw [State.wrapAdd, State.setReg_ing]
@[simp] theorem State.wrapAdd_etm (a n : Nat) : (s.wrapAdd a n).etm = s.etm := by rw [State.wrapAdd, State.setReg_etm]
@[simp] theorem State.wrapAdd_ptp (a n : Nat) : (s.wrapAdd a n).ptp = s.ptp := by rw [State.wrapAdd, State.setReg_ptp]
@[simp] theorem State.wrapAdd_aud (a n : Nat) : (s.wrapAdd a n).aud = s.aud := by rw [State.wrapAdd, State.setReg_aud]
@[simp] theorem State.wrapAdd_mon (a n : Nat) : (s.wrapAdd a n).mon = s.mon := by rw [State.wrapAdd, State.setReg_mon]
@[simp] theorem State.wrapAdd_rv (a n : Nat) : (s.wrapAdd a n).rv = s.rv := by rw [State.wrapAdd, State.setReg_rv]
@[simp] theorem State.wrapAdd_bf (a n : Nat) : (s.wrapAdd a n).bf = s.bf := by rw [State.wrapAdd, State.setReg_bf]
@[simp] theorem State.wrapAdd_hbm (a n : Nat) : (s.wrapAdd a n).hbm = s.hbm := by rw [State.wrapAdd, State.setReg_hbm]
@[simp] theorem State.wrapAdd_cvu (a n : Nat) : (s.wrapAdd a n).cvu = s.cvu := by rw [State.wrapAdd, State.setReg_cvu]
@[simp] theorem State.wrapAdd_book (a n : Nat) : (s.wrapAdd a n).book = s.book := by rw [State.wrapAdd, State.setReg_book]
@[simp] theorem State.wrapAdd_faults (a n : Nat) : (s.wrapAdd a n).faults = s.faults := by rw [State.wrapAdd, State.setReg_faults]
@[simp] theorem State.wrapAdd_twin (a n : Nat) : (s.wrapAdd a n).twin = s.twin := by rw [State.wrapAdd, State.setReg_twin]
@[simp] theorem State.wrapAdd_boot (a n : Nat) : (s.wrapAdd a n).boot = s.boot := by rw [State.wrapAdd, State.setReg_boot]
@[simp] theorem State.wrapAdd_sent (a n : Nat) : (s.wrapAdd a n).sent = s.sent := by rw [State.wrapAdd, State.setReg_sent]
@[simp] theorem State.wrapAdd_free (a n : Nat) : (s.wrapAdd a n).free = s.free := by rw [State.wrapAdd, State.setReg_free]
@[simp] theorem State.wrapAdd_pending (a n : Nat) : (s.wrapAdd a n).pending = s.pending := by rw [State.wrapAdd, State.setReg_pending]

@[simp] theorem State.setReg64_bus (a b : Nat) (v : BitVec 64) : (s.setReg64 a b v).bus = s.bus := by rw [State.setReg64, State.setReg_bus, State.setReg_bus]
@[simp] theorem State.setReg64_pins (a b : Nat) (v : BitVec 64) : (s.setReg64 a b v).pins = s.pins := by rw [State.setReg64, State.setReg_pins, State.setReg_pins]
@[simp] theorem State.setReg64_stp (a b : Nat) (v : BitVec 64) : (s.setReg64 a b v).stp = s.stp := by rw [State.setReg64, State.setReg_stp, State.setReg_stp]
@[simp] theorem State.setReg64_chans (a b : Nat) (v : BitVec 64) : (s.setReg64 a b v).chans = s.chans := by rw [State.setReg64, State.setReg_chans, State.setReg_chans]
@[simp] theorem State.setReg64_eng (a b : Nat) (v : BitVec 64) : (s.setReg64 a b v).eng = s.eng := by rw [State.setReg64, State.setReg_eng, State.setReg_eng]
@[simp] theorem State.setReg64_mill (a b : Nat) (v : BitVec 64) : (s.setReg64 a b v).mill = s.mill := by rw [State.setReg64, State.setReg_mill, State.setReg_mill]
@[simp] theorem State.setReg64_clp (a b : Nat) (v : BitVec 64) : (s.setReg64 a b v).clp = s.clp := by rw [State.setReg64, State.setReg_clp, State.setReg_clp]
@[simp] theorem State.setReg64_ing (a b : Nat) (v : BitVec 64) : (s.setReg64 a b v).ing = s.ing := by rw [State.setReg64, State.setReg_ing, State.setReg_ing]
@[simp] theorem State.setReg64_etm (a b : Nat) (v : BitVec 64) : (s.setReg64 a b v).etm = s.etm := by rw [State.setReg64, State.setReg_etm, State.setReg_etm]
@[simp] theorem State.setReg64_ptp (a b : Nat) (v : BitVec 64) : (s.setReg64 a b v).ptp = s.ptp := by rw [State.setReg64, State.setReg_ptp, State.setReg_ptp]
@[simp] theorem State.setReg64_aud (a b : Nat) (v : BitVec 64) : (s.setReg64 a b v).aud = s.aud := by rw [State.setReg64, State.setReg_aud, State.setReg_aud]
@[simp] theorem State.setReg64_mon (a b : Nat) (v : BitVec 64) : (s.setReg64 a b v).mon = s.mon := by rw [State.setReg64, State.setReg_mon, State.setReg_mon]
@[simp] theorem State.setReg64_rv (a b : Nat) (v : BitVec 64) : (s.setReg64 a b v).rv = s.rv := by rw [State.setReg64, State.setReg_rv, State.setReg_rv]
@[simp] theorem State.setReg64_bf (a b : Nat) (v : BitVec 64) : (s.setReg64 a b v).bf = s.bf := by rw [State.setReg64, State.setReg_bf, State.setReg_bf]
@[simp] theorem State.setReg64_hbm (a b : Nat) (v : BitVec 64) : (s.setReg64 a b v).hbm = s.hbm := by rw [State.setReg64, State.setReg_hbm, State.setReg_hbm]
@[simp] theorem State.setReg64_cvu (a b : Nat) (v : BitVec 64) : (s.setReg64 a b v).cvu = s.cvu := by rw [State.setReg64, State.setReg_cvu, State.setReg_cvu]
@[simp] theorem State.setReg64_book (a b : Nat) (v : BitVec 64) : (s.setReg64 a b v).book = s.book := by rw [State.setReg64, State.setReg_book, State.setReg_book]
@[simp] theorem State.setReg64_faults (a b : Nat) (v : BitVec 64) : (s.setReg64 a b v).faults = s.faults := by rw [State.setReg64, State.setReg_faults, State.setReg_faults]
@[simp] theorem State.setReg64_twin (a b : Nat) (v : BitVec 64) : (s.setReg64 a b v).twin = s.twin := by rw [State.setReg64, State.setReg_twin, State.setReg_twin]
@[simp] theorem State.setReg64_boot (a b : Nat) (v : BitVec 64) : (s.setReg64 a b v).boot = s.boot := by rw [State.setReg64, State.setReg_boot, State.setReg_boot]
@[simp] theorem State.setReg64_sent (a b : Nat) (v : BitVec 64) : (s.setReg64 a b v).sent = s.sent := by rw [State.setReg64, State.setReg_sent, State.setReg_sent]
@[simp] theorem State.setReg64_free (a b : Nat) (v : BitVec 64) : (s.setReg64 a b v).free = s.free := by rw [State.setReg64, State.setReg_free, State.setReg_free]
@[simp] theorem State.setReg64_pending (a b : Nat) (v : BitVec 64) : (s.setReg64 a b v).pending = s.pending := by rw [State.setReg64, State.setReg_pending, State.setReg_pending]

@[simp] theorem State.refuse_bus (p c w u : Nat) : (s.refuse p c w u).bus = s.bus := by rw [State.refuse, State.setN_bus, State.setBit_bus]
@[simp] theorem State.refuse_pins (p c w u : Nat) : (s.refuse p c w u).pins = s.pins := by rw [State.refuse, State.setN_pins, State.setBit_pins]
@[simp] theorem State.refuse_stp (p c w u : Nat) : (s.refuse p c w u).stp = s.stp := by rw [State.refuse, State.setN_stp, State.setBit_stp]
@[simp] theorem State.refuse_chans (p c w u : Nat) : (s.refuse p c w u).chans = s.chans := by rw [State.refuse, State.setN_chans, State.setBit_chans]
@[simp] theorem State.refuse_eng (p c w u : Nat) : (s.refuse p c w u).eng = s.eng := by rw [State.refuse, State.setN_eng, State.setBit_eng]
@[simp] theorem State.refuse_mill (p c w u : Nat) : (s.refuse p c w u).mill = s.mill := by rw [State.refuse, State.setN_mill, State.setBit_mill]
@[simp] theorem State.refuse_clp (p c w u : Nat) : (s.refuse p c w u).clp = s.clp := by rw [State.refuse, State.setN_clp, State.setBit_clp]
@[simp] theorem State.refuse_ing (p c w u : Nat) : (s.refuse p c w u).ing = s.ing := by rw [State.refuse, State.setN_ing, State.setBit_ing]
@[simp] theorem State.refuse_etm (p c w u : Nat) : (s.refuse p c w u).etm = s.etm := by rw [State.refuse, State.setN_etm, State.setBit_etm]
@[simp] theorem State.refuse_ptp (p c w u : Nat) : (s.refuse p c w u).ptp = s.ptp := by rw [State.refuse, State.setN_ptp, State.setBit_ptp]
@[simp] theorem State.refuse_aud (p c w u : Nat) : (s.refuse p c w u).aud = s.aud := by rw [State.refuse, State.setN_aud, State.setBit_aud]
@[simp] theorem State.refuse_mon (p c w u : Nat) : (s.refuse p c w u).mon = s.mon := by rw [State.refuse, State.setN_mon, State.setBit_mon]
@[simp] theorem State.refuse_rv (p c w u : Nat) : (s.refuse p c w u).rv = s.rv := by rw [State.refuse, State.setN_rv, State.setBit_rv]
@[simp] theorem State.refuse_bf (p c w u : Nat) : (s.refuse p c w u).bf = s.bf := by rw [State.refuse, State.setN_bf, State.setBit_bf]
@[simp] theorem State.refuse_hbm (p c w u : Nat) : (s.refuse p c w u).hbm = s.hbm := by rw [State.refuse, State.setN_hbm, State.setBit_hbm]
@[simp] theorem State.refuse_cvu (p c w u : Nat) : (s.refuse p c w u).cvu = s.cvu := by rw [State.refuse, State.setN_cvu, State.setBit_cvu]
@[simp] theorem State.refuse_book (p c w u : Nat) : (s.refuse p c w u).book = s.book := by rw [State.refuse, State.setN_book, State.setBit_book]
@[simp] theorem State.refuse_faults (p c w u : Nat) : (s.refuse p c w u).faults = s.faults := by rw [State.refuse, State.setN_faults, State.setBit_faults]
@[simp] theorem State.refuse_twin (p c w u : Nat) : (s.refuse p c w u).twin = s.twin := by rw [State.refuse, State.setN_twin, State.setBit_twin]
@[simp] theorem State.refuse_boot (p c w u : Nat) : (s.refuse p c w u).boot = s.boot := by rw [State.refuse, State.setN_boot, State.setBit_boot]
@[simp] theorem State.refuse_sent (p c w u : Nat) : (s.refuse p c w u).sent = s.sent := by rw [State.refuse, State.setN_sent, State.setBit_sent]
@[simp] theorem State.refuse_free (p c w u : Nat) : (s.refuse p c w u).free = s.free := by rw [State.refuse, State.setN_free, State.setBit_free]
@[simp] theorem State.refuse_pending (p c w u : Nat) : (s.refuse p c w u).pending = s.pending := by rw [State.refuse, State.setN_pending, State.setBit_pending]

@[simp] theorem State.clearRefusal_bus (p : Nat) : (s.clearRefusal p).bus = s.bus := by rw [State.clearRefusal, State.setReg_bus, State.setBit_bus]
@[simp] theorem State.clearRefusal_pins (p : Nat) : (s.clearRefusal p).pins = s.pins := by rw [State.clearRefusal, State.setReg_pins, State.setBit_pins]
@[simp] theorem State.clearRefusal_stp (p : Nat) : (s.clearRefusal p).stp = s.stp := by rw [State.clearRefusal, State.setReg_stp, State.setBit_stp]
@[simp] theorem State.clearRefusal_chans (p : Nat) : (s.clearRefusal p).chans = s.chans := by rw [State.clearRefusal, State.setReg_chans, State.setBit_chans]
@[simp] theorem State.clearRefusal_eng (p : Nat) : (s.clearRefusal p).eng = s.eng := by rw [State.clearRefusal, State.setReg_eng, State.setBit_eng]
@[simp] theorem State.clearRefusal_mill (p : Nat) : (s.clearRefusal p).mill = s.mill := by rw [State.clearRefusal, State.setReg_mill, State.setBit_mill]
@[simp] theorem State.clearRefusal_clp (p : Nat) : (s.clearRefusal p).clp = s.clp := by rw [State.clearRefusal, State.setReg_clp, State.setBit_clp]
@[simp] theorem State.clearRefusal_ing (p : Nat) : (s.clearRefusal p).ing = s.ing := by rw [State.clearRefusal, State.setReg_ing, State.setBit_ing]
@[simp] theorem State.clearRefusal_etm (p : Nat) : (s.clearRefusal p).etm = s.etm := by rw [State.clearRefusal, State.setReg_etm, State.setBit_etm]
@[simp] theorem State.clearRefusal_ptp (p : Nat) : (s.clearRefusal p).ptp = s.ptp := by rw [State.clearRefusal, State.setReg_ptp, State.setBit_ptp]
@[simp] theorem State.clearRefusal_aud (p : Nat) : (s.clearRefusal p).aud = s.aud := by rw [State.clearRefusal, State.setReg_aud, State.setBit_aud]
@[simp] theorem State.clearRefusal_mon (p : Nat) : (s.clearRefusal p).mon = s.mon := by rw [State.clearRefusal, State.setReg_mon, State.setBit_mon]
@[simp] theorem State.clearRefusal_rv (p : Nat) : (s.clearRefusal p).rv = s.rv := by rw [State.clearRefusal, State.setReg_rv, State.setBit_rv]
@[simp] theorem State.clearRefusal_bf (p : Nat) : (s.clearRefusal p).bf = s.bf := by rw [State.clearRefusal, State.setReg_bf, State.setBit_bf]
@[simp] theorem State.clearRefusal_hbm (p : Nat) : (s.clearRefusal p).hbm = s.hbm := by rw [State.clearRefusal, State.setReg_hbm, State.setBit_hbm]
@[simp] theorem State.clearRefusal_cvu (p : Nat) : (s.clearRefusal p).cvu = s.cvu := by rw [State.clearRefusal, State.setReg_cvu, State.setBit_cvu]
@[simp] theorem State.clearRefusal_book (p : Nat) : (s.clearRefusal p).book = s.book := by rw [State.clearRefusal, State.setReg_book, State.setBit_book]
@[simp] theorem State.clearRefusal_faults (p : Nat) : (s.clearRefusal p).faults = s.faults := by rw [State.clearRefusal, State.setReg_faults, State.setBit_faults]
@[simp] theorem State.clearRefusal_twin (p : Nat) : (s.clearRefusal p).twin = s.twin := by rw [State.clearRefusal, State.setReg_twin, State.setBit_twin]
@[simp] theorem State.clearRefusal_boot (p : Nat) : (s.clearRefusal p).boot = s.boot := by rw [State.clearRefusal, State.setReg_boot, State.setBit_boot]
@[simp] theorem State.clearRefusal_sent (p : Nat) : (s.clearRefusal p).sent = s.sent := by rw [State.clearRefusal, State.setReg_sent, State.setBit_sent]
@[simp] theorem State.clearRefusal_free (p : Nat) : (s.clearRefusal p).free = s.free := by rw [State.clearRefusal, State.setReg_free, State.setBit_free]
@[simp] theorem State.clearRefusal_pending (p : Nat) : (s.clearRefusal p).pending = s.pending := by rw [State.clearRefusal, State.setReg_pending, State.setBit_pending]

@[simp] theorem State.activate_bus (p : Nat) : (s.activate p).bus = s.bus := by rw [State.activate, State.clearRefusal_bus, State.setBit_bus, State.setBit_bus]
@[simp] theorem State.activate_pins (p : Nat) : (s.activate p).pins = s.pins := by rw [State.activate, State.clearRefusal_pins, State.setBit_pins, State.setBit_pins]
@[simp] theorem State.activate_stp (p : Nat) : (s.activate p).stp = s.stp := by rw [State.activate, State.clearRefusal_stp, State.setBit_stp, State.setBit_stp]
@[simp] theorem State.activate_chans (p : Nat) : (s.activate p).chans = s.chans := by rw [State.activate, State.clearRefusal_chans, State.setBit_chans, State.setBit_chans]
@[simp] theorem State.activate_eng (p : Nat) : (s.activate p).eng = s.eng := by rw [State.activate, State.clearRefusal_eng, State.setBit_eng, State.setBit_eng]
@[simp] theorem State.activate_mill (p : Nat) : (s.activate p).mill = s.mill := by rw [State.activate, State.clearRefusal_mill, State.setBit_mill, State.setBit_mill]
@[simp] theorem State.activate_clp (p : Nat) : (s.activate p).clp = s.clp := by rw [State.activate, State.clearRefusal_clp, State.setBit_clp, State.setBit_clp]
@[simp] theorem State.activate_ing (p : Nat) : (s.activate p).ing = s.ing := by rw [State.activate, State.clearRefusal_ing, State.setBit_ing, State.setBit_ing]
@[simp] theorem State.activate_etm (p : Nat) : (s.activate p).etm = s.etm := by rw [State.activate, State.clearRefusal_etm, State.setBit_etm, State.setBit_etm]
@[simp] theorem State.activate_ptp (p : Nat) : (s.activate p).ptp = s.ptp := by rw [State.activate, State.clearRefusal_ptp, State.setBit_ptp, State.setBit_ptp]
@[simp] theorem State.activate_aud (p : Nat) : (s.activate p).aud = s.aud := by rw [State.activate, State.clearRefusal_aud, State.setBit_aud, State.setBit_aud]
@[simp] theorem State.activate_mon (p : Nat) : (s.activate p).mon = s.mon := by rw [State.activate, State.clearRefusal_mon, State.setBit_mon, State.setBit_mon]
@[simp] theorem State.activate_rv (p : Nat) : (s.activate p).rv = s.rv := by rw [State.activate, State.clearRefusal_rv, State.setBit_rv, State.setBit_rv]
@[simp] theorem State.activate_bf (p : Nat) : (s.activate p).bf = s.bf := by rw [State.activate, State.clearRefusal_bf, State.setBit_bf, State.setBit_bf]
@[simp] theorem State.activate_hbm (p : Nat) : (s.activate p).hbm = s.hbm := by rw [State.activate, State.clearRefusal_hbm, State.setBit_hbm, State.setBit_hbm]
@[simp] theorem State.activate_cvu (p : Nat) : (s.activate p).cvu = s.cvu := by rw [State.activate, State.clearRefusal_cvu, State.setBit_cvu, State.setBit_cvu]
@[simp] theorem State.activate_book (p : Nat) : (s.activate p).book = s.book := by rw [State.activate, State.clearRefusal_book, State.setBit_book, State.setBit_book]
@[simp] theorem State.activate_faults (p : Nat) : (s.activate p).faults = s.faults := by rw [State.activate, State.clearRefusal_faults, State.setBit_faults, State.setBit_faults]
@[simp] theorem State.activate_twin (p : Nat) : (s.activate p).twin = s.twin := by rw [State.activate, State.clearRefusal_twin, State.setBit_twin, State.setBit_twin]
@[simp] theorem State.activate_boot (p : Nat) : (s.activate p).boot = s.boot := by rw [State.activate, State.clearRefusal_boot, State.setBit_boot, State.setBit_boot]
@[simp] theorem State.activate_sent (p : Nat) : (s.activate p).sent = s.sent := by rw [State.activate, State.clearRefusal_sent, State.setBit_sent, State.setBit_sent]
@[simp] theorem State.activate_free (p : Nat) : (s.activate p).free = s.free := by rw [State.activate, State.clearRefusal_free, State.setBit_free, State.setBit_free]
@[simp] theorem State.activate_pending (p : Nat) : (s.activate p).pending = s.pending := by rw [State.activate, State.clearRefusal_pending, State.setBit_pending, State.setBit_pending]

@[simp] theorem State.deactivate_bus (p : Nat) : (s.deactivate p).bus = s.bus := by rw [State.deactivate, State.setBit_bus, State.setBit_bus]
@[simp] theorem State.deactivate_pins (p : Nat) : (s.deactivate p).pins = s.pins := by rw [State.deactivate, State.setBit_pins, State.setBit_pins]
@[simp] theorem State.deactivate_stp (p : Nat) : (s.deactivate p).stp = s.stp := by rw [State.deactivate, State.setBit_stp, State.setBit_stp]
@[simp] theorem State.deactivate_chans (p : Nat) : (s.deactivate p).chans = s.chans := by rw [State.deactivate, State.setBit_chans, State.setBit_chans]
@[simp] theorem State.deactivate_eng (p : Nat) : (s.deactivate p).eng = s.eng := by rw [State.deactivate, State.setBit_eng, State.setBit_eng]
@[simp] theorem State.deactivate_mill (p : Nat) : (s.deactivate p).mill = s.mill := by rw [State.deactivate, State.setBit_mill, State.setBit_mill]
@[simp] theorem State.deactivate_clp (p : Nat) : (s.deactivate p).clp = s.clp := by rw [State.deactivate, State.setBit_clp, State.setBit_clp]
@[simp] theorem State.deactivate_ing (p : Nat) : (s.deactivate p).ing = s.ing := by rw [State.deactivate, State.setBit_ing, State.setBit_ing]
@[simp] theorem State.deactivate_etm (p : Nat) : (s.deactivate p).etm = s.etm := by rw [State.deactivate, State.setBit_etm, State.setBit_etm]
@[simp] theorem State.deactivate_ptp (p : Nat) : (s.deactivate p).ptp = s.ptp := by rw [State.deactivate, State.setBit_ptp, State.setBit_ptp]
@[simp] theorem State.deactivate_aud (p : Nat) : (s.deactivate p).aud = s.aud := by rw [State.deactivate, State.setBit_aud, State.setBit_aud]
@[simp] theorem State.deactivate_mon (p : Nat) : (s.deactivate p).mon = s.mon := by rw [State.deactivate, State.setBit_mon, State.setBit_mon]
@[simp] theorem State.deactivate_rv (p : Nat) : (s.deactivate p).rv = s.rv := by rw [State.deactivate, State.setBit_rv, State.setBit_rv]
@[simp] theorem State.deactivate_bf (p : Nat) : (s.deactivate p).bf = s.bf := by rw [State.deactivate, State.setBit_bf, State.setBit_bf]
@[simp] theorem State.deactivate_hbm (p : Nat) : (s.deactivate p).hbm = s.hbm := by rw [State.deactivate, State.setBit_hbm, State.setBit_hbm]
@[simp] theorem State.deactivate_cvu (p : Nat) : (s.deactivate p).cvu = s.cvu := by rw [State.deactivate, State.setBit_cvu, State.setBit_cvu]
@[simp] theorem State.deactivate_book (p : Nat) : (s.deactivate p).book = s.book := by rw [State.deactivate, State.setBit_book, State.setBit_book]
@[simp] theorem State.deactivate_faults (p : Nat) : (s.deactivate p).faults = s.faults := by rw [State.deactivate, State.setBit_faults, State.setBit_faults]
@[simp] theorem State.deactivate_twin (p : Nat) : (s.deactivate p).twin = s.twin := by rw [State.deactivate, State.setBit_twin, State.setBit_twin]
@[simp] theorem State.deactivate_boot (p : Nat) : (s.deactivate p).boot = s.boot := by rw [State.deactivate, State.setBit_boot, State.setBit_boot]
@[simp] theorem State.deactivate_sent (p : Nat) : (s.deactivate p).sent = s.sent := by rw [State.deactivate, State.setBit_sent, State.setBit_sent]
@[simp] theorem State.deactivate_free (p : Nat) : (s.deactivate p).free = s.free := by rw [State.deactivate, State.setBit_free, State.setBit_free]
@[simp] theorem State.deactivate_pending (p : Nat) : (s.deactivate p).pending = s.pending := by rw [State.deactivate, State.setBit_pending, State.setBit_pending]

@[simp] theorem State.failCheck_bus (p c w u : Nat) : (s.failCheck p c w u).bus = s.bus := by rw [State.failCheck, State.refuse_bus, State.deactivate_bus]
@[simp] theorem State.failCheck_pins (p c w u : Nat) : (s.failCheck p c w u).pins = s.pins := by rw [State.failCheck, State.refuse_pins, State.deactivate_pins]
@[simp] theorem State.failCheck_stp (p c w u : Nat) : (s.failCheck p c w u).stp = s.stp := by rw [State.failCheck, State.refuse_stp, State.deactivate_stp]
@[simp] theorem State.failCheck_chans (p c w u : Nat) : (s.failCheck p c w u).chans = s.chans := by rw [State.failCheck, State.refuse_chans, State.deactivate_chans]
@[simp] theorem State.failCheck_eng (p c w u : Nat) : (s.failCheck p c w u).eng = s.eng := by rw [State.failCheck, State.refuse_eng, State.deactivate_eng]
@[simp] theorem State.failCheck_mill (p c w u : Nat) : (s.failCheck p c w u).mill = s.mill := by rw [State.failCheck, State.refuse_mill, State.deactivate_mill]
@[simp] theorem State.failCheck_clp (p c w u : Nat) : (s.failCheck p c w u).clp = s.clp := by rw [State.failCheck, State.refuse_clp, State.deactivate_clp]
@[simp] theorem State.failCheck_ing (p c w u : Nat) : (s.failCheck p c w u).ing = s.ing := by rw [State.failCheck, State.refuse_ing, State.deactivate_ing]
@[simp] theorem State.failCheck_etm (p c w u : Nat) : (s.failCheck p c w u).etm = s.etm := by rw [State.failCheck, State.refuse_etm, State.deactivate_etm]
@[simp] theorem State.failCheck_ptp (p c w u : Nat) : (s.failCheck p c w u).ptp = s.ptp := by rw [State.failCheck, State.refuse_ptp, State.deactivate_ptp]
@[simp] theorem State.failCheck_aud (p c w u : Nat) : (s.failCheck p c w u).aud = s.aud := by rw [State.failCheck, State.refuse_aud, State.deactivate_aud]
@[simp] theorem State.failCheck_mon (p c w u : Nat) : (s.failCheck p c w u).mon = s.mon := by rw [State.failCheck, State.refuse_mon, State.deactivate_mon]
@[simp] theorem State.failCheck_rv (p c w u : Nat) : (s.failCheck p c w u).rv = s.rv := by rw [State.failCheck, State.refuse_rv, State.deactivate_rv]
@[simp] theorem State.failCheck_bf (p c w u : Nat) : (s.failCheck p c w u).bf = s.bf := by rw [State.failCheck, State.refuse_bf, State.deactivate_bf]
@[simp] theorem State.failCheck_hbm (p c w u : Nat) : (s.failCheck p c w u).hbm = s.hbm := by rw [State.failCheck, State.refuse_hbm, State.deactivate_hbm]
@[simp] theorem State.failCheck_cvu (p c w u : Nat) : (s.failCheck p c w u).cvu = s.cvu := by rw [State.failCheck, State.refuse_cvu, State.deactivate_cvu]
@[simp] theorem State.failCheck_book (p c w u : Nat) : (s.failCheck p c w u).book = s.book := by rw [State.failCheck, State.refuse_book, State.deactivate_book]
@[simp] theorem State.failCheck_faults (p c w u : Nat) : (s.failCheck p c w u).faults = s.faults := by rw [State.failCheck, State.refuse_faults, State.deactivate_faults]
@[simp] theorem State.failCheck_twin (p c w u : Nat) : (s.failCheck p c w u).twin = s.twin := by rw [State.failCheck, State.refuse_twin, State.deactivate_twin]
@[simp] theorem State.failCheck_boot (p c w u : Nat) : (s.failCheck p c w u).boot = s.boot := by rw [State.failCheck, State.refuse_boot, State.deactivate_boot]
@[simp] theorem State.failCheck_sent (p c w u : Nat) : (s.failCheck p c w u).sent = s.sent := by rw [State.failCheck, State.refuse_sent, State.deactivate_sent]
@[simp] theorem State.failCheck_free (p c w u : Nat) : (s.failCheck p c w u).free = s.free := by rw [State.failCheck, State.refuse_free, State.deactivate_free]
@[simp] theorem State.failCheck_pending (p c w u : Nat) : (s.failCheck p c w u).pending = s.pending := by rw [State.failCheck, State.refuse_pending, State.deactivate_pending]

@[simp] theorem State.recoverReq_bus (i : Nat) : (s.recoverReq i).bus = s.bus := by rw [State.recoverReq, State.setBit_bus]
@[simp] theorem State.recoverReq_pins (i : Nat) : (s.recoverReq i).pins = s.pins := by rw [State.recoverReq, State.setBit_pins]
@[simp] theorem State.recoverReq_stp (i : Nat) : (s.recoverReq i).stp = s.stp := by rw [State.recoverReq, State.setBit_stp]
@[simp] theorem State.recoverReq_chans (i : Nat) : (s.recoverReq i).chans = s.chans := by rw [State.recoverReq, State.setBit_chans]
@[simp] theorem State.recoverReq_eng (i : Nat) : (s.recoverReq i).eng = s.eng := by rw [State.recoverReq, State.setBit_eng]
@[simp] theorem State.recoverReq_mill (i : Nat) : (s.recoverReq i).mill = s.mill := by rw [State.recoverReq, State.setBit_mill]
@[simp] theorem State.recoverReq_clp (i : Nat) : (s.recoverReq i).clp = s.clp := by rw [State.recoverReq, State.setBit_clp]
@[simp] theorem State.recoverReq_ing (i : Nat) : (s.recoverReq i).ing = s.ing := by rw [State.recoverReq, State.setBit_ing]
@[simp] theorem State.recoverReq_etm (i : Nat) : (s.recoverReq i).etm = s.etm := by rw [State.recoverReq, State.setBit_etm]
@[simp] theorem State.recoverReq_ptp (i : Nat) : (s.recoverReq i).ptp = s.ptp := by rw [State.recoverReq, State.setBit_ptp]
@[simp] theorem State.recoverReq_aud (i : Nat) : (s.recoverReq i).aud = s.aud := by rw [State.recoverReq, State.setBit_aud]
@[simp] theorem State.recoverReq_mon (i : Nat) : (s.recoverReq i).mon = s.mon := by rw [State.recoverReq, State.setBit_mon]
@[simp] theorem State.recoverReq_rv (i : Nat) : (s.recoverReq i).rv = s.rv := by rw [State.recoverReq, State.setBit_rv]
@[simp] theorem State.recoverReq_bf (i : Nat) : (s.recoverReq i).bf = s.bf := by rw [State.recoverReq, State.setBit_bf]
@[simp] theorem State.recoverReq_hbm (i : Nat) : (s.recoverReq i).hbm = s.hbm := by rw [State.recoverReq, State.setBit_hbm]
@[simp] theorem State.recoverReq_cvu (i : Nat) : (s.recoverReq i).cvu = s.cvu := by rw [State.recoverReq, State.setBit_cvu]
@[simp] theorem State.recoverReq_book (i : Nat) : (s.recoverReq i).book = s.book := by rw [State.recoverReq, State.setBit_book]
@[simp] theorem State.recoverReq_faults (i : Nat) : (s.recoverReq i).faults = s.faults := by rw [State.recoverReq, State.setBit_faults]
@[simp] theorem State.recoverReq_twin (i : Nat) : (s.recoverReq i).twin = s.twin := by rw [State.recoverReq, State.setBit_twin]
@[simp] theorem State.recoverReq_boot (i : Nat) : (s.recoverReq i).boot = s.boot := by rw [State.recoverReq, State.setBit_boot]
@[simp] theorem State.recoverReq_sent (i : Nat) : (s.recoverReq i).sent = s.sent := by rw [State.recoverReq, State.setBit_sent]
@[simp] theorem State.recoverReq_free (i : Nat) : (s.recoverReq i).free = s.free := by rw [State.recoverReq, State.setBit_free]
@[simp] theorem State.recoverReq_pending (i : Nat) : (s.recoverReq i).pending = s.pending := by rw [State.recoverReq, State.setBit_pending]

@[simp] theorem State.unitDegraded_bus (p : Nat) (b : Bool) : (s.unitDegraded p b).bus = s.bus := by rw [State.unitDegraded, State.setBit_bus]
@[simp] theorem State.unitDegraded_pins (p : Nat) (b : Bool) : (s.unitDegraded p b).pins = s.pins := by rw [State.unitDegraded, State.setBit_pins]
@[simp] theorem State.unitDegraded_stp (p : Nat) (b : Bool) : (s.unitDegraded p b).stp = s.stp := by rw [State.unitDegraded, State.setBit_stp]
@[simp] theorem State.unitDegraded_chans (p : Nat) (b : Bool) : (s.unitDegraded p b).chans = s.chans := by rw [State.unitDegraded, State.setBit_chans]
@[simp] theorem State.unitDegraded_eng (p : Nat) (b : Bool) : (s.unitDegraded p b).eng = s.eng := by rw [State.unitDegraded, State.setBit_eng]
@[simp] theorem State.unitDegraded_mill (p : Nat) (b : Bool) : (s.unitDegraded p b).mill = s.mill := by rw [State.unitDegraded, State.setBit_mill]
@[simp] theorem State.unitDegraded_clp (p : Nat) (b : Bool) : (s.unitDegraded p b).clp = s.clp := by rw [State.unitDegraded, State.setBit_clp]
@[simp] theorem State.unitDegraded_ing (p : Nat) (b : Bool) : (s.unitDegraded p b).ing = s.ing := by rw [State.unitDegraded, State.setBit_ing]
@[simp] theorem State.unitDegraded_etm (p : Nat) (b : Bool) : (s.unitDegraded p b).etm = s.etm := by rw [State.unitDegraded, State.setBit_etm]
@[simp] theorem State.unitDegraded_ptp (p : Nat) (b : Bool) : (s.unitDegraded p b).ptp = s.ptp := by rw [State.unitDegraded, State.setBit_ptp]
@[simp] theorem State.unitDegraded_aud (p : Nat) (b : Bool) : (s.unitDegraded p b).aud = s.aud := by rw [State.unitDegraded, State.setBit_aud]
@[simp] theorem State.unitDegraded_mon (p : Nat) (b : Bool) : (s.unitDegraded p b).mon = s.mon := by rw [State.unitDegraded, State.setBit_mon]
@[simp] theorem State.unitDegraded_rv (p : Nat) (b : Bool) : (s.unitDegraded p b).rv = s.rv := by rw [State.unitDegraded, State.setBit_rv]
@[simp] theorem State.unitDegraded_bf (p : Nat) (b : Bool) : (s.unitDegraded p b).bf = s.bf := by rw [State.unitDegraded, State.setBit_bf]
@[simp] theorem State.unitDegraded_hbm (p : Nat) (b : Bool) : (s.unitDegraded p b).hbm = s.hbm := by rw [State.unitDegraded, State.setBit_hbm]
@[simp] theorem State.unitDegraded_cvu (p : Nat) (b : Bool) : (s.unitDegraded p b).cvu = s.cvu := by rw [State.unitDegraded, State.setBit_cvu]
@[simp] theorem State.unitDegraded_book (p : Nat) (b : Bool) : (s.unitDegraded p b).book = s.book := by rw [State.unitDegraded, State.setBit_book]
@[simp] theorem State.unitDegraded_faults (p : Nat) (b : Bool) : (s.unitDegraded p b).faults = s.faults := by rw [State.unitDegraded, State.setBit_faults]
@[simp] theorem State.unitDegraded_twin (p : Nat) (b : Bool) : (s.unitDegraded p b).twin = s.twin := by rw [State.unitDegraded, State.setBit_twin]
@[simp] theorem State.unitDegraded_boot (p : Nat) (b : Bool) : (s.unitDegraded p b).boot = s.boot := by rw [State.unitDegraded, State.setBit_boot]
@[simp] theorem State.unitDegraded_sent (p : Nat) (b : Bool) : (s.unitDegraded p b).sent = s.sent := by rw [State.unitDegraded, State.setBit_sent]
@[simp] theorem State.unitDegraded_free (p : Nat) (b : Bool) : (s.unitDegraded p b).free = s.free := by rw [State.unitDegraded, State.setBit_free]
@[simp] theorem State.unitDegraded_pending (p : Nat) (b : Bool) : (s.unitDegraded p b).pending = s.pending := by rw [State.unitDegraded, State.setBit_pending]

@[simp] theorem State.raise_regs (c p l m : Nat) : (s.raise c p l m).regs = s.regs := rfl
@[simp] theorem State.raise_bus (c p l m : Nat) : (s.raise c p l m).bus = s.bus := rfl
@[simp] theorem State.raise_pins (c p l m : Nat) : (s.raise c p l m).pins = s.pins := rfl
@[simp] theorem State.raise_stp (c p l m : Nat) : (s.raise c p l m).stp = s.stp := rfl
@[simp] theorem State.raise_chans (c p l m : Nat) : (s.raise c p l m).chans = s.chans := rfl
@[simp] theorem State.raise_eng (c p l m : Nat) : (s.raise c p l m).eng = s.eng := rfl
@[simp] theorem State.raise_mill (c p l m : Nat) : (s.raise c p l m).mill = s.mill := rfl
@[simp] theorem State.raise_clp (c p l m : Nat) : (s.raise c p l m).clp = s.clp := rfl
@[simp] theorem State.raise_ing (c p l m : Nat) : (s.raise c p l m).ing = s.ing := rfl
@[simp] theorem State.raise_etm (c p l m : Nat) : (s.raise c p l m).etm = s.etm := rfl
@[simp] theorem State.raise_ptp (c p l m : Nat) : (s.raise c p l m).ptp = s.ptp := rfl
@[simp] theorem State.raise_aud (c p l m : Nat) : (s.raise c p l m).aud = s.aud := rfl
@[simp] theorem State.raise_mon (c p l m : Nat) : (s.raise c p l m).mon = s.mon := rfl
@[simp] theorem State.raise_rv (c p l m : Nat) : (s.raise c p l m).rv = s.rv := rfl
@[simp] theorem State.raise_bf (c p l m : Nat) : (s.raise c p l m).bf = s.bf := rfl
@[simp] theorem State.raise_hbm (c p l m : Nat) : (s.raise c p l m).hbm = s.hbm := rfl
@[simp] theorem State.raise_cvu (c p l m : Nat) : (s.raise c p l m).cvu = s.cvu := rfl
@[simp] theorem State.raise_book (c p l m : Nat) : (s.raise c p l m).book = s.book := rfl
@[simp] theorem State.raise_twin (c p l m : Nat) : (s.raise c p l m).twin = s.twin := rfl
@[simp] theorem State.raise_boot (c p l m : Nat) : (s.raise c p l m).boot = s.boot := rfl
@[simp] theorem State.raise_sent (c p l m : Nat) : (s.raise c p l m).sent = s.sent := rfl
@[simp] theorem State.raise_free (c p l m : Nat) : (s.raise c p l m).free = s.free := rfl
@[simp] theorem State.raise_pending (c p l m : Nat) : (s.raise c p l m).pending = s.pending := rfl

@[simp] theorem State.setPos_regs (p : BitVec 64) : (s.setPos p).regs = s.regs := rfl
@[simp] theorem State.setPos_bus (p : BitVec 64) : (s.setPos p).bus = s.bus := rfl
@[simp] theorem State.setPos_pins (p : BitVec 64) : (s.setPos p).pins = s.pins := rfl
@[simp] theorem State.setPos_chans (p : BitVec 64) : (s.setPos p).chans = s.chans := rfl
@[simp] theorem State.setPos_eng (p : BitVec 64) : (s.setPos p).eng = s.eng := rfl
@[simp] theorem State.setPos_mill (p : BitVec 64) : (s.setPos p).mill = s.mill := rfl
@[simp] theorem State.setPos_clp (p : BitVec 64) : (s.setPos p).clp = s.clp := rfl
@[simp] theorem State.setPos_ing (p : BitVec 64) : (s.setPos p).ing = s.ing := rfl
@[simp] theorem State.setPos_etm (p : BitVec 64) : (s.setPos p).etm = s.etm := rfl
@[simp] theorem State.setPos_ptp (p : BitVec 64) : (s.setPos p).ptp = s.ptp := rfl
@[simp] theorem State.setPos_aud (p : BitVec 64) : (s.setPos p).aud = s.aud := rfl
@[simp] theorem State.setPos_mon (p : BitVec 64) : (s.setPos p).mon = s.mon := rfl
@[simp] theorem State.setPos_rv (p : BitVec 64) : (s.setPos p).rv = s.rv := rfl
@[simp] theorem State.setPos_bf (p : BitVec 64) : (s.setPos p).bf = s.bf := rfl
@[simp] theorem State.setPos_hbm (p : BitVec 64) : (s.setPos p).hbm = s.hbm := rfl
@[simp] theorem State.setPos_cvu (p : BitVec 64) : (s.setPos p).cvu = s.cvu := rfl
@[simp] theorem State.setPos_book (p : BitVec 64) : (s.setPos p).book = s.book := rfl
@[simp] theorem State.setPos_faults (p : BitVec 64) : (s.setPos p).faults = s.faults := rfl
@[simp] theorem State.setPos_twin (p : BitVec 64) : (s.setPos p).twin = s.twin := rfl
@[simp] theorem State.setPos_boot (p : BitVec 64) : (s.setPos p).boot = s.boot := rfl
@[simp] theorem State.setPos_sent (p : BitVec 64) : (s.setPos p).sent = s.sent := rfl
@[simp] theorem State.setPos_free (p : BitVec 64) : (s.setPos p).free = s.free := rfl
@[simp] theorem State.setPos_pending (p : BitVec 64) : (s.setPos p).pending = s.pending := rfl
@[simp] theorem State.setPos_reg (p : BitVec 64) (k : Nat) : (s.setPos p).reg k = s.reg k := rfl

@[simp] theorem State.setChan_regs (n : Nat) (c : Chan) : (s.setChan n c).regs = s.regs := rfl
@[simp] theorem State.setChan_bus (n : Nat) (c : Chan) : (s.setChan n c).bus = s.bus := rfl
@[simp] theorem State.setChan_pins (n : Nat) (c : Chan) : (s.setChan n c).pins = s.pins := rfl
@[simp] theorem State.setChan_stp (n : Nat) (c : Chan) : (s.setChan n c).stp = s.stp := rfl
@[simp] theorem State.setChan_eng (n : Nat) (c : Chan) : (s.setChan n c).eng = s.eng := rfl
@[simp] theorem State.setChan_mill (n : Nat) (c : Chan) : (s.setChan n c).mill = s.mill := rfl
@[simp] theorem State.setChan_clp (n : Nat) (c : Chan) : (s.setChan n c).clp = s.clp := rfl
@[simp] theorem State.setChan_ing (n : Nat) (c : Chan) : (s.setChan n c).ing = s.ing := rfl
@[simp] theorem State.setChan_etm (n : Nat) (c : Chan) : (s.setChan n c).etm = s.etm := rfl
@[simp] theorem State.setChan_ptp (n : Nat) (c : Chan) : (s.setChan n c).ptp = s.ptp := rfl
@[simp] theorem State.setChan_aud (n : Nat) (c : Chan) : (s.setChan n c).aud = s.aud := rfl
@[simp] theorem State.setChan_mon (n : Nat) (c : Chan) : (s.setChan n c).mon = s.mon := rfl
@[simp] theorem State.setChan_rv (n : Nat) (c : Chan) : (s.setChan n c).rv = s.rv := rfl
@[simp] theorem State.setChan_bf (n : Nat) (c : Chan) : (s.setChan n c).bf = s.bf := rfl
@[simp] theorem State.setChan_hbm (n : Nat) (c : Chan) : (s.setChan n c).hbm = s.hbm := rfl
@[simp] theorem State.setChan_cvu (n : Nat) (c : Chan) : (s.setChan n c).cvu = s.cvu := rfl
@[simp] theorem State.setChan_book (n : Nat) (c : Chan) : (s.setChan n c).book = s.book := rfl
@[simp] theorem State.setChan_faults (n : Nat) (c : Chan) : (s.setChan n c).faults = s.faults := rfl
@[simp] theorem State.setChan_twin (n : Nat) (c : Chan) : (s.setChan n c).twin = s.twin := rfl
@[simp] theorem State.setChan_boot (n : Nat) (c : Chan) : (s.setChan n c).boot = s.boot := rfl
@[simp] theorem State.setChan_sent (n : Nat) (c : Chan) : (s.setChan n c).sent = s.sent := rfl
@[simp] theorem State.setChan_free (n : Nat) (c : Chan) : (s.setChan n c).free = s.free := rfl
@[simp] theorem State.setChan_pending (n : Nat) (c : Chan) : (s.setChan n c).pending = s.pending := rfl
@[simp] theorem State.setChan_reg (n : Nat) (c : Chan) (k : Nat) : (s.setChan n c).reg k = s.reg k := rfl

@[simp] theorem State.modChan_regs (n : Nat) (f : Chan → Chan) : (s.modChan n f).regs = s.regs := rfl
@[simp] theorem State.modChan_bus (n : Nat) (f : Chan → Chan) : (s.modChan n f).bus = s.bus := rfl
@[simp] theorem State.modChan_pins (n : Nat) (f : Chan → Chan) : (s.modChan n f).pins = s.pins := rfl
@[simp] theorem State.modChan_stp (n : Nat) (f : Chan → Chan) : (s.modChan n f).stp = s.stp := rfl
@[simp] theorem State.modChan_eng (n : Nat) (f : Chan → Chan) : (s.modChan n f).eng = s.eng := rfl
@[simp] theorem State.modChan_mill (n : Nat) (f : Chan → Chan) : (s.modChan n f).mill = s.mill := rfl
@[simp] theorem State.modChan_clp (n : Nat) (f : Chan → Chan) : (s.modChan n f).clp = s.clp := rfl
@[simp] theorem State.modChan_ing (n : Nat) (f : Chan → Chan) : (s.modChan n f).ing = s.ing := rfl
@[simp] theorem State.modChan_etm (n : Nat) (f : Chan → Chan) : (s.modChan n f).etm = s.etm := rfl
@[simp] theorem State.modChan_ptp (n : Nat) (f : Chan → Chan) : (s.modChan n f).ptp = s.ptp := rfl
@[simp] theorem State.modChan_aud (n : Nat) (f : Chan → Chan) : (s.modChan n f).aud = s.aud := rfl
@[simp] theorem State.modChan_mon (n : Nat) (f : Chan → Chan) : (s.modChan n f).mon = s.mon := rfl
@[simp] theorem State.modChan_rv (n : Nat) (f : Chan → Chan) : (s.modChan n f).rv = s.rv := rfl
@[simp] theorem State.modChan_bf (n : Nat) (f : Chan → Chan) : (s.modChan n f).bf = s.bf := rfl
@[simp] theorem State.modChan_hbm (n : Nat) (f : Chan → Chan) : (s.modChan n f).hbm = s.hbm := rfl
@[simp] theorem State.modChan_cvu (n : Nat) (f : Chan → Chan) : (s.modChan n f).cvu = s.cvu := rfl
@[simp] theorem State.modChan_book (n : Nat) (f : Chan → Chan) : (s.modChan n f).book = s.book := rfl
@[simp] theorem State.modChan_faults (n : Nat) (f : Chan → Chan) : (s.modChan n f).faults = s.faults := rfl
@[simp] theorem State.modChan_twin (n : Nat) (f : Chan → Chan) : (s.modChan n f).twin = s.twin := rfl
@[simp] theorem State.modChan_boot (n : Nat) (f : Chan → Chan) : (s.modChan n f).boot = s.boot := rfl
@[simp] theorem State.modChan_sent (n : Nat) (f : Chan → Chan) : (s.modChan n f).sent = s.sent := rfl
@[simp] theorem State.modChan_free (n : Nat) (f : Chan → Chan) : (s.modChan n f).free = s.free := rfl
@[simp] theorem State.modChan_pending (n : Nat) (f : Chan → Chan) : (s.modChan n f).pending = s.pending := rfl
@[simp] theorem State.modChan_reg (n : Nat) (f : Chan → Chan) (k : Nat) : (s.modChan n f).reg k = s.reg k := rfl

@[simp] theorem State.setThread_regs (n : Nat) (x : Thread) : (s.setThread n x).regs = s.regs := rfl
@[simp] theorem State.setThread_bus (n : Nat) (x : Thread) : (s.setThread n x).bus = s.bus := rfl
@[simp] theorem State.setThread_pins (n : Nat) (x : Thread) : (s.setThread n x).pins = s.pins := rfl
@[simp] theorem State.setThread_stp (n : Nat) (x : Thread) : (s.setThread n x).stp = s.stp := rfl
@[simp] theorem State.setThread_chans (n : Nat) (x : Thread) : (s.setThread n x).chans = s.chans := rfl
@[simp] theorem State.setThread_eng (n : Nat) (x : Thread) : (s.setThread n x).eng = s.eng := rfl
@[simp] theorem State.setThread_mill (n : Nat) (x : Thread) : (s.setThread n x).mill = s.mill := rfl
@[simp] theorem State.setThread_clp (n : Nat) (x : Thread) : (s.setThread n x).clp = s.clp := rfl
@[simp] theorem State.setThread_ing (n : Nat) (x : Thread) : (s.setThread n x).ing = s.ing := rfl
@[simp] theorem State.setThread_etm (n : Nat) (x : Thread) : (s.setThread n x).etm = s.etm := rfl
@[simp] theorem State.setThread_ptp (n : Nat) (x : Thread) : (s.setThread n x).ptp = s.ptp := rfl
@[simp] theorem State.setThread_aud (n : Nat) (x : Thread) : (s.setThread n x).aud = s.aud := rfl
@[simp] theorem State.setThread_mon (n : Nat) (x : Thread) : (s.setThread n x).mon = s.mon := rfl
@[simp] theorem State.setThread_bf (n : Nat) (x : Thread) : (s.setThread n x).bf = s.bf := rfl
@[simp] theorem State.setThread_hbm (n : Nat) (x : Thread) : (s.setThread n x).hbm = s.hbm := rfl
@[simp] theorem State.setThread_cvu (n : Nat) (x : Thread) : (s.setThread n x).cvu = s.cvu := rfl
@[simp] theorem State.setThread_book (n : Nat) (x : Thread) : (s.setThread n x).book = s.book := rfl
@[simp] theorem State.setThread_faults (n : Nat) (x : Thread) : (s.setThread n x).faults = s.faults := rfl
@[simp] theorem State.setThread_twin (n : Nat) (x : Thread) : (s.setThread n x).twin = s.twin := rfl
@[simp] theorem State.setThread_boot (n : Nat) (x : Thread) : (s.setThread n x).boot = s.boot := rfl
@[simp] theorem State.setThread_sent (n : Nat) (x : Thread) : (s.setThread n x).sent = s.sent := rfl
@[simp] theorem State.setThread_free (n : Nat) (x : Thread) : (s.setThread n x).free = s.free := rfl
@[simp] theorem State.setThread_pending (n : Nat) (x : Thread) : (s.setThread n x).pending = s.pending := rfl
@[simp] theorem State.setThread_reg (n : Nat) (x : Thread) (k : Nat) : (s.setThread n x).reg k = s.reg k := rfl

@[simp] theorem State.setPair_bus (p : Nat) (x : PairSt) : (s.setPair p x).bus = s.bus := rfl
@[simp] theorem State.setPair_pins (p : Nat) (x : PairSt) : (s.setPair p x).pins = s.pins := rfl
@[simp] theorem State.setPair_stp (p : Nat) (x : PairSt) : (s.setPair p x).stp = s.stp := rfl
@[simp] theorem State.setPair_chans (p : Nat) (x : PairSt) : (s.setPair p x).chans = s.chans := rfl
@[simp] theorem State.setPair_eng (p : Nat) (x : PairSt) : (s.setPair p x).eng = s.eng := rfl
@[simp] theorem State.setPair_mill (p : Nat) (x : PairSt) : (s.setPair p x).mill = s.mill := rfl
@[simp] theorem State.setPair_clp (p : Nat) (x : PairSt) : (s.setPair p x).clp = s.clp := rfl
@[simp] theorem State.setPair_ing (p : Nat) (x : PairSt) : (s.setPair p x).ing = s.ing := rfl
@[simp] theorem State.setPair_etm (p : Nat) (x : PairSt) : (s.setPair p x).etm = s.etm := rfl
@[simp] theorem State.setPair_ptp (p : Nat) (x : PairSt) : (s.setPair p x).ptp = s.ptp := rfl
@[simp] theorem State.setPair_aud (p : Nat) (x : PairSt) : (s.setPair p x).aud = s.aud := rfl
@[simp] theorem State.setPair_mon (p : Nat) (x : PairSt) : (s.setPair p x).mon = s.mon := rfl
@[simp] theorem State.setPair_bf (p : Nat) (x : PairSt) : (s.setPair p x).bf = s.bf := rfl
@[simp] theorem State.setPair_hbm (p : Nat) (x : PairSt) : (s.setPair p x).hbm = s.hbm := rfl
@[simp] theorem State.setPair_cvu (p : Nat) (x : PairSt) : (s.setPair p x).cvu = s.cvu := rfl
@[simp] theorem State.setPair_book (p : Nat) (x : PairSt) : (s.setPair p x).book = s.book := rfl
@[simp] theorem State.setPair_faults (p : Nat) (x : PairSt) : (s.setPair p x).faults = s.faults := rfl
@[simp] theorem State.setPair_twin (p : Nat) (x : PairSt) : (s.setPair p x).twin = s.twin := rfl
@[simp] theorem State.setPair_boot (p : Nat) (x : PairSt) : (s.setPair p x).boot = s.boot := rfl
@[simp] theorem State.setPair_sent (p : Nat) (x : PairSt) : (s.setPair p x).sent = s.sent := rfl
@[simp] theorem State.setPair_free (p : Nat) (x : PairSt) : (s.setPair p x).free = s.free := rfl
@[simp] theorem State.setPair_pending (p : Nat) (x : PairSt) : (s.setPair p x).pending = s.pending := rfl

@[simp] theorem State.setSlot_regs (k : Nat) (x : Slot) : (s.setSlot k x).regs = s.regs := rfl
@[simp] theorem State.setSlot_bus (k : Nat) (x : Slot) : (s.setSlot k x).bus = s.bus := rfl
@[simp] theorem State.setSlot_pins (k : Nat) (x : Slot) : (s.setSlot k x).pins = s.pins := rfl
@[simp] theorem State.setSlot_stp (k : Nat) (x : Slot) : (s.setSlot k x).stp = s.stp := rfl
@[simp] theorem State.setSlot_chans (k : Nat) (x : Slot) : (s.setSlot k x).chans = s.chans := rfl
@[simp] theorem State.setSlot_mill (k : Nat) (x : Slot) : (s.setSlot k x).mill = s.mill := rfl
@[simp] theorem State.setSlot_clp (k : Nat) (x : Slot) : (s.setSlot k x).clp = s.clp := rfl
@[simp] theorem State.setSlot_ing (k : Nat) (x : Slot) : (s.setSlot k x).ing = s.ing := rfl
@[simp] theorem State.setSlot_etm (k : Nat) (x : Slot) : (s.setSlot k x).etm = s.etm := rfl
@[simp] theorem State.setSlot_ptp (k : Nat) (x : Slot) : (s.setSlot k x).ptp = s.ptp := rfl
@[simp] theorem State.setSlot_aud (k : Nat) (x : Slot) : (s.setSlot k x).aud = s.aud := rfl
@[simp] theorem State.setSlot_mon (k : Nat) (x : Slot) : (s.setSlot k x).mon = s.mon := rfl
@[simp] theorem State.setSlot_rv (k : Nat) (x : Slot) : (s.setSlot k x).rv = s.rv := rfl
@[simp] theorem State.setSlot_bf (k : Nat) (x : Slot) : (s.setSlot k x).bf = s.bf := rfl
@[simp] theorem State.setSlot_hbm (k : Nat) (x : Slot) : (s.setSlot k x).hbm = s.hbm := rfl
@[simp] theorem State.setSlot_cvu (k : Nat) (x : Slot) : (s.setSlot k x).cvu = s.cvu := rfl
@[simp] theorem State.setSlot_book (k : Nat) (x : Slot) : (s.setSlot k x).book = s.book := rfl
@[simp] theorem State.setSlot_faults (k : Nat) (x : Slot) : (s.setSlot k x).faults = s.faults := rfl
@[simp] theorem State.setSlot_twin (k : Nat) (x : Slot) : (s.setSlot k x).twin = s.twin := rfl
@[simp] theorem State.setSlot_boot (k : Nat) (x : Slot) : (s.setSlot k x).boot = s.boot := rfl
@[simp] theorem State.setSlot_sent (k : Nat) (x : Slot) : (s.setSlot k x).sent = s.sent := rfl
@[simp] theorem State.setSlot_free (k : Nat) (x : Slot) : (s.setSlot k x).free = s.free := rfl
@[simp] theorem State.setSlot_pending (k : Nat) (x : Slot) : (s.setSlot k x).pending = s.pending := rfl
@[simp] theorem State.setSlot_reg (k : Nat) (x : Slot) (k : Nat) : (s.setSlot k x).reg k = s.reg k := rfl

@[simp] theorem setInp_regs (i : Nat) (x : Inp) : (setInp s i x).regs = s.regs := rfl
@[simp] theorem setInp_bus (i : Nat) (x : Inp) : (setInp s i x).bus = s.bus := rfl
@[simp] theorem setInp_pins (i : Nat) (x : Inp) : (setInp s i x).pins = s.pins := rfl
@[simp] theorem setInp_stp (i : Nat) (x : Inp) : (setInp s i x).stp = s.stp := rfl
@[simp] theorem setInp_chans (i : Nat) (x : Inp) : (setInp s i x).chans = s.chans := rfl
@[simp] theorem setInp_eng (i : Nat) (x : Inp) : (setInp s i x).eng = s.eng := rfl
@[simp] theorem setInp_mill (i : Nat) (x : Inp) : (setInp s i x).mill = s.mill := rfl
@[simp] theorem setInp_clp (i : Nat) (x : Inp) : (setInp s i x).clp = s.clp := rfl
@[simp] theorem setInp_etm (i : Nat) (x : Inp) : (setInp s i x).etm = s.etm := rfl
@[simp] theorem setInp_ptp (i : Nat) (x : Inp) : (setInp s i x).ptp = s.ptp := rfl
@[simp] theorem setInp_aud (i : Nat) (x : Inp) : (setInp s i x).aud = s.aud := rfl
@[simp] theorem setInp_mon (i : Nat) (x : Inp) : (setInp s i x).mon = s.mon := rfl
@[simp] theorem setInp_rv (i : Nat) (x : Inp) : (setInp s i x).rv = s.rv := rfl
@[simp] theorem setInp_bf (i : Nat) (x : Inp) : (setInp s i x).bf = s.bf := rfl
@[simp] theorem setInp_hbm (i : Nat) (x : Inp) : (setInp s i x).hbm = s.hbm := rfl
@[simp] theorem setInp_cvu (i : Nat) (x : Inp) : (setInp s i x).cvu = s.cvu := rfl
@[simp] theorem setInp_book (i : Nat) (x : Inp) : (setInp s i x).book = s.book := rfl
@[simp] theorem setInp_faults (i : Nat) (x : Inp) : (setInp s i x).faults = s.faults := rfl
@[simp] theorem setInp_twin (i : Nat) (x : Inp) : (setInp s i x).twin = s.twin := rfl
@[simp] theorem setInp_boot (i : Nat) (x : Inp) : (setInp s i x).boot = s.boot := rfl
@[simp] theorem setInp_sent (i : Nat) (x : Inp) : (setInp s i x).sent = s.sent := rfl
@[simp] theorem setInp_free (i : Nat) (x : Inp) : (setInp s i x).free = s.free := rfl
@[simp] theorem setInp_pending (i : Nat) (x : Inp) : (setInp s i x).pending = s.pending := rfl
@[simp] theorem setInp_reg (i : Nat) (x : Inp) (k : Nat) : (setInp s i x).reg k = s.reg k := rfl

@[simp] theorem setLane_regs (n p : Nat) (x : Lane) : (setLane s n p x).regs = s.regs := rfl
@[simp] theorem setLane_bus (n p : Nat) (x : Lane) : (setLane s n p x).bus = s.bus := rfl
@[simp] theorem setLane_pins (n p : Nat) (x : Lane) : (setLane s n p x).pins = s.pins := rfl
@[simp] theorem setLane_stp (n p : Nat) (x : Lane) : (setLane s n p x).stp = s.stp := rfl
@[simp] theorem setLane_chans (n p : Nat) (x : Lane) : (setLane s n p x).chans = s.chans := rfl
@[simp] theorem setLane_eng (n p : Nat) (x : Lane) : (setLane s n p x).eng = s.eng := rfl
@[simp] theorem setLane_mill (n p : Nat) (x : Lane) : (setLane s n p x).mill = s.mill := rfl
@[simp] theorem setLane_ing (n p : Nat) (x : Lane) : (setLane s n p x).ing = s.ing := rfl
@[simp] theorem setLane_etm (n p : Nat) (x : Lane) : (setLane s n p x).etm = s.etm := rfl
@[simp] theorem setLane_ptp (n p : Nat) (x : Lane) : (setLane s n p x).ptp = s.ptp := rfl
@[simp] theorem setLane_aud (n p : Nat) (x : Lane) : (setLane s n p x).aud = s.aud := rfl
@[simp] theorem setLane_mon (n p : Nat) (x : Lane) : (setLane s n p x).mon = s.mon := rfl
@[simp] theorem setLane_rv (n p : Nat) (x : Lane) : (setLane s n p x).rv = s.rv := rfl
@[simp] theorem setLane_bf (n p : Nat) (x : Lane) : (setLane s n p x).bf = s.bf := rfl
@[simp] theorem setLane_hbm (n p : Nat) (x : Lane) : (setLane s n p x).hbm = s.hbm := rfl
@[simp] theorem setLane_cvu (n p : Nat) (x : Lane) : (setLane s n p x).cvu = s.cvu := rfl
@[simp] theorem setLane_book (n p : Nat) (x : Lane) : (setLane s n p x).book = s.book := rfl
@[simp] theorem setLane_faults (n p : Nat) (x : Lane) : (setLane s n p x).faults = s.faults := rfl
@[simp] theorem setLane_twin (n p : Nat) (x : Lane) : (setLane s n p x).twin = s.twin := rfl
@[simp] theorem setLane_boot (n p : Nat) (x : Lane) : (setLane s n p x).boot = s.boot := rfl
@[simp] theorem setLane_sent (n p : Nat) (x : Lane) : (setLane s n p x).sent = s.sent := rfl
@[simp] theorem setLane_free (n p : Nat) (x : Lane) : (setLane s n p x).free = s.free := rfl
@[simp] theorem setLane_pending (n p : Nat) (x : Lane) : (setLane s n p x).pending = s.pending := rfl
@[simp] theorem setLane_reg (n p : Nat) (x : Lane) (k : Nat) : (setLane s n p x).reg k = s.reg k := rfl

@[simp] theorem setLink_regs (k : Nat) (x : Link) : (setLink s k x).regs = s.regs := rfl
@[simp] theorem setLink_bus (k : Nat) (x : Link) : (setLink s k x).bus = s.bus := rfl
@[simp] theorem setLink_pins (k : Nat) (x : Link) : (setLink s k x).pins = s.pins := rfl
@[simp] theorem setLink_stp (k : Nat) (x : Link) : (setLink s k x).stp = s.stp := rfl
@[simp] theorem setLink_chans (k : Nat) (x : Link) : (setLink s k x).chans = s.chans := rfl
@[simp] theorem setLink_eng (k : Nat) (x : Link) : (setLink s k x).eng = s.eng := rfl
@[simp] theorem setLink_mill (k : Nat) (x : Link) : (setLink s k x).mill = s.mill := rfl
@[simp] theorem setLink_ing (k : Nat) (x : Link) : (setLink s k x).ing = s.ing := rfl
@[simp] theorem setLink_etm (k : Nat) (x : Link) : (setLink s k x).etm = s.etm := rfl
@[simp] theorem setLink_ptp (k : Nat) (x : Link) : (setLink s k x).ptp = s.ptp := rfl
@[simp] theorem setLink_aud (k : Nat) (x : Link) : (setLink s k x).aud = s.aud := rfl
@[simp] theorem setLink_mon (k : Nat) (x : Link) : (setLink s k x).mon = s.mon := rfl
@[simp] theorem setLink_rv (k : Nat) (x : Link) : (setLink s k x).rv = s.rv := rfl
@[simp] theorem setLink_bf (k : Nat) (x : Link) : (setLink s k x).bf = s.bf := rfl
@[simp] theorem setLink_hbm (k : Nat) (x : Link) : (setLink s k x).hbm = s.hbm := rfl
@[simp] theorem setLink_cvu (k : Nat) (x : Link) : (setLink s k x).cvu = s.cvu := rfl
@[simp] theorem setLink_book (k : Nat) (x : Link) : (setLink s k x).book = s.book := rfl
@[simp] theorem setLink_faults (k : Nat) (x : Link) : (setLink s k x).faults = s.faults := rfl
@[simp] theorem setLink_twin (k : Nat) (x : Link) : (setLink s k x).twin = s.twin := rfl
@[simp] theorem setLink_boot (k : Nat) (x : Link) : (setLink s k x).boot = s.boot := rfl
@[simp] theorem setLink_sent (k : Nat) (x : Link) : (setLink s k x).sent = s.sent := rfl
@[simp] theorem setLink_free (k : Nat) (x : Link) : (setLink s k x).free = s.free := rfl
@[simp] theorem setLink_pending (k : Nat) (x : Link) : (setLink s k x).pending = s.pending := rfl
@[simp] theorem setLink_reg (k : Nat) (x : Link) (k : Nat) : (setLink s k x).reg k = s.reg k := rfl

@[simp] theorem setAsrc_regs (k : Nat) (x : ASrc) : (setAsrc s k x).regs = s.regs := rfl
@[simp] theorem setAsrc_bus (k : Nat) (x : ASrc) : (setAsrc s k x).bus = s.bus := rfl
@[simp] theorem setAsrc_pins (k : Nat) (x : ASrc) : (setAsrc s k x).pins = s.pins := rfl
@[simp] theorem setAsrc_stp (k : Nat) (x : ASrc) : (setAsrc s k x).stp = s.stp := rfl
@[simp] theorem setAsrc_chans (k : Nat) (x : ASrc) : (setAsrc s k x).chans = s.chans := rfl
@[simp] theorem setAsrc_eng (k : Nat) (x : ASrc) : (setAsrc s k x).eng = s.eng := rfl
@[simp] theorem setAsrc_mill (k : Nat) (x : ASrc) : (setAsrc s k x).mill = s.mill := rfl
@[simp] theorem setAsrc_clp (k : Nat) (x : ASrc) : (setAsrc s k x).clp = s.clp := rfl
@[simp] theorem setAsrc_ing (k : Nat) (x : ASrc) : (setAsrc s k x).ing = s.ing := rfl
@[simp] theorem setAsrc_etm (k : Nat) (x : ASrc) : (setAsrc s k x).etm = s.etm := rfl
@[simp] theorem setAsrc_ptp (k : Nat) (x : ASrc) : (setAsrc s k x).ptp = s.ptp := rfl
@[simp] theorem setAsrc_mon (k : Nat) (x : ASrc) : (setAsrc s k x).mon = s.mon := rfl
@[simp] theorem setAsrc_rv (k : Nat) (x : ASrc) : (setAsrc s k x).rv = s.rv := rfl
@[simp] theorem setAsrc_bf (k : Nat) (x : ASrc) : (setAsrc s k x).bf = s.bf := rfl
@[simp] theorem setAsrc_hbm (k : Nat) (x : ASrc) : (setAsrc s k x).hbm = s.hbm := rfl
@[simp] theorem setAsrc_cvu (k : Nat) (x : ASrc) : (setAsrc s k x).cvu = s.cvu := rfl
@[simp] theorem setAsrc_book (k : Nat) (x : ASrc) : (setAsrc s k x).book = s.book := rfl
@[simp] theorem setAsrc_faults (k : Nat) (x : ASrc) : (setAsrc s k x).faults = s.faults := rfl
@[simp] theorem setAsrc_twin (k : Nat) (x : ASrc) : (setAsrc s k x).twin = s.twin := rfl
@[simp] theorem setAsrc_boot (k : Nat) (x : ASrc) : (setAsrc s k x).boot = s.boot := rfl
@[simp] theorem setAsrc_sent (k : Nat) (x : ASrc) : (setAsrc s k x).sent = s.sent := rfl
@[simp] theorem setAsrc_free (k : Nat) (x : ASrc) : (setAsrc s k x).free = s.free := rfl
@[simp] theorem setAsrc_pending (k : Nat) (x : ASrc) : (setAsrc s k x).pending = s.pending := rfl
@[simp] theorem setAsrc_reg (k : Nat) (x : ASrc) (k : Nat) : (setAsrc s k x).reg k = s.reg k := rfl

@[simp] theorem setAin_regs (i : Nat) (x : AIn) : (setAin s i x).regs = s.regs := rfl
@[simp] theorem setAin_bus (i : Nat) (x : AIn) : (setAin s i x).bus = s.bus := rfl
@[simp] theorem setAin_pins (i : Nat) (x : AIn) : (setAin s i x).pins = s.pins := rfl
@[simp] theorem setAin_stp (i : Nat) (x : AIn) : (setAin s i x).stp = s.stp := rfl
@[simp] theorem setAin_chans (i : Nat) (x : AIn) : (setAin s i x).chans = s.chans := rfl
@[simp] theorem setAin_eng (i : Nat) (x : AIn) : (setAin s i x).eng = s.eng := rfl
@[simp] theorem setAin_mill (i : Nat) (x : AIn) : (setAin s i x).mill = s.mill := rfl
@[simp] theorem setAin_clp (i : Nat) (x : AIn) : (setAin s i x).clp = s.clp := rfl
@[simp] theorem setAin_ing (i : Nat) (x : AIn) : (setAin s i x).ing = s.ing := rfl
@[simp] theorem setAin_etm (i : Nat) (x : AIn) : (setAin s i x).etm = s.etm := rfl
@[simp] theorem setAin_ptp (i : Nat) (x : AIn) : (setAin s i x).ptp = s.ptp := rfl
@[simp] theorem setAin_mon (i : Nat) (x : AIn) : (setAin s i x).mon = s.mon := rfl
@[simp] theorem setAin_rv (i : Nat) (x : AIn) : (setAin s i x).rv = s.rv := rfl
@[simp] theorem setAin_bf (i : Nat) (x : AIn) : (setAin s i x).bf = s.bf := rfl
@[simp] theorem setAin_hbm (i : Nat) (x : AIn) : (setAin s i x).hbm = s.hbm := rfl
@[simp] theorem setAin_cvu (i : Nat) (x : AIn) : (setAin s i x).cvu = s.cvu := rfl
@[simp] theorem setAin_book (i : Nat) (x : AIn) : (setAin s i x).book = s.book := rfl
@[simp] theorem setAin_faults (i : Nat) (x : AIn) : (setAin s i x).faults = s.faults := rfl
@[simp] theorem setAin_twin (i : Nat) (x : AIn) : (setAin s i x).twin = s.twin := rfl
@[simp] theorem setAin_boot (i : Nat) (x : AIn) : (setAin s i x).boot = s.boot := rfl
@[simp] theorem setAin_sent (i : Nat) (x : AIn) : (setAin s i x).sent = s.sent := rfl
@[simp] theorem setAin_free (i : Nat) (x : AIn) : (setAin s i x).free = s.free := rfl
@[simp] theorem setAin_pending (i : Nat) (x : AIn) : (setAin s i x).pending = s.pending := rfl
@[simp] theorem setAin_reg (i : Nat) (x : AIn) (k : Nat) : (setAin s i x).reg k = s.reg k := rfl

@[simp] theorem setAout_regs (o : Nat) (x : AOut) : (setAout s o x).regs = s.regs := rfl
@[simp] theorem setAout_bus (o : Nat) (x : AOut) : (setAout s o x).bus = s.bus := rfl
@[simp] theorem setAout_pins (o : Nat) (x : AOut) : (setAout s o x).pins = s.pins := rfl
@[simp] theorem setAout_stp (o : Nat) (x : AOut) : (setAout s o x).stp = s.stp := rfl
@[simp] theorem setAout_chans (o : Nat) (x : AOut) : (setAout s o x).chans = s.chans := rfl
@[simp] theorem setAout_eng (o : Nat) (x : AOut) : (setAout s o x).eng = s.eng := rfl
@[simp] theorem setAout_mill (o : Nat) (x : AOut) : (setAout s o x).mill = s.mill := rfl
@[simp] theorem setAout_clp (o : Nat) (x : AOut) : (setAout s o x).clp = s.clp := rfl
@[simp] theorem setAout_ing (o : Nat) (x : AOut) : (setAout s o x).ing = s.ing := rfl
@[simp] theorem setAout_etm (o : Nat) (x : AOut) : (setAout s o x).etm = s.etm := rfl
@[simp] theorem setAout_ptp (o : Nat) (x : AOut) : (setAout s o x).ptp = s.ptp := rfl
@[simp] theorem setAout_mon (o : Nat) (x : AOut) : (setAout s o x).mon = s.mon := rfl
@[simp] theorem setAout_rv (o : Nat) (x : AOut) : (setAout s o x).rv = s.rv := rfl
@[simp] theorem setAout_bf (o : Nat) (x : AOut) : (setAout s o x).bf = s.bf := rfl
@[simp] theorem setAout_hbm (o : Nat) (x : AOut) : (setAout s o x).hbm = s.hbm := rfl
@[simp] theorem setAout_cvu (o : Nat) (x : AOut) : (setAout s o x).cvu = s.cvu := rfl
@[simp] theorem setAout_book (o : Nat) (x : AOut) : (setAout s o x).book = s.book := rfl
@[simp] theorem setAout_faults (o : Nat) (x : AOut) : (setAout s o x).faults = s.faults := rfl
@[simp] theorem setAout_twin (o : Nat) (x : AOut) : (setAout s o x).twin = s.twin := rfl
@[simp] theorem setAout_boot (o : Nat) (x : AOut) : (setAout s o x).boot = s.boot := rfl
@[simp] theorem setAout_sent (o : Nat) (x : AOut) : (setAout s o x).sent = s.sent := rfl
@[simp] theorem setAout_free (o : Nat) (x : AOut) : (setAout s o x).free = s.free := rfl
@[simp] theorem setAout_pending (o : Nat) (x : AOut) : (setAout s o x).pending = s.pending := rfl
@[simp] theorem setAout_reg (o : Nat) (x : AOut) (k : Nat) : (setAout s o x).reg k = s.reg k := rfl

@[simp] theorem setCvu_regs (n : Nat) (x : CvuSt) : (setCvu s n x).regs = s.regs := rfl
@[simp] theorem setCvu_bus (n : Nat) (x : CvuSt) : (setCvu s n x).bus = s.bus := rfl
@[simp] theorem setCvu_pins (n : Nat) (x : CvuSt) : (setCvu s n x).pins = s.pins := rfl
@[simp] theorem setCvu_stp (n : Nat) (x : CvuSt) : (setCvu s n x).stp = s.stp := rfl
@[simp] theorem setCvu_chans (n : Nat) (x : CvuSt) : (setCvu s n x).chans = s.chans := rfl
@[simp] theorem setCvu_eng (n : Nat) (x : CvuSt) : (setCvu s n x).eng = s.eng := rfl
@[simp] theorem setCvu_mill (n : Nat) (x : CvuSt) : (setCvu s n x).mill = s.mill := rfl
@[simp] theorem setCvu_clp (n : Nat) (x : CvuSt) : (setCvu s n x).clp = s.clp := rfl
@[simp] theorem setCvu_ing (n : Nat) (x : CvuSt) : (setCvu s n x).ing = s.ing := rfl
@[simp] theorem setCvu_etm (n : Nat) (x : CvuSt) : (setCvu s n x).etm = s.etm := rfl
@[simp] theorem setCvu_ptp (n : Nat) (x : CvuSt) : (setCvu s n x).ptp = s.ptp := rfl
@[simp] theorem setCvu_aud (n : Nat) (x : CvuSt) : (setCvu s n x).aud = s.aud := rfl
@[simp] theorem setCvu_mon (n : Nat) (x : CvuSt) : (setCvu s n x).mon = s.mon := rfl
@[simp] theorem setCvu_rv (n : Nat) (x : CvuSt) : (setCvu s n x).rv = s.rv := rfl
@[simp] theorem setCvu_bf (n : Nat) (x : CvuSt) : (setCvu s n x).bf = s.bf := rfl
@[simp] theorem setCvu_hbm (n : Nat) (x : CvuSt) : (setCvu s n x).hbm = s.hbm := rfl
@[simp] theorem setCvu_book (n : Nat) (x : CvuSt) : (setCvu s n x).book = s.book := rfl
@[simp] theorem setCvu_faults (n : Nat) (x : CvuSt) : (setCvu s n x).faults = s.faults := rfl
@[simp] theorem setCvu_twin (n : Nat) (x : CvuSt) : (setCvu s n x).twin = s.twin := rfl
@[simp] theorem setCvu_boot (n : Nat) (x : CvuSt) : (setCvu s n x).boot = s.boot := rfl
@[simp] theorem setCvu_sent (n : Nat) (x : CvuSt) : (setCvu s n x).sent = s.sent := rfl
@[simp] theorem setCvu_free (n : Nat) (x : CvuSt) : (setCvu s n x).free = s.free := rfl
@[simp] theorem setCvu_pending (n : Nat) (x : CvuSt) : (setCvu s n x).pending = s.pending := rfl
@[simp] theorem setCvu_reg (n : Nat) (x : CvuSt) (k : Nat) : (setCvu s n x).reg k = s.reg k := rfl

@[simp] theorem setPch_regs (c : Nat) (x : PchSt) : (setPch s c x).regs = s.regs := rfl
@[simp] theorem setPch_bus (c : Nat) (x : PchSt) : (setPch s c x).bus = s.bus := rfl
@[simp] theorem setPch_pins (c : Nat) (x : PchSt) : (setPch s c x).pins = s.pins := rfl
@[simp] theorem setPch_stp (c : Nat) (x : PchSt) : (setPch s c x).stp = s.stp := rfl
@[simp] theorem setPch_chans (c : Nat) (x : PchSt) : (setPch s c x).chans = s.chans := rfl
@[simp] theorem setPch_eng (c : Nat) (x : PchSt) : (setPch s c x).eng = s.eng := rfl
@[simp] theorem setPch_mill (c : Nat) (x : PchSt) : (setPch s c x).mill = s.mill := rfl
@[simp] theorem setPch_clp (c : Nat) (x : PchSt) : (setPch s c x).clp = s.clp := rfl
@[simp] theorem setPch_ing (c : Nat) (x : PchSt) : (setPch s c x).ing = s.ing := rfl
@[simp] theorem setPch_etm (c : Nat) (x : PchSt) : (setPch s c x).etm = s.etm := rfl
@[simp] theorem setPch_ptp (c : Nat) (x : PchSt) : (setPch s c x).ptp = s.ptp := rfl
@[simp] theorem setPch_aud (c : Nat) (x : PchSt) : (setPch s c x).aud = s.aud := rfl
@[simp] theorem setPch_mon (c : Nat) (x : PchSt) : (setPch s c x).mon = s.mon := rfl
@[simp] theorem setPch_rv (c : Nat) (x : PchSt) : (setPch s c x).rv = s.rv := rfl
@[simp] theorem setPch_bf (c : Nat) (x : PchSt) : (setPch s c x).bf = s.bf := rfl
@[simp] theorem setPch_cvu (c : Nat) (x : PchSt) : (setPch s c x).cvu = s.cvu := rfl
@[simp] theorem setPch_book (c : Nat) (x : PchSt) : (setPch s c x).book = s.book := rfl
@[simp] theorem setPch_faults (c : Nat) (x : PchSt) : (setPch s c x).faults = s.faults := rfl
@[simp] theorem setPch_twin (c : Nat) (x : PchSt) : (setPch s c x).twin = s.twin := rfl
@[simp] theorem setPch_boot (c : Nat) (x : PchSt) : (setPch s c x).boot = s.boot := rfl
@[simp] theorem setPch_sent (c : Nat) (x : PchSt) : (setPch s c x).sent = s.sent := rfl
@[simp] theorem setPch_free (c : Nat) (x : PchSt) : (setPch s c x).free = s.free := rfl
@[simp] theorem setPch_pending (c : Nat) (x : PchSt) : (setPch s c x).pending = s.pending := rfl
@[simp] theorem setPch_reg (c : Nat) (x : PchSt) (k : Nat) : (setPch s c x).reg k = s.reg k := rfl

@[simp] theorem setFlowCtx_regs (f : Nat) (l : List Word) : (setFlowCtx s f l).regs = s.regs := rfl
@[simp] theorem setFlowCtx_bus (f : Nat) (l : List Word) : (setFlowCtx s f l).bus = s.bus := rfl
@[simp] theorem setFlowCtx_pins (f : Nat) (l : List Word) : (setFlowCtx s f l).pins = s.pins := rfl
@[simp] theorem setFlowCtx_stp (f : Nat) (l : List Word) : (setFlowCtx s f l).stp = s.stp := rfl
@[simp] theorem setFlowCtx_chans (f : Nat) (l : List Word) : (setFlowCtx s f l).chans = s.chans := rfl
@[simp] theorem setFlowCtx_eng (f : Nat) (l : List Word) : (setFlowCtx s f l).eng = s.eng := rfl
@[simp] theorem setFlowCtx_mill (f : Nat) (l : List Word) : (setFlowCtx s f l).mill = s.mill := rfl
@[simp] theorem setFlowCtx_clp (f : Nat) (l : List Word) : (setFlowCtx s f l).clp = s.clp := rfl
@[simp] theorem setFlowCtx_ing (f : Nat) (l : List Word) : (setFlowCtx s f l).ing = s.ing := rfl
@[simp] theorem setFlowCtx_ptp (f : Nat) (l : List Word) : (setFlowCtx s f l).ptp = s.ptp := rfl
@[simp] theorem setFlowCtx_aud (f : Nat) (l : List Word) : (setFlowCtx s f l).aud = s.aud := rfl
@[simp] theorem setFlowCtx_mon (f : Nat) (l : List Word) : (setFlowCtx s f l).mon = s.mon := rfl
@[simp] theorem setFlowCtx_rv (f : Nat) (l : List Word) : (setFlowCtx s f l).rv = s.rv := rfl
@[simp] theorem setFlowCtx_bf (f : Nat) (l : List Word) : (setFlowCtx s f l).bf = s.bf := rfl
@[simp] theorem setFlowCtx_hbm (f : Nat) (l : List Word) : (setFlowCtx s f l).hbm = s.hbm := rfl
@[simp] theorem setFlowCtx_cvu (f : Nat) (l : List Word) : (setFlowCtx s f l).cvu = s.cvu := rfl
@[simp] theorem setFlowCtx_book (f : Nat) (l : List Word) : (setFlowCtx s f l).book = s.book := rfl
@[simp] theorem setFlowCtx_faults (f : Nat) (l : List Word) : (setFlowCtx s f l).faults = s.faults := rfl
@[simp] theorem setFlowCtx_twin (f : Nat) (l : List Word) : (setFlowCtx s f l).twin = s.twin := rfl
@[simp] theorem setFlowCtx_boot (f : Nat) (l : List Word) : (setFlowCtx s f l).boot = s.boot := rfl
@[simp] theorem setFlowCtx_sent (f : Nat) (l : List Word) : (setFlowCtx s f l).sent = s.sent := rfl
@[simp] theorem setFlowCtx_free (f : Nat) (l : List Word) : (setFlowCtx s f l).free = s.free := rfl
@[simp] theorem setFlowCtx_pending (f : Nat) (l : List Word) : (setFlowCtx s f l).pending = s.pending := rfl
@[simp] theorem setFlowCtx_reg (f : Nat) (l : List Word) (k : Nat) : (setFlowCtx s f l).reg k = s.reg k := rfl

@[simp] theorem setNodeEntry_regs (f : Nat) (l : List Word) : (setNodeEntry s f l).regs = s.regs := rfl
@[simp] theorem setNodeEntry_bus (f : Nat) (l : List Word) : (setNodeEntry s f l).bus = s.bus := rfl
@[simp] theorem setNodeEntry_pins (f : Nat) (l : List Word) : (setNodeEntry s f l).pins = s.pins := rfl
@[simp] theorem setNodeEntry_stp (f : Nat) (l : List Word) : (setNodeEntry s f l).stp = s.stp := rfl
@[simp] theorem setNodeEntry_chans (f : Nat) (l : List Word) : (setNodeEntry s f l).chans = s.chans := rfl
@[simp] theorem setNodeEntry_eng (f : Nat) (l : List Word) : (setNodeEntry s f l).eng = s.eng := rfl
@[simp] theorem setNodeEntry_mill (f : Nat) (l : List Word) : (setNodeEntry s f l).mill = s.mill := rfl
@[simp] theorem setNodeEntry_clp (f : Nat) (l : List Word) : (setNodeEntry s f l).clp = s.clp := rfl
@[simp] theorem setNodeEntry_ing (f : Nat) (l : List Word) : (setNodeEntry s f l).ing = s.ing := rfl
@[simp] theorem setNodeEntry_ptp (f : Nat) (l : List Word) : (setNodeEntry s f l).ptp = s.ptp := rfl
@[simp] theorem setNodeEntry_aud (f : Nat) (l : List Word) : (setNodeEntry s f l).aud = s.aud := rfl
@[simp] theorem setNodeEntry_mon (f : Nat) (l : List Word) : (setNodeEntry s f l).mon = s.mon := rfl
@[simp] theorem setNodeEntry_rv (f : Nat) (l : List Word) : (setNodeEntry s f l).rv = s.rv := rfl
@[simp] theorem setNodeEntry_bf (f : Nat) (l : List Word) : (setNodeEntry s f l).bf = s.bf := rfl
@[simp] theorem setNodeEntry_hbm (f : Nat) (l : List Word) : (setNodeEntry s f l).hbm = s.hbm := rfl
@[simp] theorem setNodeEntry_cvu (f : Nat) (l : List Word) : (setNodeEntry s f l).cvu = s.cvu := rfl
@[simp] theorem setNodeEntry_book (f : Nat) (l : List Word) : (setNodeEntry s f l).book = s.book := rfl
@[simp] theorem setNodeEntry_faults (f : Nat) (l : List Word) : (setNodeEntry s f l).faults = s.faults := rfl
@[simp] theorem setNodeEntry_twin (f : Nat) (l : List Word) : (setNodeEntry s f l).twin = s.twin := rfl
@[simp] theorem setNodeEntry_boot (f : Nat) (l : List Word) : (setNodeEntry s f l).boot = s.boot := rfl
@[simp] theorem setNodeEntry_sent (f : Nat) (l : List Word) : (setNodeEntry s f l).sent = s.sent := rfl
@[simp] theorem setNodeEntry_free (f : Nat) (l : List Word) : (setNodeEntry s f l).free = s.free := rfl
@[simp] theorem setNodeEntry_pending (f : Nat) (l : List Word) : (setNodeEntry s f l).pending = s.pending := rfl
@[simp] theorem setNodeEntry_reg (f : Nat) (l : List Word) (k : Nat) : (setNodeEntry s f l).reg k = s.reg k := rfl

@[simp] theorem State.setMem_regs (a : Nat) (l : List (BitVec 8)) : (s.setMem a l).regs = s.regs := rfl
@[simp] theorem State.setMem_bus (a : Nat) (l : List (BitVec 8)) : (s.setMem a l).bus = s.bus := rfl
@[simp] theorem State.setMem_pins (a : Nat) (l : List (BitVec 8)) : (s.setMem a l).pins = s.pins := rfl
@[simp] theorem State.setMem_stp (a : Nat) (l : List (BitVec 8)) : (s.setMem a l).stp = s.stp := rfl
@[simp] theorem State.setMem_chans (a : Nat) (l : List (BitVec 8)) : (s.setMem a l).chans = s.chans := rfl
@[simp] theorem State.setMem_eng (a : Nat) (l : List (BitVec 8)) : (s.setMem a l).eng = s.eng := rfl
@[simp] theorem State.setMem_mill (a : Nat) (l : List (BitVec 8)) : (s.setMem a l).mill = s.mill := rfl
@[simp] theorem State.setMem_clp (a : Nat) (l : List (BitVec 8)) : (s.setMem a l).clp = s.clp := rfl
@[simp] theorem State.setMem_ing (a : Nat) (l : List (BitVec 8)) : (s.setMem a l).ing = s.ing := rfl
@[simp] theorem State.setMem_etm (a : Nat) (l : List (BitVec 8)) : (s.setMem a l).etm = s.etm := rfl
@[simp] theorem State.setMem_ptp (a : Nat) (l : List (BitVec 8)) : (s.setMem a l).ptp = s.ptp := rfl
@[simp] theorem State.setMem_aud (a : Nat) (l : List (BitVec 8)) : (s.setMem a l).aud = s.aud := rfl
@[simp] theorem State.setMem_mon (a : Nat) (l : List (BitVec 8)) : (s.setMem a l).mon = s.mon := rfl
@[simp] theorem State.setMem_rv (a : Nat) (l : List (BitVec 8)) : (s.setMem a l).rv = s.rv := rfl
@[simp] theorem State.setMem_bf (a : Nat) (l : List (BitVec 8)) : (s.setMem a l).bf = s.bf := rfl
@[simp] theorem State.setMem_cvu (a : Nat) (l : List (BitVec 8)) : (s.setMem a l).cvu = s.cvu := rfl
@[simp] theorem State.setMem_book (a : Nat) (l : List (BitVec 8)) : (s.setMem a l).book = s.book := rfl
@[simp] theorem State.setMem_faults (a : Nat) (l : List (BitVec 8)) : (s.setMem a l).faults = s.faults := rfl
@[simp] theorem State.setMem_twin (a : Nat) (l : List (BitVec 8)) : (s.setMem a l).twin = s.twin := rfl
@[simp] theorem State.setMem_boot (a : Nat) (l : List (BitVec 8)) : (s.setMem a l).boot = s.boot := rfl
@[simp] theorem State.setMem_sent (a : Nat) (l : List (BitVec 8)) : (s.setMem a l).sent = s.sent := rfl
@[simp] theorem State.setMem_free (a : Nat) (l : List (BitVec 8)) : (s.setMem a l).free = s.free := rfl
@[simp] theorem State.setMem_pending (a : Nat) (l : List (BitVec 8)) : (s.setMem a l).pending = s.pending := rfl
@[simp] theorem State.setMem_reg (a : Nat) (l : List (BitVec 8)) (k : Nat) : (s.setMem a l).reg k = s.reg k := rfl

theorem State.setPair_reg_other (p : Nat) (x : PairSt) {k : Nat} (h : k ≠ Reg.ccPstate p) (h' : k ≠ Reg.ccRunning p) :
    (s.setPair p x).reg k = s.reg k := (State.reg_setN_other _ _ h').trans (State.reg_setF_other _ _ _ _ h)

/-! ### Read after write, table by table -/

@[simp] theorem State.setChan_chan_same (n : Nat) (x : Chan) : (s.setChan n x).chan n = x := Store.get_put_same _ _ _ _
theorem State.setChan_chan_other {n m : Nat} (x : Chan) (h : m ≠ n) : (s.setChan n x).chan m = s.chan m := Store.get_put_other _ _ _ h
@[simp] theorem State.setThread_thread_same (n : Nat) (x : Thread) : (s.setThread n x).thread n = x := Store.get_put_same _ _ _ _
theorem State.setThread_thread_other {n m : Nat} (x : Thread) (h : m ≠ n) : (s.setThread n x).thread m = s.thread m := Store.get_put_other _ _ _ h
@[simp] theorem State.setPair_pair_same (n : Nat) (x : PairSt) : (s.setPair n x).pair n = x := Store.get_put_same _ _ _ _
theorem State.setPair_pair_other {n m : Nat} (x : PairSt) (h : m ≠ n) : (s.setPair n x).pair m = s.pair m := Store.get_put_other _ _ _ h
@[simp] theorem State.setSlot_slot_same (n : Nat) (x : Slot) : (s.setSlot n x).slot n = x := Store.get_put_same _ _ _ _
theorem State.setSlot_slot_other {n m : Nat} (x : Slot) (h : m ≠ n) : (s.setSlot n x).slot m = s.slot m := Store.get_put_other _ _ _ h
@[simp] theorem setInp_inp_same (n : Nat) (x : Inp) : inp (setInp s n x) n = x := Store.get_put_same _ _ _ _
theorem setInp_inp_other {n m : Nat} (x : Inp) (h : m ≠ n) : inp (setInp s n x) m = inp s m := Store.get_put_other _ _ _ h
@[simp] theorem setLink_link_same (n : Nat) (x : Link) : link (setLink s n x) n = x := Store.get_put_same _ _ _ _
theorem setLink_link_other {n m : Nat} (x : Link) (h : m ≠ n) : link (setLink s n x) m = link s m := Store.get_put_other _ _ _ h
@[simp] theorem setAsrc_asrc_same (n : Nat) (x : ASrc) : asrc (setAsrc s n x) n = x := Store.get_put_same _ _ _ _
theorem setAsrc_asrc_other {n m : Nat} (x : ASrc) (h : m ≠ n) : asrc (setAsrc s n x) m = asrc s m := Store.get_put_other _ _ _ h
@[simp] theorem setAin_ain_same (n : Nat) (x : AIn) : ain (setAin s n x) n = x := Store.get_put_same _ _ _ _
theorem setAin_ain_other {n m : Nat} (x : AIn) (h : m ≠ n) : ain (setAin s n x) m = ain s m := Store.get_put_other _ _ _ h
@[simp] theorem setAout_aout_same (n : Nat) (x : AOut) : aout (setAout s n x) n = x := Store.get_put_same _ _ _ _
theorem setAout_aout_other {n m : Nat} (x : AOut) (h : m ≠ n) : aout (setAout s n x) m = aout s m := Store.get_put_other _ _ _ h
@[simp] theorem setCvu_cvu_same (n : Nat) (x : CvuSt) : cvu (setCvu s n x) n = x := Store.get_put_same _ _ _ _
theorem setCvu_cvu_other {n m : Nat} (x : CvuSt) (h : m ≠ n) : cvu (setCvu s n x) m = cvu s m := Store.get_put_other _ _ _ h
@[simp] theorem setPch_pch_same (n : Nat) (x : PchSt) : pch (setPch s n x) n = x := Store.get_put_same _ _ _ _
theorem setPch_pch_other {n m : Nat} (x : PchSt) (h : m ≠ n) : pch (setPch s n x) m = pch s m := Store.get_put_other _ _ _ h
@[simp] theorem setFlowCtx_flowCtx_same (n : Nat) (x : List Word) : flowCtx (setFlowCtx s n x) n = x := Store.get_put_same _ _ _ _
theorem setFlowCtx_flowCtx_other {n m : Nat} (x : List Word) (h : m ≠ n) : flowCtx (setFlowCtx s n x) m = flowCtx s m := Store.get_put_other _ _ _ h
@[simp] theorem setNodeEntry_nodeEntry_same (n : Nat) (x : List Word) : nodeEntry (setNodeEntry s n x) n = x := Store.get_put_same _ _ _ _
theorem setNodeEntry_nodeEntry_other {n m : Nat} (x : List Word) (h : m ≠ n) : nodeEntry (setNodeEntry s n x) m = nodeEntry s m := Store.get_put_other _ _ _ h
@[simp] theorem State.modChan_chan_same (n : Nat) (f : Chan → Chan) : (s.modChan n f).chan n = f (s.chan n) := State.setChan_chan_same s n _
theorem State.modChan_chan_other {n m : Nat} (f : Chan → Chan) (h : m ≠ n) : (s.modChan n f).chan m = s.chan m := State.setChan_chan_other s _ h
@[simp] theorem State.setRc_rc_same (n r : Nat) (x : RcSt) : (s.setRc n r x).rc n r = x := by
  rw [State.rc, State.setRc, State.modChan_chan_same]; exact Store.get_put_same _ _ _ _
theorem State.setRc_rc_other {n r m q : Nat} (x : RcSt) (h : m ≠ n ∨ q ≠ r) : (s.setRc n r x).rc m q = s.rc m q := by
  by_cases hm : m = n
  · subst hm
    rw [State.rc, State.setRc, State.modChan_chan_same]
    exact Store.get_put_other _ _ _ (h.resolve_left (fun k => k rfl))
  · rw [State.rc, State.setRc, State.modChan_chan_other _ _ hm]; rfl
@[simp] theorem State.setRc_regs (n r : Nat) (x : RcSt) : (s.setRc n r x).regs = s.regs := rfl
@[simp] theorem State.setRc_reg (n r : Nat) (x : RcSt) (k : Nat) : (s.setRc n r x).reg k = s.reg k := rfl
@[simp] theorem setLane_lane_same (n p : Nat) (x : Lane) : lane (setLane s n p x) n p = x := Store.get_put_same _ _ _ _

/-! ### HBM -/

/-- A byte outside the written range reads as before. -/
theorem State.memByte_setMem_other {a b : Nat} (l : List (BitVec 8)) (h : b < a ∨ a + l.length ≤ b) : (s.setMem a l).memByte b = s.memByte b := by
  rcases h with h | h
  · exact Store.get_putMany_below _ _ _ _ h
  · exact Store.get_putMany_above _ _ _ _ h

/-- A byte within the written range reads as written. -/
theorem State.memByte_setMem_in (a : Nat) (l : List (BitVec 8)) {i : Nat} (h : i < l.length) : (s.setMem a l).memByte (a + i) = l[i] :=
  Store.get_putMany_in _ _ _ _ h

@[simp] theorem State.memByte_setReg (a : Nat) (w : Word) (b : Nat) : (s.setReg a w).memByte b = s.memByte b := rfl

end Sys2Proof.Machine
end

