-- ==== Sys2Proof/Laws/Ops.lean ====
section
/-! SUPPORT. What the shared operations over position, mode and causes do, and which registers they leave alone. -/

namespace Sys2Proof.Machine.State

variable (s : State)

/-! ### Position -/

@[simp] theorem setPos_pos (p : BitVec 64) : (s.setPos p).stp.pos = p := rfl

@[simp] theorem reg_setPtpMap (m a : Nat) (h1 : a ≠ Reg.ptpMapLo) (h2 : a ≠ Reg.ptpMapHi) : (s.setPtpMap m).reg a = s.reg a := by
  rw [setPtpMap, reg_setF_other _ _ _ _ h2, reg_setN_other _ _ h1]

@[simp] theorem setPtpMap_stp (m : Nat) : (s.setPtpMap m).stp = s.stp := by rw [setPtpMap, setF_stp, setN_stp]

theorem reg_carryMap (f a : Nat) (h1 : a ≠ Reg.ptpMapLo) (h2 : a ≠ Reg.ptpMapHi) : (s.carryMap f).reg a = s.reg a := by
  unfold carryMap
  split
  · exact reg_setPtpMap s _ a h1 h2
  · rfl

@[simp] theorem carryMap_stp (f : Nat) : (s.carryMap f).stp = s.stp := by
  unfold carryMap
  split
  · exact setPtpMap_stp s _
  · rfl

theorem reg_countHold (k a : Nat) (h : a ≠ Reg.stpHoldFrames) : (s.countHold k).reg a = s.reg a := by
  unfold countHold
  split
  · exact reg_setReg_other _ _ h
  · split <;> rfl

@[simp] theorem countHold_pos (k : Nat) : (s.countHold k).stp.pos = s.stp.pos := by
  unfold countHold
  split
  · rw [wrapAdd_stp]
  · split <;> rfl

@[simp] theorem enterFrame_pos (k u : Nat) : (s.enterFrame k u).stp.pos = posOf (BitVec.ofNat 32 (s.frame.toNat + k)) u := by
  rw [enterFrame, countHold_pos, carryMap_stp, setPos_pos]

/-- Entering a frame writes no register but MAP and HOLD_FRAMES. -/
theorem reg_enterFrame (k u a : Nat) (h1 : a ≠ Reg.ptpMapLo) (h2 : a ≠ Reg.ptpMapHi) (h3 : a ≠ Reg.stpHoldFrames) :
    (s.enterFrame k u).reg a = s.reg a := by
  rw [enterFrame, reg_countHold _ _ _ h3, reg_carryMap _ _ _ h1 h2, setPos_reg]

theorem frame_of_pos {s : State} {f : BitVec 32} {u : Nat} (h : s.stp.pos = posOf f u) : s.frame = f := by
  rw [frame, h, posOf]
  apply BitVec.eq_of_getLsbD_eq
  intro i hi
  have e := BitVec.getLsbD_append (x := f) (y := BitVec.ofNat 32 u) (i := 32 + i)
  rw [if_neg (by omega), Nat.add_sub_cancel_left] at e
  rw [BitVec.getLsbD_setWidth, BitVec.getLsbD_ushiftRight, decide_eq_true hi, Bool.true_and]
  exact e

theorem inFrame_of_pos {s : State} {f : BitVec 32} {u : Nat} (h : s.stp.pos = posOf f u) (hu : u < 2 ^ 32) : s.inFrame = u := by
  rw [inFrame, h, posOf]
  have : (f ++ BitVec.ofNat 32 u : BitVec 64).setWidth 32 = BitVec.ofNat 32 u := by
    apply BitVec.eq_of_getLsbD_eq
    intro i hi
    have e := BitVec.getLsbD_append (x := f) (y := BitVec.ofNat 32 u) (i := i)
    rw [if_pos hi] at e
    rw [BitVec.getLsbD_setWidth, decide_eq_true hi, Bool.true_and]
    exact e
  rw [this, BitVec.toNat_ofNat]
  exact Nat.mod_eq_of_lt hu

@[simp] theorem enterFrame_inFrame (k : Nat) : (s.enterFrame k 0).inFrame = 0 := inFrame_of_pos (enterFrame_pos s k 0) (by omega)

@[simp] theorem enterFrame_frame (k u : Nat) : (s.enterFrame k u).frame = BitVec.ofNat 32 (s.frame.toNat + k) :=
  frame_of_pos (enterFrame_pos s k u)

theorem reg_toFrameStart (a : Nat) (h1 : a ≠ Reg.ptpMapLo) (h2 : a ≠ Reg.ptpMapHi) (h3 : a ≠ Reg.stpHoldFrames) :
    s.toFrameStart.reg a = s.reg a := by
  unfold toFrameStart
  split
  · rfl
  · exact reg_enterFrame s 1 0 a h1 h2 h3

/-- A running position stands at line 0 afterwards. -/
theorem toFrameStart_inFrame (h : s.running = true) : s.toFrameStart.inFrame = 0 := by
  unfold toFrameStart
  split
  · rename_i h'
    simpa [h] using h'
  · exact enterFrame_inFrame s 1

theorem reg_toPos (p : BitVec 64) (a : Nat) (h1 : a ≠ Reg.ptpMapLo) (h2 : a ≠ Reg.ptpMapHi) (h3 : a ≠ Reg.stpHoldFrames) :
    (s.toPos p).reg a = s.reg a := by
  unfold toPos
  split
  · rfl
  · dsimp only
    split
    · rfl
    · exact reg_enterFrame s _ _ a h1 h2 h3

/-! ### Modes and causes -/

/-- GUARANTEE and WATCH.EVT are the only registers that bringing GUARANTEE up to date writes. -/
theorem reg_guarantee (a : Nat) (h1 : a ≠ Reg.watchGuarantee) (h2 : a ≠ Pg.watch + hEvt) : s.guarantee.reg a = s.reg a := by
  unfold guarantee
  dsimp only
  split
  · rw [reg_evt_other _ h2, reg_setReg_other _ _ h1]
  · exact reg_setReg_other _ _ h1

theorem guarantee_word : s.guarantee.reg Reg.watchGuarantee = s.guaranteeWord := by
  unfold guarantee
  dsimp only
  split
  · rw [reg_evt_other _ (by simp), reg_setReg_same]
  · exact reg_setReg_same _ _ _

/-- The registers that entering a mode writes. -/
theorem reg_setMode (m a : Nat) (h0 : a ≠ Reg.watchMode) (h1 : a ≠ Reg.watchGuarantee) (h2 : a ≠ Pg.watch + hEvt) (h3 : a ≠ Pg.dev + hEvt) :
    (s.setMode m).reg a = s.reg a := by
  rw [setMode, reg_guarantee _ _ h1 h2, reg_evt_other _ h3, reg_setF_other _ _ _ _ h0]

/-- The mode entered. -/
theorem mode_setMode (m : Nat) (h : m < 8) : (s.setMode m).mode = m := by
  rw [mode, getF, setMode, reg_guarantee _ _ (by simp) (by simp), reg_evt_other _ (by simp), reg_setF_same, fld_setFld _ _ (by omega) (by omega)]
  exact Nat.mod_eq_of_lt (by simpa using h)

theorem bit_setMode_evt (m : Nat) : (s.setMode m).bit (Pg.dev + hEvt) 0 = true := by
  rw [bit, setMode, reg_guarantee _ _ (by simp) (by simp), reg_evt, if_pos rfl, getLsbD_putBit _ _ _ _ (by omega), if_pos rfl]

/-- The registers that a cause writes. -/
theorem reg_setCause (i a : Nat) (h : a ∉ [Reg.watchDegrCause, Reg.watchMode, Reg.watchGuarantee, Pg.watch + hEvt, Pg.dev + hEvt]) :
    (s.setCause i).reg a = s.reg a := by
  simp only [List.mem_cons, List.not_mem_nil, or_false, not_or] at h
  obtain ⟨h0, h1, h2, h3, h4⟩ := h
  unfold setCause
  dsimp only
  split
  · rw [reg_evt_other _ h3, reg_setMode _ _ _ h1 h2 h3 h4, reg_setBit_other _ _ _ h0]
  · rw [reg_guarantee _ _ h2 h3, reg_setBit_other _ _ _ h0]

/-- A cause stands once it is set. -/
theorem bit_setCause {i : Nat} (hi : i < 32) : (s.setCause i).bit Reg.watchDegrCause i = true := by
  unfold setCause
  dsimp only
  split
  · rw [bit, reg_evt_other _ (by simp), reg_setMode _ _ _ (by simp) (by simp) (by simp) (by simp), reg_setBit_same,
      getLsbD_putBit _ _ _ _ hi, if_pos rfl]
  · rw [bit, reg_guarantee _ _ (by simp) (by simp), reg_setBit_same, getLsbD_putBit _ _ _ _ hi, if_pos rfl]

end Sys2Proof.Machine.State
end

