-- ==== Sys2Proof/Laws/Access.lean ====
section
/-! SUPPORT. What the register operations leave of the tables: channels, slots, threads, pairs, HBM bytes and the position. -/

namespace Sys2Proof.Machine

variable (s : State)

@[simp] theorem State.setReg_chan (a : Nat) (w : Word) (k : Nat) : (s.setReg a w).chan k = s.chan k := by simp only [State.chan, State.setReg_chans]
@[simp] theorem State.setReg_slot (a : Nat) (w : Word) (k : Nat) : (s.setReg a w).slot k = s.slot k := by simp only [State.slot, State.setReg_eng]
@[simp] theorem State.setReg_thread (a : Nat) (w : Word) (k : Nat) : (s.setReg a w).thread k = s.thread k := by simp only [State.thread, State.setReg_rv]
@[simp] theorem State.setReg_pair (a : Nat) (w : Word) (k : Nat) : (s.setReg a w).pair k = s.pair k := by simp only [State.pair, State.setReg_rv]
@[simp] theorem State.setReg_memByte (a : Nat) (w : Word) (k : Nat) : (s.setReg a w).memByte k = s.memByte k := by simp only [State.memByte, State.setReg_hbm]
@[simp] theorem State.setReg_frame (a : Nat) (w : Word) : (s.setReg a w).frame = s.frame := by simp only [State.frame, State.setReg_stp]
@[simp] theorem State.setReg_inFrame (a : Nat) (w : Word) : (s.setReg a w).inFrame = s.inFrame := by simp only [State.inFrame, State.setReg_stp]
@[simp] theorem State.setF_chan (a hi lo v : Nat) (k : Nat) : (s.setF a hi lo v).chan k = s.chan k := by simp only [State.chan, State.setF_chans]
@[simp] theorem State.setF_slot (a hi lo v : Nat) (k : Nat) : (s.setF a hi lo v).slot k = s.slot k := by simp only [State.slot, State.setF_eng]
@[simp] theorem State.setF_thread (a hi lo v : Nat) (k : Nat) : (s.setF a hi lo v).thread k = s.thread k := by simp only [State.thread, State.setF_rv]
@[simp] theorem State.setF_pair (a hi lo v : Nat) (k : Nat) : (s.setF a hi lo v).pair k = s.pair k := by simp only [State.pair, State.setF_rv]
@[simp] theorem State.setF_memByte (a hi lo v : Nat) (k : Nat) : (s.setF a hi lo v).memByte k = s.memByte k := by simp only [State.memByte, State.setF_hbm]
@[simp] theorem State.setF_frame (a hi lo v : Nat) : (s.setF a hi lo v).frame = s.frame := by simp only [State.frame, State.setF_stp]
@[simp] theorem State.setF_inFrame (a hi lo v : Nat) : (s.setF a hi lo v).inFrame = s.inFrame := by simp only [State.inFrame, State.setF_stp]
@[simp] theorem State.setBit_chan (a i : Nat) (b : Bool) (k : Nat) : (s.setBit a i b).chan k = s.chan k := by simp only [State.chan, State.setBit_chans]
@[simp] theorem State.setBit_slot (a i : Nat) (b : Bool) (k : Nat) : (s.setBit a i b).slot k = s.slot k := by simp only [State.slot, State.setBit_eng]
@[simp] theorem State.setBit_thread (a i : Nat) (b : Bool) (k : Nat) : (s.setBit a i b).thread k = s.thread k := by simp only [State.thread, State.setBit_rv]
@[simp] theorem State.setBit_pair (a i : Nat) (b : Bool) (k : Nat) : (s.setBit a i b).pair k = s.pair k := by simp only [State.pair, State.setBit_rv]
@[simp] theorem State.setBit_memByte (a i : Nat) (b : Bool) (k : Nat) : (s.setBit a i b).memByte k = s.memByte k := by simp only [State.memByte, State.setBit_hbm]
@[simp] theorem State.setBit_frame (a i : Nat) (b : Bool) : (s.setBit a i b).frame = s.frame := by simp only [State.frame, State.setBit_stp]
@[simp] theorem State.setBit_inFrame (a i : Nat) (b : Bool) : (s.setBit a i b).inFrame = s.inFrame := by simp only [State.inFrame, State.setBit_stp]
@[simp] theorem State.setN_chan (a n : Nat) (k : Nat) : (s.setN a n).chan k = s.chan k := by simp only [State.chan, State.setN_chans]
@[simp] theorem State.setN_slot (a n : Nat) (k : Nat) : (s.setN a n).slot k = s.slot k := by simp only [State.slot, State.setN_eng]
@[simp] theorem State.setN_thread (a n : Nat) (k : Nat) : (s.setN a n).thread k = s.thread k := by simp only [State.thread, State.setN_rv]
@[simp] theorem State.setN_pair (a n : Nat) (k : Nat) : (s.setN a n).pair k = s.pair k := by simp only [State.pair, State.setN_rv]
@[simp] theorem State.setN_memByte (a n : Nat) (k : Nat) : (s.setN a n).memByte k = s.memByte k := by simp only [State.memByte, State.setN_hbm]
@[simp] theorem State.setN_frame (a n : Nat) : (s.setN a n).frame = s.frame := by simp only [State.frame, State.setN_stp]
@[simp] theorem State.setN_inFrame (a n : Nat) : (s.setN a n).inFrame = s.inFrame := by simp only [State.inFrame, State.setN_stp]
@[simp] theorem State.evt_chan (p i : Nat) (k : Nat) : (s.evt p i).chan k = s.chan k := by simp only [State.chan, State.evt_chans]
@[simp] theorem State.evt_slot (p i : Nat) (k : Nat) : (s.evt p i).slot k = s.slot k := by simp only [State.slot, State.evt_eng]
@[simp] theorem State.evt_thread (p i : Nat) (k : Nat) : (s.evt p i).thread k = s.thread k := by simp only [State.thread, State.evt_rv]
@[simp] theorem State.evt_pair (p i : Nat) (k : Nat) : (s.evt p i).pair k = s.pair k := by simp only [State.pair, State.evt_rv]
@[simp] theorem State.evt_memByte (p i : Nat) (k : Nat) : (s.evt p i).memByte k = s.memByte k := by simp only [State.memByte, State.evt_hbm]
@[simp] theorem State.evt_frame (p i : Nat) : (s.evt p i).frame = s.frame := by simp only [State.frame, State.evt_stp]
@[simp] theorem State.evt_inFrame (p i : Nat) : (s.evt p i).inFrame = s.inFrame := by simp only [State.inFrame, State.evt_stp]
@[simp] theorem State.refuse_chan (p c w u : Nat) (k : Nat) : (s.refuse p c w u).chan k = s.chan k := by simp only [State.chan, State.refuse_chans]
@[simp] theorem State.refuse_slot (p c w u : Nat) (k : Nat) : (s.refuse p c w u).slot k = s.slot k := by simp only [State.slot, State.refuse_eng]
@[simp] theorem State.refuse_thread (p c w u : Nat) (k : Nat) : (s.refuse p c w u).thread k = s.thread k := by simp only [State.thread, State.refuse_rv]
@[simp] theorem State.refuse_pair (p c w u : Nat) (k : Nat) : (s.refuse p c w u).pair k = s.pair k := by simp only [State.pair, State.refuse_rv]
@[simp] theorem State.refuse_memByte (p c w u : Nat) (k : Nat) : (s.refuse p c w u).memByte k = s.memByte k := by simp only [State.memByte, State.refuse_hbm]
@[simp] theorem State.refuse_frame (p c w u : Nat) : (s.refuse p c w u).frame = s.frame := by simp only [State.frame, State.refuse_stp]
@[simp] theorem State.refuse_inFrame (p c w u : Nat) : (s.refuse p c w u).inFrame = s.inFrame := by simp only [State.inFrame, State.refuse_stp]
@[simp] theorem State.activate_chan (p : Nat) (k : Nat) : (s.activate p).chan k = s.chan k := by simp only [State.chan, State.activate_chans]
@[simp] theorem State.activate_slot (p : Nat) (k : Nat) : (s.activate p).slot k = s.slot k := by simp only [State.slot, State.activate_eng]
@[simp] theorem State.activate_thread (p : Nat) (k : Nat) : (s.activate p).thread k = s.thread k := by simp only [State.thread, State.activate_rv]
@[simp] theorem State.activate_pair (p : Nat) (k : Nat) : (s.activate p).pair k = s.pair k := by simp only [State.pair, State.activate_rv]
@[simp] theorem State.activate_memByte (p : Nat) (k : Nat) : (s.activate p).memByte k = s.memByte k := by simp only [State.memByte, State.activate_hbm]
@[simp] theorem State.activate_frame (p : Nat) : (s.activate p).frame = s.frame := by simp only [State.frame, State.activate_stp]
@[simp] theorem State.activate_inFrame (p : Nat) : (s.activate p).inFrame = s.inFrame := by simp only [State.inFrame, State.activate_stp]
@[simp] theorem State.clearRefusal_chan (p : Nat) (k : Nat) : (s.clearRefusal p).chan k = s.chan k := by simp only [State.chan, State.clearRefusal_chans]
@[simp] theorem State.clearRefusal_slot (p : Nat) (k : Nat) : (s.clearRefusal p).slot k = s.slot k := by simp only [State.slot, State.clearRefusal_eng]
@[simp] theorem State.clearRefusal_thread (p : Nat) (k : Nat) : (s.clearRefusal p).thread k = s.thread k := by simp only [State.thread, State.clearRefusal_rv]
@[simp] theorem State.clearRefusal_pair (p : Nat) (k : Nat) : (s.clearRefusal p).pair k = s.pair k := by simp only [State.pair, State.clearRefusal_rv]
@[simp] theorem State.clearRefusal_memByte (p : Nat) (k : Nat) : (s.clearRefusal p).memByte k = s.memByte k := by simp only [State.memByte, State.clearRefusal_hbm]
@[simp] theorem State.clearRefusal_frame (p : Nat) : (s.clearRefusal p).frame = s.frame := by simp only [State.frame, State.clearRefusal_stp]
@[simp] theorem State.clearRefusal_inFrame (p : Nat) : (s.clearRefusal p).inFrame = s.inFrame := by simp only [State.inFrame, State.clearRefusal_stp]
@[simp] theorem State.deactivate_chan (p : Nat) (k : Nat) : (s.deactivate p).chan k = s.chan k := by simp only [State.chan, State.deactivate_chans]
@[simp] theorem State.deactivate_slot (p : Nat) (k : Nat) : (s.deactivate p).slot k = s.slot k := by simp only [State.slot, State.deactivate_eng]
@[simp] theorem State.deactivate_thread (p : Nat) (k : Nat) : (s.deactivate p).thread k = s.thread k := by simp only [State.thread, State.deactivate_rv]
@[simp] theorem State.deactivate_pair (p : Nat) (k : Nat) : (s.deactivate p).pair k = s.pair k := by simp only [State.pair, State.deactivate_rv]
@[simp] theorem State.deactivate_memByte (p : Nat) (k : Nat) : (s.deactivate p).memByte k = s.memByte k := by simp only [State.memByte, State.deactivate_hbm]
@[simp] theorem State.deactivate_frame (p : Nat) : (s.deactivate p).frame = s.frame := by simp only [State.frame, State.deactivate_stp]
@[simp] theorem State.deactivate_inFrame (p : Nat) : (s.deactivate p).inFrame = s.inFrame := by simp only [State.inFrame, State.deactivate_stp]
@[simp] theorem State.failCheck_chan (p c w u : Nat) (k : Nat) : (s.failCheck p c w u).chan k = s.chan k := by simp only [State.chan, State.failCheck_chans]
@[simp] theorem State.failCheck_slot (p c w u : Nat) (k : Nat) : (s.failCheck p c w u).slot k = s.slot k := by simp only [State.slot, State.failCheck_eng]
@[simp] theorem State.failCheck_thread (p c w u : Nat) (k : Nat) : (s.failCheck p c w u).thread k = s.thread k := by simp only [State.thread, State.failCheck_rv]
@[simp] theorem State.failCheck_pair (p c w u : Nat) (k : Nat) : (s.failCheck p c w u).pair k = s.pair k := by simp only [State.pair, State.failCheck_rv]
@[simp] theorem State.failCheck_memByte (p c w u : Nat) (k : Nat) : (s.failCheck p c w u).memByte k = s.memByte k := by simp only [State.memByte, State.failCheck_hbm]
@[simp] theorem State.failCheck_frame (p c w u : Nat) : (s.failCheck p c w u).frame = s.frame := by simp only [State.frame, State.failCheck_stp]
@[simp] theorem State.failCheck_inFrame (p c w u : Nat) : (s.failCheck p c w u).inFrame = s.inFrame := by simp only [State.inFrame, State.failCheck_stp]
@[simp] theorem State.raise_chan (c p l m : Nat) (k : Nat) : (s.raise c p l m).chan k = s.chan k := by simp only [State.chan, State.raise_chans]
@[simp] theorem State.raise_slot (c p l m : Nat) (k : Nat) : (s.raise c p l m).slot k = s.slot k := by simp only [State.slot, State.raise_eng]
@[simp] theorem State.raise_thread (c p l m : Nat) (k : Nat) : (s.raise c p l m).thread k = s.thread k := by simp only [State.thread, State.raise_rv]
@[simp] theorem State.raise_pair (c p l m : Nat) (k : Nat) : (s.raise c p l m).pair k = s.pair k := by simp only [State.pair, State.raise_rv]
@[simp] theorem State.raise_memByte (c p l m : Nat) (k : Nat) : (s.raise c p l m).memByte k = s.memByte k := by simp only [State.memByte, State.raise_hbm]
@[simp] theorem State.raise_frame (c p l m : Nat) : (s.raise c p l m).frame = s.frame := by simp only [State.frame, State.raise_stp]
@[simp] theorem State.raise_inFrame (c p l m : Nat) : (s.raise c p l m).inFrame = s.inFrame := by simp only [State.inFrame, State.raise_stp]
@[simp] theorem State.inc32_chan (a : Nat) (k : Nat) : (s.inc32 a).chan k = s.chan k := by simp only [State.chan, State.inc32_chans]
@[simp] theorem State.inc32_slot (a : Nat) (k : Nat) : (s.inc32 a).slot k = s.slot k := by simp only [State.slot, State.inc32_eng]
@[simp] theorem State.inc32_thread (a : Nat) (k : Nat) : (s.inc32 a).thread k = s.thread k := by simp only [State.thread, State.inc32_rv]
@[simp] theorem State.inc32_pair (a : Nat) (k : Nat) : (s.inc32 a).pair k = s.pair k := by simp only [State.pair, State.inc32_rv]
@[simp] theorem State.inc32_memByte (a : Nat) (k : Nat) : (s.inc32 a).memByte k = s.memByte k := by simp only [State.memByte, State.inc32_hbm]
@[simp] theorem State.inc32_frame (a : Nat) : (s.inc32 a).frame = s.frame := by simp only [State.frame, State.inc32_stp]
@[simp] theorem State.inc32_inFrame (a : Nat) : (s.inc32 a).inFrame = s.inFrame := by simp only [State.inFrame, State.inc32_stp]
@[simp] theorem State.incSat_chan (a hi lo n : Nat) (k : Nat) : (s.incSat a hi lo n).chan k = s.chan k := by simp only [State.chan, State.incSat_chans]
@[simp] theorem State.incSat_slot (a hi lo n : Nat) (k : Nat) : (s.incSat a hi lo n).slot k = s.slot k := by simp only [State.slot, State.incSat_eng]
@[simp] theorem State.incSat_thread (a hi lo n : Nat) (k : Nat) : (s.incSat a hi lo n).thread k = s.thread k := by simp only [State.thread, State.incSat_rv]
@[simp] theorem State.incSat_pair (a hi lo n : Nat) (k : Nat) : (s.incSat a hi lo n).pair k = s.pair k := by simp only [State.pair, State.incSat_rv]
@[simp] theorem State.incSat_memByte (a hi lo n : Nat) (k : Nat) : (s.incSat a hi lo n).memByte k = s.memByte k := by simp only [State.memByte, State.incSat_hbm]
@[simp] theorem State.incSat_frame (a hi lo n : Nat) : (s.incSat a hi lo n).frame = s.frame := by simp only [State.frame, State.incSat_stp]
@[simp] theorem State.incSat_inFrame (a hi lo n : Nat) : (s.incSat a hi lo n).inFrame = s.inFrame := by simp only [State.inFrame, State.incSat_stp]

/-- A register of a state written out field by field. -/
theorem reg_of_fields (a1 a2 a3 a4 a5 a6 a7 a8 a9 b1 b2 b3 b4 b5 b6 b7 b8 b9 c1 c2 c3 c4 c5 c6) (k : Nat) :
    (State.mk a1 a2 a3 a4 a5 a6 a7 a8 a9 b1 b2 b3 b4 b5 b6 b7 b8 b9 c1 c2 c3 c4 c5 c6).reg k = Store.get resetVal a1 k := rfl
theorem get_regs (k : Nat) : Store.get resetVal s.regs k = s.reg k := rfl

end Sys2Proof.Machine
end

