-- ==== Sys2Proof/Laws/Changes.lean ====
section
/-! SUPPORT. `Changes L s t`: from `s` to `t` at most the parts in `L` change, the queue stands, and canonical forms are kept. One
lemma for each primitive update; the files ChangesIn….lean give one for each function of the machine. -/

namespace Sys2Proof.Machine

/-- Every element of the first list is in the second. -/
def sub (a b : List Part) : Bool := a.all (fun p => b.contains p)

theorem sub_mem {a b : List Part} (h : sub a b = true) {p : Part} (hp : p ∈ a) : p ∈ b := by
  have := List.all_eq_true.1 h p hp
  simpa using this

theorem sub_of {a b c : List Part} (h' : sub b c = true) (h : sub a b = true) : sub a c = true :=
  List.all_eq_true.2 (fun _ hp => by simpa using sub_mem h' (sub_mem h hp))

structure Changes (L : List Part) (s t : State) : Prop where
  pending : t.pending = s.pending
  regsWf  : Store.wf resetVal s.regs = true → Store.wf resetVal t.regs = true
  hbmWf   : s.hbm.wf = true → t.hbm.wf = true
  free    : s.free ≤ t.free
  same    : SameBut L s t

namespace Changes

variable {L : List Part} {s t u : State}

theorem refl (L : List Part) (s : State) : Changes L s s :=
  ⟨rfl, id, id, Nat.le_refl _, fun p _ => by cases p <;> simp [Part.Same]⟩

theorem same_trans {p : Part} (h : p.Same s t) (h' : p.Same t u) : p.Same s u := by
  cases p <;> simp_all [Part.Same]

theorem trans (h : Changes L s t) (h' : Changes L t u) : Changes L s u :=
  ⟨h'.pending.trans h.pending, h'.regsWf ∘ h.regsWf, h'.hbmWf ∘ h.hbmWf, Nat.le_trans h.free h'.free,
   fun p hp => same_trans (h.same p hp) (h'.same p hp)⟩

theorem mono {K : List Part} (hK : sub K L = true) (h : Changes K s t) : Changes L s t :=
  ⟨h.pending, h.regsWf, h.hbmWf, h.free, fun p hp => h.same p (fun hk => hp (sub_mem hK hk))⟩

/-- A further update that changes only the parts in `K`, and neither register file nor memory. -/
theorem upd (K : List Part) (hK : sub K L = true) (h : Changes L s t) (hp : u.pending = t.pending) (hr : u.regs = t.regs)
    (hm : u.hbm.mem = t.hbm.mem) (hg : u.hbm.gen = t.hbm.gen) (hf : t.free ≤ u.free)
    (hs : ∀ p, p ∉ K → p.Same t u) : Changes L s u :=
  h.trans ⟨hp, fun w => by rw [hr]; exact w, fun w => by simpa [HbmSt.wf, hm, hg] using w, hf,
    fun p hp => hs p (fun hk => hp (sub_mem hK hk))⟩

theorem ite {c : Prop} [Decidable c] {a b : State} (ha : Changes L s a) (hb : Changes L s b) :
    Changes L s (if c then a else b) := by
  split <;> assumption

theorem dite {c : Prop} [Decidable c] {a : c → State} {b : ¬c → State} (ha : ∀ h, Changes L s (a h)) (hb : ∀ h, Changes L s (b h)) :
    Changes L s (dite c a b) := by
  split
  · exact ha _
  · exact hb _

theorem foldl {α : Type} {f : State → α → State} {l : List α} (hf : ∀ x a, Changes L s x → Changes L s (f x a))
    (ht : Changes L s t) : Changes L s (l.foldl f t) := by
  induction l generalizing t with
  | nil => exact ht
  | cons a l ih => exact ih (hf _ _ ht)

/-- A fold that carries more than the state. -/
theorem foldl_fst {α β : Type} {f : State × β → α → State × β} {l : List α} {z : State × β}
    (hf : ∀ x a, Changes L s x.1 → Changes L s (f x a).1) (hz : Changes L s z.1) : Changes L s (l.foldl f z).1 := by
  induction l generalizing z with
  | nil => exact hz
  | cons a l ih => exact ih (hf _ _ hz)

theorem foldl_snd {α β : Type} {f : β × State → α → β × State} {l : List α} {z : β × State}
    (hf : ∀ x a, Changes L s x.2 → Changes L s (f x a).2) (hz : Changes L s z.2) : Changes L s (l.foldl f z).2 := by
  induction l generalizing z with
  | nil => exact hz
  | cons a l ih => exact ih (hf _ _ hz)

theorem set_bus (hL : sub [.bus] L = true) (h : Changes L s t) (v : BusSt) : Changes L s { t with bus := v } :=
  upd [.bus] hL h rfl rfl rfl rfl (Nat.le_refl _) (fun p hp => by cases p <;> first | rfl | exact ⟨rfl, rfl⟩ | exact absurd (List.mem_singleton.2 rfl) hp)

theorem set_pins (hL : sub [.pins] L = true) (h : Changes L s t) (v : PinSt) : Changes L s { t with pins := v } :=
  upd [.pins] hL h rfl rfl rfl rfl (Nat.le_refl _) (fun p hp => by cases p <;> first | rfl | exact ⟨rfl, rfl⟩ | exact absurd (List.mem_singleton.2 rfl) hp)

theorem set_stp (hL : sub [.stp] L = true) (h : Changes L s t) (v : SteepleSt) : Changes L s { t with stp := v } :=
  upd [.stp] hL h rfl rfl rfl rfl (Nat.le_refl _) (fun p hp => by cases p <;> first | rfl | exact ⟨rfl, rfl⟩ | exact absurd (List.mem_singleton.2 rfl) hp)

theorem set_chans (hL : sub [.chans] L = true) (h : Changes L s t) (v : Store Chan) : Changes L s { t with chans := v } :=
  upd [.chans] hL h rfl rfl rfl rfl (Nat.le_refl _) (fun p hp => by cases p <;> first | rfl | exact ⟨rfl, rfl⟩ | exact absurd (List.mem_singleton.2 rfl) hp)

theorem set_eng (hL : sub [.eng] L = true) (h : Changes L s t) (v : EngSt) : Changes L s { t with eng := v } :=
  upd [.eng] hL h rfl rfl rfl rfl (Nat.le_refl _) (fun p hp => by cases p <;> first | rfl | exact ⟨rfl, rfl⟩ | exact absurd (List.mem_singleton.2 rfl) hp)

theorem set_mill (hL : sub [.mill] L = true) (h : Changes L s t) (v : MillSt) : Changes L s { t with mill := v } :=
  upd [.mill] hL h rfl rfl rfl rfl (Nat.le_refl _) (fun p hp => by cases p <;> first | rfl | exact ⟨rfl, rfl⟩ | exact absurd (List.mem_singleton.2 rfl) hp)

theorem set_clp (hL : sub [.clp] L = true) (h : Changes L s t) (v : ClpSt) : Changes L s { t with clp := v } :=
  upd [.clp] hL h rfl rfl rfl rfl (Nat.le_refl _) (fun p hp => by cases p <;> first | rfl | exact ⟨rfl, rfl⟩ | exact absurd (List.mem_singleton.2 rfl) hp)

theorem set_ing (hL : sub [.ing] L = true) (h : Changes L s t) (v : IngSt) : Changes L s { t with ing := v } :=
  upd [.ing] hL h rfl rfl rfl rfl (Nat.le_refl _) (fun p hp => by cases p <;> first | rfl | exact ⟨rfl, rfl⟩ | exact absurd (List.mem_singleton.2 rfl) hp)

theorem set_etm (hL : sub [.etm] L = true) (h : Changes L s t) (v : EtmSt) : Changes L s { t with etm := v } :=
  upd [.etm] hL h rfl rfl rfl rfl (Nat.le_refl _) (fun p hp => by cases p <;> first | rfl | exact ⟨rfl, rfl⟩ | exact absurd (List.mem_singleton.2 rfl) hp)

theorem set_ptp (hL : sub [.ptp] L = true) (h : Changes L s t) (v : PtpSt) : Changes L s { t with ptp := v } :=
  upd [.ptp] hL h rfl rfl rfl rfl (Nat.le_refl _) (fun p hp => by cases p <;> first | rfl | exact ⟨rfl, rfl⟩ | exact absurd (List.mem_singleton.2 rfl) hp)

theorem set_aud (hL : sub [.aud] L = true) (h : Changes L s t) (v : AudSt) : Changes L s { t with aud := v } :=
  upd [.aud] hL h rfl rfl rfl rfl (Nat.le_refl _) (fun p hp => by cases p <;> first | rfl | exact ⟨rfl, rfl⟩ | exact absurd (List.mem_singleton.2 rfl) hp)

theorem set_mon (hL : sub [.mon] L = true) (h : Changes L s t) (v : MonSt) : Changes L s { t with mon := v } :=
  upd [.mon] hL h rfl rfl rfl rfl (Nat.le_refl _) (fun p hp => by cases p <;> first | rfl | exact ⟨rfl, rfl⟩ | exact absurd (List.mem_singleton.2 rfl) hp)

theorem set_rv (hL : sub [.rv] L = true) (h : Changes L s t) (v : ReeveSt) : Changes L s { t with rv := v } :=
  upd [.rv] hL h rfl rfl rfl rfl (Nat.le_refl _) (fun p hp => by cases p <;> first | rfl | exact ⟨rfl, rfl⟩ | exact absurd (List.mem_singleton.2 rfl) hp)

theorem set_bf (hL : sub [.bf] L = true) (h : Changes L s t) (v : BelfrySt) : Changes L s { t with bf := v } :=
  upd [.bf] hL h rfl rfl rfl rfl (Nat.le_refl _) (fun p hp => by cases p <;> first | rfl | exact ⟨rfl, rfl⟩ | exact absurd (List.mem_singleton.2 rfl) hp)

theorem set_cvu (hL : sub [.cvu] L = true) (h : Changes L s t) (v : Store CvuSt) : Changes L s { t with cvu := v } :=
  upd [.cvu] hL h rfl rfl rfl rfl (Nat.le_refl _) (fun p hp => by cases p <;> first | rfl | exact ⟨rfl, rfl⟩ | exact absurd (List.mem_singleton.2 rfl) hp)

theorem set_book (hL : sub [.book] L = true) (h : Changes L s t) (v : BookSt) : Changes L s { t with book := v } :=
  upd [.book] hL h rfl rfl rfl rfl (Nat.le_refl _) (fun p hp => by cases p <;> first | rfl | exact ⟨rfl, rfl⟩ | exact absurd (List.mem_singleton.2 rfl) hp)

theorem set_faults (hL : sub [.faults] L = true) (h : Changes L s t) (v : List FaultRec) : Changes L s { t with faults := v } :=
  upd [.faults] hL h rfl rfl rfl rfl (Nat.le_refl _) (fun p hp => by cases p <;> first | rfl | exact ⟨rfl, rfl⟩ | exact absurd (List.mem_singleton.2 rfl) hp)

theorem set_twin (hL : sub [.twin] L = true) (h : Changes L s t) (v : TwinSt) : Changes L s { t with twin := v } :=
  upd [.twin] hL h rfl rfl rfl rfl (Nat.le_refl _) (fun p hp => by cases p <;> first | rfl | exact ⟨rfl, rfl⟩ | exact absurd (List.mem_singleton.2 rfl) hp)

theorem set_boot (hL : sub [.boot] L = true) (h : Changes L s t) (v : BootSt) : Changes L s { t with boot := v } :=
  upd [.boot] hL h rfl rfl rfl rfl (Nat.le_refl _) (fun p hp => by cases p <;> first | rfl | exact ⟨rfl, rfl⟩ | exact absurd (List.mem_singleton.2 rfl) hp)

theorem set_sent (hL : sub [.sent] L = true) (h : Changes L s t) (v : List TxMsg) : Changes L s { t with sent := v } :=
  upd [.sent] hL h rfl rfl rfl rfl (Nat.le_refl _) (fun p hp => by cases p <;> first | rfl | exact ⟨rfl, rfl⟩ | exact absurd (List.mem_singleton.2 rfl) hp)

end Changes

theorem State.setReg_changes {L : List Part} {s t : State} (hL : sub [.regs] L = true) (h : Changes L s t) (a : Nat) (w : Word) :
    Changes L s (t.setReg a w) :=
  h.trans ⟨rfl, fun q => Store.put_wf a w q, id, Nat.le_refl _, fun p hp => by
    cases p <;> first | rfl | exact ⟨rfl, rfl⟩ | exact absurd (sub_mem hL (List.mem_singleton.2 rfl)) hp⟩

theorem State.setMem_changes {L : List Part} {s t : State} (hL : sub [.mem] L = true) (h : Changes L s t) (a : Nat)
    (l : List (BitVec 8)) : Changes L s (t.setMem a l) :=
  h.trans ⟨rfl, id, fun q => Store.putMany_wf a l q, Nat.le_refl _, fun p hp => by
    cases p <;> first | rfl | exact ⟨rfl, rfl⟩ | exact absurd (sub_mem hL (List.mem_singleton.2 rfl)) hp⟩

theorem State.draw_changes {L : List Part} {s t : State} (h : Changes L s t) : Changes L s t.draw.2 :=
  h.trans ⟨rfl, id, id, Nat.le_succ _, fun p _ => by cases p <;> first | rfl | exact ⟨rfl, rfl⟩⟩

end Sys2Proof.Machine
end

