-- ==== Sys2Proof/Laws/ChangesInOps.lean ====
section
/-! SUPPORT. What each function of Ops.lean changes at most: one lemma for each. -/

namespace Sys2Proof.Machine

theorem State.setF_changes {L : List Part} {s t0 : State} (hL : sub [.regs] L = true) (h0t : Changes L s t0) (a1 : Nat) (a2 : Nat) (a3 : Nat) (a4 : Nat) :
    Changes L s (State.setF t0 a1 a2 a3 a4) := by
  unfold State.setF
  exact State.setReg_changes (sub_of hL rfl) h0t _ _

theorem State.setBit_changes {L : List Part} {s t0 : State} (hL : sub [.regs] L = true) (h0t : Changes L s t0) (a1 : Nat) (a2 : Nat) (a3 : Bool) :
    Changes L s (State.setBit t0 a1 a2 a3) := by
  unfold State.setBit
  exact State.setReg_changes (sub_of hL rfl) h0t _ _

theorem State.setN_changes {L : List Part} {s t0 : State} (hL : sub [.regs] L = true) (h0t : Changes L s t0) (a1 : Nat) (a2 : Nat) :
    Changes L s (State.setN t0 a1 a2) := by
  unfold State.setN
  exact State.setReg_changes (sub_of hL rfl) h0t _ _

theorem State.incSat_changes {L : List Part} {s t0 : State} (hL : sub [.regs] L = true) (h0t : Changes L s t0) (a1 : Nat) (a2 : Nat) (a3 : Nat) (a4 : Nat) :
    Changes L s (State.incSat t0 a1 a2 a3 a4) := by
  unfold State.incSat
  exact State.setF_changes (sub_of hL rfl) h0t _ _ _ _

theorem State.inc32_changes {L : List Part} {s t0 : State} (hL : sub [.regs] L = true) (h0t : Changes L s t0) (a1 : Nat) :
    Changes L s (State.inc32 t0 a1) := by
  unfold State.inc32
  exact State.incSat_changes (sub_of hL rfl) h0t _ _ _ _

theorem State.wrapAdd_changes {L : List Part} {s t0 : State} (hL : sub [.regs] L = true) (h0t : Changes L s t0) (a1 : Nat) (a2 : Nat) :
    Changes L s (State.wrapAdd t0 a1 a2) := by
  unfold State.wrapAdd
  exact State.setReg_changes (sub_of hL rfl) h0t _ _

theorem State.setReg64_changes {L : List Part} {s t0 : State} (hL : sub [.regs] L = true) (h0t : Changes L s t0) (a1 : Nat) (a2 : Nat) (a3 : BitVec 64) :
    Changes L s (State.setReg64 t0 a1 a2 a3) := by
  unfold State.setReg64
  exact State.setReg_changes (sub_of hL rfl) (State.setReg_changes (sub_of hL rfl) h0t _ _) _ _

theorem State.clearRegs_changes {L : List Part} {s t0 : State} (hL : sub [.regs] L = true) (h0t : Changes L s t0) (a1 : List Nat) :
    Changes L s (State.clearRegs t0 a1) := by
  unfold State.clearRegs
  exact Changes.foldl (fun x0 _ h1 => (State.setReg_changes (sub_of hL rfl) h1 _ _)) h0t

theorem State.evt_changes {L : List Part} {s t0 : State} (hL : sub [.regs] L = true) (h0t : Changes L s t0) (a1 : Nat) (a2 : Nat) :
    Changes L s (State.evt t0 a1 a2) := by
  unfold State.evt
  exact State.setBit_changes (sub_of hL rfl) h0t _ _ _

theorem State.refuse_changes {L : List Part} {s t0 : State} (hL : sub [.regs] L = true) (h0t : Changes L s t0) (a1 : Nat) (a2 : Nat) (a3 : Nat) (a4 : Nat) :
    Changes L s (State.refuse t0 a1 a2 a3 a4) := by
  unfold State.refuse
  exact State.setN_changes (sub_of hL rfl) (State.setBit_changes (sub_of hL rfl) h0t _ _ _) _ _

theorem State.clearRefusal_changes {L : List Part} {s t0 : State} (hL : sub [.regs] L = true) (h0t : Changes L s t0) (a1 : Nat) :
    Changes L s (State.clearRefusal t0 a1) := by
  unfold State.clearRefusal
  exact State.setReg_changes (sub_of hL rfl) (State.setBit_changes (sub_of hL rfl) h0t _ _ _) _ _

theorem State.activate_changes {L : List Part} {s t0 : State} (hL : sub [.regs] L = true) (h0t : Changes L s t0) (a1 : Nat) :
    Changes L s (State.activate t0 a1) := by
  unfold State.activate
  exact State.clearRefusal_changes (sub_of hL rfl) (State.setBit_changes (sub_of hL rfl) (State.setBit_changes (sub_of hL rfl) h0t _ _ _) _ _ _) _

theorem State.deactivate_changes {L : List Part} {s t0 : State} (hL : sub [.regs] L = true) (h0t : Changes L s t0) (a1 : Nat) :
    Changes L s (State.deactivate t0 a1) := by
  unfold State.deactivate
  exact State.setBit_changes (sub_of hL rfl) (State.setBit_changes (sub_of hL rfl) h0t _ _ _) _ _ _

theorem State.failCheck_changes {L : List Part} {s t0 : State} (hL : sub [.regs] L = true) (h0t : Changes L s t0) (a1 : Nat) (a2 : Nat) (a3 : Nat) (a4 : Nat) :
    Changes L s (State.failCheck t0 a1 a2 a3 a4) := by
  unfold State.failCheck
  exact State.refuse_changes (sub_of hL rfl) (State.deactivate_changes (sub_of hL rfl) h0t _) _ _ _ _

theorem State.setPtpMap_changes {L : List Part} {s t0 : State} (hL : sub [.regs] L = true) (h0t : Changes L s t0) (a1 : Nat) :
    Changes L s (State.setPtpMap t0 a1) := by
  unfold State.setPtpMap
  exact State.setF_changes (sub_of hL rfl) (State.setN_changes (sub_of hL rfl) h0t _ _) _ _ _ _

theorem State.carryMap_changes {L : List Part} {s t0 : State} (hL : sub [.regs] L = true) (h0t : Changes L s t0) (a1 : Nat) :
    Changes L s (State.carryMap t0 a1) := by
  unfold State.carryMap
  exact Changes.ite (State.setPtpMap_changes (sub_of hL rfl) h0t _) h0t

theorem State.countHold_changes {L : List Part} {s t0 : State} (hL : sub [.regs, .stp] L = true) (h0t : Changes L s t0) (a1 : Nat) :
    Changes L s (State.countHold t0 a1) := by
  unfold State.countHold
  exact Changes.ite (State.wrapAdd_changes (sub_of hL rfl) h0t _ _) (Changes.ite (Changes.set_stp (sub_of hL rfl) h0t _) h0t)

theorem State.setPos_changes {L : List Part} {s t0 : State} (hL : sub [.stp] L = true) (h0t : Changes L s t0) (a1 : BitVec 64) :
    Changes L s (State.setPos t0 a1) := by
  unfold State.setPos
  exact Changes.set_stp (sub_of hL rfl) h0t _

theorem State.enterFrame_changes {L : List Part} {s t0 : State} (hL : sub [.regs, .stp] L = true) (h0t : Changes L s t0) (a1 : Nat) (a2 : Nat) :
    Changes L s (State.enterFrame t0 a1 a2) := by
  unfold State.enterFrame
  exact State.countHold_changes (sub_of hL rfl) (State.carryMap_changes (sub_of hL rfl) (State.setPos_changes (sub_of hL rfl) h0t _) _) _

theorem State.advance_changes {L : List Part} {s t0 : State} (hL : sub [.regs, .stp] L = true) (h0t : Changes L s t0) (a1 : Nat) :
    Changes L s (State.advance t0 a1) := by
  unfold State.advance
  extract_lets -merge -useContext x0
  try clear_value x0
  exact Changes.ite (State.setPos_changes (sub_of hL rfl) h0t _) (State.enterFrame_changes (sub_of hL rfl) h0t _ _)

theorem State.toFrameStart_changes {L : List Part} {s t0 : State} (hL : sub [.regs, .stp] L = true) (h0t : Changes L s t0) :
    Changes L s (State.toFrameStart t0) := by
  unfold State.toFrameStart
  exact Changes.ite h0t (State.enterFrame_changes (sub_of hL rfl) h0t _ _)

theorem State.toPos_changes {L : List Part} {s t0 : State} (hL : sub [.regs, .stp] L = true) (h0t : Changes L s t0) (a1 : BitVec 64) :
    Changes L s (State.toPos t0 a1) := by
  unfold State.toPos
  refine Changes.ite ?_ ?_
  · exact h0t
  · extract_lets -merge -useContext x0
    try clear_value x0
    exact Changes.ite (State.setPos_changes (sub_of hL rfl) h0t _) (State.enterFrame_changes (sub_of hL rfl) h0t _ _)

theorem State.tick_changes {L : List Part} {s t0 : State} (hL : sub [.regs, .stp] L = true) (h0t : Changes L s t0) :
    Changes L s (State.tick t0) := by
  unfold State.tick
  extract_lets -merge -useContext x0 x1 x2 x3
  try clear_value x0 x2 x3
  have h4 : Changes L s x1 := Changes.set_stp (sub_of hL rfl) h0t _
  try clear_value x1
  refine Changes.ite ?_ ?_
  · split
    rename_i x5 x6 x7 heq8
    extract_lets -merge -useContext x9 x10
    try clear_value x9 x10
    exact State.advance_changes (sub_of hL rfl) (Changes.set_stp (sub_of hL rfl) h4 _) _
  · exact h4

theorem State.raise_changes {L : List Part} {s t0 : State} (hL : sub [.faults] L = true) (h0t : Changes L s t0) (a1 : Nat) (a2 : Nat) (a3 : Nat) (a4 : Nat) :
    Changes L s (State.raise t0 a1 a2 a3 a4) := by
  unfold State.raise
  exact Changes.set_faults (sub_of hL rfl) h0t _

theorem State.guarantee_changes {L : List Part} {s t0 : State} (hL : sub [.regs] L = true) (h0t : Changes L s t0) :
    Changes L s (State.guarantee t0) := by
  unfold State.guarantee
  extract_lets -merge -useContext x0 x1
  try clear_value x0
  have h2 : Changes L s x1 := State.setReg_changes (sub_of hL rfl) h0t _ _
  try clear_value x1
  exact Changes.ite (State.evt_changes (sub_of hL rfl) h2 _ _) h2

theorem State.setMode_changes {L : List Part} {s t0 : State} (hL : sub [.regs] L = true) (h0t : Changes L s t0) (a1 : Nat) :
    Changes L s (State.setMode t0 a1) := by
  unfold State.setMode
  exact State.guarantee_changes (sub_of hL rfl) (State.evt_changes (sub_of hL rfl) (State.setF_changes (sub_of hL rfl) h0t _ _ _ _) _ _)

theorem State.setCause_changes {L : List Part} {s t0 : State} (hL : sub [.regs] L = true) (h0t : Changes L s t0) (a1 : Nat) :
    Changes L s (State.setCause t0 a1) := by
  unfold State.setCause
  extract_lets -merge -useContext x0
  have h1 : Changes L s x0 := State.setBit_changes (sub_of hL rfl) h0t _ _ _
  try clear_value x0
  exact Changes.ite (State.evt_changes (sub_of hL rfl) (State.setMode_changes (sub_of hL rfl) h1 _) _ _) (State.guarantee_changes (sub_of hL rfl) h1)

theorem State.recoverReq_changes {L : List Part} {s t0 : State} (hL : sub [.regs] L = true) (h0t : Changes L s t0) (a1 : Nat) :
    Changes L s (State.recoverReq t0 a1) := by
  unfold State.recoverReq
  exact State.setBit_changes (sub_of hL rfl) h0t _ _ _

theorem State.unitDegraded_changes {L : List Part} {s t0 : State} (hL : sub [.regs] L = true) (h0t : Changes L s t0) (a1 : Nat) (a2 : Bool) :
    Changes L s (State.unitDegraded t0 a1 a2) := by
  unfold State.unitDegraded
  exact State.setBit_changes (sub_of hL rfl) h0t _ _ _

theorem State.clearCause_changes {L : List Part} {s t0 : State} (hL : sub [.regs] L = true) (h0t : Changes L s t0) (a1 : Nat) :
    Changes L s (State.clearCause t0 a1) := by
  unfold State.clearCause
  exact Changes.ite (State.guarantee_changes (sub_of hL rfl) (Changes.foldl (fun x0 _ h1 => (State.unitDegraded_changes (sub_of hL rfl) h1 _ _)) (State.setBit_changes (sub_of hL rfl) h0t _ _ _))) (State.guarantee_changes (sub_of hL rfl) h0t)

theorem State.bufLevel_changes {L : List Part} {s t0 : State} (hL : sub [.regs] L = true) (h0t : Changes L s t0) :
    Changes L s (State.bufLevel t0) := by
  unfold State.bufLevel
  exact State.setF_changes (sub_of hL rfl) h0t _ _ _ _

theorem State.stageLine_changes {L : List Part} {s t0 : State} (hL : sub [.regs, .book] L = true) (h0t : Changes L s t0) (a1 : Nat) (a2 : Nat) (a3 : Nat) (a4 : Nat) (a5 : List Nat) :
    Changes L s (State.stageLine t0 a1 a2 a3 a4 a5) := by
  unfold State.stageLine
  refine Changes.ite ?_ ?_
  · exact h0t
  · extract_lets -merge -useContext x0 x1 x2 x3 x4 x5 x6 x7 x8 x9 x10 x11
    try clear_value x0 x1 x2 x3 x4 x5 x6 x7
    have h12 : Changes L s x8 := Changes.set_book (sub_of hL rfl) h0t _
    have h13 : Changes L s x9 := State.setReg_changes (sub_of hL rfl) h12 _ _
    have h14 : Changes L s x10 := Changes.ite (State.evt_changes (sub_of hL rfl) (State.inc32_changes (sub_of hL rfl) h13 _) _ _) h13
    have h15 : Changes L s x11 := Changes.ite (State.evt_changes (sub_of hL rfl) h14 _ _) h14
    try clear_value x8 x9 x10 x11
    exact State.bufLevel_changes (sub_of hL rfl) h15

theorem State.scheduleChan_changes {L : List Part} {s t0 : State} (hL : sub [.twin] L = true) (h0t : Changes L s t0) (a1 : Nat) (a2 : BitVec 32) :
    Changes L s (State.scheduleChan t0 a1 a2) := by
  unfold State.scheduleChan
  extract_lets -merge -useContext x0 x1 x2
  try clear_value x0 x1 x2
  split
  · rename_i x3 x4 heq5
    exact Changes.ite (Changes.set_twin (sub_of hL rfl) h0t _) h0t
  · rename_i x6 heq7
    exact Changes.set_twin (sub_of hL rfl) h0t _

theorem State.schedule_changes {L : List Part} {s t0 : State} (hL : sub [.twin] L = true) (h0t : Changes L s t0) (a1 : BitVec 128) (a2 : BitVec 32) :
    Changes L s (State.schedule t0 a1 a2) := by
  unfold State.schedule
  exact Changes.foldl (fun x0 _ h1 => (State.scheduleChan_changes (sub_of hL rfl) h1 _ _)) h0t

theorem State.requestResync_changes {L : List Part} {s t0 : State} (hL : sub [.twin, .sent] L = true) (h0t : Changes L s t0) (a1 : BitVec 128) :
    Changes L s (State.requestResync t0 a1) := by
  unfold State.requestResync
  refine Changes.ite ?_ ?_
  · extract_lets -merge -useContext x0
    try clear_value x0
    exact State.schedule_changes (sub_of hL rfl) (Changes.set_sent (sub_of hL rfl) h0t _) _ _
  · exact h0t

end Sys2Proof.Machine
end

