-- ==== Sys2Proof/Laws/ChangesInThreads.lean ====
section
/-! SUPPORT. What each function of Threads.lean changes at most: one lemma for each. -/

namespace Sys2Proof.Machine

theorem State.setChan_changes {L : List Part} {s t0 : State} (hL : sub [.chans] L = true) (h0t : Changes L s t0) (a1 : Nat) (a2 : Sys2Proof.Machine.Chan) :
    Changes L s (State.setChan t0 a1 a2) := by
  unfold State.setChan
  exact Changes.set_chans (sub_of hL rfl) h0t _

theorem State.setThread_changes {L : List Part} {s t0 : State} (hL : sub [.rv] L = true) (h0t : Changes L s t0) (a1 : Nat) (a2 : Sys2Proof.Machine.Thread) :
    Changes L s (State.setThread t0 a1 a2) := by
  unfold State.setThread
  exact Changes.set_rv (sub_of hL rfl) h0t _

theorem State.setPair_changes {L : List Part} {s t0 : State} (hL : sub [.regs, .rv] L = true) (h0t : Changes L s t0) (a1 : Nat) (a2 : Sys2Proof.Machine.PairSt) :
    Changes L s (State.setPair t0 a1 a2) := by
  unfold State.setPair
  extract_lets -merge -useContext x0 x1
  try clear_value x0
  have h2 : Changes L s x1 := Changes.set_rv (sub_of hL rfl) h0t _
  try clear_value x1
  exact State.setN_changes (sub_of hL rfl) (State.setF_changes (sub_of hL rfl) h2 _ _ _ _) _ _

theorem State.reeveLevels_changes {L : List Part} {s t0 : State} (hL : sub [.regs] L = true) (h0t : Changes L s t0) :
    Changes L s (State.reeveLevels t0) := by
  unfold State.reeveLevels
  exact State.setF_changes (sub_of hL rfl) (State.setF_changes (sub_of hL rfl) h0t _ _ _ _) _ _ _ _

theorem State.absorb_changes {L : List Part} {s t0 : State} (hL : sub [.regs, .rv] L = true) (h0t : Changes L s t0) (a1 : Nat) :
    Changes L s (State.absorb t0 a1) := by
  unfold State.absorb
  extract_lets -merge -useContext x0
  try clear_value x0
  exact State.inc32_changes (sub_of hL rfl) (State.setThread_changes (sub_of hL rfl) h0t _ _) _

theorem State.newReadiness_changes {L : List Part} {s t0 : State} (hL : sub [.rv] L = true) (h0t : Changes L s t0) (a1 : Nat) (a2 : Sys2Proof.Machine.Thread) :
    Changes L s (State.newReadiness t0 a1 a2) := by
  unfold State.newReadiness
  extract_lets -merge -useContext x0 x1 x2 x3
  try clear_value x0 x1 x3
  have h4 : Changes L s x2 := State.setThread_changes (sub_of hL rfl) h0t _ _
  try clear_value x2
  exact Changes.set_rv (sub_of hL rfl) h4 _

theorem State.makeReady_changes {L : List Part} {s t0 : State} (hL : sub [.regs, .rv] L = true) (h0t : Changes L s t0) (a1 : Nat) :
    Changes L s (State.makeReady t0 a1) := by
  unfold State.makeReady
  extract_lets -merge -useContext x0
  try clear_value x0
  split
  · rename_i x1 heq2
    exact State.newReadiness_changes (sub_of hL rfl) h0t _ _
  · rename_i x3 heq4
    exact State.setThread_changes (sub_of hL rfl) h0t _ _
  · rename_i x5 heq6 heq7
    exact State.absorb_changes (sub_of hL rfl) h0t _

theorem State.vecReq_changes {L : List Part} {s t0 : State} (hL : sub [.regs, .rv] L = true) (h0t : Changes L s t0) (a1 : Nat) :
    Changes L s (State.vecReq t0 a1) := by
  unfold State.vecReq
  exact Changes.ite (State.absorb_changes (sub_of hL rfl) h0t _) (Changes.set_rv (sub_of hL rfl) h0t _)

theorem State.cancelThread_changes {L : List Part} {s t0 : State} (hL : sub [.rv] L = true) (h0t : Changes L s t0) (a1 : Nat) :
    Changes L s (State.cancelThread t0 a1) := by
  unfold State.cancelThread
  extract_lets -merge -useContext x0
  try clear_value x0
  split
  · rename_i x1 heq2
    exact State.setThread_changes (sub_of hL rfl) h0t _ _
  · rename_i x3 heq4
    exact State.setThread_changes (sub_of hL rfl) h0t _ _
  · rename_i x5 heq6 heq7
    exact h0t

theorem State.offerTo_changes {L : List Part} {s t0 : State} (hL : sub [.regs, .rv] L = true) (h0t : Changes L s t0) (a1 : Nat) :
    Changes L s (State.offerTo t0 a1) := by
  unfold State.offerTo
  extract_lets -merge -useContext x0
  try clear_value x0
  refine Changes.ite ?_ ?_
  · exact h0t
  · split
    · rename_i x1 x2 x3 heq4
      exact Changes.ite (State.setPair_changes (sub_of hL rfl) h0t _ _) h0t
    · rename_i x5 heq6
      exact h0t

theorem State.offer_changes {L : List Part} {s t0 : State} (hL : sub [.regs, .rv] L = true) (h0t : Changes L s t0) :
    Changes L s (State.offer t0) := by
  unfold State.offer
  refine State.reeveLevels_changes (sub_of hL rfl) ?_
  refine Changes.foldl (fun x0 _ h1 => ?_) ?_
  · exact State.offerTo_changes (sub_of hL rfl) h1 _
  · exact h0t

theorem State.unrun_changes {L : List Part} {s t0 : State} (hL : sub [.regs, .rv] L = true) (h0t : Changes L s t0) (a1 : Nat) :
    Changes L s (State.unrun t0 a1) := by
  unfold State.unrun
  extract_lets -merge -useContext x0
  try clear_value x0
  split
  · rename_i x1 heq2
    exact h0t
  · rename_i x3 x4 heq5
    extract_lets -merge -useContext x6 x7 x8 x9
    try clear_value x6 x8
    have h10 : Changes L s x7 := State.setThread_changes (sub_of hL rfl) h0t _ _
    have h11 : Changes L s x9 := Changes.ite (State.setThread_changes (sub_of hL rfl) h0t _ _) (Changes.set_rv (sub_of hL rfl) h10 _)
    try clear_value x7 x9
    exact State.setPair_changes (sub_of hL rfl) h11 _ _

theorem State.settleMove_changes {L : List Part} {s t0 : State} (hL : sub [.regs, .chans] L = true) (h0t : Changes L s t0) (a1 : Nat) :
    Changes L s (State.settleMove t0 a1) := by
  unfold State.settleMove
  extract_lets -merge -useContext x0 x1 x2 x3
  try clear_value x0 x1 x2
  have h4 : Changes L s x3 := State.setChan_changes (sub_of hL rfl) h0t _ _
  try clear_value x3
  exact Changes.ite (Changes.ite (State.setF_changes (sub_of hL rfl) h4 _ _ _ _) h4) h0t

theorem State.settleThread_changes {L : List Part} {s t0 : State} (hL : sub [.regs, .chans] L = true) (h0t : Changes L s t0) (a1 : Nat) :
    Changes L s (State.settleThread t0 a1) := by
  unfold State.settleThread
  split
  · rename_i x0 x1 heq2
    exact State.settleMove_changes (sub_of hL rfl) h0t _
  · rename_i x3 heq4
    exact h0t

theorem State.countStranded_changes {L : List Part} {s t0 : State} (hL : sub [.regs] L = true) (h0t : Changes L s t0) (a1 : Nat) :
    Changes L s (State.countStranded t0 a1) := by
  unfold State.countStranded
  extract_lets -merge -useContext x0 x1
  try clear_value x0
  have h2 : Changes L s x1 := State.setF_changes (sub_of hL rfl) h0t _ _ _ _
  try clear_value x1
  exact Changes.ite (State.evt_changes (sub_of hL rfl) h2 _ _) h2

end Sys2Proof.Machine
end

