-- ==== Sys2Proof/Laws/ChangesInTables.lean ====
section
/-! SUPPORT. What each function of Tables.lean changes at most: one lemma for each. -/

namespace Sys2Proof.Machine

theorem State.tblRefuse_changes {L : List Part} {s t0 : State} (hL : sub [.regs] L = true) (h0t : Changes L s t0) (a1 : Nat) :
    Changes L s (State.tblRefuse t0 a1) := by
  unfold State.tblRefuse
  exact State.setN_changes (sub_of hL rfl) h0t _ _

theorem State.tblDone_changes {L : List Part} {s t0 : State} (hL : sub [.regs] L = true) (h0t : Changes L s t0) (a1 : Nat) :
    Changes L s (State.tblDone t0 a1) := by
  unfold State.tblDone
  exact State.setN_changes (sub_of hL rfl) h0t _ _

theorem State.putData_changes {L : List Part} {s t0 : State} (hL : sub [.regs] L = true) (h0t : Changes L s t0) (a1 : Nat) (a2 : Nat) (a3 : List Sys2Proof.Word) :
    Changes L s (State.putData t0 a1 a2 a3) := by
  unfold State.putData
  exact Changes.foldl (fun x0 _ h1 => (State.setReg_changes (sub_of hL rfl) h1 _ _)) h0t

end Sys2Proof.Machine
end

