-- ==== Sys2Proof/Laws/ChangesInBellOps.lean ====
section
/-! SUPPORT. What each function of BellOps.lean changes at most: one lemma for each. -/

namespace Sys2Proof.Machine

theorem State.setPending_changes {L : List Part} {s t0 : State} (hL : sub [.regs] L = true) (h0t : Changes L s t0) (a1 : Nat) (a2 : Bool) :
    Changes L s (State.setPending t0 a1 a2) := by
  unfold State.setPending
  exact State.setBit_changes (sub_of hL rfl) h0t _ _ _

theorem State.setActive_changes {L : List Part} {s t0 : State} (hL : sub [.regs] L = true) (h0t : Changes L s t0) (a1 : Nat) (a2 : Bool) :
    Changes L s (State.setActive t0 a1 a2) := by
  unfold State.setActive
  exact State.setBit_changes (sub_of hL rfl) h0t _ _ _

theorem State.setInput_changes {L : List Part} {s t0 : State} (hL : sub [.regs] L = true) (h0t : Changes L s t0) (a1 : Nat) (a2 : Bool) :
    Changes L s (State.setInput t0 a1 a2) := by
  unfold State.setInput
  exact State.setBit_changes (sub_of hL rfl) h0t _ _ _

theorem State.assign_changes {L : List Part} {s t0 : State} (hL : sub [.regs, .bf] L = true) (h0t : Changes L s t0) (a1 : Nat) (a2 : Nat) :
    Changes L s (State.assign t0 a1 a2) := by
  unfold State.assign
  exact State.setF_changes (sub_of hL rfl) (Changes.set_bf (sub_of hL rfl) h0t _) _ _ _ _

theorem State.msix_changes {L : List Part} {s t0 : State} (hL : sub [.pins] L = true) (h0t : Changes L s t0) :
    Changes L s (State.msix t0) := by
  unfold State.msix
  exact Changes.ite (Changes.ite (Changes.set_pins (sub_of hL rfl) h0t _) (Changes.set_pins (sub_of hL rfl) h0t _)) h0t

theorem State.updateLine_changes {L : List Part} {s t0 : State} (hL : sub [.regs, .pins, .rv] L = true) (h0t : Changes L s t0) (a1 : Nat) :
    Changes L s (State.updateLine t0 a1) := by
  unfold State.updateLine
  extract_lets -merge -useContext x0 x1 x2 x3 x4
  try clear_value x0 x1 x4
  have h5 : Changes L s x2 := State.setBit_changes (sub_of hL rfl) h0t _ _ _
  have h6 : Changes L s x3 := State.setN_changes (sub_of hL rfl) h5 _ _
  try clear_value x2 x3
  exact Changes.ite (Changes.ite (State.msix_changes (sub_of hL rfl) h6) (Changes.ite (State.setPair_changes (sub_of hL rfl) h6 _ _) h6)) h6

theorem State.updateLines_changes {L : List Part} {s t0 : State} (hL : sub [.regs, .pins, .rv] L = true) (h0t : Changes L s t0) :
    Changes L s (State.updateLines t0) := by
  unfold State.updateLines
  extract_lets -merge -useContext x0
  have h1 : Changes L s x0 := by
    unfold x0
    refine Changes.foldl (fun x2 _ h3 => ?_) ?_
    · exact State.updateLine_changes (sub_of hL rfl) h3 _
    · exact h0t
  try clear_value x0
  exact Changes.foldl (fun x4 _ h5 => (State.setBit_changes (sub_of hL rfl) h5 _ _ _)) h1

theorem State.unpend_changes {L : List Part} {s t0 : State} (hL : sub [.regs, .bf] L = true) (h0t : Changes L s t0) (a1 : Nat) :
    Changes L s (State.unpend t0 a1) := by
  unfold State.unpend
  exact State.assign_changes (sub_of hL rfl) (State.setPending_changes (sub_of hL rfl) h0t _ _) _ _

theorem State.fireBinding_changes {L : List Part} {s t0 : State} (hL : sub [.regs, .rv] L = true) (h0t : Changes L s t0) (a1 : Nat) :
    Changes L s (State.fireBinding t0 a1) := by
  unfold State.fireBinding
  extract_lets -merge -useContext x0
  try clear_value x0
  exact Changes.ite (State.vecReq_changes (sub_of hL rfl) h0t _) h0t

theorem State.assertEdge_changes {L : List Part} {s t0 : State} (hL : sub [.regs, .rv] L = true) (h0t : Changes L s t0) (a1 : Nat) :
    Changes L s (State.assertEdge t0 a1) := by
  unfold State.assertEdge
  extract_lets -merge -useContext x0
  have h1 : Changes L s x0 := State.fireBinding_changes (sub_of hL rfl) h0t _
  try clear_value x0
  exact Changes.ite (State.inc32_changes (sub_of hL rfl) h1 _) (State.setPending_changes (sub_of hL rfl) h1 _ _)

theorem State.assertLevel_changes {L : List Part} {s t0 : State} (hL : sub [.regs, .rv] L = true) (h0t : Changes L s t0) (a1 : Nat) :
    Changes L s (State.assertLevel t0 a1) := by
  unfold State.assertLevel
  extract_lets -merge -useContext x0
  have h1 : Changes L s x0 := State.fireBinding_changes (sub_of hL rfl) (State.setInput_changes (sub_of hL rfl) h0t _ _) _
  try clear_value x0
  exact Changes.ite h1 (State.setPending_changes (sub_of hL rfl) h1 _ _)

theorem State.orphan_changes {L : List Part} {s t0 : State} (hL : sub [.regs, .bf] L = true) (h0t : Changes L s t0) (a1 : Nat) :
    Changes L s (State.orphan t0 a1) := by
  unfold State.orphan
  refine Changes.ite ?_ ?_
  · exact h0t
  · extract_lets -merge -useContext x0 x1 x2
    try clear_value x0
    have h3 : Changes L s x1 := Changes.set_bf (sub_of hL rfl) h0t _
    have h4 : Changes L s x2 := Changes.ite h3 (State.setBit_changes (sub_of hL rfl) (State.setF_changes (sub_of hL rfl) h3 _ _ _ _) _ _ _)
    try clear_value x1 x2
    exact State.evt_changes (sub_of hL rfl) (State.incSat_changes (sub_of hL rfl) h4 _ _ _ _) _ _

theorem State.unorphan_changes {L : List Part} {s t0 : State} (hL : sub [.bf] L = true) (h0t : Changes L s t0) (a1 : Nat) :
    Changes L s (State.unorphan t0 a1) := by
  unfold State.unorphan
  exact Changes.ite (Changes.set_bf (sub_of hL rfl) h0t _) h0t

theorem State.arbSource_changes {L : List Part} {s t0 : State} (hL : sub [.regs, .bf] L = true) (h0t : Changes L s t0) (a1 : Nat) :
    Changes L s (State.arbSource t0 a1) := by
  unfold State.arbSource
  extract_lets -merge -useContext x0 x1 x2
  try clear_value x1
  have h3 : Changes L s x0 := Changes.ite (State.setPending_changes (sub_of hL rfl) h0t _ _) h0t
  have h4 : Changes L s x2 := Changes.ite (State.assign_changes (sub_of hL rfl) h3 _ _) h3
  try clear_value x0 x2
  refine Changes.ite ?_ ?_
  · refine Changes.ite ?_ ?_
    · exact State.unorphan_changes (sub_of hL rfl) h3 _
    · split
      · rename_i x5 x6 heq7
        extract_lets -merge -useContext x8 x9
        try clear_value x9
        have h10 : Changes L s x8 := State.unorphan_changes (sub_of hL rfl) (State.assign_changes (sub_of hL rfl) h3 _ _) _
        try clear_value x8
        exact Changes.set_bf (sub_of hL rfl) h10 _
      · rename_i x11 heq12
        exact Changes.ite (State.orphan_changes (sub_of hL rfl) h4 _) (State.unorphan_changes (sub_of hL rfl) h4 _)
  · exact Changes.ite (State.unorphan_changes (sub_of hL rfl) (State.assign_changes (sub_of hL rfl) h3 _ _) _) (State.unorphan_changes (sub_of hL rfl) h3 _)

theorem State.releaseActive_changes {L : List Part} {s t0 : State} (hL : sub [.regs, .bf] L = true) (h0t : Changes L s t0) (a1 : Nat) :
    Changes L s (State.releaseActive t0 a1) := by
  unfold State.releaseActive
  refine Changes.foldl (fun x2 _ h3 => ?_) ?_
  · extract_lets -merge -useContext x4 x5 x6 x7
    try clear_value x4 x5
    have h8 : Changes L s x6 := Changes.set_bf (sub_of hL rfl) h3 _
    have h9 : Changes L s x7 := State.setActive_changes (sub_of hL rfl) h8 _ _
    try clear_value x6 x7
    exact Changes.ite (State.setPending_changes (sub_of hL rfl) h9 _ _) (State.setPending_changes (sub_of hL rfl) h9 _ _)
  · exact h0t

end Sys2Proof.Machine
end

