-- ==== Sys2Proof/Laws/ChangesInReeve.lean ====
section
/-! SUPPORT. What each function of Reeve.lean changes at most: one lemma for each. -/

namespace Sys2Proof.Machine

theorem State.answer_changes {L : List Part} {s t0 : State} (hL : sub [.bus] L = true) (h0t : Changes L s t0) (a1 : List Nat) :
    Changes L s (State.answer t0 a1) := by
  unfold State.answer
  exact Changes.set_bus (sub_of hL rfl) h0t _

theorem ownerDrop_changes {L : List Part} {s t0 : State} (hL : sub [.regs] L = true) (h0t : Changes L s t0) :
    Changes L s (ownerDrop t0) := by
  unfold ownerDrop
  exact State.evt_changes (sub_of hL rfl) (State.inc32_changes (sub_of hL rfl) h0t _) _ _

theorem doorbell_changes {L : List Part} {s t0 : State} (hL : sub [.regs, .bus, .rv] L = true) (h0t : Changes L s t0) (a1 : Sys2Proof.Master) (a2 : Nat) (a3 : Nat) (a4 : Nat) :
    Changes L s (doorbell t0 a1 a2 a3 a4) := by
  unfold doorbell
  refine Changes.ite ?_ ?_
  · exact h0t
  · refine Changes.ite ?_ ?_
    · exact ownerDrop_changes (sub_of hL rfl) h0t
    · extract_lets -merge -useContext x0 x1 x2
      try clear_value x0 x1 x2
      refine Changes.ite ?_ ?_
      · refine State.reeveLevels_changes (sub_of hL rfl) ?_
        exact Changes.upd [.bus, .rv] (sub_of hL rfl) h0t rfl rfl rfl rfl (Nat.le_refl _) (fun p hp => by cases p <;> first | rfl | exact ⟨rfl, rfl⟩ | exact absurd (by decide) hp)
      · exact Changes.ite (Changes.set_rv (sub_of hL rfl) h0t _) (State.evt_changes (sub_of hL rfl) (State.inc32_changes (sub_of hL rfl) (Changes.set_bus (sub_of hL rfl) h0t _) _) _ _)

theorem doorbellBad_changes {L : List Part} {s t0 : State} (hL : sub [.regs] L = true) (h0t : Changes L s t0) (a1 : Sys2Proof.Master) :
    Changes L s (doorbellBad t0 a1) := by
  unfold doorbellBad
  exact Changes.ite (State.evt_changes (sub_of hL rfl) h0t _ _) h0t

theorem applyBell_changes {L : List Part} {s t0 : State} (hL : sub [.regs, .rv] L = true) (h0t : Changes L s t0) (a1 : Sys2Proof.Machine.Bell) :
    Changes L s (applyBell t0 a1) := by
  unfold applyBell
  extract_lets -merge -useContext x0
  try clear_value x0
  split
  · rename_i x1 heq2
    exact State.makeReady_changes (sub_of hL rfl) h0t _
  · rename_i x3 heq4
    exact State.cancelThread_changes (sub_of hL rfl) h0t _
  · rename_i x5 heq6
    exact State.setThread_changes (sub_of hL rfl) h0t _ _
  · rename_i x7 heq8
    exact State.setThread_changes (sub_of hL rfl) h0t _ _
  · rename_i x9 heq10 heq11 heq12 heq13
    exact State.setThread_changes (sub_of hL rfl) h0t _ _

theorem popBell_changes {L : List Part} {s t0 : State} (hL : sub [.rv] L = true) (h0t : Changes L s t0) :
    Changes L s (popBell t0) := by
  unfold popBell
  split
  · rename_i x0 heq1
    exact Changes.set_rv (sub_of hL rfl) h0t _
  · rename_i x2 x3 x4 x5 heq6
    exact Changes.set_rv (sub_of hL rfl) h0t _

theorem listEngine_changes {L : List Part} {s t0 : State} (hL : sub [.regs, .rv] L = true) (h0t : Changes L s t0) :
    Changes L s (listEngine t0) := by
  unfold listEngine
  split
  · rename_i x0 x1 x2 heq3
    extract_lets -merge -useContext x4 x5
    try clear_value x4
    have h6 : Changes L s x5 := Changes.set_rv (sub_of hL rfl) h0t _
    try clear_value x5
    split
    · rename_i x7 x8 x9 heq10
      exact Changes.ite (State.cancelThread_changes (sub_of hL rfl) (State.absorb_changes (sub_of hL rfl) (popBell_changes (sub_of hL rfl) h6) _) _) (Changes.ite (State.absorb_changes (sub_of hL rfl) (State.makeReady_changes (sub_of hL rfl) (popBell_changes (sub_of hL rfl) h6) _) _) (State.makeReady_changes (sub_of hL rfl) h6 _))
    · rename_i x11 heq12
      exact State.makeReady_changes (sub_of hL rfl) h6 _
  · rename_i x13 heq14
    split
    · rename_i x15 x16 x17 heq18
      exact applyBell_changes (sub_of hL rfl) (popBell_changes (sub_of hL rfl) h0t) _
    · rename_i x19 heq20
      exact h0t

theorem lowerDispatch_changes {L : List Part} {s t0 : State} (hL : sub [.regs, .rv] L = true) (h0t : Changes L s t0) (a1 : Nat) :
    Changes L s (lowerDispatch t0 a1) := by
  unfold lowerDispatch
  exact State.setPair_changes (sub_of hL rfl) h0t _ _

theorem settlePair_changes {L : List Part} {s t0 : State} (hL : sub [.regs, .chans] L = true) (h0t : Changes L s t0) (a1 : Nat) (a2 : Option Nat) :
    Changes L s (settlePair t0 a1 a2) := by
  unfold settlePair
  extract_lets -merge -useContext x0
  have h1 : Changes L s x0 := by
    unfold x0
    split
    · rename_i x2 x3
      exact State.settleThread_changes (sub_of hL rfl) h0t _
    · rename_i x4
      exact h0t
  try clear_value x0
  exact State.countStranded_changes (sub_of hL rfl) h1 _

theorem nextRead_changes {L : List Part} {s t0 : State} (hL : sub [.regs, .bus, .chans, .rv] L = true) (h0t : Changes L s t0) (a1 : Nat) :
    Changes L s (nextRead t0 a1) := by
  unfold nextRead
  extract_lets -merge -useContext x0 x1 x2 x3 x4 x5 x6 x7
  try clear_value x0 x2 x3 x5 x6
  have h8 : Changes L s x1 := lowerDispatch_changes (sub_of hL rfl) (State.unrun_changes (sub_of hL rfl) h0t _) _
  have h9 : Changes L s x4 := State.setPair_changes (sub_of hL rfl) h8 _ _
  have h10 : Changes L s x7 := by
    unfold x7
    split
    · rename_i x11 heq12
      exact State.answer_changes (sub_of hL rfl) h9 _
    · rename_i x13 x14 x15 heq16
      extract_lets -merge -useContext x17 x18 x19 x20
      try clear_value x17
      have h21 : Changes L s x18 := State.setPair_changes (sub_of hL rfl) (State.setThread_changes (sub_of hL rfl) h9 _ _) _ _
      have h22 : Changes L s x19 := State.inc32_changes (sub_of hL rfl) h21 _
      have h23 : Changes L s x20 := Changes.ite h21 (Changes.ite (State.inc32_changes (sub_of hL rfl) h22 _) h22)
      try clear_value x18 x19 x20
      exact State.answer_changes (sub_of hL rfl) h23 _
  try clear_value x1 x4 x7
  exact State.offer_changes (sub_of hL rfl) (settlePair_changes (sub_of hL rfl) h10 _ _)

theorem doneWrite_changes {L : List Part} {s t0 : State} {a2 : Sys2Proof.Machine.State → Nat → Sys2Proof.Machine.Thread → Sys2Proof.Machine.State} (hL : sub [.rv, .regs, .chans] L = true) (h0t : Changes L s t0) (a2h : ∀ y0 y1 y2, Changes L s y0 → Changes L s (a2 y0 y1 y2)) (a1 : Nat) :
    Changes L s (doneWrite t0 a1 a2) := by
  unfold doneWrite
  extract_lets -merge -useContext x0
  try clear_value x0
  split
  · exact h0t
  · extract_lets -merge -useContext x1 x2 x3
    try clear_value x1
    have h4 : Changes L s x2 := State.setPair_changes (sub_of hL rfl) h0t _ _
    have h5 : Changes L s x3 := Changes.ite (State.setThread_changes (sub_of hL rfl) h4 _ _) (a2h _ _ _ h4)
    try clear_value x2 x3
    exact State.offer_changes (sub_of hL rfl) (settlePair_changes (sub_of hL rfl) h5 _ _)

theorem doneWait_changes {L : List Part} {s t0 : State} (hL : sub [.rv, .regs, .chans] L = true) (h0t : Changes L s t0) (a1 : Nat) :
    Changes L s (doneWait t0 a1) := by
  unfold doneWait
  refine doneWrite_changes (sub_of hL rfl) ?_ ?_ _
  · exact h0t
  · intro y0 y2 y3 h1
    exact Changes.ite (State.newReadiness_changes (sub_of hL rfl) h1 _ _) (State.setThread_changes (sub_of hL rfl) h1 _ _)

theorem doneYield_changes {L : List Part} {s t0 : State} (hL : sub [.rv, .regs, .chans] L = true) (h0t : Changes L s t0) (a1 : Nat) :
    Changes L s (doneYield t0 a1) := by
  unfold doneYield
  refine doneWrite_changes (sub_of hL rfl) ?_ ?_ _
  · exact h0t
  · intro y0 y2 y3 h1
    extract_lets -merge -useContext x4 x5
    have h6 : Changes L s x4 := State.setThread_changes (sub_of hL rfl) h1 _ _
    try clear_value x5 x4
    exact Changes.set_rv (sub_of hL rfl) h6 _

theorem threadLate_changes {L : List Part} {s t0 : State} (hL : sub [.regs, .rv, .faults] L = true) (h0t : Changes L s t0) (a1 : Nat) :
    Changes L s (threadLate t0 a1) := by
  unfold threadLate
  extract_lets -merge -useContext x0
  try clear_value x0
  exact Changes.ite (State.raise_changes (sub_of hL rfl) (State.evt_changes (sub_of hL rfl) (State.inc32_changes (sub_of hL rfl) (State.setThread_changes (sub_of hL rfl) h0t _ _) _) _ _) _ _ _ _) h0t

theorem writeThread_changes {L : List Part} {s t0 : State} (hL : sub [.rv] L = true) (h0t : Changes L s t0) (a1 : Nat) (a2 : List Sys2Proof.Word) :
    Changes L s (writeThread t0 a1 a2) := by
  unfold writeThread
  extract_lets -merge -useContext x0 x1 x2 x3 x4 x5 x6
  try clear_value x0 x1 x2 x3 x4 x5 x6
  exact State.setThread_changes (sub_of hL rfl) h0t _ _

theorem reeveTableRead_changes {L : List Part} {s t0 : State} (hL : sub [.regs] L = true) (h0t : Changes L s t0) :
    Changes L s (reeveTableRead t0) := by
  unfold reeveTableRead
  split
  rename_i x0 x1 x2 x3 heq4
  refine Changes.ite ?_ ?_
  · exact h0t
  · refine Changes.ite ?_ ?_
    · exact State.tblRefuse_changes (sub_of hL rfl) h0t _
    · extract_lets -merge -useContext x5
      try clear_value x5
      exact State.tblDone_changes (sub_of hL rfl) (State.putData_changes (sub_of hL rfl) h0t _ _ _) _

theorem reeveTableWrite_changes {L : List Part} {s t0 : State} (hL : sub [.regs, .rv] L = true) (h0t : Changes L s t0) (a1 : Sys2Proof.Master) :
    Changes L s (reeveTableWrite t0 a1) := by
  unfold reeveTableWrite
  split
  rename_i x0 x1 x2 x3 heq4
  extract_lets -merge -useContext x5 x6 x7 x8
  try clear_value x5 x6 x7 x8
  exact Changes.ite h0t (Changes.ite (State.tblRefuse_changes (sub_of hL rfl) h0t _) (Changes.ite (State.tblDone_changes (sub_of hL rfl) (Changes.ite (Changes.set_rv (sub_of hL rfl) h0t _) (ownerDrop_changes (sub_of hL rfl) h0t)) _) (Changes.ite (State.tblDone_changes (sub_of hL rfl) (State.offer_changes (sub_of hL rfl) (writeThread_changes (sub_of hL rfl) h0t _ _)) _) (State.tblDone_changes (sub_of hL rfl) (ownerDrop_changes (sub_of hL rfl) h0t) _))))

theorem drain_changes {L : List Part} {s t0 : State} (hL : sub [.regs, .pins, .rv] L = true) (h0t : Changes L s t0) (a1 : Nat) :
    Changes L s (drain t0 a1) := by
  unfold drain
  refine Changes.ite ?_ ?_
  · exact h0t
  · refine Changes.ite ?_ ?_
    · exact State.refuse_changes (sub_of hL rfl) h0t _ _ _ _
    · extract_lets -merge -useContext x0 x1
      try clear_value x0
      have h2 : Changes L s x1 := State.setPair_changes (sub_of hL rfl) (State.setBit_changes (sub_of hL rfl) h0t _ _ _) _ _
      try clear_value x1
      exact State.updateLines_changes (sub_of hL rfl) (State.countStranded_changes (sub_of hL rfl) h2 _)

theorem drained_changes {L : List Part} {s t0 : State} (hL : sub [.regs, .rv] L = true) (h0t : Changes L s t0) (a1 : Nat) :
    Changes L s (drained t0 a1) := by
  unfold drained
  extract_lets -merge -useContext x0
  try clear_value x0
  exact Changes.ite (State.evt_changes (sub_of hL rfl) (State.countStranded_changes (sub_of hL rfl) (State.setPair_changes (sub_of hL rfl) h0t _ _) _) _ _) h0t

theorem undrain_changes {L : List Part} {s t0 : State} (hL : sub [.regs, .pins, .rv] L = true) (h0t : Changes L s t0) (a1 : Nat) :
    Changes L s (undrain t0 a1) := by
  unfold undrain
  refine Changes.ite ?_ ?_
  · exact h0t
  · extract_lets -merge -useContext x0 x1
    try clear_value x0
    have h2 : Changes L s x1 := State.setBit_changes (sub_of hL rfl) h0t _ _ _
    try clear_value x1
    exact Changes.ite (State.setPair_changes (sub_of hL rfl) h2 _ _) (State.updateLines_changes (sub_of hL rfl) (State.offer_changes (sub_of hL rfl) (State.countStranded_changes (sub_of hL rfl) (State.setPair_changes (sub_of hL rfl) h2 _ _) _)))

theorem load_changes {L : List Part} {s t0 : State} (hL : sub [.regs, .pins, .rv, .bf] L = true) (h0t : Changes L s t0) (a1 : Nat) :
    Changes L s (load t0 a1) := by
  unfold load
  exact Changes.ite (State.updateLines_changes (sub_of hL rfl) (State.releaseActive_changes (sub_of hL rfl) (State.setPair_changes (sub_of hL rfl) h0t _ _) _)) h0t

theorem endLoad_changes {L : List Part} {s t0 : State} (hL : sub [.regs, .pins, .rv] L = true) (h0t : Changes L s t0) (a1 : Nat) :
    Changes L s (endLoad t0 a1) := by
  unfold endLoad
  extract_lets -merge -useContext x0
  try clear_value x0
  exact Changes.ite (State.updateLines_changes (sub_of hL rfl) (State.offer_changes (sub_of hL rfl) (State.countStranded_changes (sub_of hL rfl) (State.setPair_changes (sub_of hL rfl) h0t _ _) _))) (State.updateLines_changes (sub_of hL rfl) (State.setPair_changes (sub_of hL rfl) h0t _ _))

theorem loadComplete_changes {L : List Part} {s t0 : State} (hL : sub [.regs, .pins, .rv] L = true) (h0t : Changes L s t0) (a1 : Nat) :
    Changes L s (loadComplete t0 a1) := by
  unfold loadComplete
  refine Changes.ite ?_ ?_
  · extract_lets -merge -useContext x0
    have h1 : Changes L s x0 := endLoad_changes (sub_of hL rfl) h0t _
    try clear_value x0
    exact Changes.ite (State.evt_changes (sub_of hL rfl) h1 _ _) (State.refuse_changes (sub_of hL rfl) (State.evt_changes (sub_of hL rfl) h1 _ _) _ _ _ _)
  · exact h0t

theorem haltThread_changes {L : List Part} {s t0 : State} (hL : sub [.regs, .rv] L = true) (h0t : Changes L s t0) (a1 : Nat) :
    Changes L s (haltThread t0 a1) := by
  unfold haltThread
  extract_lets -merge -useContext x0
  try clear_value x0
  split
  · rename_i x1 heq2
    exact h0t
  · rename_i x3 x4 heq5
    extract_lets -merge -useContext x6 x7 x8
    try clear_value x6 x8
    have h9 : Changes L s x7 := State.setThread_changes (sub_of hL rfl) h0t _ _
    try clear_value x7
    exact State.setPair_changes (sub_of hL rfl) (Changes.set_rv (sub_of hL rfl) h9 _) _ _

theorem ccLockstep_changes {L : List Part} {s t0 : State} (hL : sub [.regs, .pins, .rv, .bf, .faults] L = true) (h0t : Changes L s t0) (a1 : Nat) :
    Changes L s (ccLockstep t0 a1) := by
  unfold ccLockstep
  refine Changes.ite ?_ ?_
  · exact h0t
  · extract_lets -merge -useContext x0 x1 x2 x3 x4 x5 x6
    try clear_value x0 x1 x3 x4
    have h7 : Changes L s x2 := haltThread_changes (sub_of hL rfl) h0t _
    have h8 : Changes L s x5 := State.setPair_changes (sub_of hL rfl) h7 _ _
    have h9 : Changes L s x6 := State.raise_changes (sub_of hL rfl) (State.evt_changes (sub_of hL rfl) (State.inc32_changes (sub_of hL rfl) h8 _) _ _) _ _ _ _
    try clear_value x2 x5 x6
    exact State.updateLines_changes (sub_of hL rfl) (State.offer_changes (sub_of hL rfl) (State.countStranded_changes (sub_of hL rfl) (State.releaseActive_changes (sub_of hL rfl) h9 _) _))

theorem pairRestart_changes {L : List Part} {s t0 : State} (hL : sub [.regs, .pins, .rv, .bf, .faults] L = true) (h0t : Changes L s t0) (a1 : Nat) :
    Changes L s (pairRestart t0 a1) := by
  unfold pairRestart
  extract_lets -merge -useContext x0
  try clear_value x0
  exact Changes.ite (Changes.ite (State.updateLines_changes (sub_of hL rfl) (State.raise_changes (sub_of hL rfl) (State.releaseActive_changes (sub_of hL rfl) (State.setPair_changes (sub_of hL rfl) h0t _ _) _) _ _ _ _)) (State.updateLines_changes (sub_of hL rfl) (State.offer_changes (sub_of hL rfl) (State.setPair_changes (sub_of hL rfl) h0t _ _)))) h0t

theorem wfi_changes {L : List Part} {s t0 : State} (hL : sub [.regs, .rv] L = true) (h0t : Changes L s t0) (a1 : Nat) :
    Changes L s (wfi t0 a1) := by
  unfold wfi
  extract_lets -merge -useContext x0
  try clear_value x0
  exact Changes.ite h0t (State.setPair_changes (sub_of hL rfl) h0t _ _)

end Sys2Proof.Machine
end

