-- ==== Sys2Proof/Laws/ChangesInBelfry.lean ====
section
/-! SUPPORT. What each function of Belfry.lean changes at most: one lemma for each. -/

namespace Sys2Proof.Machine

theorem sourceAssertion_changes {L : List Part} {s t0 : State} (hL : sub [.regs, .pins, .rv] L = true) (h0t : Changes L s t0) (a1 : Nat) :
    Changes L s (sourceAssertion t0 a1) := by
  unfold sourceAssertion
  refine Changes.ite ?_ ?_
  · exact h0t
  · refine Changes.ite ?_ ?_
    · exact State.updateLines_changes (sub_of hL rfl) (Changes.ite (Changes.ite h0t (State.assertEdge_changes (sub_of hL rfl) (State.setInput_changes (sub_of hL rfl) h0t _ _) _)) (State.assertEdge_changes (sub_of hL rfl) h0t _))
    · refine Changes.ite ?_ ?_
      · exact h0t
      · split
        · rename_i x0 x1 heq2
          exact Changes.ite (State.updateLines_changes (sub_of hL rfl) (State.assertLevel_changes (sub_of hL rfl) h0t _)) h0t
        · rename_i x3 heq4
          exact State.updateLines_changes (sub_of hL rfl) (State.assertLevel_changes (sub_of hL rfl) h0t _)

theorem sourceDeassert_changes {L : List Part} {s t0 : State} (hL : sub [.regs, .pins, .rv, .bf] L = true) (h0t : Changes L s t0) (a1 : Nat) :
    Changes L s (sourceDeassert t0 a1) := by
  unfold sourceDeassert
  refine Changes.ite ?_ ?_
  · exact h0t
  · split
    · rename_i x0 x1 heq2
      exact Changes.ite h0t (State.updateLines_changes (sub_of hL rfl) (State.unpend_changes (sub_of hL rfl) (State.setInput_changes (sub_of hL rfl) h0t _ _) _))
    · rename_i x3 heq4
      extract_lets -merge -useContext x5
      have h6 : Changes L s x5 := State.setInput_changes (sub_of hL rfl) h0t _ _
      try clear_value x5
      exact Changes.ite h6 (State.updateLines_changes (sub_of hL rfl) (State.unpend_changes (sub_of hL rfl) h6 _))

theorem arbitrate_changes {L : List Part} {s t0 : State} (hL : sub [.regs, .pins, .rv, .bf] L = true) (h0t : Changes L s t0) (a1 : Nat) :
    Changes L s (arbitrate t0 a1) := by
  unfold arbitrate
  exact State.updateLines_changes (sub_of hL rfl) (Changes.foldl (fun x0 _ h1 => (State.arbSource_changes (sub_of hL rfl) h1 _)) h0t)

theorem claim_changes {L : List Part} {s t0 : State} (hL : sub [.regs, .bus, .pins, .rv, .bf] L = true) (h0t : Changes L s t0) (a1 : Sys2Proof.Master) (a2 : Option (Fin 64)) (a3 : Nat) :
    Changes L s (claim t0 a1 a2 a3) := by
  unfold claim
  refine Changes.ite ?_ ?_
  · exact State.answer_changes (sub_of hL rfl) h0t _
  · split
    · rename_i x0 heq1
      exact State.answer_changes (sub_of hL rfl) h0t _
    · rename_i x2 x3 x4 heq5
      extract_lets -merge -useContext x6 x7 x8
      try clear_value x7
      have h9 : Changes L s x6 := State.setActive_changes (sub_of hL rfl) (State.unpend_changes (sub_of hL rfl) h0t _) _ _
      have h10 : Changes L s x8 := Changes.set_bf (sub_of hL rfl) h9 _
      try clear_value x6 x8
      exact State.answer_changes (sub_of hL rfl) (State.updateLines_changes (sub_of hL rfl) h10) _

theorem completeSource_changes {L : List Part} {s t0 : State} (hL : sub [.regs, .bf] L = true) (h0t : Changes L s t0) (a1 : Nat) :
    Changes L s (completeSource t0 a1) := by
  unfold completeSource
  extract_lets -merge -useContext x0 x1 x2
  try clear_value x0
  have h3 : Changes L s x1 := Changes.set_bf (sub_of hL rfl) h0t _
  have h4 : Changes L s x2 := State.setActive_changes (sub_of hL rfl) h3 _ _
  try clear_value x1 x2
  exact Changes.ite h4 (State.setPending_changes (sub_of hL rfl) h4 _ _)

theorem hostAgain_changes {L : List Part} {s t0 : State} (hL : sub [.pins] L = true) (h0t : Changes L s t0) (a1 : Nat) :
    Changes L s (hostAgain t0 a1) := by
  unfold hostAgain
  exact Changes.ite (State.msix_changes (sub_of hL rfl) h0t) h0t

theorem complete_changes {L : List Part} {s t0 : State} (hL : sub [.regs, .pins, .rv, .bf] L = true) (h0t : Changes L s t0) (a1 : Sys2Proof.Master) (a2 : Option (Fin 64)) (a3 : Nat) (a4 : Nat) :
    Changes L s (complete t0 a1 a2 a3 a4) := by
  unfold complete
  exact Changes.ite h0t (Changes.ite (hostAgain_changes (sub_of hL rfl) (State.updateLines_changes (sub_of hL rfl) (completeSource_changes (sub_of hL rfl) h0t _)) _) (hostAgain_changes (sub_of hL rfl) (State.updateLines_changes (sub_of hL rfl) (State.evt_changes (sub_of hL rfl) (State.inc32_changes (sub_of hL rfl) h0t _) _ _)) _))

theorem pendingBitWrite_changes {L : List Part} {s t0 : State} (hL : sub [.regs, .rv, .bf] L = true) (h0t : Changes L s t0) (a1 : Nat) (a2 : Bool) :
    Changes L s (pendingBitWrite t0 a1 a2) := by
  unfold pendingBitWrite
  refine Changes.ite ?_ ?_
  · exact h0t
  · refine Changes.ite ?_ ?_
    · exact Changes.ite (Changes.ite h0t (State.setPending_changes (sub_of hL rfl) (State.fireBinding_changes (sub_of hL rfl) h0t _) _ _)) (State.unpend_changes (sub_of hL rfl) h0t _)
    · refine Changes.ite ?_ ?_
      · exact Changes.ite (State.setPending_changes (sub_of hL rfl) h0t _ _) (State.unpend_changes (sub_of hL rfl) h0t _)
      · extract_lets -merge -useContext x0
        have h1 : Changes L s x0 := Changes.ite h0t (State.unpend_changes (sub_of hL rfl) h0t _)
        try clear_value x0
        exact State.setPending_changes (sub_of hL rfl) h1 _ _

theorem pendingWrite_changes {L : List Part} {s t0 : State} (hL : sub [.regs, .pins, .rv, .bf] L = true) (h0t : Changes L s t0) (a1 : Nat) (a2 : Bool) (a3 : Sys2Proof.Word) :
    Changes L s (pendingWrite t0 a1 a2 a3) := by
  unfold pendingWrite
  refine Changes.ite ?_ ?_
  · exact h0t
  · extract_lets -merge -useContext x0
    try clear_value x0
    exact State.updateLines_changes (sub_of hL rfl) (Changes.foldl (fun x1 _ h2 => (pendingBitWrite_changes (sub_of hL rfl) h2 _ _)) h0t)

theorem orphanClr_changes {L : List Part} {s t0 : State} (hL : sub [.regs] L = true) (h0t : Changes L s t0) :
    Changes L s (orphanClr t0) := by
  unfold orphanClr
  exact Changes.ite (State.setReg_changes (sub_of hL rfl) h0t _ _) h0t

theorem msixEnable_changes {L : List Part} {s t0 : State} (hL : sub [.regs, .pins, .rv] L = true) (h0t : Changes L s t0) (a1 : Bool) (a2 : Bool) :
    Changes L s (msixEnable t0 a1 a2) := by
  unfold msixEnable
  extract_lets -merge -useContext x0 x1 x2 x3
  try clear_value x0 x2
  have h4 : Changes L s x1 := Changes.set_pins (sub_of hL rfl) h0t _
  have h5 : Changes L s x3 := Changes.ite (State.msix_changes (sub_of hL rfl) (Changes.set_pins (sub_of hL rfl) h4 _)) h4
  try clear_value x1 x3
  exact State.updateLines_changes (sub_of hL rfl) h5

end Sys2Proof.Machine
end

