-- ==== Sys2Proof/Laws/ChangesInAllot.lean ====
section
/-! SUPPORT. What each function of Allot.lean changes at most: one lemma for each. -/

namespace Sys2Proof.Machine

theorem State.setSlot_changes {L : List Part} {s t0 : State} (hL : sub [.eng] L = true) (h0t : Changes L s t0) (a1 : Nat) (a2 : Sys2Proof.Machine.Slot) :
    Changes L s (State.setSlot t0 a1 a2) := by
  unfold State.setSlot
  exact Changes.set_eng (sub_of hL rfl) h0t _

theorem State.modChan_changes {L : List Part} {s t0 : State} (hL : sub [.chans] L = true) (h0t : Changes L s t0) (a1 : Nat) (a2 : Sys2Proof.Machine.Chan → Sys2Proof.Machine.Chan) :
    Changes L s (State.modChan t0 a1 a2) := by
  unfold State.modChan
  exact State.setChan_changes (sub_of hL rfl) h0t _ _

theorem State.setAllotState_changes {L : List Part} {s t0 : State} (hL : sub [.regs] L = true) (h0t : Changes L s t0) (a1 : Nat) (a2 : Nat) :
    Changes L s (State.setAllotState t0 a1 a2) := by
  unfold State.setAllotState
  exact State.setF_changes (sub_of hL rfl) h0t _ _ _ _

theorem State.setPlot_changes {L : List Part} {s t0 : State} (hL : sub [.regs] L = true) (h0t : Changes L s t0) (a1 : Nat) (a2 : Nat) (a3 : Nat) (a4 : Nat) (a5 : Nat) :
    Changes L s (State.setPlot t0 a1 a2 a3 a4 a5) := by
  unfold State.setPlot
  exact Changes.ite h0t (State.setReg_changes (sub_of hL rfl) h0t _ _)

theorem State.writePlots_changes {L : List Part} {s t0 : State} (hL : sub [.regs] L = true) (h0t : Changes L s t0) (a1 : Nat) (a2 : Sys2Proof.Machine.Place) :
    Changes L s (State.writePlots t0 a1 a2) := by
  unfold State.writePlots
  extract_lets -merge -useContext x0
  try clear_value x0
  refine Changes.foldl (fun x3 _ h4 => ?_) ?_
  · split
    · rename_i x5 x6 x7 x8 heq9
      exact State.setPlot_changes (sub_of hL rfl) h4 _ _ _ _ _
    · rename_i x10 heq11
      exact State.setPlot_changes (sub_of hL rfl) h4 _ _ _ _ _
  · exact h0t

theorem State.mpCounts_changes {L : List Part} {s t0 : State} (hL : sub [.regs] L = true) (h0t : Changes L s t0) :
    Changes L s (State.mpCounts t0) := by
  unfold State.mpCounts
  extract_lets -merge -useContext x0 x1
  try clear_value x0 x1
  exact State.setN_changes (sub_of hL rfl) (State.setN_changes (sub_of hL rfl) (State.setN_changes (sub_of hL rfl) h0t _ _) _ _) _ _

theorem State.mpEngWord_changes {L : List Part} {s t0 : State} (hL : sub [.regs] L = true) (h0t : Changes L s t0) (a1 : Nat) :
    Changes L s (State.mpEngWord t0 a1) := by
  unfold State.mpEngWord
  extract_lets -merge -useContext x0 x1
  try clear_value x0 x1
  exact State.setN_changes (sub_of hL rfl) h0t _ _

theorem State.showRecon_changes {L : List Part} {s t0 : State} (hL : sub [.regs] L = true) (h0t : Changes L s t0) (a1 : Nat) (a2 : Option Nat) :
    Changes L s (State.showRecon t0 a1 a2) := by
  unfold State.showRecon
  extract_lets -merge -useContext x0
  try clear_value x0
  exact Changes.foldl (fun x1 _ h2 => (State.setReg_changes (sub_of hL rfl) h2 _ _)) h0t

theorem State.syncEngine_changes {L : List Part} {s t0 : State} (hL : sub [.regs] L = true) (h0t : Changes L s t0) (a1 : Nat) :
    Changes L s (State.syncEngine t0 a1) := by
  unfold State.syncEngine
  refine Changes.ite ?_ ?_
  · exact h0t
  · split
    rename_i x0 x1 x2 heq3
    extract_lets -merge -useContext x4 x5 x6 x7 x8 x9 x10 x11
    try clear_value x4 x5 x6
    have h12 : Changes L s x7 := State.setReg_changes (sub_of hL rfl) h0t _ _
    have h13 : Changes L s x8 := State.setN_changes (sub_of hL rfl) h12 _ _
    have h14 : Changes L s x9 := Changes.foldl (fun x15 _ h16 => (State.setN_changes (sub_of hL rfl) h16 _ _)) h13
    have h17 : Changes L s x10 := State.setN_changes (sub_of hL rfl) h14 _ _
    have h18 : Changes L s x11 := State.showRecon_changes (sub_of hL rfl) h17 _ _
    try clear_value x7 x8 x9 x10 x11
    exact Changes.ite (State.evt_changes (sub_of hL rfl) h18 _ _) h18

theorem State.syncSpares_changes {L : List Part} {s t0 : State} (hL : sub [.regs] L = true) (h0t : Changes L s t0) :
    Changes L s (State.syncSpares t0) := by
  unfold State.syncSpares
  extract_lets -merge -useContext x0 x1 x2 x3
  try clear_value x0 x1 x2
  have h4 : Changes L s x3 := State.setN_changes (sub_of hL rfl) h0t _ _
  try clear_value x3
  exact State.setN_changes (sub_of hL rfl) h4 _ _

theorem State.syncSlots_changes {L : List Part} {s t0 : State} (hL : sub [.regs] L = true) (h0t : Changes L s t0) (a1 : List Nat) :
    Changes L s (State.syncSlots t0 a1) := by
  unfold State.syncSlots
  refine State.syncSpares_changes (sub_of hL rfl) ?_
  refine Changes.foldl (fun x4 _ h5 => ?_) ?_
  · extract_lets -merge -useContext x6
    have h7 : Changes L s x6 := State.mpEngWord_changes (sub_of hL rfl) h5 _
    try clear_value x6
    split
    · rename_i x8 x9 heq10
      exact State.syncEngine_changes (sub_of hL rfl) h7 _
    · rename_i x11 heq12
      exact h7
  · exact h0t

theorem State.setRun_changes {L : List Part} {s t0 : State} (hL : sub [.regs] L = true) (h0t : Changes L s t0) (a1 : Nat) (a2 : Nat) (a3 : Nat) :
    Changes L s (State.setRun t0 a1 a2 a3) := by
  unfold State.setRun
  exact State.setN_changes (sub_of hL rfl) h0t _ _

theorem State.renumber_changes {L : List Part} {s t0 : State} (hL : sub [.regs] L = true) (h0t : Changes L s t0) :
    Changes L s (State.renumber t0) := by
  unfold State.renumber
  exact Changes.foldl_fst (fun x0 _ h1 => (State.setRun_changes (sub_of hL rfl) h1 _ _ _)) h0t

theorem State.giveRun_changes {L : List Part} {s t0 : State} (hL : sub [.regs] L = true) (h0t : Changes L s t0) (a1 : Nat) (a2 : Nat) :
    Changes L s (State.giveRun t0 a1 a2) := by
  unfold State.giveRun
  extract_lets -merge -useContext x0
  try clear_value x0
  split
  · rename_i x1 x2 heq3
    exact State.setRun_changes (sub_of hL rfl) h0t _ _ _
  · rename_i x4 heq5
    exact State.renumber_changes (sub_of hL rfl) h0t

theorem State.openGangs_changes {L : List Part} {s t0 : State} (hL : sub [.regs] L = true) (h0t : Changes L s t0) (a1 : Nat) (a2 : Sys2Proof.Machine.Place) :
    Changes L s (State.openGangs t0 a1 a2) := by
  unfold State.openGangs
  extract_lets -merge -useContext x0
  have h1 : Changes L s x0 := State.giveRun_changes (sub_of hL rfl) (State.setBit_changes (sub_of hL rfl) h0t _ _ _) _ _
  try clear_value x0
  exact Changes.foldl (fun x2 _ h3 => (State.giveRun_changes (sub_of hL rfl) (State.setN_changes (sub_of hL rfl) (State.setBit_changes (sub_of hL rfl) h3 _ _ _) _ _) _ _)) h1

theorem State.closeGangs_changes {L : List Part} {s t0 : State} (hL : sub [.regs] L = true) (h0t : Changes L s t0) (a1 : Nat) (a2 : Sys2Proof.Machine.Place) :
    Changes L s (State.closeGangs t0 a1 a2) := by
  unfold State.closeGangs
  exact Changes.foldl (fun x0 _ h1 => (State.setReg_changes (sub_of hL rfl) (State.setReg_changes (sub_of hL rfl) (State.setBit_changes (sub_of hL rfl) h1 _ _ _) _ _) _ _)) h0t

theorem State.syncDev_changes {L : List Part} {s t0 : State} (hL : sub [.regs] L = true) (h0t : Changes L s t0) :
    Changes L s (State.syncDev t0) := by
  unfold State.syncDev
  exact State.setN_changes (sub_of hL rfl) (State.setN_changes (sub_of hL rfl) h0t _ _) _ _

theorem State.chanThread_changes {L : List Part} {s t0 : State} (hL : sub [.rv] L = true) (h0t : Changes L s t0) (a1 : Nat) (a2 : Nat) (a3 : Nat) (a4 : Nat) (a5 : Nat) :
    Changes L s (State.chanThread t0 a1 a2 a3 a4 a5) := by
  unfold State.chanThread
  extract_lets -merge -useContext x0 x1
  try clear_value x0 x1
  exact State.setThread_changes (sub_of hL rfl) h0t _ _

theorem State.chanThreads_changes {L : List Part} {s t0 : State} (hL : sub [.rv] L = true) (h0t : Changes L s t0) (a1 : Nat) (a2 : Nat) (a3 : Nat) :
    Changes L s (State.chanThreads t0 a1 a2 a3) := by
  unfold State.chanThreads
  extract_lets -merge -useContext x0
  have h1 : Changes L s x0 := State.chanThread_changes (sub_of hL rfl) (State.chanThread_changes (sub_of hL rfl) h0t _ _ _ _ _) _ _ _ _ _
  try clear_value x0
  exact Changes.foldl (fun x2 _ h3 => (State.chanThread_changes (sub_of hL rfl) h3 _ _ _ _ _)) h1

theorem State.chanBindings_changes {L : List Part} {s t0 : State} (hL : sub [.rv] L = true) (h0t : Changes L s t0) (a1 : Nat) (a2 : Bool) :
    Changes L s (State.chanBindings t0 a1 a2) := by
  unfold State.chanBindings
  refine Changes.foldl (fun x2 _ h3 => ?_) ?_
  · extract_lets -merge -useContext x4 x5
    try clear_value x4 x5
    exact Changes.set_rv (sub_of hL rfl) h3 _
  · exact h0t

theorem State.freeThreads_changes {L : List Part} {s t0 : State} (hL : sub [.rv] L = true) (h0t : Changes L s t0) (a1 : Nat) :
    Changes L s (State.freeThreads t0 a1) := by
  unfold State.freeThreads
  refine Changes.foldl (fun x2 _ h3 => ?_) ?_
  · extract_lets -merge -useContext x4 x5
    try clear_value x4 x5
    exact State.setThread_changes (sub_of hL rfl) h3 _ _
  · exact h0t

theorem State.respacePair_changes {L : List Part} {s t0 : State} (hL : sub [.regs, .chans, .rv] L = true) (h0t : Changes L s t0) (a1 : Nat) :
    Changes L s (State.respacePair t0 a1) := by
  unfold State.respacePair
  extract_lets -merge -useContext x0 x1
  try clear_value x0 x1
  refine Changes.foldl (fun x4 _ h5 => ?_) ?_
  · split
    rename_i x6 x7 x8 heq9
    extract_lets -merge -useContext x10 x11 x12 x13 x14
    try clear_value x10 x11 x12
    have h15 : Changes L s x13 := State.setN_changes (sub_of hL rfl) h5 _ _
    have h16 : Changes L s x14 := State.chanThread_changes (sub_of hL rfl) h15 _ _ _ _ _
    try clear_value x13 x14
    exact Changes.ite (State.modChan_changes (sub_of hL rfl) h16 _ _) (State.setN_changes (sub_of hL rfl) h16 _ _)
  · exact h0t

theorem State.rehome_changes {L : List Part} {s t0 : State} (hL : sub [.regs, .chans, .rv] L = true) (h0t : Changes L s t0) (a1 : Nat) :
    Changes L s (State.rehome t0 a1) := by
  unfold State.rehome
  split
  · rename_i x0 heq1
    exact h0t
  · rename_i x2 x3 heq4
    extract_lets -merge -useContext x5 x6 x7 x8
    try clear_value x5
    have h9 : Changes L s x6 := State.modChan_changes (sub_of hL rfl) h0t _ _
    have h10 : Changes L s x7 := State.chanThreads_changes (sub_of hL rfl) h9 _ _ _
    have h11 : Changes L s x8 := Changes.ite (State.setAllotState_changes (sub_of hL rfl) h10 _ _) h10
    try clear_value x6 x7 x8
    exact State.settleMove_changes (sub_of hL rfl) h11 _

theorem State.respace_changes {L : List Part} {s t0 : State} (hL : sub [.regs, .chans, .rv] L = true) (h0t : Changes L s t0) :
    Changes L s (State.respace t0) := by
  unfold State.respace
  extract_lets -merge -useContext x0
  have h1 : Changes L s x0 := Changes.foldl (fun x2 _ h3 => (State.rehome_changes (sub_of hL rfl) h3 _)) h0t
  try clear_value x0
  refine Changes.foldl (fun x4 _ h5 => ?_) ?_
  · exact State.respacePair_changes (sub_of hL rfl) h5 _
  · exact h1

theorem State.updateDigest_changes {L : List Part} {s t0 : State} (hL : sub [.regs] L = true) (h0t : Changes L s t0) :
    Changes L s (State.updateDigest t0) := by
  unfold State.updateDigest
  exact State.setReg64_changes (sub_of hL rfl) h0t _ _ _

theorem State.passPair_changes {L : List Part} {s t0 : State} (hL : sub [.regs, .eng] L = true) (h0t : Changes L s t0) (a1 : Nat) (a2 : Nat) (a3 : Option Sys2Proof.Machine.Place) :
    Changes L s (State.passPair t0 a1 a2 a3) := by
  unfold State.passPair
  extract_lets -merge -useContext x0 x1 x2 x3
  try clear_value x0 x1 x2
  have h4 : Changes L s x3 := State.setSlot_changes (sub_of hL rfl) h0t _ _
  try clear_value x3
  split
  · rename_i x5 x6 x7 x8 heq9
    refine Changes.ite ?_ ?_
    · exact h0t
    · split
      · rename_i x10 x11 x12 heq13
        extract_lets -merge -useContext x14 x15
        have h16 : Changes L s x14 := State.setSlot_changes (sub_of hL rfl) h0t _ _
        have h17 : Changes L s x15 := Changes.foldl (fun x18 _ h19 => (State.setPlot_changes (sub_of hL rfl) h19 _ _ _ _ _)) h16
        try clear_value x14 x15
        exact State.evt_changes (sub_of hL rfl) h17 _ _
      · rename_i x20 heq21
        extract_lets -merge -useContext x22
        have h23 : Changes L s x22 := Changes.foldl (fun x24 _ h25 => (State.setPlot_changes (sub_of hL rfl) h25 _ _ _ _ _)) h4
        try clear_value x22
        exact State.evt_changes (sub_of hL rfl) h23 _ _
  · rename_i x26 heq27
    exact h0t

theorem State.dropPlace_changes {L : List Part} {s t0 : State} (hL : sub [.regs, .eng, .mill] L = true) (h0t : Changes L s t0) (a1 : Nat) (a2 : Sys2Proof.Machine.Place) (a3 : Option Sys2Proof.Machine.Place) :
    Changes L s (State.dropPlace t0 a1 a2 a3) := by
  unfold State.dropPlace
  extract_lets -merge -useContext x0 x1 x2 x3 x4 x5 x6 x7
  try clear_value x0 x1 x3 x4
  have h8 : Changes L s x2 := by
    unfold x2
    refine Changes.foldl (fun x13 _ h14 => ?_) ?_
    · extract_lets -merge -useContext x15 x16 x17 x18 x19 x20 x21
      try clear_value x15 x16 x17 x18 x20 x21
      have h22 : Changes L s x19 := State.setSlot_changes (sub_of hL rfl) h14 _ _
      try clear_value x19
      exact Changes.upd [.eng, .mill] (sub_of hL rfl) h22 rfl rfl rfl rfl (Nat.le_refl _) (fun p hp => by cases p <;> first | rfl | exact ⟨rfl, rfl⟩ | exact absurd (by decide) hp)
    · exact h0t
  have h23 : Changes L s x5 := Changes.foldl (fun x24 _ h25 => (Changes.ite h25 (State.setPlot_changes (sub_of hL rfl) h25 _ _ _ _ _))) h8
  have h26 : Changes L s x6 := Changes.foldl (fun x27 _ h28 => (State.passPair_changes (sub_of hL rfl) h28 _ _ _)) h23
  have h29 : Changes L s x7 := State.closeGangs_changes (sub_of hL rfl) h26 _ _
  try clear_value x2 x5 x6 x7
  exact State.mpCounts_changes (sub_of hL rfl) (State.syncSlots_changes (sub_of hL rfl) h29 _)

theorem State.closeAir_changes {L : List Part} {s t0 : State} (hL : sub [.regs, .chans, .book] L = true) (h0t : Changes L s t0) (a1 : Nat) (a2 : Bool) :
    Changes L s (State.closeAir t0 a1 a2) := by
  unfold State.closeAir
  extract_lets -merge -useContext x0 x1 x2 x3 x4
  try clear_value x0 x1 x2 x3
  have h5 : Changes L s x4 := State.stageLine_changes (sub_of hL rfl) h0t _ _ _ _ _
  try clear_value x4
  exact Changes.ite h0t (Changes.ite (State.modChan_changes (sub_of hL rfl) h0t _ _) (State.modChan_changes (sub_of hL rfl) h5 _ _))

theorem State.releaseChan_changes {L : List Part} {s t0 : State} (hL : sub [.regs, .chans, .eng, .mill, .rv, .book] L = true) (h0t : Changes L s t0) (a1 : Nat) (a2 : Nat) :
    Changes L s (State.releaseChan t0 a1 a2) := by
  unfold State.releaseChan
  extract_lets -merge -useContext x0 x1 x2 x3 x4 x5
  try clear_value x1
  have h6 : Changes L s x0 := State.closeAir_changes (sub_of hL rfl) h0t _ _
  have h7 : Changes L s x2 := State.setChan_changes (sub_of hL rfl) h6 _ _
  have h8 : Changes L s x3 := Changes.foldl (fun x9 _ h10 => (State.dropPlace_changes (sub_of hL rfl) h10 _ _ _)) h7
  have h11 : Changes L s x4 := State.chanBindings_changes (sub_of hL rfl) (State.freeThreads_changes (sub_of hL rfl) h8 _) _ _
  have h12 : Changes L s x5 := Changes.foldl (fun x13 _ h14 => (State.setReg_changes (sub_of hL rfl) h14 _ _)) h11
  try clear_value x0 x2 x3 x4 x5
  exact State.syncDev_changes (sub_of hL rfl) (State.setAllotState_changes (sub_of hL rfl) (State.setBit_changes (sub_of hL rfl) h12 _ _ _) _ _)

theorem State.joinSlots_changes {L : List Part} {s t0 : State} (hL : sub [.eng] L = true) (h0t : Changes L s t0) (a1 : Nat) (a2 : Sys2Proof.Store Sys2Proof.Machine.Slot) :
    Changes L s (State.joinSlots t0 a1 a2) := by
  unfold State.joinSlots
  refine Changes.foldl (fun x2 _ h3 => ?_) ?_
  · extract_lets -merge -useContext x4 x5 x6 x7 x8 x9 x10
    try clear_value x4 x5 x6 x7 x8 x9 x10
    exact Changes.ite (State.setSlot_changes (sub_of hL rfl) h3 _ _) (State.setSlot_changes (sub_of hL rfl) h3 _ _)
  · exact h0t

theorem State.readbacks_changes {L : List Part} {s t0 : State} (hL : sub [.regs] L = true) (h0t : Changes L s t0) (a1 : Nat) (a2 : Sys2Proof.Machine.Place) :
    Changes L s (State.readbacks t0 a1 a2) := by
  unfold State.readbacks
  extract_lets -merge -useContext x0 x1 x2
  have h3 : Changes L s x0 := State.setN_changes (sub_of hL rfl) (State.setN_changes (sub_of hL rfl) h0t _ _) _ _
  have h4 : Changes L s x1 := State.setN_changes (sub_of hL rfl) h3 _ _
  have h5 : Changes L s x2 := Changes.foldl (fun x6 _ h7 => (State.setReg_changes (sub_of hL rfl) h7 _ _)) h4
  try clear_value x0 x1 x2
  exact Changes.foldl (fun x8 _ h9 => (State.setN_changes (sub_of hL rfl) h9 _ _)) h5

theorem State.egressReadbacks_changes {L : List Part} {s t0 : State} (hL : sub [.regs] L = true) (h0t : Changes L s t0) (a1 : Nat) (a2 : Sys2Proof.Machine.ChanCfg) (a3 : Bool) :
    Changes L s (State.egressReadbacks t0 a1 a2 a3) := by
  unfold State.egressReadbacks
  extract_lets -merge -useContext x0
  have h1 : Changes L s x0 := by
    unfold x0
    refine Changes.foldl (fun x6 _ h7 => ?_) ?_
    · extract_lets -merge -useContext x8
      have h9 : Changes L s x8 := State.setF_changes (sub_of hL rfl) h7 _ _ _ _
      try clear_value x8
      exact Changes.ite h9 (State.setReg_changes (sub_of hL rfl) h9 _ _)
    · exact h0t
  try clear_value x0
  exact State.setF_changes (sub_of hL rfl) h1 _ _ _ _

theorem State.checkReadbacks_changes {L : List Part} {s t0 : State} (hL : sub [.regs] L = true) (h0t : Changes L s t0) (a1 : Nat) (a2 : Sys2Proof.Machine.ChanCfg) (a3 : Sys2Proof.Machine.Trial) :
    Changes L s (State.checkReadbacks t0 a1 a2 a3) := by
  unfold State.checkReadbacks
  split
  rename_i x0 x1 x2 heq3
  have h4 : Changes L s x2 := by
    rw [show x2 = (_, x2).2 from rfl, ← heq3]
    exact State.draw_changes h0t
  extract_lets -merge -useContext x5 x6 x7 x8
  try clear_value x5
  have h9 : Changes L s x6 := State.setN_changes (sub_of hL rfl) h4 _ _
  have h10 : Changes L s x7 := Changes.ite h9 (State.setF_changes (sub_of hL rfl) h9 _ _ _ _)
  have h11 : Changes L s x8 := State.setN_changes (sub_of hL rfl) (State.setN_changes (sub_of hL rfl) h10 _ _) _ _
  try clear_value x6 x7 x8
  exact Changes.foldl (fun x12 _ h13 => (State.setN_changes (sub_of hL rfl) (State.setN_changes (sub_of hL rfl) h13 _ _) _ _)) h11

theorem State.takePlan_changes {L : List Part} {s t0 : State} (hL : sub [.regs, .chans, .eng, .rv] L = true) (h0t : Changes L s t0) (a1 : Nat) (a2 : Sys2Proof.Machine.State.Plan) :
    Changes L s (State.takePlan t0 a1 a2) := by
  unfold State.takePlan
  extract_lets -merge -useContext x0 x1 x2 x3 x4 x5 x6 x7 x8 x9 x10 x11 x12 x13 x14
  try clear_value x0 x1 x2 x4 x7 x9
  have h15 : Changes L s x3 := State.modChan_changes (sub_of hL rfl) h0t _ _
  have h16 : Changes L s x5 := Changes.set_eng (sub_of hL rfl) h15 _
  have h17 : Changes L s x6 := State.joinSlots_changes (sub_of hL rfl) h16 _ _
  have h18 : Changes L s x8 := Changes.foldl (fun x19 _ h20 => (State.passPair_changes (sub_of hL rfl) h20 _ _ _)) h17
  have h21 : Changes L s x10 := by
    unfold x10
    refine Changes.foldl (fun x26 _ h27 => ?_) ?_
    · refine Changes.ite ?_ ?_
      · extract_lets -merge -useContext x28 x29 x30
        try clear_value x28 x29 x30
        exact State.setSlot_changes (sub_of hL rfl) h27 _ _
      · exact h27
    · exact h18
  have h31 : Changes L s x11 := State.writePlots_changes (sub_of hL rfl) h21 _ _
  have h32 : Changes L s x12 := State.syncSlots_changes (sub_of hL rfl) (State.openGangs_changes (sub_of hL rfl) h31 _ _) _
  have h33 : Changes L s x13 := State.mpCounts_changes (sub_of hL rfl) (State.chanBindings_changes (sub_of hL rfl) (State.chanThreads_changes (sub_of hL rfl) h32 _ _ _) _ _)
  have h34 : Changes L s x14 := State.syncDev_changes (sub_of hL rfl) (State.egressReadbacks_changes (sub_of hL rfl) (State.readbacks_changes (sub_of hL rfl) h33 _ _) _ _ _)
  try clear_value x3 x5 x6 x8 x10 x11 x12 x13 x14
  exact State.setN_changes (sub_of hL rfl) (State.setF_changes (sub_of hL rfl) h34 _ _ _ _) _ _

theorem State.checkChan_changes {L : List Part} {s t0 : State} (hL : sub [.regs, .chans, .eng, .rv] L = true) (h0t : Changes L s t0) (a1 : Nat) :
    Changes L s (State.checkChan t0 a1) := by
  unfold State.checkChan
  extract_lets -merge -useContext x0 x1 x2 x3
  try clear_value x0 x1
  have h4 : Changes L s x2 := State.checkReadbacks_changes (sub_of hL rfl) h0t _ _ _
  have h5 : Changes L s x3 := State.setBit_changes (sub_of hL rfl) h4 _ _ _
  try clear_value x2 x3
  split
  · rename_i x6 x7 heq8
    exact State.failCheck_changes (sub_of hL rfl) h5 _ _ _ _
  · rename_i x9 heq10
    split
    · rename_i x11 x12 heq13
      exact State.failCheck_changes (sub_of hL rfl) h5 _ _ _ _
    · rename_i x14 x15 heq16
      extract_lets -merge -useContext x17
      have h18 : Changes L s x17 := State.activate_changes (sub_of hL rfl) (State.takePlan_changes (sub_of hL rfl) h5 _ _) _
      try clear_value x17
      exact State.setAllotState_changes (sub_of hL rfl) h18 _ _

theorem State.slotPlots_changes {L : List Part} {s t0 : State} (hL : sub [.regs] L = true) (h0t : Changes L s t0) (a1 : Nat) :
    Changes L s (State.slotPlots t0 a1) := by
  unfold State.slotPlots
  extract_lets -merge -useContext x0 x1
  try clear_value x0
  have h2 : Changes L s x1 := by
    unfold x1
    refine Changes.foldl (fun x7 _ h8 => ?_) ?_
    · split
      · rename_i x9 x10 heq11
        exact State.writePlots_changes (sub_of hL rfl) h8 _ _
      · rename_i x12 heq13
        exact h8
    · exact h0t
  try clear_value x1
  split
  · rename_i x14 x15 x16 heq17
    exact Changes.foldl (fun x18 _ h19 => (State.setPlot_changes (sub_of hL rfl) h19 _ _ _ _ _)) h2
  · rename_i x20 heq21
    exact h2

theorem State.giveSlot_changes {L : List Part} {s t0 : State} (hL : sub [.regs, .eng] L = true) (h0t : Changes L s t0) (a1 : Nat) (a2 : Option Nat) :
    Changes L s (State.giveSlot t0 a1 a2) := by
  unfold State.giveSlot
  extract_lets -merge -useContext x0 x1 x2
  try clear_value x0
  have h3 : Changes L s x1 := State.setSlot_changes (sub_of hL rfl) h0t _ _
  have h4 : Changes L s x2 := by
    unfold x2
    split
    · rename_i x5 x6 heq7
      exact State.syncEngine_changes (sub_of hL rfl) h3 _
    · rename_i x8 heq9
      exact h3
  try clear_value x1 x2
  exact State.slotPlots_changes (sub_of hL rfl) (State.syncSlots_changes (sub_of hL rfl) h4 _) _

theorem State.sparesCause_changes {L : List Part} {s t0 : State} (hL : sub [.regs] L = true) (h0t : Changes L s t0) :
    Changes L s (State.sparesCause t0) := by
  unfold State.sparesCause
  exact Changes.ite (Changes.ite (State.clearCause_changes (sub_of hL rfl) h0t _) (State.guarantee_changes (sub_of hL rfl) h0t)) (State.guarantee_changes (sub_of hL rfl) h0t)

theorem State.loseRow_changes {L : List Part} {s t0 : State} (hL : sub [.chans, .eng] L = true) (h0t : Changes L s t0) (a1 : Nat) :
    Changes L s (State.loseRow t0 a1) := by
  unfold State.loseRow
  extract_lets -merge -useContext x0 x1
  try clear_value x0
  have h2 : Changes L s x1 := State.setSlot_changes (sub_of hL rfl) h0t _ _
  try clear_value x1
  split
  · rename_i x3 heq4
    exact h0t
  · rename_i x5 x6 heq7
    split
    rename_i x8 x9 x10 heq11
    exact State.modChan_changes (sub_of hL rfl) h2 _ _

theorem State.takeSpare_changes {L : List Part} {s t0 : State} (hL : sub [.eng] L = true) (h0t : Changes L s t0) :
    Changes L s (State.takeSpare t0).2 := by
  unfold State.takeSpare
  split
  · rename_i x0 x1 heq2
    exact Changes.set_eng (sub_of hL rfl) h0t _
  · rename_i x3 heq4
    exact Changes.set_eng (sub_of hL rfl) h0t _

theorem State.waitMove_changes {L : List Part} {s t0 : State} (hL : sub [.regs, .chans] L = true) (h0t : Changes L s t0) (a1 : Nat) :
    Changes L s (State.waitMove t0 a1) := by
  unfold State.waitMove
  refine Changes.foldl (fun x2 _ h3 => ?_) ?_
  · extract_lets -merge -useContext x4
    have h5 : Changes L s x4 := State.modChan_changes (sub_of hL rfl) h3 _ _
    try clear_value x4
    exact Changes.ite (State.setAllotState_changes (sub_of hL rfl) h5 _ _) h5
  · exact h0t

theorem State.failEngine_changes {L : List Part} {s t0 : State} (hL : sub [.regs, .chans, .eng] L = true) (h0t : Changes L s t0) (a1 : Nat) :
    Changes L s (State.failEngine t0 a1) := by
  unfold State.failEngine
  refine Changes.ite ?_ ?_
  · exact h0t
  · extract_lets -merge -useContext x0 x1 x2 x3 x4
    try clear_value x1 x2
    have h5 : Changes L s x0 := State.setBit_changes (sub_of hL rfl) h0t _ _ _
    have h6 : Changes L s x3 := by
      unfold x3
      refine Changes.ite ?_ ?_
      · exact Changes.set_eng (sub_of hL rfl) h5 _
      · refine Changes.ite ?_ ?_
        · exact Changes.set_eng (sub_of hL rfl) h5 _
        · split
          · rename_i x7 x8 heq9
            split
            rename_i x10 x11 x12 heq13
            have h14 : Changes L s x12 := by
              rw [show x12 = (_, x12).2 from rfl, ← heq13]
              exact State.takeSpare_changes (sub_of hL rfl) (State.loseRow_changes (sub_of hL rfl) h5 _)
            extract_lets -merge -useContext x15
            have h16 : Changes L s x15 := State.giveSlot_changes (sub_of hL rfl) h14 _ _
            try clear_value x15
            exact Changes.ite h16 (State.waitMove_changes (sub_of hL rfl) h16 _)
          · rename_i x17 heq18
            exact h5
    have h19 : Changes L s x4 := by
      unfold x4
      split
      · rename_i x20 x21 heq22
        exact State.syncEngine_changes (sub_of hL rfl) h6 _
      · rename_i x23 heq24
        exact h6
    try clear_value x0 x3 x4
    exact State.guarantee_changes (sub_of hL rfl) (State.syncSpares_changes (sub_of hL rfl) (State.syncEngine_changes (sub_of hL rfl) h19 _))

theorem State.moveWork_changes {L : List Part} {s t0 : State} (hL : sub [.regs, .chans, .eng] L = true) (h0t : Changes L s t0) (a1 : Nat) :
    Changes L s (State.moveWork t0 a1) := by
  unfold State.moveWork
  extract_lets -merge -useContext x0 x1 x2
  try clear_value x0 x1 x2
  split
  · rename_i x3 x4 x5 x6 heq7
    have h8 : Changes L s x6 := by
      rw [show x6 = (_, x6).2 from rfl, ← heq7]
      exact State.takeSpare_changes (sub_of hL rfl) h0t
    extract_lets -merge -useContext x9 x10
    have h11 : Changes L s x9 := State.giveSlot_changes (sub_of hL rfl) h8 _ _
    have h12 : Changes L s x10 := by
      unfold x10
      split
      · rename_i x13 x14 heq15
        exact State.syncEngine_changes (sub_of hL rfl) h11 _
      · rename_i x16 heq17
        exact h11
    try clear_value x9 x10
    refine State.syncSpares_changes (sub_of hL rfl) ?_
    refine Changes.foldl (fun x18 _ h19 => ?_) ?_
    · exact State.settleMove_changes (sub_of hL rfl) h19 _
    · exact h12
  · rename_i x20 x21 heq22 heq23
    exact h0t
  · rename_i x24 x25 x26 heq27 heq28
    extract_lets -merge -useContext x29 x30 x31 x32 x33
    try clear_value x29 x30
    have h34 : Changes L s x31 := State.setSlot_changes (sub_of hL rfl) h0t _ _
    have h35 : Changes L s x32 := State.setSlot_changes (sub_of hL rfl) h34 _ _
    have h36 : Changes L s x33 := by
      unfold x33
      refine Changes.foldl (fun x41 _ h42 => ?_) ?_
      · extract_lets -merge -useContext x43
        have h44 : Changes L s x43 := State.modChan_changes (sub_of hL rfl) h42 _ _
        try clear_value x43
        split
        · rename_i x45 x46 heq47
          exact State.readbacks_changes (sub_of hL rfl) h44 _ _
        · rename_i x48 heq49
          exact h44
      · exact h35
    try clear_value x31 x32 x33
    refine State.setN_changes (sub_of hL rfl) ?_ _ _
    refine Changes.foldl (fun x50 _ h51 => ?_) ?_
    · exact State.settleMove_changes (sub_of hL rfl) h51 _
    · exact State.slotPlots_changes (sub_of hL rfl) (State.syncSlots_changes (sub_of hL rfl) h36 _) _

theorem State.replaceWork_changes {L : List Part} {s t0 : State} (hL : sub [.regs, .chans, .eng] L = true) (h0t : Changes L s t0) :
    Changes L s (State.replaceWork t0) := by
  unfold State.replaceWork
  refine Changes.foldl (fun x0 _ h1 => ?_) ?_
  · exact State.moveWork_changes (sub_of hL rfl) h1 _
  · exact h0t

theorem State.shedChan_changes {L : List Part} {s t0 : State} (hL : sub [.regs, .chans, .eng, .mill, .rv, .book, .faults] L = true) (h0t : Changes L s t0) (a1 : Nat) :
    Changes L s (State.shedChan t0 a1) := by
  unfold State.shedChan
  extract_lets -merge -useContext x0 x1 x2
  have h3 : Changes L s x0 := State.setBit_changes (sub_of hL rfl) (State.setAllotState_changes (sub_of hL rfl) h0t _ _) _ _ _
  have h4 : Changes L s x1 := State.raise_changes (sub_of hL rfl) (State.setN_changes (sub_of hL rfl) h3 _ _) _ _ _ _
  have h5 : Changes L s x2 := State.setCause_changes (sub_of hL rfl) h4 _
  try clear_value x0 x1 x2
  exact Changes.ite (State.modChan_changes (sub_of hL rfl) h5 _ _) (State.releaseChan_changes (sub_of hL rfl) h5 _ _)

theorem State.shedWhile_changes {L : List Part} {s t1 : State} (hL : sub [.regs, .chans, .eng, .mill, .rv, .book, .faults] L = true) (h1t : Changes L s t1) (a0 : Nat) :
    Changes L s (State.shedWhile a0 t1) := by
  induction a0 generalizing t1 with
  | zero => exact h1t
  | succ n ih =>
    unfold State.shedWhile
    refine Changes.ite ?_ h1t
    split
    · exact ih (State.replaceWork_changes (sub_of hL rfl) (State.shedChan_changes (sub_of hL rfl) h1t _))
    · exact h1t

theorem State.releaseEnded_changes {L : List Part} {s t0 : State} (hL : sub [.regs, .chans, .eng, .mill, .rv, .book] L = true) (h0t : Changes L s t0) :
    Changes L s (State.releaseEnded t0) := by
  unfold State.releaseEnded
  exact Changes.foldl (fun x0 _ h1 => (State.setN_changes (sub_of hL rfl) (State.releaseChan_changes (sub_of hL rfl) h1 _ _) _ _)) h0t

theorem State.readmit_changes {L : List Part} {s t0 : State} (hL : sub [.regs, .chans, .eng, .rv, .twin, .sent] L = true) (h0t : Changes L s t0) :
    Changes L s (State.readmit t0) := by
  unfold State.readmit
  extract_lets -merge -useContext x0 x1
  try clear_value x0
  have h2 : Changes L s x1 := by
    unfold x1
    refine Changes.foldl (fun x7 _ h8 => ?_) ?_
    · extract_lets -merge -useContext x9 x10 x11
      try clear_value x9 x10
      have h12 : Changes L s x11 := State.checkReadbacks_changes (sub_of hL rfl) h8 _ _ _
      try clear_value x11
      split
      · rename_i x13 x14 x15 heq16 heq17
        exact State.requestResync_changes (sub_of hL rfl) (State.unitDegraded_changes (sub_of hL rfl) (State.setAllotState_changes (sub_of hL rfl) (State.activate_changes (sub_of hL rfl) (State.takePlan_changes (sub_of hL rfl) h12 _ _) _) _ _) _ _) _
      · rename_i x18 x19 heq20
        exact h12
    · exact h0t
  try clear_value x1
  exact Changes.ite (State.clearCause_changes (sub_of hL rfl) h2 _) h2

theorem State.enables_changes {L : List Part} {s t0 : State} (hL : sub [.regs, .chans, .eng, .rv] L = true) (h0t : Changes L s t0) :
    Changes L s (State.enables t0) := by
  unfold State.enables
  refine Changes.ite ?_ ?_
  · exact h0t
  · refine Changes.foldl (fun x0 _ h1 => ?_) ?_
    · exact State.checkChan_changes (sub_of hL rfl) h1 _
    · exact h0t

theorem State.moveExtent_changes {L : List Part} {s t0 : State} (hL : sub [.regs, .chans] L = true) (h0t : Changes L s t0) (a1 : Nat) (a2 : Nat) :
    Changes L s (State.moveExtent t0 a1 a2) := by
  unfold State.moveExtent
  split
  · rename_i x0 heq1
    exact h0t
  · rename_i x2 x3 heq4
    extract_lets -merge -useContext x5 x6
    have h7 : Changes L s x5 := Changes.ite (State.modChan_changes (sub_of hL rfl) h0t _ _) (State.modChan_changes (sub_of hL rfl) h0t _ _)
    have h8 : Changes L s x6 := Changes.ite (State.setAllotState_changes (sub_of hL rfl) h7 _ _) h7
    try clear_value x5 x6
    exact State.setN_changes (sub_of hL rfl) (State.setN_changes (sub_of hL rfl) h8 _ _) _ _

theorem State.compactStep_changes {L : List Part} {s t0 : State} (hL : sub [.regs, .chans, .eng] L = true) (h0t : Changes L s t0) :
    Changes L s (State.compactStep t0) := by
  unfold State.compactStep
  refine Changes.ite ?_ ?_
  · extract_lets -merge -useContext x0 x1 x2 x3
    try clear_value x0 x1 x2 x3
    split
    · rename_i x4 x5 x6 x7 heq8
      exact State.moveExtent_changes (sub_of hL rfl) h0t _ _
    · rename_i x9 heq10
      exact Changes.set_eng (sub_of hL rfl) h0t _
  · exact h0t

theorem State.pushExtent_changes {L : List Part} {s t0 : State} (hL : sub [.regs, .chans] L = true) (h0t : Changes L s t0) (a1 : Nat) :
    Changes L s (State.pushExtent t0 a1) := by
  unfold State.pushExtent
  split
  · rename_i x0 x1 heq2
    split
    · rename_i x3 x4 heq5
      exact State.moveExtent_changes (sub_of hL rfl) h0t _ _
    · rename_i x6 heq7
      exact h0t
  · rename_i x8 heq9
    exact h0t

theorem State.shedToFit_changes {L : List Part} {s t1 : State} (hL : sub [.regs, .chans, .eng, .mill, .rv, .book, .faults] L = true) (h1t : Changes L s t1) (a0 : Nat) :
    Changes L s (State.shedToFit a0 t1) := by
  induction a0 generalizing t1 with
  | zero => exact h1t
  | succ n ih =>
    unfold State.shedToFit
    extract_lets x y
    have hx : Changes L s x := Changes.foldl (fun _ _ h => State.pushExtent_changes (sub_of hL rfl) h _) h1t
    clear_value y
    clear_value x
    refine Changes.ite hx ?_
    split
    · exact ih (State.shedChan_changes (sub_of hL rfl) hx _)
    · exact hx

theorem State.fitMemory_changes {L : List Part} {s t0 : State} (hL : sub [.regs, .chans, .eng, .mill, .rv, .book, .faults] L = true) (h0t : Changes L s t0) :
    Changes L s (State.fitMemory t0) := by
  unfold State.fitMemory
  exact Changes.ite (State.shedToFit_changes (sub_of hL rfl) (Changes.set_eng (sub_of hL rfl) h0t _) _) h0t

theorem State.noteEpoch_changes {L : List Part} {s t0 : State} (hL : sub [.regs, .eng] L = true) (h0t : Changes L s t0) (a1 : List (List Nat)) :
    Changes L s (State.noteEpoch t0 a1) := by
  unfold State.noteEpoch
  exact Changes.ite (State.setN_changes (sub_of hL rfl) (Changes.set_eng (sub_of hL rfl) h0t _) _ _) h0t

theorem State.epoch_changes {L : List Part} {s t0 : State} (hL : sub [.regs, .chans, .eng, .mill, .rv, .book, .faults, .twin, .sent] L = true) (h0t : Changes L s t0) :
    Changes L s (State.epoch t0) := by
  unfold State.epoch
  extract_lets -merge -useContext x0 x1 x2 x3 x4
  try clear_value x0
  have h5 : Changes L s x1 := Changes.set_eng (sub_of hL rfl) h0t _
  have h6 : Changes L s x2 := State.releaseEnded_changes (sub_of hL rfl) (State.fitMemory_changes (sub_of hL rfl) (State.shedWhile_changes (sub_of hL rfl) (State.replaceWork_changes (sub_of hL rfl) h5) _))
  have h7 : Changes L s x3 := State.enables_changes (sub_of hL rfl) (State.readmit_changes (sub_of hL rfl) h6)
  have h8 : Changes L s x4 := State.compactStep_changes (sub_of hL rfl) h7
  try clear_value x1 x2 x3 x4
  exact State.updateDigest_changes (sub_of hL rfl) (State.noteEpoch_changes (sub_of hL rfl) (State.respace_changes (sub_of hL rfl) h8) _)

end Sys2Proof.Machine
end

