-- ==== Sys2Proof/Laws/ChangesInAllotter.lean ====
section
/-! SUPPORT. What each function of Allotter.lean changes at most: one lemma for each. -/

namespace Sys2Proof.Machine

theorem compareDigests_changes {L : List Part} {s t0 : State} (hL : sub [.regs, .faults, .twin] L = true) (h0t : Changes L s t0) :
    Changes L s (compareDigests t0) := by
  unfold compareDigests
  split
  · rename_i x0 x1 x2 x3 x4 x5 x6 x7 heq8 heq9
    refine Changes.ite ?_ ?_
    · exact h0t
    · extract_lets -merge -useContext x10 x11 x12 x13 x14
      try clear_value x11 x14
      have h15 : Changes L s x10 := State.setBit_changes (sub_of hL rfl) (State.setBit_changes (sub_of hL rfl) h0t _ _ _) _ _ _
      have h16 : Changes L s x12 := Changes.ite (State.raise_changes (sub_of hL rfl) h15 _ _ _ _) h15
      have h17 : Changes L s x13 := Changes.ite h16 (State.evt_changes (sub_of hL rfl) h16 _ _)
      try clear_value x10 x12 x13
      exact Changes.set_twin (sub_of hL rfl) h17 _
  · rename_i x18 x19 heq20
    exact h0t

theorem sendDigest_changes {L : List Part} {s t0 : State} (hL : sub [.regs, .faults, .twin, .sent] L = true) (h0t : Changes L s t0) :
    Changes L s (sendDigest t0) := by
  unfold sendDigest
  refine Changes.ite ?_ ?_
  · extract_lets -merge -useContext x0 x1 x2 x3 x4
    try clear_value x0 x1 x3
    have h5 : Changes L s x2 := State.setReg64_changes (sub_of hL rfl) h0t _ _ _
    have h6 : Changes L s x4 := Changes.set_twin (sub_of hL rfl) h5 _
    try clear_value x2 x4
    exact compareDigests_changes (sub_of hL rfl) (Changes.ite (Changes.set_sent (sub_of hL rfl) h6 _) h6)
  · exact h0t

theorem placementEpoch_changes {L : List Part} {s t0 : State} (hL : sub [.regs, .stp, .chans, .eng, .mill, .rv, .book, .faults, .twin, .sent] L = true) (h0t : Changes L s t0) :
    Changes L s (placementEpoch t0) := by
  unfold placementEpoch
  refine Changes.ite ?_ ?_
  · extract_lets -merge -useContext x0 x1
    try clear_value x1
    have h2 : Changes L s x0 := Changes.ite h0t (State.enterFrame_changes (sub_of hL rfl) h0t _ _)
    try clear_value x0
    exact sendDigest_changes (sub_of hL rfl) (State.epoch_changes (sub_of hL rfl) (Changes.set_stp (sub_of hL rfl) h2 _))
  · exact h0t

theorem channelEnable_changes {L : List Part} {s t0 : State} (hL : sub [.regs] L = true) (h0t : Changes L s t0) (a1 : Nat) :
    Changes L s (channelEnable t0 a1) := by
  unfold channelEnable
  exact Changes.ite h0t (State.setBit_changes (sub_of hL rfl) (State.setBit_changes (sub_of hL rfl) h0t _ _ _) _ _ _)

theorem stopIdle_changes {L : List Part} {s t0 : State} (hL : sub [.chans] L = true) (h0t : Changes L s t0) (a1 : Nat) :
    Changes L s (stopIdle t0 a1) := by
  unfold stopIdle
  exact State.modChan_changes (sub_of hL rfl) h0t _ _

theorem stopChan_changes {L : List Part} {s t0 : State} (hL : sub [.chans] L = true) (h0t : Changes L s t0) (a1 : Nat) :
    Changes L s (stopChan t0 a1) := by
  unfold stopChan
  exact Changes.ite (State.modChan_changes (sub_of hL rfl) h0t _ _) (stopIdle_changes (sub_of hL rfl) h0t _)

theorem channelDisable_changes {L : List Part} {s t0 : State} (hL : sub [.regs, .chans] L = true) (h0t : Changes L s t0) (a1 : Nat) :
    Changes L s (channelDisable t0 a1) := by
  unfold channelDisable
  refine Changes.ite ?_ ?_
  · exact h0t
  · extract_lets -merge -useContext x0 x1 x2
    have h3 : Changes L s x0 := State.setBit_changes (sub_of hL rfl) h0t _ _ _
    have h4 : Changes L s x1 := Changes.ite h3 (State.unitDegraded_changes (sub_of hL rfl) (State.setAllotState_changes (sub_of hL rfl) h3 _ _) _ _)
    have h5 : Changes L s x2 := State.setBit_changes (sub_of hL rfl) h3 _ _ _
    try clear_value x0 x1 x2
    exact Changes.ite (State.setBit_changes (sub_of hL rfl) h3 _ _ _) (Changes.ite (Changes.ite h4 (State.clearCause_changes (sub_of hL rfl) h4 _)) (Changes.ite h3 (Changes.ite (State.setAllotState_changes (sub_of hL rfl) h5 _ _) (stopChan_changes (sub_of hL rfl) h5 _))))

theorem quiesceSet_changes {L : List Part} {s t0 : State} (hL : sub [.regs] L = true) (h0t : Changes L s t0) (a1 : Nat) :
    Changes L s (quiesceSet t0 a1) := by
  unfold quiesceSet
  exact Changes.ite (State.setBit_changes (sub_of hL rfl) h0t _ _ _) h0t

theorem quiesceClear_changes {L : List Part} {s t0 : State} (hL : sub [.regs, .chans] L = true) (h0t : Changes L s t0) (a1 : Nat) :
    Changes L s (quiesceClear t0 a1) := by
  unfold quiesceClear
  refine Changes.ite ?_ ?_
  · exact h0t
  · extract_lets -merge -useContext x0
    have h1 : Changes L s x0 := State.setBit_changes (sub_of hL rfl) h0t _ _ _
    try clear_value x0
    exact Changes.ite (stopChan_changes (sub_of hL rfl) (State.setAllotState_changes (sub_of hL rfl) h1 _ _) _) h1

theorem allotCompact_changes {L : List Part} {s t0 : State} (hL : sub [.eng] L = true) (h0t : Changes L s t0) :
    Changes L s (allotCompact t0) := by
  unfold allotCompact
  exact Changes.ite (Changes.set_eng (sub_of hL rfl) h0t _) h0t

theorem oldExtentFreed_changes {L : List Part} {s t0 : State} (hL : sub [.regs, .chans] L = true) (h0t : Changes L s t0) (a1 : Nat) :
    Changes L s (oldExtentFreed t0 a1) := by
  unfold oldExtentFreed
  extract_lets -merge -useContext x0
  try clear_value x0
  exact Changes.ite (State.settleMove_changes (sub_of hL rfl) (State.setChan_changes (sub_of hL rfl) h0t _ _) _) h0t

theorem noteLoan_changes {L : List Part} {s t0 : State} (hL : sub [.regs, .eng] L = true) (h0t : Changes L s t0) (a1 : Nat) :
    Changes L s (noteLoan t0 a1) := by
  unfold noteLoan
  extract_lets -merge -useContext x0 x1 x2
  try clear_value x0 x1 x2
  exact Changes.ite (State.evt_changes (sub_of hL rfl) (Changes.set_eng (sub_of hL rfl) h0t _) _ _) (Changes.set_eng (sub_of hL rfl) h0t _)

theorem handOver_changes {L : List Part} {s t0 : State} (hL : sub [.regs, .eng] L = true) (h0t : Changes L s t0) (a1 : Nat) :
    Changes L s (handOver t0 a1) := by
  unfold handOver
  split
  · rename_i x0 x1 x2 x3 heq4 heq5
    extract_lets -merge -useContext x6 x7 x8 x9 x10
    try clear_value x6 x7
    have h11 : Changes L s x8 := Changes.set_eng (sub_of hL rfl) h0t _
    have h12 : Changes L s x9 := State.giveSlot_changes (sub_of hL rfl) h11 _ _
    have h13 : Changes L s x10 := by
      unfold x10
      split
      · rename_i x14 x15
        exact State.syncEngine_changes (sub_of hL rfl) h12 _
      · rename_i x16
        exact h12
    try clear_value x8 x9 x10
    exact State.sparesCause_changes (sub_of hL rfl) (State.syncSpares_changes (sub_of hL rfl) (noteLoan_changes (sub_of hL rfl) h13 _))
  · rename_i x17 x18 heq19
    exact Changes.set_eng (sub_of hL rfl) h0t _

theorem rotationPoint_changes {L : List Part} {s t0 : State} (hL : sub [.regs, .stp, .eng] L = true) (h0t : Changes L s t0) :
    Changes L s (rotationPoint t0) := by
  unfold rotationPoint
  extract_lets -merge -useContext x0 x1 x2 x3
  try clear_value x1 x2 x3
  have h4 : Changes L s x0 := State.toFrameStart_changes (sub_of hL rfl) h0t
  try clear_value x0
  refine Changes.ite ?_ ?_
  · exact h4
  · split
    · rename_i x5 heq6
      exact h4
    · rename_i x7 x8 heq9
      extract_lets -merge -useContext x10
      have h11 : Changes L s x10 := State.syncSpares_changes (sub_of hL rfl) (Changes.set_eng (sub_of hL rfl) h4 _)
      try clear_value x10
      exact Changes.ite h11 (handOver_changes (sub_of hL rfl) h11 _)

theorem rotationHandover_changes {L : List Part} {s t0 : State} (hL : sub [.regs, .eng] L = true) (h0t : Changes L s t0) :
    Changes L s (rotationHandover t0) := by
  unfold rotationHandover
  split
  · rename_i x0 x1 heq2
    exact Changes.ite h0t (handOver_changes (sub_of hL rfl) h0t _)
  · rename_i x3 heq4
    exact h0t

end Sys2Proof.Machine
end

