-- ==== Sys2Proof/Laws/ChangesInInputOps.lean ====
section
/-! SUPPORT. What each function of InputOps.lean changes at most: one lemma for each. -/

namespace Sys2Proof.Machine

theorem setInp_changes {L : List Part} {s t0 : State} (hL : sub [.ing] L = true) (h0t : Changes L s t0) (a1 : Nat) (a2 : Sys2Proof.Machine.Inp) :
    Changes L s (setInp t0 a1 a2) := by
  unfold setInp
  exact Changes.set_ing (sub_of hL rfl) h0t _

theorem modInp_changes {L : List Part} {s t0 : State} (hL : sub [.ing] L = true) (h0t : Changes L s t0) (a1 : Nat) (a2 : Sys2Proof.Machine.Inp → Sys2Proof.Machine.Inp) :
    Changes L s (modInp t0 a1 a2) := by
  unfold modInp
  exact setInp_changes (sub_of hL rfl) h0t _ _

theorem setInState_changes {L : List Part} {s t0 : State} (hL : sub [.regs] L = true) (h0t : Changes L s t0) (a1 : Nat) (a2 : Nat) (a3 : Nat) (a4 : Nat) :
    Changes L s (setInState t0 a1 a2 a3 a4) := by
  unfold setInState
  exact State.setN_changes (sub_of hL rfl) h0t _ _

theorem setRaw_changes {L : List Part} {s t0 : State} (hL : sub [.ing] L = true) (h0t : Changes L s t0) (a1 : Nat) (a2 : Nat) (a3 : Nat) (a4 : Nat) (a5 : List (BitVec 16)) :
    Changes L s (setRaw t0 a1 a2 a3 a4 a5) := by
  unfold setRaw
  exact Changes.set_ing (sub_of hL rfl) h0t _

theorem repeatIn_changes {L : List Part} {s t0 : State} (hL : sub [.ing] L = true) (h0t : Changes L s t0) (a1 : Nat) (a2 : Nat) (a3 : Nat) :
    Changes L s (repeatIn t0 a1 a2 a3) := by
  unfold repeatIn
  exact setRaw_changes (sub_of hL rfl) h0t _ _ _ _ _

theorem repeatPart_changes {L : List Part} {s t0 : State} (hL : sub [.ing] L = true) (h0t : Changes L s t0) (a1 : Nat) (a2 : Nat) (a3 : Nat) :
    Changes L s (repeatPart t0 a1 a2 a3) := by
  unfold repeatPart
  exact Changes.foldl (fun x0 _ h1 => (repeatIn_changes (sub_of hL rfl) h1 _ _ _)) h0t

theorem keepGmTime_changes {L : List Part} {s t0 : State} (hL : sub [.ptp] L = true) (h0t : Changes L s t0) (a1 : Nat) :
    Changes L s (keepGmTime t0 a1) := by
  unfold keepGmTime
  exact Changes.set_ptp (sub_of hL rfl) h0t _

theorem declareLost_changes {L : List Part} {s t0 : State} (hL : sub [.regs, .ing, .faults] L = true) (h0t : Changes L s t0) (a1 : Nat) (a2 : Nat) :
    Changes L s (declareLost t0 a1 a2) := by
  unfold declareLost
  refine Changes.ite ?_ ?_
  · exact h0t
  · refine Changes.ite ?_ ?_
    · exact Changes.ite (setInState_changes (sub_of hL rfl) h0t _ _ _ _) h0t
    · extract_lets -merge -useContext x0 x1 x2 x3
      try clear_value x2
      have h4 : Changes L s x0 := setInState_changes (sub_of hL rfl) h0t _ _ _ _
      have h5 : Changes L s x1 := modInp_changes (sub_of hL rfl) h4 _ _
      have h6 : Changes L s x3 := Changes.foldl (fun x7 _ h8 => (repeatPart_changes (sub_of hL rfl) h8 _ _ _)) h5
      try clear_value x0 x1 x3
      exact State.raise_changes (sub_of hL rfl) (State.evt_changes (sub_of hL rfl) h6 _ _) _ _ _ _

theorem shedInputs_changes {L : List Part} {s t0 : State} (hL : sub [.regs, .ing, .faults] L = true) (h0t : Changes L s t0) (a1 : Nat) :
    Changes L s (shedInputs t0 a1) := by
  unfold shedInputs
  exact Changes.foldl (fun x0 _ h1 => (Changes.ite h1 (declareLost_changes (sub_of hL rfl) h1 _ _))) h0t

theorem turnRaw_changes {L : List Part} {s t0 : State} (hL : sub [.ing] L = true) (h0t : Changes L s t0) (a1 : Nat) :
    Changes L s (turnRaw t0 a1) := by
  unfold turnRaw
  exact Changes.set_ing (sub_of hL rfl) h0t _

theorem holdFrozen_changes {L : List Part} {s t0 : State} (hL : sub [.ing] L = true) (h0t : Changes L s t0) (a1 : Nat) (a2 : Nat) :
    Changes L s (holdFrozen t0 a1 a2) := by
  unfold holdFrozen
  exact Changes.ite (Changes.foldl (fun x0 _ h1 => (repeatIn_changes (sub_of hL rfl) h1 _ _ _)) h0t) h0t

theorem beginInput_changes {L : List Part} {s t0 : State} (hL : sub [.ing] L = true) (h0t : Changes L s t0) (a1 : Nat) :
    Changes L s (beginInput t0 a1) := by
  unfold beginInput
  extract_lets -merge -useContext x0
  try clear_value x0
  exact Changes.ite h0t (holdFrozen_changes (sub_of hL rfl) (setInp_changes (sub_of hL rfl) (turnRaw_changes (sub_of hL rfl) h0t _) _ _) _ _)

theorem inputFrame_changes {L : List Part} {s t0 : State} (hL : sub [.ing] L = true) (h0t : Changes L s t0) (a1 : Nat) :
    Changes L s (inputFrame t0 a1) := by
  unfold inputFrame
  extract_lets -merge -useContext x0
  try clear_value x0
  refine holdFrozen_changes (sub_of hL rfl) ?_ _ _
  refine Changes.foldl (fun x1 _ h2 => ?_) ?_
  · exact beginInput_changes (sub_of hL rfl) h2 _
  · exact turnRaw_changes (sub_of hL rfl) h0t _

theorem settlePaths_changes {L : List Part} {s t0 : State} (hL : sub [.regs] L = true) (h0t : Changes L s t0) :
    Changes L s (settlePaths t0) := by
  unfold settlePaths
  extract_lets -merge -useContext x0 x1 x2
  try clear_value x0 x1
  have h3 : Changes L s x2 := Changes.foldl (fun x4 _ h5 => (Changes.ite h5 (State.unitDegraded_changes (sub_of hL rfl) h5 _ _))) h0t
  try clear_value x2
  exact Changes.ite (State.clearCause_changes (sub_of hL rfl) h3 _) h3

end Sys2Proof.Machine
end

