-- ==== Sys2Proof/Laws/ChangesInPicture.lean ====
section
/-! SUPPORT. What each function of Picture.lean changes at most: one lemma for each. -/

namespace Sys2Proof.Machine

theorem setSamples_changes {L : List Part} {s t0 : State} (hL : sub [.mem] L = true) (h0t : Changes L s t0) (a1 : Nat) (a2 : Bool) (a3 : Nat) (a4 : List Nat) :
    Changes L s (setSamples t0 a1 a2 a3 a4) := by
  unfold setSamples
  exact Changes.ite (State.setMem_changes (sub_of hL rfl) h0t _ _) (State.setMem_changes (sub_of hL rfl) h0t _ _)

theorem setBlock_changes {L : List Part} {s t0 : State} (hL : sub [.mem] L = true) (h0t : Changes L s t0) (a1 : Sys2Proof.Machine.Pic) (a2 : Nat) (a3 : Nat) (a4 : Nat) (a5 : Nat) (a6 : List Nat) :
    Changes L s (setBlock t0 a1 a2 a3 a4 a5 a6) := by
  unfold setBlock
  extract_lets -merge -useContext x0 x1 x2 x3 x4 x5
  try clear_value x0 x1 x2 x3 x4
  have h6 : Changes L s x5 := Changes.foldl (fun x7 _ h8 => (setSamples_changes (sub_of hL rfl) h8 _ _ _ _)) h0t
  try clear_value x5
  refine Changes.foldl (fun x11 _ h12 => ?_) ?_
  · extract_lets -merge -useContext x13 x14
    try clear_value x13 x14
    exact setSamples_changes (sub_of hL rfl) h12 _ _ _ _
  · exact h6

theorem readDone_changes {L : List Part} {s t0 : State} (hL : sub [.hbm] L = true) (h0t : Changes L s t0) (a1 : Nat) (a2 : List (Nat × Nat)) :
    Changes L s (readDone t0 a1 a2) := by
  unfold readDone
  exact Changes.upd [.hbm] (sub_of hL rfl) h0t rfl rfl rfl rfl (Nat.le_refl _) (fun p hp => by cases p <;> first | rfl | exact ⟨rfl, rfl⟩ | exact absurd (by decide) hp)

theorem failsHandled_changes {L : List Part} {s t0 : State} (hL : sub [.hbm] L = true) (h0t : Changes L s t0) (a1 : Nat) :
    Changes L s (failsHandled t0 a1) := by
  unfold failsHandled
  exact Changes.upd [.hbm] (sub_of hL rfl) h0t rfl rfl rfl rfl (Nat.le_refl _) (fun p hp => by cases p <;> first | rfl | exact ⟨rfl, rfl⟩ | exact absurd (by decide) hp)

end Sys2Proof.Machine
end

