-- ==== Sys2Proof/Laws/ChangesInGleaner.lean ====
section
/-! SUPPORT. What each function of Gleaner.lean changes at most: one lemma for each. -/

namespace Sys2Proof.Machine

theorem State.setRc_changes {L : List Part} {s t0 : State} (hL : sub [.chans] L = true) (h0t : Changes L s t0) (a1 : Nat) (a2 : Nat) (a3 : Sys2Proof.Machine.RcSt) :
    Changes L s (State.setRc t0 a1 a2 a3) := by
  unfold State.setRc
  exact State.modChan_changes (sub_of hL rfl) h0t _ _

theorem State.noteReady_changes {L : List Part} {s t0 : State} (hL : sub [.chans] L = true) (h0t : Changes L s t0) (a1 : Nat) :
    Changes L s (State.noteReady t0 a1) := by
  unfold State.noteReady
  extract_lets -merge -useContext x0
  try clear_value x0
  refine Changes.ite ?_ ?_
  · exact h0t
  · refine Changes.foldl (fun x5 _ h6 => ?_) ?_
    · extract_lets -merge -useContext x7 x8 x9
      try clear_value x7 x8 x9
      exact State.setChan_changes (sub_of hL rfl) h6 _ _
    · exact h0t

theorem cutPictures_changes {L : List Part} {s t0 : State} (hL : sub [.chans] L = true) (h0t : Changes L s t0) (a1 : Nat) (a2 : Nat) :
    Changes L s (cutPictures t0 a1 a2) := by
  unfold cutPictures
  extract_lets -merge -useContext x0
  try clear_value x0
  refine Changes.foldl (fun x3 _ h4 => ?_) ?_
  · extract_lets -merge -useContext x5 x6 x7
    try clear_value x5 x6 x7
    exact Changes.ite (State.setRc_changes (sub_of hL rfl) h4 _ _ _) (Changes.ite (State.setRc_changes (sub_of hL rfl) h4 _ _ _) h4)
  · exact h0t

theorem storeRecords_changes {L : List Part} {s t0 : State} (hL : sub [.mem] L = true) (h0t : Changes L s t0) (a1 : Nat) (a2 : Nat) (a3 : List Sys2Proof.Machine.Cell) :
    Changes L s (storeRecords t0 a1 a2 a3) := by
  unfold storeRecords
  extract_lets -merge -useContext x0
  try clear_value x0
  exact State.setMem_changes (sub_of hL rfl) h0t _ _

theorem gleanRow_changes {L : List Part} {s t0 : State} (hL : sub [.regs, .chans, .hbm, .mem] L = true) (h0t : Changes L s t0) (a1 : Nat) (a2 : Nat) :
    Changes L s (gleanRow t0 a1 a2) := by
  unfold gleanRow
  extract_lets -merge -useContext x0 x1 x2 x3 x4 x5 x6 x7 x8 x9 x10 x11 x12 x13 x14 x15 x16 x17 x18 x19 x20
  try clear_value x0 x1 x2 x3 x4 x5 x6 x7 x8 x9 x10 x11 x12 x13 x14 x15 x16 x17
  have h21 : Changes L s x18 := readDone_changes (sub_of hL rfl) (storeRecords_changes (sub_of hL rfl) (State.setChan_changes (sub_of hL rfl) h0t _ _) _ _ _) _ _
  have h22 : Changes L s x19 := Changes.ite (State.setF_changes (sub_of hL rfl) h21 _ _ _ _) h21
  have h23 : Changes L s x20 := Changes.ite (cutPictures_changes (sub_of hL rfl) (State.inc32_changes (sub_of hL rfl) h22 _) _ _) h22
  try clear_value x18 x19 x20
  exact State.noteReady_changes (sub_of hL rfl) h23 _

theorem failRecords_changes {L : List Part} {s t0 : State} (hL : sub [.chans] L = true) (h0t : Changes L s t0) (a1 : Nat) (a2 : Nat) :
    Changes L s (failRecords t0 a1 a2) := by
  unfold failRecords
  extract_lets -merge -useContext x0
  try clear_value x0
  exact Changes.foldl (fun x1 _ h2 => (State.modChan_changes (sub_of hL rfl) h2 _ _)) h0t

theorem gleanerRecords_changes {L : List Part} {s t0 : State} (hL : sub [.regs, .stp, .chans, .hbm, .mem] L = true) (h0t : Changes L s t0) (a1 : Nat) (a2 : Nat) :
    Changes L s (gleanerRecords t0 a1 a2) := by
  unfold gleanerRecords
  extract_lets -merge -useContext x0 x1
  try clear_value x0 x1
  refine Changes.ite ?_ ?_
  · exact h0t
  · split
    · rename_i x2 x3 heq4
      exact gleanRow_changes (sub_of hL rfl) (State.toPos_changes (sub_of hL rfl) h0t _) _ _
    · rename_i x5 heq6
      exact h0t

end Sys2Proof.Machine
end

