-- ==== Sys2Proof/Laws/ChangesInEngines.lean ====
section
/-! SUPPORT. What each function of Engines.lean changes at most: one lemma for each. -/

namespace Sys2Proof.Machine

theorem latchTarget_changes {L : List Part} {s t0 : State} (hL : sub [.regs] L = true) (h0t : Changes L s t0) (a1 : Nat) (a2 : Sys2Proof.Machine.ChanCfg) (a3 : Sys2Proof.Machine.RendCfg) (a4 : Nat) :
    Changes L s (latchTarget t0 a1 a2 a3 a4) := by
  unfold latchTarget
  extract_lets -merge -useContext x0
  try clear_value x0
  exact Changes.ite (State.setF_changes (sub_of hL rfl) (State.setN_changes (sub_of hL rfl) h0t _ _) _ _ _ _) (Changes.ite (State.setBit_changes (sub_of hL rfl) (State.setF_changes (sub_of hL rfl) (State.setReg_changes (sub_of hL rfl) h0t _ _) _ _ _ _) _ _ _) (State.evt_changes (sub_of hL rfl) (State.inc32_changes (sub_of hL rfl) h0t _) _ _))

theorem enterPicture_changes {L : List Part} {s t0 : State} (hL : sub [.regs, .chans] L = true) (h0t : Changes L s t0) (a1 : Nat) (a2 : Sys2Proof.Machine.ChanCfg) (a3 : Sys2Proof.Machine.RendCfg) (a4 : Nat) :
    Changes L s (enterPicture t0 a1 a2 a3 a4) := by
  unfold enterPicture
  extract_lets -merge -useContext x0 x1 x2 x3
  try clear_value x0 x1 x2
  have h4 : Changes L s x3 := State.setRc_changes (sub_of hL rfl) h0t _ _ _
  try clear_value x3
  exact Changes.ite (latchTarget_changes (sub_of hL rfl) h4 _ _ _ _) h4

theorem enterUnit_changes {L : List Part} {s t0 : State} (hL : sub [.regs, .chans] L = true) (h0t : Changes L s t0) (a1 : Nat) (a2 : Sys2Proof.Machine.ChanCfg) (a3 : Sys2Proof.Machine.RendCfg) (a4 : Nat) (a5 : Nat × Nat) :
    Changes L s (enterUnit t0 a1 a2 a3 a4 a5) := by
  unfold enterUnit
  extract_lets -merge -useContext x0 x1 x2 x3 x4 x5 x6 x7 x8 x9 x10
  try clear_value x1 x2 x3 x4 x5 x6 x7 x8 x9 x10
  have h11 : Changes L s x0 := Changes.ite h0t (enterPicture_changes (sub_of hL rfl) h0t _ _ _ _)
  try clear_value x0
  split
  · rename_i x12 heq13
    exact h11
  · rename_i x14 x15 heq16
    split
    rename_i x17 x18 x19 heq20
    extract_lets -merge -useContext x21 x22 x23 x24 x25 x26
    try clear_value x21 x22 x23 x24 x25 x26
    exact State.setN_changes (sub_of hL rfl) (State.setRc_changes (sub_of hL rfl) h11 _ _ _) _ _

theorem modUnit_changes {L : List Part} {s t0 : State} (hL : sub [.chans] L = true) (h0t : Changes L s t0) (a1 : Nat) (a2 : Nat) (a3 : Nat) (a4 : Nat) (a5 : Sys2Proof.Machine.UnitRc → Sys2Proof.Machine.UnitRc) :
    Changes L s (modUnit t0 a1 a2 a3 a4 a5) := by
  unfold modUnit
  extract_lets -merge -useContext x0
  try clear_value x0
  exact State.setRc_changes (sub_of hL rfl) h0t _ _ _

theorem modPic_changes {L : List Part} {s t0 : State} (hL : sub [.chans] L = true) (h0t : Changes L s t0) (a1 : Nat) (a2 : Nat) (a3 : Nat) (a4 : Sys2Proof.Machine.PicInfo → Sys2Proof.Machine.PicInfo) :
    Changes L s (modPic t0 a1 a2 a3 a4) := by
  unfold modPic
  extract_lets -merge -useContext x0
  try clear_value x0
  exact State.setRc_changes (sub_of hL rfl) h0t _ _ _

theorem modTile_changes {L : List Part} {s t0 : State} (hL : sub [.chans] L = true) (h0t : Changes L s t0) (a1 : Nat) (a2 : Nat) (a3 : Nat) (a4 : Nat) (a5 : Nat) (a6 : Sys2Proof.Machine.TileRc → Sys2Proof.Machine.TileRc) :
    Changes L s (modTile t0 a1 a2 a3 a4 a5 a6) := by
  unfold modTile
  exact modUnit_changes (sub_of hL rfl) h0t _ _ _ _ _

theorem loadWindow_changes {L : List Part} {s t0 : State} (hL : sub [.mill] L = true) (h0t : Changes L s t0) (a1 : Nat) (a2 : Sys2Proof.Machine.Ctx) (a3 : Sys2Proof.Machine.ChanCfg) (a4 : Sys2Proof.Machine.RendCfg) (a5 : Sys2Proof.Machine.PicInfo) (a6 : Nat) :
    Changes L s (loadWindow t0 a1 a2 a3 a4 a5 a6) := by
  unfold loadWindow
  extract_lets -merge -useContext x0 x1 x2 x3 x4 x5 x6
  try clear_value x0 x1 x2 x3 x4 x5 x6
  exact Changes.set_mill (sub_of hL rfl) h0t _

theorem noteCtu_changes {L : List Part} {s t0 : State} (hL : sub [.chans] L = true) (h0t : Changes L s t0) (a1 : Nat) (a2 : Sys2Proof.Machine.RendCfg) (a3 : Sys2Proof.Machine.PicInfo) (a4 : Bool) (a5 : Nat) (a6 : Nat) (a7 : Int) (a8 : Sys2Proof.CtuCode) :
    Changes L s (noteCtu t0 a1 a2 a3 a4 a5 a6 a7 a8) := by
  unfold noteCtu
  extract_lets -merge -useContext x0 x1 x2 x3
  try clear_value x0 x1 x2 x3
  exact State.setRc_changes (sub_of hL rfl) h0t _ _ _

theorem startRow_changes {L : List Part} {s t0 : State} (hL : sub [.regs, .chans, .eng, .mill] L = true) (h0t : Changes L s t0) (a1 : Nat) (a2 : Nat) (a3 : Sys2Proof.Machine.Ctx) (a4 : Nat) (a5 : Nat) :
    Changes L s (startRow t0 a1 a2 a3 a4 a5) := by
  unfold startRow
  extract_lets -merge -useContext x0 x1
  try clear_value x0 x1
  split
  · rename_i x2 heq3
    exact h0t
  · rename_i x4 x5 heq6
    extract_lets -merge -useContext x7 x8
    try clear_value x7
    have h9 : Changes L s x8 := Changes.ite h0t (enterUnit_changes (sub_of hL rfl) h0t _ _ _ _ _)
    try clear_value x8
    split
    · rename_i x10 heq11
      exact h9
    · rename_i x12 x13 heq14
      extract_lets -merge -useContext x15 x16 x17 x18
      try clear_value x16
      have h19 : Changes L s x15 := modTile_changes (sub_of hL rfl) h9 _ _ _ _ _ _
      have h20 : Changes L s x17 := loadWindow_changes (sub_of hL rfl) (State.setSlot_changes (sub_of hL rfl) h19 _ _) _ _ _ _ _ _
      have h21 : Changes L s x18 := State.setN_changes (sub_of hL rfl) h20 _ _
      try clear_value x15 x17 x18
      exact Changes.ite (State.evt_changes (sub_of hL rfl) (modPic_changes (sub_of hL rfl) h21 _ _ _ _) _ _) h21

theorem beginRow_changes {L : List Part} {s t0 : State} (hL : sub [.regs, .chans, .eng, .mill] L = true) (h0t : Changes L s t0) (a1 : Nat) :
    Changes L s (beginRow t0 a1) := by
  unfold beginRow
  split
  · rename_i x0 x1 x2 x3 x4 x5 x6 x7 heq8 heq9 heq10
    exact startRow_changes (sub_of hL rfl) h0t _ _ _ _ _
  · rename_i x11 x12 x13 heq14
    exact h0t

theorem oweRefresh_changes {L : List Part} {s t0 : State} (hL : sub [.regs, .chans] L = true) (h0t : Changes L s t0) (a1 : Nat) (a2 : Sys2Proof.Machine.RendCfg) (a3 : Sys2Proof.Machine.PicInfo) (a4 : List (Nat × Nat)) (a5 : Option Nat) :
    Changes L s (oweRefresh t0 a1 a2 a3 a4 a5) := by
  unfold oweRefresh
  extract_lets -merge -useContext x0 x1 x2
  try clear_value x0 x1
  have h3 : Changes L s x2 := State.setRc_changes (sub_of hL rfl) h0t _ _ _
  try clear_value x2
  split
  · rename_i x4 x5 heq6
    refine Changes.ite ?_ ?_
    · exact h0t
    · split
      · rename_i x7 x8
        exact Changes.ite (State.evt_changes (sub_of hL rfl) h3 _ _) h3
      · rename_i x9
        exact h3
  · rename_i x10 heq11
    exact h0t

theorem ctuDecide_changes {L : List Part} {s t0 : State} (hL : sub [.regs, .chans, .eng] L = true) (h0t : Changes L s t0) (a1 : Nat) :
    Changes L s (ctuDecide t0 a1) := by
  unfold ctuDecide
  split
  · rename_i x0 x1 x2 x3 heq4 heq5
    extract_lets -merge -useContext x6 x7
    try clear_value x6 x7
    split
    · rename_i x8 heq9
      exact h0t
    · rename_i x10 x11 heq12
      extract_lets -merge -useContext x13 x14 x15 x16
      try clear_value x13 x14 x15 x16
      split
      · rename_i x17 x18 x19 x20 x21 x22 heq23 heq24 heq25
        split
        · rename_i x26 heq27
          exact h0t
        · rename_i x28 x29 heq30
          refine Changes.ite ?_ ?_
          · exact h0t
          · extract_lets -merge -useContext x31 x32 x33 x34 x35 x36
            try clear_value x31 x32 x33 x34 x35 x36
            split
            rename_i x37 x38 x39 x40 heq41
            extract_lets -merge -useContext x42 x43 x44 x45 x46 x47 x48
            try clear_value x42 x44
            have h49 : Changes L s x43 := modTile_changes (sub_of hL rfl) h0t _ _ _ _ _ _
            have h50 : Changes L s x45 := State.setSlot_changes (sub_of hL rfl) h49 _ _
            have h51 : Changes L s x46 := noteCtu_changes (sub_of hL rfl) h50 _ _ _ _ _ _ _ _
            have h52 : Changes L s x47 := modPic_changes (sub_of hL rfl) h51 _ _ _ _
            have h53 : Changes L s x48 := Changes.ite h52 (State.evt_changes (sub_of hL rfl) (State.inc32_changes (sub_of hL rfl) h52 _) _ _)
            try clear_value x43 x45 x46 x47 x48
            exact Changes.ite (Changes.ite (oweRefresh_changes (sub_of hL rfl) h53 _ _ _ _ _) h53) h52
      · rename_i x54 x55 x56 heq57
        exact h0t
  · rename_i x58 x59 heq60
    exact h0t

theorem decideRest_changes {L : List Part} {s t2 : State} (hL : sub [.regs, .chans, .eng] L = true) (h2t : Changes L s t2) (a0 a1 : Nat) :
    Changes L s (decideRest a0 a1 t2) := by
  induction a1 generalizing t2 with
  | zero => exact h2t
  | succ n ih => exact ih (ctuDecide_changes (sub_of hL rfl) h2t _)

theorem dropReady_changes {L : List Part} {s t0 : State} (hL : sub [.chans] L = true) (h0t : Changes L s t0) (a1 : Nat) (a2 : Sys2Proof.Machine.ChanCfg) (a3 : Sys2Proof.Machine.RendCfg) :
    Changes L s (dropReady t0 a1 a2 a3) := by
  unfold dropReady
  extract_lets -merge -useContext x0 x1 x2 x3 x4
  try clear_value x0 x1 x2 x3 x4
  exact State.modChan_changes (sub_of hL rfl) h0t _ _

theorem addBits_changes {L : List Part} {s t0 : State} (hL : sub [.chans] L = true) (h0t : Changes L s t0) (a1 : Nat) (a2 : Nat) (a3 : Nat) (a4 : Nat) (a5 : Nat) (a6 : Nat) :
    Changes L s (addBits t0 a1 a2 a3 a4 a5 a6) := by
  unfold addBits
  extract_lets -merge -useContext x0 x1 x2
  try clear_value x2
  have h3 : Changes L s x0 := modUnit_changes (sub_of hL rfl) h0t _ _ _ _ _
  have h4 : Changes L s x1 := modPic_changes (sub_of hL rfl) h3 _ _ _ _
  try clear_value x0 x1
  exact State.setRc_changes (sub_of hL rfl) h4 _ _ _

theorem passRows_changes {L : List Part} {s t0 : State} (hL : sub [.chans] L = true) (h0t : Changes L s t0) (a1 : Nat) (a2 : Nat) (a3 : Nat) (a4 : Nat) :
    Changes L s (passRows t0 a1 a2 a3 a4) := by
  unfold passRows
  extract_lets -merge -useContext x0
  try clear_value x0
  exact State.setRc_changes (sub_of hL rfl) h0t _ _ _

theorem endSlice_changes {L : List Part} {s t0 : State} (hL : sub [.regs, .chans] L = true) (h0t : Changes L s t0) (a1 : Nat) (a2 : Sys2Proof.Machine.ChanCfg) (a3 : Sys2Proof.Machine.RendCfg) (a4 : Nat) (a5 : Nat × Nat) :
    Changes L s (endSlice t0 a1 a2 a3 a4 a5) := by
  unfold endSlice
  extract_lets -merge -useContext x0 x1 x2 x3 x4
  try clear_value x1 x2 x3 x4
  have h5 : Changes L s x0 := modUnit_changes (sub_of hL rfl) h0t _ _ _ _ _
  try clear_value x0
  split
  · rename_i x6 heq7
    exact h5
  · rename_i x8 x9 heq10
    refine Changes.ite ?_ ?_
    · exact h5
    · extract_lets -merge -useContext x11 x12 x13
      try clear_value x11
      have h14 : Changes L s x12 := State.setRc_changes (sub_of hL rfl) h5 _ _ _
      have h15 : Changes L s x13 := State.setN_changes (sub_of hL rfl) h14 _ _
      try clear_value x12 x13
      split
      · rename_i x16 x17 x18
        exact State.setN_changes (sub_of hL rfl) h15 _ _
      · rename_i x19 x20 heq21
        exact h15

theorem passForTest_changes {L : List Part} {s t0 : State} (hL : sub [.regs, .eng] L = true) (h0t : Changes L s t0) (a1 : Nat) :
    Changes L s (passForTest t0 a1) := by
  unfold passForTest
  split
  · rename_i x0 heq1
    exact h0t
  · rename_i x2 x3 heq4
    refine Changes.ite ?_ ?_
    · exact h0t
    · split
      · rename_i x5 x6 x7 heq8
        exact State.guarantee_changes (sub_of hL rfl) (State.syncSpares_changes (sub_of hL rfl) (State.syncEngine_changes (sub_of hL rfl) (State.giveSlot_changes (sub_of hL rfl) (Changes.set_eng (sub_of hL rfl) h0t _) _ _) _))
      · rename_i x9 x10 x11 heq12 heq13
        exact State.guarantee_changes (sub_of hL rfl) (State.syncSpares_changes (sub_of hL rfl) (State.syncEngine_changes (sub_of hL rfl) (State.giveSlot_changes (sub_of hL rfl) (Changes.set_eng (sub_of hL rfl) h0t _) _ _) _))
      · rename_i x14 x15 heq16 heq17
        exact h0t

theorem startResolution_changes {L : List Part} {s t0 : State} (hL : sub [.regs, .eng, .twin] L = true) (h0t : Changes L s t0) (a1 : Sys2Proof.Machine.Resolve) :
    Changes L s (startResolution t0 a1) := by
  unfold startResolution
  extract_lets -merge -useContext x0 x1 x2
  try clear_value x0
  have h3 : Changes L s x1 := Changes.set_twin (sub_of hL rfl) h0t _
  have h4 : Changes L s x2 := State.setBit_changes (sub_of hL rfl) (State.setN_changes (sub_of hL rfl) h3 _ _) _ _ _
  try clear_value x1 x2
  exact passForTest_changes (sub_of hL rfl) h4 _

theorem noteMismatch_changes {L : List Part} {s t0 : State} (hL : sub [.regs, .eng, .faults, .twin] L = true) (h0t : Changes L s t0) (a1 : Sys2Proof.CrcRec) :
    Changes L s (noteMismatch t0 a1) := by
  unfold noteMismatch
  extract_lets -merge -useContext x0 x1 x2 x3 x4 x5 x6 x7
  try clear_value x0 x2 x5 x6 x7
  have h8 : Changes L s x1 := State.inc32_changes (sub_of hL rfl) h0t _
  have h9 : Changes L s x3 := Changes.set_twin (sub_of hL rfl) h8 _
  have h10 : Changes L s x4 := State.raise_changes (sub_of hL rfl) (State.evt_changes (sub_of hL rfl) (State.setN_changes (sub_of hL rfl) h9 _ _) _ _) _ _ _ _
  try clear_value x1 x3 x4
  exact Changes.ite h8 (Changes.ite (Changes.set_twin (sub_of hL rfl) h10 _) (startResolution_changes (sub_of hL rfl) h10 _))

theorem comparePair_changes {L : List Part} {s t0 : State} (hL : sub [.regs, .eng, .faults, .twin] L = true) (h0t : Changes L s t0) (a1 : Sys2Proof.CrcRec) (a2 : Sys2Proof.CrcRec) :
    Changes L s (comparePair t0 a1 a2) := by
  unfold comparePair
  extract_lets -merge -useContext x0
  have h1 : Changes L s x0 := State.inc32_changes (sub_of hL rfl) h0t _
  try clear_value x0
  exact Changes.ite h1 (noteMismatch_changes (sub_of hL rfl) h1 _)

theorem ownRecord_changes {L : List Part} {s t0 : State} (hL : sub [.regs, .eng, .faults, .twin] L = true) (h0t : Changes L s t0) (a1 : Sys2Proof.CrcRec) :
    Changes L s (ownRecord t0 a1) := by
  unfold ownRecord
  split
  · rename_i x0 x1 heq2
    exact comparePair_changes (sub_of hL rfl) (Changes.set_twin (sub_of hL rfl) h0t _) _ _
  · rename_i x3 heq4
    exact Changes.set_twin (sub_of hL rfl) h0t _

theorem twinRecord_changes {L : List Part} {s t0 : State} (hL : sub [.regs, .eng, .faults, .twin] L = true) (h0t : Changes L s t0) (a1 : Sys2Proof.CrcRec) :
    Changes L s (twinRecord t0 a1) := by
  unfold twinRecord
  split
  · rename_i x0 x1 heq2
    exact comparePair_changes (sub_of hL rfl) (Changes.set_twin (sub_of hL rfl) h0t _) _ _
  · rename_i x3 heq4
    exact Changes.set_twin (sub_of hL rfl) h0t _

theorem sendSliceCrc_changes {L : List Part} {s t0 : State} (hL : sub [.regs, .eng, .hbm, .faults, .twin, .sent] L = true) (h0t : Changes L s t0) (a1 : Nat) (a2 : Nat) (a3 : Nat) (a4 : Nat) (a5 : Bool) (a6 : Nat) (a7 : BitVec 32) :
    Changes L s (sendSliceCrc t0 a1 a2 a3 a4 a5 a6 a7) := by
  unfold sendSliceCrc
  refine Changes.ite ?_ ?_
  · extract_lets -merge -useContext x0 x1 x2
    try clear_value x0 x1 x2
    exact ownRecord_changes (sub_of hL rfl) (Changes.ite (failsHandled_changes (sub_of hL rfl) h0t _) (Changes.set_sent (sub_of hL rfl) h0t _)) _
  · exact h0t

theorem formSlice_changes {L : List Part} {s t0 : State} (hL : sub [.regs, .chans, .eng, .hbm, .faults, .twin, .sent] L = true) (h0t : Changes L s t0) (a1 : Nat) (a2 : Sys2Proof.Machine.ChanCfg) (a3 : Sys2Proof.Machine.RendCfg) (a4 : Sys2Proof.Machine.PicInfo) (a5 : Nat × Nat) (a6 : Sys2Proof.SliceHead) (a7 : List Sys2Proof.CtuCode) (a8 : Bool) :
    Changes L s (formSlice t0 a1 a2 a3 a4 a5 a6 a7 a8) := by
  unfold formSlice
  extract_lets -merge -useContext x0 x1 x2 x3 x4 x5 x6 x7
  try clear_value x0 x1 x2 x3 x4 x5
  have h8 : Changes L s x6 := State.setChan_changes (sub_of hL rfl) h0t _ _
  have h9 : Changes L s x7 := by
    unfold x7
    split
    · rename_i x10 x11 heq12
      exact State.setReg_changes (sub_of hL rfl) h8 _ _
    · rename_i x13 heq14
      exact h8
  try clear_value x6 x7
  exact sendSliceCrc_changes (sub_of hL rfl) h9 _ _ _ _ _ _ _

theorem reconUpdate_changes {L : List Part} {s t0 : State} (hL : sub [.regs, .chans, .eng] L = true) (h0t : Changes L s t0) (a1 : Nat) (a2 : Sys2Proof.Machine.ChanCfg) (a3 : Sys2Proof.Machine.RendCfg) (a4 : Nat) (a5 : Nat) :
    Changes L s (reconUpdate t0 a1 a2 a3 a4 a5) := by
  unfold reconUpdate
  extract_lets -merge -useContext x0 x1
  try clear_value x0
  have h2 : Changes L s x1 := State.setRc_changes (sub_of hL rfl) h0t _ _ _
  try clear_value x1
  split
  · rename_i x3 heq4
    exact h2
  · rename_i x5 x6 heq7
    refine Changes.foldl (fun x10 _ h11 => ?_) ?_
    · extract_lets -merge -useContext x12 x13 x14
      try clear_value x12 x13
      have h15 : Changes L s x14 := Changes.set_eng (sub_of hL rfl) h11 _
      try clear_value x14
      split
      · rename_i x16 x17 heq18
        exact State.showRecon_changes (sub_of hL rfl) h15 _ _
      · rename_i x19 heq20
        exact h15
    · exact h2

theorem addHash_changes {L : List Part} {s t0 : State} (hL : sub [.chans] L = true) (h0t : Changes L s t0) (a1 : Nat) (a2 : Sys2Proof.Machine.ChanCfg) (a3 : Sys2Proof.Machine.RendCfg) (a4 : Sys2Proof.Machine.PicInfo) :
    Changes L s (addHash t0 a1 a2 a3 a4) := by
  unfold addHash
  extract_lets -merge -useContext x0 x1 x2
  try clear_value x0 x1 x2
  exact Changes.ite (State.modChan_changes (sub_of hL rfl) h0t _ _) h0t

theorem filterOne_changes {L : List Part} {s t0 : State} (hL : sub [.mem] L = true) (h0t : Changes L s t0) (a1 : Nat) (a2 : Sys2Proof.Machine.ChanCfg) (a3 : Sys2Proof.Machine.RendCfg) (a4 : Sys2Proof.Machine.PicInfo) (a5 : Nat) (a6 : Nat) :
    Changes L s (filterOne t0 a1 a2 a3 a4 a5 a6) := by
  unfold filterOne
  extract_lets -merge -useContext x0 x1 x2 x3 x4 x5 x6
  try clear_value x0 x1 x2 x3 x4 x5 x6
  exact setBlock_changes (sub_of hL rfl) h0t _ _ _ _ _ _

theorem filterRows_changes {L : List Part} {s t4 : State} (hL : sub [.regs, .chans, .eng, .mem] L = true) (h4t : Changes L s t4) (a0 : Nat)
    (a1 : ChanCfg) (a2 : RendCfg) (a3 : Nat) : Changes L s (filterRows a0 a1 a2 a3 t4) := by
  induction a3 generalizing t4 with
  | zero => exact h4t
  | succ n ih =>
    unfold filterRows
    dsimp only
    split
    · exact h4t
    · have h : ∀ (p : PicInfo) (row : Nat) (l : List Nat), Changes L s (l.foldl (fun t col => filterOne t a0 a1 a2 p row col) t4) :=
        fun _ _ _ => Changes.foldl (fun _ _ h => filterOne_changes (sub_of hL rfl) h _ _ _ _ _ _) h4t
      refine Changes.ite (ih ?_) h4t
      have g := fun p row l x => State.setRc_changes (sub_of hL rfl) (h p row l) a0 a2.r x
      exact Changes.ite (addHash_changes (sub_of hL rfl) (reconUpdate_changes (sub_of hL rfl) (g _ _ _ _) _ _ _ _ _) _ _ _ _) (g _ _ _ _)

theorem filterKnown_changes {L : List Part} {s t0 : State} (hL : sub [.regs, .chans, .eng, .mem] L = true) (h0t : Changes L s t0) (a1 : Nat) (a2 : Sys2Proof.Machine.ChanCfg) (a3 : Sys2Proof.Machine.RendCfg) :
    Changes L s (filterKnown t0 a1 a2 a3) := by
  unfold filterKnown
  exact filterRows_changes (sub_of hL rfl) h0t _ _ _ _

theorem skipCtus_changes {L : List Part} {s t0 : State} (hL : sub [.chans] L = true) (h0t : Changes L s t0) (a1 : Nat) (a2 : Sys2Proof.Machine.ChanCfg) (a3 : Sys2Proof.Machine.RendCfg) (a4 : Sys2Proof.Machine.PicInfo) (a5 : Sys2Proof.SliceHead) (a6 : List (Nat × Nat)) :
    Changes L s (skipCtus t0 a1 a2 a3 a4 a5 a6).1 := by
  unfold skipCtus
  extract_lets -merge -useContext x0 x1
  try clear_value x0
  have h2 : Changes L s x1 := Changes.ite (State.draw_changes h0t) h0t
  try clear_value x1
  refine Changes.foldl_fst (fun x5 _ h6 => ?_) ?_
  · extract_lets -merge -useContext x7 x8
    try clear_value x7 x8
    exact noteCtu_changes (sub_of hL rfl) h6 _ _ _ _ _ _ _ _
  · exact h2

theorem reportEmerg_changes {L : List Part} {s t0 : State} (hL : sub [.regs, .chans, .faults] L = true) (h0t : Changes L s t0) (a1 : Nat) (a2 : Nat) (a3 : Nat) (a4 : Nat) (a5 : Nat) (a6 : Nat) (a7 : Option Nat) (a8 : Sys2Proof.Machine.EmergCause) :
    Changes L s (reportEmerg t0 a1 a2 a3 a4 a5 a6 a7 a8) := by
  unfold reportEmerg
  extract_lets -merge -useContext x0 x1 x2 x3
  try clear_value x0 x3
  have h4 : Changes L s x1 := by
    unfold x1
    split
    · rename_i x5 x6
      exact State.evt_changes (sub_of hL rfl) (State.incSat_changes (sub_of hL rfl) h0t _ _ _ _) _ _
    · rename_i x7
      exact h0t
  have h8 : Changes L s x2 := State.modChan_changes (sub_of hL rfl) h4 _ _
  try clear_value x1 x2
  split
  · rename_i x9
    exact State.raise_changes (sub_of hL rfl) (State.evt_changes (sub_of hL rfl) (State.setN_changes (sub_of hL rfl) (State.inc32_changes (sub_of hL rfl) h8 _) _ _) _ _) _ _ _ _
  · rename_i x10
    exact State.evt_changes (sub_of hL rfl) h8 _ _
  · rename_i x11
    exact h8
  · rename_i x12
    exact h8

theorem abandonRow_changes {L : List Part} {s t0 : State} (hL : sub [.regs, .eng] L = true) (h0t : Changes L s t0) (a1 : Nat) (a2 : Nat) (a3 : Nat) (a4 : Nat) (a5 : Nat × Nat) :
    Changes L s (abandonRow t0 a1 a2 a3 a4 a5) := by
  unfold abandonRow
  split
  · rename_i x0 heq1
    exact h0t
  · rename_i x2 x3 heq4
    split
    · rename_i x5 x6 heq7
      refine Changes.ite ?_ ?_
      · extract_lets -merge -useContext x8 x9
        try clear_value x8
        have h10 : Changes L s x9 := State.setSlot_changes (sub_of hL rfl) h0t _ _
        try clear_value x9
        split
        · rename_i x11 x12 heq13
          exact State.setBit_changes (sub_of hL rfl) h10 _ _ _
        · rename_i x14 heq15
          exact h10
      · exact h0t
    · rename_i x16 heq17
      exact h0t

theorem replaceSlice_changes {L : List Part} {s t0 : State} (hL : sub [.regs, .chans, .eng, .hbm, .mem, .faults, .twin, .sent] L = true) (h0t : Changes L s t0) (a1 : Nat) (a2 : Sys2Proof.Machine.ChanCfg) (a3 : Sys2Proof.Machine.RendCfg) (a4 : Nat) (a5 : Nat) (a6 : Nat × Nat) (a7 : Sys2Proof.Machine.EmergCause) :
    Changes L s (replaceSlice t0 a1 a2 a3 a4 a5 a6 a7) := by
  unfold replaceSlice
  extract_lets -merge -useContext x0 x1 x2 x3 x4
  try clear_value x2 x3 x4
  have h5 : Changes L s x0 := abandonRow_changes (sub_of hL rfl) h0t _ _ _ _ _
  have h6 : Changes L s x1 := Changes.ite h5 (enterUnit_changes (sub_of hL rfl) h5 _ _ _ _ _)
  try clear_value x0 x1
  split
  · rename_i x7 x8 x9 x10 heq11 heq12
    extract_lets -merge -useContext x13 x14 x15 x16 x17 x18 x19 x20 x21 x22 x23
    try clear_value x13 x14 x17 x18
    have h24 : Changes L s x15.1 := skipCtus_changes (sub_of hL rfl) h6 _ _ _ _ _ _
    have h25 : Changes L s x16 := h24
    have h26 : Changes L s x19 := State.setRc_changes (sub_of hL rfl) h25 _ _ _
    have h27 : Changes L s x20 := addBits_changes (sub_of hL rfl) h26 _ _ _ _ _ _
    have h28 : Changes L s x21 := passRows_changes (sub_of hL rfl) h27 _ _ _ _
    have h29 : Changes L s x22 := formSlice_changes (sub_of hL rfl) h28 _ _ _ _ _ _ _ _
    have h30 : Changes L s x23 := oweRefresh_changes (sub_of hL rfl) (reportEmerg_changes (sub_of hL rfl) h29 _ _ _ _ _ _ _ _) _ _ _ _ _
    try clear_value x15 x16 x19 x20 x21 x22 x23
    exact dropReady_changes (sub_of hL rfl) (filterKnown_changes (sub_of hL rfl) (endSlice_changes (sub_of hL rfl) h30 _ _ _ _ _) _ _ _) _ _ _
  · rename_i x31 x32 heq33
    exact h6

theorem abandonSlice_changes {L : List Part} {s t0 : State} (hL : sub [.regs, .chans, .eng, .hbm, .mem, .faults, .twin, .sent] L = true) (h0t : Changes L s t0) (a1 : Nat) :
    Changes L s (abandonSlice t0 a1) := by
  unfold abandonSlice
  split
  · rename_i x0 x1 x2 x3 heq4 heq5
    split
    · rename_i x6 x7 heq8
      exact State.evt_changes (sub_of hL rfl) (replaceSlice_changes (sub_of hL rfl) h0t _ _ _ _ _ _ _) _ _
    · rename_i x9 heq10
      exact h0t
  · rename_i x11 x12 heq13
    exact h0t

theorem windowFails_changes {L : List Part} {s t0 : State} (hL : sub [.regs, .chans, .eng, .hbm, .mem, .faults, .twin, .sent] L = true) (h0t : Changes L s t0) (a1 : Nat) :
    Changes L s (windowFails t0 a1) := by
  unfold windowFails
  extract_lets -merge -useContext x0
  try clear_value x0
  exact Changes.ite (abandonSlice_changes (sub_of hL rfl) (readDone_changes (sub_of hL rfl) (State.evt_changes (sub_of hL rfl) (State.inc32_changes (sub_of hL rfl) h0t _) _ _) _ _) _) h0t

theorem rowStart_changes {L : List Part} {s t0 : State} (hL : sub [.regs, .chans, .eng, .mill, .hbm, .mem, .faults, .twin, .sent] L = true) (h0t : Changes L s t0) (a1 : Nat) :
    Changes L s (rowStart t0 a1) := by
  unfold rowStart
  exact windowFails_changes (sub_of hL rfl) (beginRow_changes (sub_of hL rfl) h0t _) _

theorem fillLost_changes {L : List Part} {s t0 : State} (hL : sub [.chans] L = true) (h0t : Changes L s t0) (a1 : Nat) (a2 : Sys2Proof.Machine.ChanCfg) (a3 : Sys2Proof.Machine.RendCfg) :
    Changes L s (fillLost t0 a1 a2 a3) := by
  unfold fillLost
  refine Changes.foldl (fun x2 _ h3 => ?_) ?_
  · split
    · rename_i x4 x5 heq6
      extract_lets -merge -useContext x7 x8
      try clear_value x7 x8
      exact skipCtus_changes (sub_of hL rfl) h3 _ _ _ _ _ _
    · rename_i x9 heq10
      exact h3
  · exact h0t

theorem countRow_changes {L : List Part} {s t0 : State} (hL : sub [.regs] L = true) (h0t : Changes L s t0) (a1 : Sys2Proof.Machine.ChanCfg) (a2 : Sys2Proof.Machine.RendCfg) (a3 : Nat) (a4 : Sys2Proof.Machine.Job) (a5 : Nat) (a6 : List Nat) :
    Changes L s (countRow t0 a1 a2 a3 a4 a5 a6) := by
  unfold countRow
  extract_lets -merge -useContext x0 x1 x2
  have h3 : Changes L s x0 := State.setReg64_changes (sub_of hL rfl) (State.inc32_changes (sub_of hL rfl) h0t _) _ _ _
  have h4 : Changes L s x1 := State.incSat_changes (sub_of hL rfl) (State.incSat_changes (sub_of hL rfl) h3 _ _ _ _) _ _ _ _
  have h5 : Changes L s x2 := State.setN_changes (sub_of hL rfl) (State.incSat_changes (sub_of hL rfl) h4 _ _ _ _) _ _
  try clear_value x0 x1 x2
  exact State.setBit_changes (sub_of hL rfl) (State.setN_changes (sub_of hL rfl) h5 _ _) _ _ _

theorem testBoundary_changes {L : List Part} {s t0 : State} (hL : sub [.regs, .eng] L = true) (h0t : Changes L s t0) (a1 : Nat) :
    Changes L s (testBoundary t0 a1) := by
  unfold testBoundary
  split
  · rename_i x0 x1 heq2
    exact Changes.ite (passForTest_changes (sub_of hL rfl) h0t _) h0t
  · rename_i x3 heq4
    exact h0t

theorem rowComplete_changes {L : List Part} {s t0 : State} (hL : sub [.regs, .chans, .eng, .hbm, .mem, .faults, .twin, .sent] L = true) (h0t : Changes L s t0) (a1 : Nat) (a2 : List Nat) (a3 : Nat) :
    Changes L s (rowComplete t0 a1 a2 a3) := by
  unfold rowComplete
  split
  · rename_i x0 x1 x2 x3 heq4 heq5
    extract_lets -merge -useContext x6 x7
    try clear_value x6
    have h8 : Changes L s x7 := State.incSat_changes (sub_of hL rfl) h0t _ _ _ _
    try clear_value x7
    split
    · rename_i x9 heq10
      exact h0t
    · rename_i x11 x12 heq13
      extract_lets -merge -useContext x14 x15 x16 x17 x18 x19 x20 x21 x22 x23 x24 x25 x26 x27
      try clear_value x14 x16 x17 x18 x19 x20 x21
      have h28 : Changes L s x15 := decideRest_changes (sub_of hL rfl) h8 _ _
      have h29 : Changes L s x22 := countRow_changes (sub_of hL rfl) (State.setSlot_changes (sub_of hL rfl) h28 _ _) _ _ _ _ _ _
      have h30 : Changes L s x23 := addBits_changes (sub_of hL rfl) h29 _ _ _ _ _ _
      have h31 : Changes L s x24 := modTile_changes (sub_of hL rfl) h30 _ _ _ _ _ _
      have h32 : Changes L s x25 := passRows_changes (sub_of hL rfl) h31 _ _ _ _
      have h33 : Changes L s x26 := fillLost_changes (sub_of hL rfl) h32 _ _ _
      have h34 : Changes L s x27 := by
        unfold x27
        split
        · rename_i x35 x36 x37 x38 x39 heq40 heq41
          exact endSlice_changes (sub_of hL rfl) (formSlice_changes (sub_of hL rfl) h33 _ _ _ _ _ _ _ _) _ _ _ _ _
        · rename_i x42 x43 x44 x45 heq46
          exact h33
      try clear_value x15 x22 x23 x24 x25 x26 x27
      exact Changes.ite (testBoundary_changes (sub_of hL rfl) (replaceSlice_changes (sub_of hL rfl) h8 _ _ _ _ _ _ _) _) (dropReady_changes (sub_of hL rfl) (testBoundary_changes (sub_of hL rfl) (filterKnown_changes (sub_of hL rfl) h34 _ _ _) _) _ _ _)
  · rename_i x47 x48 heq49
    exact h0t

theorem finishRow_changes {L : List Part} {s t0 : State} (hL : sub [.regs, .chans, .eng, .mill, .hbm, .mem, .faults, .twin, .sent] L = true) (h0t : Changes L s t0) (a1 : Nat) (a2 : Sys2Proof.Machine.ChanCfg) (a3 : Sys2Proof.Machine.RendCfg) (a4 : Nat) :
    Changes L s (finishRow t0 a1 a2 a3 a4) := by
  unfold finishRow
  extract_lets -merge -useContext x0 x1 x2 x3 x4
  try clear_value x0 x1 x2 x3 x4
  split
  · rename_i x5 x6 x7 x8 heq9
    exact rowComplete_changes (sub_of hL rfl) h0t _ _ _
  · rename_i x10 x11 x12 x13 x14 heq15 heq16 heq17
    split
    · rename_i x18 x19 x20 x21 heq22
      extract_lets -merge -useContext x23 x24 x25
      try clear_value x24
      have h26 : Changes L s x23 := rowComplete_changes (sub_of hL rfl) (startRow_changes (sub_of hL rfl) h0t _ _ _ _ _) _ _ _
      have h27 : Changes L s x25 := State.setSlot_changes (sub_of hL rfl) h26 _ _
      try clear_value x23 x25
      exact State.setReg_changes (sub_of hL rfl) (Changes.set_mill (sub_of hL rfl) h27 _) _ _
    · rename_i x28 heq29
      exact replaceSlice_changes (sub_of hL rfl) h0t _ _ _ _ _ _ _
  · rename_i x30 x31 x32 heq33 heq34
    exact replaceSlice_changes (sub_of hL rfl) h0t _ _ _ _ _ _ _

theorem finishRows_changes {L : List Part} {s t6 : State} (hL : sub [.regs, .chans, .eng, .mill, .hbm, .mem, .faults, .twin, .sent] L = true)
    (h6t : Changes L s t6) (a0 : Nat) (a1 : ChanCfg) (a2 : RendCfg) (a3 a4 a5 : Nat) : Changes L s (finishRows a0 a1 a2 a3 a4 a5 t6) := by
  induction a5 generalizing t6 with
  | zero => exact h6t
  | succ n ih => exact Changes.ite h6t (ih (finishRow_changes (sub_of hL rfl) h6t _ _ _ _))

theorem finishSequence_changes {L : List Part} {s t0 : State} (hL : sub [.regs, .chans, .eng, .mill, .hbm, .mem, .faults, .twin, .sent] L = true) (h0t : Changes L s t0) (a1 : Nat) :
    Changes L s (finishSequence t0 a1) := by
  unfold finishSequence
  extract_lets -merge -useContext x0
  try clear_value x0
  refine Changes.ite ?_ ?_
  · exact h0t
  · refine Changes.foldl (fun x5 _ h6 => ?_) ?_
    · extract_lets -merge -useContext x7 x8
      try clear_value x7
      have h9 : Changes L s x8 := Changes.foldl (fun x10 _ h11 => (Changes.ite (replaceSlice_changes (sub_of hL rfl) h11 _ _ _ _ _ _ _) h11)) h6
      try clear_value x8
      exact Changes.foldl (fun x12 _ h13 => (finishRows_changes (sub_of hL rfl) h13 _ _ _ _ _ _)) h9
    · exact h0t

theorem passTile_changes {L : List Part} {s t5 : State} (hL : sub [.regs, .chans, .eng, .hbm, .mem, .faults, .twin, .sent] L = true)
    (h5t : Changes L s t5) (a0 : Nat) (a1 : ChanCfg) (a2 : RendCfg) (a3 a4 : Nat) : Changes L s (passTile a0 a1 a2 a3 a4 t5) := by
  induction a4 generalizing t5 with
  | zero => exact h5t
  | succ n ih => exact Changes.ite (ih (replaceSlice_changes (sub_of hL rfl) h5t _ _ _ _ _ _ _)) h5t

theorem passSlices_changes {L : List Part} {s t0 : State} (hL : sub [.regs, .chans, .eng, .hbm, .mem, .faults, .twin, .sent] L = true) (h0t : Changes L s t0) (a1 : Nat) :
    Changes L s (passSlices t0 a1) := by
  unfold passSlices
  extract_lets -merge -useContext x0 x1
  try clear_value x0
  have hf1 : ∀ y2, Changes L s y2 → Changes L s (x1 y2) := by
    intro y2 h3
    unfold x1
    exact State.modChan_changes (sub_of hL rfl) h3 _ _
  try clear_value x1
  refine Changes.ite ?_ ?_
  · exact h0t
  · refine hf1 _ ?_
    refine Changes.foldl (fun x10 _ h11 => ?_) ?_
    · extract_lets -merge -useContext x12
      have h13 : Changes L s x12 := Changes.foldl (fun x14 _ h15 => (Changes.ite (replaceSlice_changes (sub_of hL rfl) h15 _ _ _ _ _ _ _) h15)) h11
      try clear_value x12
      exact Changes.foldl (fun x16 _ h17 => (passTile_changes (sub_of hL rfl) h17 _ _ _ _ _)) h13
    · exact h0t

theorem deadlineMiss_changes {L : List Part} {s t0 : State} (hL : sub [.regs, .chans, .eng, .hbm, .mem, .faults, .twin, .sent] L = true) (h0t : Changes L s t0) (a1 : Nat) (a2 : Nat) (a3 : Nat) (a4 : Nat) :
    Changes L s (deadlineMiss t0 a1 a2 a3 a4) := by
  unfold deadlineMiss
  extract_lets -merge -useContext x0 x1 x2 x3
  try clear_value x0 x1 x2 x3
  split
  · rename_i x4 x5 x6 x7 heq8 heq9
    extract_lets -merge -useContext x10 x11 x12
    try clear_value x10 x11 x12
    split
    · rename_i x13 x14 heq15
      exact Changes.ite (replaceSlice_changes (sub_of hL rfl) h0t _ _ _ _ _ _ _) h0t
    · rename_i x16 heq17
      exact Changes.ite (replaceSlice_changes (sub_of hL rfl) h0t _ _ _ _ _ _ _) h0t
  · rename_i x18 x19 heq20
    exact h0t

theorem engineQuiesce_changes {L : List Part} {s t0 : State} (hL : sub [.regs] L = true) (h0t : Changes L s t0) (a1 : Sys2Proof.EePage) (a2 : Bool) :
    Changes L s (engineQuiesce t0 a1 a2) := by
  unfold engineQuiesce
  exact Changes.ite h0t (Changes.foldl (fun x0 _ h1 => (State.setBit_changes (sub_of hL rfl) h1 _ _ _)) h0t)

theorem engineHang_changes {L : List Part} {s t0 : State} (hL : sub [.regs, .chans, .eng, .faults] L = true) (h0t : Changes L s t0) (a1 : Nat) (a2 : Bool) :
    Changes L s (engineHang t0 a1 a2) := by
  unfold engineHang
  split
  · rename_i x0 heq1
    exact h0t
  · rename_i x2 x3 heq4
    exact Changes.ite h0t (State.failEngine_changes (sub_of hL rfl) (State.raise_changes (sub_of hL rfl) h0t _ _ _ _) _)

theorem eeStatClr_changes {L : List Part} {s t0 : State} (hL : sub [.regs] L = true) (h0t : Changes L s t0) (a1 : Sys2Proof.EePage) :
    Changes L s (eeStatClr t0 a1) := by
  unfold eeStatClr
  exact Changes.ite h0t (Changes.foldl (fun x0 _ h1 => (State.clearRegs_changes (sub_of hL rfl) h1 _)) h0t)

theorem chrcStatClr_changes {L : List Part} {s t0 : State} (hL : sub [.regs] L = true) (h0t : Changes L s t0) (a1 : Nat) :
    Changes L s (chrcStatClr t0 a1) := by
  unfold chrcStatClr
  exact Changes.ite (State.clearRegs_changes (sub_of hL rfl) h0t _) h0t

end Sys2Proof.Machine
end

