-- ==== Sys2Proof/Laws/ChangesInCompositor.lean ====
section
/-! SUPPORT. What each function of Compositor.lean changes at most: one lemma for each. -/

namespace Sys2Proof.Machine

theorem releaseLayers_changes {L : List Part} {s t0 : State} (hL : sub [.regs, .chans] L = true) (h0t : Changes L s t0) (a1 : Nat) :
    Changes L s (releaseLayers t0 a1) := by
  unfold releaseLayers
  extract_lets -merge -useContext x0
  try clear_value x0
  exact Changes.foldl (fun x1 _ h2 => (State.evt_changes (sub_of hL rfl) h2 _ _)) (State.modChan_changes (sub_of hL rfl) h0t _ _)

theorem copyCommit_changes {L : List Part} {s t0 : State} (hL : sub [.regs, .chans] L = true) (h0t : Changes L s t0) (a1 : Nat) :
    Changes L s (copyCommit t0 a1) := by
  unfold copyCommit
  refine Changes.ite ?_ ?_
  · exact h0t
  · extract_lets -merge -useContext x0 x1 x2 x3 x4
    try clear_value x1 x2 x3
    have h5 : Changes L s x0 := State.setBit_changes (sub_of hL rfl) h0t _ _ _
    have h6 : Changes L s x4 := State.setChan_changes (sub_of hL rfl) h5 _ _
    try clear_value x0 x4
    split
    · rename_i x7 x8 heq9
      exact State.evt_changes (sub_of hL rfl) (State.setReg_changes (sub_of hL rfl) h5 _ _) _ _
    · rename_i x10 heq11
      exact State.evt_changes (sub_of hL rfl) (State.setN_changes (sub_of hL rfl) h6 _ _) _ _

theorem stepCommit_changes {L : List Part} {s t0 : State} (hL : sub [.regs, .chans] L = true) (h0t : Changes L s t0) (a1 : Nat) :
    Changes L s (stepCommit t0 a1) := by
  unfold stepCommit
  exact releaseLayers_changes (sub_of hL rfl) (copyCommit_changes (sub_of hL rfl) h0t _) _

theorem chcompCommit_changes {L : List Part} {s t0 : State} (hL : sub [.regs, .chans] L = true) (h0t : Changes L s t0) (a1 : Nat) :
    Changes L s (chcompCommit t0 a1) := by
  unfold chcompCommit
  exact Changes.ite (State.modChan_changes (sub_of hL rfl) (State.setBit_changes (sub_of hL rfl) (State.setBit_changes (sub_of hL rfl) h0t _ _ _) _ _ _) _ _) h0t

theorem commitCopy_changes {L : List Part} {s t0 : State} (hL : sub [.regs, .stp, .chans] L = true) (h0t : Changes L s t0) (a1 : Nat) :
    Changes L s (commitCopy t0 a1) := by
  unfold commitCopy
  extract_lets -merge -useContext x0 x1 x2
  try clear_value x0 x1
  have h3 : Changes L s x2 := State.toPos_changes (sub_of hL rfl) h0t _
  try clear_value x2
  exact Changes.ite h0t (Changes.ite (copyCommit_changes (sub_of hL rfl) h3 _) h3)

theorem layerRelease_changes {L : List Part} {s t0 : State} (hL : sub [.regs, .stp, .chans] L = true) (h0t : Changes L s t0) (a1 : Nat) :
    Changes L s (layerRelease t0 a1) := by
  unfold layerRelease
  extract_lets -merge -useContext x0
  try clear_value x0
  exact Changes.ite h0t (releaseLayers_changes (sub_of hL rfl) (State.toPos_changes (sub_of hL rfl) h0t _) _)

theorem lutStat_changes {L : List Part} {s t0 : State} (hL : sub [.regs] L = true) (h0t : Changes L s t0) (a1 : Nat) (a2 : Bool) :
    Changes L s (lutStat t0 a1 a2) := by
  unfold lutStat
  exact State.setN_changes (sub_of hL rfl) h0t _ _

theorem lutWhileEnabled_changes {L : List Part} {s t0 : State} (hL : sub [.regs] L = true) (h0t : Changes L s t0) (a1 : Nat) :
    Changes L s (lutWhileEnabled t0 a1) := by
  unfold lutWhileEnabled
  exact State.refuse_changes (sub_of hL rfl) (lutStat_changes (sub_of hL rfl) h0t _ _) _ _ _ _

theorem lutInc_changes {L : List Part} {s t0 : State} (hL : sub [.regs] L = true) (h0t : Changes L s t0) (a1 : Nat) :
    Changes L s (lutInc t0 a1) := by
  unfold lutInc
  extract_lets -merge -useContext x0
  try clear_value x0
  exact Changes.ite (State.setF_changes (sub_of hL rfl) h0t _ _ _ _) h0t

theorem lutWrite_changes {L : List Part} {s t0 : State} (hL : sub [.regs, .chans] L = true) (h0t : Changes L s t0) (a1 : Nat) :
    Changes L s (lutWrite t0 a1) := by
  unfold lutWrite
  extract_lets -merge -useContext x0 x1 x2
  try clear_value x0 x1 x2
  exact Changes.ite h0t (Changes.ite (lutWhileEnabled_changes (sub_of hL rfl) h0t _) (Changes.ite (lutStat_changes (sub_of hL rfl) h0t _ _) (lutStat_changes (sub_of hL rfl) (lutInc_changes (sub_of hL rfl) (State.modChan_changes (sub_of hL rfl) h0t _ _) _) _ _)))

theorem lutRead_changes {L : List Part} {s t0 : State} (hL : sub [.regs] L = true) (h0t : Changes L s t0) (a1 : Nat) :
    Changes L s (lutRead t0 a1) := by
  unfold lutRead
  extract_lets -merge -useContext x0 x1
  try clear_value x0 x1
  exact Changes.ite h0t (Changes.ite (lutStat_changes (sub_of hL rfl) h0t _ _) (lutStat_changes (sub_of hL rfl) (lutInc_changes (sub_of hL rfl) (State.setReg_changes (sub_of hL rfl) h0t _ _) _) _ _))

theorem lutPreset_changes {L : List Part} {s t0 : State} (hL : sub [.regs, .chans] L = true) (h0t : Changes L s t0) (a1 : Nat) (a2 : Nat) (a3 : Bool) :
    Changes L s (lutPreset t0 a1 a2 a3) := by
  unfold lutPreset
  exact Changes.ite h0t (Changes.ite (lutWhileEnabled_changes (sub_of hL rfl) h0t _) (Changes.ite (lutStat_changes (sub_of hL rfl) h0t _ _) (State.evt_changes (sub_of hL rfl) (lutStat_changes (sub_of hL rfl) (State.modChan_changes (sub_of hL rfl) h0t _ _) _ _) _ _)))

theorem storeLine_changes {L : List Part} {s t0 : State} (hL : sub [.chans, .mem] L = true) (h0t : Changes L s t0) (a1 : Nat) (a2 : Nat) (a3 : Nat) (a4 : List Nat × List Nat) :
    Changes L s (storeLine t0 a1 a2 a3 a4) := by
  unfold storeLine
  extract_lets -merge -useContext x0 x1 x2 x3
  try clear_value x0 x1 x2
  have h4 : Changes L s x3 := setSamples_changes (sub_of hL rfl) h0t _ _ _ _
  try clear_value x3
  exact Changes.ite (setSamples_changes (sub_of hL rfl) h4 _ _ _ _) (Changes.ite (State.modChan_changes (sub_of hL rfl) h4 _ _) (setSamples_changes (sub_of hL rfl) h4 _ _ _ _))

theorem countLines_changes {L : List Part} {s t0 : State} (hL : sub [.regs] L = true) (h0t : Changes L s t0) (a1 : Nat) (a2 : Nat) (a3 : Nat) (a4 : Nat) :
    Changes L s (countLines t0 a1 a2 a3 a4) := by
  unfold countLines
  exact Changes.ite h0t (State.evt_changes (sub_of hL rfl) (State.incSat_changes (sub_of hL rfl) h0t _ _ _ _) _ _)

theorem linesRead_changes {L : List Part} {s t0 : State} (hL : sub [.regs, .hbm] L = true) (h0t : Changes L s t0) (a1 : Nat) (a2 : Nat) (a3 : Nat) (a4 : Nat) (a5 : Sys2Proof.Store Sys2Proof.Word) :
    Changes L s (linesRead t0 a1 a2 a3 a4 a5) := by
  unfold linesRead
  extract_lets -merge -useContext x0 x1 x2
  try clear_value x0 x1
  have h3 : Changes L s x2 := Changes.ite (State.inc32_changes (sub_of hL rfl) h0t _) h0t
  try clear_value x2
  exact readDone_changes (sub_of hL rfl) (readDone_changes (sub_of hL rfl) h3 _ _) _ _

theorem compositeLine_changes {L : List Part} {s t0 : State} (hL : sub [.regs, .stp, .chans, .hbm, .mem] L = true) (h0t : Changes L s t0) (a1 : Nat) (a2 : Nat) (a3 : List (Fin 8)) :
    Changes L s (compositeLine t0 a1 a2 a3) := by
  unfold compositeLine
  extract_lets -merge -useContext x0 x1 x2 x3 x4
  try clear_value x0 x1 x3 x4
  have h5 : Changes L s x2 := State.toPos_changes (sub_of hL rfl) h0t _
  try clear_value x2
  split
  · rename_i x6 heq7
    exact h0t
  · rename_i x8 x9 x10 heq11
    refine Changes.ite ?_ ?_
    · exact h0t
    · extract_lets -merge -useContext x12 x13 x14
      try clear_value x12
      have h15 : Changes L s x13 := linesRead_changes (sub_of hL rfl) (storeLine_changes (sub_of hL rfl) h5 _ _ _ _) _ _ _ _ _
      have h16 : Changes L s x14 := countLines_changes (sub_of hL rfl) (countLines_changes (sub_of hL rfl) h15 _ _ _ _) _ _ _ _
      try clear_value x13 x14
      exact State.noteReady_changes (sub_of hL rfl) (State.modChan_changes (sub_of hL rfl) h16 _ _) _

theorem ladderLine_changes {L : List Part} {s t0 : State} (hL : sub [.chans, .hbm, .mem] L = true) (h0t : Changes L s t0) (a1 : Nat) (a2 : Nat) (a3 : Nat) :
    Changes L s (ladderLine t0 a1 a2 a3) := by
  unfold ladderLine
  extract_lets -merge -useContext x0 x1 x2 x3 x4 x5 x6 x7 x8 x9 x10 x11 x12 x13 x14 x15 x16 x17 x18 x19 x20 x21 x22
  try clear_value x0 x1 x2 x3 x4 x5 x6 x7 x8 x9 x10 x11 x12 x13 x14 x15 x16 x17 x18 x19
  have h23 : Changes L s x20 := setSamples_changes (sub_of hL rfl) h0t _ _ _ _
  have h24 : Changes L s x21 := Changes.ite (setSamples_changes (sub_of hL rfl) h23 _ _ _ _) h23
  have h25 : Changes L s x22 := readDone_changes (sub_of hL rfl) h24 _ _
  try clear_value x20 x21 x22
  exact Changes.ite h0t (State.noteReady_changes (sub_of hL rfl) (State.modChan_changes (sub_of hL rfl) h25 _ _) _)

end Sys2Proof.Machine
end

