-- ==== Sys2Proof/Laws/ChangesInChannels.lean ====
section
/-! SUPPORT. What each function of Channels.lean changes at most: one lemma for each. -/

namespace Sys2Proof.Machine

theorem toChannelStart_changes {L : List Part} {s t0 : State} (hL : sub [.regs, .stp] L = true) (h0t : Changes L s t0) (a1 : Nat) :
    Changes L s (toChannelStart t0 a1) := by
  unfold toChannelStart
  extract_lets -merge -useContext x0 x1 x2 x3 x4
  try clear_value x0 x1 x2 x3 x4
  exact Changes.ite h0t (State.enterFrame_changes (sub_of hL rfl) h0t _ _)

theorem closeGleaner_changes {L : List Part} {s t0 : State} (hL : sub [.regs, .chans] L = true) (h0t : Changes L s t0) (a1 : Nat) :
    Changes L s (closeGleaner t0 a1) := by
  unfold closeGleaner
  extract_lets -merge -useContext x0 x1 x2 x3 x4
  try clear_value x0 x1 x2
  have h5 : Changes L s x3 := State.setN_changes (sub_of hL rfl) h0t _ _
  have h6 : Changes L s x4 := Changes.ite (State.inc32_changes (sub_of hL rfl) h5 _) h5
  try clear_value x3 x4
  exact State.setChan_changes (sub_of hL rfl) h6 _ _

theorem endSequence_changes {L : List Part} {s t0 : State} (hL : sub [.regs, .chans, .eng, .mill, .hbm, .mem, .faults, .twin, .sent] L = true) (h0t : Changes L s t0) (a1 : Nat) :
    Changes L s (endSequence t0 a1) := by
  unfold endSequence
  extract_lets -merge -useContext x0
  have h1 : Changes L s x0 := finishSequence_changes (sub_of hL rfl) h0t _
  try clear_value x0
  exact Changes.ite (closeGleaner_changes (sub_of hL rfl) h1 _) h1

theorem newSequence_changes {L : List Part} {s t0 : State} (hL : sub [.regs, .chans, .eng, .mill, .hbm, .mem, .faults, .twin, .sent] L = true) (h0t : Changes L s t0) (a1 : Nat) :
    Changes L s (newSequence t0 a1) := by
  unfold newSequence
  exact State.modChan_changes (sub_of hL rfl) (endSequence_changes (sub_of hL rfl) h0t _) _ _

theorem stopAtFrame_changes {L : List Part} {s t0 : State} (hL : sub [.regs, .chans, .book] L = true) (h0t : Changes L s t0) (a1 : Nat) :
    Changes L s (stopAtFrame t0 a1) := by
  unfold stopAtFrame
  extract_lets -merge -useContext x0 x1 x2 x3
  try clear_value x0 x1
  have h4 : Changes L s x2 := Changes.ite h0t (closeGleaner_changes (sub_of hL rfl) h0t _)
  have h5 : Changes L s x3 := State.modChan_changes (sub_of hL rfl) h4 _ _
  try clear_value x2 x3
  exact Changes.ite h5 (Changes.ite (State.closeAir_changes (sub_of hL rfl) h5 _ _) (State.setAllotState_changes (sub_of hL rfl) (State.closeAir_changes (sub_of hL rfl) h5 _ _) _ _))

theorem takeOver_changes {L : List Part} {s t0 : State} (hL : sub [.regs, .chans, .eng, .mill, .hbm, .mem, .faults, .twin, .sent] L = true) (h0t : Changes L s t0) (a1 : Nat) :
    Changes L s (takeOver t0 a1) := by
  unfold takeOver
  split
  · rename_i x0 x1 x2 x3 x4 heq5 heq6 heq7
    extract_lets -merge -useContext x8 x9 x10 x11 x12 x13 x14 x15
    try clear_value x9 x14
    have h16 : Changes L s x8 := State.modChan_changes (sub_of hL rfl) (endSequence_changes (sub_of hL rfl) h0t _) _ _
    have h17 : Changes L s x10 := Changes.set_eng (sub_of hL rfl) h16 _
    have h18 : Changes L s x11 := State.dropPlace_changes (sub_of hL rfl) h17 _ _ _
    have h19 : Changes L s x12 := State.openGangs_changes (sub_of hL rfl) (State.writePlots_changes (sub_of hL rfl) h18 _ _) _ _
    have h20 : Changes L s x13 := State.syncSlots_changes (sub_of hL rfl) h19 _
    have h21 : Changes L s x15 := Changes.ite (State.setAllotState_changes (sub_of hL rfl) (State.modChan_changes (sub_of hL rfl) h20 _ _) _ _) (State.setAllotState_changes (sub_of hL rfl) (newSequence_changes (sub_of hL rfl) (State.modChan_changes (sub_of hL rfl) h20 _ _) _) _ _)
    try clear_value x8 x10 x11 x12 x13 x15
    exact State.modChan_changes (sub_of hL rfl) h21 _ _
  · rename_i x22 x23 x24 heq25
    exact h0t

theorem beginFrame_changes {L : List Part} {s t0 : State} (hL : sub [.regs, .chans, .ing, .rv] L = true) (h0t : Changes L s t0) (a1 : Nat) :
    Changes L s (beginFrame t0 a1) := by
  unfold beginFrame
  extract_lets -merge -useContext x0 x1 x2 x3 x4 x5 x6 x7 x8
  try clear_value x1 x3 x4
  have h9 : Changes L s x0 := Changes.ite (State.setF_changes (sub_of hL rfl) h0t _ _ _ _) (closeGleaner_changes (sub_of hL rfl) h0t _)
  have h10 : Changes L s x2 := State.modChan_changes (sub_of hL rfl) h9 _ _
  have h11 : Changes L s x5 := State.modChan_changes (sub_of hL rfl) h10 _ _
  have h12 : Changes L s x6 := State.modChan_changes (sub_of hL rfl) h11 _ _
  have h13 : Changes L s x7 := by
    unfold x7
    split
    · rename_i x14 x15 heq16
      exact State.setF_changes (sub_of hL rfl) (State.modChan_changes (sub_of hL rfl) h12 _ _) _ _ _ _
    · rename_i x17 heq18
      exact h12
  have h19 : Changes L s x8 := State.modChan_changes (sub_of hL rfl) h13 _ _
  try clear_value x0 x2 x5 x6 x7 x8
  exact State.vecReq_changes (sub_of hL rfl) (inputFrame_changes (sub_of hL rfl) h19 _) _

theorem channelFrameStart_changes {L : List Part} {s t0 : State} (hL : sub [.regs, .stp, .chans, .eng, .mill, .ing, .rv, .hbm, .mem, .book, .faults, .twin, .sent] L = true) (h0t : Changes L s t0) (a1 : Nat) :
    Changes L s (channelFrameStart t0 a1) := by
  unfold channelFrameStart
  refine Changes.ite ?_ ?_
  · exact h0t
  · extract_lets -merge -useContext x0 x1 x2 x3 x4
    have h5 : Changes L s x0 := releaseLayers_changes (sub_of hL rfl) (toChannelStart_changes (sub_of hL rfl) h0t _) _
    have h6 : Changes L s x1 := Changes.ite (stopAtFrame_changes (sub_of hL rfl) h5 _) h5
    have h7 : Changes L s x2 := takeOver_changes (sub_of hL rfl) h6 _
    have h8 : Changes L s x3 := State.setAllotState_changes (sub_of hL rfl) (newSequence_changes (sub_of hL rfl) h7 _) _ _
    have h9 : Changes L s x4 := Changes.ite (copyCommit_changes (sub_of hL rfl) h8 _) h7
    try clear_value x0 x1 x2 x3 x4
    exact Changes.ite h9 (Changes.ite (State.modChan_changes (sub_of hL rfl) h9 _ _) (beginFrame_changes (sub_of hL rfl) h9 _))

theorem controlLine_changes {L : List Part} {s t0 : State} (hL : sub [.regs, .stp, .chans, .rv] L = true) (h0t : Changes L s t0) (a1 : Nat) :
    Changes L s (controlLine t0 a1) := by
  unfold controlLine
  extract_lets -merge -useContext x0 x1
  try clear_value x0
  have h2 : Changes L s x1 := State.toPos_changes (sub_of hL rfl) h0t _
  try clear_value x1
  exact Changes.ite h0t (State.vecReq_changes (sub_of hL rfl) (State.modChan_changes (sub_of hL rfl) h2 _ _) _)

theorem frameThread_changes {L : List Part} {s t0 : State} (hL : sub [.regs] L = true) (h0t : Changes L s t0) (a1 : Nat) :
    Changes L s (frameThread t0 a1) := by
  unfold frameThread
  extract_lets -merge -useContext x0 x1
  try clear_value x0 x1
  refine Changes.ite ?_ ?_
  · exact h0t
  · refine Changes.foldl (fun x6 _ h7 => ?_) ?_
    · extract_lets -merge -useContext x8
      try clear_value x8
      split
      rename_i x9 x10 x11 heq12
      have h13 : Changes L s x11 := by
        rw [show x11 = (_, x11).2 from rfl, ← heq12]
        exact State.draw_changes h7
      extract_lets -merge -useContext x14 x15
      try clear_value x14 x15
      split
      rename_i x16 x17 x18 heq19
      exact State.setN_changes (sub_of hL rfl) (State.setN_changes (sub_of hL rfl) h13 _ _) _ _
    · exact h0t

theorem threadDone_changes {L : List Part} {s t0 : State} (hL : sub [.regs, .chans, .rv] L = true) (h0t : Changes L s t0) (a1 : Nat) :
    Changes L s (threadDone t0 a1) := by
  unfold threadDone
  split
  · rename_i x0 x1 heq2
    exact Changes.ite (doneWait_changes (sub_of hL rfl) (frameThread_changes (sub_of hL rfl) h0t _) _) (doneWait_changes (sub_of hL rfl) h0t _)
  · rename_i x3 heq4
    exact doneWait_changes (sub_of hL rfl) h0t _

end Sys2Proof.Machine
end

