-- ==== Sys2Proof/Laws/ChangesInMillpond.lean ====
section
/-! SUPPORT. What each function of Millpond.lean changes at most: one lemma for each. -/

namespace Sys2Proof.Machine

theorem substPlot_changes {L : List Part} {s t0 : State} (hL : sub [.chans, .eng] L = true) (h0t : Changes L s t0) (a1 : Nat) (a2 : Nat) :
    Changes L s (substPlot t0 a1 a2) := by
  unfold substPlot
  extract_lets -merge -useContext x0 x1 x2 x3
  try clear_value x0 x1 x3
  have h4 : Changes L s x2 := Changes.set_chans (sub_of hL rfl) h0t _
  try clear_value x2
  exact Changes.set_eng (sub_of hL rfl) h4 _

theorem retirePlot_changes {L : List Part} {s t0 : State} (hL : sub [.regs] L = true) (h0t : Changes L s t0) (a1 : Nat) :
    Changes L s (retirePlot t0 a1) := by
  unfold retirePlot
  extract_lets -merge -useContext x0
  have h1 : Changes L s x0 := State.setReg_changes (sub_of hL rfl) h0t _ _
  try clear_value x0
  exact State.setN_changes (sub_of hL rfl) h1 _ _

theorem reloadWindows_changes {L : List Part} {s t0 : State} (hL : sub [.mill] L = true) (h0t : Changes L s t0) (a1 : Nat) (a2 : Nat) :
    Changes L s (reloadWindows t0 a1 a2) := by
  unfold reloadWindows
  exact Changes.foldl (fun x0 _ h1 => (Changes.foldl (fun x2 _ h3 => (Changes.set_mill (sub_of hL rfl) h3 _)) h1)) h0t

theorem swapPlot_changes {L : List Part} {s t0 : State} (hL : sub [.regs, .chans, .eng, .mill, .faults] L = true) (h0t : Changes L s t0) (a1 : Nat) (a2 : Nat) :
    Changes L s (swapPlot t0 a1 a2) := by
  unfold swapPlot
  extract_lets -merge -useContext x0 x1 x2 x3
  try clear_value x0
  have h4 : Changes L s x1 := Changes.foldl (fun x5 _ h6 => (reloadWindows_changes (sub_of hL rfl) h6 _ _)) h0t
  have h7 : Changes L s x2 := State.setReg_changes (sub_of hL rfl) h4 _ _
  have h8 : Changes L s x3 := State.evt_changes (sub_of hL rfl) (State.inc32_changes (sub_of hL rfl) (substPlot_changes (sub_of hL rfl) h7 _ _) _) _ _
  try clear_value x1 x2 x3
  exact State.raise_changes (sub_of hL rfl) (State.mpCounts_changes (sub_of hL rfl) (retirePlot_changes (sub_of hL rfl) h8 _)) _ _ _ _

theorem keepFaulty_changes {L : List Part} {s t0 : State} (hL : sub [.regs, .faults] L = true) (h0t : Changes L s t0) (a1 : Nat) :
    Changes L s (keepFaulty t0 a1) := by
  unfold keepFaulty
  extract_lets -merge -useContext x0 x1 x2
  try clear_value x0
  have h3 : Changes L s x1 := State.setReg_changes (sub_of hL rfl) h0t _ _
  have h4 : Changes L s x2 := State.evt_changes (sub_of hL rfl) (State.setN_changes (sub_of hL rfl) h3 _ _) _ _
  try clear_value x1 x2
  exact State.raise_changes (sub_of hL rfl) (State.mpCounts_changes (sub_of hL rfl) h4) _ _ _ _

theorem plotFaulty_changes {L : List Part} {s t0 : State} (hL : sub [.regs, .chans, .eng, .mill, .faults] L = true) (h0t : Changes L s t0) (a1 : Nat) :
    Changes L s (plotFaulty t0 a1) := by
  unfold plotFaulty
  extract_lets -merge -useContext x0 x1 x2 x3
  try clear_value x0 x1 x2
  have h4 : Changes L s x3 := Changes.set_chans (sub_of hL rfl) h0t _
  try clear_value x3
  refine Changes.ite ?_ ?_
  · exact h0t
  · refine Changes.ite ?_ ?_
    · exact Changes.set_mill (sub_of hL rfl) h0t _
    · refine Changes.ite ?_ ?_
      · split
        · rename_i x5 x6 heq7
          exact swapPlot_changes (sub_of hL rfl) h0t _ _
        · rename_i x8 heq9
          exact State.raise_changes (sub_of hL rfl) (State.evt_changes (sub_of hL rfl) (State.mpCounts_changes (sub_of hL rfl) (retirePlot_changes (sub_of hL rfl) h4 _)) _ _) _ _ _ _
      · exact State.raise_changes (sub_of hL rfl) (State.mpCounts_changes (sub_of hL rfl) (retirePlot_changes (sub_of hL rfl) h0t _)) _ _ _ _

theorem stallJob_changes {L : List Part} {s t0 : State} (hL : sub [.eng] L = true) (h0t : Changes L s t0) (a1 : Nat) (a2 : Nat) :
    Changes L s (stallJob t0 a1 a2) := by
  unfold stallJob
  extract_lets -merge -useContext x0 x1
  try clear_value x0 x1
  exact State.setSlot_changes (sub_of hL rfl) h0t _ _

theorem mpRefetch_changes {L : List Part} {s t0 : State} (hL : sub [.regs, .chans, .eng, .mill, .faults] L = true) (h0t : Changes L s t0) (a1 : Nat) (a2 : Nat) (a3 : Nat) :
    Changes L s (mpRefetch t0 a1 a2 a3) := by
  unfold mpRefetch
  extract_lets -merge -useContext x0 x1 x2 x3 x4 x5 x6 x7
  try clear_value x2 x3 x4 x5 x6
  have h8 : Changes L s x0 := stallJob_changes (sub_of hL rfl) h0t _ _
  have h9 : Changes L s x1 := State.setBit_changes (sub_of hL rfl) (State.evt_changes (sub_of hL rfl) (State.inc32_changes (sub_of hL rfl) h8 _) _ _) _ _ _
  have h10 : Changes L s x7 := Changes.set_mill (sub_of hL rfl) h9 _
  try clear_value x0 x1 x7
  exact Changes.ite (plotFaulty_changes (sub_of hL rfl) h10 _) h10

theorem swapKept_changes {L : List Part} {s t0 : State} (hL : sub [.regs, .chans, .eng, .mill] L = true) (h0t : Changes L s t0) (a1 : Nat) (a2 : Nat) :
    Changes L s (swapKept t0 a1 a2) := by
  unfold swapKept
  extract_lets -merge -useContext x0 x1 x2 x3 x4
  have h5 : Changes L s x0 := Changes.foldl (fun x6 _ h7 => (reloadWindows_changes (sub_of hL rfl) h7 _ _)) h0t
  have h8 : Changes L s x1 := substPlot_changes (sub_of hL rfl) h5 _ _
  have h9 : Changes L s x2 := Changes.foldl (fun x10 _ h11 => (Changes.foldl (fun x12 _ h13 => (Changes.ite (State.writePlots_changes (sub_of hL rfl) h13 _ _) h13)) h11)) h8
  have h14 : Changes L s x3 := by
    unfold x3
    refine Changes.foldl (fun x19 _ h20 => ?_) ?_
    · split
      · rename_i x21 x22 x23 heq24
        exact Changes.ite (State.setPlot_changes (sub_of hL rfl) h20 _ _ _ _ _) h20
      · rename_i x25 heq26
        exact h20
    · exact h9
  have h27 : Changes L s x4 := State.mpCounts_changes (sub_of hL rfl) (State.evt_changes (sub_of hL rfl) (State.inc32_changes (sub_of hL rfl) h14 _) _ _)
  try clear_value x0 x1 x2 x3 x4
  exact Changes.ite (State.clearCause_changes (sub_of hL rfl) h27 _) h27

theorem plotSwap_changes {L : List Part} {s t0 : State} (hL : sub [.regs, .chans, .eng, .mill, .faults] L = true) (h0t : Changes L s t0) (a1 : Nat) :
    Changes L s (plotSwap t0 a1) := by
  unfold plotSwap
  refine Changes.ite ?_ ?_
  · exact h0t
  · refine Changes.ite ?_ ?_
    · extract_lets -merge -useContext x0 x1
      try clear_value x0
      have h2 : Changes L s x1 := Changes.set_mill (sub_of hL rfl) h0t _
      try clear_value x1
      refine Changes.ite ?_ ?_
      · split
        · rename_i x3 x4 heq5
          exact swapPlot_changes (sub_of hL rfl) h2 _ _
        · rename_i x6 heq7
          exact keepFaulty_changes (sub_of hL rfl) h2 _
      · exact plotFaulty_changes (sub_of hL rfl) h2 _
    · refine Changes.ite ?_ ?_
      · split
        · rename_i x8 x9 heq10
          exact swapKept_changes (sub_of hL rfl) h0t _ _
        · rename_i x11 heq12
          exact h0t
      · exact h0t

end Sys2Proof.Machine
end

