-- ==== Sys2Proof/Laws/ChangesInSteeple.lean ====
section
/-! SUPPORT. What each function of Steeple.lean changes at most: one lemma for each. -/

namespace Sys2Proof.Machine

theorem posLoRead_changes {L : List Part} {s t0 : State} (hL : sub [.bus, .stp] L = true) (h0t : Changes L s t0) (a1 : Sys2Proof.Master) :
    Changes L s (posLoRead t0 a1) := by
  unfold posLoRead
  refine Changes.ite ?_ ?_
  · exact h0t
  · extract_lets -merge -useContext x0 x1
    try clear_value x0
    have h2 : Changes L s x1 := Changes.set_stp (sub_of hL rfl) h0t _
    try clear_value x1
    exact State.answer_changes (sub_of hL rfl) h2 _

theorem setRotFrames_changes {L : List Part} {s t0 : State} (hL : sub [.regs] L = true) (h0t : Changes L s t0) :
    Changes L s (setRotFrames t0) := by
  unfold setRotFrames
  exact State.setN_changes (sub_of hL rfl) h0t _ _

theorem rasterWritten_changes {L : List Part} {s t0 : State} (hL : sub [.regs] L = true) (h0t : Changes L s t0) :
    Changes L s (rasterWritten t0) := by
  unfold rasterWritten
  exact State.setBit_changes (sub_of hL rfl) (setRotFrames_changes (sub_of hL rfl) h0t) _ _ _

theorem steepleEnable_changes {L : List Part} {s t0 : State} (hL : sub [.regs, .stp] L = true) (h0t : Changes L s t0) :
    Changes L s (steepleEnable t0) := by
  unfold steepleEnable
  refine Changes.ite ?_ ?_
  · exact h0t
  · refine Changes.ite ?_ ?_
    · exact State.failCheck_changes (sub_of hL rfl) h0t _ _ _ _
    · extract_lets -merge -useContext x0
      have h1 : Changes L s x0 := setRotFrames_changes (sub_of hL rfl) (State.activate_changes (sub_of hL rfl) h0t _)
      try clear_value x0
      exact Changes.ite h1 (State.enterFrame_changes (sub_of hL rfl) h1 _ _)

theorem steepleDisable_changes {L : List Part} {s t0 : State} (hL : sub [.regs] L = true) (h0t : Changes L s t0) :
    Changes L s (steepleDisable t0) := by
  unfold steepleDisable
  exact Changes.ite h0t (Changes.ite (State.deactivate_changes (sub_of hL rfl) h0t _) (State.refuse_changes (sub_of hL rfl) h0t _ _ _ _))

theorem setSt_changes {L : List Part} {s t0 : State} (hL : sub [.regs, .chans] L = true) (h0t : Changes L s t0) (a1 : Nat) :
    Changes L s (setSt t0 a1) := by
  unfold setSt
  extract_lets -merge -useContext x0
  have h1 : Changes L s x0 := State.setF_changes (sub_of hL rfl) h0t _ _ _ _
  try clear_value x0
  exact Changes.ite h1 (Changes.set_chans (sub_of hL rfl) h1 _)

theorem enterHoldover_changes {L : List Part} {s t0 : State} (hL : sub [.regs, .stp, .chans] L = true) (h0t : Changes L s t0) :
    Changes L s (enterHoldover t0) := by
  unfold enterHoldover
  extract_lets -merge -useContext x0 x1
  try clear_value x0
  have h2 : Changes L s x1 := Changes.set_stp (sub_of hL rfl) h0t _
  try clear_value x1
  exact State.evt_changes (sub_of hL rfl) (State.setReg_changes (sub_of hL rfl) (setSt_changes (sub_of hL rfl) h2 _) _ _) _ _

theorem holdOver_changes {L : List Part} {s t0 : State} (hL : sub [.regs, .stp, .chans] L = true) (h0t : Changes L s t0) :
    Changes L s (holdOver t0) := by
  unfold holdOver
  exact Changes.ite (enterHoldover_changes (sub_of hL rfl) h0t) (Changes.ite (Changes.set_stp (sub_of hL rfl) h0t _) h0t)

theorem forgetSource_changes {L : List Part} {s t0 : State} (hL : sub [.regs, .stp] L = true) (h0t : Changes L s t0) :
    Changes L s (forgetSource t0) := by
  unfold forgetSource
  extract_lets -merge -useContext x0 x1
  try clear_value x0
  have h2 : Changes L s x1 := Changes.set_stp (sub_of hL rfl) h0t _
  try clear_value x1
  exact State.setF_changes (sub_of hL rfl) h2 _ _ _ _

theorem enterLocked_changes {L : List Part} {s t0 : State} (hL : sub [.regs, .chans] L = true) (h0t : Changes L s t0) :
    Changes L s (enterLocked t0) := by
  unfold enterLocked
  exact State.clearCause_changes (sub_of hL rfl) (State.evt_changes (sub_of hL rfl) (State.setBit_changes (sub_of hL rfl) (setSt_changes (sub_of hL rfl) h0t _) _ _ _) _ _) _

theorem selectFreeRun_changes {L : List Part} {s t0 : State} (hL : sub [.regs, .stp, .chans] L = true) (h0t : Changes L s t0) (a1 : Bool) (a2 : Nat) :
    Changes L s (selectFreeRun t0 a1 a2) := by
  unfold selectFreeRun
  refine Changes.ite ?_ ?_
  · exact h0t
  · extract_lets -merge -useContext x0 x1
    try clear_value x1
    have h2 : Changes L s x0 := setSt_changes (sub_of hL rfl) (forgetSource_changes (sub_of hL rfl) (State.setN_changes (sub_of hL rfl) h0t _ _)) _
    try clear_value x0
    exact State.clearCause_changes (sub_of hL rfl) (Changes.set_stp (sub_of hL rfl) h2 _) _

theorem selectSource_changes {L : List Part} {s t0 : State} (hL : sub [.regs, .stp, .chans] L = true) (h0t : Changes L s t0) (a1 : Nat) (a2 : Bool) (a3 : Nat) :
    Changes L s (selectSource t0 a1 a2 a3) := by
  unfold selectSource
  refine Changes.ite ?_ ?_
  · exact h0t
  · refine Changes.ite ?_ ?_
    · exact selectFreeRun_changes (sub_of hL rfl) h0t _ _
    · extract_lets -merge -useContext x0
      have h1 : Changes L s x0 := forgetSource_changes (sub_of hL rfl) (holdOver_changes (sub_of hL rfl) (State.setN_changes (sub_of hL rfl) h0t _ _))
      try clear_value x0
      exact Changes.ite (setSt_changes (sub_of hL rfl) h1 _) h1

theorem setPhaseErr_changes {L : List Part} {s t0 : State} (hL : sub [.regs] L = true) (h0t : Changes L s t0) (a1 : Int) :
    Changes L s (setPhaseErr t0 a1) := by
  unfold setPhaseErr
  exact State.setN_changes (sub_of hL rfl) h0t _ _

theorem slewTo_changes {L : List Part} {s t0 : State} (hL : sub [.stp] L = true) (h0t : Changes L s t0) (a1 : Int) (a2 : Int) :
    Changes L s (slewTo t0 a1 a2) := by
  unfold slewTo
  split
  rename_i x0 x1 x2 heq3
  have h4 : Changes L s x2 := by
    rw [show x2 = (_, x2).2 from rfl, ← heq3]
    exact State.draw_changes h0t
  exact Changes.set_stp (sub_of hL rfl) h4 _

theorem correct_changes {L : List Part} {s t0 : State} (hL : sub [.regs, .stp, .chans, .faults] L = true) (h0t : Changes L s t0) (a1 : Int) (a2 : Int) :
    Changes L s (correct t0 a1 a2) := by
  unfold correct
  extract_lets -merge -useContext x0 x1 x2 x3 x4
  try clear_value x0 x3
  have h5 : Changes L s x1 := Changes.set_stp (sub_of hL rfl) h0t _
  have h6 : Changes L s x2 := State.setBit_changes (sub_of hL rfl) h5 _ _ _
  have h7 : Changes L s x4 := holdOver_changes (sub_of hL rfl) h5
  try clear_value x1 x2 x4
  exact Changes.ite (slewTo_changes (sub_of hL rfl) (Changes.set_stp (sub_of hL rfl) h6 _) _ _) (Changes.ite h5 (State.raise_changes (sub_of hL rfl) (State.evt_changes (sub_of hL rfl) (State.setBit_changes (sub_of hL rfl) h7 _ _ _) _ _) _ _ _ _))

theorem measure_changes {L : List Part} {s t0 : State} (hL : sub [.regs, .stp, .chans, .faults] L = true) (h0t : Changes L s t0) (a1 : Int) (a2 : Int) :
    Changes L s (measure t0 a1 a2) := by
  unfold measure
  exact Changes.ite (slewTo_changes (sub_of hL rfl) (Changes.set_stp (sub_of hL rfl) h0t _) _ _) (correct_changes (sub_of hL rfl) h0t _ _)

theorem countOk_changes {L : List Part} {s t0 : State} (hL : sub [.regs, .stp, .chans] L = true) (h0t : Changes L s t0) (a1 : Int) :
    Changes L s (countOk t0 a1) := by
  unfold countOk
  extract_lets -merge -useContext x0 x1 x2
  try clear_value x0 x1
  have h3 : Changes L s x2 := Changes.set_stp (sub_of hL rfl) h0t _
  try clear_value x2
  exact Changes.ite (enterLocked_changes (sub_of hL rfl) h3) h3

theorem countFrame_changes {L : List Part} {s t0 : State} (hL : sub [.regs, .stp, .chans] L = true) (h0t : Changes L s t0) (a1 : Int) :
    Changes L s (countFrame t0 a1) := by
  unfold countFrame
  extract_lets -merge -useContext x0 x1 x2
  try clear_value x0 x1 x2
  exact Changes.ite h0t (countOk_changes (sub_of hL rfl) (Changes.set_stp (sub_of hL rfl) h0t _) _)

theorem settle_changes {L : List Part} {s t0 : State} (hL : sub [.regs, .stp, .chans, .faults] L = true) (h0t : Changes L s t0) (a1 : Int) (a2 : Int) :
    Changes L s (settle t0 a1 a2) := by
  unfold settle
  extract_lets -merge -useContext x0 x1
  try clear_value x0
  have h2 : Changes L s x1 := Changes.set_stp (sub_of hL rfl) h0t _
  try clear_value x1
  exact Changes.ite (correct_changes (sub_of hL rfl) (setPhaseErr_changes (sub_of hL rfl) (State.setBit_changes (sub_of hL rfl) h2 _ _ _) _) _ _) h2

theorem glitch_changes {L : List Part} {s t0 : State} (hL : sub [.regs] L = true) (h0t : Changes L s t0) :
    Changes L s (glitch t0) := by
  unfold glitch
  exact State.setBit_changes (sub_of hL rfl) (State.evt_changes (sub_of hL rfl) (State.inc32_changes (sub_of hL rfl) h0t _) _ _) _ _ _

theorem pinPulse_changes {L : List Part} {s t0 : State} (hL : sub [.regs, .stp, .chans, .faults] L = true) (h0t : Changes L s t0) (a1 : Int) (a2 : Int) :
    Changes L s (pinPulse t0 a1 a2) := by
  unfold pinPulse
  extract_lets -merge -useContext x0 x1 x2 x3
  try clear_value x0 x2
  have h4 : Changes L s x1 := Changes.ite (glitch_changes (sub_of hL rfl) h0t) (setPhaseErr_changes (sub_of hL rfl) (State.setBit_changes (sub_of hL rfl) h0t _ _ _) _)
  have h5 : Changes L s x3 := Changes.ite (settle_changes (sub_of hL rfl) h4 _ _) (measure_changes (sub_of hL rfl) (Changes.set_stp (sub_of hL rfl) h4 _) _ _)
  try clear_value x1 x3
  exact Changes.ite h5 (countFrame_changes (sub_of hL rfl) h5 _)

theorem rateRefused_changes {L : List Part} {s t0 : State} (hL : sub [.regs, .stp, .chans, .faults] L = true) (h0t : Changes L s t0) :
    Changes L s (rateRefused t0) := by
  unfold rateRefused
  extract_lets -merge -useContext x0 x1
  try clear_value x0
  have h2 : Changes L s x1 := Changes.set_stp (sub_of hL rfl) h0t _
  try clear_value x1
  exact Changes.ite h2 (State.raise_changes (sub_of hL rfl) (State.evt_changes (sub_of hL rfl) (holdOver_changes (sub_of hL rfl) (State.setBit_changes (sub_of hL rfl) h2 _ _ _)) _ _) _ _ _ _)

theorem refFramePulse_changes {L : List Part} {s t0 : State} (hL : sub [.regs, .stp, .chans, .faults] L = true) (h0t : Changes L s t0) (a1 : Int) (a2 : Int) :
    Changes L s (refFramePulse t0 a1 a2) := by
  unfold refFramePulse
  refine Changes.ite ?_ ?_
  · exact h0t
  · refine Changes.ite ?_ ?_
    · exact rateRefused_changes (sub_of hL rfl) h0t
    · extract_lets -merge -useContext x0 x1 x2
      try clear_value x0
      have h3 : Changes L s x1 := Changes.set_stp (sub_of hL rfl) h0t _
      have h4 : Changes L s x2 := State.setBit_changes (sub_of hL rfl) h3 _ _ _
      try clear_value x1 x2
      exact Changes.ite (pinPulse_changes (sub_of hL rfl) h4 _ _) (countFrame_changes (sub_of hL rfl) (measure_changes (sub_of hL rfl) (setPhaseErr_changes (sub_of hL rfl) h4 _) _ _) _)

theorem refLost_changes {L : List Part} {s t0 : State} (hL : sub [.regs, .stp, .chans, .faults] L = true) (h0t : Changes L s t0) :
    Changes L s (refLost t0) := by
  unfold refLost
  refine Changes.ite ?_ ?_
  · exact h0t
  · extract_lets -merge -useContext x0 x1 x2
    try clear_value x1
    have h3 : Changes L s x0 := holdOver_changes (sub_of hL rfl) h0t
    have h4 : Changes L s x2 := Changes.set_stp (sub_of hL rfl) h3 _
    try clear_value x0 x2
    exact State.raise_changes (sub_of hL rfl) (State.evt_changes (sub_of hL rfl) (State.setBit_changes (sub_of hL rfl) (State.setBit_changes (sub_of hL rfl) h4 _ _ _) _ _ _) _ _) _ _ _ _

theorem acceptJump_changes {L : List Part} {s t0 : State} (hL : sub [.stp] L = true) (h0t : Changes L s t0) :
    Changes L s (acceptJump t0) := by
  unfold acceptJump
  exact Changes.ite (Changes.set_stp (sub_of hL rfl) h0t _) h0t

theorem jumpAccept_changes {L : List Part} {s t0 : State} (hL : sub [.stp] L = true) (h0t : Changes L s t0) :
    Changes L s (jumpAccept t0) := by
  unfold jumpAccept
  exact Changes.ite (acceptJump_changes (sub_of hL rfl) h0t) h0t

theorem ptpJumpAccept_changes {L : List Part} {s t0 : State} (hL : sub [.stp] L = true) (h0t : Changes L s t0) :
    Changes L s (ptpJumpAccept t0) := by
  unfold ptpJumpAccept
  exact Changes.ite (acceptJump_changes (sub_of hL rfl) h0t) h0t

theorem setActNext_changes {L : List Part} {s t0 : State} (hL : sub [.stp] L = true) (h0t : Changes L s t0) (a1 : Nat) (a2 : BitVec 64) :
    Changes L s (setActNext t0 a1 a2) := by
  unfold setActNext
  exact Changes.set_stp (sub_of hL rfl) h0t _

theorem disarm_changes {L : List Part} {s t0 : State} (hL : sub [.regs, .stp] L = true) (h0t : Changes L s t0) (a1 : Nat) :
    Changes L s (disarm t0 a1) := by
  unfold disarm
  exact setActNext_changes (sub_of hL rfl) (State.setBit_changes (sub_of hL rfl) (State.setBit_changes (sub_of hL rfl) h0t _ _ _) _ _ _) _ _

theorem armAt_changes {L : List Part} {s t0 : State} (hL : sub [.regs, .stp] L = true) (h0t : Changes L s t0) (a1 : Nat) (a2 : BitVec 64) :
    Changes L s (armAt t0 a1 a2) := by
  unfold armAt
  exact setActNext_changes (sub_of hL rfl) (State.setBit_changes (sub_of hL rfl) (State.setBit_changes (sub_of hL rfl) h0t _ _ _) _ _ _) _ _

theorem skipPoints_changes {L : List Part} {s t0 : State} (hL : sub [.regs] L = true) (h0t : Changes L s t0) (a1 : Nat) (a2 : Nat) :
    Changes L s (skipPoints t0 a1 a2) := by
  unfold skipPoints
  exact State.incSat_changes (sub_of hL rfl) h0t _ _ _ _

theorem markLate_changes {L : List Part} {s t0 : State} (hL : sub [.regs] L = true) (h0t : Changes L s t0) (a1 : Nat) :
    Changes L s (markLate t0 a1) := by
  unfold markLate
  exact State.evt_changes (sub_of hL rfl) (State.setBit_changes (sub_of hL rfl) (State.setBit_changes (sub_of hL rfl) h0t _ _ _) _ _ _) _ _

theorem armAttempt_changes {L : List Part} {s t0 : State} (hL : sub [.regs, .stp] L = true) (h0t : Changes L s t0) (a1 : Nat) :
    Changes L s (armAttempt t0 a1) := by
  unfold armAttempt
  extract_lets -merge -useContext x0 x1 x2 x3 x4 x5 x6
  try clear_value x1 x2 x3 x4 x5 x6
  have h7 : Changes L s x0 := disarm_changes (sub_of hL rfl) (State.setReg_changes (sub_of hL rfl) h0t _ _) _
  try clear_value x0
  exact Changes.ite (State.setBit_changes (sub_of hL rfl) (State.setBit_changes (sub_of hL rfl) h7 _ _ _) _ _ _) (Changes.ite (armAt_changes (sub_of hL rfl) h7 _ _) (Changes.ite (markLate_changes (sub_of hL rfl) h7 _) (skipPoints_changes (sub_of hL rfl) (armAt_changes (sub_of hL rfl) h7 _ _) _ _)))

theorem actCtrlWrite_changes {L : List Part} {s t0 : State} (hL : sub [.regs, .stp] L = true) (h0t : Changes L s t0) (a1 : Nat) (a2 : Sys2Proof.Word) :
    Changes L s (actCtrlWrite t0 a1 a2) := by
  unfold actCtrlWrite
  refine Changes.ite ?_ ?_
  · exact h0t
  · extract_lets -merge -useContext x0 x1
    try clear_value x0
    have h2 : Changes L s x1 := State.setReg_changes (sub_of hL rfl) h0t _ _
    try clear_value x1
    exact Changes.ite (armAttempt_changes (sub_of hL rfl) h2 _) (Changes.ite (disarm_changes (sub_of hL rfl) h2 _) h2)

end Sys2Proof.Machine
end

