-- ==== Sys2Proof/Laws/ChangesInClp.lean ====
section
/-! SUPPORT. What each function of Clp.lean changes at most: one lemma for each. -/

namespace Sys2Proof.Machine

theorem setLane_changes {L : List Part} {s t0 : State} (hL : sub [.clp] L = true) (h0t : Changes L s t0) (a1 : Nat) (a2 : Nat) (a3 : Sys2Proof.Machine.Lane) :
    Changes L s (setLane t0 a1 a2 a3) := by
  unfold setLane
  exact Changes.set_clp (sub_of hL rfl) h0t _

theorem setLink_changes {L : List Part} {s t0 : State} (hL : sub [.clp] L = true) (h0t : Changes L s t0) (a1 : Nat) (a2 : Sys2Proof.Machine.Link) :
    Changes L s (setLink t0 a1 a2) := by
  unfold setLink
  exact Changes.set_clp (sub_of hL rfl) h0t _

theorem setLaneSt_changes {L : List Part} {s t0 : State} (hL : sub [.regs] L = true) (h0t : Changes L s t0) (a1 : Nat) (a2 : Nat) (a3 : Nat) :
    Changes L s (setLaneSt t0 a1 a2 a3) := by
  unfold setLaneSt
  exact State.setF_changes (sub_of hL rfl) h0t _ _ _ _

theorem setLanePower_changes {L : List Part} {s t0 : State} (hL : sub [.regs] L = true) (h0t : Changes L s t0) (a1 : Nat) (a2 : Nat) (a3 : Nat) :
    Changes L s (setLanePower t0 a1 a2 a3) := by
  unfold setLanePower
  exact State.setF_changes (sub_of hL rfl) h0t _ _ _ _

theorem setRetrainPending_changes {L : List Part} {s t0 : State} (hL : sub [.regs] L = true) (h0t : Changes L s t0) (a1 : Nat) (a2 : Nat) (a3 : Bool) :
    Changes L s (setRetrainPending t0 a1 a2 a3) := by
  unfold setRetrainPending
  exact State.setBit_changes (sub_of hL rfl) h0t _ _ _

theorem setLaneFailed_changes {L : List Part} {s t0 : State} (hL : sub [.regs] L = true) (h0t : Changes L s t0) (a1 : Nat) (a2 : Nat) (a3 : Bool) :
    Changes L s (setLaneFailed t0 a1 a2 a3) := by
  unfold setLaneFailed
  exact State.setBit_changes (sub_of hL rfl) h0t _ _ _

theorem setLinkState_changes {L : List Part} {s t0 : State} (hL : sub [.regs] L = true) (h0t : Changes L s t0) (a1 : Nat) (a2 : Nat) :
    Changes L s (setLinkState t0 a1 a2) := by
  unfold setLinkState
  exact Changes.ite (State.setF_changes (sub_of hL rfl) h0t _ _ _ _) (State.setF_changes (sub_of hL rfl) h0t _ _ _ _)

theorem settleClp_changes {L : List Part} {s t0 : State} (hL : sub [.regs] L = true) (h0t : Changes L s t0) :
    Changes L s (settleClp t0) := by
  unfold settleClp
  extract_lets -merge -useContext x0 x1
  try clear_value x0
  have h2 : Changes L s x1 := Changes.foldl (fun x3 _ h4 => (Changes.ite h4 (State.unitDegraded_changes (sub_of hL rfl) h4 _ _))) h0t
  try clear_value x1
  exact Changes.ite (State.clearCause_changes (sub_of hL rfl) h2 _) h2

theorem sendSet_changes {L : List Part} {s t0 : State} (hL : sub [.sent] L = true) (h0t : Changes L s t0) (a1 : Nat) (a2 : Nat) (a3 : Nat) :
    Changes L s (sendSet t0 a1 a2 a3) := by
  unfold sendSet
  exact Changes.set_sent (sub_of hL rfl) h0t _

theorem sendNarrow_changes {L : List Part} {s t0 : State} (hL : sub [.clp, .sent] L = true) (h0t : Changes L s t0) (a1 : Nat) :
    Changes L s (sendNarrow t0 a1) := by
  unfold sendNarrow
  extract_lets -merge -useContext x0 x1 x2
  try clear_value x0 x2
  have h3 : Changes L s x1 := sendSet_changes (sub_of hL rfl) h0t _ _ _
  try clear_value x1
  exact setLink_changes (sub_of hL rfl) h3 _ _

theorem coverLane_changes {L : List Part} {s t0 : State} (hL : sub [.clp, .sent] L = true) (h0t : Changes L s t0) (a1 : Nat) (a2 : Nat) :
    Changes L s (coverLane t0 a1 a2) := by
  unfold coverLane
  exact Changes.ite (setLink_changes (sub_of hL rfl) h0t _ _) (sendNarrow_changes (sub_of hL rfl) h0t _)

theorem abortTrainers_changes {L : List Part} {s t0 : State} (hL : sub [.regs, .clp] L = true) (h0t : Changes L s t0) (a1 : Nat) (a2 : Nat) (a3 : Nat) :
    Changes L s (abortTrainers t0 a1 a2 a3) := by
  unfold abortTrainers
  refine Changes.foldl (fun x2 _ h3 => ?_) ?_
  · extract_lets -merge -useContext x4 x5
    try clear_value x5
    have h6 : Changes L s x4 := State.evt_changes (sub_of hL rfl) (setRetrainPending_changes (sub_of hL rfl) h3 _ _ _) _ _
    try clear_value x4
    exact setLink_changes (sub_of hL rfl) h6 _ _
  · exact h0t

theorem failLane_changes {L : List Part} {s t0 : State} (hL : sub [.regs, .clp, .faults, .sent] L = true) (h0t : Changes L s t0) (a1 : Nat) (a2 : Nat) :
    Changes L s (failLane t0 a1 a2) := by
  unfold failLane
  extract_lets -merge -useContext x0 x1 x2 x3 x4 x5 x6 x7
  try clear_value x0 x1 x3 x6
  have h8 : Changes L s x2 := setRetrainPending_changes (sub_of hL rfl) (setLaneFailed_changes (sub_of hL rfl) (setLaneSt_changes (sub_of hL rfl) h0t _ _ _) _ _ _) _ _ _
  have h9 : Changes L s x4 := setLane_changes (sub_of hL rfl) h8 _ _ _
  have h10 : Changes L s x5 := State.raise_changes (sub_of hL rfl) (State.evt_changes (sub_of hL rfl) h9 _ _) _ _ _ _
  have h11 : Changes L s x7 := setLink_changes (sub_of hL rfl) h10 _ _
  try clear_value x2 x4 x5 x7
  exact Changes.ite h11 (Changes.ite (coverLane_changes (sub_of hL rfl) (abortTrainers_changes (sub_of hL rfl) h11 _ _ _) _ _) (Changes.ite (sendNarrow_changes (sub_of hL rfl) h11 _) h11))

theorem linkUp_changes {L : List Part} {s t0 : State} (hL : sub [.regs, .clp, .sent] L = true) (h0t : Changes L s t0) (a1 : Nat) :
    Changes L s (linkUp t0 a1) := by
  unfold linkUp
  extract_lets -merge -useContext x0
  try clear_value x0
  refine Changes.ite ?_ ?_
  · exact h0t
  · split
    · rename_i x1 heq2
      exact State.evt_changes (sub_of hL rfl) (setLinkState_changes (sub_of hL rfl) h0t _ _) _ _
    · rename_i x3 x4 heq5
      exact coverLane_changes (sub_of hL rfl) h0t _ _
    · rename_i x6 heq7 heq8
      exact sendNarrow_changes (sub_of hL rfl) h0t _

theorem startRetrain_changes {L : List Part} {s t0 : State} (hL : sub [.regs, .clp] L = true) (h0t : Changes L s t0) (a1 : Nat) (a2 : Nat) :
    Changes L s (startRetrain t0 a1 a2) := by
  unfold startRetrain
  extract_lets -merge -useContext x0 x1
  try clear_value x1
  have h2 : Changes L s x0 := setRetrainPending_changes (sub_of hL rfl) (setLanePower_changes (sub_of hL rfl) (setLaneSt_changes (sub_of hL rfl) h0t _ _ _) _ _ _) _ _ _
  try clear_value x0
  exact setLane_changes (sub_of hL rfl) h2 _ _ _

theorem startRetrains_changes {L : List Part} {s t0 : State} (hL : sub [.regs, .clp] L = true) (h0t : Changes L s t0) :
    Changes L s (startRetrains t0) := by
  unfold startRetrains
  exact Changes.foldl (fun x0 _ h1 => (Changes.ite (startRetrain_changes (sub_of hL rfl) h1 _ _) h1)) h0t

theorem afterLane_changes {L : List Part} {s t0 : State} (hL : sub [.regs, .clp, .sent] L = true) (h0t : Changes L s t0) (a1 : Nat) (a2 : Nat) :
    Changes L s (afterLane t0 a1 a2) := by
  unfold afterLane
  exact settleClp_changes (sub_of hL rfl) (startRetrains_changes (sub_of hL rfl) (linkUp_changes (sub_of hL rfl) h0t _))

theorem trainFail_changes {L : List Part} {s t0 : State} (hL : sub [.regs, .clp, .faults, .sent] L = true) (h0t : Changes L s t0) (a1 : Nat) (a2 : Nat) :
    Changes L s (trainFail t0 a1 a2) := by
  unfold trainFail
  extract_lets -merge -useContext x0
  have h1 : Changes L s x0 := Changes.ite (State.evt_changes (sub_of hL rfl) (setLaneSt_changes (sub_of hL rfl) h0t _ _ _) _ _) (Changes.ite (State.evt_changes (sub_of hL rfl) (failLane_changes (sub_of hL rfl) h0t _ _) _ _) (failLane_changes (sub_of hL rfl) h0t _ _))
  try clear_value x0
  exact afterLane_changes (sub_of hL rfl) h1 _ _

theorem retrain_changes {L : List Part} {s t0 : State} (hL : sub [.regs, .clp] L = true) (h0t : Changes L s t0) (a1 : Nat) (a2 : Nat) :
    Changes L s (retrain t0 a1 a2) := by
  unfold retrain
  refine Changes.ite ?_ ?_
  · exact h0t
  · extract_lets -merge -useContext x0 x1
    have h2 : Changes L s x0 := setRetrainPending_changes (sub_of hL rfl) h0t _ _ _
    have h3 : Changes L s x1 := Changes.ite (State.evt_changes (sub_of hL rfl) h2 _ _) h2
    try clear_value x0 x1
    exact startRetrains_changes (sub_of hL rfl) h3

theorem autoRetrain_changes {L : List Part} {s t0 : State} (hL : sub [.regs, .stp, .clp] L = true) (h0t : Changes L s t0) (a1 : Nat) (a2 : Nat) :
    Changes L s (autoRetrain t0 a1 a2) := by
  unfold autoRetrain
  refine Changes.ite ?_ ?_
  · exact h0t
  · extract_lets -merge -useContext x0 x1 x2 x3
    try clear_value x0 x1 x2
    have h4 : Changes L s x3 := Changes.ite h0t (State.enterFrame_changes (sub_of hL rfl) h0t _ _)
    try clear_value x3
    exact startRetrains_changes (sub_of hL rfl) (setRetrainPending_changes (sub_of hL rfl) h4 _ _ _)

theorem startLane_changes {L : List Part} {s t0 : State} (hL : sub [.regs, .clp] L = true) (h0t : Changes L s t0) (a1 : Nat) (a2 : Nat) :
    Changes L s (startLane t0 a1 a2) := by
  unfold startLane
  extract_lets -merge -useContext x0 x1 x2
  try clear_value x0 x1
  have h3 : Changes L s x2 := State.setN_changes (sub_of hL rfl) h0t _ _
  try clear_value x2
  exact setLane_changes (sub_of hL rfl) (State.setN_changes (sub_of hL rfl) h3 _ _) _ _ _

theorem clpEnable_changes {L : List Part} {s t0 : State} (hL : sub [.regs, .clp] L = true) (h0t : Changes L s t0) (a1 : Nat) :
    Changes L s (clpEnable t0 a1) := by
  unfold clpEnable
  refine Changes.ite ?_ ?_
  · exact h0t
  · refine Changes.ite ?_ ?_
    · exact State.failCheck_changes (sub_of hL rfl) h0t _ _ _ _
    · extract_lets -merge -useContext x0 x1 x2 x3
      have h4 : Changes L s x0 := State.activate_changes (sub_of hL rfl) h0t _
      have h5 : Changes L s x1 := Changes.foldl (fun x6 _ h7 => (startLane_changes (sub_of hL rfl) h7 _ _)) h4
      have h8 : Changes L s x2 := Changes.foldl (fun x9 _ h10 => (setLink_changes (sub_of hL rfl) h10 _ _)) h5
      have h11 : Changes L s x3 := State.setN_changes (sub_of hL rfl) h8 _ _
      try clear_value x0 x1 x2 x3
      exact settleClp_changes (sub_of hL rfl) (Changes.foldl (fun x12 _ h13 => (setLinkState_changes (sub_of hL rfl) h13 _ _)) h11)

theorem clpDisable_changes {L : List Part} {s t0 : State} (hL : sub [.regs, .clp] L = true) (h0t : Changes L s t0) (a1 : Nat) :
    Changes L s (clpDisable t0 a1) := by
  unfold clpDisable
  refine Changes.ite ?_ ?_
  · exact h0t
  · extract_lets -merge -useContext x0 x1 x2
    have h3 : Changes L s x0 := State.deactivate_changes (sub_of hL rfl) h0t _
    have h4 : Changes L s x1 := Changes.foldl (fun x5 _ h6 => (setLane_changes (sub_of hL rfl) (State.setN_changes (sub_of hL rfl) h6 _ _) _ _ _)) h3
    have h7 : Changes L s x2 := Changes.foldl (fun x8 _ h9 => (setLink_changes (sub_of hL rfl) h9 _ _)) h4
    try clear_value x0 x1 x2
    exact settleClp_changes (sub_of hL rfl) (startRetrains_changes (sub_of hL rfl) (State.setReg_changes (sub_of hL rfl) h7 _ _))

theorem laneCdrLock_changes {L : List Part} {s t0 : State} (hL : sub [.regs] L = true) (h0t : Changes L s t0) (a1 : Nat) (a2 : Nat) :
    Changes L s (laneCdrLock t0 a1 a2) := by
  unfold laneCdrLock
  exact Changes.ite (setLaneSt_changes (sub_of hL rfl) h0t _ _ _) h0t

theorem laneCdrTimeout_changes {L : List Part} {s t0 : State} (hL : sub [.regs, .clp, .faults, .sent] L = true) (h0t : Changes L s t0) (a1 : Nat) (a2 : Nat) :
    Changes L s (laneCdrTimeout t0 a1 a2) := by
  unfold laneCdrTimeout
  exact Changes.ite (trainFail_changes (sub_of hL rfl) h0t _ _) h0t

theorem setFom_changes {L : List Part} {s t0 : State} (hL : sub [.regs] L = true) (h0t : Changes L s t0) (a1 : Nat) (a2 : Nat) (a3 : Nat) :
    Changes L s (setFom t0 a1 a2 a3) := by
  unfold setFom
  extract_lets -merge -useContext x0
  try clear_value x0
  exact State.setN_changes (sub_of hL rfl) h0t _ _

theorem laneAdaptComplete_changes {L : List Part} {s t0 : State} (hL : sub [.regs, .clp, .faults, .sent] L = true) (h0t : Changes L s t0) (a1 : Nat) (a2 : Nat) (a3 : List Sys2Proof.SweepPoint) (a4 : List Sys2Proof.SweepPoint) :
    Changes L s (laneAdaptComplete t0 a1 a2 a3 a4) := by
  unfold laneAdaptComplete
  refine Changes.ite ?_ ?_
  · exact h0t
  · extract_lets -merge -useContext x0 x1 x2 x3
    try clear_value x0 x1 x2 x3
    split
    · rename_i x4 x5
      exact setLaneSt_changes (sub_of hL rfl) (setFom_changes (sub_of hL rfl) (State.setN_changes (sub_of hL rfl) h0t _ _) _ _ _) _ _ _
    · rename_i x6
      exact trainFail_changes (sub_of hL rfl) h0t _ _

theorem noteSkew_changes {L : List Part} {s t0 : State} (hL : sub [.regs] L = true) (h0t : Changes L s t0) (a1 : Nat) (a2 : Nat) :
    Changes L s (noteSkew t0 a1 a2) := by
  unfold noteSkew
  exact State.setF_changes (sub_of hL rfl) h0t _ _ _ _

theorem laneAlignComplete_changes {L : List Part} {s t0 : State} (hL : sub [.regs, .clp, .faults, .sent] L = true) (h0t : Changes L s t0) (a1 : Nat) (a2 : Nat) (a3 : Nat) :
    Changes L s (laneAlignComplete t0 a1 a2 a3) := by
  unfold laneAlignComplete
  refine Changes.ite ?_ ?_
  · exact h0t
  · extract_lets -merge -useContext x0 x1 x2 x3 x4 x5 x6
    try clear_value x0 x2 x3 x5
    have h7 : Changes L s x1 := noteSkew_changes (sub_of hL rfl) h0t _ _
    have h8 : Changes L s x4 := setLane_changes (sub_of hL rfl) (setLaneSt_changes (sub_of hL rfl) h7 _ _ _) _ _ _
    have h9 : Changes L s x6 := Changes.ite (setLink_changes (sub_of hL rfl) (State.evt_changes (sub_of hL rfl) h8 _ _) _ _) h8
    try clear_value x1 x4 x6
    exact Changes.ite (trainFail_changes (sub_of hL rfl) h7 _ _) (afterLane_changes (sub_of hL rfl) h9 _ _)

theorem laneAlignTimeout_changes {L : List Part} {s t0 : State} (hL : sub [.regs, .clp, .faults, .sent] L = true) (h0t : Changes L s t0) (a1 : Nat) (a2 : Nat) :
    Changes L s (laneAlignTimeout t0 a1 a2) := by
  unfold laneAlignTimeout
  exact Changes.ite (trainFail_changes (sub_of hL rfl) h0t _ _) h0t

theorem laneFails_changes {L : List Part} {s t0 : State} (hL : sub [.regs, .clp, .faults, .sent] L = true) (h0t : Changes L s t0) (a1 : Nat) (a2 : Nat) (a3 : Sys2Proof.LaneCause) :
    Changes L s (laneFails t0 a1 a2 a3) := by
  unfold laneFails
  exact Changes.ite h0t (Changes.ite (trainFail_changes (sub_of hL rfl) h0t _ _) (afterLane_changes (sub_of hL rfl) (failLane_changes (sub_of hL rfl) h0t _ _) _ _))

theorem noteError_changes {L : List Part} {s t0 : State} (hL : sub [.clp] L = true) (h0t : Changes L s t0) (a1 : Nat) (a2 : Nat) :
    Changes L s (noteError t0 a1 a2) := by
  unfold noteError
  extract_lets -merge -useContext x0 x1
  try clear_value x0 x1
  exact setLane_changes (sub_of hL rfl) h0t _ _ _

theorem countChar_changes {L : List Part} {s t0 : State} (hL : sub [.regs, .clp] L = true) (h0t : Changes L s t0) (a1 : Nat) (a2 : Nat) (a3 : Sys2Proof.Machine.LaneChar) :
    Changes L s (countChar t0 a1 a2 a3) := by
  unfold countChar
  extract_lets -merge -useContext x0 x1
  try clear_value x1
  have h2 : Changes L s x0 := Changes.ite (noteError_changes (sub_of hL rfl) (State.inc32_changes (sub_of hL rfl) h0t _) _ _) (Changes.ite (noteError_changes (sub_of hL rfl) (State.inc32_changes (sub_of hL rfl) h0t _) _ _) h0t)
  try clear_value x0
  exact setLane_changes (sub_of hL rfl) h2 _ _ _

theorem abortPacket_changes {L : List Part} {s t0 : State} (hL : sub [.regs, .clp] L = true) (h0t : Changes L s t0) (a1 : Nat) :
    Changes L s (abortPacket t0 a1) := by
  unfold abortPacket
  extract_lets -merge -useContext x0 x1 x2
  try clear_value x0 x2
  have h3 : Changes L s x1 := by
    unfold x1
    split
    · rename_i x4 x5 x6 x7 heq8
      exact Changes.foldl (fun x9 _ h10 => (State.inc32_changes (sub_of hL rfl) h10 _)) h0t
    · rename_i x11 heq12
      exact h0t
  try clear_value x1
  exact setLink_changes (sub_of hL rfl) h3 _ _

theorem countLanes_changes {L : List Part} {s t0 : State} (hL : sub [.regs, .clp] L = true) (h0t : Changes L s t0) (a1 : Nat) (a2 : List Sys2Proof.LaneGroup) :
    Changes L s (countLanes t0 a1 a2) := by
  unfold countLanes
  exact Changes.foldl (fun x0 _ h1 => (countChar_changes (sub_of hL rfl) h1 _ _ _)) h0t

theorem addBytes_changes {L : List Part} {s t0 : State} (hL : sub [.clp] L = true) (h0t : Changes L s t0) (a1 : Nat) (a2 : List (BitVec 8)) :
    Changes L s (addBytes t0 a1 a2) := by
  unfold addBytes
  exact Changes.ite h0t (setLink_changes (sub_of hL rfl) h0t _ _)

theorem clpDataRow_changes {L : List Part} {s t0 : State} (hL : sub [.regs, .clp] L = true) (h0t : Changes L s t0) (a1 : Nat) (a2 : Bool) (a3 : List Sys2Proof.LaneGroup) :
    Changes L s (clpDataRow t0 a1 a2 a3) := by
  unfold clpDataRow
  extract_lets -merge -useContext x0 x1 x2 x3 x4 x5 x6 x7
  try clear_value x0 x1 x2 x4 x5 x6
  have h8 : Changes L s x3 := countLanes_changes (sub_of hL rfl) h0t _ _
  have h9 : Changes L s x7 := by
    unfold x7
    split
    · rename_i x10 x11
      exact Changes.ite (noteError_changes (sub_of hL rfl) h8 _ _) h8
    · rename_i x12 heq13
      exact h8
  try clear_value x3 x7
  refine Changes.ite ?_ ?_
  · exact h0t
  · split
    · rename_i x14 heq15
      exact addBytes_changes (sub_of hL rfl) h9 _ _
    · rename_i x16 x17 heq18
      split
      · rename_i x19 x20
        extract_lets -merge -useContext x21
        try clear_value x21
        exact addBytes_changes (sub_of hL rfl) (State.inc32_changes (sub_of hL rfl) h8 _) _ _
      · rename_i x22 x23
        exact abortPacket_changes (sub_of hL rfl) h8 _
      · rename_i x24
        exact addBytes_changes (sub_of hL rfl) h8 _ _
    · rename_i x25 heq26 heq27
      exact abortPacket_changes (sub_of hL rfl) h8 _

theorem bamSend_changes {L : List Part} {s t0 : State} (hL : sub [.clp, .sent] L = true) (h0t : Changes L s t0) (a1 : Nat) (a2 : Bool) :
    Changes L s (bamSend t0 a1 a2) := by
  unfold bamSend
  extract_lets -merge -useContext x0 x1 x2 x3
  try clear_value x0 x1 x2
  have h4 : Changes L s x3 := setLink_changes (sub_of hL rfl) h0t _ _
  try clear_value x3
  exact Changes.ite h0t (Changes.set_sent (sub_of hL rfl) h4 _)

theorem skpAdjust_changes {L : List Part} {s t0 : State} (hL : sub [.regs] L = true) (h0t : Changes L s t0) (a1 : Nat) (a2 : Int) :
    Changes L s (skpAdjust t0 a1 a2) := by
  unfold skpAdjust
  exact Changes.ite (State.incSat_changes (sub_of hL rfl) h0t _ _ _ _) (State.incSat_changes (sub_of hL rfl) h0t _ _ _ _)

theorem applyNarrow_changes {L : List Part} {s t0 : State} (hL : sub [.regs, .clp, .ing, .faults] L = true) (h0t : Changes L s t0) (a1 : Nat) (a2 : Nat) :
    Changes L s (applyNarrow t0 a1 a2) := by
  unfold applyNarrow
  extract_lets -merge -useContext x0 x1 x2 x3 x4 x5
  try clear_value x0 x1 x4
  have h6 : Changes L s x2 := State.setF_changes (sub_of hL rfl) h0t _ _ _ _
  have h7 : Changes L s x3 := setLinkState_changes (sub_of hL rfl) h6 _ _
  have h8 : Changes L s x5 := setLink_changes (sub_of hL rfl) h7 _ _
  try clear_value x2 x3 x5
  exact shedInputs_changes (sub_of hL rfl) (State.raise_changes (sub_of hL rfl) (State.evt_changes (sub_of hL rfl) h8 _ _) _ _ _ _) _

theorem atBam_changes {L : List Part} {s t0 : State} (hL : sub [.regs, .clp, .ing, .faults] L = true) (h0t : Changes L s t0) (a1 : Nat) :
    Changes L s (atBam t0 a1) := by
  unfold atBam
  extract_lets -merge -useContext x0 x1 x2 x3 x4 x5 x6 x7
  try clear_value x0 x1 x5 x7
  have h8 : Changes L s x2 := by
    unfold x2
    split
    · rename_i x9 x10 heq11
      exact State.evt_changes (sub_of hL rfl) (setLinkState_changes (sub_of hL rfl) (setLink_changes (sub_of hL rfl) h0t _ _) _ _) _ _
    · rename_i x12 heq13
      exact h0t
  have h14 : Changes L s x3 := by
    unfold x3
    refine Changes.foldl (fun x19 _ h20 => ?_) ?_
    · extract_lets -merge -useContext x21 x22
      try clear_value x22
      have h23 : Changes L s x21 := setLaneFailed_changes (sub_of hL rfl) h20 _ _ _
      try clear_value x21
      exact Changes.ite (State.evt_changes (sub_of hL rfl) (setLinkState_changes (sub_of hL rfl) (setLink_changes (sub_of hL rfl) h23 _ _) _ _) _ _) h23
    · exact h8
  have h24 : Changes L s x4 := by
    unfold x4
    refine Changes.foldl (fun x29 _ h30 => ?_) ?_
    · extract_lets -merge -useContext x31 x32 x33 x34
      try clear_value x31 x34
      have h35 : Changes L s x32 := Changes.ite (setLaneSt_changes (sub_of hL rfl) h30 _ _ _) h30
      have h36 : Changes L s x33 := by
        unfold x33
        split
        · rename_i x37 x38
          exact State.setN_changes (sub_of hL rfl) h35 _ _
        · rename_i x39
          exact h35
      try clear_value x32 x33
      exact setLane_changes (sub_of hL rfl) h36 _ _ _
    · exact h14
  have h40 : Changes L s x6 := setLink_changes (sub_of hL rfl) h24 _ _
  try clear_value x2 x3 x4 x6
  split
  · rename_i x41 x42 x43 heq44
    exact Changes.ite (applyNarrow_changes (sub_of hL rfl) h40 _ _) (setLink_changes (sub_of hL rfl) h40 _ _)
  · rename_i x45 heq46
    exact h40

theorem bamReceived_changes {L : List Part} {s t0 : State} (hL : sub [.regs, .clp, .ing, .faults] L = true) (h0t : Changes L s t0) (a1 : Nat) (a2 : Bool) (a3 : List Sys2Proof.BamLane) (a4 : Int) :
    Changes L s (bamReceived t0 a1 a2 a3 a4) := by
  unfold bamReceived
  extract_lets -merge -useContext x0 x1 x2 x3
  try clear_value x0 x1 x2 x3
  refine Changes.ite ?_ ?_
  · exact h0t
  · split
    · rename_i x4 heq5
      exact h0t
    · rename_i x6 x7 heq8
      extract_lets -merge -useContext x9 x10 x11 x12 x13 x14
      try clear_value x9 x11
      have h15 : Changes L s x10 := Changes.foldl (fun x16 _ h17 => (setLane_changes (sub_of hL rfl) h17 _ _ _)) h0t
      have h18 : Changes L s x12 := setLink_changes (sub_of hL rfl) h15 _ _
      have h19 : Changes L s x13 := Changes.ite (State.setF_changes (sub_of hL rfl) h18 _ _ _ _) h18
      have h20 : Changes L s x14 := Changes.foldl (fun x21 _ h22 => (noteSkew_changes (sub_of hL rfl) h22 _ _)) h19
      try clear_value x10 x12 x13 x14
      exact settleClp_changes (sub_of hL rfl) (startRetrains_changes (sub_of hL rfl) (atBam_changes (sub_of hL rfl) (skpAdjust_changes (sub_of hL rfl) h20 _ _) _))

theorem narrow_changes {L : List Part} {s t0 : State} (hL : sub [.clp, .sent] L = true) (h0t : Changes L s t0) (a1 : Nat) (a2 : Bool) (a3 : Nat) (a4 : Nat) :
    Changes L s (narrow t0 a1 a2 a3 a4) := by
  unfold narrow
  extract_lets -merge -useContext x0 x1 x2
  try clear_value x0 x2
  have h3 : Changes L s x1 := sendSet_changes (sub_of hL rfl) h0t _ _ _
  try clear_value x1
  exact Changes.ite h0t (setLink_changes (sub_of hL rfl) h3 _ _)

theorem narrowAck_changes {L : List Part} {s t0 : State} (hL : sub [.clp] L = true) (h0t : Changes L s t0) (a1 : Nat) (a2 : Bool) (a3 : Nat) (a4 : Nat) :
    Changes L s (narrowAck t0 a1 a2 a3 a4) := by
  unfold narrowAck
  extract_lets -merge -useContext x0 x1
  try clear_value x0 x1
  split
  · rename_i x2 x3 heq4
    exact Changes.ite (setLink_changes (sub_of hL rfl) h0t _ _) h0t
  · rename_i x5 heq6
    exact h0t

theorem statusSet_changes {L : List Part} {s t0 : State} (hL : sub [.clp, .sent] L = true) (h0t : Changes L s t0) (a1 : Nat) (a2 : Bool) (a3 : Option (BitVec 8 × BitVec 8)) :
    Changes L s (statusSet t0 a1 a2 a3) := by
  unfold statusSet
  extract_lets -merge -useContext x0 x1
  try clear_value x0 x1
  refine Changes.ite ?_ ?_
  · exact h0t
  · split
    · rename_i x2
      exact sendSet_changes (sub_of hL rfl) h0t _ _ _
    · rename_i x3 x4 x5
      exact Changes.ite (setLink_changes (sub_of hL rfl) h0t _ _) h0t

theorem clpBundleDown_changes {L : List Part} {s t0 : State} (hL : sub [.regs, .clp, .faults] L = true) (h0t : Changes L s t0) (a1 : Nat) (a2 : Bool) :
    Changes L s (clpBundleDown t0 a1 a2) := by
  unfold clpBundleDown
  extract_lets -merge -useContext x0 x1 x2
  try clear_value x0 x1
  have h3 : Changes L s x2 := setLink_changes (sub_of hL rfl) h0t _ _
  try clear_value x2
  exact Changes.ite h0t (settleClp_changes (sub_of hL rfl) (State.raise_changes (sub_of hL rfl) (State.evt_changes (sub_of hL rfl) (setLinkState_changes (sub_of hL rfl) h3 _ _) _ _) _ _ _ _))

theorem powerRequest_changes {L : List Part} {s t0 : State} (hL : sub [.regs] L = true) (h0t : Changes L s t0) (a1 : Nat) (a2 : Nat) (a3 : Nat) :
    Changes L s (powerRequest t0 a1 a2 a3) := by
  unfold powerRequest
  extract_lets -merge -useContext x0 x1
  try clear_value x0
  have h2 : Changes L s x1 := State.setF_changes (sub_of hL rfl) h0t _ _ _ _
  try clear_value x1
  exact Changes.ite (State.evt_changes (sub_of hL rfl) h0t _ _) (Changes.ite h2 (Changes.ite (setLaneSt_changes (sub_of hL rfl) (setLanePower_changes (sub_of hL rfl) h2 _ _ _) _ _ _) (Changes.ite (setLaneSt_changes (sub_of hL rfl) (setLanePower_changes (sub_of hL rfl) h2 _ _ _) _ _ _) h2)))

theorem lanePowerRequest_changes {L : List Part} {s t0 : State} (hL : sub [.regs] L = true) (h0t : Changes L s t0) (a1 : Nat) (a2 : Sys2Proof.Word) :
    Changes L s (lanePowerRequest t0 a1 a2) := by
  unfold lanePowerRequest
  exact Changes.ite (Changes.foldl (fun x0 _ h1 => (powerRequest_changes (sub_of hL rfl) h1 _ _ _)) h0t) h0t

theorem lanePowerExit_changes {L : List Part} {s t0 : State} (hL : sub [.regs] L = true) (h0t : Changes L s t0) (a1 : Nat) (a2 : Nat) :
    Changes L s (lanePowerExit t0 a1 a2) := by
  unfold lanePowerExit
  exact Changes.ite (setLaneSt_changes (sub_of hL rfl) (setLanePower_changes (sub_of hL rfl) h0t _ _ _) _ _ _) h0t

theorem laneClr_changes {L : List Part} {s t0 : State} (hL : sub [.regs] L = true) (h0t : Changes L s t0) (a1 : Nat) (a2 : Nat) :
    Changes L s (laneClr t0 a1 a2) := by
  unfold laneClr
  exact Changes.ite (State.setF_changes (sub_of hL rfl) (State.setReg_changes (sub_of hL rfl) (State.setReg_changes (sub_of hL rfl) h0t _ _) _ _) _ _ _ _) h0t

end Sys2Proof.Machine
end

