-- ==== Sys2Proof/Laws/ChangesInIngest.lean ====
section
/-! SUPPORT. What each function of Ingest.lean changes at most: one lemma for each. -/

namespace Sys2Proof.Machine

theorem meterDrop_changes {L : List Part} {s t u : State} (hL : sub [.regs] L = true) (h : Changes L s t) (i : Nat) (b : Bool)
  (c : Colour) (f : Nat) (hu : meterDrop t i b c f = some u) : Changes L s u := by
  unfold meterDrop at hu
  dsimp only at hu
  split at hu <;> (try split at hu) <;> cases hu
  all_goals exact State.evt_changes (sub_of hL rfl) (State.wrapAdd_changes (sub_of hL rfl) h _ _) _ _

theorem storeIn_changes {L : List Part} {s t0 : State} (hL : sub [.ing] L = true) (h0t : Changes L s t0) (a1 : Nat) (a2 : Bool) (a3 : Nat) (a4 : Nat) (a5 : Option Nat) (a6 : List (BitVec 16)) :
    Changes L s (storeIn t0 a1 a2 a3 a4 a5 a6) := by
  unfold storeIn
  extract_lets -merge -useContext x0
  try clear_value x0
  exact setRaw_changes (sub_of hL rfl) h0t _ _ _ _ _

theorem blackFailed_changes {L : List Part} {s t0 : State} (hL : sub [.ing, .hbm] L = true) (h0t : Changes L s t0) (a1 : Nat) (a2 : Nat) (a3 : Nat) :
    Changes L s (blackFailed t0 a1 a2 a3) := by
  unfold blackFailed
  extract_lets -merge -useContext x0 x1 x2 x3
  try clear_value x0 x1 x2 x3
  split
  · rename_i x4 heq5
    exact h0t
  · rename_i x6 x7 x8 heq9
    extract_lets -merge -useContext x10 x11
    try clear_value x10
    have h12 : Changes L s x11 := setRaw_changes (sub_of hL rfl) h0t _ _ _ _ _
    try clear_value x11
    exact Changes.ite (readDone_changes (sub_of hL rfl) h12 _ _) h0t

theorem repeatRead_changes {L : List Part} {s t0 : State} (hL : sub [.ing, .hbm] L = true) (h0t : Changes L s t0) (a1 : Nat) (a2 : Nat) (a3 : Nat) :
    Changes L s (repeatRead t0 a1 a2 a3) := by
  unfold repeatRead
  exact Changes.foldl (fun x0 _ h1 => (blackFailed_changes (sub_of hL rfl) h1 _ _ _)) (repeatPart_changes (sub_of hL rfl) h0t _ _ _)

theorem storePart_changes {L : List Part} {s t0 : State} (hL : sub [.ing, .hbm] L = true) (h0t : Changes L s t0) (a1 : Nat) (a2 : Bool) (a3 : Nat) (a4 : Nat) (a5 : Option Nat) (a6 : Bool) (a7 : List Nat) :
    Changes L s (storePart t0 a1 a2 a3 a4 a5 a6 a7) := by
  unfold storePart
  exact Changes.ite (repeatRead_changes (sub_of hL rfl) h0t _ _ _) (Changes.foldl (fun x0 _ h1 => (storeIn_changes (sub_of hL rfl) h1 _ _ _ _ _ _)) (storeIn_changes (sub_of hL rfl) h0t _ _ _ _ _ _))

theorem markLanded_changes {L : List Part} {s t0 : State} (hL : sub [.ing] L = true) (h0t : Changes L s t0) (a1 : Nat) (a2 : Bool) (a3 : Nat) (a4 : Nat) :
    Changes L s (markLanded t0 a1 a2 a3 a4) := by
  unfold markLanded
  extract_lets -merge -useContext x0 x1
  try clear_value x0 x1
  exact modInp_changes (sub_of hL rfl) h0t _ _

theorem noteLineSkew_changes {L : List Part} {s t0 : State} (hL : sub [.regs, .ing] L = true) (h0t : Changes L s t0) (a1 : Nat) (a2 : Nat) (a3 : Bool) :
    Changes L s (noteLineSkew t0 a1 a2 a3) := by
  unfold noteLineSkew
  refine Changes.ite ?_ ?_
  · exact h0t
  · extract_lets -merge -useContext x0 x1 x2 x3
    try clear_value x0 x1 x2
    have h4 : Changes L s x3 := setInp_changes (sub_of hL rfl) h0t _ _
    try clear_value x3
    exact State.setN_changes (sub_of hL rfl) h4 _ _

theorem rasterPacket_changes {L : List Part} {s t0 : State} (hL : sub [.regs, .ing, .hbm] L = true) (h0t : Changes L s t0) (a1 : Nat) (a2 : Sys2Proof.Word) (a3 : List (BitVec 8)) (a4 : Bool) :
    Changes L s (rasterPacket t0 a1 a2 a3 a4) := by
  unfold rasterPacket
  extract_lets -merge -useContext x0 x1 x2
  try clear_value x0 x1 x2
  refine Changes.ite ?_ ?_
  · exact h0t
  · split
    · rename_i x3 heq4
      exact State.inc32_changes (sub_of hL rfl) h0t _
    · rename_i x5 heq6
      exact h0t
    · rename_i x7 x8 x9 heq10
      refine Changes.ite ?_ ?_
      · exact h0t
      · extract_lets -merge -useContext x11 x12
        have h13 : Changes L s x11 := modInp_changes (sub_of hL rfl) h0t _ _
        have h14 : Changes L s x12 := storePart_changes (sub_of hL rfl) h13 _ _ _ _ _ _ _
        try clear_value x11 x12
        exact noteLineSkew_changes (sub_of hL rfl) (markLanded_changes (sub_of hL rfl) h14 _ _ _ _) _ _ _

theorem ancillaryPacket_changes {L : List Part} {s t0 : State} (hL : sub [.ing] L = true) (h0t : Changes L s t0) (a1 : Nat) (a2 : Nat) (a3 : List Nat) :
    Changes L s (ancillaryPacket t0 a1 a2 a3) := by
  unfold ancillaryPacket
  refine Changes.ite ?_ ?_
  · exact h0t
  · extract_lets -merge -useContext x0 x1 x2 x3
    try clear_value x0 x1 x2
    have h4 : Changes L s x3 := Changes.set_ing (sub_of hL rfl) h0t _
    try clear_value x3
    exact setInp_changes (sub_of hL rfl) h4 _ _

theorem formatPacket_changes {L : List Part} {s t0 : State} (hL : sub [.regs, .ing] L = true) (h0t : Changes L s t0) (a1 : Nat) (a2 : List Nat) :
    Changes L s (formatPacket t0 a1 a2) := by
  unfold formatPacket
  exact Changes.ite h0t (State.evt_changes (sub_of hL rfl) (modInp_changes (sub_of hL rfl) h0t _ _) _ _)

theorem deliver_changes {L : List Part} {s t1 : State} {a0 : Sys2Proof.Machine.State → Nat → Sys2Proof.Word → List Nat → Sys2Proof.Machine.State} (hL : sub [.ing, .regs, .hbm] L = true) (h1t : Changes L s t1) (a0h : ∀ y0 y1 y2 y3, Changes L s y0 → Changes L s (a0 y0 y1 y2 y3)) (a2 : Nat) (a3 : Nat) (a4 : Nat) (a5 : Sys2Proof.Word) (a6 : List Nat) :
    Changes L s (deliver a0 t1 a2 a3 a4 a5 a6) := by
  unfold deliver
  split
  · exact rasterPacket_changes (sub_of hL rfl) h1t _ _ _ _
  · exact ancillaryPacket_changes (sub_of hL rfl) h1t _ _ _
  · exact a0h _ _ _ _ h1t
  · exact formatPacket_changes (sub_of hL rfl) h1t _ _
  · exact h1t

theorem clpPacket_changes {L : List Part} {s t1 : State} {a0 : Sys2Proof.Machine.State → Nat → Sys2Proof.Word → List Nat → Sys2Proof.Machine.State} {a1 : Sys2Proof.Machine.State → Nat → Nat → List Nat → Sys2Proof.Machine.State} (hL : sub [.clp, .regs, .ing, .hbm] L = true) (h1t : Changes L s t1) (a0h : ∀ y0 y1 y2 y3, Changes L s y0 → Changes L s (a0 y0 y1 y2 y3)) (a1h : ∀ y0 y1 y2 y3, Changes L s y0 → Changes L s (a1 y0 y1 y2 y3)) (a2 : Nat) (a3 : Bool) (a4 : List LaneGroup) :
    Changes L s (clpPacket a0 a1 t1 a2 a3 a4) := by
  unfold clpPacket
  refine Changes.ite h1t ?_
  extract_lets -merge -useContext u bytes ins src ended
  have hu : Changes L s u := countLanes_changes (sub_of hL rfl) h1t _ _
  have he : Changes L s ended := setLink_changes (sub_of hL rfl) hu _ _
  clear_value bytes ins ended u
  refine Changes.ite (Changes.ite he (Changes.foldl (fun _ _ h => State.inc32_changes (sub_of hL rfl) h _) he)) (Changes.ite (Changes.ite he ?_) hu)
  split
  · exact Changes.foldl (fun _ _ h => State.inc32_changes (sub_of hL rfl) h _) he
  · exact Changes.ite (a1h _ _ _ _ he) (Changes.foldl (fun _ _ h => deliver_changes (sub_of hL rfl) h a0h _ _ _ _ _) he)

theorem meter_changes {L : List Part} {s t0 : State} (hL : sub [.ing] L = true) (h0t : Changes L s t0) (a1 : Nat) (a2 : Bool) (a3 : Nat) :
    Changes L s (meter t0 a1 a2 a3).2 := by
  unfold meter
  extract_lets -merge -useContext x0 x1
  try clear_value x0 x1
  exact setInp_changes (sub_of hL rfl) h0t _ _

theorem pathUp_changes {L : List Part} {s t0 : State} (hL : sub [.regs, .ing] L = true) (h0t : Changes L s t0) (a1 : Nat) (a2 : Bool) :
    Changes L s (pathUp t0 a1 a2) := by
  unfold pathUp
  extract_lets -merge -useContext x0 x1 x2 x3
  try clear_value x0 x2
  have h4 : Changes L s x1 := setInp_changes (sub_of hL rfl) h0t _ _
  have h5 : Changes L s x3 := Changes.ite h4 (State.unitDegraded_changes (sub_of hL rfl) h4 _ _)
  try clear_value x1 x3
  exact Changes.ite (settlePaths_changes (sub_of hL rfl) h5) h5

theorem mergeSeq_changes {L : List Part} {s t0 : State} (hL : sub [.regs, .ing] L = true) (h0t : Changes L s t0) (a1 : Nat) (a2 : Bool) (a3 : BitVec 32) :
    Changes L s (mergeSeq t0 a1 a2 a3).1 := by
  unfold mergeSeq
  extract_lets -merge -useContext x0 x1 x2
  try clear_value x0 x1 x2
  split
  · rename_i x3 x4 x5 x6 heq7
    extract_lets -merge -useContext x8 x9
    try clear_value x8 x9
    exact Changes.ite h0t (State.setN_changes (sub_of hL rfl) h0t _ _)
  · rename_i x10 heq11
    exact setInp_changes (sub_of hL rfl) h0t _ _

theorem landSeg_changes {L : List Part} {s t0 : State} (hL : sub [.ing, .hbm] L = true) (h0t : Changes L s t0) (a1 : Nat) (a2 : Bool) (a3 : Sys2Proof.SrdSeg) :
    Changes L s (landSeg t0 a1 a2 a3) := by
  unfold landSeg
  extract_lets -merge -useContext x0 x1 x2 x3 x4
  try clear_value x0 x2 x3
  have h5 : Changes L s x1 := storePart_changes (sub_of hL rfl) h0t _ _ _ _ _ _ _
  have h6 : Changes L s x4 := setInp_changes (sub_of hL rfl) h5 _ _
  try clear_value x1 x4
  exact Changes.ite (markLanded_changes (sub_of hL rfl) h6 _ _ _ _) h6

theorem landCopy_changes {L : List Part} {s t0 : State} (hL : sub [.regs, .ing, .hbm] L = true) (h0t : Changes L s t0) (a1 : Nat) (a2 : Bool) (a3 : BitVec 32) (a4 : BitVec 32) (a5 : List Sys2Proof.SrdSeg) :
    Changes L s (landCopy t0 a1 a2 a3 a4 a5) := by
  unfold landCopy
  split
  · rename_i x0 x1 heq2
    refine Changes.ite ?_ ?_
    · exact State.inc32_changes (sub_of hL rfl) h0t _
    · split
      rename_i x3 x4 x5 heq6
      have h7 : Changes L s x4 := by
        rw [show x4 = (x4, _).1 from rfl, ← heq6]
        exact mergeSeq_changes (sub_of hL rfl) h0t _ _ _
      exact Changes.ite (Changes.foldl (fun x8 _ h9 => (landSeg_changes (sub_of hL rfl) h9 _ _ _)) h7) h7
  · rename_i x10 heq11
    exact mergeSeq_changes (sub_of hL rfl) h0t _ _ _

theorem st2110Packet_changes {L : List Part} {s t0 : State} (hL : sub [.ing, .regs, .hbm] L = true) (h0t : Changes L s t0) (a1 : Nat) (a2 : Bool) (a3 r : BitVec 32) (a4 : List SrdSeg) (a5 : Nat) (a6 : Nat) :
    Changes L s (st2110Packet t0 a1 a2 a3 r a4 a5 a6) := by
  unfold st2110Packet
  refine Changes.ite h0t ?_
  have hm := meter_changes (L := L) (s := s) (sub_of hL rfl) (pathUp_changes (sub_of hL rfl) h0t a1 a2) a1 a2 a5
  split
  rename_i colour t ht
  rw [ht] at hm
  split
  · rename_i u hu
    exact meterDrop_changes (sub_of hL rfl) hm _ _ _ _ hu
  · exact landCopy_changes (sub_of hL rfl) hm _ _ _ _ _

theorem ingestPathDown_changes {L : List Part} {s t0 : State} (hL : sub [.regs, .ing, .faults] L = true) (h0t : Changes L s t0) (a1 : Nat) (a2 : Bool) :
    Changes L s (ingestPathDown t0 a1 a2) := by
  unfold ingestPathDown
  extract_lets -merge -useContext x0 x1
  try clear_value x0
  have h2 : Changes L s x1 := setInp_changes (sub_of hL rfl) h0t _ _
  try clear_value x1
  exact Changes.ite h0t (State.raise_changes (sub_of hL rfl) (State.evt_changes (sub_of hL rfl) h2 _ _) _ _ _ _)

theorem countSeqLost_changes {L : List Part} {s t0 : State} (hL : sub [.regs, .ing] L = true) (h0t : Changes L s t0) (a1 : Nat) :
    Changes L s (countSeqLost t0 a1) := by
  unfold countSeqLost
  exact Changes.ite (State.wrapAdd_changes (sub_of hL rfl) (modInp_changes (sub_of hL rfl) h0t _ _) _ _) h0t

theorem lineMissing_changes {L : List Part} {s t0 : State} (hL : sub [.regs, .stp, .ing, .hbm] L = true) (h0t : Changes L s t0) (a1 : Nat) (a2 : Nat) (a3 : Nat) :
    Changes L s (lineMissing t0 a1 a2 a3) := by
  unfold lineMissing
  extract_lets -merge -useContext x0 x1 x2 x3 x4
  try clear_value x0 x3
  have h5 : Changes L s x1 := by
    unfold x1
    split
    · rename_i x6 x7 heq8
      exact State.toPos_changes (sub_of hL rfl) h0t _
    · rename_i x9 heq10
      exact h0t
  have h11 : Changes L s x2 := repeatRead_changes (sub_of hL rfl) h5 _ _ _
  have h12 : Changes L s x4 := modInp_changes (sub_of hL rfl) h11 _ _
  try clear_value x1 x2 x4
  exact Changes.ite h0t (countSeqLost_changes (sub_of hL rfl) (State.evt_changes (sub_of hL rfl) (State.inc32_changes (sub_of hL rfl) h12 _) _ _) _)

theorem inputLost_changes {L : List Part} {s t0 : State} (hL : sub [.regs, .stp, .ing, .faults] L = true) (h0t : Changes L s t0) (a1 : Nat) (a2 : Sys2Proof.LossCause) :
    Changes L s (inputLost t0 a1 a2) := by
  unfold inputLost
  split
  · rename_i x0
    exact Changes.ite (declareLost_changes (sub_of hL rfl) (State.toFrameStart_changes (sub_of hL rfl) h0t) _ _) h0t
  · rename_i x1
    exact Changes.ite (declareLost_changes (sub_of hL rfl) h0t _ _) h0t
  · rename_i x2 heq3 heq4
    refine Changes.ite ?_ ?_
    · extract_lets -merge -useContext x5
      have h6 : Changes L s x5 := by
        unfold x5
        split
        · rename_i x7 x8 x9 x10 heq11 heq12
          exact Changes.ite (State.toPos_changes (sub_of hL rfl) h0t _) h0t
        · rename_i x13 x14 heq15
          exact h0t
      try clear_value x5
      exact declareLost_changes (sub_of hL rfl) h6 _ _
    · exact h0t

theorem freezeExpired_changes {L : List Part} {s t0 : State} (hL : sub [.regs, .stp] L = true) (h0t : Changes L s t0) (a1 : Nat) :
    Changes L s (freezeExpired t0 a1) := by
  unfold freezeExpired
  refine Changes.ite ?_ ?_
  · exact h0t
  · extract_lets -merge -useContext x0 x1 x2
    try clear_value x0 x2
    have h3 : Changes L s x1 := State.toPos_changes (sub_of hL rfl) (State.toFrameStart_changes (sub_of hL rfl) h0t) _
    try clear_value x1
    exact setInState_changes (sub_of hL rfl) h3 _ _ _ _

theorem inputReturned_changes {L : List Part} {s t0 : State} (hL : sub [.regs, .stp, .ing] L = true) (h0t : Changes L s t0) (a1 : Nat) :
    Changes L s (inputReturned t0 a1) := by
  unfold inputReturned
  extract_lets -merge -useContext x0 x1 x2 x3
  try clear_value x1 x2
  have h4 : Changes L s x0 := State.toFrameStart_changes (sub_of hL rfl) h0t
  have h5 : Changes L s x3 := setInp_changes (sub_of hL rfl) (setInState_changes (sub_of hL rfl) h4 _ _ _ _) _ _
  try clear_value x0 x3
  exact Changes.ite (Changes.ite (State.evt_changes (sub_of hL rfl) h5 _ _) h5) h0t

theorem inputEnable_changes {L : List Part} {s t0 : State} (hL : sub [.regs, .ing] L = true) (h0t : Changes L s t0) (a1 : Nat) :
    Changes L s (inputEnable t0 a1) := by
  unfold inputEnable
  refine Changes.ite ?_ ?_
  · exact h0t
  · split
    · rename_i x0 x1 heq2
      exact State.failCheck_changes (sub_of hL rfl) h0t _ _ _ _
    · rename_i x3 heq4
      extract_lets -merge -useContext x5 x6 x7
      try clear_value x5 x7
      have h8 : Changes L s x6 := setInState_changes (sub_of hL rfl) (State.activate_changes (sub_of hL rfl) h0t _) _ _ _ _
      try clear_value x6
      exact setInp_changes (sub_of hL rfl) (State.setF_changes (sub_of hL rfl) h8 _ _ _ _) _ _

theorem inputDisable_changes {L : List Part} {s t0 : State} (hL : sub [.regs, .ing] L = true) (h0t : Changes L s t0) (a1 : Nat) :
    Changes L s (inputDisable t0 a1) := by
  unfold inputDisable
  exact settlePaths_changes (sub_of hL rfl) (setInp_changes (sub_of hL rfl) (State.unitDegraded_changes (sub_of hL rfl) (setInState_changes (sub_of hL rfl) (State.deactivate_changes (sub_of hL rfl) h0t _) _ _ _ _) _ _) _ _)

theorem inStatClr_changes {L : List Part} {s t0 : State} (hL : sub [.regs] L = true) (h0t : Changes L s t0) (a1 : Nat) :
    Changes L s (inStatClr t0 a1) := by
  unfold inStatClr
  exact Changes.ite (State.clearRegs_changes (sub_of hL rfl) h0t _) h0t

theorem ingTableRead_changes {L : List Part} {s t0 : State} (hL : sub [.regs] L = true) (h0t : Changes L s t0) :
    Changes L s (ingTableRead t0) := by
  unfold ingTableRead
  refine Changes.ite ?_ ?_
  · exact h0t
  · extract_lets -merge -useContext x0
    try clear_value x0
    split
    · rename_i x1 heq2
      exact Changes.ite (State.tblDone_changes (sub_of hL rfl) (State.putData_changes (sub_of hL rfl) h0t _ _ _) _) (State.tblRefuse_changes (sub_of hL rfl) h0t _)
    · rename_i x3 heq4
      exact State.tblDone_changes (sub_of hL rfl) (State.putData_changes (sub_of hL rfl) h0t _ _ _) _
    · rename_i x5 heq6
      exact Changes.ite (State.tblDone_changes (sub_of hL rfl) (State.putData_changes (sub_of hL rfl) h0t _ _ _) _) (State.tblRefuse_changes (sub_of hL rfl) h0t _)
    · rename_i x7 heq8 heq9 heq10
      exact State.tblRefuse_changes (sub_of hL rfl) h0t _

theorem ingTableWrite_changes {L : List Part} {s t0 : State} (hL : sub [.regs, .ing] L = true) (h0t : Changes L s t0) :
    Changes L s (ingTableWrite t0) := by
  unfold ingTableWrite
  refine Changes.ite ?_ ?_
  · exact h0t
  · extract_lets -merge -useContext x0 x1 x2 x3
    try clear_value x0 x1 x2 x3
    exact Changes.ite (State.tblDone_changes (sub_of hL rfl) (Changes.set_ing (sub_of hL rfl) h0t _) _) (State.tblRefuse_changes (sub_of hL rfl) h0t _)

end Sys2Proof.Machine
end

