-- ==== Sys2Proof/Laws/ChangesInEgress.lean ====
section
/-! SUPPORT. What each function of Egress.lean changes at most: one lemma for each. -/

namespace Sys2Proof.Machine

theorem setFlowCtx_changes {L : List Part} {s t0 : State} (hL : sub [.etm] L = true) (h0t : Changes L s t0) (a1 : Nat) (a2 : List Sys2Proof.Word) :
    Changes L s (setFlowCtx t0 a1 a2) := by
  unfold setFlowCtx
  exact Changes.set_etm (sub_of hL rfl) h0t _

theorem setNodeEntry_changes {L : List Part} {s t0 : State} (hL : sub [.etm] L = true) (h0t : Changes L s t0) (a1 : Nat) (a2 : List Sys2Proof.Word) :
    Changes L s (setNodeEntry t0 a1 a2) := by
  unfold setNodeEntry
  exact Changes.set_etm (sub_of hL rfl) h0t _

theorem setNodeWord_changes {L : List Part} {s t0 : State} (hL : sub [.etm] L = true) (h0t : Changes L s t0) (a1 : Nat) (a2 : Nat) (a3 : Sys2Proof.Word) :
    Changes L s (setNodeWord t0 a1 a2 a3) := by
  unfold setNodeWord
  exact setNodeEntry_changes (sub_of hL rfl) h0t _ _

theorem showFlows_changes {L : List Part} {s t0 : State} (hL : sub [.regs] L = true) (h0t : Changes L s t0) (a1 : Nat) :
    Changes L s (showFlows t0 a1) := by
  unfold showFlows
  extract_lets -merge -useContext x0 x1 x2 x3
  try clear_value x0 x1
  have h4 : Changes L s x2 := State.setN_changes (sub_of hL rfl) h0t _ _
  have h5 : Changes L s x3 := State.setN_changes (sub_of hL rfl) h4 _ _
  try clear_value x2 x3
  exact State.setN_changes (sub_of hL rfl) h5 _ _

theorem showPorts_changes {L : List Part} {s t0 : State} (hL : sub [.regs] L = true) (h0t : Changes L s t0) :
    Changes L s (showPorts t0) := by
  unfold showPorts
  refine Changes.foldl (fun x2 _ h3 => ?_) ?_
  · extract_lets -merge -useContext x4
    try clear_value x4
    exact State.setBit_changes (sub_of hL rfl) (State.setBit_changes (sub_of hL rfl) h3 _ _ _) _ _ _
  · exact h0t

theorem showPaced_changes {L : List Part} {s t0 : State} (hL : sub [.regs] L = true) (h0t : Changes L s t0) :
    Changes L s (showPaced t0) := by
  unfold showPaced
  exact Changes.foldl (fun x0 _ h1 => (State.setN_changes (sub_of hL rfl) h1 _ _)) h0t

theorem enqueue_changes {L : List Part} {s t0 : State} (hL : sub [.etm] L = true) (h0t : Changes L s t0) (a1 : Sys2Proof.Machine.Copy) :
    Changes L s (enqueue t0 a1) := by
  unfold enqueue
  extract_lets -merge -useContext x0 x1 x2 x3 x4 x5 x6
  try clear_value x0 x1 x2 x3 x4 x5 x6
  exact Changes.ite (Changes.set_etm (sub_of hL rfl) h0t _) (Changes.set_etm (sub_of hL rfl) h0t _)

theorem markDepth_changes {L : List Part} {s t0 : State} (hL : sub [.etm] L = true) (h0t : Changes L s t0) (a1 : Sys2Proof.Machine.Copy) :
    Changes L s (markDepth t0 a1) := by
  unfold markDepth
  extract_lets -merge -useContext x0 x1 x2 x3 x4 x5
  try clear_value x0 x3 x4 x5
  have h6 : Changes L s x1 := Changes.ite (setFlowCtx_changes (sub_of hL rfl) h0t _ _) h0t
  have h7 : Changes L s x2 := setNodeWord_changes (sub_of hL rfl) h6 _ _ _
  try clear_value x1 x2
  exact Changes.set_etm (sub_of hL rfl) h7 _

theorem markSojourn_changes {L : List Part} {s t0 : State} (hL : sub [.etm] L = true) (h0t : Changes L s t0) (a1 : Sys2Proof.Machine.Copy) (a2 : Nat) :
    Changes L s (markSojourn t0 a1 a2) := by
  unfold markSojourn
  extract_lets -merge -useContext x0 x1 x2 x3 x4
  try clear_value x0 x3 x4
  have h5 : Changes L s x1 := Changes.ite (setFlowCtx_changes (sub_of hL rfl) h0t _ _) h0t
  have h6 : Changes L s x2 := setNodeWord_changes (sub_of hL rfl) h5 _ _ _
  try clear_value x1 x2
  exact Changes.set_etm (sub_of hL rfl) h6 _

theorem pruneUnits_changes {L : List Part} {s t0 : State} (hL : sub [.etm] L = true) (h0t : Changes L s t0) :
    Changes L s (pruneUnits t0) := by
  unfold pruneUnits
  exact Changes.set_etm (sub_of hL rfl) h0t _

theorem skipFlow_changes {L : List Part} {s t0 : State} (hL : sub [.regs, .etm] L = true) (h0t : Changes L s t0) (a1 : Nat) :
    Changes L s (skipFlow t0 a1) := by
  unfold skipFlow
  split
  · rename_i x0 heq1
    exact h0t
  · rename_i x2 x3 heq4
    extract_lets -merge -useContext x5 x6 x7 x8 x9
    try clear_value x5 x6 x8
    have h10 : Changes L s x7 := setFlowCtx_changes (sub_of hL rfl) h0t _ _
    have h11 : Changes L s x9 := Changes.set_etm (sub_of hL rfl) h10 _
    try clear_value x7 x9
    exact Changes.ite (State.evt_changes (sub_of hL rfl) (State.inc32_changes (sub_of hL rfl) h11 _) _ _) h0t

theorem skipFlows_changes {L : List Part} {s t0 : State} (hL : sub [.regs, .etm] L = true) (h0t : Changes L s t0) :
    Changes L s (skipFlows t0) := by
  unfold skipFlows
  refine Changes.foldl (fun x0 _ h1 => ?_) ?_
  · exact skipFlow_changes (sub_of hL rfl) h1 _
  · exact h0t

theorem hostRing_changes {L : List Part} {s t0 : State} (hL : sub [.regs, .etm] L = true) (h0t : Changes L s t0) (a1 : Nat) (a2 : Nat) (a3 : Sys2Proof.Machine.PayUnit) :
    Changes L s (hostRing t0 a1 a2 a3) := by
  unfold hostRing
  extract_lets -merge -useContext x0 x1 x2 x3 x4 x5 x6
  try clear_value x0 x1 x2 x3 x4 x5 x6
  exact Changes.ite h0t (Changes.ite (State.setN_changes (sub_of hL rfl) (Changes.set_etm (sub_of hL rfl) h0t _) _ _) (State.evt_changes (sub_of hL rfl) (State.inc32_changes (sub_of hL rfl) h0t _) _ _))

theorem joinFlows_changes {L : List Part} {s t0 : State} (hL : sub [.etm] L = true) (h0t : Changes L s t0) (a1 : Nat) :
    Changes L s (joinFlows t0 a1) := by
  unfold joinFlows
  extract_lets -merge -useContext x0 x1 x2
  try clear_value x0 x1 x2
  exact Changes.set_etm (sub_of hL rfl) h0t _

theorem takeUnit_changes {L : List Part} {s t0 : State} (hL : sub [.chans, .etm] L = true) (h0t : Changes L s t0) (a1 : Nat) (a2 : Nat) :
    Changes L s (takeUnit t0 a1 a2) := by
  unfold takeUnit
  split
  · rename_i x0 heq1
    exact h0t
  · rename_i x2 x3 heq4
    extract_lets -merge -useContext x5 x6 x7 x8 x9
    try clear_value x5 x6 x8
    have h10 : Changes L s x7 := State.setChan_changes (sub_of hL rfl) h0t _ _
    have h11 : Changes L s x9 := by
      unfold x9
      split
      · rename_i x12 x13 x14
        exact Changes.ite (Changes.set_etm (sub_of hL rfl) h10 _) h10
      · rename_i x15
        exact h10
    try clear_value x7 x9
    split
    · rename_i x16 x17 x18
      exact Changes.ite (State.setRc_changes (sub_of hL rfl) h11 _ _ _) h11
    · rename_i x19
      exact h11

theorem loseFlow_changes {L : List Part} {s t0 : State} (hL : sub [.regs, .etm] L = true) (h0t : Changes L s t0) (a1 : Nat) :
    Changes L s (loseFlow t0 a1) := by
  unfold loseFlow
  extract_lets -merge -useContext x0 x1 x2
  try clear_value x0 x2
  have h3 : Changes L s x1 := setFlowCtx_changes (sub_of hL rfl) h0t _ _
  try clear_value x1
  exact showFlows_changes (sub_of hL rfl) (Changes.set_etm (sub_of hL rfl) h3 _) _

theorem etmMemError_changes {L : List Part} {s t0 : State} (hL : sub [.regs, .etm] L = true) (h0t : Changes L s t0) (a1 : Nat) :
    Changes L s (etmMemError t0 a1) := by
  unfold etmMemError
  extract_lets -merge -useContext x0 x1 x2
  try clear_value x2
  have h3 : Changes L s x0 := State.evt_changes (sub_of hL rfl) (State.inc32_changes (sub_of hL rfl) h0t _) _ _
  have h4 : Changes L s x1 := by
    unfold x1
    refine Changes.foldl (fun x5 _ h6 => ?_) ?_
    · exact loseFlow_changes (sub_of hL rfl) h6 _
    · exact h3
  try clear_value x0 x1
  exact pruneUnits_changes (sub_of hL rfl) (Changes.set_etm (sub_of hL rfl) h4 _)

theorem payloadRelease_changes {L : List Part} {s t0 : State} (hL : sub [.regs, .chans, .etm] L = true) (h0t : Changes L s t0) (a1 : Nat) (a2 : Nat) (a3 : Sys2Proof.Machine.PayOut) :
    Changes L s (payloadRelease t0 a1 a2 a3) := by
  unfold payloadRelease
  extract_lets -merge -useContext x0 x1 x2 x3 x4 x5 x6 x7 x8 x9 x10 x11 x12
  try clear_value x0 x1 x2 x3 x4 x5 x7 x11
  have h13 : Changes L s x6 := State.wrapAdd_changes (sub_of hL rfl) (Changes.ite h0t (hostRing_changes (sub_of hL rfl) h0t _ _ _)) _ _
  have h14 : Changes L s x8 := Changes.set_etm (sub_of hL rfl) h13 _
  have h15 : Changes L s x9 := State.modChan_changes (sub_of hL rfl) h14 _ _
  have h16 : Changes L s x10 := Changes.ite (joinFlows_changes (sub_of hL rfl) h15 _) h15
  have h17 : Changes L s x12 := by
    unfold x12
    refine Changes.foldl (fun x22 _ h23 => ?_) ?_
    · extract_lets -merge -useContext x24
      try clear_value x24
      refine Changes.foldl (fun x27 _ h28 => ?_) ?_
      · refine Changes.ite ?_ ?_
        · extract_lets -merge -useContext x29
          try clear_value x29
          exact markDepth_changes (sub_of hL rfl) (enqueue_changes (sub_of hL rfl) h28 _) _
        · exact h28
      · exact h23
    · exact h16
  try clear_value x6 x8 x9 x10 x12
  exact pruneUnits_changes (sub_of hL rfl) (skipFlows_changes (sub_of hL rfl) h17)

theorem nextPayload_changes {L : List Part} {s t0 : State} (hL : sub [.regs, .stp, .chans, .etm] L = true) (h0t : Changes L s t0) (a1 : Nat) (a2 : Nat) :
    Changes L s (nextPayload t0 a1 a2) := by
  unfold nextPayload
  refine Changes.ite ?_ ?_
  · exact h0t
  · extract_lets -merge -useContext x0
    have h1 : Changes L s x0 := Changes.ite (takeUnit_changes (sub_of hL rfl) h0t _ _) h0t
    try clear_value x0
    split
    · rename_i x2 heq3
      exact h1
    · rename_i x4 x5 x6 heq7
      exact payloadRelease_changes (sub_of hL rfl) (State.toPos_changes (sub_of hL rfl) (State.modChan_changes (sub_of hL rfl) h1 _ _) _) _ _ _

theorem withdrawPath_changes {L : List Part} {s t0 : State} (hL : sub [.regs, .etm] L = true) (h0t : Changes L s t0) (a1 : Bool) :
    Changes L s (withdrawPath t0 a1) := by
  unfold withdrawPath
  refine Changes.ite ?_ ?_
  · exact h0t
  · extract_lets -merge -useContext x0 x1
    try clear_value x0
    have h2 : Changes L s x1 := Changes.set_etm (sub_of hL rfl) h0t _
    try clear_value x1
    exact State.evt_changes (sub_of hL rfl) (showPorts_changes (sub_of hL rfl) (pruneUnits_changes (sub_of hL rfl) h2)) _ _

theorem restorePath_changes {L : List Part} {s t0 : State} (hL : sub [.regs, .etm] L = true) (h0t : Changes L s t0) (a1 : Bool) :
    Changes L s (restorePath t0 a1) := by
  unfold restorePath
  exact showPorts_changes (sub_of hL rfl) (Changes.set_etm (sub_of hL rfl) h0t _)

theorem updateCredits_changes {L : List Part} {s t0 : State} (hL : sub [.etm] L = true) (h0t : Changes L s t0) :
    Changes L s (updateCredits t0) := by
  unfold updateCredits
  extract_lets -merge -useContext x0 x1 x2 x3 x4
  try clear_value x0 x2 x4
  have h5 : Changes L s x1 := Changes.foldl (fun x6 _ h7 => (setNodeWord_changes (sub_of hL rfl) h7 _ _ _)) h0t
  have h8 : Changes L s x3 := Changes.foldl (fun x9 _ h10 => (setNodeWord_changes (sub_of hL rfl) h10 _ _ _)) h5
  try clear_value x1 x3
  exact Changes.set_etm (sub_of hL rfl) h8 _

theorem serveTags_changes {L : List Part} {s t0 : State} (hL : sub [.etm] L = true) (h0t : Changes L s t0) (a1 : Nat) (a2 : Sys2Proof.Machine.Copy) :
    Changes L s (serveTags t0 a1 a2) := by
  unfold serveTags
  split
  rename_i x0 x1 x2 heq3
  have h4 : Changes L s x2 := by
    rw [show x2 = (_, x2).2 from rfl, ← heq3]
    exact State.draw_changes h0t
  extract_lets -merge -useContext x5 x6 x7 x8 x9 x10 x11 x12 x13 x14
  try clear_value x5 x6 x7 x8 x9 x10 x11 x12 x14
  have h15 : Changes L s x13 := setNodeWord_changes (sub_of hL rfl) h4 _ _ _
  try clear_value x13
  exact Changes.ite (Changes.set_etm (sub_of hL rfl) h4 _) (Changes.set_etm (sub_of hL rfl) h15 _)

theorem cacheCounts_changes {L : List Part} {s t0 : State} (hL : sub [.regs] L = true) (h0t : Changes L s t0) (a1 : Sys2Proof.Machine.Copy) :
    Changes L s (cacheCounts t0 a1) := by
  unfold cacheCounts
  refine Changes.ite ?_ ?_
  · exact h0t
  · split
    rename_i x0 x1 x2 heq3
    have h4 : Changes L s x2 := by
      rw [show x2 = (_, x2).2 from rfl, ← heq3]
      exact State.draw_changes h0t
    split
    rename_i x5 x6 x7 heq8
    have h9 : Changes L s x7 := by
      rw [show x7 = (_, x7).2 from rfl, ← heq8]
      exact State.draw_changes h4
    extract_lets -merge -useContext x10
    have h11 : Changes L s x10 := Changes.ite (State.inc32_changes (sub_of hL rfl) h9 _) h9
    try clear_value x10
    exact Changes.ite (State.inc32_changes (sub_of hL rfl) h11 _) h11

theorem sendCopy_changes {L : List Part} {s t0 : State} (hL : sub [.regs, .etm, .faults, .sent] L = true) (h0t : Changes L s t0) (a1 : Nat) (a2 : Sys2Proof.Machine.Copy) :
    Changes L s (sendCopy t0 a1 a2) := by
  unfold sendCopy
  extract_lets -merge -useContext x0 x1 x2 x3 x4 x5 x6 x7 x8 x9 x10 x11
  try clear_value x0 x1 x2 x4
  have h12 : Changes L s x3 := serveTags_changes (sub_of hL rfl) h0t _ _
  have h13 : Changes L s x5 := Changes.set_etm (sub_of hL rfl) h12 _
  have h14 : Changes L s x6 := State.wrapAdd_changes (sub_of hL rfl) h13 _ _
  have h15 : Changes L s x7 := State.setReg64_changes (sub_of hL rfl) h14 _ _ _
  have h16 : Changes L s x8 := Changes.ite h15 (setNodeWord_changes (sub_of hL rfl) h15 _ _ _)
  have h17 : Changes L s x9 := markSojourn_changes (sub_of hL rfl) (cacheCounts_changes (sub_of hL rfl) h16 _) _ _
  have h18 : Changes L s x10 := Changes.set_sent (sub_of hL rfl) h17 _
  have h19 : Changes L s x11 := Changes.ite (State.raise_changes (sub_of hL rfl) (State.evt_changes (sub_of hL rfl) (State.inc32_changes (sub_of hL rfl) h18 _) _ _) _ _ _ _) h18
  try clear_value x3 x5 x6 x7 x8 x9 x10 x11
  exact Changes.ite (Changes.set_sent (sub_of hL rfl) h15 _) (pruneUnits_changes (sub_of hL rfl) h19)

theorem countWait_changes {L : List Part} {s t0 : State} (hL : sub [.regs, .etm] L = true) (h0t : Changes L s t0) (a1 : Nat) (a2 : Nat) (a3 : Nat) :
    Changes L s (countWait t0 a1 a2 a3) := by
  unfold countWait
  split
  · rename_i x0 x1 heq2
    refine Changes.ite ?_ ?_
    · extract_lets -merge -useContext x3 x4
      try clear_value x3
      have h5 : Changes L s x4 := Changes.set_etm (sub_of hL rfl) h0t _
      try clear_value x4
      exact State.inc32_changes (sub_of hL rfl) h5 _
    · exact h0t
  · rename_i x6 heq7
    exact h0t

theorem portFree_changes {L : List Part} {s t0 : State} (hL : sub [.regs, .stp, .etm] L = true) (h0t : Changes L s t0) (a1 : Nat) :
    Changes L s (portFree t0 a1) := by
  unfold portFree
  exact skipFlows_changes (sub_of hL rfl) (updateCredits_changes (sub_of hL rfl) (Changes.ite (State.toPos_changes (sub_of hL rfl) h0t _) h0t))

theorem portWaits_changes {L : List Part} {s t0 : State} (hL : sub [.regs, .stp, .etm] L = true) (h0t : Changes L s t0) (a1 : Nat) :
    Changes L s (portWaits t0 a1) := by
  unfold portWaits
  extract_lets -merge -useContext x0
  have h1 : Changes L s x0 := portFree_changes (sub_of hL rfl) h0t _
  try clear_value x0
  exact countWait_changes (sub_of hL rfl) h1 _ _ _

theorem portTransmit_changes {L : List Part} {s t0 : State} (hL : sub [.regs, .stp, .etm, .faults, .sent] L = true) (h0t : Changes L s t0) (a1 : Nat) :
    Changes L s (portTransmit t0 a1) := by
  unfold portTransmit
  refine Changes.ite ?_ ?_
  · exact h0t
  · split
    · rename_i x0 x1 heq2
      exact sendCopy_changes (sub_of hL rfl) (portWaits_changes (sub_of hL rfl) h0t _) _ _
    · rename_i x3 heq4
      exact portWaits_changes (sub_of hL rfl) h0t _

theorem eportCommit_changes {L : List Part} {s t0 : State} (hL : sub [.etm] L = true) (h0t : Changes L s t0) (a1 : Nat) :
    Changes L s (eportCommit t0 a1) := by
  unfold eportCommit
  exact Changes.ite (Changes.ite h0t (Changes.set_etm (sub_of hL rfl) h0t _)) h0t

theorem calendarCopy_changes {L : List Part} {s t0 : State} (hL : sub [.regs, .stp, .etm] L = true) (h0t : Changes L s t0) (a1 : Nat) :
    Changes L s (calendarCopy t0 a1) := by
  unfold calendarCopy
  extract_lets -merge -useContext x0 x1 x2 x3 x4
  try clear_value x1 x3
  have h5 : Changes L s x0 := State.toFrameStart_changes (sub_of hL rfl) h0t
  have h6 : Changes L s x2 := Changes.set_etm (sub_of hL rfl) h5 _
  have h7 : Changes L s x4 := Changes.set_etm (sub_of hL rfl) h6 _
  try clear_value x0 x2 x4
  exact Changes.ite h0t (Changes.ite (State.setF_changes (sub_of hL rfl) (State.setBit_changes (sub_of hL rfl) h7 _ _ _) _ _ _ _) (State.evt_changes (sub_of hL rfl) (State.setF_changes (sub_of hL rfl) (State.setBit_changes (sub_of hL rfl) h6 _ _ _) _ _ _ _) _ _))

theorem sample_changes {L : List Part} {s t0 : State} (hL : sub [.regs, .stp] L = true) (h0t : Changes L s t0) :
    Changes L s (sample t0) := by
  unfold sample
  refine Changes.ite ?_ ?_
  · exact h0t
  · extract_lets -merge -useContext x0 x1
    have h2 : Changes L s x0 := State.toPos_changes (sub_of hL rfl) h0t _
    have h3 : Changes L s x1 := by
      unfold x1
      refine Changes.foldl (fun x8 _ h9 => ?_) ?_
      · extract_lets -merge -useContext x10 x11
        try clear_value x10 x11
        exact State.setN_changes (sub_of hL rfl) h9 _ _
      · exact h2
    try clear_value x0 x1
    exact State.evt_changes (sub_of hL rfl) h3 _ _

theorem etmErr_changes {L : List Part} {s t0 : State} (hL : sub [.regs] L = true) (h0t : Changes L s t0) (a1 : Nat) :
    Changes L s (etmErr t0 a1) := by
  unfold etmErr
  exact State.evt_changes (sub_of hL rfl) (State.setN_changes (sub_of hL rfl) h0t _ _) _ _

theorem ctxMiss_changes {L : List Part} {s t0 : State} (hL : sub [.regs] L = true) (h0t : Changes L s t0) :
    Changes L s (ctxMiss t0) := by
  unfold ctxMiss
  split
  rename_i x0 x1 x2 heq3
  have h4 : Changes L s x2 := by
    rw [show x2 = (_, x2).2 from rfl, ← heq3]
    exact State.draw_changes h0t
  exact Changes.ite (State.inc32_changes (sub_of hL rfl) h4 _) h4

theorem etmFill_changes {L : List Part} {s t0 : State} (hL : sub [.regs] L = true) (h0t : Changes L s t0) :
    Changes L s (etmFill t0) := by
  unfold etmFill
  refine Changes.ite ?_ ?_
  · extract_lets -merge -useContext x0
    have h1 : Changes L s x0 := Changes.ite (ctxMiss_changes (sub_of hL rfl) h0t) h0t
    try clear_value x0
    exact State.tblDone_changes (sub_of hL rfl) (State.putData_changes (sub_of hL rfl) h1 _ _ _) _
  · exact etmErr_changes (sub_of hL rfl) h0t _

theorem etmTableRead_changes {L : List Part} {s t0 : State} (hL : sub [.regs] L = true) (h0t : Changes L s t0) :
    Changes L s (etmTableRead t0) := by
  unfold etmTableRead
  exact Changes.ite h0t (etmFill_changes (sub_of hL rfl) h0t)

theorem clearMarks_changes {L : List Part} {s t0 : State} (hL : sub [.etm] L = true) (h0t : Changes L s t0) (a1 : Nat) (a2 : Nat) :
    Changes L s (clearMarks t0 a1 a2) := by
  unfold clearMarks
  split
  · rename_i x0
    extract_lets -merge -useContext x1
    try clear_value x1
    exact setFlowCtx_changes (sub_of hL rfl) h0t _ _
  · rename_i x2
    exact setNodeWord_changes (sub_of hL rfl) (setNodeWord_changes (sub_of hL rfl) h0t _ _ _) _ _ _
  · rename_i x3
    split
    · rename_i x4 x5 x6 heq7
      exact Changes.set_etm (sub_of hL rfl) h0t _
    · rename_i x8 heq9
      exact h0t
  · rename_i x10 heq11 heq12 heq13
    exact h0t

theorem etmTableReadClr_changes {L : List Part} {s t0 : State} (hL : sub [.regs, .etm] L = true) (h0t : Changes L s t0) :
    Changes L s (etmTableReadClr t0) := by
  unfold etmTableReadClr
  exact Changes.ite h0t (Changes.ite (clearMarks_changes (sub_of hL rfl) (etmFill_changes (sub_of hL rfl) h0t) _ _) (etmErr_changes (sub_of hL rfl) h0t _))

theorem writeFlow_changes {L : List Part} {s t0 : State} (hL : sub [.regs, .etm] L = true) (h0t : Changes L s t0) (a1 : Nat) (a2 : List Sys2Proof.Word) :
    Changes L s (writeFlow t0 a1 a2) := by
  unfold writeFlow
  extract_lets -merge -useContext x0 x1 x2 x3 x4 x5 x6
  try clear_value x0 x1 x3 x5 x6
  have h7 : Changes L s x2 := setFlowCtx_changes (sub_of hL rfl) h0t _ _
  have hf4 : ∀ y8, Changes L s y8 → Changes L s (x4 y8) := by
    intro y8 h9
    unfold x4
    exact State.tblDone_changes (sub_of hL rfl) (showFlows_changes (sub_of hL rfl) h9 _) _
  try clear_value x2 x4
  exact Changes.ite (etmErr_changes (sub_of hL rfl) h0t _) (Changes.ite (Changes.ite (etmErr_changes (sub_of hL rfl) h0t _) (Changes.ite (etmErr_changes (sub_of hL rfl) h0t _) (Changes.ite (etmErr_changes (sub_of hL rfl) h0t _) (hf4 _ (Changes.set_etm (sub_of hL rfl) h7 _))))) (Changes.ite (Changes.ite (etmErr_changes (sub_of hL rfl) h0t _) (hf4 _ (Changes.set_etm (sub_of hL rfl) h7 _))) (Changes.ite (etmErr_changes (sub_of hL rfl) h0t _) (hf4 _ h7))))

theorem writeNode_changes {L : List Part} {s t0 : State} (hL : sub [.regs, .etm] L = true) (h0t : Changes L s t0) (a1 : Nat) (a2 : List Sys2Proof.Word) :
    Changes L s (writeNode t0 a1 a2) := by
  unfold writeNode
  extract_lets -merge -useContext x0 x1 x2 x3 x4 x5 x6
  try clear_value x1 x2 x4 x6
  have h7 : Changes L s x0 := updateCredits_changes (sub_of hL rfl) h0t
  have h8 : Changes L s x3 := setNodeEntry_changes (sub_of hL rfl) h7 _ _
  have h9 : Changes L s x5 := Changes.ite (Changes.ite (Changes.set_etm (sub_of hL rfl) h8 _) (setNodeWord_changes (sub_of hL rfl) h8 _ _ _)) h8
  try clear_value x0 x3 x5
  refine Changes.ite ?_ ?_
  · exact etmErr_changes (sub_of hL rfl) h7 _
  · refine State.tblDone_changes (sub_of hL rfl) ?_ _
    refine Changes.foldl (fun x10 _ h11 => ?_) ?_
    · exact showFlows_changes (sub_of hL rfl) h11 _
    · exact showPaced_changes (sub_of hL rfl) h9

theorem etmTableWrite_changes {L : List Part} {s t0 : State} (hL : sub [.regs, .etm] L = true) (h0t : Changes L s t0) :
    Changes L s (etmTableWrite t0) := by
  unfold etmTableWrite
  refine Changes.ite ?_ ?_
  · exact h0t
  · refine Changes.ite ?_ ?_
    · exact etmErr_changes (sub_of hL rfl) h0t _
    · extract_lets -merge -useContext x0 x1
      try clear_value x0 x1
      split
      · rename_i x2 heq3
        exact writeFlow_changes (sub_of hL rfl) (ctxMiss_changes (sub_of hL rfl) h0t) _ _
      · rename_i x4 heq5
        exact writeNode_changes (sub_of hL rfl) h0t _ _
      · rename_i x6 heq7
        exact State.tblDone_changes (sub_of hL rfl) h0t _
      · rename_i x8 heq9 heq10 heq11
        exact State.tblDone_changes (sub_of hL rfl) (Changes.set_etm (sub_of hL rfl) h0t _) _

end Sys2Proof.Machine
end

