-- ==== Sys2Proof/Laws/ChangesInNetTime.lean ====
section
/-! SUPPORT. What each function of NetTime.lean changes at most: one lemma for each. -/

namespace Sys2Proof.Machine

theorem ethEnable_changes {L : List Part} {s t0 : State} (hL : sub [.regs] L = true) (h0t : Changes L s t0) (a1 : Nat) :
    Changes L s (ethEnable t0 a1) := by
  unfold ethEnable
  refine Changes.ite ?_ ?_
  · exact h0t
  · split
    · rename_i x0 x1 heq2
      exact State.failCheck_changes (sub_of hL rfl) h0t _ _ _ _
    · rename_i x3 heq4
      exact showPorts_changes (sub_of hL rfl) (State.activate_changes (sub_of hL rfl) h0t _)

theorem ethDisable_changes {L : List Part} {s t0 : State} (hL : sub [.regs] L = true) (h0t : Changes L s t0) (a1 : Nat) :
    Changes L s (ethDisable t0 a1) := by
  unfold ethDisable
  exact settlePaths_changes (sub_of hL rfl) (showPorts_changes (sub_of hL rfl) (State.unitDegraded_changes (sub_of hL rfl) (State.setF_changes (sub_of hL rfl) (State.deactivate_changes (sub_of hL rfl) h0t _) _ _ _ _) _ _))

theorem ethStatClr_changes {L : List Part} {s t0 : State} (hL : sub [.regs] L = true) (h0t : Changes L s t0) (a1 : Nat) :
    Changes L s (ethStatClr t0 a1) := by
  unfold ethStatClr
  exact Changes.ite (State.clearRegs_changes (sub_of hL rfl) h0t _) h0t

theorem portLinkUp_changes {L : List Part} {s t0 : State} (hL : sub [.regs] L = true) (h0t : Changes L s t0) (a1 : Nat) (a2 : Nat) :
    Changes L s (portLinkUp t0 a1 a2) := by
  unfold portLinkUp
  exact Changes.ite (settlePaths_changes (sub_of hL rfl) (State.setBit_changes (sub_of hL rfl) (State.setBit_changes (sub_of hL rfl) h0t _ _ _) _ _ _)) h0t

theorem ptpLost_changes {L : List Part} {s t0 : State} (hL : sub [.regs, .stp, .chans, .ptp, .faults] L = true) (h0t : Changes L s t0) :
    Changes L s (ptpLost t0) := by
  unfold ptpLost
  extract_lets -merge -useContext x0 x1
  try clear_value x0
  have h2 : Changes L s x1 := Changes.set_ptp (sub_of hL rfl) h0t _
  try clear_value x1
  exact Changes.ite (refLost_changes (sub_of hL rfl) h2) h2

theorem linePortDown_changes {L : List Part} {s t0 : State} (hL : sub [.regs, .stp, .chans, .ptp, .faults] L = true) (h0t : Changes L s t0) (a1 : Nat) (a2 : Nat) :
    Changes L s (linePortDown t0 a1 a2) := by
  unfold linePortDown
  refine Changes.ite ?_ ?_
  · extract_lets -merge -useContext x0 x1
    have h2 : Changes L s x0 := State.setBit_changes (sub_of hL rfl) (State.setBit_changes (sub_of hL rfl) h0t _ _ _) _ _ _
    have h3 : Changes L s x1 := State.raise_changes (sub_of hL rfl) h2 _ _ _ _
    try clear_value x0 x1
    exact Changes.ite (ptpLost_changes (sub_of hL rfl) (State.setF_changes (sub_of hL rfl) h3 _ _ _ _)) h3
  · exact h0t

theorem forwardFrame_changes {L : List Part} {s t0 : State} (hL : sub [.etm] L = true) (h0t : Changes L s t0) (a1 : Nat) (a2 : Nat) (a3 : List (BitVec 8)) :
    Changes L s (forwardFrame t0 a1 a2 a3) := by
  unfold forwardFrame
  exact Changes.ite h0t (enqueue_changes (sub_of hL rfl) h0t _)

theorem linePortFrame_changes {L : List Part} {s t0 : State} (hL : sub [.regs, .etm] L = true) (h0t : Changes L s t0) (a1 : Nat) (a2 : List (BitVec 8)) :
    Changes L s (linePortFrame t0 a1 a2) := by
  unfold linePortFrame
  refine Changes.ite ?_ ?_
  · exact h0t
  · split
    · rename_i x0 heq1
      exact State.inc32_changes (sub_of hL rfl) h0t _
    · rename_i x2 heq3
      exact State.inc32_changes (sub_of hL rfl) h0t _
    · rename_i x4 x5 heq6
      exact Changes.ite (forwardFrame_changes (sub_of hL rfl) h0t _ _ _) h0t
    · rename_i x7 heq8
      exact State.inc32_changes (sub_of hL rfl) h0t _
    · rename_i x9 x10 heq11
      exact h0t
    · rename_i x12 x13 heq14
      exact h0t
    · rename_i x15 heq16
      exact h0t
    · rename_i x17 heq18
      exact State.inc32_changes (sub_of hL rfl) h0t _

theorem cascadeFrame_changes {L : List Part} {s t0 : State} (hL : sub [.regs, .etm] L = true) (h0t : Changes L s t0) (a1 : Nat) (a2 : List (BitVec 8)) :
    Changes L s (cascadeFrame t0 a1 a2) := by
  unfold cascadeFrame
  refine Changes.ite ?_ ?_
  · exact h0t
  · split
    · rename_i x0 heq1
      exact State.inc32_changes (sub_of hL rfl) h0t _
    · rename_i x2 x3 heq4 heq5
      exact State.inc32_changes (sub_of hL rfl) h0t _
    · rename_i x6 heq7
      exact forwardFrame_changes (sub_of hL rfl) h0t _ _ _

theorem ptpEnable_changes {L : List Part} {s t0 : State} (hL : sub [.regs, .ptp] L = true) (h0t : Changes L s t0) :
    Changes L s (ptpEnable t0) := by
  unfold ptpEnable
  refine Changes.ite ?_ ?_
  · exact h0t
  · extract_lets -merge -useContext x0 x1
    try clear_value x1
    have h2 : Changes L s x0 := State.setF_changes (sub_of hL rfl) (State.activate_changes (sub_of hL rfl) h0t _) _ _ _ _
    try clear_value x0
    exact Changes.set_ptp (sub_of hL rfl) h2 _

theorem ptpDisable_changes {L : List Part} {s t0 : State} (hL : sub [.regs, .stp, .chans, .ptp, .faults] L = true) (h0t : Changes L s t0) :
    Changes L s (ptpDisable t0) := by
  unfold ptpDisable
  extract_lets -merge -useContext x0 x1 x2
  try clear_value x1
  have h3 : Changes L s x0 := State.setReg_changes (sub_of hL rfl) (State.deactivate_changes (sub_of hL rfl) h0t _) _ _
  have h4 : Changes L s x2 := Changes.set_ptp (sub_of hL rfl) h3 _
  try clear_value x0 x2
  exact Changes.ite (refLost_changes (sub_of hL rfl) h4) h4

theorem setMaster_changes {L : List Part} {s t0 : State} (hL : sub [.regs, .ptp] L = true) (h0t : Changes L s t0) (a1 : BitVec 4) :
    Changes L s (setMaster t0 a1) := by
  unfold setMaster
  extract_lets -merge -useContext x0 x1 x2
  try clear_value x0 x1
  have h3 : Changes L s x2 := Changes.set_ptp (sub_of hL rfl) h0t _
  try clear_value x2
  exact Changes.ite h3 (State.evt_changes (sub_of hL rfl) h3 _ _)

theorem alignMap_changes {L : List Part} {s t0 : State} (hL : sub [.regs, .ptp] L = true) (h0t : Changes L s t0) (a1 : Int) :
    Changes L s (alignMap t0 a1) := by
  unfold alignMap
  extract_lets -merge -useContext x0
  try clear_value x0
  exact keepGmTime_changes (sub_of hL rfl) (State.setPtpMap_changes (sub_of hL rfl) h0t _) _

theorem countBad_changes {L : List Part} {s t0 : State} (hL : sub [.regs, .stp, .chans] L = true) (h0t : Changes L s t0) (a1 : Int) :
    Changes L s (countBad t0 a1) := by
  unfold countBad
  extract_lets -merge -useContext x0 x1 x2 x3
  try clear_value x0 x1 x3
  have h4 : Changes L s x2 := Changes.set_stp (sub_of hL rfl) h0t _
  try clear_value x2
  exact Changes.ite (setSt_changes (sub_of hL rfl) (Changes.set_stp (sub_of hL rfl) h4 _) _) h4

theorem syncSteeple_changes {L : List Part} {s t0 : State} (hL : sub [.regs, .stp, .chans, .ptp, .faults] L = true) (h0t : Changes L s t0) (a1 : Int) (a2 : Int) :
    Changes L s (syncSteeple t0 a1 a2) := by
  unfold syncSteeple
  extract_lets -merge -useContext x0 x1 x2 x3 x4 x5 x6 x7 x8 x9
  try clear_value x0 x2 x5 x6 x7
  have h10 : Changes L s x1 := State.setBit_changes (sub_of hL rfl) h0t _ _ _
  have h11 : Changes L s x3 := Changes.set_stp (sub_of hL rfl) h10 _
  have h12 : Changes L s x4 := setPhaseErr_changes (sub_of hL rfl) h11 _
  have h13 : Changes L s x8 := Changes.set_ptp (sub_of hL rfl) h12 _
  have h14 : Changes L s x9 := countBad_changes (sub_of hL rfl) (countOk_changes (sub_of hL rfl) (measure_changes (sub_of hL rfl) h13 _ _) _) _
  try clear_value x1 x3 x4 x8 x9
  refine Changes.ite ?_ ?_
  · exact h0t
  · refine Changes.ite ?_ ?_
    · exact rateRefused_changes (sub_of hL rfl) h0t
    · refine Changes.ite ?_ ?_
      · exact Changes.upd [.stp, .ptp] (sub_of hL rfl) h12 rfl rfl rfl rfl (Nat.le_refl _) (fun p hp => by cases p <;> first | rfl | exact ⟨rfl, rfl⟩ | exact absurd (by decide) hp)
      · exact Changes.ite (alignMap_changes (sub_of hL rfl) h14 _) h14

theorem sync_changes {L : List Part} {s t0 : State} (hL : sub [.regs, .stp, .chans, .ptp, .faults] L = true) (h0t : Changes L s t0) (a1 : Nat) (a2 : BitVec 8) (a3 : Nat) (a4 : Int) (a5 : Int) :
    Changes L s (sync t0 a1 a2 a3 a4 a5) := by
  unfold sync
  refine Changes.ite ?_ ?_
  · exact h0t
  · extract_lets -merge -useContext x0 x1 x2 x3 x4 x5
    try clear_value x0 x1 x2 x4
    have h6 : Changes L s x3 := State.setN_changes (sub_of hL rfl) h0t _ _
    have h7 : Changes L s x5 := Changes.set_ptp (sub_of hL rfl) h6 _
    try clear_value x3 x5
    exact syncSteeple_changes (sub_of hL rfl) h7 _ _

theorem ptpStart_changes {L : List Part} {s t0 : State} (hL : sub [.regs, .stp, .etm] L = true) (h0t : Changes L s t0) (a1 : Nat) (a2 : Nat) :
    Changes L s (ptpStart t0 a1 a2) := by
  unfold ptpStart
  extract_lets -merge -useContext x0 x1 x2 x3 x4
  try clear_value x0 x2 x4
  have h5 : Changes L s x1 := State.toPos_changes (sub_of hL rfl) h0t _
  have h6 : Changes L s x3 := Changes.ite (State.toPos_changes (sub_of hL rfl) h5 _) h5
  try clear_value x1 x3
  exact Changes.ite h0t (Changes.set_etm (sub_of hL rfl) h6 _)

theorem sendPtp_changes {L : List Part} {s t0 : State} (hL : sub [.sent] L = true) (h0t : Changes L s t0) (a1 : Nat) (a2 : Nat) (a3 : BitVec 16) (a4 : Int) (a5 : Nat) (a6 : Int) (a7 : List Nat) :
    Changes L s (sendPtp t0 a1 a2 a3 a4 a5 a6 a7) := by
  unfold sendPtp
  extract_lets -merge -useContext x0
  try clear_value x0
  exact Changes.set_sent (sub_of hL rfl) h0t _

theorem reachDue_changes {L : List Part} {s t0 : State} (hL : sub [.regs, .stp] L = true) (h0t : Changes L s t0) (a1 : Nat) :
    Changes L s (reachDue t0 a1) := by
  unfold reachDue
  split
  · rename_i x0 x1 heq2
    exact Changes.ite (State.toPos_changes (sub_of hL rfl) h0t _) h0t
  · rename_i x3 heq4
    exact h0t

theorem nextDue_changes {L : List Part} {s t0 : State} (hL : sub [.ptp] L = true) (h0t : Changes L s t0) (a1 : Nat) (a2 : Int) :
    Changes L s (nextDue t0 a1 a2) := by
  unfold nextDue
  exact Changes.set_ptp (sub_of hL rfl) h0t _

theorem syncSend_changes {L : List Part} {s t0 : State} (hL : sub [.regs, .stp, .etm, .ptp, .sent] L = true) (h0t : Changes L s t0) (a1 : Nat) :
    Changes L s (syncSend t0 a1) := by
  unfold syncSend
  refine Changes.ite ?_ ?_
  · exact h0t
  · extract_lets -merge -useContext x0 x1 x2
    try clear_value x1 x2
    have h3 : Changes L s x0 := ptpStart_changes (sub_of hL rfl) (reachDue_changes (sub_of hL rfl) h0t _) _ _
    try clear_value x0
    exact sendPtp_changes (sub_of hL rfl) (nextDue_changes (sub_of hL rfl) h3 _ _) _ _ _ _ _ _ _

theorem announceSend_changes {L : List Part} {s t0 : State} (hL : sub [.regs, .stp, .etm, .ptp, .sent] L = true) (h0t : Changes L s t0) (a1 : Nat) :
    Changes L s (announceSend t0 a1) := by
  unfold announceSend
  refine Changes.ite ?_ ?_
  · exact h0t
  · extract_lets -merge -useContext x0 x1
    try clear_value x1
    have h2 : Changes L s x0 := ptpStart_changes (sub_of hL rfl) (reachDue_changes (sub_of hL rfl) h0t _) _ _
    try clear_value x0
    exact sendPtp_changes (sub_of hL rfl) (nextDue_changes (sub_of hL rfl) h2 _ _) _ _ _ _ _ _ _

theorem selectGm_changes {L : List Part} {s t0 : State} (hL : sub [.regs, .stp, .chans, .ptp] L = true) (h0t : Changes L s t0) (a1 : BitVec 64) :
    Changes L s (selectGm t0 a1) := by
  unfold selectGm
  refine Changes.ite ?_ ?_
  · exact h0t
  · extract_lets -merge -useContext x0 x1 x2 x3 x4 x5
    try clear_value x0 x2 x5
    have h6 : Changes L s x1 := State.setBit_changes (sub_of hL rfl) (State.setReg64_changes (sub_of hL rfl) h0t _ _ _) _ _ _
    have h7 : Changes L s x3 := Changes.set_ptp (sub_of hL rfl) h6 _
    have h8 : Changes L s x4 := State.evt_changes (sub_of hL rfl) h7 _ _
    try clear_value x1 x3 x4
    exact Changes.ite (holdOver_changes (sub_of hL rfl) (Changes.set_stp (sub_of hL rfl) h8 _)) h8

theorem announce_changes {L : List Part} {s t0 : State} (hL : sub [.regs, .stp, .chans, .ptp] L = true) (h0t : Changes L s t0) (a1 : Nat) (a2 : BitVec 8) (a3 : BitVec 64) (a4 : BitVec 16) (a5 : BitVec 64) (a6 : Nat) (a7 : BitVec 4) :
    Changes L s (announce t0 a1 a2 a3 a4 a5 a6 a7) := by
  unfold announce
  refine Changes.ite ?_ ?_
  · exact h0t
  · extract_lets -merge -useContext x0 x1 x2 x3
    try clear_value x1
    have h4 : Changes L s x0 := State.setReg_changes (sub_of hL rfl) h0t _ _
    have h5 : Changes L s x2 := Changes.ite (Changes.set_ptp (sub_of hL rfl) h4 _) h0t
    have h6 : Changes L s x3 := State.setF_changes (sub_of hL rfl) h5 _ _ _ _
    try clear_value x0 x2 x3
    exact setMaster_changes (sub_of hL rfl) (selectGm_changes (sub_of hL rfl) h6 _) _

theorem delayReqSend_changes {L : List Part} {s t0 : State} (hL : sub [.regs, .stp, .etm, .ptp, .sent] L = true) (h0t : Changes L s t0) :
    Changes L s (delayReqSend t0) := by
  unfold delayReqSend
  extract_lets -merge -useContext x0 x1 x2 x3 x4
  try clear_value x0 x2 x3 x4
  have h5 : Changes L s x1 := ptpStart_changes (sub_of hL rfl) h0t _ _
  try clear_value x1
  exact Changes.ite (sendPtp_changes (sub_of hL rfl) (Changes.set_ptp (sub_of hL rfl) h5 _) _ _ _ _ _ _ _) h0t

theorem delayReq_changes {L : List Part} {s t0 : State} (hL : sub [.regs, .stp, .etm, .sent] L = true) (h0t : Changes L s t0) (a1 : Nat) (a2 : BitVec 8) (a3 : BitVec 16) (a4 : BitVec 80) (a5 : Int) :
    Changes L s (delayReq t0 a1 a2 a3 a4 a5) := by
  unfold delayReq
  refine Changes.ite ?_ ?_
  · extract_lets -merge -useContext x0
    try clear_value x0
    exact sendPtp_changes (sub_of hL rfl) (ptpStart_changes (sub_of hL rfl) h0t _ _) _ _ _ _ _ _ _
  · exact h0t

theorem delaySample_changes {L : List Part} {s t0 : State} (hL : sub [.regs, .ptp] L = true) (h0t : Changes L s t0) (a1 : Int) :
    Changes L s (delaySample t0 a1) := by
  unfold delaySample
  extract_lets -merge -useContext x0 x1 x2 x3 x4
  try clear_value x0 x1 x3
  have h5 : Changes L s x2 := Changes.set_ptp (sub_of hL rfl) h0t _
  have h6 : Changes L s x4 := Changes.set_ptp (sub_of hL rfl) h5 _
  try clear_value x2 x4
  exact Changes.ite (State.evt_changes (sub_of hL rfl) (State.inc32_changes (sub_of hL rfl) h5 _) _ _) (State.setN_changes (sub_of hL rfl) h6 _ _)

theorem delayResp_changes {L : List Part} {s t0 : State} (hL : sub [.regs, .ptp] L = true) (h0t : Changes L s t0) (a1 : Nat) (a2 : BitVec 8) (a3 : BitVec 16) (a4 : Nat) (a5 : Int) :
    Changes L s (delayResp t0 a1 a2 a3 a4 a5) := by
  unfold delayResp
  refine Changes.ite ?_ ?_
  · exact h0t
  · split
    · rename_i x0 heq1
      exact State.inc32_changes (sub_of hL rfl) h0t _
    · rename_i x2 x3 heq4
      extract_lets -merge -useContext x5 x6
      try clear_value x5
      have h7 : Changes L s x6 := Changes.set_ptp (sub_of hL rfl) h0t _
      try clear_value x6
      split
      · rename_i x8 heq9
        exact h7
      · rename_i x10 x11 x12 heq13
        exact delaySample_changes (sub_of hL rfl) h7 _

theorem reachAfter_changes {L : List Part} {s t0 : State} (hL : sub [.regs, .stp] L = true) (h0t : Changes L s t0) (a1 : BitVec 64) (a2 : Nat) :
    Changes L s (reachAfter t0 a1 a2) := by
  unfold reachAfter
  exact Changes.ite (State.toPos_changes (sub_of hL rfl) h0t _) h0t

theorem announceTimeout_changes {L : List Part} {s t0 : State} (hL : sub [.regs, .stp, .chans, .ptp, .faults] L = true) (h0t : Changes L s t0) :
    Changes L s (announceTimeout t0) := by
  unfold announceTimeout
  refine Changes.ite ?_ ?_
  · exact h0t
  · extract_lets -merge -useContext x0 x1 x2
    have h3 : Changes L s x0 := reachAfter_changes (sub_of hL rfl) h0t _ _
    have h4 : Changes L s x1 := ptpLost_changes (sub_of hL rfl) (State.evt_changes (sub_of hL rfl) h3 _ _)
    have h5 : Changes L s x2 := setMaster_changes (sub_of hL rfl) h4 _
    try clear_value x0 x1 x2
    exact State.setF_changes (sub_of hL rfl) h5 _ _ _ _

theorem syncTimeout_changes {L : List Part} {s t0 : State} (hL : sub [.regs, .stp, .chans, .ptp, .faults] L = true) (h0t : Changes L s t0) :
    Changes L s (syncTimeout t0) := by
  unfold syncTimeout
  exact Changes.ite h0t (ptpLost_changes (sub_of hL rfl) (State.evt_changes (sub_of hL rfl) (reachAfter_changes (sub_of hL rfl) h0t _ _) _ _))

theorem portStateRead_changes {L : List Part} {s t0 : State} (hL : sub [.regs, .bus] L = true) (h0t : Changes L s t0) (a1 : Sys2Proof.Master) :
    Changes L s (portStateRead t0 a1) := by
  unfold portStateRead
  exact Changes.ite (State.setBit_changes (sub_of hL rfl) (State.answer_changes (sub_of hL rfl) h0t _) _ _ _) h0t

end Sys2Proof.Machine
end

