-- ==== Sys2Proof/Laws/ChangesInAudio.lean ====
section
/-! SUPPORT. What each function of Audio.lean changes at most: one lemma for each. -/

namespace Sys2Proof.Machine

theorem setAsrc_changes {L : List Part} {s t0 : State} (hL : sub [.aud] L = true) (h0t : Changes L s t0) (a1 : Nat) (a2 : Sys2Proof.Machine.ASrc) :
    Changes L s (setAsrc t0 a1 a2) := by
  unfold setAsrc
  exact Changes.set_aud (sub_of hL rfl) h0t _

theorem setAin_changes {L : List Part} {s t0 : State} (hL : sub [.aud] L = true) (h0t : Changes L s t0) (a1 : Nat) (a2 : Sys2Proof.Machine.AIn) :
    Changes L s (setAin t0 a1 a2) := by
  unfold setAin
  exact Changes.set_aud (sub_of hL rfl) h0t _

theorem pushSample_changes {L : List Part} {s t0 : State} (hL : sub [.aud] L = true) (h0t : Changes L s t0) (a1 : Nat) (a2 : BitVec 24) (a3 : Bool) (a4 : Bool) (a5 : Int) :
    Changes L s (pushSample t0 a1 a2 a3 a4 a5) := by
  unfold pushSample
  extract_lets -merge -useContext x0
  try clear_value x0
  refine Changes.ite ?_ ?_
  · exact setAsrc_changes (sub_of hL rfl) h0t _ _
  · split
    rename_i x1 x2 x3 heq4
    have h5 : Changes L s x3 := by
      rw [show x3 = (_, x3).2 from rfl, ← heq4]
      exact State.draw_changes h0t
    exact Changes.ite (setAsrc_changes (sub_of hL rfl) h5 _ _) h5

theorem setPllSt_changes {L : List Part} {s t0 : State} (hL : sub [.regs] L = true) (h0t : Changes L s t0) (a1 : Nat) :
    Changes L s (setPllSt t0 a1) := by
  unfold setPllSt
  exact State.setF_changes (sub_of hL rfl) h0t _ _ _ _

theorem masterLost_changes {L : List Part} {s t0 : State} (hL : sub [.regs, .aud, .faults] L = true) (h0t : Changes L s t0) :
    Changes L s (masterLost t0) := by
  unfold masterLost
  extract_lets -merge -useContext x0 x1
  try clear_value x0
  have h2 : Changes L s x1 := Changes.set_aud (sub_of hL rfl) h0t _
  try clear_value x1
  exact State.raise_changes (sub_of hL rfl) (State.evt_changes (sub_of hL rfl) (setPllSt_changes (sub_of hL rfl) h2 _) _ _) _ _ _ _

theorem masterBack_changes {L : List Part} {s t0 : State} (hL : sub [.regs, .aud] L = true) (h0t : Changes L s t0) :
    Changes L s (masterBack t0) := by
  unfold masterBack
  exact State.evt_changes (sub_of hL rfl) (setPllSt_changes (sub_of hL rfl) (Changes.set_aud (sub_of hL rfl) h0t _) _) _ _

theorem steerLoop_changes {L : List Part} {s t0 : State} (hL : sub [.regs, .aud] L = true) (h0t : Changes L s t0) (a1 : Nat) :
    Changes L s (steerLoop t0 a1) := by
  unfold steerLoop
  extract_lets -merge -useContext x0 x1 x2
  try clear_value x0 x1 x2
  exact State.setF_changes (sub_of hL rfl) (Changes.set_aud (sub_of hL rfl) h0t _) _ _ _ _

theorem audEnable_changes {L : List Part} {s t0 : State} (hL : sub [.regs, .aud] L = true) (h0t : Changes L s t0) :
    Changes L s (audEnable t0) := by
  unfold audEnable
  refine Changes.ite ?_ ?_
  · exact h0t
  · extract_lets -merge -useContext x0 x1
    try clear_value x1
    have h2 : Changes L s x0 := State.setN_changes (sub_of hL rfl) (State.activate_changes (sub_of hL rfl) h0t _) _ _
    try clear_value x0
    exact Changes.set_aud (sub_of hL rfl) h2 _

theorem audDisable_changes {L : List Part} {s t0 : State} (hL : sub [.regs, .aud] L = true) (h0t : Changes L s t0) :
    Changes L s (audDisable t0) := by
  unfold audDisable
  extract_lets -merge -useContext x0 x1
  try clear_value x1
  have h2 : Changes L s x0 := State.setReg_changes (sub_of hL rfl) (State.deactivate_changes (sub_of hL rfl) h0t _) _ _
  try clear_value x0
  exact Changes.set_aud (sub_of hL rfl) h2 _

theorem audioMasterLost_changes {L : List Part} {s t0 : State} (hL : sub [.regs, .aud, .faults] L = true) (h0t : Changes L s t0) :
    Changes L s (audioMasterLost t0) := by
  unfold audioMasterLost
  refine Changes.ite ?_ ?_
  · exact h0t
  · extract_lets -merge -useContext x0 x1 x2
    try clear_value x0 x1
    have h3 : Changes L s x2 := setAin_changes (sub_of hL rfl) h0t _ _
    try clear_value x2
    exact masterLost_changes (sub_of hL rfl) (State.setBit_changes (sub_of hL rfl) h3 _ _ _)

theorem aesGlitch_changes {L : List Part} {s t0 : State} (hL : sub [.regs, .aud] L = true) (h0t : Changes L s t0) (a1 : Nat) :
    Changes L s (aesGlitch t0 a1) := by
  unfold aesGlitch
  extract_lets -merge -useContext x0 x1
  try clear_value x0
  have h2 : Changes L s x1 := setAin_changes (sub_of hL rfl) h0t _ _
  try clear_value x1
  exact State.evt_changes (sub_of hL rfl) (State.inc32_changes (sub_of hL rfl) (State.setBit_changes (sub_of hL rfl) h2 _ _ _) _) _ _

theorem aesBoundary_changes {L : List Part} {s t0 : State} (hL : sub [.regs, .aud] L = true) (h0t : Changes L s t0) (a1 : Nat) :
    Changes L s (aesBoundary t0 a1) := by
  unfold aesBoundary
  extract_lets -merge -useContext x0 x1 x2 x3 x4
  try clear_value x0 x1 x2 x3
  have h5 : Changes L s x4 := setAsrc_changes (sub_of hL rfl) (setAsrc_changes (sub_of hL rfl) h0t _ _) _ _
  try clear_value x4
  exact Changes.ite (State.evt_changes (sub_of hL rfl) (State.inc32_changes (sub_of hL rfl) h5 _) _ _) h5

theorem aesZ_changes {L : List Part} {s t0 : State} (hL : sub [.regs, .aud] L = true) (h0t : Changes L s t0) (a1 : Nat) (a2 : Bool) (a3 : Bool) :
    Changes L s (aesZ t0 a1 a2 a3) := by
  unfold aesZ
  extract_lets -merge -useContext x0 x1 x2 x3 x4
  try clear_value x0 x1
  have h5 : Changes L s x2 := State.setBit_changes (sub_of hL rfl) (State.setBit_changes (sub_of hL rfl) (setAin_changes (sub_of hL rfl) h0t _ _) _ _ _) _ _ _
  have h6 : Changes L s x3 := setAsrc_changes (sub_of hL rfl) (setAsrc_changes (sub_of hL rfl) h5 _ _) _ _
  have h7 : Changes L s x4 := Changes.ite (Changes.ite (masterBack_changes (sub_of hL rfl) h6) h6) (Changes.ite (aesBoundary_changes (sub_of hL rfl) h5 _) h5)
  try clear_value x2 x3 x4
  exact Changes.ite (steerLoop_changes (sub_of hL rfl) h7 _) h7

theorem aesRate_changes {L : List Part} {s t0 : State} (hL : sub [.regs, .aud, .faults] L = true) (h0t : Changes L s t0) (a1 : Nat) (a2 : Int) :
    Changes L s (aesRate t0 a1 a2) := by
  unfold aesRate
  extract_lets -merge -useContext x0 x1 x2 x3 x4
  try clear_value x0 x1
  have h5 : Changes L s x2 := State.setF_changes (sub_of hL rfl) h0t _ _ _ _
  have h6 : Changes L s x3 := setAin_changes (sub_of hL rfl) h5 _ _
  have h7 : Changes L s x4 := State.evt_changes (sub_of hL rfl) (State.setBit_changes (sub_of hL rfl) h6 _ _ _) _ _
  try clear_value x2 x3 x4
  exact Changes.ite (Changes.ite h6 (Changes.ite (masterLost_changes (sub_of hL rfl) h7) h7)) h5

theorem statusBlock_changes {L : List Part} {s t0 : State} (hL : sub [.regs, .aud] L = true) (h0t : Changes L s t0) (a1 : Nat) (a2 : Nat) (a3 : List Bool) :
    Changes L s (statusBlock t0 a1 a2 a3) := by
  unfold statusBlock
  extract_lets -merge -useContext x0 x1 x2 x3
  try clear_value x0 x1 x2 x3
  exact Changes.ite (State.evt_changes (sub_of hL rfl) (State.inc32_changes (sub_of hL rfl) h0t _) _ _) (State.setBit_changes (sub_of hL rfl) (setAsrc_changes (sub_of hL rfl) h0t _ _) _ _ _)

theorem statusBits_changes {L : List Part} {s t0 : State} (hL : sub [.regs, .aud] L = true) (h0t : Changes L s t0) (a1 : Nat) (a2 : Nat) (a3 : Bool) (a4 : Bool) (a5 : Bool) :
    Changes L s (statusBits t0 a1 a2 a3 a4 a5) := by
  unfold statusBits
  extract_lets -merge -useContext x0 x1 x2 x3 x4
  try clear_value x0 x1 x2 x3
  have h5 : Changes L s x4 := setAsrc_changes (sub_of hL rfl) h0t _ _
  try clear_value x4
  exact Changes.ite (statusBlock_changes (sub_of hL rfl) h5 _ _ _) h5

theorem aesSample_changes {L : List Part} {s t0 : State} (hL : sub [.regs, .aud] L = true) (h0t : Changes L s t0) (a1 : Nat) (a2 : Nat) (a3 : BitVec 24) (a4 : Bool) (a5 : Bool) (a6 : Bool) :
    Changes L s (aesSample t0 a1 a2 a3 a4 a5 a6) := by
  unfold aesSample
  extract_lets -merge -useContext x0 x1 x2 x3 x4
  try clear_value x0 x1 x3
  have h5 : Changes L s x2 := Changes.ite h0t (State.inc32_changes (sub_of hL rfl) h0t _)
  have h6 : Changes L s x4 := setAsrc_changes (sub_of hL rfl) h5 _ _
  try clear_value x2 x4
  exact Changes.ite (pushSample_changes (sub_of hL rfl) h6 _ _ _ _ _) h6

theorem aes3Subframe_changes {L : List Part} {s t0 : State} (hL : sub [.regs, .aud, .faults] L = true) (h0t : Changes L s t0) (a1 : Nat) (a2 : Sys2Proof.AesPreamble) (a3 : BitVec 28) (a4 : Bool) (a5 : Int) :
    Changes L s (aes3Subframe t0 a1 a2 a3 a4 a5) := by
  unfold aes3Subframe
  extract_lets -merge -useContext x0 x1 x2 x3 x4 x5 x6 x7 x8 x9
  try clear_value x0 x1 x2 x3 x4 x5 x7 x8
  have h10 : Changes L s x6 := aesRate_changes (sub_of hL rfl) h0t _ _
  have h11 : Changes L s x9 := Changes.ite (aesZ_changes (sub_of hL rfl) h10 _ _ _) (setAin_changes (sub_of hL rfl) h10 _ _)
  try clear_value x6 x9
  exact Changes.ite h0t (Changes.ite (aesGlitch_changes (sub_of hL rfl) h0t _) (Changes.ite (statusBits_changes (sub_of hL rfl) (aesSample_changes (sub_of hL rfl) h0t _ _ _ _ _ _) _ _ _ _ _) (Changes.ite (aesGlitch_changes (sub_of hL rfl) h10 _) (statusBits_changes (sub_of hL rfl) (aesSample_changes (sub_of hL rfl) h11 _ _ _ _ _ _) _ _ _ _ _))))

theorem pdmSample_changes {L : List Part} {s t0 : State} (hL : sub [.aud] L = true) (h0t : Changes L s t0) (a1 : Nat) (a2 : BitVec 64) :
    Changes L s (pdmSample t0 a1 a2) := by
  unfold pdmSample
  extract_lets -merge -useContext x0 x1 x2
  try clear_value x0 x1
  have h3 : Changes L s x2 := setAsrc_changes (sub_of hL rfl) h0t _ _
  try clear_value x2
  exact Changes.ite (pushSample_changes (sub_of hL rfl) h3 _ _ _ _ _) h0t

theorem clpAudioFrame_changes {L : List Part} {s t0 : State} (hL : sub [.regs, .aud] L = true) (h0t : Changes L s t0) (a1 : Nat) (a2 : Bool) (a3 : List Sys2Proof.Word) :
    Changes L s (clpAudioFrame t0 a1 a2 a3) := by
  unfold clpAudioFrame
  extract_lets -merge -useContext x0 x1 x2 x3 x4 x5 x6 x7 x8 x9
  try clear_value x0 x1 x2 x3 x6 x7
  have h10 : Changes L s x4 := setAin_changes (sub_of hL rfl) h0t _ _
  have h11 : Changes L s x5 := Changes.ite (State.evt_changes (sub_of hL rfl) h10 _ _) h10
  have h12 : Changes L s x8 := by
    unfold x8
    refine Changes.foldl (fun x17 _ h18 => ?_) ?_
    · extract_lets -merge -useContext x19
      try clear_value x19
      exact setAsrc_changes (sub_of hL rfl) h18 _ _
    · exact h11
  have h20 : Changes L s x9 := Changes.ite (Changes.ite (State.evt_changes (sub_of hL rfl) h12 _ _) h12) h11
  try clear_value x4 x5 x8 x9
  refine Changes.ite ?_ ?_
  · exact h20
  · refine Changes.foldl (fun x25 _ h26 => ?_) ?_
    · extract_lets -merge -useContext x27
      try clear_value x27
      exact Changes.ite h26 (pushSample_changes (sub_of hL rfl) h26 _ _ _ _ _)
    · exact h20

theorem audioPacket_changes {L : List Part} {s t0 : State} (hL : sub [.regs, .aud] L = true) (h0t : Changes L s t0) (a1 : Nat) (a2 : Sys2Proof.Word) (a3 : List Nat) :
    Changes L s (audioPacket t0 a1 a2 a3) := by
  unfold audioPacket
  refine Changes.ite ?_ ?_
  · exact h0t
  · extract_lets -merge -useContext x0 x1
    try clear_value x0 x1
    exact Changes.foldl (fun x2 _ h3 => (clpAudioFrame_changes (sub_of hL rfl) h3 _ _ _)) h0t

theorem networkSample_changes {L : List Part} {s t0 : State} (hL : sub [.regs, .aud] L = true) (h0t : Changes L s t0) (a1 : Nat) (a2 : BitVec 24) (a3 : Int) :
    Changes L s (networkSample t0 a1 a2 a3) := by
  unfold networkSample
  exact Changes.ite (State.evt_changes (sub_of hL rfl) (State.inc32_changes (sub_of hL rfl) h0t _) _ _) (setAsrc_changes (sub_of hL rfl) h0t _ _)

theorem networkAudioPacket_changes {L : List Part} {s t0 : State} (hL : sub [.regs, .aud] L = true) (h0t : Changes L s t0) (a1 : Nat) (a2 : Bool) (a3 : BitVec 16) (a4 : BitVec 32) (a5 : List (BitVec 8)) :
    Changes L s (networkAudioPacket t0 a1 a2 a3 a4 a5) := by
  unfold networkAudioPacket
  extract_lets -merge -useContext x0 x1 x2 x3 x4 x5 x6 x7 x8
  try clear_value x0 x1 x2 x3 x4 x5 x7 x8
  have h9 : Changes L s x6 := Changes.set_aud (sub_of hL rfl) h0t _
  try clear_value x6
  exact Changes.ite h0t (Changes.foldl (fun x10 _ h11 => (Changes.foldl (fun x12 _ h13 => (networkSample_changes (sub_of hL rfl) h13 _ _ _)) h11)) h9)

theorem keepSample_changes {L : List Part} {s t0 : State} (hL : sub [.aud] L = true) (h0t : Changes L s t0) (a1 : Nat) (a2 : Sys2Proof.Machine.ASrc) (a3 : Sys2Proof.Machine.ASample) :
    Changes L s (keepSample t0 a1 a2 a3) := by
  unfold keepSample
  exact setAsrc_changes (sub_of hL rfl) h0t _ _

theorem readSource_changes {L : List Part} {s t0 : State} (hL : sub [.regs, .aud] L = true) (h0t : Changes L s t0) (a1 : Nat) :
    Changes L s (readSource t0 a1) := by
  unfold readSource
  extract_lets -merge -useContext x0 x1 x2 x3 x4
  try clear_value x0 x1 x2 x3
  have h5 : Changes L s x4 := keepSample_changes (sub_of hL rfl) h0t _ _ _
  try clear_value x4
  refine Changes.ite ?_ ?_
  · exact Changes.ite (setAsrc_changes (sub_of hL rfl) h0t _ _) h0t
  · refine Changes.ite ?_ ?_
    · split
      · rename_i x6 x7 x8 heq9
        exact keepSample_changes (sub_of hL rfl) h0t _ _ _
      · rename_i x10 heq11
        exact h0t
    · refine Changes.ite ?_ ?_
      · exact keepSample_changes (sub_of hL rfl) h0t _ _ _
      · split
        · rename_i x12 x13 x14 heq15
          exact keepSample_changes (sub_of hL rfl) h0t _ _ _
        · rename_i x16 heq17
          exact State.evt_changes (sub_of hL rfl) (Changes.ite (State.inc32_changes (sub_of hL rfl) h5 _) h5) _ _

theorem networkUnder_changes {L : List Part} {s t0 : State} (hL : sub [.regs, .aud] L = true) (h0t : Changes L s t0) (a1 : Nat) :
    Changes L s (networkUnder t0 a1) := by
  unfold networkUnder
  extract_lets -merge -useContext x0 x1
  try clear_value x0 x1
  exact Changes.ite (State.evt_changes (sub_of hL rfl) (setAsrc_changes (sub_of hL rfl) h0t _ _) _ _) h0t

theorem setAout_changes {L : List Part} {s t0 : State} (hL : sub [.aud] L = true) (h0t : Changes L s t0) (a1 : Nat) (a2 : Sys2Proof.Machine.AOut) :
    Changes L s (setAout t0 a1 a2) := by
  unfold setAout
  exact Changes.set_aud (sub_of hL rfl) h0t _

theorem aesOutput_changes {L : List Part} {s t0 : State} (hL : sub [.aud, .sent] L = true) (h0t : Changes L s t0) (a1 : Nat) :
    Changes L s (aesOutput t0 a1) := by
  unfold aesOutput
  extract_lets -merge -useContext x0 x1 x2 x3 x4 x5 x6 x7
  try clear_value x0 x1 x2 x3 x4 x6 x7
  have hf5 : ∀ y8 y9 y10, Changes L s (x5 y8 y9 y10) := by
    intro y8 y9 y10 
    unfold x5
    extract_lets -merge -useContext x11
    have h12 : Changes L s x11 := setAout_changes (sub_of hL rfl) h0t _ _
    try clear_value x11
    exact Changes.set_sent (sub_of hL rfl) h12 _
  try clear_value x5
  refine Changes.ite ?_ ?_
  · exact setAout_changes (sub_of hL rfl) h0t _ _
  · refine Changes.ite ?_ ?_
    · exact hf5 _ _ _
    · split
      · rename_i x13 x14 x15 heq16
        extract_lets -merge -useContext x17
        try clear_value x17
        exact hf5 _ _ _
      · rename_i x18 heq19
        exact hf5 _ _ _

theorem atInstant_changes {L : List Part} {s t0 : State} (hL : sub [.regs, .aud, .sent] L = true) (h0t : Changes L s t0) (a1 : Nat) :
    Changes L s (atInstant t0 a1) := by
  unfold atInstant
  extract_lets -merge -useContext x0 x1 x2 x3 x4
  try clear_value x0 x2
  have h5 : Changes L s x1 := Changes.set_aud (sub_of hL rfl) h0t _
  have h6 : Changes L s x3 := by
    unfold x3
    refine Changes.foldl (fun x7 _ h8 => ?_) ?_
    · exact readSource_changes (sub_of hL rfl) h8 _
    · exact h5
  have h9 : Changes L s x4 := by
    unfold x4
    refine Changes.foldl (fun x10 _ h11 => ?_) ?_
    · exact networkUnder_changes (sub_of hL rfl) h11 _
    · exact h6
  try clear_value x1 x3 x4
  refine Changes.foldl (fun x12 _ h13 => ?_) ?_
  · exact aesOutput_changes (sub_of hL rfl) h13 _
  · exact h9

theorem gridInstant_changes {L : List Part} {s t0 : State} (hL : sub [.regs, .stp, .aud, .sent] L = true) (h0t : Changes L s t0) :
    Changes L s (gridInstant t0) := by
  unfold gridInstant
  refine Changes.ite ?_ ?_
  · exact h0t
  · refine Changes.ite ?_ ?_
    · exact atInstant_changes (sub_of hL rfl) h0t _
    · refine Changes.ite ?_ ?_
      · extract_lets -merge -useContext x0
        try clear_value x0
        exact atInstant_changes (sub_of hL rfl) (State.toPos_changes (sub_of hL rfl) h0t _) _
      · exact h0t

theorem outputConfig_changes {L : List Part} {s t0 : State} (hL : sub [.regs, .aud] L = true) (h0t : Changes L s t0) (a1 : Nat) (a2 : Sys2Proof.Word) :
    Changes L s (outputConfig t0 a1 a2) := by
  unfold outputConfig
  refine Changes.ite ?_ ?_
  · extract_lets -merge -useContext x0 x1
    try clear_value x0 x1
    exact setAout_changes (sub_of hL rfl) (State.setReg_changes (sub_of hL rfl) h0t _ _) _ _
  · exact h0t

theorem pesInto_changes {L : List Part} {s t0 : State} (hL : sub [.regs, .chans, .etm, .aud] L = true) (h0t : Changes L s t0) (a1 : Nat) (a2 : Nat) (a3 : BitVec 32) (a4 : Nat) (a5 : List (BitVec 24)) (a6 : Nat) :
    Changes L s (pesInto t0 a1 a2 a3 a4 a5 a6) := by
  unfold pesInto
  extract_lets -merge -useContext x0 x1 x2 x3 x4
  try clear_value x0 x1 x2 x3 x4
  exact Changes.foldl (fun x5 _ h6 => (payloadRelease_changes (sub_of hL rfl) h6 _ _ _)) (Changes.set_aud (sub_of hL rfl) h0t _)

theorem pesRelease_changes {L : List Part} {s t0 : State} (hL : sub [.regs, .stp, .chans, .etm, .aud, .sent] L = true) (h0t : Changes L s t0) (a1 : Nat) (a2 : Nat) :
    Changes L s (pesRelease t0 a1 a2) := by
  unfold pesRelease
  extract_lets -merge -useContext x0 x1 x2 x3
  try clear_value x0 x1 x2 x3
  split
  · rename_i x4
    exact h0t
  · rename_i x5 x6
    extract_lets -merge -useContext x7 x8 x9
    try clear_value x7 x8 x9
    refine Changes.ite ?_ ?_
    · exact h0t
    · split
      · rename_i x10 x11 x12 x13 heq14 heq15
        extract_lets -merge -useContext x16 x17
        try clear_value x17
        have h18 : Changes L s x16 := State.toPos_changes (sub_of hL rfl) h0t _
        try clear_value x16
        split
        rename_i x19 x20 x21 heq22
        extract_lets -merge -useContext x23 x24 x25 x26
        try clear_value x23 x24 x26
        have h27 : Changes L s x25 := Changes.foldl (fun x28 _ h29 => (pesInto_changes (sub_of hL rfl) h29 _ _ _ _ _ _)) h18
        try clear_value x25
        exact Changes.upd [.aud, .sent] (sub_of hL rfl) h27 rfl rfl rfl rfl (Nat.le_refl _) (fun p hp => by cases p <;> first | rfl | exact ⟨rfl, rfl⟩ | exact absurd (by decide) hp)
      · rename_i x30 x31 heq32
        exact h0t

theorem aes67Release_changes {L : List Part} {s t0 : State} (hL : sub [.regs, .stp, .etm, .aud, .sent] L = true) (h0t : Changes L s t0) (a1 : Nat) (a2 : Nat) :
    Changes L s (aes67Release t0 a1 a2) := by
  unfold aes67Release
  extract_lets -merge -useContext x0 x1 x2 x3 x4
  try clear_value x0 x1 x2 x3 x4
  split
  · rename_i x5 x6 x7 x8 heq9 heq10
    refine Changes.ite ?_ ?_
    · exact h0t
    · extract_lets -merge -useContext x11 x12 x13 x14 x15 x16
      try clear_value x12 x13 x14 x15
      have h17 : Changes L s x11 := State.toPos_changes (sub_of hL rfl) h0t _
      have h18 : Changes L s x16 := Changes.upd [.etm, .aud, .sent] (sub_of hL rfl) h17 rfl rfl rfl rfl (Nat.le_refl _) (fun p hp => by cases p <;> first | rfl | exact ⟨rfl, rfl⟩ | exact absurd (by decide) hp)
      try clear_value x11 x16
      refine Changes.foldl (fun x21 _ h22 => ?_) ?_
      · refine Changes.ite ?_ ?_
        · exact h22
        · extract_lets -merge -useContext x23
          try clear_value x23
          exact markDepth_changes (sub_of hL rfl) (enqueue_changes (sub_of hL rfl) h22 _) _
      · exact h18
  · rename_i x24 x25 heq26
    exact h0t

theorem audioFails_changes {L : List Part} {s t0 : State} (hL : sub [.regs, .aud] L = true) (h0t : Changes L s t0) (a1 : Nat) :
    Changes L s (audioFails t0 a1) := by
  unfold audioFails
  exact State.evt_changes (sub_of hL rfl) (Changes.set_aud (sub_of hL rfl) h0t _) _ _

theorem audTableRead_changes {L : List Part} {s t0 : State} (hL : sub [.regs] L = true) (h0t : Changes L s t0) :
    Changes L s (audTableRead t0) := by
  unfold audTableRead
  refine Changes.ite ?_ ?_
  · exact h0t
  · extract_lets -merge -useContext x0 x1
    try clear_value x0
    have hf1 : ∀ y2, Changes L s (x1 y2) := by
      intro y2 
      unfold x1
      exact State.tblDone_changes (sub_of hL rfl) (State.putData_changes (sub_of hL rfl) h0t _ _ _) _
    try clear_value x1
    split
    · rename_i x3 heq4
      exact hf1 _
    · rename_i x5 heq6
      exact Changes.ite (hf1 _) (State.tblRefuse_changes (sub_of hL rfl) h0t _)
    · rename_i x7 heq8
      exact Changes.ite (hf1 _) (State.tblRefuse_changes (sub_of hL rfl) h0t _)
    · rename_i x9 heq10 heq11 heq12
      exact State.tblRefuse_changes (sub_of hL rfl) h0t _

theorem audTableWrite_changes {L : List Part} {s t0 : State} (hL : sub [.regs, .aud] L = true) (h0t : Changes L s t0) :
    Changes L s (audTableWrite t0) := by
  unfold audTableWrite
  refine Changes.ite ?_ ?_
  · exact h0t
  · extract_lets -merge -useContext x0 x1 x2 x3 x4 x5 x6
    try clear_value x0 x1 x2 x3 x5 x6
    have h7 : Changes L s x4 := Changes.set_aud (sub_of hL rfl) h0t _
    try clear_value x4
    exact Changes.ite (State.tblDone_changes (sub_of hL rfl) (State.setF_changes (sub_of hL rfl) h7 _ _ _ _) _) (Changes.ite (State.tblDone_changes (sub_of hL rfl) (Changes.set_aud (sub_of hL rfl) h0t _) _) (State.tblRefuse_changes (sub_of hL rfl) h0t _))

end Sys2Proof.Machine
end

