-- ==== Sys2Proof/Laws/ChangesInMonitor.lean ====
section
/-! SUPPORT. What each function of Monitor.lean changes at most: one lemma for each. -/

namespace Sys2Proof.Machine

theorem monEnable_changes {L : List Part} {s t0 : State} (hL : sub [.regs, .mon] L = true) (h0t : Changes L s t0) :
    Changes L s (monEnable t0) := by
  unfold monEnable
  refine Changes.ite ?_ ?_
  · exact h0t
  · split
    · rename_i x0 x1 heq2
      exact State.failCheck_changes (sub_of hL rfl) h0t _ _ _ _
    · rename_i x3 heq4
      extract_lets -merge -useContext x5 x6
      try clear_value x6
      have h7 : Changes L s x5 := State.activate_changes (sub_of hL rfl) h0t _
      try clear_value x5
      exact Changes.set_mon (sub_of hL rfl) h7 _

theorem monDisable_changes {L : List Part} {s t0 : State} (hL : sub [.regs, .mon] L = true) (h0t : Changes L s t0) :
    Changes L s (monDisable t0) := by
  unfold monDisable
  extract_lets -merge -useContext x0 x1 x2
  try clear_value x2
  have h3 : Changes L s x0 := State.setBit_changes (sub_of hL rfl) (State.deactivate_changes (sub_of hL rfl) h0t _) _ _ _
  have h4 : Changes L s x1 := State.setBit_changes (sub_of hL rfl) h3 _ _ _
  try clear_value x0 x1
  exact Changes.set_mon (sub_of hL rfl) h4 _

theorem monCopy_changes {L : List Part} {s t0 : State} (hL : sub [.regs, .mon] L = true) (h0t : Changes L s t0) :
    Changes L s (monCopy t0) := by
  unfold monCopy
  refine Changes.ite ?_ ?_
  · exact h0t
  · extract_lets -merge -useContext x0 x1 x2
    try clear_value x1 x2
    have h3 : Changes L s x0 := State.setBit_changes (sub_of hL rfl) h0t _ _ _
    try clear_value x0
    split
    · rename_i x4 x5 heq6
      exact State.evt_changes (sub_of hL rfl) (State.setReg_changes (sub_of hL rfl) h3 _ _) _ _
    · rename_i x7 heq8
      exact State.evt_changes (sub_of hL rfl) (State.setN_changes (sub_of hL rfl) (Changes.set_mon (sub_of hL rfl) h3 _) _ _) _ _

theorem monCommit_changes {L : List Part} {s t0 : State} (hL : sub [.regs] L = true) (h0t : Changes L s t0) :
    Changes L s (monCommit t0) := by
  unfold monCommit
  exact Changes.ite (State.setBit_changes (sub_of hL rfl) (State.setBit_changes (sub_of hL rfl) h0t _ _ _) _ _ _) h0t

theorem lineMatch_changes {L : List Part} {s t0 : State} (hL : sub [.regs] L = true) (h0t : Changes L s t0) (a1 : Nat) :
    Changes L s (lineMatch t0 a1) := by
  unfold lineMatch
  exact Changes.ite (State.evt_changes (sub_of hL rfl) h0t _ _) h0t

theorem monCommitCopy_changes {L : List Part} {s t0 : State} (hL : sub [.regs, .mon] L = true) (h0t : Changes L s t0) :
    Changes L s (monCommitCopy t0) := by
  unfold monCommitCopy
  exact Changes.ite (monCopy_changes (sub_of hL rfl) (lineMatch_changes (sub_of hL rfl) (State.evt_changes (sub_of hL rfl) h0t _ _) _)) h0t

theorem monBegin_changes {L : List Part} {s t0 : State} (hL : sub [.regs, .stp, .mon] L = true) (h0t : Changes L s t0) :
    Changes L s (monBegin t0) := by
  unfold monBegin
  extract_lets -merge -useContext x0 x1 x2 x3 x4 x5
  try clear_value x0 x1 x2 x5
  have h6 : Changes L s x3 := Changes.ite h0t (State.enterFrame_changes (sub_of hL rfl) h0t _ _)
  have h7 : Changes L s x4 := Changes.ite h6 (monCopy_changes (sub_of hL rfl) h6)
  try clear_value x3 x4
  exact Changes.set_mon (sub_of hL rfl) h7 _

theorem monitorLine_changes {L : List Part} {s t0 : State} (hL : sub [.regs, .stp, .mon, .hbm, .sent] L = true) (h0t : Changes L s t0) (a1 : Nat) (a2 : List (Fin 68)) :
    Changes L s (monitorLine t0 a1 a2) := by
  unfold monitorLine
  refine Changes.ite ?_ ?_
  · exact h0t
  · extract_lets -merge -useContext x0 x1 x2 x3 x4
    try clear_value x0 x3 x4
    have h5 : Changes L s x1 := Changes.ite (monBegin_changes (sub_of hL rfl) h0t) (State.toPos_changes (sub_of hL rfl) h0t _)
    have h6 : Changes L s x2 := lineMatch_changes (sub_of hL rfl) h5 _
    try clear_value x1 x2
    refine Changes.ite ?_ ?_
    · exact Changes.ite (State.evt_changes (sub_of hL rfl) h6 _ _) h6
    · split
      rename_i x7 x8 x9 heq10
      have h11 : Changes L s x9 := by
        rw [show x9 = (_, x9).2 from rfl, ← heq10]
        exact State.draw_changes h6
      extract_lets -merge -useContext x12 x13 x14 x15 x16
      try clear_value x12 x13 x14
      have h17 : Changes L s x15 := Changes.upd [.mon, .sent] (sub_of hL rfl) h11 rfl rfl rfl rfl (Nat.le_refl _) (fun p hp => by cases p <;> first | rfl | exact ⟨rfl, rfl⟩ | exact absurd (by decide) hp)
      have h18 : Changes L s x16 := readDone_changes (sub_of hL rfl) h17 _ _
      try clear_value x15 x16
      exact Changes.ite h18 (State.evt_changes (sub_of hL rfl) (State.inc32_changes (sub_of hL rfl) h18 _) _ _)

theorem frameDone_changes {L : List Part} {s t0 : State} (hL : sub [.regs, .faults] L = true) (h0t : Changes L s t0) (a1 : List (BitVec 8)) :
    Changes L s (frameDone t0 a1) := by
  unfold frameDone
  extract_lets -merge -useContext x0 x1 x2 x3 x4 x5 x6
  try clear_value x0 x1 x2 x5
  have h7 : Changes L s x3 := State.evt_changes (sub_of hL rfl) h0t _ _
  have h8 : Changes L s x4 := Changes.ite (State.evt_changes (sub_of hL rfl) h7 _ _) h7
  have h9 : Changes L s x6 := State.setReg_changes (sub_of hL rfl) (State.setN_changes (sub_of hL rfl) h8 _ _) _ _
  try clear_value x3 x4 x6
  exact Changes.ite h0t (Changes.ite (State.setBit_changes (sub_of hL rfl) h8 _ _ _) (Changes.ite (State.setN_changes (sub_of hL rfl) h9 _ _) (State.raise_changes (sub_of hL rfl) (State.evt_changes (sub_of hL rfl) (State.inc32_changes (sub_of hL rfl) (State.setN_changes (sub_of hL rfl) h9 _ _) _) _ _) _ _ _ _)))

theorem monStep_changes {L : List Part} {s t0 : State} (hL : sub [.regs, .mon] L = true) (h0t : Changes L s t0) :
    Changes L s (monStep t0) := by
  unfold monStep
  refine Changes.ite ?_ ?_
  · exact h0t
  · extract_lets -merge -useContext x0 x1 x2
    try clear_value x2
    have h3 : Changes L s x0 := monCopy_changes (sub_of hL rfl) h0t
    have h4 : Changes L s x1 := State.setBit_changes (sub_of hL rfl) h3 _ _ _
    try clear_value x0 x1
    exact Changes.ite (Changes.set_mon (sub_of hL rfl) h4 _) h3

end Sys2Proof.Machine
end

