-- ==== Sys2Proof/Laws/ChangesInHbm.lean ====
section
/-! SUPPORT. What each function of Hbm.lean changes at most: one lemma for each. -/

namespace Sys2Proof.Machine

theorem useLayout_changes {L : List Part} {s t0 : State} (hL : sub [.hbm, .regs] L = true) (h0t : Changes L s t0) (a1 : List Sys2Proof.Word) :
    Changes L s (useLayout t0 a1) := by
  unfold useLayout
  extract_lets -merge -useContext x0 x1 x2 x3 x4 x5
  try clear_value x0 x1
  have h6 : Changes L s x3 := Changes.upd [.hbm] (sub_of hL rfl) h0t rfl rfl rfl rfl (Nat.le_refl _) (fun p hp => by cases p <;> first | rfl | exact ⟨rfl, rfl⟩ | exact absurd (by decide) hp)
  have h8 : Changes L s x4 := State.setF_changes (sub_of hL rfl) h6 _ _ _ _
  have h9 : Changes L s x5 := Changes.foldl (fun x10 _ h11 => (State.setN_changes (sub_of hL rfl) h11 _ _)) h8
  try clear_value x2 x3 x4 x5
  exact State.setN_changes (sub_of hL rfl) h9 _ _

theorem undefContents_changes {L : List Part} {s t0 : State} (hL : sub [.mem] L = true) (h0t : Changes L s t0) :
    Changes L s (undefContents t0) := by
  refine h0t.trans ⟨rfl, id, fun w => ?_, Nat.le_succ _, fun p hp => by
    cases p <;> first | rfl | exact ⟨rfl, rfl⟩ | exact absurd (sub_mem hL (by decide)) hp⟩
  refine Store.filter_wf _ w (fun e _ he => ?_)
  have h : e.1 < 0x10000000 := by simpa using he
  simp [memDefault, h]

theorem refuseLayout_changes {L : List Part} {s t0 : State} (hL : sub [.regs] L = true) (h0t : Changes L s t0) (a1 : Nat) (a2 : Nat) :
    Changes L s (refuseLayout t0 a1 a2) := by
  unfold refuseLayout
  exact State.evt_changes (sub_of hL rfl) (State.refuse_changes (sub_of hL rfl) h0t _ _ _ _) _ _

theorem hbmLayoutCommit_changes {L : List Part} {s t0 : State} (hL : sub [.regs, .hbm, .mem] L = true) (h0t : Changes L s t0) :
    Changes L s (hbmLayoutCommit t0) := by
  unfold hbmLayoutCommit
  refine Changes.ite ?_ ?_
  · exact h0t
  · refine Changes.ite ?_ ?_
    · exact refuseLayout_changes (sub_of hL rfl) h0t _ _
    · extract_lets -merge -useContext x0
      try clear_value x0
      split
      · rename_i x1 x2 heq3
        exact refuseLayout_changes (sub_of hL rfl) h0t _ _
      · rename_i x4 heq5
        exact undefContents_changes (sub_of hL rfl) (useLayout_changes (sub_of hL rfl) h0t _)

theorem bar2Write_changes {L : List Part} {s t0 : State} (hL : sub [.regs, .mem] L = true) (h0t : Changes L s t0) (a1 : Nat) (a2 : List (BitVec 8)) :
    Changes L s (bar2Write t0 a1 a2) := by
  unfold bar2Write
  extract_lets -merge -useContext x0
  try clear_value x0
  exact Changes.ite h0t (Changes.ite (State.evt_changes (sub_of hL rfl) (State.inc32_changes (sub_of hL rfl) h0t _) _ _) (Changes.ite h0t (State.setMem_changes (sub_of hL rfl) h0t _ _)))

theorem bar2Read_changes {L : List Part} {s t0 : State} (hL : sub [.bus] L = true) (h0t : Changes L s t0) (a1 : Nat) (a2 : Nat) :
    Changes L s (bar2Read t0 a1 a2) := by
  unfold bar2Read
  extract_lets -merge -useContext x0
  try clear_value x0
  exact Changes.ite (Changes.set_bus (sub_of hL rfl) h0t _) (Changes.set_bus (sub_of hL rfl) h0t _)

theorem setPch_changes {L : List Part} {s t0 : State} (hL : sub [.hbm] L = true) (h0t : Changes L s t0) (a1 : Nat) (a2 : Sys2Proof.Machine.PchSt) :
    Changes L s (setPch t0 a1 a2) := by
  unfold setPch
  exact Changes.upd [.hbm] (sub_of hL rfl) h0t rfl rfl rfl rfl (Nat.le_refl _) (fun p hp => by cases p <;> first | rfl | exact ⟨rfl, rfl⟩ | exact absurd (by decide) hp)

theorem setPchSt_changes {L : List Part} {s t0 : State} (hL : sub [.regs] L = true) (h0t : Changes L s t0) (a1 : Nat) (a2 : Nat) :
    Changes L s (setPchSt t0 a1 a2) := by
  unfold setPchSt
  exact State.setF_changes (sub_of hL rfl) h0t _ _ _ _

theorem activateRow_changes {L : List Part} {s t0 : State} (hL : sub [.regs, .hbm] L = true) (h0t : Changes L s t0) (a1 : Nat) (a2 : Sys2Proof.MemReq) :
    Changes L s (activateRow t0 a1 a2) := by
  unfold activateRow
  extract_lets -merge -useContext x0 x1 x2 x3 x4 x5 x6
  try clear_value x0 x1 x2 x3 x4 x6
  have h7 : Changes L s x5 := Changes.ite (State.evt_changes (sub_of hL rfl) (State.inc32_changes (sub_of hL rfl) h0t _) _ _) h0t
  try clear_value x5
  refine Changes.ite ?_ ?_
  · split
    · rename_i x8 x9 heq10
      extract_lets -merge -useContext x11
      have h12 : Changes L s x11 := setPch_changes (sub_of hL rfl) h7 _ _
      try clear_value x11
      exact State.evt_changes (sub_of hL rfl) (State.setN_changes (sub_of hL rfl) (State.inc32_changes (sub_of hL rfl) h12 _) _ _) _ _
    · rename_i x13 heq14
      exact setPch_changes (sub_of hL rfl) h7 _ _
  · exact setPch_changes (sub_of hL rfl) h7 _ _

theorem drift_changes {L : List Part} {s t0 : State} (hL : sub [.regs, .faults] L = true) (h0t : Changes L s t0) (a1 : Nat) :
    Changes L s (drift t0 a1) := by
  unfold drift
  exact Changes.ite (State.raise_changes (sub_of hL rfl) (State.evt_changes (sub_of hL rfl) (State.evt_changes (sub_of hL rfl) (setPchSt_changes (sub_of hL rfl) h0t _ _) _ _) _ _) _ _ _ _) h0t

theorem noteCorr_changes {L : List Part} {s t0 : State} (hL : sub [.regs, .hbm, .faults] L = true) (h0t : Changes L s t0) (a1 : Nat) :
    Changes L s (noteCorr t0 a1) := by
  unfold noteCorr
  extract_lets -merge -useContext x0 x1 x2 x3
  try clear_value x0 x1 x2
  have h4 : Changes L s x3 := State.evt_changes (sub_of hL rfl) (State.inc32_changes (sub_of hL rfl) (setPch_changes (sub_of hL rfl) h0t _ _) _) _ _
  try clear_value x3
  exact Changes.ite (drift_changes (sub_of hL rfl) h4 _) h4

theorem noteUncorr_changes {L : List Part} {s t0 : State} (hL : sub [.regs, .faults] L = true) (h0t : Changes L s t0) (a1 : Nat) (a2 : BitVec 35) :
    Changes L s (noteUncorr t0 a1 a2) := by
  unfold noteUncorr
  extract_lets -merge -useContext x0 x1 x2
  try clear_value x1
  have h3 : Changes L s x0 := State.setReg_changes (sub_of hL rfl) (State.inc32_changes (sub_of hL rfl) h0t _) _ _
  have h4 : Changes L s x2 := State.evt_changes (sub_of hL rfl) (State.evt_changes (sub_of hL rfl) (State.setReg_changes (sub_of hL rfl) h3 _ _) _ _) _ _
  try clear_value x0 x2
  exact State.raise_changes (sub_of hL rfl) h4 _ _ _ _

theorem markFailed_changes {L : List Part} {s t0 : State} (hL : sub [.hbm] L = true) (h0t : Changes L s t0) (a1 : Nat) (a2 : Nat) :
    Changes L s (markFailed t0 a1 a2) := by
  unfold markFailed
  exact Changes.upd [.hbm] (sub_of hL rfl) h0t rfl rfl rfl rfl (Nat.le_refl _) (fun p hp => by cases p <;> first | rfl | exact ⟨rfl, rfl⟩ | exact absurd (by decide) hp)

theorem engineError_changes {L : List Part} {s t0 : State} (hL : sub [.regs, .chans, .eng, .hbm, .mem, .faults, .twin, .sent] L = true) (h0t : Changes L s t0) (a1 : Nat) (a2 : Nat) :
    Changes L s (engineError t0 a1 a2) := by
  unfold engineError
  split
  · rename_i x0 heq1
    split
    · rename_i x2 x3 heq4
      exact abandonSlice_changes (sub_of hL rfl) h0t _
    · rename_i x5 heq6
      exact h0t
  · rename_i x7 heq8
    exact Changes.foldl (fun x9 _ h10 => (failRecords_changes (sub_of hL rfl) h10 _ _)) h0t

theorem masterError_changes {L : List Part} {s t0 : State} (hL : sub [.regs, .bus, .chans, .eng, .etm, .aud, .rv, .hbm, .mem, .faults, .twin, .sent] L = true) (h0t : Changes L s t0) (a1 : Nat) (a2 : Nat) :
    Changes L s (masterError t0 a1 a2) := by
  unfold masterError
  refine Changes.ite ?_ ?_
  · exact engineError_changes (sub_of hL rfl) h0t _ _
  · refine Changes.ite ?_ ?_
    · refine Changes.foldl (fun x0 _ h1 => ?_) ?_
      · exact windowFails_changes (sub_of hL rfl) h1 _
      · exact markFailed_changes (sub_of hL rfl) h0t _ _
    · refine Changes.ite ?_ ?_
      · exact etmMemError_changes (sub_of hL rfl) (markFailed_changes (sub_of hL rfl) h0t _ _) _
      · refine Changes.ite ?_ ?_
        · split
          rename_i x2 x3 x4 heq5
          have h6 : Changes L s x4 := by
            rw [show x4 = (_, x4).2 from rfl, ← heq5]
            exact State.draw_changes h0t
          exact doneWait_changes (sub_of hL rfl) h6 _
        · exact Changes.ite (Changes.set_bus (sub_of hL rfl) h0t _) (Changes.ite (audioFails_changes (sub_of hL rfl) h0t _) (Changes.ite (State.inc32_changes (sub_of hL rfl) h0t _) (Changes.ite h0t (markFailed_changes (sub_of hL rfl) h0t _ _))))

theorem setGranted_changes {L : List Part} {s t0 : State} (hL : sub [.hbm] L = true) (h0t : Changes L s t0) (a1 : Nat) (a2 : Nat) :
    Changes L s (setGranted t0 a1 a2) := by
  unfold setGranted
  exact Changes.upd [.hbm] (sub_of hL rfl) h0t rfl rfl rfl rfl (Nat.le_refl _) (fun p hp => by cases p <;> first | rfl | exact ⟨rfl, rfl⟩ | exact absurd (by decide) hp)

theorem resetMatrix_changes {L : List Part} {s t0 : State} (hL : sub [.hbm] L = true) (h0t : Changes L s t0) :
    Changes L s (resetMatrix t0) := by
  unfold resetMatrix
  exact Changes.upd [.hbm] (sub_of hL rfl) h0t rfl rfl rfl rfl (Nat.le_refl _) (fun p hp => by cases p <;> first | rfl | exact ⟨rfl, rfl⟩ | exact absurd (by decide) hp)

theorem memoryRequest_changes {L : List Part} {s t0 : State} (hL : sub [.regs, .bus, .chans, .eng, .etm, .aud, .rv, .hbm, .mem, .faults, .twin, .sent] L = true) (h0t : Changes L s t0) (a1 : Nat) (a2 : List Sys2Proof.MemReq) (a3 : Sys2Proof.ReadErr) :
    Changes L s (memoryRequest t0 a1 a2 a3) := by
  unfold memoryRequest
  extract_lets -merge -useContext x0 x1 x2 x3 x4 x5 x6
  try clear_value x0 x4 x5
  have h7 : Changes L s x1 := Changes.ite (State.evt_changes (sub_of hL rfl) (State.incSat_changes (sub_of hL rfl) (setPchSt_changes (sub_of hL rfl) h0t _ _) _ _ _ _) _ _) h0t
  have h8 : Changes L s x2 := setGranted_changes (sub_of hL rfl) h7 _ _
  have h9 : Changes L s x3 := Changes.ite (State.evt_changes (sub_of hL rfl) h8 _ _) h8
  have h10 : Changes L s x6 := setPch_changes (sub_of hL rfl) h9 _ _
  try clear_value x1 x2 x3 x6
  refine Changes.ite ?_ ?_
  · exact h0t
  · refine Changes.ite ?_ ?_
    · exact h10
    · split
      · rename_i x11 heq12
        exact h10
      · rename_i x13 x14 heq15
        extract_lets -merge -useContext x16 x17 x18
        try clear_value x16
        have h19 : Changes L s x17 := setPch_changes (sub_of hL rfl) h10 _ _
        have h20 : Changes L s x18 := Changes.ite h19 (activateRow_changes (sub_of hL rfl) h19 _ _)
        try clear_value x17 x18
        refine Changes.ite ?_ ?_
        · exact Changes.set_bus (sub_of hL rfl) h20 _
        · split
          · rename_i x21
            exact Changes.set_bus (sub_of hL rfl) h20 _
          · rename_i x22
            exact Changes.set_bus (sub_of hL rfl) h20 _
          · rename_i x23
            exact noteCorr_changes (sub_of hL rfl) (Changes.set_bus (sub_of hL rfl) h20 _) _
          · rename_i x24
            exact masterError_changes (sub_of hL rfl) (noteUncorr_changes (sub_of hL rfl) (Changes.set_bus (sub_of hL rfl) h20 _) _ _) _ _

theorem setOwed_changes {L : List Part} {s t0 : State} (hL : sub [.regs] L = true) (h0t : Changes L s t0) (a1 : Nat) (a2 : Nat) :
    Changes L s (setOwed t0 a1 a2) := by
  unfold setOwed
  exact State.setN_changes (sub_of hL rfl) h0t _ _

theorem refreshDue_changes {L : List Part} {s t0 : State} (hL : sub [.regs, .hbm] L = true) (h0t : Changes L s t0) (a1 : Nat) :
    Changes L s (refreshDue t0 a1) := by
  unfold refreshDue
  refine Changes.ite ?_ ?_
  · exact h0t
  · extract_lets -merge -useContext x0 x1
    try clear_value x0
    have h2 : Changes L s x1 := setPch_changes (sub_of hL rfl) h0t _ _
    try clear_value x1
    exact Changes.ite h2 (Changes.ite (State.evt_changes (sub_of hL rfl) (State.inc32_changes (sub_of hL rfl) h2 _) _ _) (setOwed_changes (sub_of hL rfl) h2 _ _))

theorem refreshMakeup_changes {L : List Part} {s t0 : State} (hL : sub [.regs] L = true) (h0t : Changes L s t0) (a1 : Nat) :
    Changes L s (refreshMakeup t0 a1) := by
  unfold refreshMakeup
  exact Changes.ite (State.setF_changes (sub_of hL rfl) h0t _ _ _ _) h0t

theorem selfRefreshEntry_changes {L : List Part} {s t0 : State} (hL : sub [.regs] L = true) (h0t : Changes L s t0) (a1 : Nat) :
    Changes L s (selfRefreshEntry t0 a1) := by
  unfold selfRefreshEntry
  exact Changes.ite h0t (Changes.ite (setPchSt_changes (sub_of hL rfl) h0t _ _) (State.inc32_changes (sub_of hL rfl) h0t _))

theorem trackingWindow_changes {L : List Part} {s t0 : State} (hL : sub [.regs, .faults] L = true) (h0t : Changes L s t0) (a1 : Nat) (a2 : Int) (a3 : Nat) :
    Changes L s (trackingWindow t0 a1 a2 a3) := by
  unfold trackingWindow
  refine Changes.ite ?_ ?_
  · extract_lets -merge -useContext x0 x1 x2
    try clear_value x0 x1
    have h3 : Changes L s x2 := State.setN_changes (sub_of hL rfl) h0t _ _
    try clear_value x2
    exact Changes.ite (drift_changes (sub_of hL rfl) h3 _) h3
  · exact h0t

theorem settleDrift_changes {L : List Part} {s t0 : State} (hL : sub [.regs] L = true) (h0t : Changes L s t0) :
    Changes L s (settleDrift t0) := by
  unfold settleDrift
  exact Changes.ite h0t (State.setBit_changes (sub_of hL rfl) h0t _ _ _)

theorem retirePc_changes {L : List Part} {s t0 : State} (hL : sub [.regs, .eng, .hbm, .faults] L = true) (h0t : Changes L s t0) (a1 : Nat) :
    Changes L s (retirePc t0 a1) := by
  unfold retirePc
  extract_lets -merge -useContext x0 x1 x2 x3 x4
  try clear_value x3
  have h5 : Changes L s x0 := State.setBit_changes (sub_of hL rfl) (State.setBit_changes (sub_of hL rfl) h0t _ _ _) _ _ _
  have h6 : Changes L s x1 := setPch_changes (sub_of hL rfl) (setPchSt_changes (sub_of hL rfl) h5 _ _) _ _
  have h7 : Changes L s x2 := useLayout_changes (sub_of hL rfl) h6 _
  have h8 : Changes L s x4 := Changes.set_eng (sub_of hL rfl) h7 _
  try clear_value x0 x1 x2 x4
  exact State.setCause_changes (sub_of hL rfl) (State.raise_changes (sub_of hL rfl) (State.evt_changes (sub_of hL rfl) h8 _ _) _ _ _ _) _

theorem nextRetrain_changes {L : List Part} {s t0 : State} (hL : sub [.regs] L = true) (h0t : Changes L s t0) :
    Changes L s (nextRetrain t0) := by
  unfold nextRetrain
  refine Changes.ite ?_ ?_
  · exact h0t
  · split
    · rename_i x0 x1 heq2
      exact setPchSt_changes (sub_of hL rfl) h0t _ _
    · rename_i x3 heq4
      exact h0t

theorem hbmPcRetired_changes {L : List Part} {s t0 : State} (hL : sub [.regs, .eng, .hbm, .faults] L = true) (h0t : Changes L s t0) (a1 : Nat) :
    Changes L s (hbmPcRetired t0 a1) := by
  unfold hbmPcRetired
  exact Changes.ite (settleDrift_changes (sub_of hL rfl) (nextRetrain_changes (sub_of hL rfl) (retirePc_changes (sub_of hL rfl) h0t _))) h0t

theorem restartAll_changes {L : List Part} {s t0 : State} (hL : sub [.regs, .chans, .eng, .mill, .hbm, .mem, .faults, .twin, .sent] L = true) (h0t : Changes L s t0) :
    Changes L s (restartAll t0) := by
  unfold restartAll
  exact Changes.foldl (fun x0 _ h1 => (Changes.ite (newSequence_changes (sub_of hL rfl) h1 _) h1)) h0t

theorem losePc_changes {L : List Part} {s t0 : State} (hL : sub [.regs, .chans, .eng, .mill, .hbm, .mem, .faults, .twin, .sent] L = true) (h0t : Changes L s t0) (a1 : Nat) :
    Changes L s (losePc t0 a1) := by
  unfold losePc
  extract_lets -merge -useContext x0
  have h1 : Changes L s x0 := retirePc_changes (sub_of hL rfl) (restartAll_changes (sub_of hL rfl) (undefContents_changes (sub_of hL rfl) h0t)) _
  try clear_value x0
  exact State.raise_changes (sub_of hL rfl) (State.evt_changes (sub_of hL rfl) (State.evt_changes (sub_of hL rfl) h1 _ _) _ _) _ _ _ _

theorem retrainComplete_changes {L : List Part} {s t0 : State} (hL : sub [.regs, .chans, .eng, .mill, .hbm, .mem, .faults, .twin, .sent] L = true) (h0t : Changes L s t0) (a1 : Nat) (a2 : Bool) (a3 : Bool) :
    Changes L s (retrainComplete t0 a1 a2 a3) := by
  unfold retrainComplete
  exact Changes.ite (Changes.ite (settleDrift_changes (sub_of hL rfl) (nextRetrain_changes (sub_of hL rfl) (State.setReg_changes (sub_of hL rfl) (setPchSt_changes (sub_of hL rfl) h0t _ _) _ _))) (Changes.ite (setPchSt_changes (sub_of hL rfl) h0t _ _) (settleDrift_changes (sub_of hL rfl) (nextRetrain_changes (sub_of hL rfl) (losePc_changes (sub_of hL rfl) h0t _))))) h0t

theorem hbmParity_changes {L : List Part} {s t0 : State} (hL : sub [.regs, .bus, .chans, .eng, .etm, .aud, .rv, .hbm, .mem, .faults, .twin, .sent] L = true) (h0t : Changes L s t0) (a1 : Nat) :
    Changes L s (hbmParity t0 a1) := by
  unfold hbmParity
  extract_lets -merge -useContext x0 x1 x2
  try clear_value x0
  have h3 : Changes L s x1 := setPch_changes (sub_of hL rfl) h0t _ _
  have h4 : Changes L s x2 := Changes.foldl (fun x5 _ h6 => (masterError_changes (sub_of hL rfl) h6 _ _)) h3
  try clear_value x1 x2
  exact State.raise_changes (sub_of hL rfl) (State.evt_changes (sub_of hL rfl) h4 _ _) _ _ _ _

theorem pchStatClr_changes {L : List Part} {s t0 : State} (hL : sub [.regs] L = true) (h0t : Changes L s t0) (a1 : Nat) :
    Changes L s (pchStatClr t0 a1) := by
  unfold pchStatClr
  exact Changes.ite (State.setF_changes (sub_of hL rfl) (State.clearRegs_changes (sub_of hL rfl) h0t _) _ _ _ _) h0t

theorem decodeErr_changes {L : List Part} {s t0 : State} (hL : sub [.regs, .bus] L = true) (h0t : Changes L s t0) (a1 : Bool) :
    Changes L s (decodeErr t0 a1) := by
  unfold decodeErr
  extract_lets -merge -useContext x0
  have h1 : Changes L s x0 := State.evt_changes (sub_of hL rfl) (State.inc32_changes (sub_of hL rfl) h0t _) _ _
  try clear_value x0
  exact Changes.ite h1 (State.answer_changes (sub_of hL rfl) h1 _)

end Sys2Proof.Machine
end

