-- ==== Sys2Proof/Laws/ChangesInCvuBook.lean ====
section
/-! SUPPORT. What each function of CvuBook.lean changes at most: one lemma for each. -/

namespace Sys2Proof.Machine

theorem setCvu_changes {L : List Part} {s t0 : State} (hL : sub [.cvu] L = true) (h0t : Changes L s t0) (a1 : Nat) (a2 : Sys2Proof.Machine.CvuSt) :
    Changes L s (setCvu t0 a1 a2) := by
  unfold setCvu
  exact Changes.set_cvu (sub_of hL rfl) h0t _

theorem setCur_changes {L : List Part} {s t0 : State} (hL : sub [.regs] L = true) (h0t : Changes L s t0) (a1 : Nat) (a2 : Nat) :
    Changes L s (setCur t0 a1 a2) := by
  unfold setCur
  exact State.setReg64_changes (sub_of hL rfl) h0t _ _ _

theorem cvuErr_changes {L : List Part} {s t0 : State} (hL : sub [.regs] L = true) (h0t : Changes L s t0) (a1 : Nat) :
    Changes L s (cvuErr t0 a1) := by
  unfold cvuErr
  exact State.evt_changes (sub_of hL rfl) (State.setBit_changes (sub_of hL rfl) h0t _ _ _) _ _

theorem setBusy_changes {L : List Part} {s t0 : State} (hL : sub [.regs] L = true) (h0t : Changes L s t0) (a1 : Nat) (a2 : Bool) :
    Changes L s (setBusy t0 a1 a2) := by
  unfold setBusy
  exact State.setBit_changes (sub_of hL rfl) h0t _ _ _

theorem cvuGo_changes {L : List Part} {s t0 : State} (hL : sub [.regs, .cvu] L = true) (h0t : Changes L s t0) (a1 : Nat) (a2 : Bool) :
    Changes L s (cvuGo t0 a1 a2) := by
  unfold cvuGo
  refine Changes.ite ?_ ?_
  · exact h0t
  · refine Changes.ite ?_ ?_
    · exact cvuErr_changes (sub_of hL rfl) h0t _
    · extract_lets -merge -useContext x0 x1
      have h2 : Changes L s x0 := State.setReg_changes (sub_of hL rfl) h0t _ _
      have h3 : Changes L s x1 := setCvu_changes (sub_of hL rfl) (setBusy_changes (sub_of hL rfl) h2 _ _) _ _
      try clear_value x0 x1
      exact Changes.ite (cvuErr_changes (sub_of hL rfl) (State.refuse_changes (sub_of hL rfl) h2 _ _ _ _) _) (Changes.ite (cvuErr_changes (sub_of hL rfl) (State.refuse_changes (sub_of hL rfl) h2 _ _ _ _) _) (Changes.ite (setCur_changes (sub_of hL rfl) h3 _ _) h3))

theorem cvuAbort_changes {L : List Part} {s t0 : State} (hL : sub [.cvu] L = true) (h0t : Changes L s t0) (a1 : Nat) :
    Changes L s (cvuAbort t0 a1) := by
  unfold cvuAbort
  exact Changes.ite (setCvu_changes (sub_of hL rfl) h0t _ _) h0t

theorem cvuScanDone_changes {L : List Part} {s t0 : State} (hL : sub [.regs, .cvu] L = true) (h0t : Changes L s t0) (a1 : Nat) :
    Changes L s (cvuScanDone t0 a1) := by
  unfold cvuScanDone
  extract_lets -merge -useContext x0 x1 x2 x3
  try clear_value x0 x1 x2
  have h4 : Changes L s x3 := State.setReg64_changes (sub_of hL rfl) (setCur_changes (sub_of hL rfl) h0t _ _) _ _ _
  try clear_value x3
  exact Changes.ite h0t (State.evt_changes (sub_of hL rfl) (State.setBit_changes (sub_of hL rfl) (setBusy_changes (sub_of hL rfl) (setCvu_changes (sub_of hL rfl) h4 _ _) _ _) _ _ _) _ _)

theorem cvuScanStopped_changes {L : List Part} {s t0 : State} (hL : sub [.regs, .cvu] L = true) (h0t : Changes L s t0) (a1 : Nat) (a2 : Nat) (a3 : Bool) :
    Changes L s (cvuScanStopped t0 a1 a2 a3) := by
  unfold cvuScanStopped
  extract_lets -merge -useContext x0 x1 x2 x3 x4 x5
  try clear_value x0 x1
  have h6 : Changes L s x2 := setCur_changes (sub_of hL rfl) h0t _ _
  have h7 : Changes L s x3 := State.setReg64_changes (sub_of hL rfl) h6 _ _ _
  have h8 : Changes L s x4 := State.setReg64_changes (sub_of hL rfl) h7 _ _ _
  have h9 : Changes L s x5 := setBusy_changes (sub_of hL rfl) (setCvu_changes (sub_of hL rfl) h8 _ _) _ _
  try clear_value x2 x3 x4 x5
  exact Changes.ite h0t (Changes.ite (cvuScanDone_changes (sub_of hL rfl) h0t _) (Changes.ite (cvuErr_changes (sub_of hL rfl) h9 _) (State.evt_changes (sub_of hL rfl) (State.setBit_changes (sub_of hL rfl) h9 _ _ _) _ _)))

theorem setLine_changes {L : List Part} {s t0 : State} (hL : sub [.book] L = true) (h0t : Changes L s t0) (a1 : Nat) (a2 : Sys2Proof.Machine.BLine) :
    Changes L s (setLine t0 a1 a2) := by
  unfold setLine
  exact Changes.set_book (sub_of hL rfl) h0t _

theorem deadLine_changes {L : List Part} {s t0 : State} (hL : sub [.regs, .book, .faults] L = true) (h0t : Changes L s t0) (a1 : Nat) :
    Changes L s (deadLine t0 a1) := by
  unfold deadLine
  exact State.raise_changes (sub_of hL rfl) (State.evt_changes (sub_of hL rfl) (Changes.set_book (sub_of hL rfl) h0t _) _ _) _ _ _ _

theorem useSpare_changes {L : List Part} {s t0 : State} (hL : sub [.book] L = true) (h0t : Changes L s t0) (a1 : Nat) (a2 : Nat) :
    Changes L s (useSpare t0 a1 a2) := by
  unfold useSpare
  exact Changes.set_book (sub_of hL rfl) h0t _

theorem countWear_changes {L : List Part} {s t0 : State} (hL : sub [.regs, .book] L = true) (h0t : Changes L s t0) (a1 : Nat) :
    Changes L s (countWear t0 a1) := by
  unfold countWear
  extract_lets -merge -useContext x0 x1
  try clear_value x0 x1
  exact State.setN_changes (sub_of hL rfl) (Changes.set_book (sub_of hL rfl) h0t _) _ _

theorem programLine_changes {L : List Part} {s t0 : State} (hL : sub [.regs, .book, .faults] L = true) (h0t : Changes L s t0) (a1 : Sys2Proof.Machine.Staged) (a2 : Bool) :
    Changes L s (programLine t0 a1 a2) := by
  unfold programLine
  extract_lets -merge -useContext x0 x1 x2
  try clear_value x0 x1
  have h3 : Changes L s x2 := countWear_changes (sub_of hL rfl) (setLine_changes (sub_of hL rfl) h0t _ _) _
  try clear_value x2
  exact Changes.ite h3 (Changes.ite (State.evt_changes (sub_of hL rfl) (countWear_changes (sub_of hL rfl) (useSpare_changes (sub_of hL rfl) (State.setF_changes (sub_of hL rfl) h3 _ _ _ _) _ _) _) _ _) (deadLine_changes (sub_of hL rfl) h3 _))

theorem bookLineProgram_changes {L : List Part} {s t0 : State} (hL : sub [.regs, .book, .faults] L = true) (h0t : Changes L s t0) (a1 : Bool) :
    Changes L s (bookLineProgram t0 a1) := by
  unfold bookLineProgram
  split
  · rename_i x0 heq1
    exact h0t
  · rename_i x2 x3 heq4
    exact programLine_changes (sub_of hL rfl) (State.bufLevel_changes (sub_of hL rfl) (Changes.set_book (sub_of hL rfl) h0t _)) _ _

theorem commitLines_changes {L : List Part} {s t0 : State} (hL : sub [.regs, .book, .faults] L = true) (h0t : Changes L s t0) :
    Changes L s (commitLines t0) := by
  unfold commitLines
  exact Changes.foldl (fun x0 _ h1 => (programLine_changes (sub_of hL rfl) h1 _ _)) (State.bufLevel_changes (sub_of hL rfl) (Changes.set_book (sub_of hL rfl) h0t _))

theorem putLine_changes {L : List Part} {s t0 : State} (hL : sub [.regs] L = true) (h0t : Changes L s t0) (a1 : Sys2Proof.Machine.BLine) :
    Changes L s (putLine t0 a1) := by
  unfold putLine
  exact State.putData_changes (sub_of hL rfl) h0t _ _ _

theorem readStat_changes {L : List Part} {s t0 : State} (hL : sub [.regs] L = true) (h0t : Changes L s t0) (a1 : Nat) :
    Changes L s (readStat t0 a1) := by
  unfold readStat
  exact State.setN_changes (sub_of hL rfl) h0t _ _

theorem readBad_changes {L : List Part} {s t0 : State} (hL : sub [.regs, .faults] L = true) (h0t : Changes L s t0) (a1 : Nat) (a2 : Sys2Proof.Word) (a3 : Sys2Proof.Machine.BLine) :
    Changes L s (readBad t0 a1 a2 a3) := by
  unfold readBad
  exact State.raise_changes (sub_of hL rfl) (State.evt_changes (sub_of hL rfl) (State.inc32_changes (sub_of hL rfl) (readStat_changes (sub_of hL rfl) (putLine_changes (sub_of hL rfl) h0t _) _) _) _ _) _ _ _ _

theorem readRepaired_changes {L : List Part} {s t0 : State} (hL : sub [.regs, .book, .faults] L = true) (h0t : Changes L s t0) (a1 : Nat) (a2 : Nat) (a3 : Sys2Proof.Word) (a4 : Sys2Proof.Machine.BLine) :
    Changes L s (readRepaired t0 a1 a2 a3 a4) := by
  unfold readRepaired
  extract_lets -merge -useContext x0 x1 x2
  try clear_value x0 x1
  have h3 : Changes L s x2 := Changes.ite h0t (State.bufLevel_changes (sub_of hL rfl) (Changes.set_book (sub_of hL rfl) h0t _))
  try clear_value x2
  exact State.raise_changes (sub_of hL rfl) (State.evt_changes (sub_of hL rfl) (State.inc32_changes (sub_of hL rfl) (readStat_changes (sub_of hL rfl) (putLine_changes (sub_of hL rfl) h3 _) _) _) _ _) _ _ _ _

theorem bookRead_changes {L : List Part} {s t0 : State} (hL : sub [.regs, .book, .faults] L = true) (h0t : Changes L s t0) :
    Changes L s (bookRead t0) := by
  unfold bookRead
  extract_lets -merge -useContext x0 x1
  try clear_value x0 x1
  refine Changes.ite ?_ ?_
  · exact h0t
  · split
    · rename_i x2 heq3
      exact readStat_changes (sub_of hL rfl) h0t _
    · rename_i x4 x5 heq6
      split
      · rename_i x7 x8 heq9
        exact readStat_changes (sub_of hL rfl) (putLine_changes (sub_of hL rfl) h0t _) _
      · rename_i x10 heq11
        extract_lets -merge -useContext x12 x13
        try clear_value x12 x13
        exact Changes.ite (readBad_changes (sub_of hL rfl) h0t _ _ _) (Changes.ite (readStat_changes (sub_of hL rfl) (putLine_changes (sub_of hL rfl) h0t _) _) (readRepaired_changes (sub_of hL rfl) h0t _ _ _ _))

theorem snapshot_changes {L : List Part} {s t0 : State} (hL : sub [.regs, .book] L = true) (h0t : Changes L s t0) :
    Changes L s (snapshot t0) := by
  unfold snapshot
  refine Changes.ite ?_ ?_
  · exact h0t
  · extract_lets -merge -useContext x0 x1
    try clear_value x0
    have h2 : Changes L s x1 := Changes.foldl (fun x3 _ h4 => (State.stageLine_changes (sub_of hL rfl) h4 _ _ _ _ _)) h0t
    try clear_value x1
    exact State.evt_changes (sub_of hL rfl) (State.stageLine_changes (sub_of hL rfl) h2 _ _ _ _ _) _ _

theorem snapWrite_changes {L : List Part} {s t0 : State} (hL : sub [.regs, .book] L = true) (h0t : Changes L s t0) :
    Changes L s (snapWrite t0) := by
  unfold snapWrite
  exact Changes.ite (snapshot_changes (sub_of hL rfl) h0t) h0t

theorem recordClose_changes {L : List Part} {s t0 : State} (hL : sub [.regs, .chans, .book] L = true) (h0t : Changes L s t0) (a1 : Nat) :
    Changes L s (recordClose t0 a1) := by
  unfold recordClose
  extract_lets -merge -useContext x0
  try clear_value x0
  exact Changes.ite (State.closeAir_changes (sub_of hL rfl) h0t _ _) h0t

end Sys2Proof.Machine
end

