-- ==== Sys2Proof/Laws/ChangesInActions.lean ====
section
/-! SUPPORT. What each function of Actions.lean changes at most: one lemma for each. -/

namespace Sys2Proof.Machine

theorem pageCommit_changes {L : List Part} {s t0 : State} (hL : sub [.regs, .chans, .etm, .hbm, .mem] L = true) (h0t : Changes L s t0) (a1 : Sys2Proof.Machine.PageRef) :
    Changes L s (pageCommit t0 a1) := by
  unfold pageCommit
  split
  · rename_i x0 heq1
    exact chcompCommit_changes (sub_of hL rfl) h0t _
  · rename_i x2 heq3
    exact monCommit_changes (sub_of hL rfl) h0t
  · rename_i x4 heq5
    exact eportCommit_changes (sub_of hL rfl) h0t _
  · rename_i x6 heq7
    exact hbmLayoutCommit_changes (sub_of hL rfl) h0t
  · rename_i x8 heq9 heq10 heq11 heq12
    exact h0t

theorem commitIndex_changes {L : List Part} {s t0 : State} (hL : sub [.regs, .chans, .etm, .hbm, .mem] L = true) (h0t : Changes L s t0) (a1 : Nat) :
    Changes L s (commitIndex t0 a1) := by
  unfold commitIndex
  split
  · rename_i x0 x1 heq2
    exact pageCommit_changes (sub_of hL rfl) h0t _
  · rename_i x3 heq4
    exact h0t

theorem pulse_changes {L : List Part} {s t0 : State} (hL : sub [.stp] L = true) (h0t : Changes L s t0) (a1 : Nat) :
    Changes L s (pulse t0 a1) := by
  unfold pulse
  extract_lets -merge -useContext x0 x1
  try clear_value x0 x1
  exact Changes.set_stp (sub_of hL rfl) h0t _

theorem actIrq_changes {L : List Part} {s t0 : State} (hL : sub [.regs, .pins, .rv] L = true) (h0t : Changes L s t0) (a1 : Nat) :
    Changes L s (actIrq t0 a1) := by
  unfold actIrq
  exact State.updateLines_changes (sub_of hL rfl) (Changes.ite (State.assertEdge_changes (sub_of hL rfl) h0t _) (State.fireBinding_changes (sub_of hL rfl) h0t _))

theorem fireEffects_changes {L : List Part} {s t0 : State} (hL : sub [.regs, .pins, .stp, .chans, .etm, .rv, .hbm, .mem] L = true) (h0t : Changes L s t0) (a1 : Nat) :
    Changes L s (fireEffects t0 a1) := by
  unfold fireEffects
  extract_lets -merge -useContext x0 x1 x2 x3
  try clear_value x0
  have h4 : Changes L s x1 := Changes.ite (pulse_changes (sub_of hL rfl) h0t _) h0t
  have h5 : Changes L s x2 := Changes.ite (actIrq_changes (sub_of hL rfl) h4 _) h4
  have h6 : Changes L s x3 := Changes.ite (State.vecReq_changes (sub_of hL rfl) h5 _) h5
  try clear_value x1 x2 x3
  exact Changes.ite (commitIndex_changes (sub_of hL rfl) h6 _) h6

theorem actionFire_changes {L : List Part} {s t0 : State} (hL : sub [.regs, .pins, .stp, .chans, .etm, .rv, .hbm, .mem] L = true) (h0t : Changes L s t0) (a1 : Nat) :
    Changes L s (actionFire t0 a1) := by
  unfold actionFire
  refine Changes.ite ?_ ?_
  · exact h0t
  · extract_lets -merge -useContext x0 x1
    try clear_value x0
    have h2 : Changes L s x1 := fireEffects_changes (sub_of hL rfl) (State.toPos_changes (sub_of hL rfl) h0t _) _
    try clear_value x1
    exact Changes.ite (disarm_changes (sub_of hL rfl) h2 _) (setActNext_changes (sub_of hL rfl) h2 _ _)

theorem stepSlot_changes {L : List Part} {s t0 : State} (hL : sub [.regs, .pins, .stp, .chans, .etm, .rv, .hbm, .mem] L = true) (h0t : Changes L s t0) (a1 : Nat) :
    Changes L s (stepSlot t0 a1) := by
  unfold stepSlot
  extract_lets -merge -useContext x0 x1 x2
  try clear_value x0 x1 x2
  exact Changes.ite h0t (Changes.ite (disarm_changes (sub_of hL rfl) (State.setBit_changes (sub_of hL rfl) (fireEffects_changes (sub_of hL rfl) h0t _) _ _ _) _) (skipPoints_changes (sub_of hL rfl) (setActNext_changes (sub_of hL rfl) h0t _ _) _ _))

theorem stepChan_changes {L : List Part} {s t0 : State} (hL : sub [.regs, .chans, .eng, .hbm, .mem, .faults, .twin, .sent] L = true) (h0t : Changes L s t0) (a1 : Nat) :
    Changes L s (stepChan t0 a1) := by
  unfold stepChan
  extract_lets -merge -useContext x0
  have h1 : Changes L s x0 := State.modChan_changes (sub_of hL rfl) h0t _ _
  try clear_value x0
  exact stepCommit_changes (sub_of hL rfl) (passSlices_changes (sub_of hL rfl) h1 _) _

theorem applyStep_changes {L : List Part} {s t0 : State} (hL : sub [.regs, .pins, .stp, .chans, .eng, .etm, .ptp, .mon, .rv, .hbm, .mem, .faults, .twin, .sent] L = true) (h0t : Changes L s t0) (a1 : Int) :
    Changes L s (applyStep t0 a1) := by
  unfold applyStep
  extract_lets -merge -useContext x0 x1 x2 x3 x4 x5 x6 x7 x8
  try clear_value x0 x1 x5
  have h9 : Changes L s x2 := State.setPos_changes (sub_of hL rfl) h0t _
  have h10 : Changes L s x3 := keepGmTime_changes (sub_of hL rfl) (State.setPtpMap_changes (sub_of hL rfl) h9 _) _
  have h11 : Changes L s x4 := State.setBit_changes (sub_of hL rfl) h10 _ _ _
  have h12 : Changes L s x6 := Changes.set_stp (sub_of hL rfl) h11 _
  have h13 : Changes L s x7 := by
    unfold x7
    refine Changes.foldl (fun x14 _ h15 => ?_) ?_
    · exact stepSlot_changes (sub_of hL rfl) h15 _
    · exact h12
  have h16 : Changes L s x8 := Changes.foldl (fun x17 _ h18 => (stepChan_changes (sub_of hL rfl) h18 _)) h13
  try clear_value x2 x3 x4 x6 x7 x8
  exact State.raise_changes (sub_of hL rfl) (monStep_changes (sub_of hL rfl) h16) _ _ _ _

theorem steepleStep_changes {L : List Part} {s t0 : State} (hL : sub [.regs, .pins, .stp, .chans, .eng, .etm, .ptp, .mon, .rv, .hbm, .mem, .faults, .twin, .sent] L = true) (h0t : Changes L s t0) :
    Changes L s (steepleStep t0) := by
  unfold steepleStep
  split
  · rename_i x0 x1 heq2
    exact Changes.ite (applyStep_changes (sub_of hL rfl) (State.toFrameStart_changes (sub_of hL rfl) h0t) _) h0t
  · rename_i x3 heq4
    exact h0t

end Sys2Proof.Machine
end

