-- ==== Sys2Proof/Laws/ChangesInWatch.lean ====
section
/-! SUPPORT. What each function of Watch.lean changes at most: one lemma for each. -/

namespace Sys2Proof.Machine

theorem journal_changes {L : List Part} {s t0 : State} (hL : sub [.regs, .book] L = true) (h0t : Changes L s t0) (a1 : Sys2Proof.Machine.FaultRec) (a2 : Nat) :
    Changes L s (journal t0 a1 a2) := by
  unfold journal
  extract_lets -merge -useContext x0 x1 x2 x3 x4 x5
  try clear_value x0 x1 x3 x5
  have h6 : Changes L s x2 := State.evt_changes (sub_of hL rfl) (State.inc32_changes (sub_of hL rfl) h0t _) _ _
  have h7 : Changes L s x4 := State.stageLine_changes (sub_of hL rfl) h0t _ _ _ _ _
  try clear_value x2 x4
  exact Changes.ite h0t (Changes.ite (Changes.set_book (sub_of hL rfl) h0t _) (Changes.ite (Changes.set_book (sub_of hL rfl) h6 _) (Changes.set_book (sub_of hL rfl) h7 _)))

theorem faultSummary_changes {L : List Part} {s t0 : State} (hL : sub [.regs, .book] L = true) (h0t : Changes L s t0) :
    Changes L s (faultSummary t0) := by
  unfold faultSummary
  extract_lets -merge -useContext x0 x1 x2
  try clear_value x0 x1
  have h3 : Changes L s x2 := Changes.set_book (sub_of hL rfl) h0t _
  try clear_value x2
  exact Changes.ite h3 (State.stageLine_changes (sub_of hL rfl) h3 _ _ _ _ _)

theorem bootParity_changes {L : List Part} {s t0 : State} (hL : sub [.regs, .boot] L = true) (h0t : Changes L s t0) :
    Changes L s (bootParity t0) := by
  unfold bootParity
  extract_lets -merge -useContext x0 x1
  try clear_value x0
  have h2 : Changes L s x1 := Changes.set_boot (sub_of hL rfl) h0t _
  try clear_value x1
  exact Changes.ite (State.setReg_changes (sub_of hL rfl) (State.setBit_changes (sub_of hL rfl) h2 _ _ _) _ _) (State.setF_changes (sub_of hL rfl) (State.setF_changes (sub_of hL rfl) h2 _ _ _ _) _ _ _ _)

theorem faultEffect_changes {L : List Part} {s t0 : State} (hL : sub [.regs, .boot] L = true) (h0t : Changes L s t0) (a1 : Sys2Proof.Machine.FaultRec) :
    Changes L s (faultEffect t0 a1) := by
  unfold faultEffect
  extract_lets -merge -useContext x0
  have h1 : Changes L s x0 := by
    unfold x0
    split
    · rename_i x2 x3 heq4
      exact State.setCause_changes (sub_of hL rfl) (State.unitDegraded_changes (sub_of hL rfl) h0t _ _) _
    · rename_i x5 heq6
      exact h0t
  try clear_value x0
  split
  · rename_i x7 x8 heq9
    exact Changes.ite (bootParity_changes (sub_of hL rfl) h1) (State.recoverReq_changes (sub_of hL rfl) h1 _)
  · rename_i x10 heq11
    exact h1

theorem logFault_changes {L : List Part} {s t0 : State} (hL : sub [.regs, .book, .boot] L = true) (h0t : Changes L s t0) (a1 : Sys2Proof.Machine.FaultRec) :
    Changes L s (logFault t0 a1) := by
  unfold logFault
  extract_lets -merge -useContext x0 x1 x2 x3
  try clear_value x0
  have h4 : Changes L s x1 := State.setN_changes (sub_of hL rfl) (State.setN_changes (sub_of hL rfl) h0t _ _) _ _
  have h5 : Changes L s x2 := State.inc32_changes (sub_of hL rfl) (State.setN_changes (sub_of hL rfl) h4 _ _) _
  have h6 : Changes L s x3 := State.setBit_changes (sub_of hL rfl) (State.setN_changes (sub_of hL rfl) h5 _ _) _ _ _
  try clear_value x1 x2 x3
  exact State.evt_changes (sub_of hL rfl) (journal_changes (sub_of hL rfl) (faultEffect_changes (sub_of hL rfl) h6 _) _ _) _ _

theorem faultLog_changes {L : List Part} {s t0 : State} (hL : sub [.regs, .book, .faults, .boot] L = true) (h0t : Changes L s t0) :
    Changes L s (faultLog t0) := by
  unfold faultLog
  split
  · rename_i x0 heq1
    exact h0t
  · rename_i x2 x3 heq4
    exact logFault_changes (sub_of hL rfl) (Changes.set_faults (sub_of hL rfl) h0t _) _

theorem watchStart_changes {L : List Part} {s t0 : State} (hL : sub [.regs, .stp] L = true) (h0t : Changes L s t0) :
    Changes L s (watchStart t0) := by
  unfold watchStart
  extract_lets -merge -useContext x0
  have h1 : Changes L s x0 := State.toFrameStart_changes (sub_of hL rfl) h0t
  try clear_value x0
  exact Changes.ite (State.enterFrame_changes (sub_of hL rfl) h1 _ _) h1

theorem settleCauses_changes {L : List Part} {s t0 : State} (hL : sub [.regs] L = true) (h0t : Changes L s t0) :
    Changes L s (settleCauses t0) := by
  unfold settleCauses
  extract_lets -merge -useContext x0 x1 x2
  have h3 : Changes L s x0 := settlePaths_changes (sub_of hL rfl) (settleClp_changes (sub_of hL rfl) (State.sparesCause_changes (sub_of hL rfl) h0t))
  have h4 : Changes L s x1 := Changes.ite (State.clearCause_changes (sub_of hL rfl) h3 _) h3
  have h5 : Changes L s x2 := Changes.ite (State.clearCause_changes (sub_of hL rfl) h4 _) h4
  try clear_value x0 x1 x2
  exact Changes.ite h5 (State.clearCause_changes (sub_of hL rfl) h5 _)

theorem enterService_changes {L : List Part} {s t0 : State} (hL : sub [.regs, .book] L = true) (h0t : Changes L s t0) (a1 : Bool) :
    Changes L s (enterService t0 a1) := by
  unfold enterService
  extract_lets -merge -useContext x0
  have h1 : Changes L s x0 := State.setMode_changes (sub_of hL rfl) h0t _
  try clear_value x0
  exact snapshot_changes (sub_of hL rfl) (Changes.ite (State.evt_changes (sub_of hL rfl) h1 _ _) h1)

theorem serviceReentry_changes {L : List Part} {s t0 : State} (hL : sub [.regs, .stp, .book] L = true) (h0t : Changes L s t0) :
    Changes L s (serviceReentry t0) := by
  unfold serviceReentry
  refine Changes.ite ?_ ?_
  · exact h0t
  · extract_lets -merge -useContext x0
    have h1 : Changes L s x0 := settleCauses_changes (sub_of hL rfl) (watchStart_changes (sub_of hL rfl) h0t)
    try clear_value x0
    exact Changes.ite (enterService_changes (sub_of hL rfl) h1 _) h1

theorem reinitReeve_changes {L : List Part} {s t0 : State} (hL : sub [.regs, .rv] L = true) (h0t : Changes L s t0) :
    Changes L s (reinitReeve t0) := by
  unfold reinitReeve
  extract_lets -merge -useContext x0 x1
  try clear_value x1
  have h2 : Changes L s x0 := Changes.foldl (fun x3 _ h4 => (State.setPair_changes (sub_of hL rfl) h4 _ _)) h0t
  try clear_value x0
  exact State.offer_changes (sub_of hL rfl) (Changes.foldl (fun x5 _ h6 => (State.newReadiness_changes (sub_of hL rfl) h6 _ _)) h2)

theorem reinitSource_changes {L : List Part} {s t0 : State} (hL : sub [.regs] L = true) (h0t : Changes L s t0) (a1 : Nat) :
    Changes L s (reinitSource t0 a1) := by
  unfold reinitSource
  extract_lets -merge -useContext x0
  have h1 : Changes L s x0 := State.setActive_changes (sub_of hL rfl) h0t _ _
  try clear_value x0
  exact Changes.ite h1 (Changes.ite (Changes.ite (State.setPending_changes (sub_of hL rfl) h1 _ _) h1) (State.setPending_changes (sub_of hL rfl) h1 _ _))

theorem reinitBelfry_changes {L : List Part} {s t0 : State} (hL : sub [.regs, .pins, .rv, .bf] L = true) (h0t : Changes L s t0) :
    Changes L s (reinitBelfry t0) := by
  unfold reinitBelfry
  refine State.updateLines_changes (sub_of hL rfl) ?_
  refine Changes.foldl (fun x0 _ h1 => ?_) ?_
  · exact reinitSource_changes (sub_of hL rfl) h1 _
  · exact Changes.set_bf (sub_of hL rfl) h0t _

theorem reinitBlocks_changes {L : List Part} {s t0 : State} (hL : sub [.regs, .pins, .rv, .bf, .hbm] L = true) (h0t : Changes L s t0) :
    Changes L s (reinitBlocks t0) := by
  unfold reinitBlocks
  extract_lets -merge -useContext x0 x1 x2
  have h3 : Changes L s x0 := Changes.ite (reinitReeve_changes (sub_of hL rfl) h0t) h0t
  have h4 : Changes L s x1 := Changes.ite (reinitBelfry_changes (sub_of hL rfl) h3) h3
  have h5 : Changes L s x2 := Changes.ite (resetMatrix_changes (sub_of hL rfl) h4) h4
  try clear_value x0 x1 x2
  exact Changes.foldl (fun x6 _ h7 => (State.setBit_changes (sub_of hL rfl) h7 _ _ _)) h5

theorem serveRequests_changes {L : List Part} {s t0 : State} (hL : sub [.regs, .pins, .rv, .bf, .hbm] L = true) (h0t : Changes L s t0) :
    Changes L s (serveRequests t0) := by
  unfold serveRequests
  exact nextRetrain_changes (sub_of hL rfl) (reinitBlocks_changes (sub_of hL rfl) h0t)

theorem enterRecovery_changes {L : List Part} {s t0 : State} (hL : sub [.regs, .chans] L = true) (h0t : Changes L s t0) :
    Changes L s (enterRecovery t0) := by
  unfold enterRecovery
  extract_lets -merge -useContext x0
  have h1 : Changes L s x0 := State.evt_changes (sub_of hL rfl) (State.setMode_changes (sub_of hL rfl) h0t _) _ _
  try clear_value x0
  exact Changes.foldl (fun x2 _ h3 => (State.modChan_changes (sub_of hL rfl) h3 _ _)) h1

theorem recoveryEntry_changes {L : List Part} {s t0 : State} (hL : sub [.regs, .pins, .stp, .chans, .rv, .bf, .hbm] L = true) (h0t : Changes L s t0) :
    Changes L s (recoveryEntry t0) := by
  unfold recoveryEntry
  exact Changes.ite h0t (Changes.ite (serveRequests_changes (sub_of hL rfl) (enterRecovery_changes (sub_of hL rfl) (watchStart_changes (sub_of hL rfl) h0t))) (Changes.ite h0t (serveRequests_changes (sub_of hL rfl) h0t)))

theorem recoveryExit_changes {L : List Part} {s t0 : State} (hL : sub [.regs, .book, .twin, .sent] L = true) (h0t : Changes L s t0) :
    Changes L s (recoveryExit t0) := by
  unfold recoveryExit
  exact Changes.ite (State.requestResync_changes (sub_of hL rfl) (Changes.ite (enterService_changes (sub_of hL rfl) h0t _) (State.evt_changes (sub_of hL rfl) (State.setMode_changes (sub_of hL rfl) h0t _) _ _)) _) h0t

theorem watchStatClr_changes {L : List Part} {s t0 : State} (hL : sub [.regs] L = true) (h0t : Changes L s t0) :
    Changes L s (watchStatClr t0) := by
  unfold watchStatClr
  exact Changes.ite (State.clearRegs_changes (sub_of hL rfl) h0t _) h0t

theorem testFailed_changes {L : List Part} {s t0 : State} (hL : sub [.regs] L = true) (h0t : Changes L s t0) :
    Changes L s (testFailed t0) := by
  unfold testFailed
  exact State.evt_changes (sub_of hL rfl) (State.inc32_changes (sub_of hL rfl) h0t _) _ _

theorem testOver_changes {L : List Part} {s t0 : State} (hL : sub [.eng] L = true) (h0t : Changes L s t0) (a1 : Nat) :
    Changes L s (testOver t0 a1) := by
  unfold testOver
  exact Changes.ite h0t (Changes.set_eng (sub_of hL rfl) h0t _)

theorem loanTestComplete_changes {L : List Part} {s t0 : State} (hL : sub [.regs, .chans, .eng, .faults] L = true) (h0t : Changes L s t0) (a1 : Nat) :
    Changes L s (loanTestComplete t0 a1) := by
  unfold loanTestComplete
  split
  · rename_i x0 heq1
    exact h0t
  · rename_i x2 x3 heq4
    refine Changes.ite ?_ ?_
    · exact h0t
    · extract_lets -merge -useContext x5 x6
      try clear_value x6
      have h7 : Changes L s x5 := State.inc32_changes (sub_of hL rfl) h0t _
      try clear_value x5
      exact Changes.ite (Changes.set_eng (sub_of hL rfl) h7 _) (State.failEngine_changes (sub_of hL rfl) (State.raise_changes (sub_of hL rfl) (testFailed_changes (sub_of hL rfl) (State.inc32_changes (sub_of hL rfl) h7 _)) _ _ _ _) _)

theorem plotMarchTest_changes {L : List Part} {s t0 : State} (hL : sub [.regs, .chans, .eng, .mill, .faults] L = true) (h0t : Changes L s t0) (a1 : Nat) (a2 : Bool) :
    Changes L s (plotMarchTest t0 a1 a2) := by
  unfold plotMarchTest
  refine Changes.ite ?_ ?_
  · extract_lets -merge -useContext x0
    have h1 : Changes L s x0 := State.inc32_changes (sub_of hL rfl) (testOver_changes (sub_of hL rfl) h0t _) _
    try clear_value x0
    exact Changes.ite h1 (plotFaulty_changes (sub_of hL rfl) (testFailed_changes (sub_of hL rfl) h1) _)
  · exact h0t

theorem scrubOn_changes {L : List Part} {s t0 : State} (hL : sub [.regs, .eng] L = true) (h0t : Changes L s t0) :
    Changes L s (scrubOn t0) := by
  unfold scrubOn
  refine Changes.ite ?_ ?_
  · extract_lets -merge -useContext x0 x1
    try clear_value x0
    have h2 : Changes L s x1 := Changes.set_eng (sub_of hL rfl) h0t _
    try clear_value x1
    exact State.setN_changes (sub_of hL rfl) h2 _ _
  · extract_lets -merge -useContext x3 x4
    try clear_value x3
    have h5 : Changes L s x4 := Changes.set_eng (sub_of hL rfl) h0t _
    try clear_value x4
    exact State.evt_changes (sub_of hL rfl) (State.inc32_changes (sub_of hL rfl) (State.setReg_changes (sub_of hL rfl) h5 _ _) _) _ _

theorem patrolScrub_changes {L : List Part} {s t0 : State} (hL : sub [.regs, .eng, .hbm, .faults] L = true) (h0t : Changes L s t0) (a1 : Sys2Proof.ReadErr) :
    Changes L s (patrolScrub t0 a1) := by
  unfold patrolScrub
  refine Changes.ite ?_ ?_
  · exact h0t
  · extract_lets -merge -useContext x0 x1
    try clear_value x0
    have h2 : Changes L s x1 := scrubOn_changes (sub_of hL rfl) (testOver_changes (sub_of hL rfl) h0t _)
    try clear_value x1
    split
    · rename_i x3 heq4
      exact h2
    · rename_i x5 x6 heq7
      split
      · rename_i x8
        exact h2
      · rename_i x9
        exact h2
      · rename_i x10
        exact noteCorr_changes (sub_of hL rfl) h2 _
      · rename_i x11
        exact testFailed_changes (sub_of hL rfl) (noteUncorr_changes (sub_of hL rfl) h2 _ _)

theorem matrixPathTest_changes {L : List Part} {s t0 : State} (hL : sub [.regs, .eng, .faults] L = true) (h0t : Changes L s t0) (a1 : Bool) :
    Changes L s (matrixPathTest t0 a1) := by
  unfold matrixPathTest
  refine Changes.ite ?_ ?_
  · extract_lets -merge -useContext x0 x1 x2 x3
    try clear_value x0 x1
    have h4 : Changes L s x2 := testOver_changes (sub_of hL rfl) (Changes.set_eng (sub_of hL rfl) h0t _) _
    have h5 : Changes L s x3 := State.inc32_changes (sub_of hL rfl) h4 _
    try clear_value x2 x3
    exact Changes.ite h5 (State.raise_changes (sub_of hL rfl) (testFailed_changes (sub_of hL rfl) h5) _ _ _ _)
  · exact h0t

theorem lanePrbsTest_changes {L : List Part} {s t0 : State} (hL : sub [.regs, .eng, .faults] L = true) (h0t : Changes L s t0) (a1 : Nat) (a2 : Nat) (a3 : Bool) :
    Changes L s (lanePrbsTest t0 a1 a2 a3) := by
  unfold lanePrbsTest
  refine Changes.ite ?_ ?_
  · extract_lets -merge -useContext x0
    have h1 : Changes L s x0 := State.inc32_changes (sub_of hL rfl) (testOver_changes (sub_of hL rfl) h0t _) _
    try clear_value x0
    exact Changes.ite h1 (State.raise_changes (sub_of hL rfl) (State.evt_changes (sub_of hL rfl) (setLaneFailed_changes (sub_of hL rfl) (setLaneSt_changes (sub_of hL rfl) (testFailed_changes (sub_of hL rfl) h1) _ _ _) _ _ _) _ _) _ _ _ _)
  · exact h0t

theorem sextonEnableWrite_changes {L : List Part} {s t0 : State} (hL : sub [.regs, .eng] L = true) (h0t : Changes L s t0) (a1 : Bool) :
    Changes L s (sextonEnableWrite t0 a1) := by
  unfold sextonEnableWrite
  refine Changes.ite ?_ ?_
  · exact h0t
  · extract_lets -merge -useContext x0 x1
    try clear_value x0
    have h2 : Changes L s x1 := Changes.ite (Changes.set_eng (sub_of hL rfl) h0t _) h0t
    try clear_value x1
    exact State.guarantee_changes (sub_of hL rfl) (State.setBit_changes (sub_of hL rfl) h2 _ _ _)

theorem sextonStatClr_changes {L : List Part} {s t0 : State} (hL : sub [.regs] L = true) (h0t : Changes L s t0) :
    Changes L s (sextonStatClr t0) := by
  unfold sextonStatClr
  exact Changes.ite (State.clearRegs_changes (sub_of hL rfl) h0t _) h0t

end Sys2Proof.Machine
end

