-- ==== Sys2Proof/Laws/ChangesInTwin.lean ====
section
/-! SUPPORT. What each function of Twin.lean changes at most: one lemma for each. -/

namespace Sys2Proof.Machine

theorem setComparing_changes {L : List Part} {s t0 : State} (hL : sub [.regs] L = true) (h0t : Changes L s t0) :
    Changes L s (setComparing t0) := by
  unfold setComparing
  exact State.setBit_changes (sub_of hL rfl) h0t _ _ _

theorem takeRole_changes {L : List Part} {s t0 : State} (hL : sub [.regs, .faults] L = true) (h0t : Changes L s t0) :
    Changes L s (takeRole t0) := by
  unfold takeRole
  exact State.raise_changes (sub_of hL rfl) (State.evt_changes (sub_of hL rfl) (State.setBit_changes (sub_of hL rfl) h0t _ _ _) _ _) _ _ _ _

theorem takeOverRole_changes {L : List Part} {s t0 : State} (hL : sub [.regs, .pins, .aud, .faults, .twin] L = true) (h0t : Changes L s t0) :
    Changes L s (takeOverRole t0) := by
  unfold takeOverRole
  extract_lets -merge -useContext x0 x1 x2 x3 x4
  try clear_value x1 x2 x3 x4
  have h5 : Changes L s x0 := takeRole_changes (sub_of hL rfl) h0t
  try clear_value x0
  exact Changes.upd [.pins, .aud, .twin] (sub_of hL rfl) h5 rfl rfl rfl rfl (Nat.le_refl _) (fun p hp => by cases p <;> first | rfl | exact ⟨rfl, rfl⟩ | exact absurd (by decide) hp)

theorem dropRole_changes {L : List Part} {s t0 : State} (hL : sub [.regs] L = true) (h0t : Changes L s t0) :
    Changes L s (dropRole t0) := by
  unfold dropRole
  exact State.evt_changes (sub_of hL rfl) (State.setBit_changes (sub_of hL rfl) h0t _ _ _) _ _

theorem stileEnable_changes {L : List Part} {s t0 : State} (hL : sub [.regs, .etm, .twin] L = true) (h0t : Changes L s t0) :
    Changes L s (stileEnable t0) := by
  unfold stileEnable
  refine Changes.ite ?_ ?_
  · exact h0t
  · split
    · rename_i x0 x1 x2 heq3
      exact State.failCheck_changes (sub_of hL rfl) h0t _ _ _ _
    · rename_i x4 heq5
      extract_lets -merge -useContext x6 x7
      have h8 : Changes L s x6 := State.setN_changes (sub_of hL rfl) (State.activate_changes (sub_of hL rfl) h0t _) _ _
      have h9 : Changes L s x7 := Changes.set_twin (sub_of hL rfl) h8 _
      try clear_value x6 x7
      exact withdrawPath_changes (sub_of hL rfl) (State.evt_changes (sub_of hL rfl) h9 _ _) _

theorem stileDisable_changes {L : List Part} {s t0 : State} (hL : sub [.regs, .etm, .twin] L = true) (h0t : Changes L s t0) :
    Changes L s (stileDisable t0) := by
  unfold stileDisable
  refine Changes.ite ?_ ?_
  · exact h0t
  · refine Changes.ite ?_ ?_
    · exact State.refuse_changes (sub_of hL rfl) h0t _ _ _ _
    · extract_lets -merge -useContext x0 x1
      have h2 : Changes L s x0 := State.setReg_changes (sub_of hL rfl) (State.deactivate_changes (sub_of hL rfl) h0t _) _ _
      have h3 : Changes L s x1 := Changes.set_twin (sub_of hL rfl) h2 _
      try clear_value x0 x1
      exact State.guarantee_changes (sub_of hL rfl) (restorePath_changes (sub_of hL rfl) (restorePath_changes (sub_of hL rfl) h3 _) _)

theorem hello_changes {L : List Part} {s t0 : State} (hL : sub [.regs, .twin] L = true) (h0t : Changes L s t0) (a1 : Sys2Proof.HelloMsg) :
    Changes L s (hello t0 a1) := by
  unfold hello
  refine Changes.ite ?_ ?_
  · exact h0t
  · extract_lets -merge -useContext x0 x1
    try clear_value x1
    have hf0 : ∀ y2, Changes L s y2 → Changes L s (x0 y2) := by
      intro y2 h3
      unfold x0
      exact Changes.set_twin (sub_of hL rfl) h3 _
    try clear_value x0
    exact Changes.ite (hf0 _ (State.refuse_changes (sub_of hL rfl) h0t _ _ _ _)) (Changes.ite (hf0 _ (State.refuse_changes (sub_of hL rfl) h0t _ _ _ _)) (Changes.set_twin (sub_of hL rfl) h0t _))

theorem helloSend_changes {L : List Part} {s t0 : State} (hL : sub [.twin, .sent] L = true) (h0t : Changes L s t0) :
    Changes L s (helloSend t0) := by
  unfold helloSend
  refine Changes.ite ?_ ?_
  · exact h0t
  · extract_lets -merge -useContext x0 x1 x2
    try clear_value x0 x1 x2
    exact Changes.upd [.twin, .sent] (sub_of hL rfl) h0t rfl rfl rfl rfl (Nat.le_refl _) (fun p hp => by cases p <;> first | rfl | exact ⟨rfl, rfl⟩ | exact absurd (by decide) hp)

theorem moveThreads_changes {L : List Part} {s t0 : State} (hL : sub [.rv] L = true) (h0t : Changes L s t0) (a1 : BitVec 32) :
    Changes L s (moveThreads t0 a1) := by
  unfold moveThreads
  exact Changes.set_rv (sub_of hL rfl) h0t _

theorem movePositions_changes {L : List Part} {s t0 : State} (hL : sub [.stp, .mill, .clp, .ing, .etm, .ptp, .aud, .mon, .twin, .boot] L = true) (h0t : Changes L s t0) (a1 : BitVec 32) :
    Changes L s (movePositions t0 a1) := by
  unfold movePositions
  extract_lets -merge -useContext x0 x1 x2 x3 x4 x5 x6 x7 x8 x9 x10 x11 x12
  try clear_value x0 x1 x2 x3 x4 x5 x6 x7 x8 x9 x10 x11 x12
  exact Changes.upd [.stp, .mill, .clp, .ing, .etm, .ptp, .aud, .mon, .twin, .boot] (sub_of hL rfl) h0t rfl rfl rfl rfl (Nat.le_refl _) (fun p hp => by cases p <;> first | rfl | exact ⟨rfl, rfl⟩ | exact absurd (by decide) hp)

theorem moveFails_changes {L : List Part} {s t0 : State} (hL : sub [.hbm] L = true) (h0t : Changes L s t0) (a1 : BitVec 32) :
    Changes L s (moveFails t0 a1) := by
  unfold moveFails
  exact Changes.upd [.hbm] (sub_of hL rfl) h0t rfl rfl rfl rfl (Nat.le_refl _) (fun p hp => by cases p <;> first | rfl | exact ⟨rfl, rfl⟩ | exact absurd (by decide) hp)

theorem renumber_changes {L : List Part} {s t0 : State} (hL : sub [.regs, .stp, .mill, .clp, .ing, .etm, .ptp, .aud, .mon, .rv, .hbm, .twin, .boot] L = true) (h0t : Changes L s t0) (a1 : BitVec 32) :
    Changes L s (renumber t0 a1) := by
  unfold renumber
  extract_lets -merge -useContext x0 x1 x2
  try clear_value x0
  have h3 : Changes L s x1 := moveThreads_changes (sub_of hL rfl) (moveFails_changes (sub_of hL rfl) (movePositions_changes (sub_of hL rfl) h0t _) _) _
  have h4 : Changes L s x2 := State.setPtpMap_changes (sub_of hL rfl) h3 _
  try clear_value x1 x2
  exact Changes.foldl (fun x5 _ h6 => (Changes.ite (disarm_changes (sub_of hL rfl) h6 _) h6)) (State.setPos_changes (sub_of hL rfl) h4 _)

theorem stepIn_changes {L : List Part} {s t0 : State} (hL : sub [.regs, .stp, .mill, .clp, .ing, .etm, .ptp, .aud, .mon, .rv, .hbm, .faults, .twin, .boot] L = true) (h0t : Changes L s t0) :
    Changes L s (stepIn t0) := by
  unfold stepIn
  split
  · rename_i x0 heq1
    exact h0t
  · rename_i x2 x3 heq4
    refine Changes.ite ?_ ?_
    · exact h0t
    · extract_lets -merge -useContext x5 x6 x7
      try clear_value x7
      have h8 : Changes L s x5 := Changes.ite (renumber_changes (sub_of hL rfl) (State.toFrameStart_changes (sub_of hL rfl) h0t) _) (takeRole_changes (sub_of hL rfl) (State.toPos_changes (sub_of hL rfl) h0t _))
      have h9 : Changes L s x6 := State.evt_changes (sub_of hL rfl) (State.setF_changes (sub_of hL rfl) h8 _ _ _ _) _ _
      try clear_value x5 x6
      exact withdrawPath_changes (sub_of hL rfl) (State.guarantee_changes (sub_of hL rfl) (setComparing_changes (sub_of hL rfl) (Changes.set_twin (sub_of hL rfl) h9 _))) _

theorem heartbeatMsg_changes {L : List Part} {s t0 : State} (hL : sub [] L = true) (h0t : Changes L s t0) :
    Changes L s (heartbeatMsg t0).2 := by
  unfold heartbeatMsg
  split
  rename_i x0 x1 x2 heq3
  have h4 : Changes L s x2 := by
    rw [show x2 = (_, x2).2 from rfl, ← heq3]
    exact State.draw_changes h0t
  extract_lets -merge -useContext x5
  try clear_value x5
  exact h4

theorem toLine64_changes {L : List Part} {s t0 : State} (hL : sub [.regs, .stp] L = true) (h0t : Changes L s t0) :
    Changes L s (toLine64 t0) := by
  unfold toLine64
  refine Changes.ite ?_ ?_
  · exact h0t
  · extract_lets -merge -useContext x0
    try clear_value x0
    exact Changes.ite (State.setPos_changes (sub_of hL rfl) h0t _) (State.enterFrame_changes (sub_of hL rfl) h0t _ _)

theorem heartbeatSend_changes {L : List Part} {s t0 : State} (hL : sub [.regs, .stp, .sent] L = true) (h0t : Changes L s t0) :
    Changes L s (heartbeatSend t0) := by
  unfold heartbeatSend
  refine Changes.ite ?_ ?_
  · exact h0t
  · split
    rename_i x0 x1 x2 heq3
    have h4 : Changes L s x2 := by
      rw [show x2 = (_, x2).2 from rfl, ← heq3]
      exact heartbeatMsg_changes (sub_of hL rfl) (toLine64_changes (sub_of hL rfl) h0t)
    exact Changes.set_sent (sub_of hL rfl) h4 _

theorem noteDual_changes {L : List Part} {s t0 : State} (hL : sub [.regs] L = true) (h0t : Changes L s t0) (a1 : Bool) :
    Changes L s (noteDual t0 a1) := by
  unfold noteDual
  exact State.setBit_changes (sub_of hL rfl) h0t _ _ _

theorem settleStile_changes {L : List Part} {s t0 : State} (hL : sub [.regs] L = true) (h0t : Changes L s t0) :
    Changes L s (settleStile t0) := by
  unfold settleStile
  exact Changes.ite (State.clearCause_changes (sub_of hL rfl) h0t _) (State.guarantee_changes (sub_of hL rfl) h0t)

theorem heartbeat_changes {L : List Part} {s t0 : State} (hL : sub [.regs, .twin] L = true) (h0t : Changes L s t0) (a1 : Sys2Proof.HeartbeatMsg) :
    Changes L s (heartbeat t0 a1) := by
  unfold heartbeat
  refine Changes.ite ?_ ?_
  · exact h0t
  · split
    rename_i x0 x1 x2 heq3
    extract_lets -merge -useContext x4 x5 x6 x7 x8 x9 x10 x11 x12 x13 x14
    try clear_value x5 x8 x9 x10 x14
    have h15 : Changes L s x4 := State.setN_changes (sub_of hL rfl) (State.setN_changes (sub_of hL rfl) h0t _ _) _ _
    have h16 : Changes L s x6 := Changes.set_twin (sub_of hL rfl) h15 _
    have h17 : Changes L s x7 := State.evt_changes (sub_of hL rfl) h16 _ _
    have h18 : Changes L s x11 := Changes.set_twin (sub_of hL rfl) h16 _
    have h19 : Changes L s x12 := noteDual_changes (sub_of hL rfl) h18 _
    have h20 : Changes L s x13 := State.setBit_changes (sub_of hL rfl) h19 _ _ _
    try clear_value x4 x6 x7 x11 x12 x13
    exact Changes.ite (Changes.set_twin (sub_of hL rfl) h17 _) (Changes.ite (settleStile_changes (sub_of hL rfl) (setComparing_changes (sub_of hL rfl) (Changes.set_twin (sub_of hL rfl) h20 _))) h19)

theorem beaconSend_changes {L : List Part} {s t0 : State} (hL : sub [.sent] L = true) (h0t : Changes L s t0) :
    Changes L s (beaconSend t0) := by
  unfold beaconSend
  refine Changes.ite ?_ ?_
  · exact h0t
  · split
    rename_i x0 x1 x2 heq3
    have h4 : Changes L s x2 := by
      rw [show x2 = (_, x2).2 from rfl, ← heq3]
      exact heartbeatMsg_changes (sub_of hL rfl) h0t
    extract_lets -merge -useContext x5
    try clear_value x5
    exact Changes.set_sent (sub_of hL rfl) h4 _

theorem beacon_changes {L : List Part} {s t0 : State} (hL : sub [.regs, .twin] L = true) (h0t : Changes L s t0) (a1 : Sys2Proof.HeartbeatMsg) :
    Changes L s (beacon t0 a1) := by
  unfold beacon
  refine Changes.ite ?_ ?_
  · exact h0t
  · extract_lets -merge -useContext x0 x1 x2
    try clear_value x1
    have h3 : Changes L s x0 := State.setBit_changes (sub_of hL rfl) h0t _ _ _
    have h4 : Changes L s x2 := Changes.set_twin (sub_of hL rfl) h3 _
    try clear_value x0 x2
    exact settleStile_changes (sub_of hL rfl) (noteDual_changes (sub_of hL rfl) h4 _)

theorem startHoldoff_changes {L : List Part} {s t0 : State} (hL : sub [.twin] L = true) (h0t : Changes L s t0) :
    Changes L s (startHoldoff t0) := by
  unfold startHoldoff
  refine Changes.ite ?_ ?_
  · extract_lets -merge -useContext x0 x1
    try clear_value x0 x1
    exact Changes.set_twin (sub_of hL rfl) h0t _
  · exact h0t

theorem twinHeartbeatLost_changes {L : List Part} {s t0 : State} (hL : sub [.regs, .faults, .twin] L = true) (h0t : Changes L s t0) :
    Changes L s (twinHeartbeatLost t0) := by
  unfold twinHeartbeatLost
  refine Changes.ite ?_ ?_
  · exact h0t
  · extract_lets -merge -useContext x0
    have h1 : Changes L s x0 := State.incSat_changes (sub_of hL rfl) (State.evt_changes (sub_of hL rfl) (State.setBit_changes (sub_of hL rfl) h0t _ _ _) _ _) _ _ _ _
    try clear_value x0
    exact startHoldoff_changes (sub_of hL rfl) (State.guarantee_changes (sub_of hL rfl) (State.raise_changes (sub_of hL rfl) h1 _ _ _ _))

theorem stileDown_changes {L : List Part} {s t0 : State} (hL : sub [.regs, .faults, .twin] L = true) (h0t : Changes L s t0) :
    Changes L s (stileDown t0) := by
  unfold stileDown
  refine Changes.ite ?_ ?_
  · exact h0t
  · extract_lets -merge -useContext x0 x1
    have h2 : Changes L s x0 := State.incSat_changes (sub_of hL rfl) (State.evt_changes (sub_of hL rfl) (State.setBit_changes (sub_of hL rfl) h0t _ _ _) _ _) _ _ _ _
    have h3 : Changes L s x1 := setComparing_changes (sub_of hL rfl) h2
    try clear_value x0 x1
    exact startHoldoff_changes (sub_of hL rfl) (State.guarantee_changes (sub_of hL rfl) (Changes.ite (State.raise_changes (sub_of hL rfl) h3 _ _ _ _) (State.raise_changes (sub_of hL rfl) h3 _ _ _ _)))

theorem sliceCrc_changes {L : List Part} {s t0 : State} (hL : sub [.regs, .eng, .faults, .twin] L = true) (h0t : Changes L s t0) (a1 : List Sys2Proof.CrcRec) :
    Changes L s (sliceCrc t0 a1) := by
  unfold sliceCrc
  refine Changes.ite ?_ ?_
  · refine Changes.foldl (fun x0 _ h1 => ?_) ?_
    · exact twinRecord_changes (sub_of hL rfl) h1 _
    · exact h0t
  · exact h0t

theorem crcMissing_changes {L : List Part} {s t0 : State} (hL : sub [.regs, .twin] L = true) (h0t : Changes L s t0) (a1 : Bool) (a2 : Sys2Proof.CrcRec) :
    Changes L s (crcMissing t0 a1 a2) := by
  unfold crcMissing
  extract_lets -merge -useContext x0 x1 x2
  try clear_value x0 x1 x2
  exact Changes.ite (State.inc32_changes (sub_of hL rfl) (Changes.set_twin (sub_of hL rfl) h0t _) _) h0t

theorem digest_changes {L : List Part} {s t0 : State} (hL : sub [.regs, .faults, .twin] L = true) (h0t : Changes L s t0) (a1 : BitVec 32) (a2 : BitVec 64) (a3 : BitVec 64) :
    Changes L s (digest t0 a1 a2 a3) := by
  unfold digest
  refine Changes.ite ?_ ?_
  · exact h0t
  · extract_lets -merge -useContext x0 x1
    try clear_value x1
    have h2 : Changes L s x0 := State.setReg64_changes (sub_of hL rfl) (State.setReg64_changes (sub_of hL rfl) h0t _ _ _) _ _ _
    try clear_value x0
    exact compareDigests_changes (sub_of hL rfl) (Changes.set_twin (sub_of hL rfl) h2 _)

theorem targetedTestComplete_changes {L : List Part} {s t0 : State} (hL : sub [.regs, .eng, .twin, .sent] L = true) (h0t : Changes L s t0) (a1 : Nat) :
    Changes L s (targetedTestComplete t0 a1) := by
  unfold targetedTestComplete
  split
  · rename_i x0 heq1
    exact h0t
  · rename_i x2 x3 heq4
    refine Changes.ite ?_ ?_
    · exact h0t
    · extract_lets -merge -useContext x5 x6 x7 x8 x9
      try clear_value x7 x9
      have h10 : Changes L s x5 := passForTest_changes (sub_of hL rfl) h0t _
      have h11 : Changes L s x6 := State.setF_changes (sub_of hL rfl) h10 _ _ _ _
      have h12 : Changes L s x8 := Changes.set_twin (sub_of hL rfl) h11 _
      try clear_value x5 x6 x8
      exact Changes.ite h0t (Changes.ite (Changes.set_sent (sub_of hL rfl) h12 _) h12)

theorem testResult_changes {L : List Part} {s t0 : State} (hL : sub [.regs, .twin] L = true) (h0t : Changes L s t0) (a1 : Nat) (a2 : Nat) (a3 : Nat) (a4 : Nat) (a5 : Bool) :
    Changes L s (testResult t0 a1 a2 a3 a4 a5) := by
  unfold testResult
  extract_lets -merge -useContext x0 x1 x2 x3
  try clear_value x0 x1 x3
  have h4 : Changes L s x2 := by
    unfold x2
    split
    · rename_i x5 x6 heq7
      exact Changes.ite (State.setF_changes (sub_of hL rfl) h0t _ _ _ _) h0t
    · rename_i x8 heq9
      exact h0t
  try clear_value x2
  exact Changes.set_twin (sub_of hL rfl) h4 _

theorem returnEngine_changes {L : List Part} {s t0 : State} (hL : sub [.regs, .eng] L = true) (h0t : Changes L s t0) (a1 : Nat) :
    Changes L s (returnEngine t0 a1) := by
  unfold returnEngine
  refine Changes.ite ?_ ?_
  · exact h0t
  · extract_lets -merge -useContext x0 x1 x2
    try clear_value x0 x1
    have h3 : Changes L s x2 := Changes.ite (Changes.set_eng (sub_of hL rfl) h0t _) (Changes.ite (Changes.set_eng (sub_of hL rfl) h0t _) h0t)
    try clear_value x2
    exact State.sparesCause_changes (sub_of hL rfl) (State.syncSpares_changes (sub_of hL rfl) (State.syncEngine_changes (sub_of hL rfl) h3 _))

theorem failTested_changes {L : List Part} {s t0 : State} (hL : sub [.regs, .chans, .eng, .faults] L = true) (h0t : Changes L s t0) (a1 : Sys2Proof.Machine.Resolve) :
    Changes L s (failTested t0 a1) := by
  unfold failTested
  exact Changes.ite h0t (State.failEngine_changes (sub_of hL rfl) (State.raise_changes (sub_of hL rfl) h0t _ _ _ _) _)

theorem withdrawOwn_changes {L : List Part} {s t0 : State} (hL : sub [.regs, .etm] L = true) (h0t : Changes L s t0) :
    Changes L s (withdrawOwn t0) := by
  unfold withdrawOwn
  exact withdrawPath_changes (sub_of hL rfl) (State.evt_changes (sub_of hL rfl) (State.setBit_changes (sub_of hL rfl) h0t _ _ _) _ _) _

theorem outcome_changes {L : List Part} {s t0 : State} (hL : sub [.regs, .chans, .eng, .etm, .faults, .twin, .sent] L = true) (h0t : Changes L s t0) (a1 : Sys2Proof.Machine.Resolve) (a2 : Nat) (a3 : Nat) :
    Changes L s (outcome t0 a1 a2 a3) := by
  unfold outcome
  extract_lets -merge -useContext x0 x1 x2
  try clear_value x0 x1
  have h3 : Changes L s x2 := State.raise_changes (sub_of hL rfl) (State.inc32_changes (sub_of hL rfl) (returnEngine_changes (sub_of hL rfl) h0t _) _) _ _ _ _
  try clear_value x2
  split
  · rename_i x4 x5
    exact Changes.ite (State.requestResync_changes (sub_of hL rfl) h3 _) h3
  · rename_i x6 x7
    exact State.requestResync_changes (sub_of hL rfl) (withdrawOwn_changes (sub_of hL rfl) (failTested_changes (sub_of hL rfl) h0t _)) _
  · rename_i x8 x9 heq10
    exact returnEngine_changes (sub_of hL rfl) h0t _
  · rename_i x11 x12
    exact State.requestResync_changes (sub_of hL rfl) (Changes.ite (withdrawOwn_changes (sub_of hL rfl) (failTested_changes (sub_of hL rfl) h0t _)) (failTested_changes (sub_of hL rfl) h0t _)) _
  · rename_i x13 x14 heq15 heq16 heq17 heq18
    exact withdrawOwn_changes (sub_of hL rfl) (failTested_changes (sub_of hL rfl) h0t _)

theorem resolutionEnd_changes {L : List Part} {s t0 : State} (hL : sub [.regs, .chans, .eng, .etm, .faults, .twin, .sent] L = true) (h0t : Changes L s t0) :
    Changes L s (resolutionEnd t0) := by
  unfold resolutionEnd
  split
  · rename_i x0 heq1
    exact h0t
  · rename_i x2 x3 heq4
    extract_lets -merge -useContext x5 x6 x7 x8 x9
    try clear_value x5 x6 x9
    have h10 : Changes L s x7 := Changes.set_twin (sub_of hL rfl) h0t _
    have h11 : Changes L s x8 := outcome_changes (sub_of hL rfl) (State.evt_changes (sub_of hL rfl) (State.setBit_changes (sub_of hL rfl) h10 _ _ _) _ _) _ _ _
    try clear_value x7 x8
    refine Changes.ite ?_ ?_
    · exact h0t
    · split
      · rename_i x12 heq13
        exact h11
      · rename_i x14 x15 x16 heq17
        exact startResolution_changes (sub_of hL rfl) (Changes.set_twin (sub_of hL rfl) h11 _) _

theorem resyncGo_changes {L : List Part} {s t0 : State} (hL : sub [.regs, .twin, .sent] L = true) (h0t : Changes L s t0) :
    Changes L s (resyncGo t0) := by
  unfold resyncGo
  exact Changes.ite h0t (Changes.ite (State.requestResync_changes (sub_of hL rfl) h0t _) (State.evt_changes (sub_of hL rfl) h0t _ _))

theorem resync_changes {L : List Part} {s t0 : State} (hL : sub [.twin] L = true) (h0t : Changes L s t0) (a1 : BitVec 128) (a2 : BitVec 32) :
    Changes L s (resync t0 a1 a2) := by
  unfold resync
  exact Changes.ite (State.schedule_changes (sub_of hL rfl) h0t _ _) h0t

theorem resyncApplied_changes {L : List Part} {s t0 : State} (hL : sub [.regs, .stp, .chans, .eng, .mill, .etm, .hbm, .mem, .faults, .twin, .sent] L = true) (h0t : Changes L s t0) :
    Changes L s (resyncApplied t0) := by
  unfold resyncApplied
  split
  · rename_i x0 heq1
    exact h0t
  · rename_i x2 x3 heq4
    refine Changes.ite ?_ ?_
    · exact h0t
    · extract_lets -merge -useContext x5 x6 x7 x8 x9 x10 x11 x12
      try clear_value x6 x8 x12
      have h13 : Changes L s x5 := State.toPos_changes (sub_of hL rfl) h0t _
      have h14 : Changes L s x7 := Changes.foldl (fun x15 _ h16 => (Changes.ite (newSequence_changes (sub_of hL rfl) h16 _) h16)) h13
      have h17 : Changes L s x9 := Changes.set_twin (sub_of hL rfl) h14 _
      have h18 : Changes L s x10 := State.evt_changes (sub_of hL rfl) h17 _ _
      have h19 : Changes L s x11 := restorePath_changes (sub_of hL rfl) (State.evt_changes (sub_of hL rfl) (State.setBit_changes (sub_of hL rfl) h18 _ _ _) _ _) _
      try clear_value x5 x7 x9 x10 x11
      exact Changes.ite (Changes.set_twin (sub_of hL rfl) h19 _) h18

theorem scheduleSwap_changes {L : List Part} {s t0 : State} (hL : sub [.twin] L = true) (h0t : Changes L s t0) (a1 : BitVec 32) :
    Changes L s (scheduleSwap t0 a1) := by
  unfold scheduleSwap
  split
  · rename_i x0 x1 heq2
    exact Changes.ite (Changes.set_twin (sub_of hL rfl) h0t _) h0t
  · rename_i x3 heq4
    exact Changes.set_twin (sub_of hL rfl) h0t _

theorem roleSwap_changes {L : List Part} {s t0 : State} (hL : sub [.regs, .twin, .sent] L = true) (h0t : Changes L s t0) :
    Changes L s (roleSwap t0) := by
  unfold roleSwap
  exact Changes.ite h0t (Changes.ite (State.evt_changes (sub_of hL rfl) (State.refuse_changes (sub_of hL rfl) h0t _ _ _ _) _ _) (scheduleSwap_changes (sub_of hL rfl) (Changes.set_sent (sub_of hL rfl) h0t _) _))

theorem swap_changes {L : List Part} {s t0 : State} (hL : sub [.twin] L = true) (h0t : Changes L s t0) (a1 : BitVec 32) :
    Changes L s (swap t0 a1) := by
  unfold swap
  exact Changes.ite (scheduleSwap_changes (sub_of hL rfl) h0t _) h0t

theorem swapApplied_changes {L : List Part} {s t0 : State} (hL : sub [.regs, .pins, .stp, .aud, .faults, .twin] L = true) (h0t : Changes L s t0) :
    Changes L s (swapApplied t0) := by
  unfold swapApplied
  split
  · rename_i x0 heq1
    exact h0t
  · rename_i x2 x3 heq4
    refine Changes.ite ?_ ?_
    · exact h0t
    · extract_lets -merge -useContext x5 x6 x7
      try clear_value x6
      have h8 : Changes L s x5 := State.toPos_changes (sub_of hL rfl) h0t _
      have h9 : Changes L s x7 := Changes.set_twin (sub_of hL rfl) h8 _
      try clear_value x5 x7
      exact Changes.ite (dropRole_changes (sub_of hL rfl) h9) (takeOverRole_changes (sub_of hL rfl) h9)

theorem roleOutputHandoverEnd_changes {L : List Part} {s t0 : State} (hL : sub [.regs, .pins, .stp, .twin] L = true) (h0t : Changes L s t0) :
    Changes L s (roleOutputHandoverEnd t0) := by
  unfold roleOutputHandoverEnd
  split
  · rename_i x0 heq1
    exact h0t
  · rename_i x2 x3 heq4
    split
    rename_i x5 x6 x7 heq8
    have h9 : Changes L s x7 := by
      rw [show x7 = (_, x7).2 from rfl, ← heq8]
      exact State.draw_changes (State.toPos_changes (sub_of hL rfl) h0t _)
    exact Changes.upd [.pins, .twin] (sub_of hL rfl) h9 rfl rfl rfl rfl (Nat.le_refl _) (fun p hp => by cases p <;> first | rfl | exact ⟨rfl, rfl⟩ | exact absurd (by decide) hp)

theorem readToken_changes {L : List Part} {s t0 : State} (hL : sub [.regs, .pins] L = true) (h0t : Changes L s t0) (a1 : Bool) :
    Changes L s (readToken t0 a1) := by
  unfold readToken
  extract_lets -merge -useContext x0 x1
  try clear_value x1
  have h2 : Changes L s x0 := State.setBit_changes (sub_of hL rfl) h0t _ _ _
  try clear_value x0
  exact Changes.set_pins (sub_of hL rfl) h2 _

theorem holdoffExpired_changes {L : List Part} {s t0 : State} (hL : sub [.regs, .pins, .stp, .aud, .faults, .twin] L = true) (h0t : Changes L s t0) (a1 : Bool) :
    Changes L s (holdoffExpired t0 a1) := by
  unfold holdoffExpired
  split
  · rename_i x0 heq1
    exact h0t
  · rename_i x2 x3 heq4
    refine Changes.ite ?_ ?_
    · exact h0t
    · extract_lets -merge -useContext x5 x6 x7
      try clear_value x6 x7
      have h8 : Changes L s x5 := readToken_changes (sub_of hL rfl) (State.toPos_changes (sub_of hL rfl) h0t _) _
      try clear_value x5
      exact Changes.ite (takeOverRole_changes (sub_of hL rfl) (Changes.set_twin (sub_of hL rfl) h8 _)) (Changes.set_twin (sub_of hL rfl) h8 _)

theorem tokenReadback_changes {L : List Part} {s t0 : State} (hL : sub [.regs, .pins] L = true) (h0t : Changes L s t0) (a1 : Bool) :
    Changes L s (tokenReadback t0 a1) := by
  unfold tokenReadback
  refine Changes.ite ?_ ?_
  · exact h0t
  · extract_lets -merge -useContext x0 x1 x2
    try clear_value x1
    have h3 : Changes L s x0 := readToken_changes (sub_of hL rfl) h0t _
    have h4 : Changes L s x2 := State.setBit_changes (sub_of hL rfl) h3 _ _ _
    try clear_value x0 x2
    exact Changes.ite (State.evt_changes (sub_of hL rfl) h4 _ _) h4

theorem dualRelease_changes {L : List Part} {s t0 : State} (hL : sub [.regs, .stp] L = true) (h0t : Changes L s t0) :
    Changes L s (dualRelease t0) := by
  unfold dualRelease
  exact Changes.ite (State.setBit_changes (sub_of hL rfl) (dropRole_changes (sub_of hL rfl) (State.toFrameStart_changes (sub_of hL rfl) h0t)) _ _ _) h0t

theorem stileMessage_changes {L : List Part} {s t0 : State} (hL : sub [.regs, .eng, .faults, .twin] L = true) (h0t : Changes L s t0) (a1 : Nat) (a2 : Nat) (a3 : List Nat) :
    Changes L s (stileMessage t0 a1 a2 a3) := by
  unfold stileMessage
  refine Changes.ite ?_ ?_
  · exact h0t
  · split
    · rename_i x0
      exact heartbeat_changes (sub_of hL rfl) h0t _
    · rename_i x1
      exact sliceCrc_changes (sub_of hL rfl) h0t _
    · rename_i x2
      exact digest_changes (sub_of hL rfl) h0t _ _ _
    · rename_i x3
      exact testResult_changes (sub_of hL rfl) h0t _ _ _ _ _
    · rename_i x4
      exact resync_changes (sub_of hL rfl) h0t _ _
    · rename_i x5
      exact swap_changes (sub_of hL rfl) h0t _
    · rename_i x6
      exact hello_changes (sub_of hL rfl) h0t _
    · rename_i x7 heq8 heq9 heq10 heq11 heq12 heq13 heq14
      exact h0t

end Sys2Proof.Machine
end

