-- ==== Sys2Proof/Laws/ChangesInModes.lean ====
section
/-! SUPPORT. What each function of Modes.lean changes at most: one lemma for each. -/

namespace Sys2Proof.Machine

theorem State.reset_regs_wf : Store.wf resetVal State.reset.regs = true := by decide

theorem modeRequest_changes {L : List Part} {s t0 : State} (hL : sub [.regs] L = true) (h0t : Changes L s t0) (a1 : Nat) (a2 : BitVec 16) :
    Changes L s (modeRequest t0 a1 a2) := by
  unfold modeRequest
  refine Changes.ite ?_ ?_
  · exact h0t
  · split
    · rename_i x0 x1 heq2
      exact State.evt_changes (sub_of hL rfl) (State.refuse_changes (sub_of hL rfl) h0t _ _ _ _) _ _
    · rename_i x3 heq4
      exact State.setN_changes (sub_of hL rfl) h0t _ _

theorem stopForMode_changes {L : List Part} {s t0 : State} (hL : sub [.chans] L = true) (h0t : Changes L s t0) :
    Changes L s (stopForMode t0) := by
  unfold stopForMode
  exact Changes.foldl (fun x0 _ h1 => (State.modChan_changes (sub_of hL rfl) h1 _ _)) h0t

theorem enterFromCommission_changes {L : List Part} {s t0 : State} (hL : sub [.regs, .book, .boot] L = true) (h0t : Changes L s t0) :
    Changes L s (enterFromCommission t0) := by
  unfold enterFromCommission
  extract_lets -merge -useContext x0 x1
  try clear_value x0
  have h2 : Changes L s x1 := Changes.set_boot (sub_of hL rfl) h0t _
  try clear_value x1
  exact Changes.ite (enterService_changes (sub_of hL rfl) h2 _) (snapshot_changes (sub_of hL rfl) (State.evt_changes (sub_of hL rfl) (State.setMode_changes (sub_of hL rfl) h2 _) _ _))

theorem applyRequest_changes {L : List Part} {s t0 : State} (hL : sub [.regs, .chans, .book, .boot] L = true) (h0t : Changes L s t0) :
    Changes L s (applyRequest t0) := by
  unfold applyRequest
  extract_lets -merge -useContext x0 x1
  try clear_value x0
  have h2 : Changes L s x1 := State.setF_changes (sub_of hL rfl) h0t _ _ _ _
  try clear_value x1
  refine Changes.ite ?_ ?_
  · exact h2
  · split
    · rename_i x3
      exact stopForMode_changes (sub_of hL rfl) (State.setMode_changes (sub_of hL rfl) h2 _)
    · rename_i x4
      exact enterFromCommission_changes (sub_of hL rfl) h2
    · rename_i x5 heq6 heq7
      exact State.setMode_changes (sub_of hL rfl) h2 _

theorem requestFrame_changes {L : List Part} {s t0 : State} (hL : sub [.regs, .stp] L = true) (h0t : Changes L s t0) :
    Changes L s (requestFrame t0) := by
  unfold requestFrame
  extract_lets -merge -useContext x0 x1 x2
  try clear_value x0 x2
  have h3 : Changes L s x1 := State.toFrameStart_changes (sub_of hL rfl) h0t
  try clear_value x1
  exact Changes.ite h3 (Changes.ite h3 (State.enterFrame_changes (sub_of hL rfl) h3 _ _))

theorem modeChange_changes {L : List Part} {s t0 : State} (hL : sub [.regs, .stp, .chans, .book, .boot] L = true) (h0t : Changes L s t0) :
    Changes L s (modeChange t0) := by
  unfold modeChange
  extract_lets -merge -useContext x0
  try clear_value x0
  exact Changes.ite h0t (Changes.ite (applyRequest_changes (sub_of hL rfl) h0t) (Changes.ite (applyRequest_changes (sub_of hL rfl) (requestFrame_changes (sub_of hL rfl) h0t)) h0t))

theorem dropStaged_changes {L : List Part} {s t0 : State} (hL : sub [.book] L = true) (h0t : Changes L s t0) :
    Changes L s (dropStaged t0) := by
  unfold dropStaged
  extract_lets -merge -useContext x0 x1
  try clear_value x0 x1
  exact Changes.set_book (sub_of hL rfl) h0t _

theorem resetDevice_changes {L : List Part} {s t : State} (hL : sub [.regs, .bus, .pins, .stp, .chans, .eng, .mill, .clp, .ing, .etm, .ptp, .aud, .mon, .rv, .bf, .hbm, .mem, .cvu, .book, .faults, .twin, .boot] L = true)
    (h : Changes L s t) (c : Nat) : Changes L s (resetDevice t c) := by
  unfold resetDevice
  extract_lets -merge -useContext
  rename_i u v0 v w
  have hu : Changes L s u := h.trans ⟨rfl, fun _ => State.reset_regs_wf, fun _ => rfl, Nat.le_refl _, fun p hp => by
    cases p <;> first | rfl | exact absurd (sub_mem hL (by decide)) hp⟩
  clear_value u
  have hv0 : Changes L s v0 := State.setReg_changes (sub_of hL rfl) (State.setN_changes (sub_of hL rfl)
    (State.setReg_changes (sub_of hL rfl) hu _ _) _ _) _ _
  clear_value v0
  have hv : Changes L s v := State.setReg_changes (sub_of hL rfl) hv0 _ _
  clear_value v
  have hw : Changes L s w := Changes.foldl (fun _ _ h => State.setN_changes (sub_of hL rfl) h _ _) hv
  clear_value w
  exact Changes.ite (State.setN_changes (sub_of hL rfl) hw _ _) hw

theorem joinCause_changes {L : List Part} {s t0 : State} (hL : sub [.regs] L = true) (h0t : Changes L s t0) (a1 : Nat) :
    Changes L s (joinCause t0 a1) := by
  unfold joinCause
  exact State.setBit_changes (sub_of hL rfl) h0t _ _ _

theorem porN_changes {L : List Part} {s t0 : State} (hL : sub [.regs, .bus, .pins, .stp, .chans, .eng, .mill, .clp, .ing, .etm, .ptp, .aud, .mon, .rv, .bf, .hbm, .mem, .cvu, .book, .faults, .twin, .boot] L = true) (h0t : Changes L s t0) :
    Changes L s (porN t0) := by
  unfold porN
  extract_lets -merge -useContext x0 x1
  try clear_value x0
  have h2 : Changes L s x1 := Changes.set_pins (sub_of hL rfl) h0t _
  try clear_value x1
  exact Changes.ite (joinCause_changes (sub_of hL rfl) h2 _) (resetDevice_changes (sub_of hL rfl) (dropStaged_changes (sub_of hL rfl) h2) _)

theorem resetN_changes {L : List Part} {s t0 : State} (hL : sub [.regs, .bus, .pins, .stp, .chans, .eng, .mill, .clp, .ing, .etm, .ptp, .aud, .mon, .rv, .bf, .hbm, .mem, .cvu, .book, .faults, .twin, .boot] L = true) (h0t : Changes L s t0) :
    Changes L s (resetN t0) := by
  unfold resetN
  extract_lets -merge -useContext x0 x1
  try clear_value x0
  have h2 : Changes L s x1 := Changes.set_pins (sub_of hL rfl) h0t _
  try clear_value x1
  exact Changes.ite (joinCause_changes (sub_of hL rfl) h2 _) (resetDevice_changes (sub_of hL rfl) (commitLines_changes (sub_of hL rfl) h2) _)

theorem swreset_changes {L : List Part} {s t0 : State} (hL : sub [.regs, .bus, .pins, .stp, .chans, .eng, .mill, .clp, .ing, .etm, .ptp, .aud, .mon, .rv, .bf, .hbm, .mem, .cvu, .book, .faults, .twin, .boot] L = true) (h0t : Changes L s t0) (a1 : Nat) :
    Changes L s (swreset t0 a1) := by
  unfold swreset
  exact Changes.ite h0t (resetDevice_changes (sub_of hL rfl) (commitLines_changes (sub_of hL rfl) (Changes.set_pins (sub_of hL rfl) h0t _)) _)

theorem pcieHotReset_changes {L : List Part} {s t0 : State} (hL : sub [.regs, .pins, .rv] L = true) (h0t : Changes L s t0) :
    Changes L s (pcieHotReset t0) := by
  unfold pcieHotReset
  exact State.updateLines_changes (sub_of hL rfl) (Changes.set_pins (sub_of hL rfl) h0t _)

theorem pcieLinkUp_changes {L : List Part} {s t0 : State} (hL : sub [.regs, .pins, .rv] L = true) (h0t : Changes L s t0) :
    Changes L s (pcieLinkUp t0) := by
  unfold pcieLinkUp
  exact Changes.ite h0t (State.updateLines_changes (sub_of hL rfl) (Changes.set_pins (sub_of hL rfl) h0t _))

theorem setStage_changes {L : List Part} {s t0 : State} (hL : sub [.regs] L = true) (h0t : Changes L s t0) (a1 : Nat) :
    Changes L s (setStage t0 a1) := by
  unfold setStage
  exact State.setF_changes (sub_of hL rfl) h0t _ _ _ _

theorem halt_changes {L : List Part} {s t0 : State} (hL : sub [.regs] L = true) (h0t : Changes L s t0) (a1 : Nat) :
    Changes L s (halt t0 a1) := by
  unfold halt
  exact setStage_changes (sub_of hL rfl) (State.setF_changes (sub_of hL rfl) h0t _ _ _ _) _

theorem clocks_changes {L : List Part} {s t0 : State} (hL : sub [.regs] L = true) (h0t : Changes L s t0) (a1 : Bool) :
    Changes L s (clocks t0 a1) := by
  unfold clocks
  refine Changes.ite ?_ ?_
  · refine Changes.ite ?_ ?_
    · split
      rename_i x0 x1 x2 heq3
      have h4 : Changes L s x2 := by
        rw [show x2 = (_, x2).2 from rfl, ← heq3]
        exact State.draw_changes h0t
      exact halt_changes (sub_of hL rfl) (State.setF_changes (sub_of hL rfl) h4 _ _ _ _) _
    · exact setStage_changes (sub_of hL rfl) (State.setF_changes (sub_of hL rfl) h0t _ _ _ _) _
  · exact h0t

theorem trainPc_changes {L : List Part} {s t0 : State} (hL : sub [.regs, .faults] L = true) (h0t : Changes L s t0) (a1 : Nat) (a2 : Bool) :
    Changes L s (trainPc t0 a1 a2) := by
  unfold trainPc
  refine Changes.ite ?_ ?_
  · exact State.setN_changes (sub_of hL rfl) (setPchSt_changes (sub_of hL rfl) h0t _ _) _ _
  · extract_lets -merge -useContext x0
    have h1 : Changes L s x0 := State.setBit_changes (sub_of hL rfl) (State.setBit_changes (sub_of hL rfl) (setPchSt_changes (sub_of hL rfl) h0t _ _) _ _ _) _ _ _
    try clear_value x0
    exact State.raise_changes (sub_of hL rfl) (State.evt_changes (sub_of hL rfl) h1 _ _) _ _ _ _

theorem hbmTraining_changes {L : List Part} {s t0 : State} (hL : sub [.regs, .hbm, .faults] L = true) (h0t : Changes L s t0) (a1 : Sys2Proof.Word) :
    Changes L s (hbmTraining t0 a1) := by
  unfold hbmTraining
  refine Changes.ite ?_ ?_
  · extract_lets -merge -useContext x0 x1
    have h2 : Changes L s x0 := Changes.foldl (fun x3 _ h4 => (trainPc_changes (sub_of hL rfl) h4 _ _)) h0t
    have h5 : Changes L s x1 := setStage_changes (sub_of hL rfl) h2 _
    try clear_value x0 x1
    exact Changes.ite (halt_changes (sub_of hL rfl) h2 _) (Changes.ite h5 (useLayout_changes (sub_of hL rfl) h5 _))
  · exact h0t

theorem imageLoad_changes {L : List Part} {s t0 : State} (hL : sub [.regs, .mem] L = true) (h0t : Changes L s t0) (a1 : List (BitVec 8)) :
    Changes L s (imageLoad t0 a1) := by
  unfold imageLoad
  refine Changes.ite ?_ ?_
  · extract_lets -merge -useContext x0
    have h1 : Changes L s x0 := setStage_changes (sub_of hL rfl) h0t _
    try clear_value x0
    exact Changes.ite (State.setMem_changes (sub_of hL rfl) h1 _ _) h1
  · exact h0t

theorem runImage_changes {L : List Part} {s t0 : State} (hL : sub [.regs, .boot] L = true) (h0t : Changes L s t0) (a1 : Nat) (a2 : Nat) :
    Changes L s (runImage t0 a1 a2) := by
  unfold runImage
  extract_lets -merge -useContext x0 x1
  try clear_value x1
  have h2 : Changes L s x0 := State.setF_changes (sub_of hL rfl) (setStage_changes (sub_of hL rfl) h0t _) _ _ _ _
  try clear_value x0
  exact State.setF_changes (sub_of hL rfl) (Changes.set_boot (sub_of hL rfl) h2 _) _ _ _ _

theorem imageVerify_changes {L : List Part} {s t0 : State} (hL : sub [.regs, .mem, .boot] L = true) (h0t : Changes L s t0) (a1 : List Nat) (a2 : List Nat) (a3 : List (BitVec 8)) :
    Changes L s (imageVerify t0 a1 a2 a3) := by
  unfold imageVerify
  refine Changes.ite ?_ ?_
  · extract_lets -merge -useContext x0 x1 x2
    try clear_value x0
    have h3 : Changes L s x1 := State.evt_changes (sub_of hL rfl) (State.setBit_changes (sub_of hL rfl) h0t _ _ _) _ _
    have h4 : Changes L s x2 := State.setMem_changes (sub_of hL rfl) h3 _ _
    try clear_value x1 x2
    exact Changes.ite (runImage_changes (sub_of hL rfl) h0t _ _) (Changes.ite (runImage_changes (sub_of hL rfl) h4 _ _) (halt_changes (sub_of hL rfl) (State.setF_changes (sub_of hL rfl) h4 _ _ _ _) _))
  · exact h0t

theorem bookHeads_changes {L : List Part} {s t0 : State} (hL : sub [.regs] L = true) (h0t : Changes L s t0) :
    Changes L s (bookHeads t0) := by
  unfold bookHeads
  exact Changes.ite (setStage_changes (sub_of hL rfl) (Changes.foldl (fun x0 _ h1 => (State.setN_changes (sub_of hL rfl) h1 _ _)) h0t) _) h0t

theorem failAtStart_changes {L : List Part} {s t0 : State} (hL : sub [.regs, .chans, .eng, .faults] L = true) (h0t : Changes L s t0) (a1 : Nat) :
    Changes L s (failAtStart t0 a1) := by
  unfold failAtStart
  split
  rename_i x0 x1 x2 heq3
  have h4 : Changes L s x2 := by
    rw [show x2 = (_, x2).2 from rfl, ← heq3]
    exact State.draw_changes h0t
  exact State.failEngine_changes (sub_of hL rfl) (State.raise_changes (sub_of hL rfl) h4 _ _ _ _) _

theorem startEngines_changes {L : List Part} {s t0 : State} (hL : sub [.regs, .chans, .eng, .faults] L = true) (h0t : Changes L s t0) (a1 : BitVec 34) :
    Changes L s (startEngines t0 a1) := by
  unfold startEngines
  refine Changes.ite ?_ ?_
  · extract_lets -merge -useContext x0
    have h1 : Changes L s x0 := Changes.foldl (fun x2 _ h3 => (Changes.ite h3 (failAtStart_changes (sub_of hL rfl) h3 _))) h0t
    try clear_value x0
    exact setStage_changes (sub_of hL rfl) (State.syncSpares_changes (sub_of hL rfl) (Changes.foldl (fun x4 _ h5 => (State.syncEngine_changes (sub_of hL rfl) h5 _)) h1)) _
  · exact h0t

theorem rollbackCommit_changes {L : List Part} {s t0 : State} (hL : sub [.regs] L = true) (h0t : Changes L s t0) :
    Changes L s (rollbackCommit t0) := by
  unfold rollbackCommit
  extract_lets -merge -useContext x0
  try clear_value x0
  exact Changes.ite (State.setF_changes (sub_of hL rfl) h0t _ _ _ _) h0t

theorem portsDown_changes {L : List Part} {s t0 : State} (hL : sub [.regs, .stp, .chans, .ptp, .faults] L = true) (h0t : Changes L s t0) (a1 : Nat) :
    Changes L s (portsDown t0 a1) := by
  unfold portsDown
  exact Changes.foldl (fun x0 _ h1 => (Changes.foldl (fun x2 _ h3 => (linePortDown_changes (sub_of hL rfl) h3 _ _)) h1)) h0t

theorem lanesFail_changes {L : List Part} {s t0 : State} (hL : sub [.regs, .clp, .faults, .sent] L = true) (h0t : Changes L s t0) :
    Changes L s (lanesFail t0) := by
  unfold lanesFail
  exact Changes.foldl (fun x0 _ h1 => (Changes.foldl (fun x2 _ h3 => (laneFails_changes (sub_of hL rfl) h3 _ _ _)) h1)) h0t

theorem clockLost_changes {L : List Part} {s t0 : State} (hL : sub [.regs, .stp, .chans, .clp, .ptp, .faults, .sent] L = true) (h0t : Changes L s t0) (a1 : Sys2Proof.ClockId) :
    Changes L s (clockLost t0 a1) := by
  unfold clockLost
  refine Changes.ite ?_ ?_
  · exact h0t
  · extract_lets -merge -useContext x0
    have h1 : Changes L s x0 := State.setBit_changes (sub_of hL rfl) h0t _ _ _
    try clear_value x0
    refine Changes.ite ?_ ?_
    · exact h1
    · split
      · rename_i x2
        exact portsDown_changes (sub_of hL rfl) h1 _
      · rename_i x3
        exact portsDown_changes (sub_of hL rfl) h1 _
      · rename_i x4
        exact lanesFail_changes (sub_of hL rfl) h1
      · rename_i x5
        exact h1
      · rename_i x6
        exact h1

theorem pwrFail_changes {L : List Part} {s t0 : State} (hL : sub [.regs, .pins, .book, .faults, .boot] L = true) (h0t : Changes L s t0) :
    Changes L s (pwrFail t0) := by
  unfold pwrFail
  refine Changes.ite ?_ ?_
  · exact h0t
  · extract_lets -merge -useContext x0 x1 x2 x3 x4 x5 x6
    try clear_value x0 x2 x6
    have h7 : Changes L s x1 := Changes.set_pins (sub_of hL rfl) h0t _
    have h8 : Changes L s x3 := State.setBit_changes (sub_of hL rfl) (State.incSat_changes (sub_of hL rfl) h7 _ _ _ _) _ _ _
    have h9 : Changes L s x4 := logFault_changes (sub_of hL rfl) h8 _
    have h10 : Changes L s x5 := commitLines_changes (sub_of hL rfl) h9
    try clear_value x1 x3 x4 x5
    exact Changes.ite (State.setN_changes (sub_of hL rfl) (Changes.set_book (sub_of hL rfl) h7 _) _ _) (State.setBit_changes (sub_of hL rfl) (Changes.set_book (sub_of hL rfl) h10 _) _ _ _)

theorem pwrFailNHigh_changes {L : List Part} {s t0 : State} (hL : sub [.regs, .pins] L = true) (h0t : Changes L s t0) :
    Changes L s (pwrFailNHigh t0) := by
  unfold pwrFailNHigh
  exact Changes.ite (State.setBit_changes (sub_of hL rfl) (Changes.set_pins (sub_of hL rfl) h0t _) _ _ _) h0t

theorem bookReopen_changes {L : List Part} {s t0 : State} (hL : sub [.regs, .pins, .book] L = true) (h0t : Changes L s t0) :
    Changes L s (bookReopen t0) := by
  unfold bookReopen
  refine Changes.ite ?_ ?_
  · refine State.evt_changes (sub_of hL rfl) ?_ _ _
    refine State.setBit_changes (sub_of hL rfl) ?_ _ _ _
    exact Changes.upd [.pins, .book] (sub_of hL rfl) h0t rfl rfl rfl rfl (Nat.le_refl _) (fun p hp => by cases p <;> first | rfl | exact ⟨rfl, rfl⟩ | exact absurd (by decide) hp)
  · exact h0t

end Sys2Proof.Machine
end

