-- ==== Sys2Proof/Laws/ChangesInPages.lean ====
section
/-! SUPPORT. What each function of Pages.lean changes at most: one lemma for each. -/

namespace Sys2Proof.Machine

theorem enableCheck_changes {L : List Part} {s t0 : State} (hL : sub [.regs, .stp, .eng, .clp, .ing, .etm, .ptp, .aud, .mon, .twin] L = true) (h0t : Changes L s t0) (a1 : Sys2Proof.Machine.PageRef) :
    Changes L s (enableCheck t0 a1) := by
  unfold enableCheck
  split
  · rename_i x0 heq1
    exact steepleEnable_changes (sub_of hL rfl) h0t
  · rename_i x2 heq3
    exact ptpEnable_changes (sub_of hL rfl) h0t
  · rename_i x4 heq5
    exact channelEnable_changes (sub_of hL rfl) h0t _
  · rename_i x6 heq7
    exact clpEnable_changes (sub_of hL rfl) h0t _
  · rename_i x8 heq9
    exact inputEnable_changes (sub_of hL rfl) h0t _
  · rename_i x10 heq11
    exact monEnable_changes (sub_of hL rfl) h0t
  · rename_i x12 heq13
    exact ethEnable_changes (sub_of hL rfl) h0t _
  · rename_i x14 heq15
    exact audEnable_changes (sub_of hL rfl) h0t
  · rename_i x16 heq17
    exact stileEnable_changes (sub_of hL rfl) h0t
  · rename_i x18 heq19
    exact sextonEnableWrite_changes (sub_of hL rfl) h0t _
  · rename_i x20 heq21 heq22 heq23 heq24 heq25 heq26 heq27 heq28 heq29 heq30
    exact h0t

theorem disablePage_changes {L : List Part} {s t0 : State} (hL : sub [.regs, .stp, .chans, .eng, .clp, .ing, .etm, .ptp, .aud, .mon, .faults, .twin] L = true) (h0t : Changes L s t0) (a1 : Sys2Proof.Machine.PageRef) :
    Changes L s (disablePage t0 a1) := by
  unfold disablePage
  split
  · rename_i x0 heq1
    exact steepleDisable_changes (sub_of hL rfl) h0t
  · rename_i x2 heq3
    exact ptpDisable_changes (sub_of hL rfl) h0t
  · rename_i x4 heq5
    exact channelDisable_changes (sub_of hL rfl) h0t _
  · rename_i x6 heq7
    exact clpDisable_changes (sub_of hL rfl) h0t _
  · rename_i x8 heq9
    exact inputDisable_changes (sub_of hL rfl) h0t _
  · rename_i x10 heq11
    exact monDisable_changes (sub_of hL rfl) h0t
  · rename_i x12 heq13
    exact ethDisable_changes (sub_of hL rfl) h0t _
  · rename_i x14 heq15
    exact audDisable_changes (sub_of hL rfl) h0t
  · rename_i x16 heq17
    exact stileDisable_changes (sub_of hL rfl) h0t
  · rename_i x18 heq19
    exact sextonEnableWrite_changes (sub_of hL rfl) h0t _
  · rename_i x20 heq21 heq22 heq23 heq24 heq25 heq26 heq27 heq28 heq29 heq30
    exact h0t

theorem commitPage_changes {L : List Part} {s t0 : State} (hL : sub [.regs, .chans, .etm, .hbm, .mem] L = true) (h0t : Changes L s t0) (a1 : Sys2Proof.Machine.PageRef) :
    Changes L s (commitPage t0 a1) := by
  unfold commitPage
  split
  · rename_i x0 heq1
    exact chcompCommit_changes (sub_of hL rfl) h0t _
  · rename_i x2 heq3
    exact monCommit_changes (sub_of hL rfl) h0t
  · rename_i x4 heq5
    exact eportCommit_changes (sub_of hL rfl) h0t _
  · rename_i x6 heq7
    exact hbmLayoutCommit_changes (sub_of hL rfl) h0t
  · rename_i x8 heq9 heq10 heq11 heq12
    exact h0t

theorem quiescePage_changes {L : List Part} {s t0 : State} (hL : sub [.regs, .chans] L = true) (h0t : Changes L s t0) (a1 : Sys2Proof.Machine.PageRef) (a2 : Bool) :
    Changes L s (quiescePage t0 a1 a2) := by
  unfold quiescePage
  split
  · rename_i x0 heq1
    exact Changes.ite (quiesceSet_changes (sub_of hL rfl) h0t _) (Changes.ite (quiesceClear_changes (sub_of hL rfl) h0t _) h0t)
  · rename_i x2 heq3
    refine Changes.dite (fun _ => ?_) (fun _ => ?_)
    · exact engineQuiesce_changes (sub_of hL rfl) h0t _ _
    · exact h0t
  · rename_i x4 heq5 heq6
    exact h0t

theorem loanPage_changes {L : List Part} {s t0 : State} (hL : sub [.regs] L = true) (h0t : Changes L s t0) (a1 : Sys2Proof.Machine.PageRef) (a2 : Bool) :
    Changes L s (loanPage t0 a1 a2) := by
  unfold loanPage
  split
  · rename_i x0 heq1
    exact State.guarantee_changes (sub_of hL rfl) (State.setBit_changes (sub_of hL rfl) h0t _ _ _)
  · rename_i x2 heq3
    exact State.guarantee_changes (sub_of hL rfl) (State.setBit_changes (sub_of hL rfl) h0t _ _ _)
  · rename_i x4 heq5
    exact State.guarantee_changes (sub_of hL rfl) (State.setBit_changes (sub_of hL rfl) h0t _ _ _)
  · rename_i x6 heq7
    exact State.guarantee_changes (sub_of hL rfl) (State.setBit_changes (sub_of hL rfl) h0t _ _ _)
  · rename_i x8 heq9
    exact State.guarantee_changes (sub_of hL rfl) (State.setBit_changes (sub_of hL rfl) h0t _ _ _)
  · rename_i x10 heq11 heq12 heq13 heq14 heq15
    exact h0t

theorem enableWrite_changes {L : List Part} {s t0 : State} (hL : sub [.regs, .stp, .chans, .eng, .clp, .ing, .etm, .ptp, .aud, .mon, .faults, .twin] L = true) (h0t : Changes L s t0) (a1 : Sys2Proof.Machine.PageRef) (a2 : Bool) :
    Changes L s (enableWrite t0 a1 a2) := by
  unfold enableWrite
  exact Changes.ite (enableCheck_changes (sub_of hL rfl) h0t _) (Changes.ite (disablePage_changes (sub_of hL rfl) h0t _) h0t)

theorem ctrlWrite_changes {L : List Part} {s t0 : State} (hL : sub [.regs, .stp, .chans, .eng, .clp, .ing, .etm, .ptp, .aud, .mon, .hbm, .mem, .faults, .twin] L = true) (h0t : Changes L s t0) (a1 : Sys2Proof.Machine.PageRef) (a2 : Sys2Proof.Word) :
    Changes L s (ctrlWrite t0 a1 a2) := by
  unfold ctrlWrite
  refine Changes.ite ?_ ?_
  · exact State.refuse_changes (sub_of hL rfl) h0t _ _ _ _
  · extract_lets -merge -useContext x0 x1 x2 x3
    try clear_value x0 x1
    have h4 : Changes L s x2 := Changes.ite (quiescePage_changes (sub_of hL rfl) (enableWrite_changes (sub_of hL rfl) h0t _ _) _ _) (enableWrite_changes (sub_of hL rfl) (quiescePage_changes (sub_of hL rfl) h0t _ _) _ _)
    have h5 : Changes L s x3 := loanPage_changes (sub_of hL rfl) h4 _ _
    try clear_value x2 x3
    exact Changes.ite h5 (Changes.ite (commitPage_changes (sub_of hL rfl) h5 _) (State.clearRefusal_changes (sub_of hL rfl) h5 _))

theorem evtClear_changes {L : List Part} {s t0 : State} (hL : sub [.regs, .pins, .rv] L = true) (h0t : Changes L s t0) (a1 : Nat) (a2 : Sys2Proof.Word) :
    Changes L s (evtClear t0 a1 a2) := by
  unfold evtClear
  extract_lets -merge -useContext x0 x1
  have h2 : Changes L s x0 := State.setReg_changes (sub_of hL rfl) h0t _ _
  have h3 : Changes L s x1 := Changes.ite (State.setBit_changes (sub_of hL rfl) h2 _ _ _) h2
  try clear_value x0 x1
  exact Changes.ite (State.updateLines_changes (sub_of hL rfl) h3) h3

theorem evtWrite_changes {L : List Part} {s t0 : State} (hL : sub [.regs, .pins, .rv] L = true) (h0t : Changes L s t0) (a1 : Nat) (a2 : Sys2Proof.Word) :
    Changes L s (evtWrite t0 a1 a2) := by
  unfold evtWrite
  split
  · rename_i x0 heq1
    exact h0t
  · rename_i x2 x3 heq4
    refine Changes.ite ?_ ?_
    · exact h0t
    · split
      · rename_i x5 heq6
        exact Changes.foldl (fun x7 _ h8 => (evtClear_changes (sub_of hL rfl) h8 _ _)) h0t
      · rename_i x9 heq10
        exact evtClear_changes (sub_of hL rfl) h0t _ _

theorem pageEnableCheck_changes {L : List Part} {s t0 : State} (hL : sub [.regs, .stp, .chans, .eng, .clp, .ing, .etm, .ptp, .aud, .mon, .faults, .twin] L = true) (h0t : Changes L s t0) (a1 : Nat) :
    Changes L s (pageEnableCheck t0 a1) := by
  unfold pageEnableCheck
  split
  · rename_i x0 heq1
    exact h0t
  · rename_i x2 x3 heq4
    exact Changes.ite (enableWrite_changes (sub_of hL rfl) h0t _ _) h0t

theorem discardWrite_changes {L : List Part} {s t0 : State} (hL : sub [.regs, .bus] L = true) (h0t : Changes L s t0) :
    Changes L s (discardWrite t0) := by
  unfold discardWrite
  exact decodeErr_changes (sub_of hL rfl) h0t _

theorem doorbellWrite_changes {L : List Part} {s t0 : State} (hL : sub [.regs, .bus, .rv] L = true) (h0t : Changes L s t0) (a1 : Sys2Proof.Master) (a2 : Sys2Proof.Word) :
    Changes L s (doorbellWrite t0 a1 a2) := by
  unfold doorbellWrite
  extract_lets -merge -useContext x0 x1
  try clear_value x0 x1
  exact Changes.ite (doorbellBad_changes (sub_of hL rfl) h0t _) (doorbell_changes (sub_of hL rfl) h0t _ _ _ _)

theorem completeWrite_changes {L : List Part} {s t0 : State} (hL : sub [.regs, .pins, .rv, .bf] L = true) (h0t : Changes L s t0) (a1 : Sys2Proof.Master) (a2 : Option (Fin 64)) (a3 : Nat) (a4 : Sys2Proof.Word) :
    Changes L s (completeWrite t0 a1 a2 a3 a4) := by
  unfold completeWrite
  exact Changes.ite (complete_changes (sub_of hL rfl) h0t _ _ _ _) h0t

theorem lutGoWrite_changes {L : List Part} {s t0 : State} (hL : sub [.regs, .chans] L = true) (h0t : Changes L s t0) (a1 : Nat) (a2 : Sys2Proof.Word) :
    Changes L s (lutGoWrite t0 a1 a2) := by
  unfold lutGoWrite
  exact Changes.ite (lutPreset_changes (sub_of hL rfl) h0t _ _ _) (Changes.ite (lutRead_changes (sub_of hL rfl) (lutWrite_changes (sub_of hL rfl) h0t _) _) h0t)

theorem commandWrite_changes {L : List Part} {s t0 : State} (hL : sub [.regs, .bus, .pins, .stp, .chans, .eng, .mill, .clp, .ing, .etm, .ptp, .aud, .mon, .rv, .bf, .hbm, .mem, .cvu, .book, .faults, .twin, .boot, .sent] L = true) (h0t : Changes L s t0) (a1 : Sys2Proof.Master) (a2 : Sys2Proof.Machine.PageRef) (a3 : Nat) (a4 : Sys2Proof.Word) :
    Changes L s (commandWrite t0 a1 a2 a3 a4) := by
  unfold commandWrite
  extract_lets -merge -useContext x0 x1
  try clear_value x0
  have h2 : Changes L s x1 := Changes.ite (cvuGo_changes (sub_of hL rfl) h0t _ _) h0t
  try clear_value x1
  split
  · rename_i x3 heq4
    exact Changes.ite (swreset_changes (sub_of hL rfl) h0t _) (Changes.ite (rollbackCommit_changes (sub_of hL rfl) h0t) (Changes.ite (allotCompact_changes (sub_of hL rfl) h0t) h0t))
  · rename_i x5 heq6
    exact Changes.ite (jumpAccept_changes (sub_of hL rfl) h0t) h0t
  · rename_i x7 heq8
    exact Changes.ite (ptpJumpAccept_changes (sub_of hL rfl) h0t) h0t
  · rename_i x9 heq10
    exact Changes.ite (Changes.ite (orphanClr_changes (sub_of hL rfl) h0t) h0t) (completeWrite_changes (sub_of hL rfl) h0t _ _ _ _)
  · rename_i x11 heq12
    exact completeWrite_changes (sub_of hL rfl) h0t _ _ _ _
  · rename_i x13 heq14
    exact Changes.ite (doorbellWrite_changes (sub_of hL rfl) h0t _ _) (Changes.ite (Changes.ite (reeveTableWrite_changes (sub_of hL rfl) h0t _) (reeveTableRead_changes (sub_of hL rfl) h0t)) h0t)
  · rename_i x15 heq16
    exact Changes.ite (Changes.ite (doneYield_changes (sub_of hL rfl) h0t _) (threadDone_changes (sub_of hL rfl) h0t _)) (Changes.ite (load_changes (sub_of hL rfl) h0t _) h0t)
  · rename_i x17 heq18
    exact Changes.ite (State.clearRegs_changes (sub_of hL rfl) h0t _) h0t
  · rename_i x19 heq20
    exact Changes.ite (chrcStatClr_changes (sub_of hL rfl) h0t _) h0t
  · rename_i x21 heq22
    exact lutGoWrite_changes (sub_of hL rfl) h0t _ _
  · rename_i x23 heq24
    exact Changes.ite (Changes.ite (retrain_changes (sub_of hL rfl) h0t _ _) h0t) (Changes.ite (laneClr_changes (sub_of hL rfl) h0t _ _) h0t)
  · rename_i x25 heq26
    exact Changes.ite (Changes.ite (ingTableWrite_changes (sub_of hL rfl) h0t) (ingTableRead_changes (sub_of hL rfl) h0t)) h0t
  · rename_i x27 heq28
    exact Changes.ite (inStatClr_changes (sub_of hL rfl) h0t _) h0t
  · rename_i x29 heq30
    exact Changes.ite (Changes.ite (etmTableWrite_changes (sub_of hL rfl) h0t) (Changes.ite (etmTableReadClr_changes (sub_of hL rfl) h0t) (etmTableRead_changes (sub_of hL rfl) h0t))) h0t
  · rename_i x31 heq32
    exact Changes.ite (ethStatClr_changes (sub_of hL rfl) h0t _) h0t
  · rename_i x33 heq34
    exact Changes.ite (pchStatClr_changes (sub_of hL rfl) h0t _) h0t
  · rename_i x35 heq36
    exact Changes.ite (cvuAbort_changes (sub_of hL rfl) h2 _) h2
  · rename_i x37 heq38
    exact Changes.ite (watchStatClr_changes (sub_of hL rfl) h0t) h0t
  · rename_i x39 heq40
    exact Changes.ite (sextonStatClr_changes (sub_of hL rfl) h0t) h0t
  · rename_i x41 heq42
    exact Changes.ite (Changes.ite (audTableWrite_changes (sub_of hL rfl) h0t) (audTableRead_changes (sub_of hL rfl) h0t)) h0t
  · rename_i x43 heq44
    exact Changes.ite (Changes.ite (roleSwap_changes (sub_of hL rfl) h0t) (resyncGo_changes (sub_of hL rfl) h0t)) h0t
  · rename_i x45 heq46
    exact Changes.ite (Changes.ite (bookRead_changes (sub_of hL rfl) h0t) (snapWrite_changes (sub_of hL rfl) h0t)) h0t
  · rename_i x47 heq48 heq49 heq50 heq51 heq52 heq53 heq54 heq55 heq56 heq57 heq58 heq59 heq60 heq61 heq62 heq63 heq64 heq65 heq66 heq67 heq68 heq69
    exact h0t

theorem modeReqWrite_changes {L : List Part} {s t0 : State} (hL : sub [.regs, .stp, .chans, .book, .boot] L = true) (h0t : Changes L s t0) (a1 : Sys2Proof.Word) :
    Changes L s (modeReqWrite t0 a1) := by
  unfold modeReqWrite
  refine Changes.ite ?_ ?_
  · exact h0t
  · extract_lets -merge -useContext x0
    have h1 : Changes L s x0 := modeRequest_changes (sub_of hL rfl) h0t _ _
    try clear_value x0
    exact Changes.ite (modeChange_changes (sub_of hL rfl) h1) h1

theorem actRegWrite_changes {L : List Part} {s t0 : State} (hL : sub [.regs, .stp] L = true) (h0t : Changes L s t0) (a1 : Nat) (a2 : Nat) (a3 : Nat) (a4 : Sys2Proof.Word) :
    Changes L s (actRegWrite t0 a1 a2 a3 a4) := by
  unfold actRegWrite
  exact Changes.ite (actCtrlWrite_changes (sub_of hL rfl) h0t _ _) (Changes.ite (State.setBit_changes (sub_of hL rfl) h0t _ _ _) (State.setReg_changes (sub_of hL rfl) h0t _ _))

theorem rwWrite_changes {L : List Part} {s t0 : State} (hL : sub [.regs, .pins, .stp, .chans, .aud, .rv, .bf, .book, .boot] L = true) (h0t : Changes L s t0) (a1 : Sys2Proof.Machine.PageRef) (a2 : Nat) (a3 : Nat) (a4 : Sys2Proof.Word) :
    Changes L s (rwWrite t0 a1 a2 a3 a4) := by
  unfold rwWrite
  split
  · rename_i x0 heq1
    exact Changes.ite (modeReqWrite_changes (sub_of hL rfl) h0t _) (State.setReg_changes (sub_of hL rfl) h0t _ _)
  · rename_i x2 heq3
    exact Changes.ite (selectSource_changes (sub_of hL rfl) h0t _ _ _) (Changes.ite (actRegWrite_changes (sub_of hL rfl) h0t _ _ _ _) (State.setReg_changes (sub_of hL rfl) h0t _ _))
  · rename_i x4 heq5
    refine Changes.ite ?_ ?_
    · exact pendingWrite_changes (sub_of hL rfl) h0t _ _ _
    · refine Changes.ite ?_ ?_
      · exact pendingWrite_changes (sub_of hL rfl) h0t _ _ _
      · refine Changes.ite ?_ ?_
        · extract_lets -merge -useContext x6 x7 x8
          try clear_value x6 x7
          have h9 : Changes L s x8 := State.setReg_changes (sub_of hL rfl) h0t _ _
          try clear_value x8
          exact Changes.ite (State.updateLines_changes (sub_of hL rfl) h9) (Changes.ite (State.updateLines_changes (sub_of hL rfl) (sourceDeassert_changes (sub_of hL rfl) h9 _)) (State.updateLines_changes (sub_of hL rfl) (sourceAssertion_changes (sub_of hL rfl) h9 _)))
        · exact State.updateLines_changes (sub_of hL rfl) (State.setReg_changes (sub_of hL rfl) h0t _ _)
  · rename_i x10 heq11
    exact Changes.ite (Changes.ite (drain_changes (sub_of hL rfl) h0t _) (undrain_changes (sub_of hL rfl) h0t _)) (State.setReg_changes (sub_of hL rfl) h0t _ _)
  · rename_i x12 heq13
    extract_lets -merge -useContext x14
    have h15 : Changes L s x14 := State.setReg_changes (sub_of hL rfl) h0t _ _
    try clear_value x14
    split
    · rename_i x16 x17 heq18
      exact State.showRecon_changes (sub_of hL rfl) h15 _ _
    · rename_i x19 heq20
      exact h15
  · rename_i x21 heq22
    exact Changes.ite (lanePowerRequest_changes (sub_of hL rfl) h0t _ _) (State.setReg_changes (sub_of hL rfl) h0t _ _)
  · rename_i x23 heq24
    exact Changes.ite (cvuErr_changes (sub_of hL rfl) h0t _) (State.setReg_changes (sub_of hL rfl) h0t _ _)
  · rename_i x25 heq26
    exact Changes.ite (outputConfig_changes (sub_of hL rfl) h0t _ _) (State.setReg_changes (sub_of hL rfl) h0t _ _)
  · rename_i x27 heq28
    refine Changes.ite ?_ ?_
    · extract_lets -merge -useContext x29
      try clear_value x29
      exact State.setReg_changes (sub_of hL rfl) h0t _ _
    · exact State.setReg_changes (sub_of hL rfl) h0t _ _
  · rename_i x30 heq31 heq32 heq33 heq34 heq35 heq36 heq37 heq38 heq39
    exact State.setReg_changes (sub_of hL rfl) h0t _ _

theorem rowWrite_changes {L : List Part} {s t0 : State} (hL : sub [.regs, .bus, .pins, .stp, .chans, .eng, .mill, .clp, .ing, .etm, .ptp, .aud, .mon, .rv, .bf, .hbm, .mem, .cvu, .book, .faults, .twin, .boot, .sent] L = true) (h0t : Changes L s t0) (a1 : Sys2Proof.Master) (a2 : Sys2Proof.Machine.PageRef) (a3 : Nat) (a4 : Nat) (a5 : Sys2Proof.Machine.RegRow) (a6 : Sys2Proof.Word) (a7 : BitVec 4) :
    Changes L s (rowWrite t0 a1 a2 a3 a4 a5 a6 a7) := by
  unfold rowWrite
  split
  · rename_i x0 heq1
    exact h0t
  · rename_i x2 heq3
    exact rwWrite_changes (sub_of hL rfl) h0t _ _ _ _
  · rename_i x4 heq5
    refine Changes.ite ?_ ?_
    · exact State.refuse_changes (sub_of hL rfl) h0t _ _ _ _
    · extract_lets -merge -useContext x6
      have h7 : Changes L s x6 := State.setReg_changes (sub_of hL rfl) h0t _ _
      try clear_value x6
      exact Changes.ite (rasterWritten_changes (sub_of hL rfl) h7) h7
  · rename_i x8 heq9
    exact State.setReg_changes (sub_of hL rfl) h0t _ _
  · rename_i x10 heq11
    exact Changes.ite (commandWrite_changes (sub_of hL rfl) h0t _ _ _ _) (discardWrite_changes (sub_of hL rfl) h0t)
  · rename_i x12 heq13
    exact Changes.ite (commandWrite_changes (sub_of hL rfl) h0t _ _ _ _) (discardWrite_changes (sub_of hL rfl) h0t)

theorem offsetWrite_changes {L : List Part} {s t0 : State} (hL : sub [.regs, .bus, .pins, .stp, .chans, .eng, .mill, .clp, .ing, .etm, .ptp, .aud, .mon, .rv, .bf, .hbm, .mem, .cvu, .book, .faults, .twin, .boot, .sent] L = true) (h0t : Changes L s t0) (a1 : Sys2Proof.Master) (a2 : Sys2Proof.Machine.PageRef) (a3 : Nat) (a4 : Sys2Proof.Word) (a5 : BitVec 4) :
    Changes L s (offsetWrite t0 a1 a2 a3 a4 a5) := by
  unfold offsetWrite
  refine Changes.ite ?_ ?_
  · exact Changes.ite (ctrlWrite_changes (sub_of hL rfl) h0t _ _) h0t
  · refine Changes.ite ?_ ?_
    · exact evtClear_changes (sub_of hL rfl) h0t _ _
    · refine Changes.ite ?_ ?_
      · extract_lets -merge -useContext x0
        have h1 : Changes L s x0 := State.setReg_changes (sub_of hL rfl) h0t _ _
        try clear_value x0
        exact Changes.ite (State.updateLines_changes (sub_of hL rfl) h1) h1
      · refine Changes.ite ?_ ?_
        · exact h0t
        · split
          · rename_i x2 x3 heq4
            exact rowWrite_changes (sub_of hL rfl) h0t _ _ _ _ _ _ _
          · rename_i x5 heq6
            exact h0t

theorem gangWrite_changes {L : List Part} {s t0 : State} (hL : sub [.regs, .bus, .pins, .stp, .chans, .eng, .mill, .clp, .ing, .etm, .ptp, .aud, .mon, .rv, .bf, .hbm, .mem, .cvu, .book, .faults, .twin, .boot, .sent] L = true) (h0t : Changes L s t0) (a1 : Sys2Proof.Master) (a2 : Nat) (a3 : Nat) (a4 : Sys2Proof.Word) (a5 : BitVec 4) :
    Changes L s (gangWrite t0 a1 a2 a3 a4 a5) := by
  unfold gangWrite
  extract_lets -merge -useContext x0 x1
  try clear_value x0
  have hf1 : ∀ y2, Changes L s y2 → Changes L s (x1 y2) := by
    intro y2 h3
    unfold x1
    split
    · rename_i x4 x5 x6
      exact offsetWrite_changes (sub_of hL rfl) h3 _ _ _ _ _
    · rename_i x7
      exact h3
  try clear_value x1
  exact Changes.ite (Changes.foldl (fun x8 _ h9 => (offsetWrite_changes (sub_of hL rfl) h9 _ _ _ _ _)) h0t) (Changes.ite (Changes.ite (Changes.foldl (fun x10 _ h11 => (commandWrite_changes (sub_of hL rfl) h11 _ _ _ _)) h0t) (discardWrite_changes (sub_of hL rfl) h0t)) (Changes.ite (hf1 _ (Changes.foldl (fun x12 _ h13 => (State.setBit_changes (sub_of hL rfl) h13 _ _ _)) h0t)) (hf1 _ h0t)))

theorem busWrite_changes {L : List Part} {s t0 : State} (hL : sub [.regs, .bus, .pins, .stp, .chans, .eng, .mill, .clp, .ing, .etm, .ptp, .aud, .mon, .rv, .bf, .hbm, .mem, .cvu, .book, .faults, .twin, .boot, .sent] L = true) (h0t : Changes L s t0) (a1 : Sys2Proof.Master) (a2 : Nat) (a3 : Sys2Proof.Word) (a4 : BitVec 4) :
    Changes L s (busWrite t0 a1 a2 a3 a4) := by
  unfold busWrite
  refine Changes.ite ?_ ?_
  · exact h0t
  · refine Changes.ite ?_ ?_
    · exact h0t
    · refine Changes.ite ?_ ?_
      · exact discardWrite_changes (sub_of hL rfl) h0t
      · split
        · rename_i x0 heq1
          exact discardWrite_changes (sub_of hL rfl) h0t
        · rename_i x2 x3 heq4
          split
          · rename_i x5 heq6
            exact gangWrite_changes (sub_of hL rfl) h0t _ _ _ _ _
          · rename_i x7 heq8
            exact offsetWrite_changes (sub_of hL rfl) h0t _ _ _ _ _

theorem applyRecord_changes {L : List Part} {s t0 : State} (hL : sub [.regs, .bus, .pins, .stp, .chans, .eng, .mill, .clp, .ing, .etm, .ptp, .aud, .mon, .rv, .bf, .hbm, .mem, .cvu, .book, .faults, .twin, .boot, .sent] L = true) (h0t : Changes L s t0) (a1 : List (BitVec 26 × BitVec 32)) :
    Changes L s (applyRecord t0 a1) := by
  unfold applyRecord
  extract_lets -merge -useContext x0 x1 x2
  try clear_value x0 x2
  have h3 : Changes L s x1 := Changes.foldl (fun x4 _ h5 => (busWrite_changes (sub_of hL rfl) h5 _ _ _ _)) (Changes.set_boot (sub_of hL rfl) h0t _)
  try clear_value x1
  exact Changes.set_boot (sub_of hL rfl) h3 _

theorem config_changes {L : List Part} {s t0 : State} (hL : sub [.regs, .bus, .pins, .stp, .chans, .eng, .mill, .clp, .ing, .etm, .ptp, .aud, .mon, .rv, .bf, .hbm, .mem, .cvu, .book, .faults, .twin, .boot, .sent] L = true) (h0t : Changes L s t0) (a1 : List (BitVec 26 × BitVec 32)) (a2 : Nat) :
    Changes L s (config t0 a1 a2) := by
  unfold config
  refine Changes.ite ?_ ?_
  · extract_lets -merge -useContext x0
    have h1 : Changes L s x0 := applyRecord_changes (sub_of hL rfl) h0t _
    try clear_value x0
    exact Changes.ite (State.setMode_changes (sub_of hL rfl) (State.setN_changes (sub_of hL rfl) (setStage_changes (sub_of hL rfl) h1 _) _ _) _) h1
  · exact h0t

end Sys2Proof.Machine
end

