-- ==== Sys2Proof/Laws/Shared.lean ====
section
/-! SUPPORT. What Steeple's state changes, the DEGRADED causes, cleared lists of registers and the marking of ready rows leave and
write, register by register. -/

namespace Sys2Proof.Machine

open State

theorem reg_unitDegraded (s : State) (p a : Nat) (b : Bool) (h : a ≠ p + hStatus) : (s.unitDegraded p b).reg a = s.reg a := by
  simp [unitDegraded, reg_setBit, h]

theorem reg_unitsDegraded (l : List Nat) (b : Bool) : ∀ (s : State) (a : Nat), (∀ p ∈ l, a ≠ p + hStatus) →
    (l.foldl (fun t p => t.unitDegraded p b) s).reg a = s.reg a := by
  induction l with
  | nil => intro s a _; rfl
  | cons p l ih =>
    intro s a h
    rw [List.foldl_cons, ih _ _ (fun q hq => h q (List.mem_cons_of_mem _ hq)), reg_unitDegraded _ _ _ _ (h p (List.mem_cons_self ..))]

theorem reg_clearCause (s : State) (i a : Nat) (h0 : a ≠ Reg.watchDegrCause) (h1 : a ≠ Reg.watchGuarantee) (h2 : a ≠ Pg.watch + hEvt)
    (h : ∀ p ∈ causePages i, a ≠ p + hStatus) : (s.clearCause i).reg a = s.reg a := by
  unfold clearCause
  split
  · rw [reg_guarantee _ _ h1 h2, reg_unitsDegraded _ _ _ _ h, reg_setBit_other _ _ _ h0]
  · exact reg_guarantee _ _ h1 h2

theorem bit_clearCause (s : State) : (s.clearCause 7).bit Reg.watchDegrCause 7 = false := by
  unfold clearCause
  split
  · rw [bit, reg_guarantee _ _ (by simp) (by simp), reg_unitsDegraded _ _ _ _ (by simp [causePages]), reg_setBit_same, getLsbD_putBit _ _ _ _ (by omega), if_pos rfl]
  · rename_i h
    rw [bit, reg_guarantee _ _ (by simp) (by simp)]; simpa [bit] using h

theorem clearCause_stp (s : State) (i : Nat) : (s.clearCause i).stp = s.stp := by
  exact (clearCause_changes (L := [.regs]) rfl (Changes.refl _ s) i).same .stp (by decide)

theorem reg_setSt (s : State) (v a : Nat) (h : a ≠ Reg.stpState) : (setSt s v).reg a = s.reg a := by
  unfold setSt; dsimp only; split <;> exact reg_setF_other _ _ _ _ h

theorem reg_setSt_same (s : State) (v : Nat) : (setSt s v).reg Reg.stpState = setFld (s.reg Reg.stpState) 1 0 v := by
  unfold setSt; dsimp only; split <;> exact reg_setF_same _ _ _ _ _

theorem setSt_stp (s : State) (v : Nat) : (setSt s v).stp = s.stp := by
  unfold setSt; dsimp only; split <;> simp

theorem reg_enterHoldover (s : State) (a : Nat) (h : a ≠ Reg.stpState) (h2 : a ≠ Reg.stpHoldFrames) (h3 : a ≠ Pg.stp + hEvt) :
    (enterHoldover s).reg a = s.reg a := by
  unfold enterHoldover; dsimp only
  rw [reg_evt_other _ h3, reg_setReg_other _ _ h2, reg_setSt _ _ _ h]; rfl

theorem reg_holdOver (s : State) (a : Nat) (h : a ≠ Reg.stpState) (h2 : a ≠ Reg.stpHoldFrames) (h3 : a ≠ Pg.stp + hEvt) :
    (holdOver s).reg a = s.reg a := by
  unfold holdOver; split
  · exact reg_enterHoldover s a h h2 h3
  · split <;> rfl

theorem reg_holdOver_state (s : State) : (holdOver s).reg Reg.stpState =
    if s.stpSt = 2 then setFld (s.reg Reg.stpState) 1 0 3 else s.reg Reg.stpState := by
  unfold holdOver; split
  · unfold enterHoldover; dsimp only
    rw [reg_evt_other _ (by simp), reg_setReg_other _ _ (by simp), reg_setSt_same]; rfl
  · split <;> rfl

theorem holdOver_pos (s : State) : (holdOver s).stp.pos = s.stp.pos := by
  unfold holdOver; split
  · unfold enterHoldover; dsimp only; simp [setSt_stp]
  · split <;> rfl

theorem holdOver_faults (s : State) : (holdOver s).faults = s.faults ∧ (holdOver s).stp.timeNs = s.stp.timeNs := by
  constructor
  · exact (holdOver_changes (L := [.regs, .stp, .chans]) rfl (Changes.refl _ s)).same .faults (by decide)
  · unfold holdOver; split
    · unfold enterHoldover; dsimp only; simp [setSt_stp]
    · split <;> rfl

theorem reg_slewTo (s : State) (e p : Int) (a : Nat) : (slewTo s e p).reg a = s.reg a := rfl

theorem slewTo_pos (s : State) (e p : Int) : (slewTo s e p).stp.pos = s.stp.pos := rfl

theorem reg_enterLocked (s : State) (a : Nat) (h : a ≠ Reg.stpState) (h3 : a ≠ Pg.stp + hEvt) (h4 : a ≠ Reg.watchDegrCause)
    (h5 : a ≠ Reg.watchGuarantee) (h6 : a ≠ Pg.watch + hEvt) (h7 : a ≠ Pg.stp + hStatus) : (enterLocked s).reg a = s.reg a := by
  unfold enterLocked
  rw [reg_clearCause _ _ _ h4 h5 h6 (by simpa [causePages] using h7), reg_evt_other _ h3, reg_setBit_other _ _ _ h, reg_setSt _ _ _ h]

theorem reg_enterLocked_state (s : State) : (enterLocked s).reg Reg.stpState = putBit (setFld (s.reg Reg.stpState) 1 0 2) 4 false := by
  unfold enterLocked
  rw [reg_clearCause _ _ _ (by simp) (by simp) (by simp) (by simp [causePages]), reg_evt_other _ (by simp), reg_setBit_same, reg_setSt_same]

theorem enterLocked_pos (s : State) : (enterLocked s).stp.pos = s.stp.pos := by
  unfold enterLocked
  rw [clearCause_stp]; simp [setSt_stp]

theorem evt_enterLocked (s : State) : (enterLocked s).bit (Pg.stp + hEvt) 3 = true := by
  unfold enterLocked
  rw [bit, reg_clearCause _ _ _ (by simp) (by simp) (by simp) (by simp [causePages]), reg_evt, if_pos rfl, getLsbD_putBit _ _ _ _ (by omega), if_pos rfl]

theorem reg_clearRegs (l : List Nat) : ∀ (s : State) (a : Nat), (s.clearRegs l).reg a = if a ∈ l then 0 else s.reg a := by
  induction l with
  | nil => intro s a; rfl
  | cons b l ih =>
    intro s a
    have e : s.clearRegs (b :: l) = (s.setReg b 0).clearRegs l := rfl
    rw [e, ih, reg_setReg]
    by_cases h : a = b <;> by_cases h2 : a ∈ l <;> simp [h, h2]

theorem clearRegs_fold (f : Nat → List Nat) (l : List Nat) : ∀ (s : State) (a : Nat),
    (l.foldl (fun t e => t.clearRegs (f e)) s).reg a = if a ∈ l.flatMap f then 0 else s.reg a := by
  induction l with
  | nil => intro s a; rfl
  | cons b l ih =>
    intro s a
    rw [List.foldl_cons, ih, reg_clearRegs]
    by_cases h : a ∈ f b <;> by_cases h2 : a ∈ l.flatMap f <;> simp [h, h2]

theorem setBit_fold (f : Nat → Nat) (i : Nat) (hi : i < 32) (v : Bool) (l : List Nat) : ∀ (s : State) (a : Nat),
    (a ∉ l.map f → (l.foldl (fun t e => t.setBit (f e) i v) s).reg a = s.reg a) ∧
    (a ∈ l.map f ∨ s.bit a i = v → (l.foldl (fun t e => t.setBit (f e) i v) s).bit a i = v) := by
  induction l with
  | nil => intro s a; simp
  | cons b l ih =>
    intro s a
    rw [List.foldl_cons]
    refine ⟨?_, ?_⟩
    · intro h; simp only [List.map_cons, List.mem_cons, not_or] at h
      rw [(ih _ a).1 h.2, reg_setBit_other _ _ _ h.1]
    · intro h
      apply (ih _ a).2
      by_cases h2 : a ∈ l.map f
      · exact .inl h2
      · right
        by_cases h3 : a = f b
        · subst h3; exact bit_setBit_same _ _ _ hi
        · rw [bit, reg_setBit_other _ _ _ h3]
          rcases h with h | h
          · simp only [List.map_cons, List.mem_cons] at h; exact absurd h (by simp [h3, h2])
          · exact h

theorem foldl_inv {α β : Type} (P : β → Prop) (f : β → α → β) (l : List α) : ∀ b, P b → (∀ b a, P b → P (f b a)) → P (l.foldl f b) := by
  induction l with
  | nil => intro b h _; exact h
  | cons a l ih => intro b h hf; exact ih _ (hf _ _ h) hf

theorem noteReady_keeps (s : State) (n : Nat) : (∀ m, m ≠ n → (s.noteReady n).chan m = s.chan m) ∧
    ((s.noteReady n).chan n).lines = (s.chan n).lines ∧ ((s.noteReady n).chan n).frame = (s.chan n).frame ∧
    ((s.noteReady n).chan n).stages = (s.chan n).stages ∧ ((s.noteReady n).chan n).gln = (s.chan n).gln := by
  unfold noteReady
  dsimp only
  split
  · simp
  · apply foldl_inv (fun t : State => (∀ m, m ≠ n → t.chan m = s.chan m) ∧ (t.chan n).lines = (s.chan n).lines ∧ (t.chan n).frame = (s.chan n).frame ∧
      (t.chan n).stages = (s.chan n).stages ∧ (t.chan n).gln = (s.chan n).gln)
    · simp
    · intro b r h
      refine ⟨fun m hm => ?_, ?_, ?_, ?_, ?_⟩
      · rw [setChan_chan_other _ _ hm, h.1 m hm]
      all_goals simp [h]

theorem countLines_chan (s : State) (n a b c m : Nat) : (countLines s n a b c).chan m = s.chan m := by unfold countLines; split <;> simp

end Sys2Proof.Machine
end

