-- ==== Sys2Proof/Tests/Slice0.lean ====
section
/-! SUPPORT. Tests. First values the manual prints; then, for each check of WellFormed.lean, a command that it refuses; then small
states and, for each statement with hypotheses, operands and a state that meet the hypotheses of each of its clauses. -/

namespace Sys2Proof.Tests

open Sys2Proof.Machine Sys2Proof.Machine.State

/-! ### Values that the manual prints -/

/-- "123456789" in ASCII (R358). -/
def digits9 : List Nat := [0x31, 0x32, 0x33, 0x34, 0x35, 0x36, 0x37, 0x38, 0x39]
set_option maxRecDepth 20000 in
theorem test_crc32_R358 : crc32 digits9 = 0xCBF43926 := by decide
set_option maxRecDepth 20000 in
theorem test_crc64_R358 : crc64 digits9 = 0x62EC59E3F1A4F00A := by decide
/-- The standard groups of K28.5 (R176), D21.5 and D10.2: each decodes to its byte, and K28.5 of the other column is a disparity error. -/
theorem test_line_code : laneChar ⟨0b0011111010, false⟩ = ⟨0xBC, true, false, false⟩ ∧ laneChar ⟨0b1100000101, true⟩ = ⟨0xBC, true, false, false⟩ ∧
    laneChar ⟨0b1100000101, false⟩ = ⟨0xBC, true, false, true⟩ ∧ laneChar ⟨0b1010101010, true⟩ = ⟨0xB5, false, false, false⟩ ∧
    laneChar ⟨0b0101010101, false⟩ = ⟨0x4A, false, false, false⟩ ∧ (laneChar ⟨0b1111111111, false⟩).violation = true := by decide
/-- The example of R253: 1,372 ns of residence add 0x055C_0000 to correctionField. -/
theorem test_residence : (natOf (bytesAt (addResidence (List.replicate 100 0) (1372 * 65536)) ((rxHead (List.replicate 100 0)).l4 + 16) 8)) =
    89915392 := by decide
/-- The classes that 21_register_pages.md prints. -/
theorem test_page_class : (State.reset.reg (Pg.chcomp 0)).toNat / 0x100000 = 0x082 ∧ (State.reset.reg (Pg.eport 0)).toNat / 0x100000 = 0x181 ∧
    (State.reset.reg (Pg.pch 0)).toNat / 0x100000 = 0x201 := by decide
def sOn : State := ((State.reset.setReg Reg.watchMode 1).setReg (Pg.stp + hCtrl) 1).setReg Reg.stpRaster 0x11940001
def nextOf : Out → State
  | .next t => t
  | _ => State.reset
/-- Deployment A: 59.94 frames/s of 4,500 lines. The worked example of R32: armed at frame 5,000 line 2,000 for frame 4,990 line 100
with a period of one frame, ACT5 skips 11 points, and its next point is frame 5,001 line 100. -/
def sAct5 : State :=
  let s := ((sOn.setReg (Reg.stpActTgtLo 5) 0x01900000).setReg (Reg.stpActTgtHi 5) 4990).setReg (Reg.stpActPeriodHi 5) 1
  { s with stp := { s.stp with pos := BitVec.ofNat 64 (5000 * 2 ^ 32 + 2000 * 2 ^ 18) } }
theorem test_late_periodic_arm : (nextOf (exec (.actionArm 5 1) sAct5)).getF (Reg.stpActStatus 5) 31 16 = 11 ∧
    actNext (nextOf (exec (.actionArm 5 1) sAct5)) 5 = BitVec.ofNat 64 (5001 * 2 ^ 32 + 100 * 2 ^ 18) := by decide

/-! ### Commands that WellFormed refuses, one for each of its checks -/

theorem wf_refuses_sourceSelect : Instr.wf (.sourceSelect 0 false 0) = false := by decide
theorem wf_refuses_gleanerRecords : Instr.wf (.gleanerRecordsReady 0 512) = false := by decide
theorem wf_refuses_compositeLine : Instr.wf (.compositeLine 0 16384 []) = false := by decide
theorem wf_refuses_ladderLine : Instr.wf (.ladderLine 0 0 16384) = false := by decide
theorem wf_refuses_lutPreset : Instr.wf (.lutPresetGo 0 3 false) = false := by decide
theorem wf_refuses_sweepPoints : Instr.wf (.laneAdaptComplete 0 0 (List.replicate 17 ⟨0, 1, 1, false⟩) []) = false := by decide
theorem wf_refuses_dataRow : Instr.wf (.clpDataRow 0 false []) = false := by decide
theorem wf_refuses_dataRowLink : Instr.wf (.clpDataRow 0 true (List.replicate 8 ⟨0, false⟩)) = false := by decide
theorem wf_refuses_bamSend : Instr.wf (.bamSend 8 true) = false := by decide
theorem wf_refuses_bamReceived : Instr.wf (.bamReceived 0 false [] 0) = false := by decide
theorem wf_refuses_narrow : Instr.wf (.narrow 3 true 255 0) = false := by decide
theorem wf_refuses_narrowAck : Instr.wf (.narrowAck 3 true 255 0) = false := by decide
theorem wf_refuses_status : Instr.wf (.status 3 true none) = false := by decide
theorem wf_refuses_bundleDown : Instr.wf (.clpBundleDown 3 true) = false := by decide
theorem wf_refuses_packet : Instr.wf (.clpPacket 0 false []) = false := by decide
theorem wf_refuses_ancillary (l : List (BitVec 10)) (h : 65536 ≤ l.length) : (Instr.ancillaryPacket 0 0 l).wf = false := by
  simp [Instr.wf]; omega
theorem wf_refuses_format : Instr.wf (.formatPacket 0 []) = false := by decide
theorem wf_refuses_st2110 : Instr.wf (.st2110Packet 0 false 0 0 [⟨16384, false, 0, []⟩] 0 0) = false := by decide
theorem wf_refuses_lineMissing : Instr.wf (.lineMissing 0 16384 0) = false := by decide
theorem wf_refuses_monitorLine : Instr.wf (.monitorLine 16384 []) = false := by decide
theorem wf_refuses_doorbell : Instr.wf (.doorbellReserved .host 4) = false := by decide
theorem wf_refuses_belfryParity : Instr.wf (.belfryParity ⟨65, 0⟩) = false := by decide
theorem wf_refuses_bar2Write : Instr.wf (.bar2Write 0xFFFFFFF [1, 2]) = false := by decide
theorem wf_refuses_bar2Read : Instr.wf (.bar2Read 0 0) = false := by decide
theorem wf_refuses_retrain : Instr.wf (.retrainComplete 0 true true) = false := by decide
theorem wf_refuses_hbmParity : Instr.wf (.hbmParity ⟨32, 0⟩) = false := by decide
theorem wf_refuses_mtxParity : Instr.wf (.mtxParity ⟨23, 0⟩) = false := by decide
theorem wf_refuses_decodeErr : Instr.wf (.decodeErr .host 0 0 false) = false := by decide
theorem wf_refuses_sliceCrc : Instr.wf (.sliceCrc []) = false := by decide
theorem wf_refuses_imageVerify : Instr.wf (.imageVerify [0x48, 0x49, 0x4B, 0x53] [] []) = false := by decide
theorem wf_refuses_config : Instr.wf (.config [(2, 0)] 0) = false := by decide
theorem wf_refuses_registerWrite : Instr.wf (.registerWrite .host 2 0 15) = false := by decide
theorem wf_refuses_bar2Write_empty : Instr.wf (.bar2Write 0 []) = false := by decide
theorem wf_refuses_imageLoad (l : List (BitVec 8)) (h : 62914560 < l.length) : (Instr.imageLoad l).wf = false := by
  simp [Instr.wf]; omega
theorem wf_admits : Instr.wf (.sourceSelect 1 false 0) = true ∧ Instr.wf (.clpDataRow 9 true (List.replicate 8 ⟨0, false⟩)) = true ∧
    Instr.wf (.bar2Read 0xFFFFFFC 4) = true := by decide

/-! ### Small states -/

def sCom : State := State.reset.setReg Reg.watchMode 1
def sRun : State := sCom.setReg (Pg.stp + hCtrl) 1
def sSvc : State := sRun.setReg Reg.watchMode 2
/-- Steeple runs on REF_FRAME_IN in a state of R19. -/
def sRef (st : Nat) : State := ((sRun.setReg Reg.stpSrc 1).setN Reg.stpState st).setReg Reg.stpJumpLimit 0xFFFFFFFF
def someCfg : ChanCfg := chanCfg State.reset 0
def somePlace : Place := ⟨[], (256, 1), [], 0, 0, 0, 0, 0, 0, someCfg, 0⟩
/-- SERVICE, Steeple running, channel `n` enabled and PLACED with a record. -/
def sChan (n : Nat) (c : Chan) : State :=
  (((sSvc.setReg (Pg.ch n + hCtrl) 1).setReg (Reg.chAllotState n) 2)).setChan n c
/-- A rotation point with every engine able to lend. -/
def sRot : State :=
  let s := (sRun.setReg (Pg.sexton + hCtrl) 1).setReg (Pg.ee 0 + hCtrl) 9
  { s with eng := { s.eng with loanPass := true } }
/-- A 64 × 64 rendition with CTUs of 32. -/
def rendT : RendCfg :=
  { r := 0, source := 0, refill := false, w := 64, h := 64, codec := 0, profile := 0, tier := 0, level := 0, ctu := 32, search := 0
    srh := 0, srv := 0, refs := 1, sliceRows := 1, gopLen := 1, bitrate := 1000, peak := 0, window := 1
    refresh := 0, qp := 0x00330A1E, aq := 0, format := 0, first := 0, coding := [], words := [] }
def cfgT (n : Nat) : ChanCfg :=
  { n := n, w := 64, h := 64, c422 := false, deep := false, interl := false, div := 1, phase := 0, num := 60, den := 1, lines := 90
    cls := 0, par := 1, pad := 0, input := 0, grant := 1, rends := [rendT], stages := [], total := 4500, gln := 0, ctu0 := 32, pixel := 0
    layers := [], latch := 0, filters := [] }
def placeT (n : Nat) : Place :=
  ⟨[⟨0, 0, [0], true, false, 1, false⟩], (256, 1), [0], 1, 1, 0, 0, 90, 0, cfgT n, 0⟩
/-- Channel `n` runs its first frame on slot 0. -/
def chanT (n : Nat) : Chan := { Chan.init with place := some (placeT n), running := true, frame := 1 }
def slotT (n : Nat) (j : Option Job) : Slot := { Slot.init 0 with shared := true, ctxs := [⟨0, n, 0, 0, false⟩], job := j }
def sCoding (n : Nat) : State := (sChan n (chanT n)).setSlot 0 (slotT n none)
/-- CTU row 0 of channel `n` is ready on slot 0. -/
def sReady (n : Nat) : State := (sChan n { chanT n with ready := [⟨0, 0, 0, 0⟩] }).setSlot 0 (slotT n none)
def jobT (n : Nat) : Job := ⟨0, n, 0, 0, 0, 0, 0, 0, 0, 0, 0, 0⟩
def headT : SliceHead := ⟨.trail, 1, 0, 0, [0], [], none, none, none, none, none, false, 0, 0, 1⟩
def tileT : TileRc := ⟨1000, 10000, 100, 0, 0, 2, 0, 0, [], false, 0, some headT, []⟩
def picT : PicInfo := ⟨0, 0, .trail, false, false, 0, [], [], none, false, [], [], 0, [], none, none, 0, (0, 0)⟩
def unitT : UnitRc := ⟨0, 0, 100, 10000, 30, 0, 1, [tileT]⟩
/-- CTU row 0 of channel `n` is in coding on slot 0. -/
def sJob (n : Nat) : State :=
  (sChan n { chanT n with rc := [(0, { RcSt.init with units := [unitT], pics := [picT] })] }).setSlot 0 (slotT n (some (jobT n)))
/-- Lines 0 to 31 of input 0 have landed, and channel `n`, which shows it, runs its first frame. -/
def sGln (n : Nat) : State :=
  setInp (sCoding n) 0 { Inp.init with land := (List.range 32).map (fun l => (l, some 1)) }
/-- Steeple and channel `n` run; a commit that landed at the start of the frame is pending. -/
def sCommit (n : Nat) : State := (sCoding n).setReg (Reg.chcompCommitStat n) 1
/-- Layer 7 of channel `n` is live and its input has sent nothing. -/
def sLive (n : Nat) : State :=
  sChan n { chanT n with place := some { placeT n with cfg := { cfgT n with layers := [0, 0, 0, 0, 0, 0, 0, 3] } } }
/-- Channel `n` has composited its picture, and ladder stage 0 halves it. -/
def sLadder (n : Nat) : State :=
  sChan n { chanT n with lines := 64, place := some { placeT n with cfg := { cfgT n with stages := [(true, 32, 32)] } } }
/-- A unit of one payload waits for its release. -/
def payT : PayOut := ⟨[1, 2], 5, 0, 0, true, false, true, true, [[1, 2]]⟩
/-- Pair 2 runs the frame thread of channel `n`. -/
def sFrameThread (n : Nat) : State :=
  (sChan n { chanT n with frame := 2 }).setPair 2 { PairSt.init with running := some (256 + 16 * n) }
/-- Bundle `n` is enabled with eight DATA lanes in CDR. -/
def sClp (n : Nat) : State :=
  (List.range 8).foldl (fun t p => t.setN (Reg.clpLaneState n p) 0x42)
    ((sCom.setReg (Pg.clp n + hCtrl) 1).setReg (Pg.stp + hCtrl) 1)
/-- Bundle `n` is UP on eight ACTIVE DATA lanes. -/
def sClpUp (n : Nat) : State :=
  ((List.range 8).foldl (fun t p => t.setN (Reg.clpLaneState n p) 0x45) (sClp n)).setReg (Reg.clpLinkState n) 0x00FF0002
/-- Input 5 is OK on bundle 3, 64 × 64 at 60 frames/s of 100 lines, and feeds channel 3. -/
def sIn : State :=
  (((((((sClpUp 3).setReg (Pg.inp 5 + hCtrl) 1).setReg (Reg.inpState 5) 2).setReg (Reg.inpSrc 5) 0x31).setReg (Reg.inpGeom 5) 0x00400040).setReg
    (Reg.inpTiming 5) 100).setReg (Reg.inpFps 5) 0x0010003C).setChan 3 { chanT 3 with place := some { placeT 3 with cfg := { cfgT 3 with input := 5 } } }
/-- An input whose meters are full. -/
def inpFull : Inp := { Inp.init with meters := (⟨64000000, 64000000, 0⟩, ⟨64000000, 64000000, 0⟩) }
/-- Input 5 receives from the network on both paths. -/
def sNet : State :=
  setInp (((sIn.setReg (Reg.inpSrc 5) 0x30003).setReg (Reg.inpCbs 5) 8000).setReg (Reg.inpPbs 5) 8000) 5 inpFull
/-- Its frame in progress began at Steeple frame 0 of a 60 frames/s raster. -/
def sNetAt : State := setInp (sNet.setReg Reg.stpRaster 0x00640004) 5 { inpFull with startAt := some 0 }
/-- The same within the lines before the next frame. -/
def sNetAhead : State := { sNetAt.setReg (Reg.inpPdMax 5) 0x07D00000 with stp := { sNetAt.stp with pos := State.posOf 0 (90 * 262144) } }
/-- An empty format packet with its CRC. -/
def fmtPacket : List (BitVec 8) :=
  [4, 0, 0, 0, 0, 0, 0, 0, 147, 209, 104, 225]
/-- The groups of data byte 7 and of EOP at negative running disparity. -/
def group7 : LaneGroup := ⟨BitVec.ofNat 10 (dataGroup false 7), false⟩
def groupEop : LaneGroup := ⟨0b1011101000, false⟩
/-- A packet stands on the link of bundle 3. -/
def sPacket (l : List (BitVec 8)) : State := setLink sIn 6 { Link.init with packet := l }
/-- A forwarded frame and a flow's copy that wait for port 0. -/
def cpyT : Copy := ⟨0, false, 0, 0, 0, 64, 0, true, none, false, List.replicate 64 7⟩
def cpyF : Copy := ⟨7, false, 0, 2, 0, 64, 0, false, none, false, []⟩
/-- Port 0 is up with one copy in its queue. -/
def sPort (c : Copy) : State :=
  let s := ((sRun.setReg (Pg.eth 0 + hCtrl) 1).setReg (Reg.ethLink 0) 0x11).setReg (Reg.ethMtu 0) 9216
  { s with etm := { s.etm with queue := [c] } }
/-- The copy has waited for more than one Steeple line. -/
def sLate : State :=
  let s := setNodeEntry (sPort cpyF) 0 [0x80010000, 0, 0, 0, 0, 0, 0, 0]
  { s with stp := { s.stp with pos := State.posOf 0 (2 * 262144) } }
/-- A PTP frame to a UDP port, with a message of a type: domain 127, correction 5, and 44 bytes. -/
def frameT (dport type : Nat) : List (BitVec 8) :=
  (datagramBytes ⟨5, 0, true, none, false, 0, 64, [10, 0, 0, 1], [224, 0, 1, 129], dport, dport⟩
    (ptpBytes ⟨type, 127, 7, 5, 0, 9, 1, 1, 0⟩ (ptpStamp 0))).map (BitVec.ofNat 8)
/-- ETHA is the slave port in SLAVE; a Delay_Req 7 has left at 3 ms and a Sync has given t1 and t2. -/
def sSlave (recent : List Int) : State :=
  let s := (((sCom.setReg (Pg.eth 0 + hCtrl) 1).setReg (Pg.ptp + hCtrl) 1).setReg Reg.ptpPortState 9)
  { s with ptp := { s.ptp with reqs := [(7, 196608000000)], lastSync := some (65536000, 131072000), recent := recent } }
/-- ETHA is a PTP master. -/
def sMaster : State :=
  let s := ((sCom.setReg (Pg.eth 0 + hCtrl) 1).setReg (Pg.ptp + hCtrl) 1).setReg Reg.ptpCfg 0xF0
  { s with ptp := { s.ptp with master := 15 } }
/-- AUD is enabled; slot 0 binds the source that `w` names; input 5 is OK. -/
def sAud (w : Word) : State :=
  let s := sIn.setReg (Pg.aud + hCtrl) 1
  { s with aud := { s.aud with slots := Store.put (fun _ => (0 : Word)) [] 0 w } }
/-- Network flow 9 has one channel, bound to slot 0. -/
def sFlow : State :=
  let s := sAud 0x904
  { s with aud := { s.aud with flows := Store.put (fun _ => words8) [] 9 [9, 0, 0, 0, 0, 0, 0, 0] } }
/-- Channel 3 has completed its frame 0; the grid ran through it. -/
def sPes : State :=
  let s := (sAud 0).setReg (Reg.chaudS302 3 1) 1
  let s := s.setChan 3 { chanT 3 with starts := [0] }
  { s with aud := { s.aud with grid := 11, grids := [(11, State.posOf 1 0), (10, 0)] } }
/-- Channel 3 has an AES67 stream with the six samples of a packet. -/
def sRtp : State :=
  let s := (sAud 0).setReg (Reg.chaudAesCtrl 3 1) 7
  let s := s.setChan 3 { chanT 3 with starts := [0] }
  { s with aud := { s.aud with grid := 15, grids := [(15, 5), (14, 4), (13, 3), (12, 2), (11, 1), (10, 0)] } }
/-- The monitor head runs a 64 × 64 raster of 90 lines with a commit pending. -/
def sMon : State :=
  let s := (((((sClpUp 9).setReg (Pg.mon + hCtrl) 3).setReg Reg.monRaster 0x00400040).setReg Reg.monTiming 0x0001005A).setReg Reg.monCommitStat 1).setReg Reg.stpRaster 0x11940004
  { s with mon := { s.mon with inFrame := true, crc := 0xFFFFFFFF } }
/-- Thread 7 is in state `st`, and one doorbell waits. -/
def sThr (st : Nat) (b : Bell) : State :=
  let s := sCom.setThread 7 { Thread.init with state := st, aff := 255, en := true }
  { s with rv := { s.rv with fifo := [b] } }
/-- Edge source 64 pends, enabled for pair 2. -/
def sBell : State := ((sCom.setReg (srcCfg 64) 0x100).setPending 64 true).setReg (Reg.bellEnableLo 1 2) 1
/-- Controller 4 is ACTIVE with a deadline request. -/
def sPch : State := setPch (sCom.setReg (Reg.pchPstate 4) 1) 4 { PchSt.init with queue := [(⟨38, 64, 0, false⟩, 0)] }
/-- A snapshot line and a Book that has staged it. -/
def stagedT : Staged := ⟨1, 5, ⟨2, 0, 0, 5, List.replicate 48 0, 0, 0⟩, false⟩
def sBook : State := { sCom with book := { sCom.book with staged := [stagedT] } }
/-- Position 5 of area 1 holds a line of the sequence that RD_SEQ names; `good`: both of its checks are right. -/
def sHeld (good : Bool) : State :=
  let l := sealLine ⟨2, 0, 0, 5, [], 0, 0⟩ 5
  let s := (sCom.setReg Reg.pbookRdArea 1).setReg Reg.pbookRdSeq 5
  { s with regs := (Reg.pbookAreaHead 1, 6) :: s.regs, book := { s.book with count := [(1, 6)], lines := [(lineKey 1 5, if good then l else { l with chkA := l.chkA + 1 })] } }
/-- Channel 3's record period is over. -/
def sAir : State :=
  (sRun.setReg Reg.ptpMapLo 1000).setChan 3 { chanT 3 with startFr := 0, air := { AirSt.init with sec := some 0 } }
/-- The Sexton is enabled and every unit lends. -/
def sTest : State :=
  (List.range 10).foldl (fun t n => t.setReg (Pg.clp n + hCtrl) 8)
    ((((sCom.setReg (Pg.sexton + hCtrl) 1).setReg (Pg.mp + hCtrl) 8).setReg (Pg.hbm + hCtrl) 8).setReg (Pg.mtx + hCtrl) 8)
/-- The tests of Table 18-2 pass. -/
def sTwin0 : State :=
  let s := ((((sRun.setReg (Pg.clp 8 + hCtrl) 1).setReg (Reg.clpCfg 8) 0x00087F00).setReg Reg.stpSrc 1).setReg Reg.stpState 2).setReg Reg.stileBeaconDst 1
  let s := (s.setReg Reg.stileBeaconPort 0x00010001).setReg Reg.stileBeaconNh 4
  { s with etm := { s.etm with hops := Store.put (fun _ => words8) [] 4 [0, 0x80000000, 0, 0, 0, 0, 0, 0] } }
/-- STILE is enabled in step `st` (1 HELLO, 2 IN_STEP) with the Stile route up in step, Steeple locked to REF_FRAME_IN. -/
def sTwin (st : Nat) : State :=
  (sTwin0.setReg (Pg.stile + hCtrl) 1).setN Reg.stileState (if st = 2 then 0x12 else st)
/-- A SWAP of frame 9 as a CLP packet, and a packet on CLP8. -/
def swapPacket : List (BitVec 8) := (clpBytes 0x15 0 0 [9, 0, 0, 0]).map (BitVec.ofNat 8)
def sStile (l : List (BitVec 8)) : State := setLink ((sTwin 2).setReg (Reg.clpLinkState 8) 0x7F0002) 16 { Link.init with packet := l }
def recT : CrcRec := ⟨3, 0, 0, 0, false, 0, 7⟩
/-- A resolution of that slice is under way on engine 33. -/
def sResolve : State :=
  let s := sTwin 2
  { s with twin := { TwinSt.init with resolving := some ⟨3, 0, 0, 0, 33, 0, 0⟩, diverged := [3] } }
/-- Boot stage `k` is under way. -/
def sBoot (k : Nat) : State := State.reset.setN Reg.devBootStat k
/-- The image's rollback count is above the fuses'. -/
def sFuse : State := { sCom with regs := (Reg.devFuseStat, 0x30000) :: (Reg.devImgVer, 7) :: sCom.regs }

/-! ### The hypotheses of each clause can be met -/

theorem witness_StepKeepsCanonicalForms : ∃ s t : State, s.Canonical ∧ step s = .next t :=
  ⟨State.reset, _, ⟨by decide, by decide⟩, rfl⟩
theorem witness_StepRunsTheFrontCommand : ∃ s : State, s.pending = [] := ⟨State.reset, rfl⟩
theorem witness_EveryCommandChangesOnlyItsParts : ∃ (c : Instr) (s t : State), exec c s = .next t ∧ Part.mem ∉ touches c :=
  ⟨.steepleDisable, State.reset, _, rfl, by decide⟩

set_option maxRecDepth 20000 in
theorem witness_PositionReadLatches :
    (∃ (m : Master) (s : State), reaches s m Pg.stp = true) :=
  ⟨.cc 7, State.reset, by decide⟩

set_option maxRecDepth 20000 in
theorem witness_SteepleEnableAndDisable :
    (∃ (s : State), s.answers Pg.stp = true ∧ s.enabled Pg.stp = false ∧ rasterOk s = true) ∧
    (∃ (s : State), s.answers Pg.stp = true ∧ s.enabled Pg.stp = false ∧ rasterOk s = false) ∧
    (∃ (s : State), s.answers Pg.stp = true ∧ s.enabled Pg.stp = true ∧ (s.mode = 1 ∨ s.mode = 5) ∧ anyChannelPlaced s = false ∧ s.enabled Pg.stile =
      false) ∧
    (∃ (s : State), s.answers Pg.stp = true ∧ s.enabled Pg.stp = true ∧ (¬(s.mode = 1 ∨ s.mode = 5))) :=
  ⟨⟨sCom, by decide⟩,
   ⟨sCom.setReg Reg.stpRaster 0, by decide⟩,
   ⟨sRun, by decide⟩,
   ⟨sSvc, by decide⟩⟩

set_option maxRecDepth 20000 in
theorem witness_SteepleSourcesAndLoss :
    (∃ (sel : Fin 8) (refclk : Bool) (i : Fin 128) (s : State), s.answers Pg.stp = true ∧ sel.val ≠ 0) ∧
    (∃ (refclk : Bool) (i : Fin 128) (s : State), s.answers Pg.stp = true) ∧
    (∃ (err : Int) (ppb : Int) (s : State), s.running = true ∧ srcSel s = 1 ∧ ppb.natAbs ≤ 100000 ∧ err.natAbs ≤ 32768 ∧ (s.stpSt = 2 ∨ errNs s err ≤
      jumpLimit s)) ∧
    (∃ (err : Int) (ppb : Int) (s : State), s.running = true ∧ srcSel s = 1 ∧ ppb.natAbs ≤ 100000 ∧ err.natAbs ≤ 32768 ∧ s.stpSt = 1 ∧ errNs s err ≤
      100 ∧ errNs s err ≤ jumpLimit s ∧ s.bit Reg.stpState 6 = false ∧ 15 ≤ s.stp.okRun ∧ s.stp.okFrame = some (pulseFrame s err - 1)) ∧
    (∃ (s : State), srcSel s ≠ 0 ∧ s.stp.lost = false) :=
  ⟨⟨1, true, 127, sCom, by decide⟩,
   ⟨false, 0, sCom, by decide⟩,
   ⟨-32768, 100000, sRef 2, by decide⟩,
   ⟨0, 0, { sRef 1 with stp := { (sRef 1).stp with okRun := 15, okFrame := some (pulseFrame (sRef 1) 0 - 1) } }, by decide⟩,
   ⟨sRef 2, by decide⟩⟩

set_option maxRecDepth 20000 in
theorem witness_AcceptedJumpsAndSteps :
    (∃ (s : State), s.answers Pg.stp = true ∧ srcSel s ≠ 2 ∧ s.bit Reg.stpState 6 = true) ∧
    (∃ (s : State), s.answers Pg.ptp = true ∧ srcSel s = 2 ∧ s.bit Reg.stpState 6 = true) ∧
    (∃ (err : Int) (s : State), s.running = true ∧ s.stp.measured = some err ∧ s.stp.accepted = true ∧ s.stp.lost = false ∧ s.bit Reg.stpState 5 = false ∧
      s.chans = [] ∧ (∀ n < 64, actArmed s n = false)) ∧
    (∃ (s : State), s.stp.accepted = false) :=
  ⟨⟨(sRef 0x40), by decide⟩,
   ⟨(sRef 0x40).setReg Reg.stpSrc 2, by decide⟩,
   ⟨-1, { sRef 0x40 with stp := { (sRef 0x40).stp with measured := some (-1), accepted := true } }, by decide⟩,
   ⟨State.reset, by decide⟩⟩

set_option maxRecDepth 20000 in
theorem witness_ActionSlotsArmAndFire :
    (∃ (n : Fin 64) (w : BitVec 32) (s : State), s.answers Pg.stp = true ∧ s.bit (Reg.stpActCtrl n) 0 = false ∧ (actPeriod s n = 0 ∨ 262144 ≤
      actPeriod s n) ∧ s.getF (Reg.stpActPeriodLo n) 31 18 < s.totalLines ∧ s.getF (Reg.stpActTgtLo n) 31 18 < s.totalLines ∧ later (actTarget s n)
      s.stp.pos = true) ∧
    (∃ (n : Fin 64) (w : BitVec 32) (s : State), s.answers Pg.stp = true ∧ s.bit (Reg.stpActCtrl n) 0 = false ∧ ((0 < actPeriod s n ∧ actPeriod s n <
      262144) ∨ s.totalLines ≤ s.getF (Reg.stpActPeriodLo n) 31 18 ∨ s.totalLines ≤ s.getF (Reg.stpActTgtLo n) 31 18)) ∧
    (∃ (n : Fin 64) (w : BitVec 32) (s : State), s.answers Pg.stp = true ∧ s.bit (Reg.stpActCtrl n) 0 = true) ∧
    (∃ (n : Fin 64) (s : State), s.running = true ∧ actArmed s n = true ∧ actPeriod s n = 0) ∧
    (∃ (n : Fin 64) (s : State), s.running = true ∧ actArmed s n = true ∧ actPeriod s n ≠ 0) ∧
    (∃ (n : Fin 64) (w : BitVec 32) (s : State), s.answers Pg.stp = true ∧ s.bit (Reg.stpActCtrl n) 0 = false ∧ actPeriod s n = 0 ∧ s.getF
      (Reg.stpActPeriodLo n) 31 18 < s.totalLines ∧ s.getF (Reg.stpActTgtLo n) 31 18 < s.totalLines ∧ later (actTarget s n) s.stp.pos = false) :=
  ⟨⟨63, 0, sRun.setReg (Reg.stpActTgtHi 63) 1, by decide⟩,
   ⟨0, 0, sRun.setReg (Reg.stpActPeriodLo 0) 1, by decide⟩,
   ⟨5, 0, sRun.setReg (Reg.stpActCtrl 5) 1, by decide⟩,
   ⟨0, sRun.setReg (Reg.stpActStatus 0) 1, by decide⟩,
   ⟨0, (sRun.setReg (Reg.stpActStatus 0) 1).setReg (Reg.stpActPeriodLo 0) 262144, by decide⟩,
   ⟨0, 0, sRun, by decide⟩⟩

set_option maxRecDepth 20000 in
theorem witness_ChannelEnableAndHold :
    (∃ (n : Fin 128) (s : State), s.answers (Pg.ch n) = true ∧ s.enabled (Pg.ch n) = false) ∧
    (∃ (n : Fin 128) (s : State), s.answers (Pg.ch n) = true ∧ s.enabled (Pg.ch n) = true ∧ s.bit (Pg.ch n + hStatus) 2 = true) ∧
    (∃ (n : Fin 128) (s : State), s.answers (Pg.ch n) = true ∧ s.enabled (Pg.ch n) = true ∧ s.bit (Pg.ch n + hStatus) 2 = false ∧ s.bit (Pg.ch n +
      hCtrl) 2 = false ∧ s.allotState n = 2 ∧ (s.chan n).place.isSome = true ∧ (s.chan n).running = true) ∧
    (∃ (n : Fin 128) (s : State), s.answers (Pg.ch n) = true ∧ s.enabled (Pg.ch n) = true ∧ s.bit (Pg.ch n + hStatus) 2 = false ∧ s.bit (Pg.ch n +
      hCtrl) 2 = true ∧ s.allotState n = 2 ∧ (s.chan n).place.isSome = true) ∧
    (∃ (n : Fin 128) (s : State), s.answers (Pg.ch n) = true) ∧
    (∃ (n : Fin 128) (s : State), s.answers (Pg.ch n) = true ∧ s.allotState n = 3 ∧ s.enabled (Pg.ch n) = false ∧ (s.chan n).running = true) :=
  ⟨⟨127, sCom, by decide⟩,
   ⟨0, (sCom.setReg (Pg.ch 0 + hCtrl) 1).setReg (Pg.ch 0 + hStatus) 4, by decide⟩,
   ⟨3, sChan 3 { Chan.init with place := some somePlace, running := true }, by decide⟩,
   ⟨3, (sChan 3 { Chan.init with place := some somePlace, running := true }).setReg (Pg.ch 3 + hCtrl) 5, by decide⟩,
   ⟨0, sCom, by decide⟩,
   ⟨3, (sChan 3 { Chan.init with place := some somePlace, running := true }).setReg (Reg.chAllotState 3) 3 |>.setReg (Pg.ch 3 + hCtrl) 4, by decide⟩⟩

set_option maxRecDepth 20000 in
theorem witness_PlacementEpochsAndMoves :
    (∃ (s : State), s.running = true) ∧
    (∃ (s : State), s.running = false) ∧
    (∃ (s : State), s.answers Pg.dev = true) ∧
    (∃ (n : Fin 128) (s : State), (s.chan n).oldExt.isSome = true ∧ (s.chan n).oldLeft = 0) ∧
    (∃ (n : Fin 128) (s : State), (s.chan n).oldExt.isSome = true ∧ (s.chan n).oldLeft = 0 ∧ (s.chan n).moving = true ∧ (s.chan n).newExt = none
      ∧ (∀ k < 6, (s.thread (256 + 16 * n.val + k)).state ≠ 3) ∧ (∀ e ∈ s.eng.slots, e.2.eng.isSome = true) ∧ s.allotState n = 4) :=
  ⟨⟨sRun, by decide⟩,
   ⟨sCom, by decide⟩,
   ⟨State.reset, by decide⟩,
   ⟨9, sChan 9 { Chan.init with place := some somePlace, oldExt := some (256, 1) }, by decide⟩,
   ⟨9, (sChan 9 { Chan.init with place := some somePlace, oldExt := some (256, 1), moving := true }).setReg (Reg.chAllotState 9) 4, by decide⟩⟩

set_option maxRecDepth 20000 in
theorem witness_ChannelFramesAndControlLines :
    (∃ (n : Fin 128) (s : State), s.running = true ∧ (s.chan n).place.isSome = true ∧ (s.chan n).running = true ∧ (s.chan n).stopping = false ∧
      (s.chan n).next = none ∧ (s.chan n).skip = 0 ∧ 0 < (s.chan n).frame) ∧
    (∃ (n : Fin 128) (s : State), s.running = true ∧ (s.chan n).running = true ∧ (s.chan n).frame ≠ 0 ∧ (s.chan n).ctrlDone = false ∧ (256 + 16
      * n.val) ∉ s.rv.vector) ∧
    (∃ (n : Fin 128) (s : State), (s.chan n).ctrlDone = true) ∧
    (∃ (p : Fin 8) (n : Fin 128) (r : Fin 4) (x : RendCfg) (s : State), (s.pair p).running = some (256 + 16 * n.val) ∧ (s.chan n).running = true
      ∧ 2 ≤ (s.chan n).frame ∧ rendOf (s.cfgOf n) r = some x) ∧
    (∃ (p : Fin 8) (n : Fin 128) (r : Fin 4) (s : State), (s.pair p).running = some (256 + 16 * n.val) ∧ (s.chan n).frame < 2) :=
  ⟨⟨1, (sChan 1 { Chan.init with place := some somePlace, running := true, frame := 1 }).setReg (Pg.stp + hCtrl) 1, by decide⟩,
   ⟨1, sCoding 1, by decide⟩,
   ⟨1, sChan 1 { chanT 1 with ctrlDone := true }, by decide⟩,
   ⟨2, 127, 0, rendT, sFrameThread 127, by decide⟩,
   ⟨2, 127, 0, (sCoding 127).setPair 2 { PairSt.init with running := some 2288 }, by decide⟩⟩

set_option maxRecDepth 20000 in
theorem witness_MillpondErrorsAndSwaps :
    (∃ (p : Fin 384) (k : Fin 32) (clocks : Nat) (s : State), Store.get (fun _ => 0) s.mill.errs p / 4 ≠ s.frame.toNat) ∧
    (∃ (p : Fin 384) (k : Fin 32) (clocks : Nat) (s : State), Store.get (fun _ => 0) s.mill.errs p = s.frame.toNat * 4 + 2 ∧ plotInUse s p =
      true ∧ p.val ∉ s.mill.due) ∧
    (∃ (p : Fin 384) (q : Nat) (s : State), plotBusy s p = false ∧ p.val ∈ s.mill.due ∧ plotInUse s p = true ∧ freePlotBut s p = some q) ∧
    (∃ (p : Fin 384) (s : State), plotBusy s p = true) :=
  ⟨⟨383, 31, 9, { State.reset with stp := { State.reset.stp with pos := 0x100000000 } }, by decide⟩,
   ⟨5, 0, 9, { State.reset.setReg (Reg.mpPlot 5) 1 with mill := ⟨[(5, 2)], [], [], []⟩ }, by decide⟩,
   ⟨5, 0, { State.reset.setReg (Reg.mpPlot 5) 1 with mill := ⟨[(5, 3)], [5], [], []⟩ }, by decide⟩,
   ⟨5, (sJob 0).setReg (Reg.mpPlot 5) 1, by decide⟩⟩

set_option maxRecDepth 20000 in
theorem witness_RowsDecisionsAndDeadlines :
    (∃ (n : Fin 128) (row : Nat) (p : BitVec 64) (s : State), (s.chan n).running = true ∧ (s.chan n).frame ≠ 0 ∧ row = (s.chan n).gln.rows ∧ row
      < cellPicRows (s.cfgOf n) * picsPerFrame (s.cfgOf n) ∧ recordsReady s n row = some p) ∧
    (∃ (n : Fin 128) (row : Nat) (p : BitVec 64) (base : Nat) (s : State), (s.chan n).running = true ∧ (s.chan n).frame ≠ 0 ∧ row = (s.chan
      n).gln.rows ∧ row < cellPicRows (s.cfgOf n) * picsPerFrame (s.cfgOf n) ∧ recordsReady s n row = some p ∧ base = (sourcePic s n ((s.chan
      n).frame - 1)).base + storeBytes (s.cfgOf n).w (s.cfgOf n).h (s.cfgOf n).c422 (s.cfgOf n).deep + 8 * (row * cellCols (s.cfgOf n))) ∧
    (∃ (n : Fin 128) (row : Nat) (p : BitVec 64) (s : State), (s.chan n).running = true ∧ (s.chan n).frame ≠ 0 ∧ row = (s.chan n).gln.rows ∧ row
      < cellPicRows (s.cfgOf n) * picsPerFrame (s.cfgOf n) ∧ recordsReady s n row = some p ∧ (s.chan n).gln.hasPrev = false) ∧
    (∃ (k : Fin 32) (e m row : Nat) (cx : Ctx) (p : BitVec 64) (r : RendCfg) (s : State), (s.slot k).eng = some e ∧ (s.slot k).job = none ∧
      pickCtx s k = some (cx, m, row, p) ∧ rendOf (s.cfgOf cx.ch) cx.rend = some r ∧ (unitRc s cx.ch cx.rend m (unitAt (s.cfgOf cx.ch) r row).1
      = none ∨ (picInfo (s.rc cx.ch cx.rend) m).isSome = true) ∧ (∀ e ∈ s.hbm.failed, e.master ≠ 34)) ∧
    (∃ (k : Fin 32) (e : Nat) (j : Job) (r : RendCfg) (u : UnitRc) (tl : TileRc) (p : PicInfo) (h : SliceHead) (s : State), (s.slot k).eng =
      some e ∧ (s.slot k).job = some j ∧ rendOf (s.cfgOf j.ch) j.rend = some r ∧ unitRc s j.ch j.rend j.pic (unitAt (s.cfgOf j.ch) r j.row).1 =
      some u ∧ tileRc s j.ch j.rend j.pic (unitAt (s.cfgOf j.ch) r j.row).1 j.tile = some tl ∧ picInfo (s.rc j.ch j.rend) j.pic = some p ∧
      tl.head = some h ∧ tl.left ≠ 0 ∧ j.done < tileCtus (ctuCols r) (tileCount (s.cfgOf j.ch) r) j.tile) ∧
    (∃ (k : Fin 32) (e : Nat) (j : Job) (r : RendCfg) (u : UnitRc) (tl : TileRc) (p : PicInfo) (h : SliceHead) (s : State), (s.slot k).eng =
      some e ∧ (s.slot k).job = some j ∧ rendOf (s.cfgOf j.ch) j.rend = some r ∧ unitRc s j.ch j.rend j.pic (unitAt (s.cfgOf j.ch) r j.row).1 =
      some u ∧ tileRc s j.ch j.rend j.pic (unitAt (s.cfgOf j.ch) r j.row).1 j.tile = some tl ∧ picInfo (s.rc j.ch j.rend) j.pic = some p ∧
      tl.head = some h ∧ tl.left ≠ 0 ∧ j.done < tileCtus (ctuCols r) (tileCount (s.cfgOf j.ch) r) j.tile ∧ (tl.bits + sumN (tl.pipe.map
      Prod.fst) + 64 * tl.left + 64 : Nat) ≤ tl.a ∧ (∀ b ∈ tl.pipe, b.2 ≤ b.1)) ∧
    (∃ (k : Fin 32) (stalls : List Nat) (fixed e : Nat) (j : Job) (r : RendCfg) (s : State), (s.slot k).eng = some e ∧ (s.slot k).job = some j ∧
      rendOf (s.cfgOf j.ch) j.rend = some r ∧ s.twinUp = false ∧ s.twin.resolving = none ∧ pastDeadline s j.ch (s.cfgOf j.ch) r j.pic j.row =
      false) ∧
    (∃ (k : Fin 32) (stalls : List Nat) (fixed e : Nat) (j : Job) (r : RendCfg) (s : State), (s.slot k).eng = some e ∧ (s.slot k).job = some j ∧
      rendOf (s.cfgOf j.ch) j.rend = some r ∧ s.twinUp = false ∧ s.twin.resolving = none ∧ pastDeadline s j.ch (s.cfgOf j.ch) r j.pic j.row =
      true ∧ sliceLost s j.ch (s.cfgOf j.ch) r j.tile j.pic (unitAt (s.cfgOf j.ch) r j.row).1 = false ∧ tileSlot s j.ch j.rend j.tile = some
      k.val ∧ j.row < ctuRows (s.cfgOf j.ch) r ∧ (picInfo (s.rc j.ch j.rend) j.pic).isSome = true ∧ (tileRc s j.ch j.rend j.pic (unitAt (s.cfgOf
      j.ch) r j.row).1 j.tile).isSome = true) ∧
    (∃ (n : Fin 128) (rend : Fin 4) (tile : Fin 8) (row : Fin 256) (r : RendCfg) (m : Nat) (s : State), (s.chan n).place.isSome = true ∧ rendOf
      (s.cfgOf n) rend = some r ∧ (s.rc n rend).lost = [] ∧ m = Store.get (fun _ => 0) (s.rc n rend).tileRows tile.val / max 1 (ctuRows (s.cfgOf
      n) r) ∧ tile < tileCount (s.cfgOf n) r ∧ m / picsPerFrame (s.cfgOf n) < (s.chan n).frame ∧ ((s.chan n).running = true ∨ m ≤ lastPic
      (s.cfgOf n) r (s.rc n rend) (irapGops s n rend) ((s.chan n).frame * picsPerFrame (s.cfgOf n))) ∧ unitOf (s.cfgOf n) r (Store.get (fun _ =>
      0) (s.rc n rend).tileRows tile.val % max 1 (ctuRows (s.cfgOf n) r)) = unitOf (s.cfgOf n) r row ∧ row < max 1 (ctuRows (s.cfgOf n) r) ∧
      later (unitPoint s (s.chan n) (s.cfgOf n) r m row 4) s.stp.pos = false ∧ (unitRc s n rend m (unitAt (s.cfgOf n) r row).1 = none ∨
      ((picInfo (s.rc n rend) m).isSome = true ∧ (tileRc s n rend m (unitAt (s.cfgOf n) r row).1 tile).isSome = true)) ∧ (picOf (s.cfgOf n) r
      (s.rc n rend) (irapGops s n rend) m).1 / picsPerFrame (s.cfgOf n) ∉ (s.chan n).cutFrames ∧ (s.chan n).paused = false ∧ ((tileSlot s n rend
      tile).bind (fun k => (s.slot k).eng)).isSome = true) ∧
    (∃ (n : Fin 128) (rend : Fin 4) (tile : Fin 8) (row : Fin 256) (r : RendCfg) (m : Nat) (s : State), (s.chan n).place.isSome = true ∧ rendOf
      (s.cfgOf n) rend = some r ∧ (s.rc n rend).lost = [] ∧ m = Store.get (fun _ => 0) (s.rc n rend).tileRows tile.val / max 1 (ctuRows (s.cfgOf
      n) r) ∧ tile < tileCount (s.cfgOf n) r ∧ m / picsPerFrame (s.cfgOf n) < (s.chan n).frame ∧ (s.chan n).running = true ∧ unitOf (s.cfgOf n)
      r (Store.get (fun _ => 0) (s.rc n rend).tileRows tile.val % max 1 (ctuRows (s.cfgOf n) r)) = unitOf (s.cfgOf n) r row ∧ row < max 1
      (ctuRows (s.cfgOf n) r) ∧ later (unitPoint s (s.chan n) (s.cfgOf n) r m row 4) s.stp.pos = false ∧ unitRc s n rend m (unitAt (s.cfgOf n) r
      row).1 = none) ∧
    (∃ (n : Fin 128) (rend : Fin 4) (tile : Fin 8) (row : Fin 256) (r : RendCfg) (s : State), rendOf (s.cfgOf n) rend = some r ∧ (s.rc n
      rend).lost = [] ∧ later (unitPoint s (s.chan n) (s.cfgOf n) r (Store.get (fun _ => 0) (s.rc n rend).tileRows tile.val / max 1 (ctuRows
      (s.cfgOf n) r)) row 4) s.stp.pos = true) :=
  ⟨⟨2, 0, (recordsReady (sGln 2) 2 0).getD 0, sGln 2, by decide⟩,
   ⟨2, 0, (recordsReady (sGln 2) 2 0).getD 0, _, sGln 2, by decide, by decide, by decide, by decide, by decide, rfl⟩,
   ⟨2, 0, (recordsReady (sGln 2) 2 0).getD 0, sGln 2, by decide⟩,
   ⟨0, 0, 0, 0, ⟨0, 3, 0, 0, false⟩, 0, rendT, sReady 3, by decide⟩,
   ⟨0, 0, jobT 3, rendT, unitT, tileT, picT, headT, sJob 3, by decide⟩,
   ⟨0, 0, jobT 3, rendT, unitT, tileT, picT, headT, sJob 3, by decide⟩,
   ⟨0, [7], 1, 0, jobT 3, rendT, sJob 3, by decide⟩,
   ⟨0, [7], 1, 0, jobT 3, rendT, ({ sJob 3 with stp := { (sJob 3).stp with pos := 0x500000000 } } : State), by decide⟩,
   ⟨3, 0, 0, 0, rendT, 0, ({ sJob 3 with stp := { (sJob 3).stp with pos := 0x500000000 } } : State), by decide⟩,
   ⟨3, 0, 0, 0, rendT, 0, ({ sCoding 3 with stp := { (sCoding 3).stp with pos := 0x500000000 } } : State), by decide⟩,
   ⟨3, 0, 0, 0, rendT, sJob 3, by decide⟩⟩

set_option maxRecDepth 20000 in
theorem witness_EnginePagesRotationAndHangs :
    (∃ (pg : EePage) (v : Bool) (s : State), s.answers (Pg.ee 0) = true) ∧
    (∃ (pg : EePage) (s : State), s.answers (Pg.ee 0) = true) ∧
    (∃ (n : Fin 128) (s : State), s.answers (Pg.chrc n) = true) ∧
    (∃ (e : Fin 34) (stall : Bool) (k : Nat) (s : State), s.slotOf e = some k ∧ (s.slot k).job.isSome = true ∧ (stall && decide (s.mode = 4)) =
      false) ∧
    (∃ (k m b : Nat) (s : State), s.running = true ∧ s.inFrame = 0 ∧ s.enabled Pg.sexton = true ∧ s.frame.toNat % max 1 (s.getF Reg.sextonRotFrames 3
      0) = 0 ∧ s.eng.changed = false ∧ s.eng.loanPass = true ∧ s.eng.standby = some b ∧ firstThat (fun k => mayLend s k) ((List.range 32).map (fun i
      => (s.eng.rotNext + i) % 32)) = some k ∧ (s.slot k).eng = some m ∧ (s.slot k).job = none) ∧
    (∃ (k m b : Nat) (s : State), s.eng.chosen = some k ∧ (s.slot k).job = none ∧ (s.slot k).eng = some m ∧ s.eng.standby = some b ∧ s.eng.loanPass =
      true) :=
  ⟨⟨.engine 33, true, sCom, by decide⟩,
   ⟨.engine 0, sCom, by decide⟩,
   ⟨127, sCom, by decide⟩,
   ⟨0, true, 0, sJob 3, by decide⟩,
   ⟨0, 0, 33, sRot, by decide⟩,
   ⟨0, 0, 33, { sRot with eng := { sRot.eng with chosen := some 0 } }, by decide⟩⟩

set_option maxRecDepth 20000 in
theorem witness_CompositorCommitsAndReleases :
    (∃ (n : Fin 128) (s : State), s.answers (Pg.chcomp n) = true ∧ s.enabled (Pg.ch n) = true ∧ s.bit (Reg.chcompCommitStat n) 0 = false) ∧
    (∃ (n : Fin 128) (s : State), s.bit (Reg.chcompCommitStat n) 0 = true) ∧
    (∃ (n : Fin 128) (s : State), s.enabled (Pg.ch n) = false) ∧
    (∃ (n : Fin 128) (p : BitVec 64) (u s : State), s.running = true ∧ (s.chan n).running = true ∧ (s.chan n).frame ≠ 0 ∧ s.bit
      (Reg.chcompCommitStat n) 0 = true ∧ p = linePos s (s.cfgOf n) (s.chan n).startFr (latchLine (s.cfgOf n)) ∧ u = s.toPos p ∧ later p (s.chan
      n).commitAt = true ∧ commitFail u n = none) ∧
    (∃ (n : Fin 128) (w : Nat) (p : BitVec 64) (s : State), s.running = true ∧ (s.chan n).running = true ∧ (s.chan n).frame ≠ 0 ∧ s.bit
      (Reg.chcompCommitStat n) 0 = true ∧ p = linePos s (s.cfgOf n) (s.chan n).startFr (latchLine (s.cfgOf n)) ∧ later p (s.chan n).commitAt =
      true ∧ commitFail (s.toPos p) n = some w ∧ w < 4096) ∧
    (∃ (n : Fin 128) (p : BitVec 64) (s : State), s.running = true ∧ (s.chan n).running = true ∧ (s.chan n).frame ≠ 0 ∧ p = linePos s (s.cfgOf
      n) (s.chan n).startFr (latchLine (s.cfgOf n)) ∧ later p (s.chan n).commitAt = false) ∧
    (∃ (n : Fin 128) (s : State), s.running = true ∧ (s.chan n).running = true ∧ (s.chan n).frame ≠ 0 ∧ (s.chan n).release ≠ []) ∧
    (∃ (n : Fin 128) (s : State), (s.chan n).release = []) :=
  ⟨⟨127, sChan 127 Chan.init, by decide⟩,
   ⟨3, sCommit 3, by decide⟩,
   ⟨0, sCom, by decide⟩,
   ⟨3, _, _, sCommit 3, by decide, by decide, by decide, by decide, rfl, rfl, by decide, by decide⟩,
   ⟨3, 0x11, _, ((sCommit 3).setReg (Reg.chcompOrder 3) 0x11111111).setReg (Reg.chcompCompCfg 3) 1, by decide, by decide, by decide,
    by decide, rfl, by decide, by decide, by decide⟩,
   ⟨3, _, sChan 3 { chanT 3 with commitAt := 0x100000000 }, by decide, by decide, by decide, rfl, by decide⟩,
   ⟨3, sChan 3 { chanT 3 with release := [7] }, by decide⟩,
   ⟨3, sCoding 3, by decide⟩⟩

set_option maxRecDepth 20000 in
theorem witness_CompositorLinesAndLuts :
    (∃ (n : Fin 128) (line f y : Nat) (late : List (Fin 8)) (s : State), s.running = true ∧ (s.chan n).running = true ∧ (s.chan n).frame ≠ 0 ∧
      pictureLine (s.cfgOf n) line = some (f, y) ∧ (s.chan n).lines ≤ line) ∧
    (∃ (n : Fin 128) (line f y : Nat) (late : List (Fin 8)) (u s : State), s.running = true ∧ (s.chan n).running = true ∧ (s.chan n).frame ≠ 0 ∧
      pictureLine (s.cfgOf n) line = some (f, y) ∧ (s.chan n).lines ≤ line ∧ u = s.toPos (linePos s (s.cfgOf n) (s.chan n).startFr (line + 1)) ∧
      missedLayers u n (s.chan n).inUse line ≠ []) ∧
    (∃ (n l f y : Nat) (out : List Nat) (s : State), fld (setWordAt (s.chan n).inUse (layerOff 0 0x1C)) 9 0 = 1023 ∧ 0 ∉ layersAbove (s.chan
      n).inUse 0 ∧ (∀ k ∈ layersAbove (s.chan n).inUse 0, visibleGraphics s n (s.chan n).inUse k = false ∧ visibleLive s n (s.chan n).inUse k =
      false)) ∧
    (∃ (n : Fin 128) (stage : Fin 3) (line ho hi : Nat) (g : Bool × Nat × Nat) (s : State), (s.chan n).running = true ∧ (s.chan n).frame ≠ 0 ∧
      (s.cfgOf n).stages[stage.val]? = some g ∧ g.1 = true ∧ ho = (scaledPic s n stage ((s.chan n).frame - 1)).h / picsPerFrame (s.cfgOf n) ∧ hi
      = (stageInput s n stage ((s.chan n).frame - 1)).h / picsPerFrame (s.cfgOf n) ∧ line = Store.get (fun _ => 0) (s.chan n).stages stage ∧
      line < ho * picsPerFrame (s.cfgOf n) ∧ 2 ≤ hi ∧ (∀ y < hi, stageHas s n stage (line / max 1 ho) y = true)) ∧
    (∃ (n : Fin 128) (s : State), s.answers (Pg.chcomp n) = true ∧ s.bit (Reg.chcompLutAddr n) 16 = true ∧ s.enabled (Pg.ch n) = false ∧ s.getF
      (Reg.chcompLutAddr n) 11 10 ≠ 3) ∧
    (∃ (n : Fin 128) (s : State), s.answers (Pg.chcomp n) = true ∧ s.bit (Reg.chcompLutAddr n) 16 = true ∧ s.enabled (Pg.ch n) = true) ∧
    (∃ (n : Fin 128) (s : State), s.answers (Pg.chcomp n) = true ∧ s.bit (Reg.chcompLutAddr n) 16 = false ∧ s.getF (Reg.chcompLutAddr n) 11 10 ≠
      3) ∧
    (∃ (n : Fin 128) (preset : Fin 4) (s : State), s.answers (Pg.chcomp n) = true ∧ s.enabled (Pg.ch n) = false ∧ preset.val ≠ 3) :=
  ⟨⟨3, 63, 0, 63, [7], sCoding 3, by decide⟩,
   ⟨3, 5, 0, 5, [], _, sLive 3, by decide, by decide, by decide, by decide, by decide, rfl, by decide⟩,
   ⟨3, 0, 0, 0, [], sChan 3 { chanT 3 with inUse := [(0x11C, 1023)] }, by decide⟩,
   ⟨3, 0, 0, 32, 64, (true, 32, 32), sLadder 3, by decide⟩,
   ⟨3, sCom.setReg (Reg.chcompLutAddr 3) 0x10000, by decide⟩,
   ⟨3, (sChan 3 Chan.init).setReg (Reg.chcompLutAddr 3) 0x10000, by decide⟩,
   ⟨3, sCom, by decide⟩,
   ⟨3, 2, sCom, by decide⟩⟩

set_option maxRecDepth 20000 in
theorem witness_BundleEnableAndDisable :
    (∃ (n : Fin 10) (s : State), s.answers (Pg.clp n) = true ∧ s.enabled (Pg.clp n) = false ∧ clpConfigOk s n = true) ∧
    (∃ (n : Fin 10) (s : State), s.answers (Pg.clp n) = true ∧ s.enabled (Pg.clp n) = false ∧ clpConfigOk s n = false) ∧
    (∃ (n : Fin 10) (s : State), s.answers (Pg.clp n) = true ∧ s.enabled (Pg.clp n) = true) ∧
    (∃ (n : Fin 10) (w : BitVec 32) (s : State), s.answers (Pg.clp n) = true ∧ s.enabled (Pg.clp n) = false) :=
  ⟨⟨9, sCom.setReg (Reg.clpCfg 9) 0x0000FF00, by decide⟩,
   ⟨0, sCom.setReg (Reg.clpCfg 0) 0, by decide⟩,
   ⟨4, sClp 4, by decide⟩,
   ⟨2, 0x5555, sCom, by decide⟩⟩

set_option maxRecDepth 20000 in
theorem witness_LaneTraining :
    (∃ (n : Fin 10) (p : Fin 8) (s : State), laneSt s n p = 2) ∧
    (∃ (n : Fin 10) (p : Fin 8) (s : State), laneSt s n p = 2 ∧ laneFailed s n p = false ∧ (lane s n p).held = none) ∧
    (∃ (n : Fin 10) (p : Fin 8) (points : List SweepPoint) (wide : List SweepPoint) (x : SweepPoint) (s : State), laneSt s n p = 3 ∧ (bestPoint
      (s.getF (Reg.clpAdapt n) 7 0) (points.filter (fun x => decide (s.getF (Reg.clpPreset n) 3 0 ≤ x.boost + 3 ∧ x.boost ≤ s.getF (Reg.clpPreset n)
      3 0 + 3))) = some x)) ∧
    (∃ (n : Fin 10) (p : Fin 8) (skew : Nat) (s : State), laneSt s n p = 4 ∧ skew ≤ 64 ∧ retrainPending s n p = false) ∧
    (∃ (n : Fin 10) (p : Fin 8) (s : State), laneSt s n p = 4 ∧ laneFailed s n p = false ∧ (lane s n p).held = none) ∧
    (∃ (n : Fin 10) (p : Fin 8) (cause : LaneCause) (s : State), s.enabled (Pg.clp n) = true ∧ laneRole s n p ≠ 0 ∧ laneSt s n p = 5 ∧
      cause = .lostAlignment ∧ 4 ≤ (lane s n p).errRun) ∧
    (∃ (n : Fin 10) (p : Fin 8) (s : State), s.enabled (Pg.clp n) = true ∧ laneSt s n p = 5 ∧ laneCause s n p .tooManyErrors = false) :=
  ⟨⟨9, 7, (sClp 9).setN (Reg.clpLaneState 9 7) 0x42, by decide⟩,
   ⟨9, 7, (sClp 9).setN (Reg.clpLaneState 9 7) 0x42, by decide⟩,
   ⟨0, 0, [⟨4, 200, 20, false⟩], [], ⟨4, 200, 20, false⟩, ((sClp 0).setN (Reg.clpLaneState 0 0) 0x43).setN (Reg.clpPreset 0) 4, by decide⟩,
   ⟨3, 1, 64, (sClp 3).setN (Reg.clpLaneState 3 1) 0x44, by decide⟩,
   ⟨3, 1, (sClp 3).setN (Reg.clpLaneState 3 1) 0x44, by decide⟩,
   ⟨3, 1, .lostAlignment, setLane ((sClp 3).setN (Reg.clpLaneState 3 1) 0x45) 3 1 { Lane.init with errRun := 4 }, by decide⟩,
   ⟨3, 1, (sClp 3).setN (Reg.clpLaneState 3 1) 0x45, by decide⟩⟩

set_option maxRecDepth 20000 in
theorem witness_LaneRetrainingAndCounters :
    (∃ (n : Fin 10) (p : Fin 8) (s : State), s.answers (Pg.clp n) = true ∧ s.enabled (Pg.clp n) = true ∧ laneRole s n p ≠ 0 ∧ (laneSt s n p = 5 ∨
      laneSt s n p = 6) ∧ inService s = false) ∧
    (∃ (n : Fin 10) (p : Fin 8) (s : State), s.bit (Reg.clpAdapt n) 16 = true ∧ s.running = true ∧ s.enabled (Pg.clp n) = true ∧ laneRole s n p ≠ 0 ∧
      laneSt s n p = 6 ∧ inService s = false) ∧
    (∃ (n : Fin 10) (p : Fin 8) (s : State), s.enabled (Pg.clp n) = true ∧ (lanePower s n p = 1 ∨ lanePower s n p = 2) ∧ s.getF (Reg.clpLanePwr n) (2
      * p + 1) (2 * p) = 0) ∧
    (∃ (n : Fin 10) (p : Fin 8) (s : State), s.answers (Pg.clp n) = true) :=
  ⟨⟨3, 1, (sClp 3).setN (Reg.clpLaneState 3 1) 0x45, by decide⟩,
   ⟨3, 1, ((sClp 3).setN (Reg.clpLaneState 3 1) 0x46).setReg (Reg.clpAdapt 3) 0x10000, by decide⟩,
   ⟨3, 1, (sClp 3).setN (Reg.clpLaneState 3 1) 0x10, by decide⟩,
   ⟨9, 7, sCom, by decide⟩⟩

set_option maxRecDepth 20000 in
theorem witness_LinkRowsAndMarkers :
    (∃ (n : Fin 10) (chars : List LaneGroup) (s : State), s.enabled (Pg.clp n) = true ∧ 2 ≤ linkState s (2 * n.val) ∧ spareOf s (2 * n.val) = none ∧
      (∀ p ∈ linkLanes (2 * n.val), badChar (laneChar (chars.getD p ⟨0, false⟩)) = false ∧ laneOut s (2 * n.val) p = false)) ∧
    (∃ (n : Fin 10) (chars : List LaneGroup) (p q : Nat) (s : State), s.enabled (Pg.clp n) = true ∧ 2 ≤ linkState s (2 * n.val) ∧ p ∈ dataInUse s
      (2 * n.val) ∧ q ∈ dataInUse s (2 * n.val) ∧ p ≠ q ∧ badChar (laneChar (chars.getD p ⟨0, false⟩)) = true ∧ badChar (laneChar (chars.getD q
      ⟨0, false⟩)) = true) ∧
    (∃ (n : Fin 10) (x : Bool) (s : State), s.enabled (Pg.clp n) = true ∧ (linksOf s n).contains (linkKey n x) = true) ∧
    (∃ (n : Fin 10) (x : Bool) (lanes : List BamLane) (skp : Int) (q : BitVec 8) (s : State), s.enabled (Pg.clp n) = true ∧ (linksOf s n).contains
      (linkKey n x) = true ∧ (link s (linkKey n x)).seqRx = some q) ∧
    (∃ (n : Fin 10) (x : Bool) (mask crc : BitVec 8) (s : State), s.enabled (Pg.clp n) = true ∧ (linksOf s n).contains (linkKey n x) = true ∧
      crc.toNat = crc8 [1, mask.toNat]) ∧
    (∃ (n : Fin 10) (x : Bool) (mask crc : BitVec 8) (s : State), (link s (linkKey n x)).narrowReq = some mask.toNat ∧
      crc.toNat = crc8 [2, mask.toNat]) ∧
    (∃ (n : Fin 10) (x : Bool) (mask crc : BitVec 8) (s : State), s.enabled (Pg.clp n) = true ∧ (linksOf s n).contains (linkKey n x) = true ∧
      crc.toNat = crc8 [3, mask.toNat]) ∧
    (∃ (mask crc : BitVec 8), crc.toNat ≠ crc8 [1, mask.toNat] ∧ crc.toNat ≠ crc8 [2, mask.toNat] ∧ crc.toNat ≠ crc8 [3, mask.toNat]) ∧
    (∃ (n : Fin 10) (x : Bool) (s : State), (link s (linkKey n x)).narrowReq.isSome = true ∧ 8 ≤ (link s (linkKey n x)).narrowAge) :=
  ⟨⟨3, List.replicate 8 group7, sClpUp 3, by decide⟩,
   ⟨3, [⟨0, false⟩, group7, ⟨1023, true⟩], 0, 2, sClpUp 3, by decide⟩,
   ⟨9, true, sClp 9, by decide⟩,
   ⟨3, false, [], 0, 255, setLink (sClp 3) 6 { Link.init with seqRx := some 255 }, by decide⟩,
   ⟨3, false, 0xF0, BitVec.ofNat 8 (crc8 [1, 0xF0]), sClp 3, by decide⟩,
   ⟨3, false, 0xF0, BitVec.ofNat 8 (crc8 [2, 0xF0]), setLink (sClp 3) 6 { Link.init with narrowReq := some 0xF0 }, by decide⟩,
   ⟨3, false, 0xF0, BitVec.ofNat 8 (crc8 [3, 0xF0]), sClp 3, by decide⟩,
   ⟨0xF0, 0x5A, by decide⟩,
   ⟨3, false, setLink (sClp 3) 6 { Link.init with narrowReq := some 0xF0, narrowAge := 8 }, by decide⟩⟩

set_option maxRecDepth 20000 in
theorem witness_PacketsLandForTheirInputs :
    (∃ (n : Fin 10) (x : Bool) (chars : List LaneGroup) (bytes : List (BitVec 8)) (s : State), s.enabled (Pg.clp n) = true ∧ 2 ≤ linkState s
      (linkKey n x) ∧ (linkKey n x ≠ 16 ∧ linkKey n x ≠ 18) ∧ rowVote s (linkKey n x) chars = (true, 0xFD) ∧ bytes = (link s (linkKey n x)).packet ∧
      openPacket (bytes.map BitVec.toNat) = none) ∧
    (∃ (n : Fin 10) (x : Bool) (chars : List LaneGroup) (bytes : List (BitVec 8)) (s : State), s.enabled (Pg.clp n) = true ∧ 2 ≤ linkState s
      (linkKey n x) ∧ (linkKey n x ≠ 16 ∧ linkKey n x ≠ 18) ∧ rowVote s (linkKey n x) chars = (true, 0xFE) ∧ bytes = (link s (linkKey n x)).packet) ∧
    (∃ (n : Fin 10) (x : Bool) (chars : List LaneGroup) (bytes : List (BitVec 8)) (i : Nat) (k : Nat) (w : Word) (pl : List Nat) (s : State),
      s.enabled (Pg.clp n) = true ∧ 2 ≤ linkState s (linkKey n x) ∧ (linkKey n x ≠ 16 ∧ linkKey n x ≠ 18) ∧
      rowVote s (linkKey n x) chars = (true, 0xFD) ∧ bytes = (link s (linkKey n x)).packet ∧ (link s (linkKey n x)).dead = false ∧
      openPacket (bytes.map BitVec.toNat) = some (4, k, w, pl) ∧ inputsFor s
      (linkKey n x) ((bytes.map BitVec.toNat).getD 1 0 % 16) = [i] ∧ inReceives s i = true ∧ formatMismatch s i pl = true) ∧
    (∃ (i : Fin 128) (w : BitVec 32) (s : State), inReceives s i = true ∧ inKind s i = 1 ∧ fld w 15 14 ≤ 2 ∧ inSt s i ≠ 3 ∧
      lineTiming s i (lineOfField s i (fld w 13 0) (w.getLsbD 24)) false = .inTime) ∧
    (∃ (i : Fin 128) (w : BitVec 32) (s : State), inReceives s i = true ∧ inKind s i = 1 ∧ fld w 15 14 ≤ 2 ∧
      lineTiming s i (lineOfField s i (fld w 13 0) (w.getLsbD 24)) false = .early) ∧
    (∃ (i : Fin 128) (w : BitVec 32) (s : State), inKind s i = 1 ∧ lineTiming s i (lineOfField s i (fld w 13 0) (w.getLsbD 24)) false = .late ∧
      lineTiming s i (lineOfField s i (fld w 13 0) (w.getLsbD 24)) true ≠ .inTime) ∧
    (∃ (i : Fin 128) (w : BitVec 32) (s : State), inReceives s i = true ∧ inKind s i = 1 ∧ fld w 15 14 ≤ 2 ∧ inSt s i = 3 ∧
      lineTiming s i (lineOfField s i (fld w 13 0) (w.getLsbD 24)) false = .inTime) ∧
    (∃ (i : Fin 128) (line : BitVec 14) (words : List (BitVec 10)) (s : State), inReceives s i = true) ∧
    (∃ (i : Fin 128) (payload : List (BitVec 8)) (s : State), inReceives s i = true ∧ formatMismatch s i (payload.map BitVec.toNat) = true) ∧
    (∃ (i : Fin 128) (payload : List (BitVec 8)) (s : State), formatMismatch s i (payload.map BitVec.toNat) = false) :=
  ⟨⟨3, false, List.replicate 8 groupEop, List.replicate 12 1, sPacket (List.replicate 12 1), by decide⟩,
   ⟨3, false, [], [], sPacket [], by decide⟩,
   ⟨3, false, List.replicate 8 groupEop, fmtPacket, 5, 0, 0, [], sPacket fmtPacket, by decide⟩,
   ⟨5, 0x00004007, sIn, by decide⟩,
   ⟨5, 0x00004046, setInp (sIn.setReg (Reg.inpGeom 5) 0x00630040) 5 { Inp.init with startAt := some 0 }, by decide⟩,
   ⟨5, 0x00004007, { setInp sIn 5 { Inp.init with startAt := some 0 } with stp := { sIn.stp with pos := State.posOf 0 (1000 * 262144) } }, by decide⟩,
   ⟨5, 0x00004007, sIn.setReg (Reg.inpState 5) 0x113, by decide⟩,
   ⟨5, 9, [1, 2, 3], sIn, by decide⟩,
   ⟨5, List.replicate 16 0, sIn, by decide⟩,
   ⟨5, [64, 0, 64, 0, 100, 0, 60, 0, 0, 0, 1, 0, 0, 0, 0, 0], sIn, by decide⟩⟩

set_option maxRecDepth 20000 in
theorem witness_NetworkVideoAndInputLoss :
    (∃ (i : Fin 128) (pathB : Bool) (seq rtp : BitVec 32) (g : SrdSeg) (len fifo line : Nat) (s : State), inReceives s i = true ∧ inKind s i = 3 ∧ inPath s i pathB = true ∧ (meter (pathUp s i pathB) i pathB len).1 = .green ∧ fifo < 4 * 2 ^ 20 ∧
      line = lineOfField s i g.line g.second ∧ (inp s i).seen.find? (fun e => decide (e.1 = seq)) = none ∧ frameFor s i rtp = some false ∧
      lineTiming s i line false = .inTime ∧ 2 * s.getF (Reg.inpGeom i) 13 0 ≤ Store.get (fun _ => 0) (inp s i).cover line + g.samples.length) ∧
    (∃ (i : Fin 128) (pathB : Bool) (seq rtp : BitVec 32) (g : SrdSeg) (len fifo line : Nat) (s : State), inReceives s i = true ∧ inKind s i = 3 ∧ inPath s i pathB = true ∧ (meter (pathUp s i pathB) i pathB len).1 = .green ∧ fifo < 4 * 2 ^ 20 ∧
      line = lineOfField s i g.line g.second ∧ (inp s i).seen.find? (fun e => decide (e.1 = seq)) = none ∧ frameFor s i rtp = some true ∧
      lineTiming s i line true = .inTime ∧ 2 * s.getF (Reg.inpGeom i) 13 0 ≤ Store.get (fun _ => 0) (inp s i).coverNext line + g.samples.length) ∧
    (∃ (i : Fin 128) (pathB : Bool) (seq rtp : BitVec 32) (len fifo : Nat) (s : State), inReceives s i = true ∧ inKind s i = 3 ∧ inPath s i pathB = true ∧ (meter (pathUp s i pathB) i pathB len).1 = .green ∧ fifo < 4 * 2 ^ 20 ∧
      (inp s i).seen.find? (fun e => decide (e.1 = seq)) = none ∧ frameFor s i rtp = none) ∧
    (∃ (i : Fin 128) (pathB : Bool) (len : Nat) (s : State), inReceives s i = true ∧ inKind s i = 3 ∧ inPath s i pathB = true ∧
      (meter (pathUp s i pathB) i pathB len).1 = .red) ∧
    (∃ (i : Fin 128) (pathB : Bool) (s : State), inSt s i ≠ 0 ∧ inKind s i = 3 ∧ inPath s i pathB = true ∧ inDown (inp s i) pathB = false ∧ (if pathB
      then (inp s i).arrived.2 else (inp s i).arrived.1) = false) ∧
    (∃ (i : Fin 128) (line : Nat) (half : Fin 3) (s : State), s.running = true ∧ inSt s i ≠ 0 ∧ (activeLines s i line).isSome = true ∧
      isPart s i half = true ∧ (inp s i).landed.contains (line * 3 + half.val) = false ∧ (inp s i).missed.contains (line * 3 + half.val) = false) ∧
    (∃ (i : Fin 128) (s : State), (inSt s i = 1 ∨ inSt s i = 2) ∧ s.getF (Reg.inpLoss i) 29 16 ≤ (inp s i).missRun ∧
      (inp s i).missLine.all (fun l => !(lastActive s i l)) = true) ∧
    (∃ (i : Fin 128) (s : State), s.running = true ∧ inSt s i = 3) ∧
    (∃ (i : Fin 128) (s : State), s.running = true ∧ s.inFrame = 0 ∧ inSt s i = 3 ∧ (inUse s i = false ∨ ((inp s i).startAt = some s.frame ∧ (inp s i).wasClean = true))
      ∧ mayReturn s i = true) :=
  ⟨⟨5, true, 9, 0, ⟨10, false, 0, List.replicate 128 1⟩, 1000, 0, 10, sNet, by decide⟩,
   ⟨5, true, 9, 1500, ⟨0, false, 0, List.replicate 128 1⟩, 1000, 0, 0, sNetAhead, by decide⟩,
   ⟨5, true, 9, 90000, 1000, 0, sNetAt, by decide⟩,
   ⟨5, false, 1000, sNet.setReg (Reg.inpPbs 5) 0, by decide⟩,
   ⟨5, true, sNet, by decide⟩,
   ⟨5, 7, 0, sIn, by decide⟩,
   ⟨5, setInp (sIn.setReg (Reg.inpLoss 5) 0x00040000) 5 { Inp.init with missRun := 4, missLine := some 9 }, by decide⟩,
   ⟨5, sIn.setReg (Reg.inpState 5) 0x113, by decide⟩,
   ⟨5, setInp (sIn.setReg (Reg.inpState 5) 0x113) 5 { Inp.init with startAt := some 0, wasClean := true }, by decide⟩⟩

set_option maxRecDepth 20000 in
theorem witness_InputPagesAndFlows :
    (∃ (i : Fin 128) (s : State), s.answers (Pg.inp i) = true ∧ s.enabled (Pg.inp i) = false ∧ inputCheck s i = none) ∧
    (∃ (i : Fin 128) (r : Refusing) (s : State), s.answers (Pg.inp i) = true ∧ s.enabled (Pg.inp i) = false ∧ inputCheck s i = some r) ∧
    (∃ (i : Fin 128) (s : State), s.answers (Pg.inp i) = true) ∧
    (∃ (s : State), s.answers Pg.ing = true ∧ s.bit Reg.ingTblAddr 28 = false ∧ s.getF Reg.ingTblAddr 25 24 = 0 ∧ s.getF Reg.ingTblAddr 17 0 < 512) ∧
    (∃ (s : State), s.answers Pg.ing = true ∧ s.bit Reg.ingTblAddr 28 = true ∧ s.getF Reg.ingTblAddr 25 24 = 0 ∧ s.getF Reg.ingTblAddr 17 0 < 512) ∧
    (∃ (s : State), s.answers Pg.ing = true ∧ s.bit Reg.ingTblAddr 28 = true ∧ (s.getF Reg.ingTblAddr 25 24 ≠ 0 ∨ 512 ≤ s.getF Reg.ingTblAddr 17 0))
      :=
  ⟨⟨5, (sIn.setReg (Pg.inp 5 + hCtrl) 0).setReg (Reg.inpState 5) 0, by decide⟩,
   ⟨6, ⟨0x010C, 0x10, 0⟩, sCom, by decide⟩,
   ⟨127, sCom, by decide⟩,
   ⟨sCom.setReg Reg.ingTblAddr 511, by decide⟩,
   ⟨sCom.setReg Reg.ingTblAddr 0x10000000, by decide⟩,
   ⟨sCom.setReg Reg.ingTblAddr 0x10000200, by decide⟩⟩

set_option maxRecDepth 20000 in
theorem witness_PayloadUnitsReleaseAndTransmit :
    (∃ (n : Fin 128) (r : Fin 4) (x : PayOut) (l : List PayOut) (s : State), (s.chan n).place.isSome = true ∧ s.running = true ∧ Store.get (fun
      _ => []) (s.chan n).outq r.val = x :: l ∧ x.firstOfUnit = true) ∧
    (∃ (n : Fin 128) (r : Fin 4) (s : State), ((s.chan n).place = none ∨ s.running = false)) ∧
    (∃ (p : Fin 10) (cp : Copy) (s : State), portUp s p = true ∧ (s.running = true ∨ 8 ≤ p.val) ∧ portPick s p = some cp ∧ cp.fwd = true) ∧
    (∃ (p : Fin 10) (cp : Copy) (s : State), portUp s p = true ∧ (s.running = true ∨ 8 ≤ p.val) ∧ portPick s p = some cp ∧ cp.fwd = false) ∧
    (∃ (p : Fin 10) (cp : Copy) (s : State), s.running = true ∧ portPick s p = some cp ∧ cp.fwd = false ∧
      262144 < copyAge (portWaits s p) cp ∧ nodeOpen (portWaits s p) cp.node = false) ∧
    (∃ (p : Fin 10) (s : State), (portUp s p = false ∨ s.etm.queue = [])) ∧
    (∃ (p : Fin 10) (s : State), portUp s p = true ∧ s.running = false ∧ p.val < 8) :=
  ⟨⟨3, 0, payT, [], sChan 3 { chanT 3 with outq := [(0, [payT])] }, by decide⟩,
   ⟨3, 0, sCom, by decide⟩,
   ⟨0, cpyT, sPort cpyT, by decide⟩,
   ⟨0, cpyF, setNodeEntry (sPort cpyF) 0 [0x80010000, 0, 0, 0, 0, 0, 0, 0], by decide⟩,
   ⟨0, cpyF, sLate, by decide⟩,
   ⟨0, sCom, by decide⟩,
   ⟨0, (sPort cpyT).setReg (Pg.stp + hCtrl) 0, by decide⟩⟩

set_option maxRecDepth 20000 in
theorem witness_EgressTableWindow :
    (∃ (s : State), s.answers Pg.etm = true ∧ etmOp s = 0 ∧ etmIndex s < etmTableSize (etmTable s)) ∧
    (∃ (s : State), s.answers Pg.etm = true ∧ etmOp s = 2 ∧ etmTable s = 1 ∧ etmIndex s < 4096 ∧ (nodeEntry s (etmIndex s)).length = 8) ∧
    (∃ (s : State), s.answers Pg.etm = true ∧ etmOp s = 1 ∧ etmTable s = 3 ∧ etmIndex s < 4096) ∧
    (∃ (s : State), s.answers Pg.etm = true ∧ etmOp s = 1 ∧ etmTable s = 0 ∧ flowEn (flowCtx s (etmIndex s)) = false ∧ s.bit (Reg.etmTblData 8) 27 =
      false) ∧
    (∃ (s : State), s.answers Pg.etm = true ∧ etmOp s = 1 ∧ etmTable s = 0 ∧ flowEn (flowCtx s (etmIndex s)) = true ∧ boundFields (flowCtx s
      (etmIndex s)) ≠ boundFields ((List.range 16).map (fun k => s.reg (Reg.etmTblData k)))) ∧
    (∃ (s : State), s.answers Pg.etm = true ∧ etmOp s = 1 ∧ etmTableSize (etmTable s) ≤ etmIndex s) :=
  ⟨⟨setNodeEntry (sCom.setReg Reg.etmTblAddr 0x01000005) 5 [1, 2, 3, 4, 5, 6, 7, 8], by decide⟩,
   ⟨setNodeEntry (sCom.setReg Reg.etmTblAddr 0x21000005) 5 [1, 2, 3, 4, 5, 6, 7, 8], by decide⟩,
   ⟨(sCom.setReg Reg.etmTblAddr 0x13000005).setReg (Reg.etmTblData 3) 77, by decide⟩,
   ⟨(sCom.setReg Reg.etmTblAddr 0x10000005).setReg (Reg.etmTblData 3) 77, by decide⟩,
   ⟨setFlowCtx ((sCom.setReg Reg.etmTblAddr 0x10000005).setReg (Reg.etmTblData 8) 0x09000000) 5 [0, 0, 0, 0, 0, 0, 0, 0, 0x0A000000, 0, 0, 0, 0, 0,
     0, 0], by decide⟩,
   ⟨sCom.setReg Reg.etmTblAddr 0x11001000, by decide⟩⟩

set_option maxRecDepth 20000 in
theorem witness_CalendarsAndSamples :
    (∃ (p : Fin 10) (s : State), s.answers (Pg.eport p) = true ∧ p < 8) ∧
    (∃ (p : Fin 10) (s : State), 8 ≤ p.val) ∧
    (∃ (p : Fin 10) (s : State), s.inFrame = 0 ∧ s.running = true ∧ s.etm.calPend.contains p.val = true ∧ calendarOk s p = true) ∧
    (∃ (p : Fin 10) (s : State), s.inFrame = 0 ∧ s.running = true ∧ s.etm.calPend.contains p.val = true ∧ calendarOk s p = false) ∧
    (∃ (s : State), s.running = true ∧ s.getF Reg.etmSampleCfg 15 0 ≠ 0) ∧
    (∃ (s : State), s.getF Reg.etmSampleCfg 15 0 = 0) :=
  ⟨⟨7, sCom, by decide⟩,
   ⟨8, sCom, by decide⟩,
   ⟨7, ({ ((sRun.setReg (Reg.eportCalCycle 7) 1).setReg (Reg.eportCal 7 0) 0x80020000) with etm := { sRun.etm with calPend := [7] } } : State), by
     decide⟩,
   ⟨7, ({ (sRun.setReg (Reg.eportCalCycle 7) 0) with etm := { sRun.etm with calPend := [7] } } : State), by decide⟩,
   ⟨(sPort cpyT).setReg Reg.etmSampleCfg 5, by decide⟩,
   ⟨sCom, by decide⟩⟩

set_option maxRecDepth 20000 in
theorem witness_EthernetPortsAndFrames :
    (∃ (x : Fin 4) (s : State), s.answers (Pg.eth x) = true ∧ s.enabled (Pg.eth x) = false ∧ ethCheck s x = none) ∧
    (∃ (x : Fin 4) (s : State), s.answers (Pg.eth x) = true ∧ s.enabled (Pg.eth x) = false ∧ x < 2 ∧ s.getF (Reg.ethMode x) 1 0 = 3) ∧
    (∃ (x : Fin 4) (s : State), s.answers (Pg.eth x) = true) ∧
    (∃ (x : Fin 2) (bytes : List (BitVec 8)) (s : State), s.enabled (Pg.eth x) = true ∧ s.getF (Reg.ethLink x) 3 0 ≠ 0 ∧
      s.reg (Reg.ethRxDrop x) ≠ BitVec.allOnes 32 ∧ fcsOk (bytes.map BitVec.toNat) = false) ∧
    (∃ (x : Fin 2) (bytes : List (BitVec 8)) (s : State), s.enabled (Pg.eth x) = true ∧ s.getF (Reg.ethLink x) 3 0 ≠ 0 ∧ s.bit Reg.ptpCfg 8 = true ∧
      s.enabled (Pg.eth (2 + x)) = true ∧ sortFrame s x (bytes.map BitVec.toNat) = .ptp true ∧ bytes.length ≤ portMtu s (8 + x)) ∧
    (∃ (x : Fin 2) (bytes : List (BitVec 8)) (s : State), s.enabled (Pg.eth x) = true ∧ s.getF (Reg.ethLink x) 3 0 ≠ 0 ∧
      sortFrame s x (bytes.map BitVec.toNat) = .other) ∧
    (∃ (x : Fin 2) (bytes : List (BitVec 8)) (s : State), s.enabled (Pg.eth x) = true ∧ s.getF (Reg.ethLink x) 3 0 ≠ 0 ∧
      sortFrame s x (bytes.map BitVec.toNat) = .ptpDiscarded) ∧
    (∃ (b : List Nat), (rxHead b).l4 + 24 ≤ b.length - 4) ∧
    (∃ (x : Fin 2) (bytes : List (BitVec 8)) (s : State), s.enabled (Pg.eth (2 + x)) = true ∧ s.bit (Reg.ethLink (2 + x)) 0 = true ∧
      refusedFrame s (2 + x) (bytes.map BitVec.toNat) = none ∧ bytes.length ≤ portMtu s (4 * x.val + s.getF (Reg.ethCasMap (2 + x)) 1 0)) ∧
    (∃ (x : Fin 4) (sub : Fin 4) (s : State), s.bit (Reg.ethLink x) sub = true ∧ s.enabled Pg.ptp = false) ∧
    (∃ (x : Fin 4) (sub : Fin 4) (s : State), s.bit (Reg.ethLink x) sub = true ∧ s.enabled Pg.ptp = true ∧ x.val = slavePort s ∧ srcSel s ≠ 2) ∧
    (∃ (x : Fin 4) (sub : Fin 4) (s : State), s.enabled (Pg.eth x) = true ∧ sub < subPorts s x ∧ s.bit Reg.devClkStat (portClock x) = true) :=
  ⟨⟨0, sCom.setReg (Reg.ethMtu 0) 9216, by decide⟩,
   ⟨1, sCom.setReg (Reg.ethMode 1) 3, by decide⟩,
   ⟨3, sCom.setReg (Reg.ethRxDrop 3) 9, by decide⟩,
   ⟨0, [1, 2, 3, 4, 5], sPort cpyT, by decide⟩,
   ⟨0, frameT 319 1, ((sPort cpyT).setReg (Pg.eth 2 + hCtrl) 1).setReg Reg.ptpCfg 0x100, by decide +kernel⟩,
   ⟨0, frameT 77 1, sPort cpyT, by decide +kernel⟩,
   ⟨0, frameT 319 2, (sPort cpyT).setReg (Pg.ptp + hCtrl) 1, by decide +kernel⟩,
   ⟨(frameT 319 1).map BitVec.toNat, by decide +kernel⟩,
   ⟨1, frameT 319 1, (sCom.setReg (Pg.eth 3 + hCtrl) 1).setReg (Reg.ethLink 3) 1, by decide +kernel⟩,
   ⟨0, 0, sPort cpyT, by decide⟩,
   ⟨0, 0, (sPort cpyT).setReg (Pg.ptp + hCtrl) 1, by decide⟩,
   ⟨1, 0, (sCom.setReg (Pg.eth 1 + hCtrl) 1).setReg Reg.devClkStat 3, by decide⟩⟩

set_option maxRecDepth 20000 in
theorem witness_PtpMasterSide :
    (∃ (x : Fin 4) (s : State), masterOn s x = true ∧ s.running = false) ∧
    (∃ (x : Fin 4) (s : State), masterOn s x = true ∧ s.running = true) ∧
    (∃ (x : Fin 4) (s : State), (s.ptp.master.getLsbD x = false ∨ s.bit Reg.ptpCfg (4 + x) = false ∨ slaveOnly s = true)) ∧
    (∃ (x : Fin 4) (domain : BitVec 8) (s : State), masterOn s x = true ∧ domain.toNat = s.getF Reg.ptpDomain 7 0) ∧
    (∃ (s : State), s.answers Pg.ptp = true ∧ s.enabled Pg.ptp = false) ∧
    (∃ (s : State), s.enabled Pg.ptp = true ∧ masterOn s (slavePort s) = false) :=
  ⟨⟨0, sMaster, by decide⟩,
   ⟨0, sMaster.setReg (Pg.stp + hCtrl) 1, by decide⟩,
   ⟨0, sCom, by decide⟩,
   ⟨0, 0, sMaster.setReg Reg.ptpDomain 0, by decide⟩,
   ⟨sCom, by decide⟩,
   ⟨sSlave [], by decide⟩⟩

set_option maxRecDepth 20000 in
theorem witness_PtpSlaveSide :
    (∃ (x : Fin 4) (domain : BitVec 8) (s : State), hears s x domain = true ∧ slaveOn s x = true ∧ srcSel s ≠ 2 ∧ (∀ y < 4, masterOn s y = false)) ∧
    (∃ (x : Fin 4) (domain : BitVec 8) (s : State), (domain.toNat ≠ s.getF Reg.ptpDomain 7 0 ∨ x.val ≠ slavePort s)) ∧
    (∃ (s : State), s.enabled Pg.ptp = true ∧ s.getF Reg.ptpPortState 3 0 = 9 ∧ s.running = false ∧ s.ptp.reqs.length < 8) ∧
    (∃ (s : State), s.enabled Pg.ptp = true ∧ (s.getF Reg.ptpPortState 3 0 = 8 ∨ s.getF Reg.ptpPortState 3 0 = 9) ∧ s.running = true) ∧
    (∃ (x : Fin 4) (domain : BitVec 8) (seq : BitVec 16) (received : Nat) (corr t1 t2 v : Int) (e : BitVec 16 × Int) (s : State),
      hears s x domain = true ∧ x.val = slavePort s ∧ s.ptp.reqs.find? (fun e => decide (e.1 = seq)) = some e ∧ s.ptp.lastSync = some (t1, t2) ∧
      v = ((t2 - t1) + ((received : Int) * 65536 - corr - e.2)) / 2 ∧ s.ptp.recent ≠ [] ∧ (v - medianInt s.ptp.recent).natAbs ≤ 65536000) ∧
    (∃ (x : Fin 4) (domain : BitVec 8) (seq : BitVec 16) (received : Nat) (corr t1 t2 v : Int) (e : BitVec 16 × Int) (s : State),
      hears s x domain = true ∧ x.val = slavePort s ∧ s.ptp.reqs.find? (fun e => decide (e.1 = seq)) = some e ∧ s.ptp.lastSync = some (t1, t2) ∧
      v = ((t2 - t1) + ((received : Int) * 65536 - corr - e.2)) / 2 ∧ s.ptp.recent ≠ [] ∧ 65536000 < (v - medianInt s.ptp.recent).natAbs) ∧
    (∃ (x : Fin 4) (domain : BitVec 8) (seq : BitVec 16) (s : State), hears s x domain = true ∧ x.val = slavePort s ∧ (∀ e ∈ s.ptp.reqs, e.1 ≠ seq)) ∧
    (∃ (x : Fin 4) (domain : BitVec 8) (best : BitVec 64) (s : State), hears s x domain = true ∧ best ≠ s.ptp.gm ∧ slaveOnly s = true) ∧
    (∃ (m : Master) (s : State), reaches s m Pg.ptp = true) ∧
    (∃ (s : State), s.enabled Pg.ptp = true ∧ masterOn s (slavePort s) = false) :=
  ⟨⟨0, 127, sSlave [], by decide⟩,
   ⟨0, 126, sSlave [], by decide⟩,
   ⟨sSlave [], by decide⟩,
   ⟨(sSlave []).setReg (Pg.stp + hCtrl) 1, by decide⟩,
   ⟨0, 127, 7, 3001000, 0, 65536000, 131072000, 65536000, (7, 196608000000), sSlave [65536001], by decide⟩,
   ⟨0, 127, 7, 3001000, 0, 65536000, 131072000, 65536000, (7, 196608000000), sSlave [655360000], by decide⟩,
   ⟨0, 127, 8, sSlave [], by decide⟩,
   ⟨0, 127, 77, sSlave [], by decide⟩,
   ⟨.host, sMaster.setReg Reg.ptpPortState 0x19, by decide⟩,
   ⟨sSlave [], by decide⟩⟩

/-- L24 and L16 packets of two channels at 48 kHz, 1 ms (R266). -/
theorem test_audio_width : audioWidth 48000 2 288 = some 3 ∧ audioWidth 48000 2 192 = some 2 ∧ audioWidth 48000 2 200 = none := by decide

set_option maxRecDepth 20000 in
theorem witness_AudioSourcesFillTheirFifos :
    (∃ (s : State), s.answers Pg.aud = true ∧ s.enabled Pg.aud = false) ∧
    (∃ (i : Fin 128) (word w : BitVec 32) (s : State), s.enabled Pg.aud = true ∧ inReceives s i = true ∧ (fld word 11 8 = 0 ∧ fld word 7 0 = 1) ∧ fld
      word 13 12 = s.getF Reg.audCfg 0 0 ∧ (ain s (16 + i)).rateBad = false ∧ w.getLsbD 28 = false ∧ (boundSrcs s).contains (srcId 3 i 0) = true ∧
      ((asrc s (srcId 3 i 0)).under = false ∧ (asrc s (srcId 3 i 0)).fifo.length < 64)) ∧
    (∃ (i : Fin 128) (word w : BitVec 32) (s : State), s.enabled Pg.aud = true ∧ inReceives s i = true ∧ (fld word 11 8 = 0 ∧ fld word 7 0 = 1) ∧ fld
      word 13 12 ≠ s.getF Reg.audCfg 0 0 ∧ (ain s (16 + i)).rateBad = false) ∧
    (∃ (i : Fin 16) (w : BitVec 28) (ppm : Int) (s : State), s.enabled Pg.aud = true ∧ ((ain s i).lock = true ∧ (ain s
      i).rateBad = false) ∧ ((asrc s (aesB i)).under = false ∧ (asrc s (aesB i)).fifo.length < 64)) ∧
    (∃ (i : Fin 16) (pre : AesPreamble) (w : BitVec 28) (violation : Bool) (ppm : Int) (s : State), s.enabled Pg.aud = true ∧ (violation = true ∨ pre =
      .missing)) ∧
    (∃ (s : State), s.enabled Pg.aud = true ∧ s.bit Reg.audCfg 1 = true ∧ s.aud.lost = false) ∧
    (∃ (m : Fin 8) (v : BitVec 64) (s : State), s.enabled Pg.aud = true ∧ s.bit Reg.audPdmCfg m = true ∧ (boundSrcs s).contains (srcId 2 m 0) = true
      ∧ (asrc s (srcId 2 m 0)).fifo.length < 64) ∧
    (∃ (f : Fin 256) (pathB : Bool) (seq : BitVec 16) (rtp : BitVec 32) (payload : List (BitVec 8)) (width : Nat) (s : State), s.enabled Pg.aud = true
      ∧ ((audFlow s f).getD 0 0).getLsbD (if pathB then 1 else 0) = true ∧ audioWidth s.audFs 1 payload.length = some width ∧ 0 < payload.length ∧ fld ((audFlow s f).getD 0 0) 9 3 = 1 ∧ (Store.get (fun _ => ([] : List (BitVec 16))) s.aud.seqs f.val).contains seq = false ∧ (boundSrcs
      s).contains (srcId 4 f 0) = true ∧ (∀ j < payload.length / width, lateFor s (srcId 4 f 0) (rtpInstant s rtp
      ((audFlow s f).getD 6 0) + j) = false)) ∧
    (∃ (f : Fin 256) (pathB : Bool) (seq : BitVec 16) (rtp : BitVec 32) (payload : List (BitVec 8)) (s : State), (Store.get (fun _ => ([] : List (BitVec 16)))
      s.aud.seqs f.val).contains seq = true) :=
  ⟨⟨sCom.setReg Reg.audCfg 2, by decide⟩,
   ⟨5, 1, 0x02000123, sAud 0x503, by decide⟩,
   ⟨5, 0x1001, 0x02000123, sAud 0x503, by decide⟩,
   ⟨2, 77, 0, setAin (sAud 0) 2 { AIn.init with lock := true }, by decide⟩,
   ⟨2, .missing, 77, false, 0, setAin (sAud 0) 2 { AIn.init with lock := true }, by decide⟩,
   ⟨(sAud 0).setReg Reg.audCfg 0x302, by decide⟩,
   ⟨3, 9, (sAud 0x302).setReg Reg.audPdmCfg 0xFF, by decide⟩,
   ⟨9, false, 4, 480, List.replicate 18 77, 3, sFlow, by decide⟩,
   ⟨9, true, 4, 480, [77], ({ sFlow with aud := { sFlow.aud with seqs := [(9, [4])] } } : State), by decide⟩⟩

set_option maxRecDepth 20000 in
theorem witness_AudioGridAndStreams :
    (∃ (s : State), s.enabled Pg.aud = true ∧ s.bit Reg.audCfg 1 = true) ∧
    (∃ (s : State), s.enabled Pg.aud = true ∧ s.bit Reg.audCfg 1 = false ∧ s.running = true) ∧
    (∃ (o : Fin 16) (w : BitVec 32) (s : State), s.answers Pg.aud = true) ∧
    (∃ (n : Fin 128) (k : Fin 4) (f : BitVec 32) (first last : Nat × BitVec 64) (s : State), s.enabled Pg.aud = true ∧ s.bit (Reg.chaudS302 n k) 0 =
      true ∧ audioOn s n = true ∧ ((s.chan n).starts.reverse.find? (fun g => decide (Store.get (fun _ => 0) s.aud.pes (4 * n.val + k.val) = 0 ∨ 0 <
      (g - BitVec.ofNat 32 (Store.get (fun _ => 0) s.aud.pes (4 * n.val + k.val) - 1)).toInt)) = some f) ∧ (s.aud.grids.any (fun e => !(later
      (State.posOf (f + BitVec.ofNat 32 (s.cfgOf n).div) 0) e.2))) = true ∧ (instantsIn s (State.posOf f 0) (State.posOf (f + BitVec.ofNat 32
      (s.cfgOf n).div) 0)).head? = some first ∧ (instantsIn s (State.posOf f 0) (State.posOf (f + BitVec.ofNat 32 (s.cfgOf n).div) 0)).getLast? =
      some last) ∧
    (∃ (n : Fin 128) (k : Fin 4) (l : List (Nat × BitVec 64)) (first last : Nat × BitVec 64) (s : State), s.enabled Pg.aud = true ∧ s.bit Reg.audCfg
      1 = false ∧ s.bit (Reg.chaudAesCtrl n k) 0 = true ∧ l = ((s.aud.grids.filter (fun e => decide (Store.get (fun _ => 0) s.aud.pkts (4 * n.val +
      k.val) ≤ e.1 + 1) && audioAt s n e.2)).reverse).take (s.audFs / (if s.bit (Reg.chaudAesCtrl n k) 1 then 8000 else 1000)) ∧ l.head? = some first
      ∧ l.getLast? = some last ∧ s.audFs / (if s.bit (Reg.chaudAesCtrl n k) 1 then 8000 else 1000) ≤ l.length ∧ s.etm.withdrawn = (false, false)) :=
  ⟨⟨(sAud 0).setReg Reg.audCfg 2, by decide⟩,
   ⟨(sAud 0x302).setReg (Pg.stp + hCtrl) 1, by decide⟩,
   ⟨4, 0xFFFFFFFF, sCom, by decide⟩,
   ⟨3, 1, 0, (10, 0), (10, 0), sPes, by decide⟩,
   ⟨3, 1, [(10, 0), (11, 1), (12, 2), (13, 3), (14, 4), (15, 5)], (10, 0), (15, 5), sRtp, by decide⟩⟩

set_option maxRecDepth 20000 in
theorem witness_AudioTableWindow :
    (∃ (s : State), s.answers Pg.aud = true ∧ s.bit Reg.audTblAddr 16 = false ∧ audTable s = 0) ∧
    (∃ (s : State), s.answers Pg.aud = true ∧ s.bit Reg.audTblAddr 16 = false ∧ audTable s = 1 ∧ audIndex s < 256) ∧
    (∃ (s : State), s.answers Pg.aud = true ∧ s.bit Reg.audTblAddr 16 = false ∧ (audTable s = 3 ∨ (audTable s = 2 ∧ 32 ≤ audIndex s))) ∧
    (∃ (s : State), s.answers Pg.aud = true ∧ s.bit Reg.audTblAddr 16 = true ∧ audTable s = 0) :=
  ⟨⟨(sAud 0x302).setReg Reg.audTblAddr 0, by decide⟩,
   ⟨sFlow.setReg Reg.audTblAddr 0x1009, by decide⟩,
   ⟨sFlow.setReg Reg.audTblAddr 0x2020, by decide⟩,
   ⟨(sFlow.setReg Reg.audTblAddr 0x10001).setReg (Reg.audTblData 0) 0xFFFFFFFF, by decide⟩⟩

set_option maxRecDepth 20000 in
theorem witness_MonitorHeadFrames :
    (∃ (s : State), s.answers Pg.mon = true ∧ s.enabled Pg.mon = false ∧ monCheck s = none) ∧
    (∃ (r : Refusing) (s : State), s.answers Pg.mon = true ∧ s.enabled Pg.mon = false ∧ monCheck s = some r) ∧
    (∃ (s : State), s.answers Pg.mon = true ∧ s.enabled Pg.mon = true) ∧
    (∃ (s : State), s.running = true ∧ s.enabled Pg.mon = true ∧ s.mon.inFrame = true ∧ s.bit Reg.monCommitStat 0 = true ∧
      monCommitFail s (monShadow s) = none) ∧
    (∃ (w : Nat) (s : State), s.running = true ∧ s.enabled Pg.mon = true ∧ s.mon.inFrame = true ∧ s.bit Reg.monCommitStat 0 = true ∧ monCommitFail s (monShadow s) =
      some w) ∧
    (∃ (ln : Nat) (s : State), s.enabled Pg.mon = true ∧ s.running = true ∧ s.mon.inFrame = true ∧ s.hasRole = true ∧ 1 ≤ ln ∧ ln + 1 < (monCfg s).h)
      ∧
    (∃ (ln : Nat) (late : List (Fin 68)) (s : State), s.enabled Pg.mon = true ∧ s.running = true ∧ s.mon.inFrame = true ∧ 1 ≤ (monCfg s).h ∧ ln =
      (monCfg s).h) ∧
    (∃ (rx : BitVec 32) (readback : List (BitVec 8)) (s : State), s.enabled Pg.mon = true ∧ s.mon.inFrame = true ∧ s.mon.linkBad = false ∧ readCrc
      readback = rx ∧ BitVec.ofNat 32 (crcOut 32 0xFFFFFFFF
      true s.mon.crc) = rx) ∧
    (∃ (rx : BitVec 32) (readback : List (BitVec 8)) (s : State), s.enabled Pg.mon = true ∧ s.mon.inFrame = true ∧ s.mon.linkBad = false ∧ readCrc
      readback = rx ∧ BitVec.ofNat 32 (crcOut 32 0xFFFFFFFF
      true s.mon.crc) ≠ rx) :=
  ⟨⟨sMon.setReg (Pg.mon + hCtrl) 0, by decide⟩,
   ⟨⟨0x0112, wordOf Reg.monRaster, 0⟩, sCom, by decide⟩,
   ⟨sMon, by decide⟩,
   ⟨(sMon.setReg (Pg.mon + 0x544) 0x2000), by decide⟩,
   ⟨0x145, sMon.setReg (Pg.mon + 0x500) 1, by decide⟩,
   ⟨7, sMon, by decide⟩,
   ⟨64, [3], sMon, by decide⟩,
   ⟨0, [], sMon, by decide⟩,
   ⟨readCrc [5], [5], sMon, by decide⟩⟩

set_option maxRecDepth 20000 in
theorem witness_DoorbellsEnterTheFifo :
    (∃ (m : Master) (k : Fin 4096) (s : State), reaches s m Pg.reeve = true ∧ owns m k = true ∧ s.rv.fifo.length < 256) ∧
    (∃ (m : Master) (k : Fin 4096) (s : State), reaches s m Pg.reeve = true ∧ owns m k = true ∧ s.rv.fifo.length < 256) ∧
    (∃ (m : Master) (k : Fin 4096) (v : Fin 64) (s : State), reaches s m Pg.reeve = true ∧ owns m k = true ∧ s.rv.fifo.length < 256) ∧
    (∃ (m : Master) (k : Fin 4096) (v : BitVec 8) (s : State), reaches s m Pg.reeve = true ∧ owns m k = true ∧ s.rv.fifo.length < 256) ∧
    (∃ (m : Master) (k : Fin 4096) (v : BitVec 16) (s : State), reaches s m Pg.reeve = true ∧ owns m k = true ∧ s.rv.fifo.length < 256) ∧
    (∃ (k : Fin 4096) (s : State), s.answers Pg.reeve = true ∧ k < 2304) ∧
    (∃ (m : Master) (op : Fin 16) (s : State), reaches s m Pg.reeve = true ∧ 5 ≤ op) ∧
    (∃ (b : Bell) (s : State), firstStalled s.rv.held = some b) ∧
    (∃ (s : State), firstStalled s.rv.held = none) :=
  ⟨⟨.host, 2304, sCom, by decide⟩,
   ⟨.cc 3, 7, sCom, by decide⟩,
   ⟨.cc 3, 7, 63, sCom, by decide⟩,
   ⟨.cc 3, 7, 63, sCom, by decide⟩,
   ⟨.host, 4095, 63, sCom, by decide⟩,
   ⟨2303, sCom, by decide⟩,
   ⟨.host, 5, sCom, by decide⟩,
   ⟨⟨7, 0, 0, 41⟩, ({ sCom with rv := { sCom.rv with held := [(⟨7, 0, 0, 41⟩, false)] } } : State), by decide⟩,
   ⟨sCom, by decide⟩⟩

set_option maxRecDepth 20000 in
theorem witness_ListEngineAndDispatchPoints :
    (∃ (b : Bell) (s : State), s.rv.vector = [] ∧ s.rv.held = [] ∧ s.rv.fifo.head? = some b ∧ b.op = 0 ∧ (s.thread b.thread).state = 1) ∧
    (∃ (b : Bell) (s : State), s.rv.vector = [] ∧ s.rv.held = [] ∧ s.rv.fifo.head? = some b ∧ b.op = 2 ∧ (s.thread b.thread).state ≠ 3) ∧
    (∃ (m : Master) (p : Fin 8) (b : Nat) (y : Thread) (s : State), reaches s m (Pg.cc p) = true ∧ (s.pair p).running = none ∧ (s.pair p).cancelled =
      false ∧ s.best p = some (b, y)) ∧
    (∃ (m : Master) (p : Fin 8) (s : State), reaches s m (Pg.cc p) = true ∧ (s.pair p).running = none ∧ (s.pair p).cancelled = false ∧ s.rv.threads =
      []) ∧
    (∃ (p : Fin 8) (r : Nat) (s : State), (s.pair p).running = some r ∧ ((s.thread r).cancel = false ∧ (s.thread r).freeing = false ∧ (s.thread
      r).rerun = false)) ∧
    (∃ (p : Fin 8) (r : Nat) (s : State), (s.pair p).running = some r ∧ ((s.thread r).cancel = false ∧ (s.thread r).freeing = false)) ∧
    (∃ (k : Fin 4096) (s : State), dueNow s (s.thread k) = true) ∧
    (∃ (p : Fin 8) (s : State), s.pstate p ≤ 3 ∧ (s.pair p).dispatch = false ∧ s.bit Reg.belfryReq p = false) :=
  ⟨⟨⟨7, 0, 0, 41⟩, sThr 1 ⟨7, 0, 0, 41⟩, by decide⟩,
   ⟨⟨7, 2, 9, 41⟩, sThr 1 ⟨7, 2, 9, 41⟩, by decide⟩,
   ⟨.cc 0, 2, 7, { Thread.init with state := 2, aff := 255, en := true }, sThr 2 ⟨7, 2, 9, 41⟩, by decide⟩,
   ⟨.cc 0, 2, sCom, by decide⟩,
   ⟨2, 7, (sThr 3 ⟨7, 2, 9, 41⟩).setPair 2 { PairSt.init with running := some 7 }, by decide⟩,
   ⟨2, 7, (sThr 3 ⟨7, 2, 9, 41⟩).setPair 2 { PairSt.init with running := some 7 }, by decide⟩,
   ⟨7, sCom.setThread 7 { Thread.init with state := 2, hasDue := true, checked := false }, by decide⟩,
   ⟨2, sCom, by decide⟩⟩

set_option maxRecDepth 20000 in
theorem witness_ReeveTableWindow :
    (∃ (s : State), s.answers Pg.reeve = true ∧ s.getF Reg.reeveTblAddr 17 16 = 0 ∧ s.bit Reg.reeveTblAddr 12 = false) ∧
    (∃ (s : State), s.answers Pg.reeve = true ∧ s.getF Reg.reeveTblAddr 17 16 = 0 ∧ s.bit Reg.reeveTblAddr 12 = true) ∧
    (∃ (m : Master) (s : State), reaches s m Pg.reeve = true ∧ s.getF Reg.reeveTblAddr 17 16 = 1 ∧ s.bit Reg.reeveTblAddr 12 = false ∧ owns m (s.getF
      Reg.reeveTblAddr 11 0) = true ∧ (s.thread (s.getF Reg.reeveTblAddr 11 0)).state ≠ 3) ∧
    (∃ (s : State), s.answers Pg.reeve = true ∧ s.getF Reg.reeveTblAddr 17 16 = 1 ∧ s.bit Reg.reeveTblAddr 12 = false ∧ s.getF Reg.reeveTblAddr 11 0
      < 2304) ∧
    (∃ (p : Fin 8) (s : State), s.inReset = false ∧ s.getF Reg.reeveTblAddr 17 16 = 1 ∧ s.bit Reg.reeveTblAddr 12 = true) :=
  ⟨⟨(sThr 2 ⟨7, 2, 9, 41⟩).setReg Reg.reeveTblAddr 7, by decide⟩,
   ⟨({ (sCom.setReg Reg.reeveTblAddr 0x1007) with rv := { sCom.rv with bindings := [(7, 0x8123)] } } : State), by decide⟩,
   ⟨.cc 1, ((sThr 2 ⟨7, 2, 9, 41⟩).setReg Reg.reeveTblAddr 0x10007).setReg (Reg.reeveTblData 0) 0x8000FF21, by decide⟩,
   ⟨(sThr 2 ⟨7, 2, 9, 41⟩).setReg Reg.reeveTblAddr 0x10007, by decide⟩,
   ⟨2, ((sThr 2 ⟨7, 2, 9, 41⟩).setReg Reg.reeveTblAddr 0x11007).setReg (Reg.reeveTblData 0) 0xFFFFFFFF, by decide⟩⟩

set_option maxRecDepth 20000 in
theorem witness_PairsDrainLoadAndRestart :
    (∃ (p : Fin 8) (s : State), s.answers (Pg.cc p) = true ∧ (s.pair p).drain = false ∧ drainBusy s p = false) ∧
    (∃ (p : Fin 8) (s : State), s.answers (Pg.cc p) = true ∧ (s.pair p).drain = false ∧ drainBusy s p = true) ∧
    (∃ (p : Fin 8) (s : State), s.pstate p = 2 ∧ (s.pair p).running = none ∧ homed s p = []) ∧
    (∃ (p : Fin 8) (s : State), s.answers (Pg.cc p) = true ∧ (s.pair p).loading = false) ∧
    (∃ (p : Fin 8) (s : State), s.answers (Pg.cc p) = true ∧ s.pstate p = 3) ∧
    (∃ (p : Fin 8) (s : State), s.pstate p = 4 ∧ (s.pair p).undrain = false ∧ (s.pair p).drained = true) ∧
    (∃ (p : Fin 8) (s : State), s.pstate p = 4 ∧ (s.pair p).undrain = false ∧ (s.pair p).drained = true ∧ headerOk (pairImage s p).1 = false) ∧
    (∃ (p : Fin 8) (r : Nat) (s : State), (s.pair p).failed = false ∧ (s.pair p).running = some r) ∧
    (∃ (p : Fin 8) (s : State), (s.pair p).offline = true ∧ (s.pair p).secondLock = false) ∧
    (∃ (p : Fin 8) (s : State), (s.pair p).offline = true ∧ (s.pair p).secondLock = true) :=
  ⟨⟨2, sCom, by decide⟩,
   ⟨2, sCom.setPair 3 { PairSt.init with drain := true }, by decide⟩,
   ⟨2, sCom.setPair 2 { PairSt.init with drain := true }, by decide⟩,
   ⟨2, sCom.setPair 2 { PairSt.init with drain := true }, by decide⟩,
   ⟨2, sCom.setPair 2 { PairSt.init with drain := true, drained := true }, by decide⟩,
   ⟨2, sCom.setPair 2 { PairSt.init with drain := true, drained := true, loading := true }, by decide⟩,
   ⟨2, sCom.setPair 2 { PairSt.init with drain := true, drained := true, loading := true }, by decide⟩,
   ⟨2, 7, (sThr 3 ⟨7, 2, 9, 41⟩).setPair 2 { PairSt.init with running := some 7 }, by decide⟩,
   ⟨2, sCom.setPair 2 { PairSt.init with offline := true }, by decide⟩,
   ⟨2, sCom.setPair 2 { PairSt.init with offline := true, secondLock := true }, by decide⟩⟩

set_option maxRecDepth 20000 in
theorem witness_OtherMastersCannotClaim :
    (∃ (m : Master) (bell : Option (Fin 64)) (k : Fin 9) (s : State), isTarget m k = false) ∧
    (∃ (m : Master) (bell : Option (Fin 64)) (k : Fin 9) (src : Fin 4096) (s : State), isTarget m k = false) :=
  ⟨⟨.host, none, 3, sCom, by decide⟩,
   ⟨.cc 4, none, 3, 100, sCom, by decide⟩⟩

set_option maxRecDepth 20000 in
theorem witness_SourcesPendAndAreServed :
    (∃ (n : Fin 4096) (pg : Nat) (s : State), sourcePage n = some pg ∧ eventsUp s pg = true ∧ s.isEdge n = false ∧ s.inputBit n = false ∧ s.activeBit
      n = false) ∧
    (∃ (n : Fin 4096) (s : State), sourceExists n = true ∧ (isSoft n = false ∧ isGpio n = false) ∧ s.isEdge n = true) ∧
    (∃ (n : Fin 4096) (pg : Nat) (s : State), sourcePage n = some pg ∧ sourceExists n = true ∧ isSoft n = false ∧ eventsUp s pg = false ∧ s.inputBit
      n = true) ∧
    (∃ (m : Master) (bell : Option (Fin 64)) (k : Fin 9) (pr n : Nat) (s : State), reaches s m (bellPage bell) = true ∧ isTarget m k = true ∧
      State.bestSource (s.claimable k (bell.map Fin.val)) = some (pr, n)) ∧
    (∃ (m : Master) (k : Fin 9) (src : Fin 4096) (s : State), reaches s m Pg.belfry = true ∧ isTarget m k = true ∧ Store.get (fun _ => 15)
      s.bf.active src.val = k.val) ∧
    (∃ (m : Master) (k : Fin 9) (src : Fin 4096) (s : State), reaches s m Pg.belfry = true ∧ isTarget m k = true ∧ Store.get (fun _ => 15)
      s.bf.active src.val ≠ k.val) ∧
    (∃ (b : Fin 64) (hi : Bool) (w : BitVec 32) (s : State), s.answers (Pg.bell b) = true ∧ 48 ≤ b) ∧
    (∃ (s : State), s.answers Pg.belfry = true) :=
  ⟨⟨1, Pg.dev, ((sCom.setReg (Pg.dev + hEvt) 1).setReg (Pg.dev + hEvtEn) 1), by decide⟩,
   ⟨64, sCom.setReg (srcCfg 64) 0x100, by decide⟩,
   ⟨1, Pg.dev, (sCom.setInput 1 true).setPending 1 true, by decide⟩,
   ⟨.cc 2, none, 2, 0, 64, sBell.assign 64 2, by decide⟩,
   ⟨.cc 2, 2, 64, ({ (sBell.setActive 64 true) with bf := { sBell.bf with active := [(64, 2)] } } : State), by decide⟩,
   ⟨.cc 2, 2, 64, sBell, by decide⟩,
   ⟨50, true, 0x80000001, sCom, by decide⟩,
   ⟨sCom.setReg Reg.belfryOrphan 0x18040, by decide⟩⟩

set_option maxRecDepth 20000 in
theorem witness_HostWindowAndLayout :
    (∃ (off : BitVec 28) (bytes : List (BitVec 8)) (s : State), s.mode ≠ 0 ∧ (s.bit Reg.hbmCfg 0 = false ∨ spanAll (bar2Addr s off.toNat)
      bytes.length (inHost s) = true) ∧ bar2Addr s off.toNat + bytes.length ≤ s.hbmEnd) ∧
    (∃ (off : BitVec 28) (bytes : List (BitVec 8)) (s : State), s.mode ≠ 0 ∧ s.bit Reg.hbmCfg 0 = true ∧ spanAll (bar2Addr s off.toNat) bytes.length
      (inHost s) = false) ∧
    (∃ (off : BitVec 28) (len : Fin 9) (s : State), s.mode ≠ 0 ∧ bar2Addr s off.toNat + len ≤ s.hbmEnd) ∧
    (∃ (off : BitVec 28) (len : Fin 9) (s : State), s.hbmEnd < bar2Addr s off.toNat + len) ∧
    (∃ (s : State), s.answers Pg.hbm = true ∧ s.mode = 1 ∧ anyChannelPlaced s = false ∧ layoutFail s (layoutOver (fun n => s.reg (Reg.hbmRegCfg n))
      (activePcs s)) = none) ∧
    (∃ (s : State), s.answers Pg.hbm = true ∧ (s.mode ≠ 1 ∨ anyChannelPlaced s = true)) ∧
    (∃ (m : Master) (offset : BitVec 26) (size : Fin 9) (write : Bool) (s : State), badAccess s offset.toNat size = true) :=
  ⟨⟨8, [1, 2, 3], sCom.setReg Reg.hbmCfg 0, by decide⟩,
   ⟨8, [1, 2, 3], (sCom.setReg Reg.hbmCfg 1).setReg Reg.hbmBar2Base 0, by decide⟩,
   ⟨8, 4, sCom, by decide⟩,
   ⟨8, 4, sCom.setReg Reg.hbmTop 0, by decide⟩,
   ⟨sCom, by decide⟩,
   ⟨sSvc, by decide⟩,
   ⟨.host, 2, 2, false, sCom, by decide⟩⟩

set_option maxRecDepth 20000 in
theorem witness_ControllersServeAndRefresh :
    (∃ (c : Fin 32) (r : MemReq) (err : ReadErr) (s : State), (pchSt s c = 1 ∨ pchSt s c = 3 ∨ pchSt s c = 4) ∧ (pch s c).queue = [] ∧ pcOf s r.addr.toNat = some c.val ∧ held337 s
      (pch s c) r = false ∧ r.write = true) ∧
    (∃ (c : Fin 32) (r : MemReq) (s : State), (pchSt s c = 1 ∨ pchSt s c = 3 ∨ pchSt s c = 4) ∧ (pch s c).queue = [] ∧ pcOf s r.addr.toNat = some c.val ∧ held337 s (pch s c) r =
      false ∧ r.write = false ∧ r.master = 42) ∧
    (∃ (c : Fin 32) (r : MemReq) (s : State), (pchSt s c = 1 ∨ pchSt s c = 3 ∨ pchSt s c = 4) ∧ (pch s c).queue = [] ∧ pcOf s r.addr.toNat = some c.val ∧ held337 s (pch s c) r =
      false ∧ r.write = false ∧ r.master ∈ [35, 36, 37, 38, 40, 49]) ∧
    (∃ (c : Fin 32) (r : MemReq) (s : State), (pchSt s c = 1 ∨ pchSt s c = 3 ∨ pchSt s c = 4) ∧ (pch s c).queue = [] ∧ pcOf s r.addr.toNat = some c.val ∧ held337 s (pch s c) r =
      false ∧ r.write = false ∧ r.master = 39) ∧
    (∃ (c : Fin 32) (s : State), (pchSt s c = 1 ∨ pchSt s c = 3 ∨ pchSt s c = 4) ∧ holdsDeadline (pch s c) = true ∧ owed s c < min 8 (s.getF
      Reg.hbmRefCfg 3 0)) ∧
    (∃ (c : Fin 32) (s : State), (pchSt s c = 1 ∨ pchSt s c = 3 ∨ pchSt s c = 4) ∧ holdsDeadline (pch s c) = true ∧ min 8 (s.getF Reg.hbmRefCfg
      3 0) ≤ owed s c) ∧
    (∃ (c : Fin 32) (s : State), pchServes s c = true ∧ holdsDeadline (pch s c) = false ∧ 0 < owed s c) ∧
    (∃ (c : Fin 32) (s : State), pchSt s c = 1 ∧ s.getF Reg.hbmSrIdle 15 0 ≠ 0 ∧ owed s c = 0 ∧ (pch s c).queue = []) ∧
    (∃ (c : Fin 32) (s : State), pchSt s c = 1 ∧ s.getF Reg.hbmSrIdle 15 0 ≠ 0 ∧ owed s c = 0 ∧ (pch s c).queue ≠ []) ∧
    (∃ (c : Fin 32) (s : State), s.answers (Pg.pch c) = true) ∧
    (∃ (loc : ParityLoc) (s : State), loc.unit < 32) ∧
    (∃ (loc : ParityLoc) (s : State), loc.unit < 32 ∧ (∀ e ∈ (pch s loc.unit).queue, e.1.write = true)) :=
  ⟨⟨4, ⟨9, 1087, 0, true⟩, .none, sCom.setReg (Reg.pchPstate 4) 1, by decide⟩,
   ⟨12, ⟨42, 0x123456780, 0, false⟩, sCom.setReg (Reg.pchPstate 12) 1, by decide⟩,
   ⟨12, ⟨36, 0x123456780, 0, false⟩, sCom.setReg (Reg.pchPstate 12) 4, by decide⟩,
   ⟨12, ⟨39, 0x123456780, 0, false⟩, sCom.setReg (Reg.pchPstate 12) 3, by decide⟩,
   ⟨4, sPch, by decide⟩,
   ⟨4, sPch.setReg (Reg.pchRefOwed 4) 8, by decide⟩,
   ⟨4, (sCom.setReg (Reg.pchPstate 4) 1).setReg (Reg.pchRefOwed 4) 8, by decide⟩,
   ⟨4, (sCom.setReg (Reg.pchPstate 4) 1).setReg Reg.hbmSrIdle 8, by decide⟩,
   ⟨4, sPch.setReg Reg.hbmSrIdle 8, by decide⟩,
   ⟨4, sPch, by decide⟩,
   ⟨⟨4, 0⟩, sPch, by decide⟩,
   ⟨⟨4, 0⟩, setPch sPch 4 { PchSt.init with queue := [(⟨38, 64, 0, true⟩, 0)] }, by decide⟩⟩

set_option maxRecDepth 20000 in
theorem witness_DriftRetrainingAndRetirement :
    (∃ (c : Fin 32) (trim v : Int) (pin : BitVec 8) (s : State), (s.mode = 2 ∨ s.mode = 3) ∧ pchSt s c = 1 ∧ owed s c = 0 ∧ v = trimTo ((s.reg (Reg.pchTrim c)).setWidth 8 : BitVec 8).toInt (decide (s.getF (Reg.pchTrim c) 15 8 = pin.toNat)) trim ∧ v.natAbs < 8) ∧
    (∃ (c : Fin 32) (trim v : Int) (pin : BitVec 8) (s : State), (s.mode = 2 ∨ s.mode = 3) ∧ pchSt s c = 1 ∧ owed s c = 0 ∧ v = trimTo ((s.reg (Reg.pchTrim c)).setWidth 8 : BitVec 8).toInt (decide (s.getF (Reg.pchTrim c) 15 8 = pin.toNat)) trim ∧ 8 ≤ v.natAbs) ∧
    (∃ (c : Fin 32) (salvage : Bool) (s : State), recovering s ∧ pchSt s c = 5) ∧
    (∃ (c : Fin 32) (s : State), recovering s ∧ pchSt s c = 5) ∧
    (∃ (c : Fin 32) (s : State), recovering s ∧ pchSt s c = 5) ∧
    (∃ (c : Fin 32) (s : State), recovering s ∧ pchSt s c = 6) :=
  ⟨⟨4, -9, -7, 3, (sSvc.setReg (Reg.pchPstate 4) 1).setReg (Reg.pchTrim 4) 0x206, by decide⟩,
   ⟨4, -8, -8, 3, (sSvc.setReg (Reg.pchPstate 4) 1).setReg (Reg.pchTrim 4) 0x3F9, by decide⟩,
   ⟨4, false, (sCom.setReg (Reg.pchPstate 4) 5).setReg Reg.watchMode 4, by decide⟩,
   ⟨4, (sCom.setReg (Reg.pchPstate 4) 5).setReg Reg.watchMode 4, by decide⟩,
   ⟨4, (sCom.setReg (Reg.pchPstate 4) 5).setReg Reg.watchMode 4, by decide⟩,
   ⟨4, (sCom.setReg (Reg.pchPstate 4) 6).setReg Reg.watchMode 4, by decide⟩⟩

set_option maxRecDepth 20000 in
theorem witness_CheckValueScans :
    (∃ (n : Fin 4) (s : State), s.answers (Pg.cvu n) = true ∧ (cvu s n).busy = false ∧ 1 ≤ cvuLen s n ∧ cvuStart s n + cvuLen s n ≤ s.hbmEnd) ∧
    (∃ (n : Fin 4) (loadInit : Bool) (s : State), s.answers (Pg.cvu n) = true ∧ (cvu s n).busy = true) ∧
    (∃ (n : Fin 4) (s : State), s.answers (Pg.cvu n) = true ∧ (cvu s n).busy = true) ∧
    (∃ (n : Fin 4) (s : State), (cvu s n).busy = true) ∧
    (∃ (n : Fin 4) (count : Nat) (s : State), (cvu s n).busy = true) :=
  ⟨⟨2, (sCom.setReg (Reg.cvuLenLo 2) 64).setReg (Reg.cvuInitLo 2) 9, by decide⟩,
   ⟨2, false, setCvu sCom 2 ⟨true, 0, 64, false⟩, by decide⟩,
   ⟨2, setCvu sCom 2 ⟨true, 0, 64, false⟩, by decide⟩,
   ⟨2, setCvu sCom 2 ⟨true, 0, 64, false⟩, by decide⟩,
   ⟨2, 70, setCvu sCom 2 ⟨true, 32, 128, false⟩, by decide⟩⟩

set_option maxRecDepth 20000 in
theorem witness_ParishBookLines :
    (∃ (x : Staged) (s : State), s.book.staged.find? (fun y => !(lineOpen s y)) = some x) ∧
    (∃ (x : Staged) (s : State), s.book.staged.find? (fun y => !(lineOpen s y)) = some x ∧ s.book.dead.contains (lineKey x.area x.pos) = false ∧ 0 <
      s.getF Reg.pbookSpares 9 0) ∧
    (∃ (s : State), s.answers Pg.pbook = true ∧ placeOf s (s.getF Reg.pbookRdArea 1 0) (s.reg Reg.pbookRdSeq) = none) ∧
    (∃ (pos : Nat) (s : State), s.answers Pg.pbook = true ∧ placeOf s (s.getF Reg.pbookRdArea 1 0) (s.reg Reg.pbookRdSeq) = some pos ∧ s.book.staged
      = [] ∧ s.book.dead = [] ∧ (bookLine s (lineKey (s.getF Reg.pbookRdArea 1 0) pos)).chkA = (lineChecks (bookLine s (lineKey (s.getF
      Reg.pbookRdArea 1 0) pos)) pos).1 ∧ (bookLine s (lineKey (s.getF Reg.pbookRdArea 1 0) pos)).chkB = (lineChecks (bookLine s (lineKey (s.getF
      Reg.pbookRdArea 1 0) pos)) pos).2) ∧
    (∃ (pos : Nat) (s : State), s.answers Pg.pbook = true ∧ placeOf s (s.getF Reg.pbookRdArea 1 0) (s.reg Reg.pbookRdSeq) = some pos ∧ s.book.staged
      = [] ∧ s.book.dead = [] ∧ s.book.closed = false ∧ (bookLine s (lineKey (s.getF Reg.pbookRdArea 1 0) pos)).chkA ≠ (lineChecks (bookLine s
      (lineKey (s.getF Reg.pbookRdArea 1 0) pos)) pos).1 ∧ (bookLine s (lineKey (s.getF Reg.pbookRdArea 1 0) pos)).chkB = (lineChecks (bookLine s
      (lineKey (s.getF Reg.pbookRdArea 1 0) pos)) pos).2) ∧
    (∃ (s : State), s.answers Pg.pbook = true ∧ s.book.closed = false) ∧
    (∃ (s : State), s.book.closed = true) ∧
    (∃ (n : Fin 128) (x : Nat) (s : State), (s.chan n).running = true ∧ (s.chan n).startFr = s.frame ∧ (s.chan n).air.sec = some x ∧ x < s.secAtFrame
      ∧ s.book.closed = false) :=
  ⟨⟨stagedT, sBook, by decide⟩,
   ⟨stagedT, sBook.setReg Reg.pbookSpares 5, by decide⟩,
   ⟨sCom.setReg Reg.pbookRdArea 3, by decide⟩,
   ⟨5, sHeld true, by decide⟩,
   ⟨5, sHeld false, by decide⟩,
   ⟨sBook, by decide⟩,
   ⟨({ sCom with book := { sCom.book with closed := true } } : State), by decide⟩,
   ⟨3, 0, sAir, by decide⟩⟩

set_option maxRecDepth 20000 in
theorem witness_FaultsAndRecovery :
    (∃ (r : FaultRec) (s : State), nextFault s.faults = some r) ∧
    (∃ (s : State), (s.book.supp = 0 ∨ s.book.closed = true)) ∧
    (∃ (s : State), 0 < s.book.supp ∧ s.book.closed = false) ∧
    (∃ (s : State), s.answers Pg.watch = true) ∧
    (∃ (s : State), (s.mode = 2 ∨ s.mode = 3) ∧ s.getF Reg.watchRecoverReq 4 0 ≠ 0 ∧ s.inFrame = 0 ∧ s.running = true ∧ s.boot.svcAt = none) ∧
    (∃ (s : State), s.mode = 4 ∧ s.getF Reg.watchRecoverReq 4 0 = 0 ∧ ((List.range 32).all (fun c => decide (pchSt s c < 5 ∨ pchSt s c = 7)) = true))
      ∧
    (∃ (s : State), s.mode = 3) :=
  ⟨⟨⟨0x1001, 0x100, 1, 2, 5⟩, ({ sSvc with faults := [⟨0x3001, 0x2000, 1, 2, 5⟩, ⟨0x1001, 0x100, 1, 2, 5⟩] } : State), by decide⟩,
   ⟨sCom, by decide⟩,
   ⟨({ sCom with book := { sCom.book with supp := 7, count := [(0, 3)] } } : State), by decide⟩,
   ⟨sCom, by decide⟩,
   ⟨(sSvc.setChan 3 (chanT 3)).setReg Reg.watchRecoverReq 1, by decide⟩,
   ⟨(sCom.setReg Reg.watchMode 4).setReg Reg.watchDegrCause 4, by decide⟩,
   ⟨sSvc.setReg Reg.watchMode 3, by decide⟩⟩

set_option maxRecDepth 20000 in
theorem witness_SextonTests :
    (∃ (e : Nat) (s : State), s.eng.loan = some e ∧ s.eng.loanPass = false ∧ s.mode ≠ 0) ∧
    (∃ (e step : Nat) (s : State), s.eng.loan = some e ∧ s.eng.loanPass = false ∧ s.mode ≠ 0 ∧ 1 ≤ step ∧ e < 34) ∧
    (∃ (p : Fin 384) (s : State), testRuns s 0 Pg.mp = true ∧ (s.plotKind p = 0 ∨ s.plotKind p = 5)) ∧
    (∃ (p : Fin 384) (s : State), testRuns s 0 Pg.mp = true ∧ s.plotKind p = 0) ∧
    (∃ (err : ReadErr) (s : State), testRuns s 1 Pg.hbm = true ∧ (err = .none ∨ err = .transient)) ∧
    (∃ (k : Fin 23) (s : State), testRuns s 2 Pg.mtx = true) ∧
    (∃ (k : Fin 23) (s : State), testRuns s 2 Pg.mtx = true) ∧
    (∃ (n : Fin 10) (p : Fin 8) (s : State), testRuns s 3 (Pg.clp n) = true ∧ laneRole s n p = 0 ∧ laneSt s n p ≠ 6) ∧
    (∃ (n : Fin 10) (p : Fin 8) (s : State), testRuns s 3 (Pg.clp n) = true ∧ laneRole s n p = 0 ∧ laneSt s n p ≠ 6) ∧
    (∃ (v : Bool) (s : State), s.answers Pg.sexton = true) ∧
    (∃ (s : State), s.answers Pg.sexton = true) :=
  ⟨⟨33, ({ sCom with eng := { sCom.eng with loan := some 33, loanPass := false } } : State), by decide⟩,
   ⟨33, 4, ({ sCom with eng := { sCom.eng with loan := some 33, loanPass := false } } : State), by decide⟩,
   ⟨9, sTest, by decide⟩,
   ⟨9, sTest, by decide⟩,
   ⟨.none, sTest, by decide⟩,
   ⟨9, sTest, by decide⟩,
   ⟨9, sTest, by decide⟩,
   ⟨4, 1, sTest, by decide⟩,
   ⟨4, 1, sTest, by decide⟩,
   ⟨true, sCom, by decide⟩,
   ⟨sTest, by decide⟩⟩

set_option maxRecDepth 20000 in
theorem witness_TwinStepIn :
    (∃ (s : State), s.answers Pg.stile = true ∧ s.enabled Pg.stile = false ∧ stileTests s = none) ∧
    (∃ (code word : Nat) (s : State), s.answers Pg.stile = true ∧ s.enabled Pg.stile = false ∧ stileTests s = some (code, word)) ∧
    (∃ (s : State), s.answers Pg.stile = true ∧ s.enabled Pg.stile = true ∧ anyChannelPlaced s = false) ∧
    (∃ (m : HelloMsg) (s : State), s.enabled Pg.stile = true ∧ stepSt s = 1 ∧ m.ident ≠ isMirror s ∧ m.raster = s.reg Reg.stpRaster ∧ m.sel = srcSel
      s ∧ m.stepping = 0xB0) ∧
    (∃ (m : HelloMsg) (s : State), s.enabled Pg.stile = true ∧ stepSt s = 1 ∧ m.ident = isMirror s) ∧
    (∃ (s : State), s.enabled Pg.stile = true ∧ stepSt s = 1 ∧ isMirror s = false ∧ s.twin.agreed = true ∧ 16 ≤ s.twin.hbRun) ∧
    (∃ (f : BitVec 32) (s : State), s.enabled Pg.stile = true ∧ stepSt s = 1 ∧ s.running = true ∧ s.twin.named = some f ∧ isMirror s = false) ∧
    (∃ (f : BitVec 32) (s : State), s.enabled Pg.stile = true ∧ stepSt s = 1 ∧ s.running = true ∧ s.twin.named = some f ∧ isMirror s = true ∧
      s.inFrame = 0) :=
  ⟨⟨sTwin0, by decide⟩,
   ⟨0x0702, 1, sCom, by decide⟩,
   ⟨sTwin 2, by decide⟩,
   ⟨⟨true, 0, 1, 0xB0, none⟩, (sTwin 1).setReg Reg.stpRaster 0, by decide⟩,
   ⟨⟨false, 0, 1, 0xB0, none⟩, sTwin 1, by decide⟩,
   ⟨({ sTwin 1 with twin := { TwinSt.init with agreed := true, hbRun := 16 } } : State), by decide⟩,
   ⟨1, ({ sTwin 1 with twin := { TwinSt.init with named := some 1 } } : State), by decide⟩,
   ⟨9, ({ (sTwin 1).setReg Reg.stileCfg 1 with twin := { TwinSt.init with named := some 9 } } : State), by decide⟩⟩

set_option maxRecDepth 20000 in
theorem witness_HeartbeatsAndRoutes :
    (∃ (s : State), s.enabled Pg.stile = true ∧ s.running = true ∧ s.inFrame % (64 * 262144) = 0) ∧
    (∃ (s : State), s.enabled Pg.stile = true) ∧
    (∃ (m : HeartbeatMsg) (s : State), s.enabled Pg.stile = true ∧ (hbMeasure s m).2.natAbs ≤ 32768 ∧ (linkState s 16 = 2 ∨ linkState s 16 = 3)) ∧
    (∃ (m : HeartbeatMsg) (s : State), s.enabled Pg.stile = true ∧ 65536 < (hbMeasure s m).2.natAbs) ∧
    (∃ (m : HeartbeatMsg) (s : State), s.enabled Pg.stile = true) ∧
    (∃ (s : State), s.enabled Pg.stile = true ∧ netUp s = true) ∧
    (∃ (s : State), s.enabled Pg.stile = true ∧ stileUp s = true) :=
  ⟨⟨sTwin 2, by decide⟩,
   ⟨sTwin 2, by decide⟩,
   ⟨⟨0, 0, 0, 0, 0⟩, (sTwin 2).setReg (Reg.clpLinkState 8) 2, by decide⟩,
   ⟨⟨0x100000, 0, 0, 0, 0⟩, sTwin 2, by decide⟩,
   ⟨⟨0x100000, 0, 0, 8, 0⟩, sTwin 2, by decide⟩,
   ⟨(sTwin 2).setReg Reg.stileState 0x22, by decide⟩,
   ⟨sTwin 2, by decide⟩⟩

set_option maxRecDepth 20000 in
theorem witness_TwinComparisonAndResolution :
    (∃ (r : CrcRec) (s : State), s.twinUp = true ∧ (s.twin.own.find? (samePlace r)) = none) ∧
    (∃ (r q : CrcRec) (s : State), s.twinUp = true ∧ (s.twin.own.find? (samePlace r)) = some q ∧ q.crc ≠ r.crc ∧ s.twin.diverged.contains
      r.channel.val = false ∧ s.twin.resolving = none) ∧
    (∃ (r : CrcRec) (s : State), s.twin.own.contains r = true) ∧
    (∃ (f : BitVec 32) (place cfg : BitVec 64) (s : State), s.inStep = true) ∧
    (∃ (step : Nat) (x : Resolve) (s : State), s.twin.resolving = some x ∧ s.getF Reg.stileResolve 1 0 = 0 ∧ s.slotOf x.engine = none ∧ s.twinUp =
      true) ∧
    (∃ (n : Fin 128) (r : Fin 4) (k : Fin 8) (j : Fin 256) (e : Fin 34) (pass : Bool) (x : Resolve) (s : State), s.twin.resolving = some x ∧
      sameSlice x n r k j = true) ∧
    (∃ (x : Resolve) (s : State), s.twin.resolving = some x ∧ s.twin.waiting = [] ∧ s.getF Reg.stileResolve 1 0 = 1 ∧ s.getF Reg.stileResolve 3 2 =
      1) ∧
    (∃ (x : Resolve) (s : State), s.twin.resolving = some x ∧ x.engine < 34 ∧ s.twin.waiting = [] ∧ s.getF Reg.stileResolve 1 0 = 2 ∧ s.getF
      Reg.stileResolve 3 2 = 1) :=
  ⟨⟨recT, sTwin 2, by decide⟩,
   ⟨recT, { recT with crc := 8 }, ({ sTwin 2 with twin := { TwinSt.init with own := [{ recT with crc := 8 }] } } : State), by decide⟩,
   ⟨recT, ({ sTwin 2 with twin := { TwinSt.init with own := [recT] } } : State), by decide⟩,
   ⟨7, 8, 9, ({ sTwin 2 with twin := { TwinSt.init with ownDigest := some (7, 8, 9) } } : State), by decide⟩,
   ⟨0, ⟨3, 0, 0, 0, 33, 0, 0⟩, sResolve, by decide⟩,
   ⟨3, 0, 0, 0, 5, true, ⟨3, 0, 0, 0, 33, 0, 0⟩, sResolve, by decide⟩,
   ⟨⟨3, 0, 0, 0, 33, 0, 0⟩, sResolve.setReg Reg.stileResolve 0x55, by decide⟩,
   ⟨⟨3, 0, 0, 0, 33, 0, 0⟩, sResolve.setReg Reg.stileResolve 0x56, by decide⟩⟩

set_option maxRecDepth 20000 in
theorem witness_ResyncAndSwaps :
    (∃ (s : State), s.answers Pg.stile = true ∧ s.twinUp = true ∧ resyncMask s ≠ 0 ∧ s.twin.resyncs = []) ∧
    (∃ (s : State), s.answers Pg.stile = true ∧ s.twinUp = false) ∧
    (∃ (m : BitVec 128) (f : BitVec 32) (s : State), s.inStep = true ∧ s.twin.resyncs = []) ∧
    (∃ (f : BitVec 32) (s : State), nextResync s = some f ∧ s.running = true) ∧
    (∃ (s : State), s.answers Pg.stile = true ∧ s.twinUp = true ∧ s.twin.swapAt = none ∧ s.twin.resolving = none) ∧
    (∃ (s : State), s.answers Pg.stile = true ∧ (s.twinUp = false ∨ s.twin.swapAt.isSome = true ∨ s.twin.resolving.isSome = true)) ∧
    (∃ (f : BitVec 32) (s : State), s.inStep = true ∧ s.twin.swapAt = none) ∧
    (∃ (f : BitVec 32) (s : State), s.twin.swapAt = some f ∧ s.running = true ∧ s.bit Reg.stileState 3 = false) ∧
    (∃ (f : BitVec 32) (s : State), s.twin.swapAt = some f ∧ s.running = true ∧ s.bit Reg.stileState 3 = true) ∧
    (∃ (f : BitVec 32) (s : State), s.twin.handover = some f) ∧
    (∃ (chars : List LaneGroup) (bytes : List (BitVec 8)) (w : Word) (pl : List Nat) (s : State), s.enabled (Pg.clp 8) = true ∧ 2 ≤ linkState s 16 ∧
      rowVote s 16 chars = (true, 0xFD) ∧ bytes = (link s 16).packet ∧ (link s 16).dead = false ∧
      openPacket (bytes.map BitVec.toNat) = some (0x15, 0, w, pl) ∧ s.inStep = true ∧ s.twin.swapAt = none) ∧
    (∃ (chars : List LaneGroup) (bytes : List (BitVec 8)) (type k : Nat) (w : Word) (pl : List Nat) (s : State), s.enabled (Pg.clp 8) = true ∧
      2 ≤ linkState s 16 ∧ rowVote s 16 chars = (true, 0xFD) ∧ bytes = (link s 16).packet ∧ (link s 16).dead = false ∧
      openPacket (bytes.map BitVec.toNat) = some (type, k, w, pl) ∧ (k ≠ 0 ∨ type < 0x10 ∨ 0x16 < type)) :=
  ⟨⟨(sTwin 2).setReg (Reg.stileResyncMask 0) 0x88, by decide⟩,
   ⟨sTwin 1, by decide⟩,
   ⟨0x88, 7, sTwin 2, by decide⟩,
   ⟨3, ({ (sTwin 2).setReg Reg.stileState 0x52 with twin := { TwinSt.init with resyncs := [(5, 3)], diverged := [5] } } : State), by decide⟩,
   ⟨sTwin 2, by decide⟩,
   ⟨sTwin 1, by decide⟩,
   ⟨9, sTwin 2, by decide⟩,
   ⟨3, ({ sTwin 2 with twin := { TwinSt.init with swapAt := some 3 } } : State), by decide⟩,
   ⟨3, ({ (sTwin 2).setReg Reg.stileState 0x1A with twin := { TwinSt.init with swapAt := some 3 } } : State), by decide⟩,
   ⟨3, ({ sTwin 2 with twin := { TwinSt.init with handover := some 3 } } : State), by decide⟩,
   ⟨List.replicate 8 groupEop, swapPacket, 0, [9, 0, 0, 0], sStile swapPacket, by decide⟩,
   ⟨List.replicate 8 groupEop, fmtPacket, 4, 0, 0, [], sStile fmtPacket, by decide⟩⟩

set_option maxRecDepth 20000 in
theorem witness_HoldoffTokenAndDualRole :
    (∃ (f : BitVec 32) (s : State), s.twin.holdoff = some f ∧ s.enabled Pg.stile = true ∧ s.running = true ∧ stileUp s = false ∧ netUp s = false ∧
      s.bit Reg.stileState 3 = false) ∧
    (∃ (f : BitVec 32) (s : State), s.twin.holdoff = some f ∧ s.enabled Pg.stile = true ∧ s.running = true ∧ stileUp s = false ∧ netUp s = false ∧
      s.bit Reg.stileState 3 = false) ∧
    (∃ (high : Bool) (s : State), s.running = true ∧ s.hasRole = true) ∧
    (∃ (s : State), s.bit Reg.stileState 9 = true ∧ isMirror s = true ∧ s.running = true) :=
  ⟨⟨3, ({ (sTwin 2).setReg Reg.stileState 2 with twin := { TwinSt.init with holdoff := some 3 } } : State), by decide⟩,
   ⟨3, ({ (sTwin 2).setReg Reg.stileState 2 with twin := { TwinSt.init with holdoff := some 3 } } : State), by decide⟩,
   ⟨true, (sTwin 2).setReg Reg.stileState 0x1A, by decide⟩,
   ⟨((sTwin 2).setReg Reg.stileState 0x21A).setReg Reg.stileCfg 1, by decide⟩⟩

set_option maxRecDepth 20000 in
theorem witness_ModeRequestsTakeEffect :
    (∃ (k : BitVec 16) (s : State), s.inReset = false ∧ requestRefusal s 1 = none) ∧
    (∃ (k : BitVec 16) (s : State), s.inReset = false ∧ requestRefusal s 2 = none) ∧
    (∃ (k : BitVec 16) (code : Nat) (s : State), s.inReset = false ∧ requestRefusal s 2 = some code) ∧
    (∃ (k : BitVec 16) (s : State), s.inReset = false ∧ requestRefusal s 5 = none) ∧
    (∃ (s : State), s.inReset = false ∧ s.running = true ∧ s.inFrame = 0 ∧ s.mode = 1 ∧ s.getF Reg.devModeReq 2 0 = 2 ∧ s.getF Reg.devModeReq 31 16 =
      0) ∧
    (∃ (s : State), s.inReset = false ∧ s.running = true ∧ s.inFrame = 0 ∧ (s.mode = 2 ∨ s.mode = 3) ∧ s.getF Reg.devModeReq 2 0 = 1 ∧ s.getF
      Reg.devModeReq 31 16 = 0) :=
  ⟨⟨7, sSvc, by decide⟩,
   ⟨7, sRun, by decide⟩,
   ⟨7, 0x0802, sSvc, by decide⟩,
   ⟨7, sCom, by decide⟩,
   ⟨sRun.setReg Reg.devModeReq 2, by decide⟩,
   ⟨(sSvc.setChan 3 (chanT 3)).setReg Reg.devModeReq 1, by decide⟩⟩

set_option maxRecDepth 20000 in
theorem witness_ResetsAndLinks :
    (∃ (s : State), s.inReset = false) ∧
    (∃ (s : State), s.inReset = true) ∧
    (∃ (s : State), s.inReset = false) ∧
    (∃ (s : State), s.inReset = false) ∧
    (∃ (key : BitVec 16) (s : State), key ≠ 0xA5C3) ∧
    (∃ (s : State), s.inReset = false) ∧
    (∃ (s : State), s.inReset = false) ∧
    (∃ (s : State), s.inReset = false ∧ s.mode ≠ 0) ∧
    (∃ (c : ClockId) (s : State), s.inReset = false) :=
  ⟨⟨sSvc, by decide⟩,
   ⟨({ sCom with pins := { sCom.pins with resetLow := true } } : State), by decide⟩,
   ⟨sBook, by decide⟩,
   ⟨sBook, by decide⟩,
   ⟨0xA5C2, sBook, by decide⟩,
   ⟨sCom, by decide⟩,
   ⟨sCom.setReg Reg.devClkStat 31, by decide⟩,
   ⟨(sPort cpyT).setReg Reg.devClkStat 31, by decide⟩,
   ⟨.clp, sCom, by decide⟩⟩

set_option maxRecDepth 20000 in
theorem witness_BootStagesAdvance :
    (∃ (s : State), (booting s 0 = true ∨ booting s 1 = true)) ∧
    (∃ (s : State), (booting s 0 = true ∨ booting s 1 = true)) ∧
    (∃ (trained : BitVec 32) (s : State), booting s 2 = true ∧ 16 ≤ popcount (s.reg Reg.hbmActive &&& trained)) ∧
    (∃ (trained : BitVec 32) (s : State), booting s 2 = true ∧ popcount (s.reg Reg.hbmActive &&& trained) < 16) ∧
    (∃ (image : List (BitVec 8)) (s : State), booting s 3 = true ∧ image.length ≤ 62914560) ∧
    (∃ s : State, booting s 4 = true) ∧
    (∃ (a b : List (BitVec 8)) (s : State), booting s 4 = true ∧ headerOk (a.map BitVec.toNat) = false ∧ headerOk (b.map BitVec.toNat) = false) ∧
    (∃ (h : List Nat) (s : State), headerOk h = true ∧ headField h 0x010 1 < 4 ∧ s.bit Reg.devFuseStat (4 + headField h 0x010 1) = true) ∧
    (∃ (s : State), booting s 5 = true) ∧
    (∃ (s : State), booting s 6 = true) ∧
    (∃ (passed : BitVec 34) (s : State), booting s 7 = true) ∧
    (∃ (record : List (BitVec 26 × BitVec 32)) (ms : Nat) (s : State), booting s 8 = true ∧ booting (applyRecord s record) 8 = true) ∧
    (∃ (s : State), s.inReset = false ∧ s.mode = 1 ∧ s.getF Reg.devFuseStat 22 16 < s.getF Reg.devImgVer 5 0) :=
  ⟨⟨sBoot 0, by decide⟩,
   ⟨sBoot 0, by decide⟩,
   ⟨0xFFFFFFFE, sBoot 2, by decide⟩,
   ⟨0xFF, sBoot 2, by decide⟩,
   ⟨[1, 2], sBoot 3, by decide⟩,
   ⟨sBoot 4, by decide⟩,
   ⟨[1, 2], [], sBoot 4, by decide⟩,
   ⟨[0x48, 0x49, 0x4B, 0x53, 1], { sBoot 4 with regs := (Reg.devFuseStat, 0x10) :: (sBoot 4).regs }, by decide⟩,
   ⟨sBoot 5, by decide⟩,
   ⟨sBoot 6, by decide⟩,
   ⟨0x3FFFFFFFD, sBoot 7, by decide⟩,
   ⟨[], 700, sBoot 8, by decide⟩,
   ⟨sFuse, by decide⟩⟩

set_option maxRecDepth 20000 in
theorem witness_PowerFailureClosesTheBook :
    (∃ (s : State), s.pins.pwrFailLow = false ∧ s.inReset = false) ∧
    (∃ (s : State), s.pins.pwrFailLow = true) ∧
    (∃ (s : State), s.pins.pwrFailLow = true) ∧
    (∃ (s : State), s.book.closed = true ∧ s.pins.pwrFailLow = false ∧ s.inReset = false ∧ s.pins.pwrHighAt.isSome = true) :=
  ⟨⟨sBook, by decide⟩,
   ⟨({ sCom with pins := { sCom.pins with pwrFailLow := true } } : State), by decide⟩,
   ⟨({ sCom with pins := { sCom.pins with pwrFailLow := true } } : State), by decide⟩,
   ⟨({ sCom with pins := { sCom.pins with pwrHighAt := some 4 }, book := { sCom.book with closed := true } } : State), by decide⟩⟩

set_option maxRecDepth 20000 in
theorem witness_RegisterPageWrites :
    (∃ (page : Fin 0x4000) (w : BitVec 32) (p : PageRef) (s : State), pageOf s page = some p ∧ s.answers p.base = true ∧ p.lay ≠ .gang ∧ p.lay ≠
      .belfry) ∧
    (∃ (page : Fin 0x4000) (n : Fin 128) (s : State), pageOf s page = some ⟨.ch, n⟩ ∧ s.answers (Pg.ch n) = true ∧ s.enabled (Pg.ch n) = false) ∧
    (∃ (page : Fin 0x4000) (p : PageRef) (s : State), pageOf s page = some p ∧ s.enabled p.base = true) ∧
    (∃ (m : Master) (addr : BitVec 26) (w : BitVec 32) (be : BitVec 4) (p : PageRef) (r : RegRow) (s : State), be ≠ 0 ∧ s.inReset = false ∧ reaches s
      m (addr.toNat / 0x1000 * 0x1000) = true ∧ addr.toNat % 4 = 0 ∧ pageOf s (addr.toNat / 0x1000) = some p ∧ p.lay ≠ .gang ∧ 0x040 ≤ addr.toNat %
      0x1000 ∧ rowAt p.lay (addr.toNat % 0x1000) = some r ∧ r.acc = .rwe ∧ s.enabled (State.enableOwner p) = false ∧ p.base + addr.toNat % 0x1000 ≠
      Reg.stpRaster) ∧
    (∃ (m : Master) (addr : BitVec 26) (w : BitVec 32) (be : BitVec 4) (p : PageRef) (r : RegRow) (s : State), be ≠ 0 ∧ s.inReset = false ∧ reaches s
      m (addr.toNat / 0x1000 * 0x1000) = true ∧ addr.toNat % 4 = 0 ∧ pageOf s (addr.toNat / 0x1000) = some p ∧ p.lay ≠ .gang ∧ 0x040 ≤ addr.toNat %
      0x1000 ∧ rowAt p.lay (addr.toNat % 0x1000) = some r ∧ r.acc = .rwe ∧ s.enabled (State.enableOwner p) = true) ∧
    (∃ (m : Master) (addr : BitVec 26) (w : BitVec 32) (be : BitVec 4) (p : PageRef) (r : RegRow) (s : State), addr.toNat % 4 = 0 ∧ pageOf s
      (addr.toNat / 0x1000) = some p ∧ p.lay ≠ .gang ∧ 0x040 ≤ addr.toNat % 0x1000 ∧ rowAt p.lay (addr.toNat % 0x1000) = some r ∧ r.acc = .ro) ∧
    (∃ (m : Master) (addr : BitVec 26) (w : BitVec 32) (be : BitVec 4) (s : State), be ≠ 0 ∧ s.inReset = false ∧ reaches s m (addr.toNat / 0x1000 *
      0x1000) = true ∧ addr.toNat % 4 ≠ 0) ∧
    (∃ (addr : BitVec 26) (w : BitVec 32) (be : BitVec 4) (s : State), s.answers (addr.toNat / 0x1000 * 0x1000) = false) :=
  ⟨⟨0, 5, ⟨.dev, 0⟩, sCom.setReg (Pg.dev + hEvt) 7, by decide⟩,
   ⟨2060, 3, sCom, by decide⟩,
   ⟨0x100, ⟨.stp, 0⟩, sRun, by decide⟩,
   ⟨.host, 21123140, 0xFFFFFFFF, 15, ⟨.inp, 5⟩, ⟨68, 4, 1, .rwe, 0, 1073692671⟩, sCom, by decide⟩,
   ⟨.host, 21123140, 0xFFFFFFFF, 15, ⟨.inp, 5⟩, ⟨68, 4, 1, .rwe, 0, 1073692671⟩, sCom.setReg (Pg.inp 5 + hCtrl) 1, by decide⟩,
   ⟨.host, 21123200, 0xFFFFFFFF, 15, ⟨.inp, 5⟩, ⟨128, 4, 1, .ro, 0, 0⟩, sCom, by decide⟩,
   ⟨.host, 2, 5, 15, sCom, by decide⟩,
   ⟨0x100050, 5, 15, sBoot 0, by decide⟩⟩

set_option maxRecDepth 20000 in
theorem witness_InputAndControllerCommandsTakeEffect :
    (∃ (i : Fin 128) (pathB : Bool) (s : State), inReceives s i = true ∧ inKind s i = 3 ∧ inPath s i pathB = true) ∧
    (∃ (i : Fin 128) (pathB : Bool) (s : State), inSt s i ≠ 0 ∧ inKind s i = 3 ∧ inPath s i pathB = true ∧ inDown (inp s i) pathB = false ∧ (if
      pathB then (inp s i).arrived.2 else (inp s i).arrived.1) = false) ∧
    (∃ (i : Fin 128) (line : Nat) (half : Fin 3) (s : State), s.running = true ∧ inSt s i ≠ 0 ∧ (activeLines s i line).isSome = true ∧
      isPart s i half = true ∧ (inp s i).landed.contains (line * 3 + half.val) = false ∧ (inp s i).missed.contains (line * 3 + half.val) = false ∧
      lineBefore s i line ≠ line ∧ (inp s i).missLine = some (lineBefore s i line)) ∧
    (∃ (i : Fin 128) (line : Nat) (half : Fin 3) (s : State), s.running = true ∧ inSt s i ≠ 0 ∧ (activeLines s i line).isSome = true ∧
      isPart s i half = true ∧ (inp s i).landed.contains (line * 3 + half.val) = false ∧ (inp s i).missed.contains (line * 3 + half.val) = false ∧
      (inp s i).missLine = some line) ∧
    (∃ (i : Fin 128) (s : State), s.running = true ∧ (inp s i).fmtLoss = true ∧ (inSt s i = 1 ∨ inSt s i = 2)) ∧
    (∃ (i : Fin 128) (s : State), inKind s i = 3 ∧ ptpLock s i = false ∧ (inSt s i = 1 ∨ inSt s i = 2)) ∧
    (∃ (i : Fin 128) (s : State), s.running = true ∧ inSt s i = 3) ∧
    (∃ (i : Fin 128) (s : State), s.running = true ∧ s.inFrame = 0 ∧ inSt s i = 1 ∧ (inUse s i = false ∨ ((inp s i).startAt = some s.frame ∧
      (inp s i).wasClean = true)) ∧ mayReturn s i = true) ∧
    (∃ (c : Fin 32) (r : MemReq) (err : ReadErr) (s : State), pchSt s c = 2 ∧ (pch s c).queue = [] ∧ pcOf s r.addr.toNat = some c.val ∧ held337 s (pch s c) r = false ∧ r.write =
      true) ∧
    (∃ (c : Fin 32) (s : State), (pchSt s c = 1 ∨ pchSt s c = 3 ∨ pchSt s c = 4) ∧ holdsDeadline (pch s c) = false) ∧
    (∃ (c : Fin 32) (n : Nat) (s : State), pchServes s c = true ∧ holdsDeadline (pch s c) = false ∧ owed s c = n + 1) ∧
    (∃ (c : Fin 32) (s : State), pchSt s c = 1 ∧ s.getF Reg.hbmSrIdle 15 0 ≠ 0 ∧ owed s c = 0 ∧ (pch s c).queue = []) ∧
    (∃ (c : Fin 32) (s : State), s.answers (Pg.pch c) = true) ∧
    (∃ (loc : ParityLoc) (s : State), loc.unit < 32 ∧ (pch s loc.unit).queue = []) :=
  ⟨⟨5, true, sNet, by decide⟩,
   ⟨5, false, sNet, by decide⟩,
   ⟨5, 7, 0, setInp sIn 5 { Inp.init with missRun := 3, missLine := some 6 }, by decide⟩,
   ⟨5, 7, 0, setInp sIn 5 { Inp.init with missRun := 3, missLine := some 7 }, by decide⟩,
   ⟨5, setInp sIn 5 { Inp.init with fmtLoss := true }, by decide⟩,
   ⟨5, sNet, by decide⟩,
   ⟨5, sIn.setReg (Reg.inpState 5) 0x113, by decide⟩,
   ⟨5, setInp (sIn.setReg (Reg.inpState 5) 1) 5 { Inp.init with startAt := some 0, wasClean := true }, by decide⟩,
   ⟨4, ⟨9, 1087, 0, true⟩, .none, sCom.setReg (Reg.pchPstate 4) 2, by decide⟩,
   ⟨4, sCom.setReg (Reg.pchPstate 4) 3, by decide⟩,
   ⟨4, 7, (sCom.setReg (Reg.pchPstate 4) 1).setReg (Reg.pchRefOwed 4) 0x88, by decide⟩,
   ⟨4, (sCom.setReg (Reg.pchPstate 4) 1).setReg Reg.hbmSrIdle 8, by decide⟩,
   ⟨31, sCom, by decide⟩,
   ⟨⟨31, 5⟩, sCom, by decide⟩⟩

end Sys2Proof.Tests
end

section
/-! Proof of RegisterPageWrites: where a page lies, what a write of EVT and of each kind of block register does, and the way of a
bus write to its register. -/

namespace Sys2Proof.Machine

open State

/-! ### The page of an address -/

/-- A page found at an index lies at that index (R445). -/
theorem base_of_pageAt {i : Nat} {p : PageRef} (h : pageAt i = some p) : p.base = 0x1000 * i := by
  obtain ⟨l, -, hl⟩ := List.mem_filterMap.1 (List.mem_of_mem_head? h)
  simp only [Option.ite_none_right_eq_some, Option.some.injEq] at hl
  obtain ⟨⟨hlo, hstep, -⟩, rfl⟩ := hl
  cases l <;> simp only [PageRef.base, Layout.place] at hlo hstep ⊢ <;> omega

/-- The page that an access reaches is a page of Table 21-1, behind a window page too (R446). -/
theorem pageAt_of_pageOf {s : State} {i : Nat} {p : PageRef} (h : pageOf s i = some p) : ∃ j, pageAt j = some p := by
  unfold pageOf at h
  split at h
  · cases h
  · rename_i q hq
    split at h
    · split at h
      · exact ⟨_, h⟩
      · cases h
    · exact ⟨i, hq.trans h⟩

theorem lay_of_base_belfry {s : State} {i : Nat} {p : PageRef} (h : pageOf s i = some p) (hb : p.base = Pg.belfry) :
    p.lay = .belfry := by
  obtain ⟨j, hj⟩ := pageAt_of_pageOf h
  have hij : j = 0x200 := by
    have := (base_of_pageAt hj).symm.trans hb
    simp only [Pg.belfry] at this
    omega
  subst hij
  have hp : pageAt 0x200 = some ⟨.belfry, 0⟩ := by decide
  rw [hp] at hj
  cases hj
  rfl

/-! ### EVT (R451, R452) -/

theorem evtWrite_eq_evtClear {s : State} {i : Nat} {p : PageRef} (w : Word) (h : pageOf s i = some p)
    (ha : s.answers p.base = true) (hg : p.lay ≠ .gang) : evtWrite s i w = evtClear s p.base w := by
  simp only [evtWrite, h, ha, Bool.not_true, Bool.false_eq_true, if_false]

/-- The Belfry's page is apart: a write of its EVT drives the interrupt lines. -/
theorem evtClear_eq (s : State) {page : Nat} (w : Word) (hb : page ≠ Pg.belfry) :
    evtClear s page w =
      if w ≠ 0 ∧ s.bit (page + hStatus) 4 = false then
        (s.setReg (page + hEvt) (s.reg (page + hEvt) &&& ~~~w)).setBit (page + hStatus) 3 false
      else s.setReg (page + hEvt) (s.reg (page + hEvt) &&& ~~~w) := by
  simp [evtClear, hb]

/-- Clearing events writes EVT, and FAULT of STATUS at most. -/
theorem reg_evtClear (s : State) {page : Nat} (w : Word) (hb : page ≠ Pg.belfry) (a : Nat) :
    (evtClear s page w).reg a =
      if a = page + hEvt then s.reg a &&& ~~~w
      else if a = page + hStatus ∧ w ≠ 0 ∧ s.bit (page + hStatus) 4 = false then putBit (s.reg a) 3 false
      else s.reg a := by
  rw [evtClear_eq s w hb]
  by_cases hE : a = page + hEvt
  · subst hE
    rw [if_pos rfl]
    split
    · rw [reg_setBit_other _ _ _ (by simp), reg_setReg_same]
    · exact reg_setReg_same _ _ _
  · rw [if_neg hE]
    by_cases hf : w ≠ 0 ∧ s.bit (page + hStatus) 4 = false
    · rw [if_pos hf, reg_setBit, reg_setReg_other _ _ hE, reg_setReg_other _ _ (by simp)]
      by_cases hS : a = page + hStatus
      · rw [if_pos hS, if_pos ⟨hS, hf⟩, hS]
      · rw [if_neg hS, if_neg (fun h => hS h.1)]
    · rw [if_neg hf, if_neg (fun h => hf h.2), reg_setReg_other _ _ hE]

/-! ### The way of a write to its register (R352, R409, R453) -/

/-- A write that BAR0 takes: it enables a byte, no reset holds the device, and its page answers the master. -/
structure Arrives (s : State) (m : Master) (addr : Nat) (be : BitVec 4) : Prop where
  bytes : be ≠ 0
  awake : s.inReset = false
  reached : reaches s m (addr / 0x1000 * 0x1000) = true

theorem Arrives.not_dropped {s : State} {m : Master} {addr : Nat} {be : BitVec 4} (h : Arrives s m addr be) :
    ¬ (be = 0 ∨ s.inReset = true) := by
  rintro (hbe | hrst)
  · exact h.bytes hbe
  · exact absurd hrst (Bool.eq_false_iff.1 h.awake)

theorem busWrite_of_not_arrives {s : State} {m : Master} {addr : Nat} (w : Word) {be : BitVec 4}
    (h : ¬ Arrives s m addr be) : busWrite s m addr w be = s := by
  unfold busWrite
  split
  · rfl
  · rename_i hdrop
    rw [not_or] at hdrop
    have hr : reaches s m (addr / 0x1000 * 0x1000) = false :=
      Bool.eq_false_iff.2 fun hr => h ⟨hdrop.1, Bool.eq_false_iff.2 hdrop.2, hr⟩
    simp [hr]

theorem busWrite_misaligned {s : State} {m : Master} {addr : Nat} (w : Word) {be : BitVec 4}
    (h : Arrives s m addr be) (ha : addr % 4 ≠ 0) : busWrite s m addr w be = decodeErr s true := by
  rw [busWrite, if_neg h.not_dropped]
  simp [discardWrite, h.reached, ha]

theorem offsetWrite_block (s : State) (m : Master) (p : PageRef) {o : Nat} (w : Word) (be : BitVec 4) {r : RegRow}
    (ho : 0x040 ≤ o) (hrow : rowAt p.lay o = some r) :
    offsetWrite s m p o w be = rowWrite s m p o (p.base + o) r w be := by
  have hC : o ≠ hCtrl := by simp; omega
  have hE : o ≠ hEvt := by simp; omega
  have hN : o ≠ hEvtEn := by simp; omega
  simp only [offsetWrite, hC, hE, hN, Nat.not_lt.2 ho, hrow, if_false]

/-- An aligned write that names a block register of a page that is no gang's acts by that register's row. -/
theorem busWrite_block {s : State} {m : Master} {addr : Nat} (w : Word) {be : BitVec 4} {p : PageRef} {r : RegRow}
    (h : Arrives s m addr be) (ha : addr % 4 = 0) (hp : pageOf s (addr / 0x1000) = some p) (hg : p.lay ≠ .gang)
    (ho : 0x040 ≤ addr % 0x1000) (hrow : rowAt p.lay (addr % 0x1000) = some r) :
    busWrite s m addr w be = rowWrite s m p (addr % 0x1000) (p.base + addr % 0x1000) r w be := by
  rw [← offsetWrite_block s m p w be ho hrow, busWrite, if_neg h.not_dropped]
  simp [h.reached, ha, hp]

/-! ### A register's row (R6, R41) -/

section Row
variable (s : State) (m : Master) (p : PageRef) (o a : Nat) (w : Word) (be : BitVec 4) {r : RegRow}

theorem rowWrite_ro (h : r.acc = .ro) : rowWrite s m p o a r w be = s := by
  simp only [rowWrite, h]

theorem rowWrite_rwe (h : r.acc = .rwe) (he : s.enabled (enableOwner p) = false) (ha : a ≠ Reg.stpRaster) :
    rowWrite s m p o a r w be = s.setReg a (maskedWrite (s.reg a) w (BitVec.ofNat 32 r.mask) be) := by
  simp only [rowWrite, h, he, Bool.false_eq_true, if_false, if_neg ha]

theorem rowWrite_rwe_enabled (h : r.acc = .rwe) (he : s.enabled (enableOwner p) = true) :
    rowWrite s m p o a r w be = s.refuse (enableOwner p) 0x0801 (o / 4) (subPage p.lay) := by
  simp only [rowWrite, h, he, if_true]

end Row

/-! ### What the updates leave -/

theorem setReg_sameRegsBut (s : State) (a : Nat) (w : Word) : SameRegsBut [a] s (s.setReg a w) := fun _ hb =>
  reg_setReg_other _ _ (by simpa using hb)

theorem refuse_sameRegsBut (s : State) (p c wd u : Nat) :
    SameRegsBut [p + hRefuse, p + hStatus] s (s.refuse p c wd u) := by
  intro b hb
  simp only [List.mem_cons, List.not_mem_nil, or_false, not_or] at hb
  exact reg_refuse_other _ hb.2 hb.1

/-! ### A decode error (R352) -/

theorem reg_decodeErr (s : State) (a : Nat) : (decodeErr s true).reg a =
    if a = Pg.mtx + hEvt then putBit (s.reg a) 2 true
    else (s.inc32 Reg.mtxDecodeErr).reg a := by
  simp only [decodeErr, if_true, reg_evt]
  by_cases h : a = Pg.mtx + hEvt
  · rw [if_pos h, if_pos h, h, reg_inc32_other _ (by simp)]
  · rw [if_neg h, if_neg h]

theorem decodeErr_sameRegsBut (s : State) : SameRegsBut [Reg.mtxDecodeErr, Pg.mtx + hEvt] s (decodeErr s true) := by
  intro a ha
  simp only [List.mem_cons, List.not_mem_nil, or_false, not_or] at ha
  rw [reg_decodeErr, if_neg ha.2, reg_inc32_other _ ha.1]

theorem decodeErr_sameBut (s : State) : SameBut [.regs] s (decodeErr s true) :=
  (evt_changes rfl (inc32_changes rfl (Changes.refl [.regs] s) _) _ _).same

/-! ### The clauses of RegisterPageWrites -/

theorem evtWrite_clears (page : Fin 0x4000) (w : BitVec 32) (p : PageRef) (s : State) (hp : pageOf s page = some p)
    (ha : s.answers p.base = true) (hg : p.lay ≠ .gang) (hb : p.lay ≠ .belfry) :
    Does (.evtWrite page w) s (fun t =>
      t.reg (p.base + hEvt) = s.reg (p.base + hEvt) &&& ~~~w ∧ SameRegsBut [p.base + hEvt, p.base + hStatus] s t ∧
      (w = 0 → t.reg (p.base + hStatus) = s.reg (p.base + hStatus))) := by
  have hreg := reg_evtClear s w (mt (lay_of_base_belfry hp) hb)
  refine ⟨_, congrArg Host.Outcome.next (evtWrite_eq_evtClear w hp ha hg), ?_, fun a hmem => ?_, fun h0 => ?_⟩
  · rw [hreg, if_pos rfl]
  · simp only [List.mem_cons, List.not_mem_nil, or_false, not_or] at hmem
    rw [hreg, if_neg hmem.1, if_neg (fun h => hmem.2 h.1)]
  · rw [hreg, if_neg (by simp), if_neg (fun h => h.2.1 h0)]

theorem pageEnableCheck_channel (page : Fin 0x4000) (n : Fin 128) (s : State) (hp : pageOf s page = some ⟨.ch, n⟩)
    (ha : s.answers (Pg.ch n) = true) (he : s.enabled (Pg.ch n) = false) :
    Does (.pageEnableCheck page) s (fun t => t = channelEnable s n) := by
  have hbase : (PageRef.mk .ch n).base = Pg.ch n := rfl
  refine ⟨_, rfl, ?_⟩
  simp only [pageEnableCheck, hp, hbase, ha, if_true, enableWrite, enableRw, he, Bool.not_false, Bool.and_true,
    enableCheck]

theorem pageEnableCheck_enabled (page : Fin 0x4000) (p : PageRef) (s : State) (hp : pageOf s page = some p)
    (he : s.enabled p.base = true) : Does (.pageEnableCheck page) s (fun t => t = s) := by
  have hkeep : enableWrite s p true = s := by simp [enableWrite, he]
  refine ⟨_, rfl, ?_⟩
  simp only [pageEnableCheck, hp, hkeep, ite_self]

section Write
variable (m : Master) (addr : BitVec 26) (w : BitVec 32) (be : BitVec 4) (s : State)

theorem registerWrite_block {p : PageRef} {r : RegRow} {P : State → Prop} (h : Arrives s m addr.toNat be)
    (ha : addr.toNat % 4 = 0) (hp : pageOf s (addr.toNat / 0x1000) = some p) (hg : p.lay ≠ .gang)
    (ho : 0x040 ≤ addr.toNat % 0x1000) (hrow : rowAt p.lay (addr.toNat % 0x1000) = some r)
    (hP : P (rowWrite s m p (addr.toNat % 0x1000) (p.base + addr.toNat % 0x1000) r w be)) :
    Does (.registerWrite m addr w be) s P :=
  ⟨_, congrArg Host.Outcome.next (busWrite_block w h ha hp hg ho hrow), hP⟩

theorem registerWrite_not_arrives (h : ¬ Arrives s m addr.toNat be) :
    Does (.registerWrite m addr w be) s (fun t => t = s) :=
  ⟨_, rfl, busWrite_of_not_arrives w h⟩

theorem registerWrite_misaligned (h : Arrives s m addr.toNat be) (ha : addr.toNat % 4 ≠ 0) :
    Does (.registerWrite m addr w be) s (fun t =>
      t.bit (Pg.mtx + hEvt) 2 = true ∧ SameRegsBut [Reg.mtxDecodeErr, Pg.mtx + hEvt] s t ∧ SameBut [.regs] s t ∧
      (s.reg Reg.mtxDecodeErr ≠ BitVec.allOnes 32 → t.reg Reg.mtxDecodeErr = s.reg Reg.mtxDecodeErr + 1)) := by
  refine ⟨_, congrArg Host.Outcome.next (busWrite_misaligned w h ha), ?_, decodeErr_sameRegsBut s, decodeErr_sameBut s,
    fun hsat => ?_⟩
  · rw [bit, reg_decodeErr, if_pos rfl, getLsbD_putBit _ _ _ _ (by omega), if_pos rfl]
  · rw [reg_decodeErr, if_neg (by simp), reg_inc32 _ _ hsat]

end Write

/-- Settles O59: a write goes to the register's row, and each row writes what its access code names. -/
theorem registerPageWrites : Obligations.RegisterPageWrites := by
  unfold Obligations.RegisterPageWrites
  refine ⟨evtWrite_clears, pageEnableCheck_channel, pageEnableCheck_enabled, ?rwe, ?rweEnabled, ?ro, ?misaligned, ?closed⟩
  case rwe =>
    intro m addr w be p r s hbe hrst hr ha hp hg ho hrow hacc he hras
    apply registerWrite_block m addr w be s ⟨hbe, hrst, hr⟩ ha hp hg ho hrow
    rw [rowWrite_rwe s m p _ _ w be hacc he hras]
    exact ⟨reg_setReg_same _ _ _, setReg_sameRegsBut _ _ _, (setReg_changes rfl (Changes.refl [.regs] s) _ _).same⟩
  case rweEnabled =>
    intro m addr w be p r s hbe hrst hr ha hp hg ho hrow hacc he
    apply registerWrite_block m addr w be s ⟨hbe, hrst, hr⟩ ha hp hg ho hrow
    rw [rowWrite_rwe_enabled s m p _ _ w be hacc he]
    exact ⟨reg_refuse _ _ _ _ _, bit_refuse _ _ _ _ _, refuse_sameRegsBut _ _ _ _ _,
      (refuse_changes rfl (Changes.refl [.regs] s) _ _ _ _).same⟩
  case ro =>
    intro m addr w be p r s ha hp hg ho hrow hacc
    by_cases h : Arrives s m addr.toNat be
    · exact registerWrite_block m addr w be s h ha hp hg ho hrow (rowWrite_ro s m p _ _ w be hacc)
    · exact registerWrite_not_arrives m addr w be s h
  case misaligned =>
    intro m addr w be s hbe hrst hr ha
    exact registerWrite_misaligned m addr w be s ⟨hbe, hrst, hr⟩ ha
  case closed =>
    intro addr w be s hans
    apply registerWrite_not_arrives
    exact fun h => Bool.eq_false_iff.1 hans h.reached

end Sys2Proof.Machine
end

section
/-! Proof of PositionReadLatches: the latch of each bus master is a key of its own, and a POS_LO read writes the reader's. -/

namespace Sys2Proof.Machine

open State

/-! ### Latches of the bus masters (R10) -/

theorem latchOf_ne {k m : Master} (h : k ≠ m) : latchOf k ≠ latchOf m := by
  cases k <;> cases m <;> simp only [latchOf, ne_eq, Master.cc.injEq, Fin.ext_iff] at h ⊢ <;> omega

theorem posLoRead_of_reaches {s : State} {m : Master} (h : reaches s m Pg.stp = true) :
    posLoRead s m =
      ({ s with stp := { s.stp with latch := Store.put (fun _ => 0) s.stp.latch (latchOf m) s.frame } } : State).answer
        [(s.stp.pos.setWidth 32).toNat] := by
  simp only [posLoRead, h, Bool.not_true, Bool.false_eq_true, if_false]

theorem posHi_posLoRead {s : State} {m : Master} (h : reaches s m Pg.stp = true) (k : Master) :
    posHi (posLoRead s m) k = if k = m then s.frame else posHi s k := by
  rw [posLoRead_of_reaches h]
  refine (Store.get_put (fun _ => 0) s.stp.latch (latchOf m) (latchOf k) s.frame).trans ?_
  by_cases hk : k = m
  · rw [if_pos hk, if_pos (congrArg latchOf hk)]
  · rw [if_neg hk, if_neg (latchOf_ne hk)]
    rfl

/-- Settles O7: a read of POS_LO writes the reader's latch and the bus response alone. -/
theorem positionReadLatches : Obligations.PositionReadLatches := by
  unfold Obligations.PositionReadLatches
  intro m s hr
  refine ⟨posLoRead s m, rfl, ?bus, ?own, fun k hk => ?others, ?stp, ?frame⟩
  case bus => rw [posLoRead_of_reaches hr]; rfl
  case own => rw [posHi_posLoRead hr, if_pos rfl]; rfl
  case others => rw [posHi_posLoRead hr, if_neg hk]
  case stp => rw [posLoRead_of_reaches hr]; rfl
  case frame => exact (posLoRead_changes rfl (Changes.refl [.bus, .stp] s) m).same

end Sys2Proof.Machine
end

section
/-! Proof of SteepleEnableAndDisable: what the page header's operations write, and STP.CTRL.ENABLE by its three branches. -/

namespace Sys2Proof.Machine

open State

/-! ### The page header (R449, R450) -/

section Header
variable (s : State) (p a : Nat)

theorem reg_clearRefusal : (s.clearRefusal p).reg a =
    if a = p + hRefuse then 0 else if a = p + hStatus then putBit (s.reg a) 1 false else s.reg a := by
  rw [clearRefusal, reg_setReg, reg_setBit]
  split
  · rfl
  · split
    · next h => rw [h]
    · rfl

theorem reg_deactivate : (s.deactivate p).reg a =
    if a = p + hCtrl ∨ a = p + hStatus then putBit (s.reg a) 0 false else s.reg a := by
  rw [deactivate, reg_setBit, reg_setBit, reg_setBit]
  by_cases hc : a = p + hCtrl
  · subst hc; simp
  · by_cases hs : a = p + hStatus
    · subst hs; simp
    · simp [hc, hs]

theorem reg_activate_refuse : (s.activate p).reg (p + hRefuse) = 0 := by
  rw [activate, reg_clearRefusal, if_pos rfl]

theorem enabled_activate : (s.activate p).enabled p = true := by
  rw [enabled, bit, activate, reg_clearRefusal, if_neg (by simp), if_neg (by simp), reg_setBit_other _ _ _ (by simp),
    reg_setBit_same, getLsbD_putBit _ _ _ _ (by omega), if_pos rfl]

theorem bit_activate_status (i : Nat) : (s.activate p).bit (p + hStatus) i =
    if i = 1 then false else if i = 0 then true else s.bit (p + hStatus) i := by
  rw [bit, activate, reg_clearRefusal, if_neg (by simp), if_pos rfl, reg_setBit_same, getLsbD_putBit _ _ _ _ (by omega),
    getLsbD_putBit _ _ _ _ (by omega), reg_setBit_other _ _ _ (by simp)]
  rfl

theorem enabled_deactivate : (s.deactivate p).enabled p = false := by
  rw [enabled, bit, reg_deactivate, if_pos (.inl rfl), getLsbD_putBit _ _ _ _ (by omega), if_pos rfl]

theorem bit_deactivate_active : (s.deactivate p).bit (p + hStatus) 0 = false := by
  rw [bit, reg_deactivate, if_pos (.inr rfl), getLsbD_putBit _ _ _ _ (by omega), if_pos rfl]

theorem deactivate_sameRegsBut : SameRegsBut [p + hCtrl, p + hStatus] s (s.deactivate p) := by
  intro b hb
  rw [reg_deactivate, if_neg (by simpa using hb)]

/-- A refusal leaves ENABLE, and ACTIVE of STATUS. -/
theorem enabled_refuse (c w u : Nat) : (s.refuse p c w u).enabled p = s.enabled p := by
  rw [enabled, bit, reg_refuse_other _ (by simp) (by simp)]
  rfl

theorem bit_refuse_active (c w u : Nat) : (s.refuse p c w u).bit (p + hStatus) 0 = s.bit (p + hStatus) 0 := by
  rw [refuse, bit, reg_setN_other _ _ (by simp), reg_setBit_same, getLsbD_putBit _ _ _ _ (by omega)]
  rfl

end Header

/-! ### STP.CTRL.ENABLE (R458) -/

theorem steepleEnable_of_rasterOk {s : State} (ha : s.answers Pg.stp = true) (he : s.enabled Pg.stp = false)
    (hr : rasterOk s = true) : steepleEnable s =
      if s.inFrame = 0 then setRotFrames (s.activate Pg.stp) else (setRotFrames (s.activate Pg.stp)).enterFrame 1 0 := by
  simp only [steepleEnable, ha, he, hr, Bool.not_true, Bool.or_self, Bool.false_eq_true, if_false]

/-- Beside the page's header, starting Steeple writes ROT_FRAMES, and MAP and HOLD_FRAMES where it enters a frame. -/
theorem reg_steepleEnable {s : State} (ha : s.answers Pg.stp = true) (he : s.enabled Pg.stp = false)
    (hr : rasterOk s = true) {a : Nat}
    (h : a ∉ [Reg.sextonRotFrames, Reg.ptpMapLo, Reg.ptpMapHi, Reg.stpHoldFrames]) :
    (steepleEnable s).reg a = (s.activate Pg.stp).reg a := by
  simp only [List.mem_cons, List.not_mem_nil, or_false, not_or] at h
  obtain ⟨hrot, hlo, hhi, hhold⟩ := h
  have hset : (setRotFrames (s.activate Pg.stp)).reg a = (s.activate Pg.stp).reg a := reg_setN_other _ _ hrot
  rw [steepleEnable_of_rasterOk ha he hr]
  split
  · exact hset
  · rw [reg_enterFrame _ _ _ _ hlo hhi hhold, hset]

theorem steepleEnable_inFrame {s : State} (ha : s.answers Pg.stp = true) (he : s.enabled Pg.stp = false)
    (hr : rasterOk s = true) : (steepleEnable s).inFrame = 0 := by
  rw [steepleEnable_of_rasterOk ha he hr]
  split
  · next h => simpa [setRotFrames] using h
  · exact enterFrame_inFrame _ 1

theorem steepleEnable_of_not_rasterOk {s : State} (ha : s.answers Pg.stp = true) (he : s.enabled Pg.stp = false)
    (hr : rasterOk s = false) : steepleEnable s = s.failCheck Pg.stp 0x0115 0x12 0 := by
  simp only [steepleEnable, ha, he, hr, Bool.not_true, Bool.or_self, Bool.false_eq_true, if_false, Bool.not_false, if_true]
  rfl

theorem steepleDisable_accepted {s : State} (ha : s.answers Pg.stp = true) (he : s.enabled Pg.stp = true)
    (hm : s.mode = 1 ∨ s.mode = 5) (hp : anyChannelPlaced s = false) (ht : s.enabled Pg.stile = false) :
    steepleDisable s = s.deactivate Pg.stp := by
  simp [steepleDisable, ha, he, hm, hp, ht]

theorem steepleDisable_wrong_mode {s : State} (ha : s.answers Pg.stp = true) (he : s.enabled Pg.stp = true)
    (hm : ¬(s.mode = 1 ∨ s.mode = 5)) : steepleDisable s = s.refuse Pg.stp 0x0802 1 0 := by
  simp [steepleDisable, ha, he, hm]

/-- Settles O8: ENABLE 0→1 and 1→0 of the STP page, each accepted and refused. -/
theorem steepleEnableAndDisable : Obligations.SteepleEnableAndDisable := by
  unfold Obligations.SteepleEnableAndDisable
  refine ⟨fun s ha he hr => ⟨_, rfl, ?enable⟩, fun s ha he hr => ⟨_, rfl, ?enableRefused⟩,
    fun s ha he hm hp ht => ⟨_, rfl, ?disable⟩, fun s ha he hm => ⟨_, rfl, ?disableRefused⟩⟩
  case enable =>
    have hreg := fun a => reg_steepleEnable (a := a) ha he hr
    refine ⟨?_, ?_, ?_, steepleEnable_inFrame ha he hr, ?_⟩
    · rw [enabled, bit, hreg _ (by simp)]
      exact enabled_activate s Pg.stp
    · rw [bit, hreg _ (by simp)]
      exact bit_activate_status s Pg.stp 0
    · rw [bit, hreg _ (by simp)]
      exact bit_activate_status s Pg.stp 1
    · rw [hreg _ (by simp)]
      exact reg_activate_refuse s Pg.stp
  case enableRefused =>
    rw [steepleEnable_of_not_rasterOk ha he hr]
    refine ⟨?_, ?_, bit_refuse _ _ _ _ _, reg_refuse _ _ _ _ _, failCheck_stp _ _ _ _ _⟩
    · rw [failCheck, enabled_refuse, enabled_deactivate]
    · rw [failCheck, bit_refuse_active, bit_deactivate_active]
  case disable =>
    rw [steepleDisable_accepted ha he hm hp ht]
    exact ⟨enabled_deactivate _ _, bit_deactivate_active _ _, deactivate_stp _ _, deactivate_sameRegsBut _ _⟩
  case disableRefused =>
    rw [steepleDisable_wrong_mode ha he hm]
    refine ⟨(enabled_refuse _ _ _ _ _).trans he, bit_refuse _ _ _ _ _, reg_refuse _ _ _ _ _, fun a hmem => ?_⟩
    simp only [List.mem_cons, List.not_mem_nil, or_false, not_or] at hmem
    exact reg_refuse_other _ hmem.1 hmem.2

end Sys2Proof.Machine
end

section
/-! Proof of SteepleSourcesAndLoss: what the operations of a reference source write of STATE and leave of the position, and the way
of a REF_FRAME_IN pulse that is not far off. -/

namespace Sys2Proof.Machine

open State

/-! ### Steeple's record -/

/-- The state with another record of Steeple: the model's updates of `stp`, under a name. -/
def State.withStp (s : State) (v : SteepleSt) : State := { s with stp := v }

@[simp] theorem State.withStp_stp (s : State) (v : SteepleSt) : (s.withStp v).stp = v := rfl
@[simp] theorem State.withStp_reg (s : State) (v : SteepleSt) (a : Nat) : (s.withStp v).reg a = s.reg a := rfl
@[simp] theorem State.withStp_faults (s : State) (v : SteepleSt) : (s.withStp v).faults = s.faults := rfl

section Updates
variable (s : State) (e ppb : Int)

/-- The correction measured last (R24). -/
def withMeasured : State := s.withStp { s.stp with measured := some e }

/-- A measured correction is slewed: the jump that awaited acceptance, if any, is over. -/
def withinLimit : State :=
  ((withMeasured s e).setBit Reg.stpState 6 false).withStp { (withMeasured s e).stp with accepted := false }

theorem correct_eq : correct s e ppb =
    if errNs s e ≤ jumpLimit s then slewTo (withinLimit s e) e ppb
    else if (withMeasured s e).bit Reg.stpState 6 then withMeasured s e
    else (((holdOver (withMeasured s e)).setBit Reg.stpState 6 true).evt Pg.stp 2).raise 0x1003 Pg.stp
      ((holdOver (withMeasured s e)).reg Reg.stpPhaseErr).toNat 0 := rfl

theorem measure_eq : measure s e ppb =
    if s.stpSt = 2 then slewTo (withMeasured s e) e ppb else correct s e ppb := rfl

/-- The length of the run of R20 after a measurement. -/
def nextRun : Nat := if errNs s e ≤ 100 ∧ s.bit Reg.stpState 6 = false then min 16 (s.stp.okRun + 1) else 0

/-- The state with that run (R20). -/
def withRun : State := s.withStp { s.stp with okRun := nextRun s e }

theorem countOk_eq : countOk s e =
    if nextRun s e = 16 ∧ ((withRun s e).stpSt = 1 ∨ (withRun s e).stpSt = 3) then enterLocked (withRun s e)
    else withRun s e := rfl

theorem countFrame_eq : countFrame s e =
    if s.stp.okFrame = some (pulseFrame s e) then s
    else countOk (s.withStp { s.stp with
      okRun := if s.stp.okFrame = some (pulseFrame s e - 1) then s.stp.okRun else 0,
      okFrame := some (pulseFrame s e) }) e := rfl

/-- The state with a pulse among those that await the 3-frame test (R22). -/
def withGlitch : State := s.withStp { s.stp with glitches := ((e, s.frame) :: s.stp.glitches).take 3 }

theorem settle_eq : settle s e ppb =
    if consistent (withGlitch s e) then
      correct (setPhaseErr ((withGlitch s e).setBit Reg.stpState 7 false) e) e ppb
    else withGlitch s e := rfl

/-- Steeple's record once the source is lost: nothing measured of it counts (R21). -/
def lostRecord (v : SteepleSt) : SteepleSt :=
  { v with lost := true, okRun := 0, okFrame := none, badRun := 0, glitches := [], accepted := false }

end Updates

/-! ### Steeple's state (R19, R21) -/

section SteepleState
variable (s : State)

theorem stpSt_setSt {v : Nat} (h : v < 4) : (setSt s v).stpSt = v := by
  rw [stpSt, getF, reg_setSt_same, fld_setFld _ _ (by omega) (by omega)]
  exact Nat.mod_eq_of_lt h

theorem stpSt_holdOver : (holdOver s).stpSt = if s.stpSt = 2 then 3 else s.stpSt := by
  rw [stpSt, getF, reg_holdOver_state]
  split
  · exact fld_setFld _ _ (by omega) (by omega)
  · rfl

/-- Bits of STATE above ST stand while a source is held over. -/
theorem bit_holdOver_state {i : Nat} (h : 1 < i) : (holdOver s).bit Reg.stpState i = s.bit Reg.stpState i := by
  rw [bit, reg_holdOver_state]
  split
  · exact getLsbD_setFld_other _ _ (.inr ⟨h, by omega⟩)
  · rfl

theorem stpSt_setBit {i : Nat} (b : Bool) (h : 1 < i) (hi : i < 32) : (s.setBit Reg.stpState i b).stpSt = s.stpSt := by
  rw [stpSt, getF, reg_setBit_same, fld_putBit_other _ _ hi (by omega) (.inr h)]
  rfl

theorem stpSt_of_reg {s t : State} (h : t.reg Reg.stpState = s.reg Reg.stpState) : t.stpSt = s.stpSt := by
  rw [stpSt, stpSt, getF, getF, h]

theorem stpSt_withStp (v : SteepleSt) : (s.withStp v).stpSt = s.stpSt := rfl

theorem stpSt_enterLocked : (enterLocked s).stpSt = 2 := by
  rw [stpSt, getF, reg_enterLocked_state, fld_putBit_other _ _ (by omega) (by omega) (by omega)]
  exact fld_setFld _ _ (by omega) (by omega)

theorem reg_forgetSource {a : Nat} (h : a ≠ Reg.stpState) : (forgetSource s).reg a = s.reg a := reg_setF_other _ _ _ _ h

theorem stpSt_forgetSource : (forgetSource s).stpSt = s.stpSt :=
  getF_setF_other _ _ _ (by omega) (by omega) (by omega)

theorem forgetSource_pos : (forgetSource s).stp.pos = s.stp.pos := by simp [forgetSource]

end SteepleState

/-! ### Selecting a source (R19) -/

/-- SRC is written with `w`, the source in force held over, and what was measured of it forgotten. -/
def sourceNoted (s : State) (w : Nat) : State := forgetSource (holdOver (s.setN Reg.stpSrc w))

section Noted
variable (s : State) (w : Nat)

theorem reg_sourceNoted_src : (sourceNoted s w).reg Reg.stpSrc = BitVec.ofNat 32 w := by
  rw [sourceNoted, reg_forgetSource _ (by simp), reg_holdOver _ _ (by simp) (by simp) (by simp), reg_setN_same]

theorem sourceNoted_pos : (sourceNoted s w).stp.pos = s.stp.pos := by
  rw [sourceNoted, forgetSource_pos, holdOver_pos, setN_stp]

theorem stpSt_sourceNoted : (sourceNoted s w).stpSt = if s.stpSt = 2 then 3 else s.stpSt := by
  rw [sourceNoted, stpSt_forgetSource, stpSt_holdOver, stpSt_of_reg (s := s) (reg_setN_other _ _ (by simp))]

end Noted

section Select
variable {s : State} (ha : s.answers Pg.stp = true) (refclk : Bool) (i : Nat)
include ha

/-- From FREE the new source is acquired (R19). -/
theorem selectSource_eq {sel : Nat} (hs : sel ≠ 0) : selectSource s sel refclk i =
    if s.stpSt = 0 then setSt (sourceNoted s (srcWord sel refclk i)) 1 else sourceNoted s (srcWord sel refclk i) := by
  have hst : (sourceNoted s (srcWord sel refclk i)).stpSt = 0 ↔ s.stpSt = 0 := by
    rw [stpSt_sourceNoted]
    split <;> omega
  rw [selectSource, if_neg (by simp [ha]), if_neg hs]
  exact if_congr hst rfl rfl

theorem reg_selectSource_src {sel : Nat} (hs : sel ≠ 0) :
    (selectSource s sel refclk i).reg Reg.stpSrc = BitVec.ofNat 32 (srcWord sel refclk i) := by
  rw [selectSource_eq ha refclk i hs]
  split
  · rw [reg_setSt _ _ _ (by simp), reg_sourceNoted_src]
  · exact reg_sourceNoted_src s _

theorem selectSource_pos {sel : Nat} (hs : sel ≠ 0) : (selectSource s sel refclk i).stp.pos = s.stp.pos := by
  rw [selectSource_eq ha refclk i hs]
  split
  · rw [setSt_stp, sourceNoted_pos]
  · exact sourceNoted_pos s _

theorem stpSt_selectSource {sel : Nat} (hs : sel ≠ 0) : (selectSource s sel refclk i).stpSt =
    if s.stpSt = 0 then 1 else if s.stpSt = 2 then 3 else s.stpSt := by
  rw [selectSource_eq ha refclk i hs]
  split
  · exact stpSt_setSt _ (by omega)
  · exact stpSt_sourceNoted s _

theorem selectFreeRun_eq : selectFreeRun s refclk i =
    ((setSt (forgetSource (s.setN Reg.stpSrc (srcWord 0 refclk i))) 0).withStp
      { (setSt (forgetSource (s.setN Reg.stpSrc (srcWord 0 refclk i))) 0).stp with freqPpb := 0 }).clearCause 7 := by
  rw [selectFreeRun, ha]
  rfl

end Select

/-! ### Measuring and locking leave PHASE_ERR and the position (R20, R22, R24) -/

/-- From `s` to `t` PHASE_ERR, RATE_REFUSED and GLITCH_PEND of STATE, and the position stand. -/
structure KeepsMeasurement (s t : State) : Prop where
  phaseErr : t.reg Reg.stpPhaseErr = s.reg Reg.stpPhaseErr
  rateRefused : t.bit Reg.stpState 5 = s.bit Reg.stpState 5
  glitchPend : t.bit Reg.stpState 7 = s.bit Reg.stpState 7
  pos : t.stp.pos = s.stp.pos

namespace KeepsMeasurement

theorem trans {s t u : State} (h : KeepsMeasurement s t) (h' : KeepsMeasurement t u) : KeepsMeasurement s u :=
  ⟨h'.phaseErr.trans h.phaseErr, h'.rateRefused.trans h.rateRefused, h'.glitchPend.trans h.glitchPend,
    h'.pos.trans h.pos⟩

variable (s : State) (e ppb : Int)

theorem of_holdOver : KeepsMeasurement s (holdOver s) :=
  ⟨reg_holdOver _ _ (by simp) (by simp) (by simp), bit_holdOver_state _ (by omega), bit_holdOver_state _ (by omega),
    holdOver_pos _⟩

theorem of_setBit {i : Nat} (b : Bool) (h5 : 5 ≠ i) (h7 : 7 ≠ i) (hi : i < 32) :
    KeepsMeasurement s (s.setBit Reg.stpState i b) :=
  ⟨reg_setBit_other _ _ _ (by simp), bit_setBit_other _ _ _ hi h5, bit_setBit_other _ _ _ hi h7, by rw [setBit_stp]⟩

theorem of_evt (i : Nat) : KeepsMeasurement s (s.evt Pg.stp i) :=
  have h {a : Nat} (ha : a ≠ Pg.stp + hEvt) : (s.evt Pg.stp i).reg a = s.reg a := reg_evt_other _ ha
  ⟨h (by simp), by rw [bit, bit, h (by simp)], by rw [bit, bit, h (by simp)], by rw [evt_stp]⟩

theorem of_slewTo : KeepsMeasurement s (slewTo s e ppb) := ⟨rfl, rfl, rfl, rfl⟩

/-- A change of Steeple's record beside the position. -/
theorem of_withStp {v : SteepleSt} (h : v.pos = s.stp.pos) : KeepsMeasurement s (s.withStp v) := ⟨rfl, rfl, rfl, h⟩

theorem of_raise (c p l m : Nat) : KeepsMeasurement s (s.raise c p l m) := ⟨rfl, rfl, rfl, rfl⟩

theorem of_correct : KeepsMeasurement s (correct s e ppb) := by
  have hm : KeepsMeasurement s (withMeasured s e) := of_withStp s rfl
  rw [correct_eq]
  split
  · exact ((hm.trans (of_setBit _ false (by decide) (by decide) (by decide))).trans (of_withStp _ (by simp))).trans
      (of_slewTo _ e ppb)
  · split
    · exact hm
    · exact (((hm.trans (of_holdOver _)).trans (of_setBit _ true (by decide) (by decide) (by decide))).trans
        (of_evt _ 2)).trans (of_raise _ _ _ _ _)

theorem of_measure : KeepsMeasurement s (measure s e ppb) := by
  rw [measure_eq]
  split
  · exact trans (t := withMeasured s e) (of_withStp s rfl) (of_slewTo _ e ppb)
  · exact of_correct s e ppb

theorem of_enterLocked : KeepsMeasurement s (enterLocked s) := by
  have hbit {i : Nat} (h1 : 1 < i) (h4 : i ≠ 4) : (enterLocked s).bit Reg.stpState i = s.bit Reg.stpState i := by
    rw [bit, reg_enterLocked_state, getLsbD_putBit _ _ _ _ (by omega), if_neg h4,
      getLsbD_setFld_other _ _ (.inr ⟨h1, by omega⟩)]
    rfl
  exact ⟨reg_enterLocked _ _ (by simp) (by simp) (by simp) (by simp) (by simp) (by simp), hbit (by omega) (by omega),
    hbit (by omega) (by omega), enterLocked_pos s⟩

theorem of_countOk : KeepsMeasurement s (countOk s e) := by
  have hrun : KeepsMeasurement s (withRun s e) := of_withStp s rfl
  rw [countOk_eq]
  split
  · exact hrun.trans (of_enterLocked _)
  · exact hrun

theorem of_countFrame : KeepsMeasurement s (countFrame s e) := by
  rw [countFrame_eq]
  split
  · exact ⟨rfl, rfl, rfl, rfl⟩
  · refine trans ?_ (of_countOk _ e)
    exact of_withStp s rfl

/-- A near pulse notes its phase and ends a pending glitch. -/
theorem of_setPhaseErr (h : s.reg Reg.stpPhaseErr = BitVec.ofNat 32 (satInt 32 e)) (h7 : s.bit Reg.stpState 7 = false) :
    KeepsMeasurement s (setPhaseErr (s.setBit Reg.stpState 7 false) e) := by
  have hst (i : Nat) : (setPhaseErr (s.setBit Reg.stpState 7 false) e).bit Reg.stpState i =
      if i = 7 then false else s.bit Reg.stpState i := by
    rw [setPhaseErr, bit, reg_setN_other _ _ (by simp), reg_setBit_same, getLsbD_putBit _ _ _ _ (by omega)]
    rfl
  exact ⟨(reg_setN_same _ _ _).trans h.symm, hst 5, (hst 7).trans h7.symm, by simp [setPhaseErr]⟩

/-- Waiting for the 3-frame test, a pulse notes its own phase at most. -/
theorem of_settle (h : s.reg Reg.stpPhaseErr = BitVec.ofNat 32 (satInt 32 e)) (h7 : s.bit Reg.stpState 7 = false) :
    KeepsMeasurement s (settle s e ppb) := by
  have hg : KeepsMeasurement s (withGlitch s e) := of_withStp s rfl
  rw [settle_eq]
  split
  · exact (hg.trans (of_setPhaseErr (withGlitch s e) e h h7)).trans (of_correct _ e ppb)
  · exact hg

end KeepsMeasurement

/-! ### A pulse not far off (R20) -/

/-- The source is back: neither lost nor refused for its rate (R23). -/
def sourceBack (s : State) : State := (s.withStp { s.stp with lost := false }).setBit Reg.stpState 5 false

/-- The state in which a pulse within 1/8 line is measured: the source is back, the phase is noted, no glitch is pending. -/
def pulseNoted (s : State) (e : Int) : State :=
  setPhaseErr ((sourceBack s).setBit Reg.stpState 7 false) e

/-- Such a pulse while no jump is refused: it need not wait for the 3-frame test of R22. -/
def pulseAlone (s : State) (e : Int) : State :=
  (pulseNoted s e).withStp { (pulseNoted s e).stp with glitches := [] }

section Pulse
variable {s : State} {e ppb : Int}

theorem refFramePulse_pin (hr : s.running = true) (hsel : srcSel s = 1) (hp : ppb.natAbs ≤ 100000) :
    refFramePulse s e ppb = pinPulse (sourceBack s) e ppb := by
  rw [refFramePulse, if_neg (by simp [hr, hsel]), if_neg (by omega)]
  exact if_pos hsel

theorem pinPulse_near (he : e.natAbs ≤ 32768) : pinPulse (sourceBack s) e ppb =
    countFrame (if (pulseNoted s e).bit Reg.stpState 6 then settle (pulseNoted s e) e ppb
      else measure (pulseAlone s e) e ppb) e := by
  have hfar : decide (32768 < e.natAbs) = false := by simpa using he
  simp only [pinPulse, hfar, Bool.false_eq_true, if_false, Bool.false_or]
  rfl

theorem refFramePulse_near (hr : s.running = true) (hsel : srcSel s = 1) (hp : ppb.natAbs ≤ 100000)
    (he : e.natAbs ≤ 32768) : refFramePulse s e ppb =
      countFrame (if (pulseNoted s e).bit Reg.stpState 6 then settle (pulseNoted s e) e ppb
        else measure (pulseAlone s e) e ppb) e := by
  rw [refFramePulse_pin hr hsel hp, pinPulse_near he]

variable (s e)

theorem reg_pulseNoted {a : Nat} (h1 : a ≠ Reg.stpState) (h2 : a ≠ Reg.stpPhaseErr) : (pulseNoted s e).reg a = s.reg a := by
  rw [pulseNoted, setPhaseErr, reg_setN_other _ _ h2, reg_setBit_other _ _ _ h1, sourceBack, reg_setBit_other _ _ _ h1,
    withStp_reg]

theorem reg_pulseNoted_phaseErr : (pulseNoted s e).reg Reg.stpPhaseErr = BitVec.ofNat 32 (satInt 32 e) :=
  reg_setN_same _ _ _

theorem reg_pulseNoted_state :
    (pulseNoted s e).reg Reg.stpState = putBit (putBit (s.reg Reg.stpState) 5 false) 7 false := by
  rw [pulseNoted, setPhaseErr, reg_setN_other _ _ (by simp), reg_setBit_same, sourceBack, reg_setBit_same, withStp_reg]

theorem bit_pulseNoted_state (i : Nat) :
    (pulseNoted s e).bit Reg.stpState i = if i = 7 then false else if i = 5 then false else s.bit Reg.stpState i := by
  rw [bit, reg_pulseNoted_state, getLsbD_putBit _ _ _ _ (by omega), getLsbD_putBit _ _ _ _ (by omega)]
  rfl

theorem stpSt_pulseNoted : (pulseNoted s e).stpSt = s.stpSt := by
  rw [stpSt, getF, reg_pulseNoted_state, fld_putBit_other _ _ (by omega) (by omega) (by omega),
    fld_putBit_other _ _ (by omega) (by omega) (by omega)]
  rfl

theorem pulseNoted_stp : (pulseNoted s e).stp = { s.stp with lost := false } := by
  simp [pulseNoted, setPhaseErr, sourceBack]

theorem reg_pulseAlone {a : Nat} (h1 : a ≠ Reg.stpState) (h2 : a ≠ Reg.stpPhaseErr) : (pulseAlone s e).reg a = s.reg a :=
  reg_pulseNoted s e h1 h2

theorem stpSt_pulseAlone : (pulseAlone s e).stpSt = s.stpSt := stpSt_pulseNoted s e

theorem pulseAlone_stp : (pulseAlone s e).stp = { s.stp with lost := false, glitches := [] } := by
  rw [pulseAlone, withStp_stp, pulseNoted_stp]

end Pulse

/-- Wherever the run of R20 stands, a near pulse notes its phase, ends a refusal for its rate and a pending glitch
(notes/assumptions/10.md), and leaves the position. -/
theorem refFramePulse_notes {s : State} {e ppb : Int} (hr : s.running = true) (hsel : srcSel s = 1)
    (hp : ppb.natAbs ≤ 100000) (he : e.natAbs ≤ 32768) : KeepsMeasurement (pulseNoted s e) (refFramePulse s e ppb) := by
  rw [refFramePulse_near hr hsel hp he]
  refine KeepsMeasurement.trans ?_ (.of_countFrame _ e)
  split
  · exact .of_settle _ e ppb (reg_pulseNoted_phaseErr s e) (bit_pulseNoted_state s e 7)
  · exact KeepsMeasurement.trans (t := pulseAlone s e) (.of_withStp _ rfl) (.of_measure _ e ppb)

/-! ### The sixteenth frame locks (R20) -/

theorem errNs_congr {s t : State} (h : t.reg Reg.stpRaster = s.reg Reg.stpRaster) (e : Int) : errNs t e = errNs s e := by
  simp only [errNs, framePeriod, frameUnits, totalLines, getF, h]

theorem jumpLimit_congr {s t : State} (h : ∀ a, a ≠ Reg.stpState → a ≠ Reg.stpPhaseErr → t.reg a = s.reg a) :
    jumpLimit t = jumpLimit s := by
  have hsel : srcSel t = srcSel s := by rw [srcSel, srcSel, getF, getF, h _ (by simp) (by simp)]
  rw [jumpLimit, jumpLimit, hsel]
  split <;> rw [h _ (by simp) (by simp)]

theorem pulseFrame_congr {s t : State} (h : t.stp.pos = s.stp.pos) (e : Int) : pulseFrame t e = pulseFrame s e := by
  simp only [pulseFrame, frame, h]

section WithinLimit
variable (s : State) (e : Int)

theorem reg_withinLimit {a : Nat} (h : a ≠ Reg.stpState) : (withinLimit s e).reg a = s.reg a :=
  reg_setBit_other _ _ _ h

theorem stpSt_withinLimit : (withinLimit s e).stpSt = s.stpSt := stpSt_setBit _ false (by decide) (by decide)

theorem bit_withinLimit_refused : (withinLimit s e).bit Reg.stpState 6 = false := bit_setBit_same _ _ _ (by decide)

theorem withinLimit_stp : (withinLimit s e).stp = { s.stp with measured := some e, accepted := false } := rfl

/-- A correction within the jump limit is slewed. -/
theorem measure_within {s : State} {e : Int} (ppb : Int) (h2 : s.stpSt ≠ 2) (h : errNs s e ≤ jumpLimit s) :
    measure s e ppb = slewTo (withinLimit s e) e ppb := by
  rw [measure_eq, if_neg h2, correct_eq, if_pos h]

end WithinLimit

theorem countOk_locks {s : State} {e : Int} (hst : s.stpSt = 1) (he : errNs s e ≤ 100)
    (h6 : s.bit Reg.stpState 6 = false) (hrun : 15 ≤ s.stp.okRun) : countOk s e = enterLocked (withRun s e) := by
  have hnext : nextRun s e = 16 := by
    rw [nextRun, if_pos ⟨he, h6⟩]
    omega
  rw [countOk_eq, if_pos ⟨hnext, .inl ((stpSt_withStp _ _).trans hst)⟩]

/-- A run of fifteen frames and a sixteenth pulse within 100 ns lock a source that is being acquired. -/
theorem countFrame_locks {s : State} {e : Int} (hst : s.stpSt = 1) (he : errNs s e ≤ 100)
    (h6 : s.bit Reg.stpState 6 = false) (hrun : 15 ≤ s.stp.okRun) (hf : s.stp.okFrame = some (pulseFrame s e - 1)) :
    ∃ u, countFrame s e = enterLocked u := by
  have hne : s.stp.okFrame ≠ some (pulseFrame s e) := by
    rw [hf, ne_eq, Option.some.injEq]
    bv_omega
  rw [countFrame_eq, if_neg hne, if_pos hf]
  exact ⟨_, countOk_locks hst he h6 hrun⟩

theorem refFramePulse_locks {s : State} {e ppb : Int} (hr : s.running = true) (hsel : srcSel s = 1)
    (hp : ppb.natAbs ≤ 100000) (hnear : e.natAbs ≤ 32768) (hst : s.stpSt = 1) (he : errNs s e ≤ 100)
    (hlim : errNs s e ≤ jumpLimit s) (h6 : s.bit Reg.stpState 6 = false) (hrun : 15 ≤ s.stp.okRun)
    (hf : s.stp.okFrame = some (pulseFrame s e - 1)) : ∃ u, refFramePulse s e ppb = enterLocked u := by
  have hreg {a : Nat} (h1 : a ≠ Reg.stpState) (h2 : a ≠ Reg.stpPhaseErr) := reg_pulseAlone s e h1 h2
  have hlimAlone : errNs (pulseAlone s e) e ≤ jumpLimit (pulseAlone s e) := by
    rw [errNs_congr (hreg (by simp) (by simp)), jumpLimit_congr (fun a => hreg)]
    exact hlim
  have hstp : (slewTo (withinLimit (pulseAlone s e) e) e ppb).stp.pos = s.stp.pos := by
    rw [slewTo_pos, withinLimit_stp, pulseAlone_stp]
  rw [refFramePulse_near hr hsel hp hnear, if_neg (by rw [bit_pulseNoted_state, h6]; simp),
    measure_within ppb (by rw [stpSt_pulseAlone, hst]; decide) hlimAlone]
  apply countFrame_locks
  case hst => exact (stpSt_withinLimit _ e).trans ((stpSt_pulseAlone s e).trans hst)
  case he =>
    rw [errNs_congr ((reg_slewTo _ _ _ _).trans ((reg_withinLimit _ e (by simp)).trans (hreg (by simp) (by simp))))]
    exact he
  case h6 => exact bit_withinLimit_refused _ e
  case hrun =>
    show 15 ≤ (pulseAlone s e).stp.okRun
    rw [pulseAlone_stp]
    exact hrun
  case hf =>
    rw [pulseFrame_congr hstp, ← hf]
    show (pulseAlone s e).stp.okFrame = _
    rw [pulseAlone_stp]

/-! ### The loss of the source (R18, R21) -/

section Lost
variable {s : State} (hsel : srcSel s ≠ 0) (hl : s.stp.lost = false)
include hsel hl

theorem refLost_of_source : refLost s =
    (((((holdOver s).withStp (lostRecord (holdOver s).stp)).setBit Reg.stpState 4 true).setBit
      Reg.stpState 7 false).evt Pg.stp 0).raise 0x1001 Pg.stp (s.reg Reg.stpSrc).toNat 0 := by
  rw [refLost, if_neg (by simp [hsel, hl])]
  rfl

theorem reg_refLost_state : (refLost s).reg Reg.stpState = putBit (putBit ((holdOver s).reg Reg.stpState) 4 true) 7 false := by
  rw [refLost_of_source hsel hl, reg_raise, reg_evt_other _ (by simp), reg_setBit_same, reg_setBit_same, withStp_reg]

theorem refLost_stp : (refLost s).stp = lostRecord (holdOver s).stp := by
  rw [refLost_of_source hsel hl, raise_stp, evt_stp, setBit_stp, setBit_stp, withStp_stp]

theorem refLost_faults :
    (refLost s).faults = s.faults ++ [⟨0x1001, 0x100, (s.reg Reg.stpSrc).toNat, 0, s.stp.timeNs⟩] := by
  obtain ⟨hfaults, htime⟩ := holdOver_faults s
  rw [refLost_of_source hsel hl]
  simp only [raise, evt_faults, setBit_faults, evt_stp, setBit_stp, withStp_faults, withStp_stp, lostRecord, hfaults, htime]
  rfl

end Lost

/-- Settles O9: the source's operations write STATE, PHASE_ERR and the fault they name, and never the position. -/
theorem steepleSourcesAndLoss : Obligations.SteepleSourcesAndLoss := by
  unfold Obligations.SteepleSourcesAndLoss
  refine ⟨fun sel refclk i s ha hs => ⟨_, rfl, ?select⟩, fun refclk i s ha => ⟨_, rfl, ?freeRun⟩,
    fun err ppb s hr hsel hp he _ => ⟨_, rfl, ?pulse⟩,
    fun err ppb s hr hsel hp hnear hst he hlim h6 hrun hf => ⟨_, rfl, ?lock⟩, fun s hsel hl => ⟨_, rfl, ?lost⟩⟩
  case select =>
    have hst := stpSt_selectSource ha refclk i hs
    exact ⟨reg_selectSource_src ha refclk i hs, selectSource_pos ha refclk i hs, fun h => by rw [hst, if_pos h],
      fun h => by rw [hst, h]; rfl, fun h => by rw [hst, if_neg (by omega), if_neg (by omega)]⟩
  case freeRun =>
    rw [selectFreeRun_eq ha]
    refine ⟨?_, ?_, ?_, bit_clearCause _⟩
    · rw [stpSt_of_reg (reg_clearCause _ _ _ (by simp) (by simp) (by simp) (by simp [causePages])), stpSt_withStp]
      exact stpSt_setSt _ (by omega)
    · rw [clearCause_stp, withStp_stp]
    · rw [clearCause_stp, withStp_stp, setSt_stp, forgetSource_pos, setN_stp]
  case pulse =>
    have hk := refFramePulse_notes hr hsel hp he
    refine ⟨hk.phaseErr.trans (reg_pulseNoted_phaseErr s err), ?_, ?_, hk.pos.trans ?_⟩
    · rw [hk.rateRefused, bit_pulseNoted_state]
      rfl
    · rw [hk.glitchPend, bit_pulseNoted_state]
      rfl
    · rw [pulseNoted_stp]
  case lock =>
    obtain ⟨u, hu⟩ := refFramePulse_locks (ppb := ppb) hr hsel hp hnear hst he hlim h6 hrun hf
    rw [hu]
    refine ⟨stpSt_enterLocked u, ?_, evt_enterLocked u⟩
    rw [bit, reg_enterLocked_state, getLsbD_putBit _ _ _ _ (by omega), if_pos rfl]
  case lost =>
    have hstate := reg_refLost_state hsel hl
    have hstp := refLost_stp hsel hl
    refine ⟨?_, ?_, congrArg SteepleSt.lost hstp,
      (congrArg SteepleSt.pos hstp).trans (holdOver_pos s), fun h2 => ?_, refLost_faults hsel hl⟩
    · rw [bit, hstate, getLsbD_putBit _ _ _ _ (by omega), getLsbD_putBit _ _ _ _ (by omega)]
      rfl
    · rw [refLost_of_source hsel hl]
      exact bit_evt_same _ (by omega) _
    · rw [stpSt, getF, hstate, fld_putBit_other _ _ (by omega) (by omega) (by omega),
        fld_putBit_other _ _ (by omega) (by omega) (by omega)]
      exact (stpSt_holdOver s).trans (if_pos h2)

end Sys2Proof.Machine
end

section
/-! Proof of ActionSlotsArmAndFire: a slot's registers as its operations leave them, and the attempts that arm it, refuse it or find
it late. -/

namespace Sys2Proof.Machine

open State

/-! ### The slot's operations (R27, R30, R35) -/

section Slot
variable (s : State) (n : Nat) (p : BitVec 64)

@[simp] theorem setActNext_reg (a : Nat) : (setActNext s n p).reg a = s.reg a := rfl

@[simp] theorem actNext_setActNext : actNext (setActNext s n p) n = p := Store.get_put_same _ _ _ _

theorem reg_disarm (a : Nat) : (disarm s n).reg a =
    if a = Reg.stpActCtrl n ∨ a = Reg.stpActStatus n then putBit (s.reg a) 0 false else s.reg a := by
  rw [disarm, setActNext_reg, reg_setBit, reg_setBit, reg_setBit]
  by_cases hc : a = Reg.stpActCtrl n
  · subst hc; simp
  · by_cases hs : a = Reg.stpActStatus n
    · subst hs; simp
    · simp only [hc, hs, if_false, or_self]

theorem reg_armAt (a : Nat) : (armAt s n p).reg a =
    if a = Reg.stpActCtrl n ∨ a = Reg.stpActStatus n then putBit (s.reg a) 0 true else s.reg a := by
  rw [armAt, setActNext_reg, reg_setBit, reg_setBit, reg_setBit]
  by_cases hc : a = Reg.stpActCtrl n
  · subst hc; simp
  · by_cases hs : a = Reg.stpActStatus n
    · subst hs; simp
    · simp only [hc, hs, if_false, or_self]

theorem actArmed_disarm : actArmed (disarm s n) n = false := by
  rw [actArmed, bit, reg_disarm, if_pos (.inr rfl), getLsbD_putBit _ _ _ _ (by omega), if_pos rfl]

theorem actArmed_armAt : actArmed (armAt s n p) n = true := by
  rw [actArmed, bit, reg_armAt, if_pos (.inr rfl), getLsbD_putBit _ _ _ _ (by omega), if_pos rfl]

theorem actNext_armAt : actNext (armAt s n p) n = p := actNext_setActNext _ _ _

theorem disarm_sameRegsBut : SameRegsBut [Reg.stpActCtrl n, Reg.stpActStatus n] s (disarm s n) := by
  intro a ha
  rw [reg_disarm, if_neg (by simpa using ha)]

end Slot

/-! ### An arm attempt (R30, R32, R35) -/

/-- The slot as an attempt finds it: not armed, its status clear. -/
def slotCleared (s : State) (n : Nat) : State := disarm (s.setReg (Reg.stpActStatus n) 0) n

/-- The period is neither 0 nor at least a line, or its line is none of the frame (R30). -/
def periodIllegal (s : State) (n : Nat) : Bool :=
  decide ((0 < actPeriod s n ∧ actPeriod s n < 262144) ∨ s.totalLines ≤ s.getF (Reg.stpActPeriodLo n) 31 18)

/-- The target's line is none of the frame. -/
def targetIllegal (s : State) (n : Nat) : Bool := decide (s.totalLines ≤ s.getF (Reg.stpActTgtLo n) 31 18)

section Attempt
variable (s : State) (n : Nat)

theorem reg_slotCleared_status : (slotCleared s n).reg (Reg.stpActStatus n) = 0 := by
  rw [slotCleared, reg_disarm, if_pos (.inr rfl), reg_setReg_same]
  decide

theorem bit_slotCleared_status (i : Nat) : (slotCleared s n).bit (Reg.stpActStatus n) i = false := by
  rw [bit, reg_slotCleared_status]
  exact BitVec.getLsbD_zero

theorem reg_slotCleared_ctrl :
    (slotCleared s n).reg (Reg.stpActCtrl n) = putBit (s.reg (Reg.stpActCtrl n)) 0 false := by
  rw [slotCleared, reg_disarm, if_pos (.inl rfl), reg_setReg_other _ _ (by simp)]

variable {s n}

theorem armAttempt_illegal (h : (periodIllegal s n || targetIllegal s n) = true) : armAttempt s n =
    ((slotCleared s n).setBit (Reg.stpActStatus n) 4 (periodIllegal s n)).setBit (Reg.stpActStatus n) 5
      (targetIllegal s n) := if_pos h

theorem armAttempt_legal (h : (periodIllegal s n || targetIllegal s n) = false) : armAttempt s n =
    if later (actTarget s n) s.stp.pos then armAt (slotCleared s n) n (actTarget s n)
    else if actPeriod s n = 0 then markLate (slotCleared s n) n
    else skipPoints (armAt (slotCleared s n) n (s.posAdd (actTarget s n)
      ((unitsBetween s (actTarget s n) s.stp.pos / actPeriod s n + 1) * actPeriod s n))) n
      (unitsBetween s (actTarget s n) s.stp.pos / actPeriod s n + 1) :=
  if_neg (Bool.eq_false_iff.1 h)

/-- A refused attempt shows in the status which of period and target is illegal, and arms nothing. -/
theorem bit_armAttempt_illegal (h : (periodIllegal s n || targetIllegal s n) = true) :
    actArmed (armAttempt s n) n = false ∧ (armAttempt s n).bit (Reg.stpActStatus n) 4 = periodIllegal s n ∧
      (armAttempt s n).bit (Reg.stpActStatus n) 5 = targetIllegal s n := by
  rw [armAttempt_illegal h, actArmed, bit_setBit_other _ _ _ (by omega) (by omega),
    bit_setBit_other _ _ _ (by omega) (by omega), bit_setBit_other _ _ _ (by omega) (by omega),
    bit_setBit_same _ _ _ (by omega), bit_setBit_same _ _ _ (by omega)]
  exact ⟨bit_slotCleared_status s n 0, rfl, rfl⟩

end Attempt

/-! ### LATE (R32) -/

theorem bit_markLate_status (s : State) {n : Nat} (hn : n < 64) (i : Nat) : (markLate s n).bit (Reg.stpActStatus n) i =
    if i = 1 then true else s.bit (Reg.stpActStatus n) i := by
  have hlate : Reg.stpActStatus n ≠ if n < 32 then Reg.stpLateLo else Reg.stpLateHi := by
    split <;> simp only [Reg.stpActStatus, Reg.stpLateLo, Reg.stpLateHi] <;> omega
  rw [markLate, bit, reg_evt_other _ (by simp only [Reg.stpActStatus, Pg.stp, hEvt]; omega), reg_setBit_other _ _ _ hlate,
    reg_setBit_same, getLsbD_putBit _ _ _ _ (by omega)]
  rfl

theorem evt_markLate (s : State) (n : Nat) : (markLate s n).bit (Pg.stp + hEvt) 6 = true := bit_evt_same _ (by omega) _

/-! ### A write of ACTn_CTRL -/

/-- The slot's control register written with `w`, its reserved bits 0. -/
def ctrlWritten (s : State) (n : Nat) (w : Word) : State := s.setReg (Reg.stpActCtrl n) (w &&& 0x0FFF071F)

section CtrlWrite
variable {s : State} {n : Nat} (w : Word) (ha : s.answers Pg.stp = true)
include ha

theorem actCtrlWrite_arms (h : s.bit (Reg.stpActCtrl n) 0 = false) :
    actCtrlWrite s n (putBit w 0 true) = armAttempt (ctrlWritten s n (putBit w 0 true)) n := by
  simp only [actCtrlWrite, ha, h, getLsbD_putBit _ _ _ _ (show 0 < 32 by omega), if_true, Bool.not_true, Bool.not_false,
    Bool.and_self, Bool.false_eq_true, if_false, ctrlWritten]

theorem actCtrlWrite_disarms (h : s.bit (Reg.stpActCtrl n) 0 = true) :
    actCtrlWrite s n (putBit w 0 false) = disarm (ctrlWritten s n (putBit w 0 false)) n := by
  simp only [actCtrlWrite, ha, h, getLsbD_putBit _ _ _ _ (show 0 < 32 by omega), if_true, Bool.not_true, Bool.not_false,
    Bool.and_self, Bool.false_eq_true, if_false, ctrlWritten]

end CtrlWrite

section Written
variable (s : State) (n : Nat) (w : Word)

theorem reg_ctrlWritten_other {a : Nat} (h : a ≠ Reg.stpActCtrl n) : (ctrlWritten s n w).reg a = s.reg a :=
  reg_setReg_other _ _ h

theorem getF_ctrlWritten_other {a : Nat} (hi lo : Nat) (h : a ≠ Reg.stpActCtrl n) :
    (ctrlWritten s n w).getF a hi lo = s.getF a hi lo := by
  rw [getF, getF, reg_ctrlWritten_other _ _ _ h]

theorem totalLines_ctrlWritten : (ctrlWritten s n w).totalLines = s.totalLines := by
  rw [totalLines, totalLines, getF_ctrlWritten_other _ _ _ _ _ (by simp only [Reg.stpRaster, Reg.stpActCtrl]; omega)]

theorem actPeriod_ctrlWritten : actPeriod (ctrlWritten s n w) n = actPeriod s n := by
  rw [actPeriod, actPeriod, frameUnits, frameUnits, totalLines_ctrlWritten,
    getF_ctrlWritten_other _ _ _ _ _ (by simp), reg_ctrlWritten_other _ _ _ (by simp)]

theorem actTarget_ctrlWritten : actTarget (ctrlWritten s n w) n = actTarget s n := by
  rw [actTarget, actTarget, reg64, reg64, reg_ctrlWritten_other _ _ _ (by simp), reg_ctrlWritten_other _ _ _ (by simp)]

theorem periodIllegal_ctrlWritten : periodIllegal (ctrlWritten s n w) n = periodIllegal s n := by
  rw [periodIllegal, periodIllegal, actPeriod_ctrlWritten, totalLines_ctrlWritten,
    getF_ctrlWritten_other _ _ _ _ _ (by simp)]

theorem targetIllegal_ctrlWritten : targetIllegal (ctrlWritten s n w) n = targetIllegal s n := by
  rw [targetIllegal, targetIllegal, totalLines_ctrlWritten, getF_ctrlWritten_other _ _ _ _ _ (by simp)]

end Written

/-- ARM cleared and set again leaves a word that has it. -/
theorem putBit_putBit_of_set {w : Word} (h : w.getLsbD 0 = true) : putBit (putBit w 0 false) 0 true = w := by
  apply BitVec.eq_of_getLsbD_eq
  intro i _
  rw [getLsbD_putBit _ _ _ _ (by omega), getLsbD_putBit _ _ _ _ (by omega)]
  by_cases hi : i = 0 <;> simp [hi, h]

/-- Period and target admit arming, and the period's and the target's lines are lines of the frame. -/
theorem legal_of_lines {s : State} {n : Nat} (hp : actPeriod s n = 0 ∨ 262144 ≤ actPeriod s n)
    (hl : s.getF (Reg.stpActPeriodLo n) 31 18 < s.totalLines) (ht : s.getF (Reg.stpActTgtLo n) 31 18 < s.totalLines) :
    (periodIllegal s n || targetIllegal s n) = false := by
  simp only [periodIllegal, targetIllegal, Bool.or_eq_false_iff, decide_eq_false_iff_not]
  omega

section Arm
variable {s : State} {n : Fin 64} (w : Word) (ha : s.answers Pg.stp = true) (h0 : s.bit (Reg.stpActCtrl n) 0 = false)
include ha h0

theorem actionArm_later (hok : (periodIllegal s n || targetIllegal s n) = false)
    (hlater : later (actTarget s n) s.stp.pos = true) :
    actCtrlWrite s n (putBit w 0 true) =
      armAt (slotCleared (ctrlWritten s n (putBit w 0 true)) n) n (actTarget s n) := by
  rw [actCtrlWrite_arms w ha h0, armAttempt_legal, actTarget_ctrlWritten, if_pos]
  · exact hlater
  · rw [periodIllegal_ctrlWritten, targetIllegal_ctrlWritten, hok]

theorem actionArm_late (hok : (periodIllegal s n || targetIllegal s n) = false) (hp : actPeriod s n = 0)
    (hlater : later (actTarget s n) s.stp.pos = false) :
    actCtrlWrite s n (putBit w 0 true) = markLate (slotCleared (ctrlWritten s n (putBit w 0 true)) n) n := by
  rw [actCtrlWrite_arms w ha h0, armAttempt_legal, actTarget_ctrlWritten, if_neg, if_pos]
  · rw [actPeriod_ctrlWritten, hp]
  · exact Bool.eq_false_iff.1 hlater
  · rw [periodIllegal_ctrlWritten, targetIllegal_ctrlWritten, hok]

theorem bit_actionArm_illegal (hbad : (periodIllegal s n || targetIllegal s n) = true) :
    actArmed (actCtrlWrite s n (putBit w 0 true)) n = false ∧
      ((actCtrlWrite s n (putBit w 0 true)).bit (Reg.stpActStatus n) 4 = true ∨
        (actCtrlWrite s n (putBit w 0 true)).bit (Reg.stpActStatus n) 5 = true) := by
  have hbad' := hbad
  rw [← periodIllegal_ctrlWritten s n (putBit w 0 true), ← targetIllegal_ctrlWritten s n (putBit w 0 true)] at hbad'
  obtain ⟨harmed, h4, h5⟩ := bit_armAttempt_illegal hbad'
  rw [actCtrlWrite_arms w ha h0, h4, h5, ← Bool.or_eq_true]
  exact ⟨harmed, hbad'⟩

end Arm

/-! ### Firing (R27, R30) -/

theorem actionFire_of_armed {s : State} {n : Nat} (hr : s.running = true) (h : actArmed s n = true) : actionFire s n =
    if actPeriod s n = 0 then disarm (fireEffects (s.toPos (actNext s n)) n) n
    else setActNext (fireEffects (s.toPos (actNext s n)) n) n (s.posAdd (actNext s n) (actPeriod s n)) := by
  rw [actionFire, if_neg (by simp [hr, h])]

/-- Settles O11: a write of ACTn_CTRL arms, refuses, finds late or disarms the slot, and a firing slot goes on or disarms. -/
theorem actionSlotsArmAndFire : Obligations.ActionSlotsArmAndFire := by
  unfold Obligations.ActionSlotsArmAndFire
  refine ⟨fun n w s ha h0 hp hl ht hlater => ⟨_, rfl, ?arm⟩, fun n w s ha h0 hbad => ⟨_, rfl, ?illegal⟩,
    fun n w s ha h0 => ⟨_, rfl, ?disarm⟩, fun n s hr h hp => ⟨_, rfl, ?once⟩, fun n s hr h hp => ⟨_, rfl, ?periodic⟩,
    fun n w s ha h0 hp hl ht hlater => ⟨_, rfl, ?late⟩⟩
  case arm =>
    have hset : (putBit w 0 true &&& 0x0FFF071F).getLsbD 0 = true := by
      rw [BitVec.getLsbD_and, getLsbD_putBit _ _ _ _ (by omega)]
      rfl
    rw [actionArm_later w ha h0 (legal_of_lines hp hl ht) hlater]
    refine ⟨actArmed_armAt _ _ _, actNext_armAt _ _ _, ?_, ?_⟩
    · rw [reg_armAt, if_pos (.inr rfl), reg_slotCleared_status]
      decide
    · rw [reg_armAt, if_pos (.inl rfl), reg_slotCleared_ctrl, ctrlWritten, reg_setReg_same, putBit_putBit_of_set hset]
  case illegal =>
    refine bit_actionArm_illegal w ha h0 ?_
    simp only [periodIllegal, targetIllegal, Bool.or_eq_true, decide_eq_true_eq]
    exact or_assoc.2 hbad
  case disarm =>
    rw [actCtrlWrite_disarms w ha h0]
    refine ⟨actArmed_disarm _ _, ?_, fun a hmem => ?_⟩
    · rw [bit, reg_disarm, if_pos (.inl rfl), getLsbD_putBit _ _ _ _ (by omega), if_pos rfl]
    · rw [disarm_sameRegsBut _ _ a hmem, reg_ctrlWritten_other _ _ _ (fun h => hmem (by simp [h]))]
  case once =>
    rw [actionFire_of_armed hr h, if_pos hp]
    exact actArmed_disarm _ _
  case periodic =>
    rw [actionFire_of_armed hr h, if_neg hp]
    exact actNext_setActNext _ _ _
  case late =>
    rw [actionArm_late w ha h0 (legal_of_lines (.inl hp) hl ht) hp hlater]
    have hbit := bit_markLate_status (slotCleared (ctrlWritten s n (putBit w 0 true)) n) n.isLt
    exact ⟨(hbit 0).trans (bit_slotCleared_status _ _ 0), hbit 1, evt_markLate _ _⟩

end Sys2Proof.Machine
end

section
/-! Proof of ChannelFramesAndControlLines: what each part of a channel's frame start leaves of the channel's frame, the request of the
control line, and the registers that the supplied frame thread and its DONE write. -/

namespace Sys2Proof.Machine

open State

/-! ### The frame of a channel under the operations around it -/

/-- Releasing layers takes them from the channel's list, and writes registers (R164). -/
theorem releaseLayers_after (s : State) (n : Nat) :
    Changes [.regs] (s.modChan n (fun c => { c with release := [] })) (releaseLayers s n) :=
  Changes.foldl (fun _ _ h => evt_changes rfl h _ _) (Changes.refl _ _)

theorem releaseLayers_chan (s : State) (n : Nat) : (releaseLayers s n).chan n = { s.chan n with release := [] } := by
  rw [chan, (releaseLayers_after s n).same .chans (by decide)]
  exact modChan_chan_same _ _ _

/-- From `s` to `t` Steeple, every other channel, and the channel's frame and sets stand. -/
structure KeepsFrame (n : Nat) (s t : State) : Prop where
  stp : t.stp = s.stp
  others : ∀ m, m ≠ n → t.chan m = s.chan m
  frame : (t.chan n).frame = (s.chan n).frame
  startFr : (t.chan n).startFr = (s.chan n).startFr
  lines : (t.chan n).lines = (s.chan n).lines
  active : (t.chan n).active = (s.chan n).active
  inUse : (t.chan n).inUse = (s.chan n).inUse

namespace KeepsFrame

variable {n : Nat} {s t u : State}

theorem trans (h : KeepsFrame n s t) (h' : KeepsFrame n t u) : KeepsFrame n s u :=
  ⟨h'.stp.trans h.stp, fun m hm => (h'.others m hm).trans (h.others m hm), h'.frame.trans h.frame,
    h'.startFr.trans h.startFr, h'.lines.trans h.lines, h'.active.trans h.active, h'.inUse.trans h.inUse⟩

theorem of_chans (hs : t.stp = s.stp) (hc : t.chans = s.chans) : KeepsFrame n s t := by
  have h (m : Nat) : t.chan m = s.chan m := by rw [chan, chan, hc]
  refine ⟨hs, fun m _ => h m, ?_, ?_, ?_, ?_, ?_⟩ <;> rw [h n]

theorem of_changes {L : List Part} (h : Changes L s t) (hs : Part.stp ∉ L) (hc : Part.chans ∉ L) : KeepsFrame n s t :=
  of_chans (h.same .stp hs) (h.same .chans hc)

/-- An update of the channel that leaves its frame and its sets. -/
theorem of_setChan {c : Chan} (hf : c.frame = (s.chan n).frame) (hs : c.startFr = (s.chan n).startFr)
    (hl : c.lines = (s.chan n).lines) (ha : c.active = (s.chan n).active) (hu : c.inUse = (s.chan n).inUse) :
    KeepsFrame n s (s.setChan n c) := by
  refine ⟨setChan_stp _ _ _, fun m hm => setChan_chan_other s c hm, ?_, ?_, ?_, ?_, ?_⟩ <;> rw [setChan_chan_same] <;>
    assumption

theorem of_releaseLayers : KeepsFrame n s (releaseLayers s n) := by
  have hmod : KeepsFrame n s (s.modChan n (fun c => { c with release := [] })) := of_setChan rfl rfl rfl rfl rfl
  exact hmod.trans (of_changes (releaseLayers_after s n) (by decide) (by decide))

theorem of_closeGleaner : KeepsFrame n s (closeGleaner s n) := by
  unfold closeGleaner
  extract_lets ch g w t t'
  have ht : Changes [.regs] s t := setN_changes rfl (Changes.refl _ s) _ _
  have ht' : Changes [.regs] s t' := Changes.ite (inc32_changes rfl ht _) ht
  have hch : t'.chan n = ch := by rw [chan, ht'.same .chans (by decide)]; rfl
  refine (of_changes ht' (by decide) (by decide)).trans (of_setChan ?_ ?_ ?_ ?_ ?_) <;> rw [hch]

theorem of_switchExtent : KeepsFrame n s (s.modChan n switchExtent) := by
  refine of_setChan ?_ ?_ ?_ ?_ ?_ <;> unfold switchExtent <;> split <;> rfl

end KeepsFrame

/-! ### The frame start (R14, R26, R160) -/

/-- The next frame of the channel begins at Steeple frame `f`, on the active set; Steeple and every other channel stand. -/
structure BeginsFrame (n : Nat) (f : BitVec 32) (s t : State) : Prop where
  stp : t.stp = s.stp
  others : ∀ m, m ≠ n → t.chan m = s.chan m
  frame : (t.chan n).frame = (s.chan n).frame + 1
  startFr : (t.chan n).startFr = f
  lines : (t.chan n).lines = 0
  inUse : (t.chan n).inUse = (s.chan n).active

namespace BeginsFrame

variable {n : Nat} {f : BitVec 32} {s t u : State}

theorem after (h : KeepsFrame n s t) (h' : BeginsFrame n f t u) : BeginsFrame n f s u :=
  ⟨h'.stp.trans h.stp, fun m hm => (h'.others m hm).trans (h.others m hm), h'.frame.trans (congrArg (· + 1) h.frame),
    h'.startFr, h'.lines, h'.inUse.trans h.active⟩

theorem andThen (h : BeginsFrame n f s t) (h' : KeepsFrame n t u) : BeginsFrame n f s u :=
  ⟨h'.stp.trans h.stp, fun m hm => (h'.others m hm).trans (h.others m hm), h'.frame.trans h.frame,
    h'.startFr.trans h.startFr, h'.lines.trans h.lines, h'.inUse.trans h.inUse⟩

/-- What is left of the frame's beginning once the channel has entered the frame. -/
theorem of_beginFrame : BeginsFrame n s.frame s (beginFrame s n) := by
  unfold beginFrame
  extract_lets closed f switched q still entered aired lined t
  have hclosed : KeepsFrame n s closed := by
    unfold closed
    split
    · exact .of_changes (L := [.regs]) (setF_changes rfl (Changes.refl _ s) _ _ _ _) (by decide) (by decide)
    · exact .of_closeGleaner
  have hswitched : KeepsFrame n s switched := hclosed.trans .of_switchExtent
  have hf : f = s.frame := congrArg (fun v : SteepleSt => (v.pos >>> 32).setWidth 32) hclosed.stp
  have hentered : BeginsFrame n f switched entered := by
    refine ⟨modChan_stp _ _ _, fun m hm => modChan_chan_other _ _ hm, ?_, ?_, ?_, ?_⟩ <;> unfold entered <;>
      rw [modChan_chan_same]
  have haired : KeepsFrame n entered aired := .of_setChan rfl rfl rfl rfl rfl
  clear_value aired
  have hlined : KeepsFrame n aired lined := by
    unfold lined
    split
    · have hmod : KeepsFrame n aired (aired.modChan n (fun c => { c with ctrlNext := none })) :=
        .of_setChan rfl rfl rfl rfl rfl
      exact hmod.trans (.of_changes (setF_changes (L := [.regs]) rfl (Changes.refl _ _) _ _ _ _) (by decide) (by decide))
    · exact .of_chans rfl rfl
  have ht : KeepsFrame n lined t := .of_setChan rfl rfl rfl rfl rfl
  have hrest : KeepsFrame n t ((inputFrame t n).vecReq (256 + 16 * n + 1)) :=
    .of_changes (L := [.regs, .ing, .rv])
      (vecReq_changes rfl (inputFrame_changes rfl (Changes.refl _ t) n) _) (by decide) (by decide)
  rw [← hf]
  exact after hswitched ((((hentered.andThen haired).andThen hlined).andThen ht).andThen hrest)

end BeginsFrame

/-- Until its next start the channel's own state stands: only the position moves. -/
theorem toChannelStart_chan (s : State) (n m : Nat) : (toChannelStart s n).chan m = s.chan m := by
  rw [chan, (toChannelStart_changes rfl (Changes.refl [.regs, .stp] s) n).same .chans (by decide)]
  rfl

theorem takeOver_of_next_none {s : State} {n : Nat} (h : (s.chan n).next = none) : takeOver s n = s := by
  unfold takeOver
  split
  · next hnext _ => rw [h] at hnext; cases hnext
  · rfl

theorem mayStart_of_running {s : State} {n : Nat} (h : (s.chan n).running = true) : mayStart s n = false := by
  simp [mayStart, h]

/-- A running channel that neither stops, nor skips, nor is taken over, begins its next frame where its start is reached. -/
theorem channelFrameStart_begins {s : State} {n : Nat} (hr : s.running = true) (hp : (s.chan n).place.isSome = true)
    (hrun : (s.chan n).running = true) (hstop : (s.chan n).stopping = false) (hnext : (s.chan n).next = none)
    (hskip : (s.chan n).skip = 0) :
    channelFrameStart s n = beginFrame (releaseLayers (toChannelStart s n) n) n := by
  have hch : (releaseLayers (toChannelStart s n) n).chan n = { s.chan n with release := [] } := by
    rw [releaseLayers_chan, toChannelStart_chan]
  have htake := takeOver_of_next_none (s := releaseLayers (toChannelStart s n) n) (n := n) (by rw [hch]; exact hnext)
  have hmay := mayStart_of_running (s := releaseLayers (toChannelStart s n) n) (n := n) (by rw [hch]; exact hrun)
  have hgo : ¬ ((!s.running || (s.chan n).place.isNone) = true) := by
    rw [hr, Option.isNone_eq_false_iff.2 hp]
    decide
  rw [channelFrameStart, if_neg hgo]
  simp only [hch, hstop, hskip, hrun, htake, hmay, Bool.and_false, Bool.not_true, Bool.false_eq_true, if_false,
    Nat.lt_irrefl]

/-! ### The control line (R55, R295) -/

theorem mem_insertBy {α : Type} (le : α → α → Bool) (a b : α) (l : List α) : b ∈ insertBy le a l ↔ b = a ∨ b ∈ l := by
  induction l with
  | nil => simp [insertBy]
  | cons c l ih =>
    simp only [insertBy]
    split
    · exact List.mem_cons
    · rw [List.mem_cons, ih, List.mem_cons, or_left_comm]

theorem mem_sortBy {α : Type} (le : α → α → Bool) (b : α) (l : List α) : b ∈ sortBy le l ↔ b ∈ l := by
  induction l with
  | nil => exact Iff.rfl
  | cons a l ih =>
    rw [List.mem_cons, ← ih]
    exact mem_insertBy le a b (sortBy le l)

/-- A request not yet in the vector enters it, and nothing else changes (R295). -/
theorem vecReq_of_not_mem {s : State} {t : Nat} (h : t ∉ s.rv.vector) : s.vecReq t =
    { s with rv := { s.rv with vector := sortBy (fun a b => decide (a ≤ b)) (t :: s.rv.vector) } } := if_neg h

theorem mem_vecReq {s : State} {t : Nat} (h : t ∉ s.rv.vector) : t ∈ (s.vecReq t).rv.vector := by
  rw [vecReq_of_not_mem h]
  exact (mem_sortBy _ _ _).2 (List.mem_cons_self ..)

theorem vecReq_chan (s : State) (t m : Nat) : (s.vecReq t).chan m = s.chan m := by
  rw [chan, (vecReq_changes rfl (Changes.refl [.regs, .rv] s) t).same .chans (by decide)]
  rfl

theorem vecReq_stp (s : State) (t : Nat) : (s.vecReq t).stp = s.stp :=
  (vecReq_changes rfl (Changes.refl [.regs, .rv] s) t).same .stp (by decide)

theorem toPos_chan (s : State) (p : BitVec 64) (m : Nat) : (s.toPos p).chan m = s.chan m := by
  rw [chan, (toPos_changes rfl (Changes.refl [.regs, .stp] s) p).same .chans (by decide)]
  rfl

theorem toPos_rv (s : State) (p : BitVec 64) : (s.toPos p).rv = s.rv :=
  (toPos_changes rfl (Changes.refl [.regs, .stp] s) p).same .rv (by decide)

/-- The position of the channel's control line in the frame in progress (R55). -/
def controlPos (s : State) (n : Nat) : BitVec 64 :=
  linePos s (s.cfgOf n) (s.chan n).startFr (s.getF (Reg.chAllotCtrlLine n) 13 0)

theorem controlLine_of_due {s : State} {n : Nat} (hr : s.running = true) (hrun : (s.chan n).running = true)
    (hf : (s.chan n).frame ≠ 0) (hd : (s.chan n).ctrlDone = false) : controlLine s n =
      ((s.toPos (controlPos s n)).modChan n (fun c => { c with ctrlDone := true })).vecReq (256 + 16 * n) :=
  if_neg (by simp [hr, hrun, hf, hd])

theorem controlLine_of_done {s : State} {n : Nat} (hd : (s.chan n).ctrlDone = true) : controlLine s n = s :=
  if_pos (by simp [hd])

/-! ### What the supplied frame thread writes (R130 to R133) -/

/-- One turn of the frame thread: the target and QP of a rendition, in the channel's frame `frame`. -/
def writeTarget (c : ChanCfg) (n frame : Nat) (t : State) (r : RendCfg) : State :=
  let o := orderOf c r (t.rc n r.r) (irapGops t.draw.2 n r.r) (frame * picsPerFrame c)
  let weight := if c.cls = 2 then (picWeight o.irap o.tid * o.gop.2, o.gop.1) else (1, 1)
  let target := frameTarget c r (t.rc n r.r).history t.draw.1 weight
  (t.draw.2.setN (Reg.chrcFwTgt n r.r) target.1).setN (Reg.chrcFwQp n r.r) (target.2 + 2 ^ 31)

theorem frameThread_eq (s : State) (n : Nat) : frameThread s n =
    if !(s.chan n).running || decide ((s.chan n).frame < 2) then s
    else (s.cfgOf n).rends.foldl (writeTarget (s.cfgOf n) n (s.chan n).frame) s := rfl

/-- QP stays within the bounds of CHRC.QP, two fields of six bits. -/
theorem frameTarget_qp_lt (c : ChanCfg) (r : RendCfg) (hist : List (Nat × Int × Nat)) (i : Nat) (weight : Nat × Nat) :
    (frameTarget c r hist i weight).2 < 2 ^ 31 := by
  have hmin : fld r.qp 13 8 < 64 := fld_lt r.qp 13 8
  have hmax : fld r.qp 21 16 < 64 := fld_lt r.qp 21 16
  simp only [frameTarget]
  refine Nat.lt_of_le_of_lt (Nat.add_le_add_left (List.length_filter_le ..) _) ?_
  rw [List.length_range]
  omega

theorem getLsbD_valid {q : Nat} (h : q < 2 ^ 31) : (BitVec.ofNat 32 (q + 2 ^ 31)).getLsbD 31 = true := by
  rw [BitVec.getLsbD_ofNat, Nat.add_comm, Nat.testBit_two_pow_add_eq, Nat.testBit_lt_two_pow h]
  rfl

section WriteTarget
variable (c : ChanCfg) (n frame : Nat) (t : State) (r : RendCfg) (k : Nat)

theorem reg_writeTarget_other {a : Nat} (h1 : a ≠ Reg.chrcFwTgt n r.r) (h2 : a ≠ Reg.chrcFwQp n r.r) :
    (writeTarget c n frame t r).reg a = t.reg a := by
  rw [writeTarget, reg_setN_other _ _ h2, reg_setN_other _ _ h1]
  rfl

theorem writeTarget_valid : (writeTarget c n frame t r).bit (Reg.chrcFwQp n r.r) 31 = true := by
  rw [writeTarget, bit, reg_setN_same]
  exact getLsbD_valid (frameTarget_qp_lt _ _ _ _ _)

/-- A rendition's turn leaves VALID of every rendition that has had its turn. -/
theorem writeTarget_keeps_valid (h : t.bit (Reg.chrcFwQp n k) 31 = true) :
    (writeTarget c n frame t r).bit (Reg.chrcFwQp n k) 31 = true := by
  by_cases hk : k = r.r
  · rw [hk]
    exact writeTarget_valid c n frame t r
  · rw [bit, reg_writeTarget_other]
    · exact h
    all_goals simp only [Reg.chrcFwQp, Reg.chrcFwTgt]; omega

end WriteTarget

/-- What one element of the list establishes and every element keeps holds after the fold. -/
theorem foldl_of_mem {α β : Type} {P : β → Prop} {f : β → α → β} {a : α} {l : List α} (ha : a ∈ l) (hset : ∀ b, P (f b a))
    (hkeep : ∀ b x, P b → P (f b x)) : ∀ b, P (l.foldl f b) := by
  induction l with
  | nil => cases ha
  | cons x l ih =>
    intro b
    rw [List.foldl_cons]
    rcases List.mem_cons.1 ha with rfl | hl
    · exact foldl_inv P f l _ (hset b) hkeep
    · exact ih hl _

theorem frameThread_valid {s : State} {n : Nat} {r : RendCfg} (hrun : (s.chan n).running = true)
    (hf : 2 ≤ (s.chan n).frame) (hr : r ∈ (s.cfgOf n).rends) : (frameThread s n).bit (Reg.chrcFwQp n r.r) 31 = true := by
  rw [frameThread_eq, if_neg (by simp [hrun, Nat.not_lt.2 hf])]
  exact foldl_of_mem (P := fun t => t.bit (Reg.chrcFwQp n r.r) 31 = true) hr (fun t => writeTarget_valid _ n _ t r)
    (fun t x h => writeTarget_keeps_valid _ n _ t x r.r h) s

theorem frameThread_first_frame {s : State} {n : Nat} (hf : (s.chan n).frame < 2) : frameThread s n = s :=
  if_pos (by simp [hf])

/-! ### DONE with WAIT leaves the channel's rate control (R303) -/

/-- The address lies above the pages of the Reeve and of the core pairs, and is no ALLOT_STATE. -/
structure OffReeve (a : Nat) : Prop where
  above : 0x309000 ≤ a
  notAllot : ∀ n, a ≠ Reg.chAllotState n

theorem offReeve_fwQp (n r : Nat) : OffReeve (Reg.chrcFwQp n r) := by
  constructor <;> simp only [Reg.chrcFwQp, Reg.chAllotState] <;> omega

theorem offReeve_fwTgt (n r : Nat) : OffReeve (Reg.chrcFwTgt n r) := by
  constructor <;> simp only [Reg.chrcFwTgt, Reg.chAllotState] <;> omega

section Done
variable (s : State) {a : Nat} (ha : OffReeve a)
include ha

theorem reg_setPair_off {p : Nat} (hp : p < 8) (x : PairSt) : (s.setPair p x).reg a = s.reg a := by
  have habove := ha.above
  exact setPair_reg_other s p x (by simp only [Reg.ccPstate]; omega) (by simp only [Reg.ccRunning]; omega)

theorem reg_reeveLevels_off : s.reeveLevels.reg a = s.reg a := by
  have habove := ha.above
  rw [reeveLevels, reg_setF_other _ _ _ _ (by simp only [Reg.reeveDbLevel]; omega),
    reg_setF_other _ _ _ _ (by simp only [Reg.reeveReadyCnt]; omega)]

theorem reg_offerTo_off {p : Nat} (hp : p < 8) : (s.offerTo p).reg a = s.reg a := by
  unfold offerTo
  extract_lets x
  split
  · rfl
  · split
    · split
      · exact reg_setPair_off s ha hp _
      · rfl
    · rfl

theorem reg_offer_off : s.offer.reg a = s.reg a := by
  rw [offer, reg_reeveLevels_off _ ha]
  refine List.foldlRecOn (motive := fun t : State => t.reg a = s.reg a) _ _ rfl fun t ht p hp => ?_
  have hlt : p < 8 := List.mem_range.1 ((mem_sortBy _ _ _).1 hp)
  rw [reg_offerTo_off t ha hlt, ht]

theorem reg_settleMove_off (n : Nat) : (s.settleMove n).reg a = s.reg a := by
  unfold settleMove
  extract_lets c away stuck t
  split
  · split
    · exact (reg_setF_other _ _ _ _ (ha.notAllot n)).trans (setChan_reg _ _ _ _)
    · exact setChan_reg _ _ _ _
  · rfl

theorem reg_countStranded_off {p : Nat} (hp : p < 8) : (s.countStranded p).reg a = s.reg a := by
  have habove := ha.above
  have hset (v : Nat) : (s.setF (Reg.ccStranded p) 11 0 v).reg a = s.reg a :=
    reg_setF_other _ _ _ _ (by simp only [Reg.ccStranded]; omega)
  unfold countStranded
  extract_lets n t
  split
  · exact (reg_evt_other _ (by simp only [Pg.reeve, hEvt]; omega)).trans (hset n)
  · exact hset n

theorem reg_settlePair_off {p : Nat} (hp : p < 8) (r : Option Nat) : (settlePair s p r).reg a = s.reg a := by
  unfold settlePair
  extract_lets t
  have ht : t.reg a = s.reg a := by
    unfold t
    split
    · unfold settleThread
      split
      · exact reg_settleMove_off s ha _
      · rfl
    · rfl
  rw [reg_countStranded_off t ha hp, ht]

theorem reg_doneWrite_off {p : Nat} (hp : p < 8) {f : State → Nat → Thread → State}
    (hf : ∀ t r y, (f t r y).reg a = t.reg a) : (doneWrite s p f).reg a = s.reg a := by
  unfold doneWrite
  extract_lets x
  split
  · rfl
  · extract_lets y s1 s2
    have hs1 : s1.reg a = s.reg a := reg_setPair_off s ha hp _
    have hs2 : s2.reg a = s1.reg a := by
      unfold s2
      split
      · exact setThread_reg _ _ _ _
      · exact hf _ _ _
    rw [reg_offer_off _ ha, reg_settlePair_off _ ha hp, hs2, hs1]

theorem reg_doneWait_off {p : Nat} (hp : p < 8) : (doneWait s p).reg a = s.reg a := by
  refine reg_doneWrite_off s ha hp fun t r y => ?_
  split
  · rfl
  · exact setThread_reg _ _ _ _

end Done

/-- The thread of a channel's frames ends: it has done its work (R133). -/
theorem threadDone_of_frameThread {s : State} {p n : Nat} (h : (s.pair p).running = some (256 + 16 * n)) (hn : n < 128) :
    threadDone s p = doneWait (frameThread s n) p := by
  have hthread : 256 ≤ 256 + 16 * n ∧ 256 + 16 * n < 2304 ∧ (256 + 16 * n) % 16 = 0 := by omega
  have hchan : (256 + 16 * n - 256) / 16 = n := by omega
  simp only [threadDone, h, hthread, hchan, and_self, if_true]

/-- Settles O14: the frame start by its parts, the control line's one request, and the frame thread's words past its DONE. -/
theorem channelFramesAndControlLines : Obligations.ChannelFramesAndControlLines := by
  unfold Obligations.ChannelFramesAndControlLines
  refine ⟨fun n s hr hp hrun hstop hnext hskip _ => ⟨_, rfl, ?frameStart⟩,
    fun n s hr hrun hf hd hv => ⟨_, rfl, ?control⟩, fun n s hd => ⟨_, rfl, controlLine_of_done hd⟩,
    fun p n r x s hp hrun hf hx => ⟨_, rfl, ?thread⟩, fun p n r s hp hf => ⟨_, rfl, ?firstFrame⟩⟩
  case frameStart =>
    have hb : BeginsFrame n (toChannelStart s n).frame (toChannelStart s n) (channelFrameStart s n) := by
      rw [channelFrameStart_begins hr hp hrun hstop hnext hskip]
      have hrel : KeepsFrame n (toChannelStart s n) (releaseLayers (toChannelStart s n) n) := .of_releaseLayers
      have hframe : (releaseLayers (toChannelStart s n) n).frame = (toChannelStart s n).frame := by
        rw [frame, frame, hrel.stp]
      exact hframe ▸ BeginsFrame.after hrel .of_beginFrame
    have hframe : (channelFrameStart s n).frame = (toChannelStart s n).frame := by rw [frame, frame, hb.stp]
    refine ⟨?_, hb.startFr.trans hframe.symm, hb.lines, ?_, fun m hm => ?_⟩
    · rw [hb.frame, toChannelStart_chan]
    · rw [hb.inUse, toChannelStart_chan]
    · rw [hb.others m hm, toChannelStart_chan]
  case control =>
    rw [controlLine_of_due hr hrun hf hd]
    refine ⟨mem_vecReq ?_, ?_, ?_, fun m hm => ?_, ?_⟩
    · rw [modChan_rv, toPos_rv]
      exact hv
    · rw [vecReq_chan, modChan_chan_same, toPos_chan]
    · rw [vecReq_stp, modChan_stp]
      rfl
    · rw [vecReq_chan, modChan_chan_other _ _ hm, toPos_chan]
    · exact controlLine_of_due hr hrun hf hd ▸ (controlLine_changes rfl (Changes.refl [.regs, .stp, .chans, .rv] s) n).same
  case thread =>
    have hmem : x ∈ (s.cfgOf n).rends := List.mem_of_find?_eq_some hx
    have hxr : x.r = r := by simpa using List.find?_some hx
    show (threadDone s p).bit (Reg.chrcFwQp n r) 31 = true
    rw [threadDone_of_frameThread hp n.isLt, bit, reg_doneWait_off _ (offReeve_fwQp _ _) p.isLt, ← hxr]
    exact frameThread_valid hrun hf hmem
  case firstFrame =>
    rw [threadDone_of_frameThread hp n.isLt, frameThread_first_frame hf]
    exact ⟨reg_doneWait_off s (offReeve_fwQp _ _) p.isLt, reg_doneWait_off s (offReeve_fwTgt _ _) p.isLt⟩

end Sys2Proof.Machine
end

section
/-! Proof of ChannelEnableAndHold: ALLOT_STATE as it is written, the two header bits that an enable or its end writes, and how a channel
that is placed is held or stopped. -/

namespace Sys2Proof.Machine

open State

/-! ### ALLOT_STATE (Table 2-6) -/

section AllotState
variable (s : State) (n : Nat)

theorem reg_setAllotState_other {a : Nat} (v : Nat) (h : a ≠ Reg.chAllotState n) : (s.setAllotState n v).reg a = s.reg a :=
  reg_setF_other _ _ _ _ h

theorem allotState_setAllotState {v : Nat} (h : v < 8) : (s.setAllotState n v).allotState n = v :=
  (getF_setF_same _ _ _ (by omega) (by omega)).trans (Nat.mod_eq_of_lt h)

theorem setAllotState_chans (v : Nat) : (s.setAllotState n v).chans = s.chans :=
  (setAllotState_changes rfl (Changes.refl [.regs] s) n v).same .chans (by decide)

end AllotState

/-! ### ENABLE and BUSY (R38, R449) -/

/-- ENABLE and BUSY of a channel's page, both written `v`. -/
def withBusy (s : State) (n : Nat) (v : Bool) : State :=
  (s.setBit (Pg.ch n + hCtrl) 0 v).setBit (Pg.ch n + hStatus) 2 v

section Busy
variable (s : State) (n : Nat) (v : Bool)

theorem enabled_withBusy : (withBusy s n v).enabled (Pg.ch n) = v := by
  rw [enabled, bit, withBusy, reg_setBit_other _ _ _ (by simp)]
  exact bit_setBit_same _ _ _ (by omega)

theorem busy_withBusy : (withBusy s n v).bit (Pg.ch n + hStatus) 2 = v := bit_setBit_same _ _ _ (by omega)

theorem withBusy_sameRegsBut : SameRegsBut [Pg.ch n + hCtrl, Pg.ch n + hStatus] s (withBusy s n v) := by
  intro a ha
  simp only [List.mem_cons, List.not_mem_nil, or_false, not_or] at ha
  rw [withBusy, reg_setBit_other _ _ _ ha.2, reg_setBit_other _ _ _ ha.1]

theorem withBusy_sameBut : SameBut [.regs] s (withBusy s n v) :=
  (setBit_changes rfl (setBit_changes rfl (Changes.refl [.regs] s) _ _ _) _ _ _).same

end Busy

section Cases
variable {s : State} {n : Nat} (ha : s.answers (Pg.ch n) = true)
include ha

theorem channelEnable_eq (he : s.enabled (Pg.ch n) = false) : channelEnable s n = withBusy s n true := by
  simp only [channelEnable, ha, he, Bool.not_true, Bool.or_self, Bool.false_eq_true, if_false, withBusy]

theorem channelDisable_of_busy (he : s.enabled (Pg.ch n) = true) (hb : s.bit (Pg.ch n + hStatus) 2 = true) :
    channelDisable s n = withBusy s n false := by
  simp only [channelDisable, ha, he, hb, Bool.not_true, Bool.or_self, Bool.false_eq_true, if_false, if_true, withBusy]

/-- A placed channel loses ENABLE and ACTIVE, and is held under QUIESCE and stopped otherwise (R60, Table 2-11). -/
theorem channelDisable_of_placed (he : s.enabled (Pg.ch n) = true) (hb : s.bit (Pg.ch n + hStatus) 2 = false)
    (h2 : s.allotState n = 2) (hp : (s.chan n).place.isSome = true) :
    channelDisable s n = if s.bit (Pg.ch n + hCtrl) 2 then (s.deactivate (Pg.ch n)).setAllotState n 3
      else stopChan (s.deactivate (Pg.ch n)) n := by
  have hplace : (s.chan n).place.isNone = false := by simpa [← Option.not_isSome] using hp
  simp only [channelDisable, ha, he, hb, h2, hplace, Bool.not_true, Bool.or_self, Bool.false_eq_true, if_false,
    show ¬(2 = 5) by decide, deactivate]

theorem quiesceSet_eq : quiesceSet s n = s.setBit (Pg.ch n + hCtrl) 2 true := if_pos ha

/-- A HELD channel that has not been enabled again stops once its QUIESCE is cleared (R61). -/
theorem quiesceClear_of_held (h3 : s.allotState n = 3) (he : s.enabled (Pg.ch n) = false) :
    quiesceClear s n = stopChan ((s.setBit (Pg.ch n + hCtrl) 2 false).setAllotState n 2) n := by
  simp only [quiesceClear, ha, h3, he, Bool.not_true, Bool.not_false, Bool.false_eq_true, if_false, and_self, if_true]

end Cases

/-! ### The stop (R60) -/

section Stop
variable (s : State) (n : Nat)

theorem stopChan_reg (a : Nat) : (stopChan s n).reg a = s.reg a := by
  unfold stopChan
  split <;> rfl

/-- A running channel stops at the end of its frame. -/
theorem stopChan_of_running {s : State} {n : Nat} (h : (s.chan n).running = true) :
    stopChan s n = s.modChan n (fun c => { c with stopping := true }) := if_pos h

end Stop

/-- Settles O12: each write of CTRL by its branch, and the stop of a running channel. -/
theorem channelEnableAndHold : Obligations.ChannelEnableAndHold := by
  unfold Obligations.ChannelEnableAndHold
  refine ⟨fun n s ha he => ⟨_, rfl, ?enable⟩, fun n s ha he hb => ⟨_, rfl, ?disableBusy⟩,
    fun n s ha he hb hq h2 hp hrun => ⟨_, rfl, ?disableRunning⟩, fun n s ha he hb hq h2 hp => ⟨_, rfl, ?disableQuiesced⟩,
    fun n s ha => ⟨_, rfl, ?quiesceSet⟩, fun n s ha h3 he hrun => ⟨_, rfl, ?quiesceClear⟩⟩
  case enable =>
    rw [channelEnable_eq ha he]
    exact ⟨enabled_withBusy _ _ _, busy_withBusy _ _ _, withBusy_sameRegsBut _ _ _, withBusy_sameBut _ _ _⟩
  case disableBusy =>
    rw [channelDisable_of_busy ha he hb]
    exact ⟨enabled_withBusy _ _ _, busy_withBusy _ _ _, withBusy_sameRegsBut _ _ _, withBusy_sameBut _ _ _⟩
  case disableRunning =>
    have hrun' : ((s.deactivate (Pg.ch n)).chan n).running = true := by rw [deactivate_chan, hrun]
    rw [channelDisable_of_placed ha he hb h2 hp, hq, if_neg Bool.false_ne_true, stopChan_of_running hrun']
    refine ⟨enabled_deactivate _ _, bit_deactivate_active _ _, ?_, fun m hm => ?_⟩
    · rw [modChan_chan_same, deactivate_chan]
    · rw [modChan_chan_other _ _ hm, deactivate_chan]
  case disableQuiesced =>
    rw [channelDisable_of_placed ha he hb h2 hp, hq, if_pos rfl]
    refine ⟨?_, ?_, allotState_setAllotState _ _ (by omega), ?_⟩
    · rw [enabled, bit, reg_setAllotState_other _ _ _ (by simp only [Pg.ch, hCtrl, Reg.chAllotState]; omega)]
      exact enabled_deactivate _ _
    · rw [bit, reg_setAllotState_other _ _ _ (by simp only [Pg.ch, hStatus, Reg.chAllotState]; omega)]
      exact bit_deactivate_active _ _
    · rw [setAllotState_chans, deactivate_chans]
  case quiesceSet =>
    rw [quiesceSet_eq ha]
    exact ⟨bit_setBit_same _ _ _ (by omega), fun a hm => reg_setBit_other _ _ _ (by simpa using hm),
      (setBit_changes rfl (Changes.refl [.regs] s) _ _ _).same⟩
  case quiesceClear =>
    have hrun' : (((s.setBit (Pg.ch n + hCtrl) 2 false).setAllotState n 2).chan n).running = true := by
      rw [chan, setAllotState_chans, setBit_chans]
      exact hrun
    rw [quiesceClear_of_held ha h3 he]
    refine ⟨?_, ?_, ?_⟩
    · rw [bit, stopChan_reg, reg_setAllotState_other _ _ _ (by simp only [Pg.ch, hCtrl, Reg.chAllotState]; omega)]
      exact bit_setBit_same _ _ _ (by omega)
    · rw [allotState, getF, stopChan_reg]
      exact allotState_setAllotState _ _ (by omega)
    · rw [stopChan_of_running hrun', modChan_chan_same]

end Sys2Proof.Machine
end

section
/-! Proof of PlacementEpochsAndMoves: the frame start at which an epoch stands, and the end of a channel's move. -/

namespace Sys2Proof.Machine

open State

/-! ### Where an epoch stands (R38) -/

/-- The frame start of an epoch: the present one while it has not been handled, the next one otherwise. -/
def epochStart (s : State) : State :=
  if s.inFrame = 0 ∧ s.stp.epochOf ≠ some s.frame then s else s.enterFrame 1 0

/-- The frame in progress is noted as handled (notes/assumptions/11.md). -/
def epochNoted (s : State) : State := { s with stp := { s.stp with epochOf := some s.frame } }

theorem placementEpoch_of_running {s : State} (h : s.running = true) :
    placementEpoch s = sendDigest (epochNoted (epochStart s)).epoch := if_pos h

theorem placementEpoch_of_stopped {s : State} (h : s.running = false) : placementEpoch s = s :=
  if_neg (by rw [h]; exact Bool.false_ne_true)

section EpochStart
variable (s : State)

/-- Frames spent in HOLDOVER and frequencies are all that countHold counts. -/
theorem countHold_latch_actNext (k : Nat) :
    (s.countHold k).stp.latch = s.stp.latch ∧ (s.countHold k).stp.actNext = s.stp.actNext := by
  unfold countHold
  split
  · rw [wrapAdd_stp]
    exact ⟨rfl, rfl⟩
  · split <;> exact ⟨rfl, rfl⟩

theorem enterFrame_latch_actNext (k u : Nat) :
    (s.enterFrame k u).stp.latch = s.stp.latch ∧ (s.enterFrame k u).stp.actNext = s.stp.actNext := by
  obtain ⟨hlatch, hnext⟩ := countHold_latch_actNext
    ((s.setPos (posOf (BitVec.ofNat 32 (s.frame.toNat + k)) u)).carryMap (s.frame.toNat + k)) k
  rw [carryMap_stp] at hlatch hnext
  exact ⟨hlatch, hnext⟩

theorem epochStart_inFrame : (epochStart s).inFrame = 0 := by
  unfold epochStart
  split
  · next h => exact h.1
  · exact enterFrame_inFrame s 1

theorem epochStart_latch_actNext :
    (epochStart s).stp.latch = s.stp.latch ∧ (epochStart s).stp.actNext = s.stp.actNext := by
  unfold epochStart
  split
  · exact ⟨rfl, rfl⟩
  · exact enterFrame_latch_actNext s 1 0

end EpochStart

/-- What the Allotter does at an epoch, and the digest after it, leave Steeple. -/
theorem placementEpoch_stp {s : State} (h : s.running = true) :
    (placementEpoch s).stp = (epochNoted (epochStart s)).stp := by
  have hepoch := epoch_changes rfl (Changes.refl [.regs, .chans, .eng, .mill, .rv, .book, .faults, .twin, .sent]
    (epochNoted (epochStart s)))
  rw [placementEpoch_of_running h]
  exact (sendDigest_changes rfl hepoch).same .stp (by decide)

/-- Where the contents of HBM are no part that changes, no byte does. -/
theorem Changes.sameMemory {L : List Part} {s t : State} (h : Changes L s t) (hL : Part.mem ∉ L) : SameMemory s t := by
  obtain ⟨hmem, hgen⟩ := h.same .mem hL
  intro a
  rw [memByte, memByte, hmem, hgen]

/-! ### The end of a move (R62) -/

/-- The channel's move is over, and MOVING goes to PLACED. -/
def endMove (s : State) (n : Nat) : State :=
  if (s.modChan n (fun c => { c with moving := false })).allotState n = 4
  then (s.modChan n (fun c => { c with moving := false })).setAllotState n 2
  else s.modChan n (fun c => { c with moving := false })

section Move
variable (s : State) (n : Nat)

/-- A move is settled by its end, or nothing happens. -/
theorem settleMove_eq_or : s.settleMove n = s ∨ s.settleMove n = endMove s n := by
  unfold settleMove
  extract_lets c away stuck t
  split
  · exact .inr rfl
  · exact .inl rfl

theorem endMove_chan (m : Nat) : (endMove s n).chan m = (s.modChan n (fun c => { c with moving := false })).chan m := by
  unfold endMove
  split
  · exact setF_chan _ _ _ _ _ _
  · rfl

theorem reg_endMove_other {a : Nat} (h : a ≠ Reg.chAllotState n) : (endMove s n).reg a = s.reg a := by
  unfold endMove
  split
  · exact reg_setAllotState_other _ _ _ h
  · rfl

theorem allotState_endMove (h : s.allotState n = 4) : (endMove s n).allotState n = 2 := by
  have h' : (s.modChan n (fun c => { c with moving := false })).allotState n = 4 := h
  rw [endMove, if_pos h']
  exact allotState_setAllotState _ _ (by omega)

theorem settleMove_chan_other {m : Nat} (h : m ≠ n) : (s.settleMove n).chan m = s.chan m := by
  rcases settleMove_eq_or s n with he | he
  · rw [he]
  · rw [he, endMove_chan, modChan_chan_other _ _ h]

theorem settleMove_oldExt : ((s.settleMove n).chan n).oldExt = (s.chan n).oldExt := by
  rcases settleMove_eq_or s n with he | he
  · rw [he]
  · rw [he, endMove_chan, modChan_chan_same]

theorem reg_settleMove_other {a : Nat} (h : a ≠ Reg.chAllotState n) : (s.settleMove n).reg a = s.reg a := by
  rcases settleMove_eq_or s n with he | he
  · rw [he]
  · rw [he, reg_endMove_other _ _ h]

/-- With no extent of the move left, no thread of the channel running and no work waiting for an engine, the move ends. -/
theorem settleMove_of_over {s : State} {n : Nat} (hm : (s.chan n).moving = true) (hnew : (s.chan n).newExt = none)
    (hold : (s.chan n).oldExt = none) (hth : ∀ k < 6, (s.thread (256 + 16 * n + k)).state ≠ 3)
    (heng : ∀ e ∈ s.eng.slots, e.2.eng.isSome = true) : s.settleMove n = endMove s n := by
  have hstuck : s.eng.slots.any (fun e => e.2.eng.isNone && e.2.ctxs.any (fun x => decide (x.ch = n))) = false := by
    rw [List.any_eq_false]
    intro e he
    simp [Option.isSome_iff_ne_none.1 (heng e he)]
  have haway (pair : Nat) : (List.range 6).any (fun k =>
      decide ((s.thread (256 + 16 * n + k)).state = 3 ∧ (s.thread (256 + 16 * n + k)).pair ≠ pair)) = false := by
    rw [List.any_eq_false]
    intro k hk
    simp [hth k (List.mem_range.1 hk)]
  unfold settleMove
  extract_lets c away stuck t
  have hno : away = false := by
    unfold away
    split
    · exact haway _
    · rfl
  rw [if_pos]
  · rfl
  · simp only [c, hm, hnew, hold, hno, stuck, hstuck, Option.isNone_none, Bool.not_false, Bool.and_self]

end Move

/-- The channel holds no old extent. -/
def withoutOldExt (s : State) (n : Nat) : State := s.modChan n (fun c => { c with oldExt := none })

theorem withoutOldExt_chan (s : State) (n : Nat) : (withoutOldExt s n).chan n = { s.chan n with oldExt := none } :=
  modChan_chan_same _ _ _

/-- The old extent of a channel is freed once the last frame in it has retired. -/
theorem oldExtentFreed_of_retired {s : State} {n : Nat} (he : (s.chan n).oldExt.isSome = true) (hl : (s.chan n).oldLeft = 0) :
    oldExtentFreed s n = (withoutOldExt s n).settleMove n := if_pos ⟨he, hl⟩

/-- Settles O13: the epoch by its frame start and what follows it, and the freed extent by the end of the move. -/
theorem placementEpochsAndMoves : Obligations.PlacementEpochsAndMoves := by
  unfold Obligations.PlacementEpochsAndMoves
  refine ⟨fun s hr => ⟨_, rfl, ?epoch⟩, fun s hr => ⟨_, rfl, placementEpoch_of_stopped hr⟩,
    fun s ha => ⟨_, rfl, if_pos ha⟩, fun n s he hl => ⟨_, rfl, ?freed⟩,
    fun n s he hl hm hnew hth heng h4 => ⟨_, rfl, ?moveEnds⟩⟩
  case epoch =>
    have hstp := placementEpoch_stp hr
    obtain ⟨hlatch, hnext⟩ := epochStart_latch_actNext s
    refine ⟨?_, ?_, ?_, ?_, ?_⟩
    · rw [frame, hstp]
      rfl
    · rw [inFrame, hstp]
      exact epochStart_inFrame s
    · rw [hstp]
      exact hlatch
    · rw [hstp]
      exact hnext
    · exact (placementEpoch_changes (L := touches .placementEpoch) rfl (Changes.refl _ s)).sameMemory (by decide)
  case freed =>
    rw [oldExtentFreed_of_retired he hl]
    refine ⟨?_, ?_, fun m hm => ?_, ?_⟩
    · rw [settleMove_oldExt, withoutOldExt_chan]
    · exact reg_settleMove_other _ _ (by simp only [Reg.devEpoch, Reg.chAllotState]; omega)
    · rw [settleMove_chan_other _ _ hm]
      exact modChan_chan_other _ _ hm
    · exact (settleMove_changes rfl (modChan_changes rfl (Changes.refl [.regs, .chans] s) _ _) _).same
  case moveEnds =>
    have hchan := withoutOldExt_chan s n
    rw [oldExtentFreed_of_retired he hl, settleMove_of_over (s := withoutOldExt s n) (by rw [hchan, hm])
      (by rw [hchan, hnew]) (by rw [hchan]) hth heng]
    refine ⟨?_, allotState_endMove _ _ h4⟩
    rw [endMove_chan, modChan_chan_same]

end Sys2Proof.Machine
end

section
/-! Proof of EnginePagesRotationAndHangs: the control registers of the pages while an engine leaves its slot, and the engines' record as
a slot is handed over. -/

namespace Sys2Proof.Machine

open State

/-! ### Registers behind a page (R51, Tables 4-10, 5-5) -/

section Pages
variable {s : State} (pg : EePage)

theorem engineQuiesce_eq (v : Bool) (ha : s.answers (Pg.ee 0) = true) :
    engineQuiesce s pg v = (pageEngines s pg).foldl (fun t e => t.setBit (Pg.ee e + hCtrl) 2 v) s := by
  rw [engineQuiesce, ha]
  rfl

theorem reg_eeStatClr (ha : s.answers (Pg.ee 0) = true) (a : Nat) :
    (eeStatClr s pg).reg a = if a ∈ (pageEngines s pg).flatMap eeCleared then 0 else s.reg a := by
  rw [eeStatClr, ha]
  exact clearRegs_fold eeCleared _ s a

/-- The counters that CHRC.STAT_CLR clears (Table 5-5). -/
def chrcCleared (n : Nat) : List Nat :=
  (List.range 4).flatMap (fun r => [Reg.chrcOvfRows n r, Reg.chrcMisses n r, Reg.chrcFwLate n r])

theorem reg_chrcStatClr {n : Nat} (ha : s.answers (Pg.chrc n) = true) (a : Nat) :
    (chrcStatClr s n).reg a = if a ∈ chrcCleared n then 0 else s.reg a := by
  rw [chrcStatClr, if_pos ha]
  exact reg_clearRegs _ _ _

theorem mem_chrcCleared {n r : Nat} (hr : r < 4) :
    Reg.chrcOvfRows n r ∈ chrcCleared n ∧ Reg.chrcMisses n r ∈ chrcCleared n ∧ Reg.chrcFwLate n r ∈ chrcCleared n := by
  have hmem {a : Nat} (h : a ∈ [Reg.chrcOvfRows n r, Reg.chrcMisses n r, Reg.chrcFwLate n r]) : a ∈ chrcCleared n :=
    List.mem_flatMap.2 ⟨r, List.mem_range.2 hr, h⟩
  exact ⟨hmem (by simp), hmem (by simp), hmem (by simp)⟩

end Pages

/-! ### CTRL of every page while an engine leaves its slot (R65, R113) -/

/-- From `s` to `t` CTRL of every page stands. -/
def SameCtrl (s t : State) : Prop := ∀ a, a % 0x1000 = hCtrl → t.reg a = s.reg a

namespace SameCtrl

variable {s t u : State}

theorem refl (s : State) : SameCtrl s s := fun _ _ => rfl

theorem trans (h : SameCtrl s t) (h' : SameCtrl t u) : SameCtrl s u := fun a ha => (h' a ha).trans (h a ha)

theorem of_regs (h : t.regs = s.regs) : SameCtrl s t := fun _ _ => by rw [reg, reg, h]

theorem of_changes {L : List Part} (h : Changes L s t) (hL : Part.regs ∉ L) : SameCtrl s t := of_regs (h.same .regs hL)

/-- A write elsewhere on a page. -/
theorem setReg {b : Nat} (w : Word) (hb : b % 0x1000 ≠ hCtrl) : SameCtrl s (s.setReg b w) := fun _ ha =>
  reg_setReg_other _ _ (fun h => hb (h ▸ ha))

theorem foldl {α : Type} {f : State → α → State} (l : List α) (hf : ∀ x, ∀ e ∈ l, SameCtrl x (f x e)) (s : State) :
    SameCtrl s (l.foldl f s) :=
  List.foldlRecOn (motive := fun t => SameCtrl s t) l f (refl s) fun x hx e he => hx.trans (hf x e he)

variable (s)

theorem evt_ee (e i : Nat) : SameCtrl s (s.evt (Pg.ee e) i) := setReg _ (by simp only [Pg.ee, hEvt, hCtrl]; omega)

theorem guarantee : SameCtrl s s.guarantee := fun a ha =>
  reg_guarantee _ _ (by rintro rfl; revert ha; decide) (by rintro rfl; revert ha; decide)

theorem setPlot (p kind ch rend eng : Nat) : SameCtrl s (s.setPlot p kind ch rend eng) := by
  unfold State.setPlot
  split
  · exact refl s
  · exact setReg _ (by simp only [Reg.mpPlot, hCtrl]; omega)

theorem writePlots (n : Nat) (pl : Place) : SameCtrl s (s.writePlots n pl) := by
  refine foldl _ (fun x e _ => ?_) s
  split <;> exact setPlot x _ _ _ _ _

theorem mpEngWord {k : Nat} (hk : k < 32) : SameCtrl s (s.mpEngWord k) :=
  setReg _ (by simp only [Reg.mpEng, hCtrl]; omega)

theorem showRecon (e : Nat) (k : Option Nat) : SameCtrl s (s.showRecon e k) := by
  refine foldl _ (fun x i hi => setReg _ ?_) s
  have hi6 : i < 6 := List.mem_range.1 hi
  simp only [Reg.eeReconLo, hCtrl]
  omega

theorem syncEngine (e : Nat) : SameCtrl s (s.syncEngine e) := by
  unfold State.syncEngine
  split
  · exact refl s
  · split
    extract_lets x w roleWas t1 t2 t3 t4 t5
    have h1 : SameCtrl s t1 := setReg _ (by simp only [Reg.eeEngState, hCtrl]; omega)
    have h2 : SameCtrl t1 t2 := setReg _ (by simp only [Reg.eeLoad, hCtrl]; omega)
    have h3 : SameCtrl t2 t3 := foldl _ (fun y i hi => setReg _ (by
      have hi16 : i < 16 := List.mem_range.1 hi
      simp only [Reg.eeCtx, hCtrl]
      omega)) t2
    have h4 : SameCtrl t3 t4 := setReg _ (by simp only [Pg.ee, hParent, hCtrl]; omega)
    have h5 : SameCtrl s t5 := (((h1.trans h2).trans h3).trans h4).trans (showRecon t4 e _)
    split
    · exact h5.trans (evt_ee t5 e 3)
    · exact h5

theorem syncSpares : SameCtrl s s.syncSpares := by
  unfold State.syncSpares
  extract_lets loan stby free t
  have h1 : SameCtrl s t := setReg _ (by decide)
  exact h1.trans (setReg _ (by decide))

theorem syncSlots {l : List Nat} (hl : ∀ k ∈ l, k < 32) : SameCtrl s (s.syncSlots l) := by
  refine (foldl l (fun x k hk => ?_) s).trans (syncSpares _)
  have hw : SameCtrl x (x.mpEngWord k) := mpEngWord x (hl k hk)
  extract_lets t
  split
  · exact hw.trans (syncEngine _ _)
  · exact hw

theorem slotPlots (k : Nat) : SameCtrl s (s.slotPlots k) := by
  unfold State.slotPlots
  extract_lets x t
  have ht : SameCtrl s t := by
    refine foldl _ (fun y c _ => ?_) s
    split
    · exact writePlots y _ _
    · exact refl y
  split
  · exact ht.trans (foldl _ (fun y p _ => setPlot y _ _ _ _ _) t)
  · exact ht

theorem giveSlot {k : Nat} (hk : k < 32) (e : Option Nat) : SameCtrl s (s.giveSlot k e) := by
  unfold State.giveSlot
  extract_lets x t1 t2
  have h1 : SameCtrl s t1 := of_regs rfl
  have h2 : SameCtrl t1 t2 := by
    unfold t2
    split
    · exact syncEngine _ _
    · exact refl _
  exact ((h1.trans h2).trans (syncSlots t2 (by simpa using hk))).trans (slotPlots _ _)

theorem waitMove (k : Nat) : SameCtrl s (s.waitMove k) := by
  refine foldl _ (fun x n _ => ?_) s
  extract_lets t
  have ht : SameCtrl x t := of_regs rfl
  split
  · exact ht.trans (setReg _ (by simp only [Reg.chAllotState, hCtrl]; omega))
  · exact ht

end SameCtrl

/-! ### An engine fails (R65, R113) -/

theorem mem_of_firstThat {α : Type} {p : α → Bool} {l : List α} {a : α} (h : firstThat p l = some a) : a ∈ l := by
  induction l with
  | nil => cases h
  | cons b l ih =>
    unfold firstThat at h
    split at h
    · cases h
      exact List.mem_cons_self ..
    · exact List.mem_cons_of_mem _ (ih h)

theorem slotOf_lt {s : State} {e k : Nat} (h : s.slotOf e = some k) : k < 32 := List.mem_range.1 (mem_of_firstThat h)

/-- The work of a slot passes to a spare, or waits for an engine. -/
theorem SameCtrl.passWork (s : State) {k : Nat} (hk : k < 32) :
    SameCtrl s (if (s.loseRow k).takeSpare.1.isSome then (s.loseRow k).takeSpare.2.giveSlot k (s.loseRow k).takeSpare.1
      else ((s.loseRow k).takeSpare.2.giveSlot k (s.loseRow k).takeSpare.1).waitMove k) := by
  have hlose : SameCtrl s (s.loseRow k) := .of_changes (loseRow_changes rfl (Changes.refl [.chans, .eng] s) k) (by decide)
  have htake : SameCtrl (s.loseRow k) (s.loseRow k).takeSpare.2 :=
    .of_changes (takeSpare_changes rfl (Changes.refl [.eng] (s.loseRow k))) (by decide)
  have hgive := (hlose.trans htake).trans (giveSlot _ hk (s.loseRow k).takeSpare.1)
  split
  · exact hgive
  · exact hgive.trans (waitMove _ k)

/-- The page of an engine that fails loses ENABLE, and nothing after it gives it back. -/
theorem enabled_failEngine {s : State} {e : Nat} (he : e < 34) (hen : s.enabled (Pg.ee e) = true) :
    (s.failEngine e).enabled (Pg.ee e) = false := by
  have hoff : (s.setBit (Pg.ee e + hCtrl) 0 false).enabled (Pg.ee e) = false := bit_setBit_same _ _ _ (by omega)
  have hkeep : SameCtrl (s.setBit (Pg.ee e + hCtrl) 0 false) (s.failEngine e) := by
    unfold failEngine
    rw [if_neg (by simp [hen, he])]
    extract_lets -merge t0 t1 t2 t3 t4
    have h3 : SameCtrl t0 t3 := by
      unfold t3
      split
      · exact .of_regs rfl
      · split
        · exact .of_regs rfl
        · split
          · next k hk => exact SameCtrl.passWork t0 (slotOf_lt hk)
          · exact .refl t0
    have h4 : SameCtrl t3 t4 := by
      unfold t4
      split
      · exact .syncEngine _ _
      · exact .refl t3
    exact (((h3.trans h4).trans (.syncEngine t4 e)).trans (.syncSpares _)).trans (.guarantee _)
  rw [enabled, bit, hkeep _ (by simp only [Pg.ee, hCtrl]; omega)]
  exact hoff

theorem engineHang_eq {s : State} {e k : Nat} {stall : Bool} (hk : s.slotOf e = some k) (hj : (s.slot k).job.isSome = true)
    (hs : (stall && decide (s.mode = 4)) = false) :
    engineHang s e stall = (s.raise 0x2003 (Pg.ee e) e (s.reg (Reg.eePosition e)).toNat).failEngine e := by
  have hjob : (s.slot k).job.isNone = false := by simpa [← Option.not_isSome] using hj
  simp only [engineHang, hk, hjob, hs, Bool.or_self, Bool.false_eq_true, if_false]

theorem engineHang_faults {s : State} {e k : Nat} {stall : Bool} (hk : s.slotOf e = some k)
    (hj : (s.slot k).job.isSome = true) (hs : (stall && decide (s.mode = 4)) = false) :
    (engineHang s e stall).faults =
      s.faults ++ [⟨0x2003, 0x400 + e, e, (s.reg (Reg.eePosition e)).toNat, s.stp.timeNs⟩] := by
  have hpage : Pg.ee e / 0x1000 = 0x400 + e := by simp only [Pg.ee]; omega
  rw [engineHang_eq hk hj hs, (failEngine_changes rfl (Changes.refl [.regs, .chans, .eng] _) e).same .faults (by decide),
    raise, hpage]

/-! ### A slot is handed over (R64, R382) -/

/-- The engines' record once slot `k` has gone from member `m` to the spare `b`: `back` is what becomes STANDBY. -/
def handedOver (v : EngSt) (k m b : Nat) (back : Option Nat) (x : Slot) (loaned : List Nat) : EngSt :=
  { v with loan := some m, standby := back, loanPass := false, chosen := none, loaned := loaned
           slots := Store.put Slot.init v.slots k { x with eng := some b } }

/-- Pointing a slot at another engine writes that slot, and registers. -/
theorem giveSlot_after (s : State) (k : Nat) (e : Option Nat) :
    Changes [.regs] (s.setSlot k { s.slot k with eng := e }) (s.giveSlot k e) := by
  unfold giveSlot
  extract_lets x t1 t2
  have h2 : Changes [.regs] t1 t2 := by
    unfold t2
    split
    · exact syncEngine_changes rfl (.refl _ _) _
    · exact .refl _ _
  exact slotPlots_changes rfl (syncSlots_changes rfl h2 _) _

/-- A noted loan goes into the list of the engines loaned. -/
theorem noteLoan_eng (s : State) (e : Nat) : ∃ l, (noteLoan s e).eng = { s.eng with loaned := l } := by
  unfold noteLoan
  extract_lets l
  split
  · exact ⟨[], evt_eng _ _ _⟩
  · exact ⟨l, rfl⟩

theorem handOver_eng {s : State} {k m b : Nat} (hm : (s.slot k).eng = some m) (hb : s.eng.standby = some b)
    (hp : s.eng.loanPass = true) :
    ∃ l, (handOver s k).eng = handedOver s.eng k m b s.eng.loan (s.slot k) l := by
  have hspare : spareFor s = some b := by rw [spareFor, hb]
  unfold handOver
  split
  case h_2 hno => exact (hno m b hm hspare).elim
  next m' b' hm' hb' =>
  cases hm.symm.trans hm'
  cases hspare.symm.trans hb'
  extract_lets back v t1 t2 t3
  have hback : back = s.eng.loan := by simp [back, hb, hp]
  clear_value back
  have h2 : t2.eng = (t1.setSlot k { s.slot k with eng := some b }).eng := (giveSlot_after t1 k (some b)).same .eng (by decide)
  have h3 : t3.eng = t2.eng := by
    unfold t3
    split
    · exact (syncEngine_changes rfl (.refl [.regs] t2) _).same .eng (by decide)
    · rfl
  obtain ⟨l, hl⟩ := noteLoan_eng t3 m
  have hafter := (sparesCause_changes rfl (syncSpares_changes rfl (.refl [.regs] (noteLoan t3 m)))).same .eng (by decide)
  exact ⟨l, by rw [hafter, hl, h3, h2, ← hback]; rfl⟩

section HandOver
variable {s : State} {k m b : Nat}

/-- What a rotation says of the engines after a handover of slot `k`. -/
theorem handOver_spec (hm : (s.slot k).eng = some m) (hb : s.eng.standby = some b) (hp : s.eng.loanPass = true) :
    (handOver s k).eng.loan = some m ∧ (handOver s k).eng.standby = s.eng.loan ∧
      (handOver s k).slot k = { s.slot k with eng := some b } ∧ (handOver s k).eng.rotNext = s.eng.rotNext ∧
      (handOver s k).eng.chosen = none := by
  obtain ⟨l, hl⟩ := handOver_eng hm hb hp
  rw [slot, hl]
  exact ⟨rfl, rfl, Store.get_put_same _ _ _ _, rfl, rfl⟩

/-- The slot chosen at a rotation point. -/
def slotChosen (s : State) (k : Nat) : State :=
  ({ s with eng := { s.eng with rotNext := (k + 1) % 32, chosen := some k } } : State).syncSpares

theorem slotChosen_eng : (slotChosen s k).eng = { s.eng with rotNext := (k + 1) % 32, chosen := some k } :=
  (syncSpares_changes rfl (.refl [.regs] _)).same .eng (by decide)

theorem rotationPoint_of_due (hr : s.running = true) (h0 : s.inFrame = 0) (hs : s.enabled Pg.sexton = true)
    (hf : s.frame.toNat % max 1 (s.getF Reg.sextonRotFrames 3 0) = 0) (hc : s.eng.changed = false)
    (hp : s.eng.loanPass = true)
    (hk : firstThat (fun k => mayLend s k) ((List.range 32).map (fun i => (s.eng.rotNext + i) % 32)) = some k) :
    rotationPoint s = if ((slotChosen s k).slot k).job.isSome then slotChosen s k else handOver (slotChosen s k) k := by
  have hstart : s.toFrameStart = s := by simp [toFrameStart, h0]
  simp only [rotationPoint, hstart]
  rw [if_neg (by simp [hs, hr, hf, hc, hp]), hk]
  rfl

theorem rotationHandover_of_done (hc : s.eng.chosen = some k) (hj : (s.slot k).job = none) :
    rotationHandover s = handOver s k := by
  simp only [rotationHandover, hc, hj, Option.isSome_none, Bool.false_eq_true, if_false]

end HandOver

/-- Settles O17: the pages' registers by their lists, the failure of a hung engine, and both ways to a handover. -/
theorem enginePagesRotationAndHangs : Obligations.EnginePagesRotationAndHangs := by
  unfold Obligations.EnginePagesRotationAndHangs
  refine ⟨fun pg v s ha => ⟨_, rfl, ?quiesce⟩, fun pg s ha => ⟨_, rfl, ?eeClear⟩, fun n s ha => ⟨_, rfl, ?chrcClear⟩,
    fun e stall k s hk hj hs => ⟨_, rfl, engineHang_faults hk hj hs, fun hen => ?hang⟩,
    fun k m b s hr h0 hsx hf hc hp hb hk hm hj => ⟨_, rfl, ?point⟩, fun k m b s hc hj hm hb hp => ⟨_, rfl, ?handover⟩⟩
  case quiesce =>
    have hfold := setBit_fold (fun e => Pg.ee e + hCtrl) 2 (by omega) v (pageEngines s pg) s
    refine ⟨fun e he => ?_, fun a hm => ?_, (engineQuiesce_changes rfl (.refl [.regs] s) pg v).same⟩
    · rw [engineQuiesce_eq pg v ha]
      exact (hfold _).2 (.inl (List.mem_map_of_mem he))
    · rw [engineQuiesce_eq pg v ha]
      exact (hfold a).1 hm
  case eeClear =>
    refine ⟨fun e he a hm => ?_, fun a hm => ?_, (eeStatClr_changes rfl (.refl [.regs] s) pg).same⟩
    · rw [reg_eeStatClr pg ha, if_pos (List.mem_flatMap.2 ⟨e, he, hm⟩)]
    · rw [reg_eeStatClr pg ha, if_neg hm]
  case chrcClear =>
    refine ⟨fun r hr => ?_, fun a hm => ?_, (chrcStatClr_changes rfl (.refl [.regs] s) n).same⟩
    · obtain ⟨hovf, hmiss, hlate⟩ := mem_chrcCleared (n := n) hr
      rw [reg_chrcStatClr ha, reg_chrcStatClr ha, reg_chrcStatClr ha, if_pos hovf, if_pos hmiss, if_pos hlate]
      exact ⟨rfl, rfl, rfl⟩
    · exact (reg_chrcStatClr ha a).trans (if_neg hm)
  case hang =>
    show (engineHang s e stall).enabled (Pg.ee e) = false
    rw [engineHang_eq hk hj hs]
    exact enabled_failEngine e.isLt hen
  case point =>
    have hslot : (slotChosen s k).slot k = s.slot k := by rw [slot, slotChosen_eng]; rfl
    obtain ⟨hloan, hstandby, hnew, hnext, hchosen⟩ := handOver_spec (s := slotChosen s k) (k := k) (m := m) (b := b)
      (by rw [hslot, hm]) (by rw [slotChosen_eng]; exact hb) (by rw [slotChosen_eng]; exact hp)
    rw [rotationPoint_of_due hr h0 hsx hf hc hp hk, hslot, hj, if_neg (by simp)]
    rw [slotChosen_eng] at hstandby hnext
    rw [hslot] at hnew
    exact ⟨hloan, hstandby, hnew, hnext, hchosen⟩
  case handover =>
    rw [rotationHandover_of_done hc hj]
    obtain ⟨hloan, hstandby, hnew, -, hchosen⟩ := handOver_spec hm hb hp
    exact ⟨hloan, hstandby, hnew, hchosen⟩

end Sys2Proof.Machine
end

section
/-! Proof of CompositorLinesAndLuts: the parts of a composited line and what each leaves, the input lines that a ladder line needs, and
the entries and the status of the LUTs. -/

namespace Sys2Proof.Machine

open State

/-! ### The declared input of a channel -/

/-- The input of the declaration in force hangs on the placement, and without one on CH.INPUT. -/
theorem cfgOf_input_congr {s t : State} {n : Nat} (hp : (t.chan n).place = (s.chan n).place)
    (hr : t.reg (Reg.chInput n) = s.reg (Reg.chInput n)) : (t.cfgOf n).input = (s.cfgOf n).input := by
  unfold cfgOf
  rw [hp]
  split
  · rfl
  · exact congrArg (fun w => fld w 6 0) hr

/-! ### Storing a line (R146) -/

section StoreLine
variable (s : State) (n f y : Nat) (l : List Nat × List Nat)

theorem setSamples_chan (a : Nat) (deep : Bool) (i : Nat) (v : List Nat) (m : Nat) :
    (setSamples s a deep i v).chan m = s.chan m := by
  unfold setSamples
  split <;> rfl

/-- A stored line leaves the channel but for the chroma that waits for the next line. -/
theorem storeLine_chan : ∃ k, (storeLine s n f y l).chan n = { s.chan n with chroma := k } := by
  unfold storeLine
  extract_lets ch c p t
  have ht : t.chan n = s.chan n := setSamples_chan ..
  split
  · exact ⟨_, (setSamples_chan ..).trans ht⟩
  · split
    · exact ⟨l.2, by rw [modChan_chan_same, ht]⟩
    · exact ⟨_, (setSamples_chan ..).trans ht⟩

theorem storeLine_chan_other {m : Nat} (hm : m ≠ n) : (storeLine s n f y l).chan m = s.chan m := by
  unfold storeLine
  extract_lets ch c p t
  have ht : t.chan m = s.chan m := setSamples_chan ..
  split
  · exact (setSamples_chan ..).trans ht
  · split
    · exact (modChan_chan_other _ _ hm).trans ht
    · exact (setSamples_chan ..).trans ht

theorem storeLine_reg (a : Nat) : (storeLine s n f y l).reg a = s.reg a := by
  rw [reg, (storeLine_changes rfl (.refl [.chans, .mem] s) n f y l).same .regs (by decide), get_regs]

/-- Reading the lines counts a repeat of the channel's input at most. -/
theorem reg_linesRead (line : Nat) (m : Store Word) {a : Nat} (h : a ≠ Reg.inpRepeats (s.cfgOf n).input) :
    (linesRead s n line f y m).reg a = s.reg a := by
  unfold linesRead
  extract_lets c raw t
  show t.reg a = s.reg a
  unfold t
  split
  · exact reg_inc32_other _ h
  · rfl

end StoreLine

/-! ### A composited line by its parts (R146, R149) -/

/-- The line is read, blended with the late layers transparent, and stored. -/
def lineStored (u : State) (n line f y : Nat) (m : Store Word) (late : List Nat) : State :=
  linesRead (storeLine u n f y (composited u n line f y (missedLayers u n m line ++ late))) n line f y m

/-- LIVE_MISS and LAYER_LATE count the layers that missed the line. -/
def layersCounted (t : State) (n missed late : Nat) : State :=
  countLines (countLines t n (Reg.chcompLiveMiss n) missed 10) n (Reg.chcompLayerLate n) late 11

/-- The channel's lines are available through `line`. -/
def lineMade (t : State) (n line : Nat) : State := (t.modChan n (fun c => { c with lines := line + 1 })).noteReady n

section Line
variable (u : State) (n line f y : Nat) (m : Store Word) (out : List Nat)

theorem lineStored_changes : Changes [.regs, .chans, .hbm, .mem] u (lineStored u n line f y m out) :=
  linesRead_changes rfl (storeLine_changes rfl (.refl _ u) _ _ _ _) _ _ _ _ _

theorem linesRead_chan (k : Nat) : (linesRead u n line f y m).chan k = u.chan k := by
  rw [chan, (linesRead_changes rfl (.refl [.regs, .hbm] u) n line f y m).same .chans (by decide)]
  rfl

theorem lineStored_chan_other {k : Nat} (hk : k ≠ n) : (lineStored u n line f y m out).chan k = u.chan k := by
  rw [lineStored, linesRead_chan, storeLine_chan_other _ _ _ _ _ hk]

theorem lineStored_frame : ((lineStored u n line f y m out).chan n).frame = (u.chan n).frame := by
  obtain ⟨k, hk⟩ := storeLine_chan u n f y (composited u n line f y (missedLayers u n m line ++ out))
  rw [lineStored, linesRead_chan, hk]

theorem reg_lineStored {a : Nat} (h : a ≠ Reg.inpRepeats (u.cfgOf n).input) :
    (lineStored u n line f y m out).reg a = u.reg a := by
  have hin (l : List Nat × List Nat) : ((storeLine u n f y l).cfgOf n).input = (u.cfgOf n).input := by
    obtain ⟨k, hk⟩ := storeLine_chan u n f y l
    exact cfgOf_input_congr (by rw [hk]) (storeLine_reg _ _ _ _ _ _)
  rw [lineStored, reg_linesRead _ _ _ _ _ _ (by rw [hin]; exact h), storeLine_reg]

theorem lineMade_changes : Changes [.chans] u (lineMade u n line) :=
  noteReady_changes rfl (modChan_changes rfl (.refl _ u) _ _) _

theorem lineMade_reg (a : Nat) : (lineMade u n line).reg a = u.reg a := by
  rw [reg, (lineMade_changes u n line).same .regs (by decide), get_regs]

end Line

/-! ### Layers counted (R149, R166) -/

theorem liveMiss_layerLate_evt_ne (n : Nat) : Reg.chcompLiveMiss n ≠ Pg.chcomp n + hEvt ∧
    Reg.chcompLayerLate n ≠ Pg.chcomp n + hEvt ∧ Reg.chcompLiveMiss n ≠ Reg.chcompLayerLate n := by
  simp only [Reg.chcompLiveMiss, Reg.chcompLayerLate, Pg.chcomp, hEvt]
  omega

section Count
variable (s : State) (n : Nat) {a : Nat} {k i : Nat}

theorem reg_countLines_other {b : Nat} (h1 : b ≠ a) (h2 : b ≠ Pg.chcomp n + hEvt) :
    (countLines s n a k i).reg b = s.reg b := by
  unfold countLines
  split
  · rfl
  · rw [reg_evt_other _ h2, incSat, reg_setF_other _ _ _ _ h1]

theorem reg_countLines (hk : k ≠ 0) (ha : a ≠ Pg.chcomp n + hEvt) :
    ((countLines s n a k i).reg a).toNat = min ((s.reg a).toNat + k) 0xFFFFFFFF := by
  rw [countLines, if_neg hk, reg_evt_other _ ha, incSat, reg_setF_same, setFld_whole, getF, fld_whole, satTo,
    BitVec.toNat_ofNat]
  omega

theorem event_countLines (hk : k ≠ 0) (hi : i < 32) : (countLines s n a k i).bit (Pg.chcomp n + hEvt) i = true := by
  rw [countLines, if_neg hk]
  exact bit_evt_same _ hi _

/-- A further count clears no event. -/
theorem event_countLines_of_event {j : Nat} (ha : Pg.chcomp n + hEvt ≠ a) (hi : i < 32)
    (h : s.bit (Pg.chcomp n + hEvt) j = true) : (countLines s n a k i).bit (Pg.chcomp n + hEvt) j = true := by
  unfold countLines
  split
  · exact h
  · rw [bit, reg_evt, if_pos rfl, getLsbD_putBit _ _ _ _ hi, incSat, reg_setF_other _ _ _ _ ha]
    split
    · rfl
    · exact h

end Count

/-! ### The line done -/

/-- A composited line with the layers in `out` late: stored, its missing layers counted, and available. -/
def lineDone (u : State) (n line f y : Nat) (m : Store Word) (out : List Nat) : State :=
  lineMade (layersCounted (lineStored u n line f y m out) n (missedLayers u n m line).length out.length) n line

/-- The line of a running channel at the place where it is blended. -/
theorem compositeLine_of_due {s : State} {n line f y : Nat} (late : List (Fin 8)) (hr : s.running = true)
    (hrun : (s.chan n).running = true) (hf : (s.chan n).frame ≠ 0) (hp : pictureLine (s.cfgOf n) line = some (f, y))
    (hl : (s.chan n).lines ≤ line) {u : State} (hu : u = s.toPos (linePos s (s.cfgOf n) (s.chan n).startFr (line + 1))) :
    ∃ out, compositeLine s n line late =
      lineDone u n line f y (s.chan n).inUse out := by
  subst hu
  simp only [compositeLine, hp]
  rw [if_neg (by simp [hr, hrun, hf, Nat.not_lt.2 hl])]
  exact ⟨_, rfl⟩

section Done
variable (u : State) (n line f y : Nat) (m : Store Word) (out : List Nat)

theorem lineMade_lines : ((lineMade u n line).chan n).lines = line + 1 := by
  obtain ⟨-, hlines, -, -, -⟩ := noteReady_keeps (u.modChan n (fun c => { c with lines := line + 1 })) n
  rw [lineMade, hlines, modChan_chan_same]

theorem lineMade_frame : ((lineMade u n line).chan n).frame = (u.chan n).frame := by
  obtain ⟨-, -, hframe, -, -⟩ := noteReady_keeps (u.modChan n (fun c => { c with lines := line + 1 })) n
  rw [lineMade, hframe, modChan_chan_same]

theorem lineMade_chan_other {k : Nat} (hk : k ≠ n) : (lineMade u n line).chan k = u.chan k := by
  obtain ⟨hothers, -, -, -, -⟩ := noteReady_keeps (u.modChan n (fun c => { c with lines := line + 1 })) n
  rw [lineMade, hothers k hk, modChan_chan_other _ _ hk]

theorem layersCounted_chan (missed late k : Nat) : (layersCounted u n missed late).chan k = u.chan k := by
  rw [layersCounted, countLines_chan, countLines_chan]

theorem lineDone_lines : ((lineDone u n line f y m out).chan n).lines = line + 1 := lineMade_lines _ _ _

theorem lineDone_frame : ((lineDone u n line f y m out).chan n).frame = (u.chan n).frame := by
  rw [lineDone, lineMade_frame, layersCounted_chan, lineStored_frame]

theorem lineDone_chan_other {k : Nat} (hk : k ≠ n) : (lineDone u n line f y m out).chan k = u.chan k := by
  rw [lineDone, lineMade_chan_other _ _ _ hk, layersCounted_chan, lineStored_chan_other _ _ _ _ _ _ _ hk]

theorem lineDone_stp : (lineDone u n line f y m out).stp = u.stp := by
  have hcounted := countLines_changes rfl (countLines_changes rfl (lineStored_changes u n line f y m out)
    n (Reg.chcompLiveMiss n) (missedLayers u n m line).length 10) n (Reg.chcompLayerLate n) out.length 11
  exact (hcounted.trans ((lineMade_changes _ n line).mono rfl)).same .stp (by decide)

theorem reg_lineDone_other {a : Nat} (hmiss : a ≠ Reg.chcompLiveMiss n) (hlate : a ≠ Reg.chcompLayerLate n)
    (hevt : a ≠ Pg.chcomp n + hEvt) (hrep : a ≠ Reg.inpRepeats (u.cfgOf n).input) :
    (lineDone u n line f y m out).reg a = u.reg a := by
  rw [lineDone, lineMade_reg, layersCounted, reg_countLines_other _ _ hlate hevt, reg_countLines_other _ _ hmiss hevt,
    reg_lineStored _ _ _ _ _ _ _ hrep]

variable {m}

theorem event_lineDone (hm : missedLayers u n m line ≠ []) :
    (lineDone u n line f y m out).bit (Pg.chcomp n + hEvt) 10 = true := by
  obtain ⟨-, hlateEvt, -⟩ := liveMiss_layerLate_evt_ne n
  rw [bit, lineDone, lineMade_reg]
  exact event_countLines_of_event _ _ hlateEvt.symm (by omega)
    (event_countLines _ _ (by simpa using hm) (by omega))

theorem liveMiss_lineDone (hm : missedLayers u n m line ≠ []) :
    ((lineDone u n line f y m out).reg (Reg.chcompLiveMiss n)).toNat =
      min ((u.reg (Reg.chcompLiveMiss n)).toNat + (missedLayers u n m line).length) 0xFFFFFFFF := by
  obtain ⟨hmissEvt, -, hmissLate⟩ := liveMiss_layerLate_evt_ne n
  rw [lineDone, lineMade_reg, layersCounted, reg_countLines_other _ _ hmissLate hmissEvt,
    reg_countLines _ _ (by simpa using hm) hmissEvt,
    reg_lineStored _ _ _ _ _ _ _ (by simp only [Reg.chcompLiveMiss, Reg.inpRepeats]; omega)]

end Done

/-! ### A line that passes through (R157) -/

/-- Layer 0 at full GALPHA passes where no layer above it spans the line. -/
theorem pairPasses_of_no_span {m : Store Word} (h : fld (setWordAt m (layerOff 0 0x1C)) 9 0 = 1023) (k : Nat) :
    pairPasses m [] k = true := by
  rw [pairPasses, h]
  rfl

theorem composited_of_uncovered {s : State} {n : Nat} (l f y : Nat) (out : List Nat)
    (ha : fld (setWordAt (s.chan n).inUse (layerOff 0 0x1C)) 9 0 = 1023) (h0 : 0 ∉ layersAbove (s.chan n).inUse 0)
    (hv : ∀ k ∈ layersAbove (s.chan n).inUse 0,
      visibleGraphics s n (s.chan n).inUse k = false ∧ visibleLive s n (s.chan n).inUse k = false) :
    composited s n l f y out =
      ((List.range ((s.cfgOf n).w / 2)).flatMap (fun k => [lineY (baseLine s n l) (2 * k), lineY (baseLine s n l) (2 * k + 1)]),
       (List.range ((s.cfgOf n).w / 2)).flatMap (fun k => [lineCb (baseLine s n l) k, lineCr (baseLine s n l) k])) := by
  unfold composited
  extract_lets ch c m mat live shows spans drawn lines all cb cr pairs
  have hshown : (layersAbove m 0).filter shows = [] := by
    rw [List.filter_eq_nil_iff]
    intro k hk
    obtain ⟨hg, hl⟩ := hv k hk
    have hk0 : k ≠ 0 := fun h => h0 (h ▸ hk)
    simp [shows, hk0, m, ch, hg, hl]
  have hspans : spans = [] := congrArg (List.map (fun k => layerSpan s n c m k f y)) hshown
  have hpass (k : Nat) : pairPasses m spans k = true := by rw [hspans]; exact pairPasses_of_no_span ha k
  simp only [hpass, if_true, pairs, live, c]

/-! ### A ladder line (R167 to R169) -/

/-- The last input line under the taps is a line of the input, whatever the phase: `v` luma lines to a line of chroma. -/
theorem tapLine_lt {hi v : Nat} (a b : Int) (hhi : 2 ≤ hi) (hv : v = 1 ∨ v = 2) :
    max (clampI a 0 (hi - 1)).toNat ((clampI b 0 ((hi / v : Nat) - 1)).toNat * v + (v - 1)) < hi := by
  unfold clampI
  rcases hv with rfl | rfl <;> omega

/-- The stage has written its lines through `line`. -/
def stageMade (t : State) (n stage line : Nat) : State :=
  (t.modChan n (fun c => { c with stages := Store.put (fun _ => 0) c.stages stage (line + 1) })).noteReady n

theorem stageMade_chan (t : State) (n stage line : Nat) :
    Store.get (fun _ => 0) ((stageMade t n stage line).chan n).stages stage = line + 1 ∧
      ∀ m, m ≠ n → (stageMade t n stage line).chan m = t.chan m := by
  obtain ⟨hothers, -, -, hstages, -⟩ := noteReady_keeps
    (t.modChan n (fun c => { c with stages := Store.put (fun _ => 0) c.stages stage (line + 1) })) n
  rw [modChan_chan_same] at hstages
  refine ⟨?_, fun m hm => (hothers m hm).trans (modChan_chan_other _ _ hm)⟩
  rw [stageMade, hstages]
  exact Store.get_put_same (fun _ => 0) (t.chan n).stages stage (line + 1)

/-- A stage in use whose input lines are there writes its next line to HBM. -/
theorem ladderLine_of_due {s : State} {n stage line ho hi : Nat} {g : Bool × Nat × Nat} (hrun : (s.chan n).running = true)
    (hf : (s.chan n).frame ≠ 0) (hg : (s.cfgOf n).stages[stage]? = some g) (hon : g.1 = true)
    (hho : ho = (scaledPic s n stage ((s.chan n).frame - 1)).h / picsPerFrame (s.cfgOf n))
    (hhi : hi = (stageInput s n stage ((s.chan n).frame - 1)).h / picsPerFrame (s.cfgOf n))
    (hline : line = Store.get (fun _ => 0) (s.chan n).stages stage) (hlt : line < ho * picsPerFrame (s.cfgOf n))
    (h2 : 2 ≤ hi) (hhas : ∀ y < hi, stageHas s n stage (line / max 1 ho) y = true) :
    ∃ t, Changes [.hbm, .mem] s t ∧ ladderLine s n stage line = stageMade t n stage line := by
  generalize hres : ladderLine s n stage line = r
  unfold ladderLine at hres
  extract_lets ch c g' i p o q ho' hi' f y filter v py pc need top read luma chroma t1 t2 t3 at hres
  have hgain : g' = g := by simp [g', c, List.getD_eq_getElem?_getD, hg]
  have hneed : need < hi := by
    rw [hhi] at h2 ⊢
    exact tapLine_lt _ _ h2 (by unfold v; split <;> simp)
  have hthere : stageHas s n stage f need = true := by
    have h := hhas need hneed
    rw [hho] at h
    exact h
  have hlt' : ¬ ho' * q ≤ line := by
    rw [hho] at hlt
    exact Nat.not_le.2 hlt
  rw [if_neg (by simp [ch, hgain, hon, hrun, hf, ← hline, hlt', hthere])] at hres
  refine ⟨t3, ?_, hres.symm⟩
  have hluma : Changes [.hbm, .mem] s t1 := setSamples_changes rfl (.refl _ s) _ _ _ _
  have hchroma : Changes [.hbm, .mem] s t2 := by
    unfold t2
    split
    · exact setSamples_changes rfl hluma _ _ _ _
    · exact hluma
  exact readDone_changes rfl hchroma _ _

/-! ### LUTs (R153, R154) -/

section Lut
variable (s : State) (n : Nat)

theorem reg_lutStat_same (err : Bool) : (lutStat s n err).reg (Reg.chcompLutStat n) = if err then 3 else 1 := by
  rw [lutStat, reg_setN_same]
  cases err <;> rfl

theorem reg_lutStat_other (err : Bool) {a : Nat} (h : a ≠ Reg.chcompLutStat n) : (lutStat s n err).reg a = s.reg a :=
  reg_setN_other _ _ h

theorem lutStat_chans (err : Bool) : (lutStat s n err).chans = s.chans := setN_chans _ _ _

theorem reg_lutInc_other {a : Nat} (h : a ≠ Reg.chcompLutAddr n) : (lutInc s n).reg a = s.reg a := by
  unfold lutInc
  extract_lets b
  split
  · exact reg_setF_other _ _ _ _ h
  · rfl

theorem lutInc_chans : (lutInc s n).chans = s.chans := by
  unfold lutInc
  extract_lets b
  split
  · exact setF_chans _ _ _ _ _
  · rfl

/-- The entry that LUT_ADDR names. -/
def lutAddressed (s : State) (n : Nat) : Nat :=
  lutKey (s.getF (Reg.chcompLutAddr n) 12 12) (s.getF (Reg.chcompLutAddr n) 11 10) (s.getF (Reg.chcompLutAddr n) 9 0)

/-- The channel with one entry written. -/
def withLutEntry (s : State) (n k : Nat) (v : BitVec 18) : State :=
  s.modChan n (fun c => { c with lut := Store.put (lutReset c.lutBase) c.lut k v })

theorem lutEntry_withLutEntry (k : Nat) (v : BitVec 18) : lutEntry ((withLutEntry s n k v).chan n) k = v := by
  rw [withLutEntry, modChan_chan_same]
  exact Store.get_put_same _ _ _ _

variable {s n} (ha : s.answers (Pg.chcomp n) = true)
include ha

theorem lutWrite_of_disabled (hw : s.bit (Reg.chcompLutAddr n) 16 = true) (he : s.enabled (Pg.ch n) = false)
    (hc : s.getF (Reg.chcompLutAddr n) 11 10 ≠ 3) : lutWrite s n =
      lutStat (lutInc (withLutEntry s n (lutAddressed s n) ((s.reg (Reg.chcompLutData n)).setWidth 18)) n) n false := by
  simp only [lutWrite, ha, hw, he, hc, Bool.not_true, Bool.or_self, Bool.false_eq_true, if_false]
  rfl

theorem lutWrite_of_enabled (hw : s.bit (Reg.chcompLutAddr n) 16 = true) (he : s.enabled (Pg.ch n) = true) :
    lutWrite s n = lutWhileEnabled s n := by
  simp only [lutWrite, ha, hw, he, Bool.not_true, Bool.or_self, Bool.false_eq_true, if_false, if_true]

theorem lutRead_eq (hw : s.bit (Reg.chcompLutAddr n) 16 = false) (hc : s.getF (Reg.chcompLutAddr n) 11 10 ≠ 3) :
    lutRead s n = lutStat (lutInc (s.setReg (Reg.chcompLutData n)
      ((lutEntry (s.chan n) (lutAddressed s n)).setWidth 32)) n) n false := by
  simp only [lutRead, ha, hw, hc, Bool.not_true, Bool.or_self, Bool.false_eq_true, if_false]
  rfl

theorem lutPreset_of_disabled {preset : Nat} (he : s.enabled (Pg.ch n) = false) (hp : preset ≠ 3) :
    lutPreset s n preset false =
      (lutStat (s.modChan n (fun c => { c with lut := [], lutBase := preset })) n false).evt (Pg.chcomp n) 12 := by
  simp only [lutPreset, ha, he, hp, Bool.not_true, decide_false, Bool.or_self, Bool.false_eq_true, if_false]

end Lut

/-- Settles O19: the composited line by its parts, the ladder line by its input, and each access to the LUTs by its branch. -/
theorem compositorLinesAndLuts : Obligations.CompositorLinesAndLuts := by
  unfold Obligations.CompositorLinesAndLuts
  refine ⟨fun n line f y late s hr hrun hf hp hl => ⟨_, rfl, ?line⟩,
    fun n line f y late u s hr hrun hf hp hl hu hm => ⟨_, rfl, ?missed⟩,
    fun n l f y out s ha h0 hv => composited_of_uncovered l f y out ha h0 hv,
    fun n stage line ho hi g s hrun hf hg hon hho hhi hline hlt h2 hhas => ⟨_, rfl, ?ladder⟩,
    fun n s ha hw he hc => ⟨_, rfl, ?write⟩, fun n s ha hw he => ⟨_, rfl, ?enabled⟩,
    fun n s ha hw hc => ⟨_, rfl, ?read⟩, fun n preset s ha he hp => ⟨_, rfl, ?preset⟩⟩
  case line =>
    have hsame := (compositeLine_changes rfl (.refl [.regs, .stp, .chans, .hbm, .mem] s) n line late).same
    obtain ⟨out, heq⟩ := compositeLine_of_due late hr hrun hf hp hl rfl
    rw [heq] at hsame ⊢
    refine ⟨lineDone_lines _ _ _ _ _ _ _, ?_, ?_, fun m hm => ?_, hsame⟩
    · rw [lineDone_frame, toPos_chan]
    · rw [lineDone_stp]
    · rw [lineDone_chan_other _ _ _ _ _ _ _ hm, toPos_chan]
  case missed =>
    obtain ⟨out, heq⟩ := compositeLine_of_due late hr hrun hf hp hl hu
    have hureg {a : Nat} (h1 : a ≠ Reg.ptpMapLo) (h2 : a ≠ Reg.ptpMapHi) (h3 : a ≠ Reg.stpHoldFrames) : u.reg a = s.reg a := by
      rw [hu, reg_toPos _ _ _ h1 h2 h3]
    have hin : (u.cfgOf n).input = (s.cfgOf n).input :=
      cfgOf_input_congr (by rw [hu, toPos_chan]) (hureg (by simp only [Reg.chInput, Reg.ptpMapLo]; omega)
        (by simp only [Reg.chInput, Reg.ptpMapHi]; omega) (by simp only [Reg.chInput, Reg.stpHoldFrames]; omega))
    rw [heq]
    refine ⟨event_lineDone _ _ _ _ _ _ hm, ?_, fun a ha => ?_⟩
    · rw [liveMiss_lineDone _ _ _ _ _ _ hm, hureg (by simp only [Reg.chcompLiveMiss, Reg.ptpMapLo]; omega)
        (by simp only [Reg.chcompLiveMiss, Reg.ptpMapHi]; omega) (by simp only [Reg.chcompLiveMiss, Reg.stpHoldFrames]; omega)]
    · simp only [List.mem_cons, List.not_mem_nil, or_false, not_or] at ha
      obtain ⟨hmiss, hlate, hevt, hrep, hhold, hlo, hhi⟩ := ha
      rw [reg_lineDone_other _ _ _ _ _ _ _ hmiss hlate hevt (by rw [hin]; exact hrep), hureg hlo hhi hhold]
  case ladder =>
    have hsame := (ladderLine_changes rfl (.refl [.chans, .hbm, .mem] s) n stage line).same
    obtain ⟨t, ht, heq⟩ := ladderLine_of_due hrun hf hg hon hho hhi hline hlt h2 hhas
    have htchan (m : Nat) : t.chan m = s.chan m := by rw [chan, ht.same .chans (by decide)]; rfl
    obtain ⟨hwritten, hothers⟩ := stageMade_chan t n stage line
    rw [heq] at hsame ⊢
    exact ⟨hwritten, fun m hm => (hothers m hm).trans (htchan m), hsame⟩
  case write =>
    rw [lutWrite_of_disabled ha hw he hc]
    refine ⟨?_, reg_lutStat_same _ _ _, fun m hm => ?_⟩
    · rw [chan, lutStat_chans, lutInc_chans]
      exact lutEntry_withLutEntry s n (lutAddressed s n) _
    · rw [chan, lutStat_chans, lutInc_chans]
      exact modChan_chan_other _ _ hm
  case enabled =>
    rw [lutWrite_of_enabled ha hw he, lutWhileEnabled]
    refine ⟨?_, ?_, bit_refuse _ _ _ _ _, ?_⟩
    · rw [refuse_chans, lutStat_chans]
    · rw [reg_refuse_other _ (by simp only [Reg.chcompLutStat, Pg.ch, hStatus]; omega)
        (by simp only [Reg.chcompLutStat, Pg.ch, hRefuse]; omega), reg_lutStat_same]
      rfl
    · rw [reg_refuse]
      congr 1
      omega
  case read =>
    rw [lutRead_eq ha hw hc]
    refine ⟨?_, reg_lutStat_same _ _ _, ?_⟩
    · rw [reg_lutStat_other _ _ _ (by simp), reg_lutInc_other _ _ (by simp), reg_setReg_same]
      rfl
    · rw [lutStat_chans, lutInc_chans, setReg_chans]
  case preset =>
    rw [lutPreset_of_disabled ha he hp]
    refine ⟨fun k => ?_, bit_evt_same _ (by omega) _, ?_, fun m hm => ?_⟩
    · rw [evt_chan, chan, lutStat_chans, ← chan, modChan_chan_same]
      rfl
    · rw [reg_evt_other _ (by simp only [Reg.chcompLutStat, Pg.chcomp, hEvt]; omega), reg_lutStat_same]
      rfl
    · rw [evt_chan, chan, lutStat_chans, ← chan, modChan_chan_other _ _ hm]

end Sys2Proof.Machine
end

section
/-! Proof of MillpondErrorsAndSwaps: what a double-bit error leaves before the plot is judged, when a plot is put down for a swap, and
the words of both plots after one. -/

namespace Sys2Proof.Machine

open State

/-! ### A plot's word (Table 3-8) -/

theorem plotKind_of_reg {s t : State} {p : Nat} (h : t.reg (Reg.mpPlot p) = s.reg (Reg.mpPlot p)) : t.plotKind p = s.plotKind p := by
  rw [plotKind, plotKind, getF, getF, h]

theorem plotInUse_congr {s t : State} {p : Nat} (h : t.plotKind p = s.plotKind p) : plotInUse t p = plotInUse s p := by
  rw [plotInUse, plotInUse, h]

theorem plotInUse_iff {s : State} {p : Nat} : plotInUse s p = true ↔ 1 ≤ s.plotKind p ∧ s.plotKind p ≤ 4 := by
  rw [plotInUse, decide_eq_true_iff]

/-- The word that a plot takes over keeps the KIND: the mask takes ON_TEST and the error bit out alone. -/
theorem fld_kind_takenOver (w old : Word) : fld ((w &&& 0x7FFFFFF7) ||| (old &&& 0x80000000)) 2 0 = fld w 2 0 := by
  apply fld_eq_of_bits
  intro i hi
  have hin : (0x7FFFFFF7 : Word).getLsbD (0 + i) = true := by interval_cases i <;> rfl
  have hout : (0x80000000 : Word).getLsbD (0 + i) = false := by interval_cases i <;> rfl
  rw [BitVec.getLsbD_or, BitVec.getLsbD_and, BitVec.getLsbD_and, hin, hout, Bool.and_true, Bool.and_false, Bool.or_false]

theorem fld_kind_retired (w : Word) : fld ((w &&& 0x80000000) ||| 6) 2 0 = 6 := by
  have h : fld ((w &&& 0x80000000) ||| 6) 2 0 = fld 6 2 0 := by
    apply fld_eq_of_bits
    intro i hi
    have hout : (0x80000000 : Word).getLsbD (0 + i) = false := by interval_cases i <;> rfl
    rw [BitVec.getLsbD_or, BitVec.getLsbD_and, hout, Bool.and_false, Bool.false_or]
  exact h.trans (by decide)

theorem reg_retirePlot_other (s : State) {p a : Nat} (hp : a ≠ Reg.mpPlot p) (hr : a ≠ Reg.mpRetired) :
    (retirePlot s p).reg a = s.reg a := by
  rw [retirePlot, reg_setN_other _ _ hr, reg_setReg_other _ _ hp]

theorem plotKind_retirePlot (s : State) (p : Nat) : (retirePlot s p).plotKind p = 6 := by
  rw [plotKind, getF, retirePlot, reg_setN_other _ _ (by simp only [Reg.mpPlot, Reg.mpRetired]; omega), reg_setReg_same]
  exact fld_kind_retired _

theorem reg_mpCounts_other (s : State) {a : Nat} (hg : a ≠ Reg.mpGranted) (hi : a ≠ Reg.mpInherited) (hf : a ≠ Reg.mpFree) :
    s.mpCounts.reg a = s.reg a := by
  rw [mpCounts, reg_setN_other _ _ hf, reg_setN_other _ _ hi, reg_setN_other _ _ hg]

theorem plotKind_mpCounts (s : State) (p : Nat) : s.mpCounts.plotKind p = s.plotKind p :=
  plotKind_of_reg (reg_mpCounts_other s (by simp only [Reg.mpPlot, Reg.mpGranted]; omega)
    (by simp only [Reg.mpPlot, Reg.mpInherited]; omega) (by simp only [Reg.mpPlot, Reg.mpFree]; omega))

/-! ### A double-bit error (R68, R78, R83) -/

/-- The error has stalled the row, is counted and shown. -/
def refetchCounted (s : State) (p k clocks : Nat) : State :=
  (((stallJob s k clocks).inc32 Reg.mpRefetch).evt Pg.mp 0).setBit (Reg.mpPlot p) 31 true

/-- `m` errors of a plot are noted in the frame in progress. -/
def withErrors (s : State) (p m : Nat) : State :=
  { s with mill := { s.mill with errs := Store.put (fun _ => 0) s.mill.errs p (s.frame.toNat * 4 + m) } }

section Refetch
variable (s : State) (p k clocks : Nat)

theorem withErrors_due (m : Nat) : (withErrors s p m).mill.due = s.mill.due := rfl

/-- The count of errors that the Millpond holds of the frame in progress goes to at most 3. -/
theorem mpRefetch_eq {n : Nat}
    (hn : (if Store.get (fun _ => 0) s.mill.errs p / 4 = s.frame.toNat then Store.get (fun _ => 0) s.mill.errs p % 4 else 0) = n) :
    mpRefetch s p k clocks =
      if min 3 (n + 1) = 3 ∧ n < 3 then plotFaulty (withErrors (refetchCounted s p k clocks) p (min 3 (n + 1))) p
      else withErrors (refetchCounted s p k clocks) p (min 3 (n + 1)) := by
  subst hn
  rfl

theorem mpRefetch_first (h : Store.get (fun _ => 0) s.mill.errs p / 4 ≠ s.frame.toNat) :
    mpRefetch s p k clocks = withErrors (refetchCounted s p k clocks) p 1 :=
  mpRefetch_eq s p k clocks (n := 0) (if_neg h)

theorem mpRefetch_third (h : Store.get (fun _ => 0) s.mill.errs p = s.frame.toNat * 4 + 2) :
    mpRefetch s p k clocks = plotFaulty (withErrors (refetchCounted s p k clocks) p 3) p :=
  mpRefetch_eq s p k clocks (n := 2) (by rw [h, if_pos (by omega)]; omega)

theorem reg_refetchCounted_other {a : Nat} (hc : a ≠ Reg.mpRefetch) (he : a ≠ Pg.mp + hEvt) (hp : a ≠ Reg.mpPlot p) :
    (refetchCounted s p k clocks).reg a = s.reg a := by
  rw [refetchCounted, reg_setBit_other _ _ _ hp, reg_evt_other _ he, reg_inc32_other _ hc]
  rfl

theorem reg_refetchCounted_refetch (h : s.reg Reg.mpRefetch ≠ BitVec.allOnes 32) :
    (refetchCounted s p k clocks).reg Reg.mpRefetch = s.reg Reg.mpRefetch + 1 := by
  rw [refetchCounted, reg_setBit_other _ _ _ (by simp only [Reg.mpPlot, Reg.mpRefetch]; omega), reg_evt_other _ (by simp)]
  exact reg_inc32 (stallJob s k clocks) _ h

theorem evt_refetchCounted : (refetchCounted s p k clocks).bit (Pg.mp + hEvt) 0 = true := by
  rw [bit, refetchCounted, reg_setBit_other _ _ _ (by simp only [Reg.mpPlot, Pg.mp, hEvt]; omega)]
  exact bit_evt_same _ (by omega) _

theorem plotError_refetchCounted : (refetchCounted s p k clocks).bit (Reg.mpPlot p) 31 = true := bit_setBit_same _ _ _ (by omega)

theorem plotKind_refetchCounted : (refetchCounted s p k clocks).plotKind p = s.plotKind p := by
  rw [plotKind, getF, refetchCounted, reg_setBit_same, fld_putBit_other _ _ (by omega) (by omega) (by omega),
    reg_evt_other _ (by simp only [Reg.mpPlot, Pg.mp, hEvt]; omega),
    reg_inc32_other _ (by simp only [Reg.mpPlot, Reg.mpRefetch]; omega)]
  rfl

/-- Before the plot is judged an error touches registers and the row's slot. -/
theorem refetchCounted_changes : Changes [.regs, .eng] s (refetchCounted s p k clocks) :=
  setBit_changes rfl (evt_changes rfl (inc32_changes rfl (stallJob_changes rfl (.refl _ s) _ _) _) _ _) _ _ _

theorem refetchCounted_slot (i : Nat) : (refetchCounted s p k clocks).slot i = (stallJob s k clocks).slot i := by
  rw [refetchCounted, setBit_slot, evt_slot, inc32_slot]

theorem refetchCounted_job : ((refetchCounted s p k clocks).slot k).job =
    (s.slot k).job.map (fun j => { j with stall := j.stall + clocks, stallMax := max j.stallMax clocks }) := by
  rw [refetchCounted_slot, stallJob, setSlot_slot_same]

theorem refetchCounted_slot_other {i : Nat} (h : i ≠ k) : (refetchCounted s p k clocks).slot i = s.slot i := by
  rw [refetchCounted_slot, stallJob, setSlot_slot_other _ _ h]

end Refetch

/-! ### A faulty plot (R79) -/

theorem plotFaulty_of_inUse {s : State} {p : Nat} (hu : plotInUse s p = true) (hd : p ∉ s.mill.due) :
    plotFaulty s p = { s with mill := { s.mill with due := s.mill.due ++ [p] } } := by
  have hk := plotInUse_iff.1 hu
  have hstays : ¬ (s.plotKind p = 6 ∨ p ∈ s.mill.due) := by
    rintro (h6 | h)
    · omega
    · exact hd h
  rw [plotFaulty]
  exact (if_neg hstays).trans (if_pos hu)

/-! ### A swap (R79, R459) -/

/-- The plot is due for a swap no more. -/
def withoutDue (s : State) (p : Nat) : State :=
  { s with mill := { s.mill with due := s.mill.due.filter (fun x => decide (x ≠ p)) } }

theorem plotSwap_of_busy {s : State} {p : Nat} (h : plotBusy s p = true) : plotSwap s p = s := if_pos h

theorem plotSwap_of_due {s : State} {p q : Nat} (hb : plotBusy s p = false) (hd : p ∈ s.mill.due) (hu : plotInUse s p = true)
    (hq : freePlotBut s p = some q) : plotSwap s p = swapPlot (withoutDue s p) p q := by
  have huse : plotInUse (withoutDue s p) p = true := hu
  have hfree : freePlotBut (withoutDue s p) p = some q := hq
  rw [plotSwap, if_neg (by simp [hb]), if_pos hd]
  exact (if_pos huse).trans (by rw [← withoutDue, hfree])

theorem ne_of_freePlotBut {s : State} {p q : Nat} (h : freePlotBut s p = some q) : q ≠ p := by
  simpa using List.find?_some h

section Swap
variable (s : State) (p q : Nat)

/-- The windows of the renditions that read a plot are to be loaded again. -/
def windowsReloaded : State := (plotReaders s p).foldl (fun t e => reloadWindows t e.1 e.2) s

/-- `q` stands in the place of `p`, which is not retired yet. -/
def tookOver : State :=
  let u := windowsReloaded s p
  ((substPlot (u.setReg (Reg.mpPlot q)
    ((s.reg (Reg.mpPlot p) &&& 0x7FFFFFF7) ||| (u.reg (Reg.mpPlot q) &&& 0x80000000))) p q).inc32 Reg.mpSwaps).evt Pg.mp 1

theorem swapPlot_eq : swapPlot s p q = ((retirePlot (tookOver s p q) p).mpCounts).raise 0x2005 Pg.mp p q := rfl

/-- Every window reload writes the list of windows, and no list of plots that are due. -/
theorem reloadWindows_due (n r : Nat) : (reloadWindows s n r).mill.due = s.mill.due := by
  unfold reloadWindows
  refine List.foldlRecOn (motive := fun t : State => t.mill.due = s.mill.due) _ _ rfl fun t ht k _ => ?_
  exact List.foldlRecOn (motive := fun u : State => u.mill.due = s.mill.due) _ _ ht fun u hu c _ => hu

theorem windowsReloaded_due : (windowsReloaded s p).mill.due = s.mill.due := by
  unfold windowsReloaded
  exact List.foldlRecOn (motive := fun t : State => t.mill.due = s.mill.due) _ _ rfl fun t ht e _ =>
    (reloadWindows_due t e.1 e.2).trans ht

theorem plotKind_tookOver : (tookOver s p q).plotKind q = s.plotKind p := by
  rw [plotKind, getF, tookOver, reg_evt_other _ (by simp only [Reg.mpPlot, Pg.mp, hEvt]; omega),
    reg_inc32_other _ (by simp only [Reg.mpPlot, Reg.mpSwaps]; omega)]
  refine Eq.trans ?_ (fld_kind_takenOver (s.reg (Reg.mpPlot p)) ((windowsReloaded s p).reg (Reg.mpPlot q)))
  exact congrArg (fld · 2 0) (reg_setReg_same (windowsReloaded s p) _ _)

theorem tookOver_due : (tookOver s p q).mill.due = s.mill.due := by
  rw [tookOver, evt_mill, inc32_mill]
  exact windowsReloaded_due s p

theorem tookOver_changes : Changes [.regs, .chans, .eng, .mill] s (tookOver s p q) :=
  evt_changes rfl (inc32_changes rfl (substPlot_changes rfl (setReg_changes rfl
    (Changes.foldl (fun _ _ h => reloadWindows_changes rfl h _ _) (.refl _ s)) _ _) _ _) _) _ _

theorem swapPlot_due : (swapPlot s p q).mill.due = s.mill.due := by
  rw [swapPlot_eq, raise_mill, (mpCounts_changes rfl (retirePlot_changes rfl (.refl [.regs] _) p)).same .mill (by decide), tookOver_due]

theorem swapPlot_faults : (swapPlot s p q).faults = s.faults ++ [⟨0x2005, 0x2400, p, q, s.stp.timeNs⟩] := by
  have hsame := (mpCounts_changes rfl (retirePlot_changes rfl (tookOver_changes s p q) p)).same
  rw [swapPlot_eq, raise, hsame .faults (by decide), hsame .stp (by decide)]
  rfl

/-- The counts and the fault come after the plots' words are written. -/
theorem plotKind_swapPlot (i : Nat) : (swapPlot s p q).plotKind i = (retirePlot (tookOver s p q) p).plotKind i := by
  rw [swapPlot_eq, plotKind_of_reg (reg_raise _ _ _ _ _ _), plotKind_mpCounts]

theorem plotKind_swapPlot_faulty : (swapPlot s p q).plotKind p = 6 := by
  rw [plotKind_swapPlot, plotKind_retirePlot]

theorem plotKind_swapPlot_free (h : q ≠ p) : (swapPlot s p q).plotKind q = s.plotKind p := by
  rw [plotKind_swapPlot, plotKind_of_reg (reg_retirePlot_other _ (by simp only [Reg.mpPlot]; omega)
    (by simp only [Reg.mpPlot, Reg.mpRetired]; omega)), plotKind_tookOver]

end Swap

/-- Settles O15: the error by the count of its frame, and the swap by the plot that takes over and the one that retires. -/
theorem millpondErrorsAndSwaps : Obligations.MillpondErrorsAndSwaps := by
  unfold Obligations.MillpondErrorsAndSwaps
  refine ⟨fun p k clocks s hf => ⟨_, rfl, ?first⟩, fun p k clocks s h2 hu hd => ⟨_, rfl, ?third⟩,
    fun p q s hb hd hu hq => ⟨_, rfl, ?swap⟩, fun p s hb => ⟨_, rfl, plotSwap_of_busy hb⟩⟩
  case first =>
    rw [mpRefetch_first s p k clocks hf]
    refine ⟨evt_refetchCounted s p k clocks, plotError_refetchCounted s p k clocks, reg_refetchCounted_refetch s p k clocks,
      refetchCounted_job s p k clocks, fun i hi => refetchCounted_slot_other s p k clocks hi, fun a ha => ?_, ?_⟩
    · simp only [List.mem_cons, List.not_mem_nil, or_false, not_or] at ha
      obtain ⟨hc, he, hp⟩ := ha
      exact reg_refetchCounted_other s p k clocks hc he hp
    · exact (Changes.set_mill rfl ((refetchCounted_changes s p k clocks).mono rfl) _).same
  case third =>
    have hkind := plotKind_refetchCounted s p k clocks
    have hsame := (refetchCounted_changes s p k clocks).same
    have hmill : (refetchCounted s p k clocks).mill = s.mill := hsame .mill (by decide)
    have hdue : (withErrors (refetchCounted s p k clocks) p 3).mill.due = s.mill.due := by
      rw [withErrors_due, hmill]
    have huse : plotInUse (withErrors (refetchCounted s p k clocks) p 3) p = true := (plotInUse_congr hkind).trans hu
    rw [mpRefetch_third s p k clocks h2, plotFaulty_of_inUse huse (by rwa [hdue])]
    exact ⟨congrArg (· ++ [p.val]) hdue, hkind, hsame .chans (by decide)⟩
  case swap =>
    rw [plotSwap_of_due hb hd hu hq]
    refine ⟨plotKind_swapPlot_free _ _ _ (ne_of_freePlotBut hq), plotKind_swapPlot_faulty _ _ _, ?_, swapPlot_faults _ _ _⟩
    rw [swapPlot_due]
    simp [withoutDue]

end Sys2Proof.Machine
end

section
/-! Proof of SextonTests: the registers of the Sexton's page while a loaned engine fails, and what the count of a test, its failure and
the end of the test in progress leave. -/

namespace Sys2Proof.Machine

open State

/-! ### A loaned engine fails (R65, R383) -/

section Beyond
variable {a : Nat} (ha : Pg.ee 34 ≤ a)
include ha

/-- Bringing an engine's page up to date writes no register beyond the engines' pages. -/
theorem reg_syncEngine_beyond (s : State) (e : Nat) : (s.syncEngine e).reg a = s.reg a := by
  simp only [Pg.ee] at ha
  unfold syncEngine
  split
  · rfl
  · split
    extract_lets x w roleWas t1 t2 t3 t4 t5
    have h1 : t1.reg a = s.reg a := reg_setReg_other _ _ (by simp only [Reg.eeEngState]; omega)
    have h2 : t2.reg a = t1.reg a := reg_setN_other _ _ (by simp only [Reg.eeLoad]; omega)
    have h3 : t3.reg a = t2.reg a := by
      refine List.foldlRecOn (motive := fun t : State => t.reg a = t2.reg a) _ _ rfl fun t ht i hi => ?_
      have hi16 : i < 16 := List.mem_range.1 hi
      exact (reg_setN_other _ _ (by simp only [Reg.eeCtx]; omega)).trans ht
    have h4 : t4.reg a = t3.reg a := reg_setN_other _ _ (by simp only [Pg.ee, hParent]; omega)
    have h5 : t5.reg a = t4.reg a := by
      refine List.foldlRecOn (motive := fun t : State => t.reg a = t4.reg a) _ _ rfl fun t ht i hi => ?_
      have hi6 : i < 6 := List.mem_range.1 hi
      exact (reg_setReg_other _ _ (by simp only [Reg.eeReconLo]; omega)).trans ht
    have hall : t5.reg a = s.reg a := by rw [h5, h4, h3, h2, h1]
    split
    · exact (reg_evt_other _ (by simp only [Pg.ee, hEvt]; omega)).trans hall
    · exact hall

/-- The failure of the engine on loan moves no work, and writes the engines' pages, DEV.ENGINES, ROT_POS and GUARANTEE. -/
theorem reg_failEngine_of_loan {s : State} {e : Nat} (hl : s.eng.loan = some e) (hr : a ≠ Reg.sextonRotPos)
    (hg : a ≠ Reg.watchGuarantee) (hw : a ≠ Pg.watch + hEvt) : (s.failEngine e).reg a = s.reg a := by
  unfold failEngine
  by_cases hout : (decide (34 ≤ e) || !s.enabled (Pg.ee e)) = true
  · rw [if_pos hout]
  · have he : e < 34 := by
      simp only [Bool.or_eq_true, decide_eq_true_eq, not_or] at hout
      omega
    rw [if_neg hout]
    extract_lets -merge t0 t1 t2 t3 t4
    have h3 : t3.reg a = s.reg a := by
      unfold t3
      rw [if_pos hl]
      exact reg_setBit_other _ _ _ (by simp only [Pg.ee, hCtrl] at ha ⊢; omega)
    have h4 : t4.reg a = t3.reg a := by
      unfold t4
      split
      · exact reg_syncEngine_beyond ha _ _
      · rfl
    rw [reg_guarantee _ _ hg hw, syncSpares, reg_setN_other _ _ hr,
      reg_setN_other _ _ (by simp only [Pg.ee, Reg.devEngines] at ha ⊢; omega), reg_syncEngine_beyond ha, h4, h3]

end Beyond

/-- The page of an engine that fails reads ENABLE 0, also where it has failed before. -/
theorem not_enabled_failEngine (s : State) {e : Nat} (he : e < 34) : (s.failEngine e).enabled (Pg.ee e) = false := by
  cases hen : s.enabled (Pg.ee e) with
  | true => exact enabled_failEngine he hen
  | false => rw [failEngine, if_pos (by simp [hen])]; exact hen

/-! ### The count of a test and its failure (R381) -/

section Counts
variable (s : State) (k a : Nat)

theorem testOver_eng : ∃ l, (testOver s k).eng = { s.eng with tail := l } := by
  unfold testOver
  split
  · exact ⟨s.eng.tail, rfl⟩
  · exact ⟨_, rfl⟩

@[simp] theorem testOver_reg : (testOver s k).reg a = s.reg a := by
  unfold testOver
  split <;> rfl

/-- A test of kind `k` has ended and is counted in the register `a`. -/
def testCounted : State := (testOver s k).inc32 a

theorem testCounted_changes : Changes [.regs, .eng] s (testCounted s k a) :=
  inc32_changes rfl (testOver_changes rfl (.refl _ s) k) a

theorem reg_testCounted_other {b : Nat} (h : b ≠ a) : (testCounted s k a).reg b = s.reg b := by
  rw [testCounted, reg_inc32_other _ h, testOver_reg]

theorem testCounted_sameRegsBut : SameRegsBut [a] s (testCounted s k a) := fun _ hb =>
  reg_testCounted_other s k a (by simpa using hb)

theorem reg_testCounted (h : s.reg a ≠ BitVec.allOnes 32) : (testCounted s k a).reg a = s.reg a + 1 := by
  rw [testCounted, reg_inc32 _ _ (by rwa [testOver_reg]), testOver_reg]

theorem testCounted_eng : ∃ l, (testCounted s k a).eng = { s.eng with tail := l } := by
  rw [testCounted, inc32_eng]
  exact testOver_eng s k

theorem reg_testFailed_other (hc : a ≠ Reg.sextonTestFails) (he : a ≠ Pg.sexton + hEvt) : (testFailed s).reg a = s.reg a := by
  rw [testFailed, reg_evt_other _ he, reg_inc32_other _ hc]

theorem bit_raise (i c p l m : Nat) : (s.raise c p l m).bit a i = s.bit a i := rfl

theorem evt_testFailed : (testFailed s).bit (Pg.sexton + hEvt) 0 = true := bit_evt_same _ (by omega) _

theorem reg_testFailed (h : s.reg Reg.sextonTestFails ≠ BitVec.allOnes 32) :
    (testFailed s).reg Reg.sextonTestFails = s.reg Reg.sextonTestFails + 1 := by
  rw [testFailed, reg_evt_other _ (by simp), reg_inc32 _ _ h]

end Counts

/-! ### Each test by its outcome (R80, R195, R381, R383) -/

section Tests
variable {s : State}

/-- The failed test of the engine `e` on loan is reported; the engine is not taken out yet. -/
def loanFailed (s : State) (e step : Nat) : State :=
  (testFailed ((s.inc32 Reg.sextonEngTests).inc32 Reg.sextonEngFails)).raise 0x2002 (Pg.ee e) e step

section Loan
variable {e : Nat} (hl : s.eng.loan = some e) (hp : s.eng.loanPass = false) (hm : s.mode ≠ 0)
include hl hp hm

theorem loanTestComplete_pass : loanTestComplete s 0 =
    { s.inc32 Reg.sextonEngTests with eng := { (s.inc32 Reg.sextonEngTests).eng with loanPass := true } } := by
  simp only [loanTestComplete, hl, hp, hm, decide_false, Bool.or_self, Bool.false_eq_true, if_false, if_true]

theorem loanTestComplete_fail {step : Nat} (hs : 1 ≤ step) : loanTestComplete s step = (loanFailed s e step).failEngine e := by
  have h0 : step ≠ 0 := by omega
  simp only [loanTestComplete, hl, hp, hm, h0, decide_false, Bool.or_self, Bool.false_eq_true, if_false]
  rfl

end Loan

theorem loanFailed_eng (s : State) (e step : Nat) : (loanFailed s e step).eng = s.eng := by
  rw [loanFailed, raise_eng, testFailed, evt_eng, inc32_eng, inc32_eng, inc32_eng]

theorem loanFailed_faults (s : State) (e step : Nat) :
    (loanFailed s e step).faults = s.faults ++ [⟨0x2002, Pg.ee e / 0x1000, e, step, s.stp.timeNs⟩] := by
  simp only [loanFailed, raise, testFailed, evt_faults, inc32_faults, evt_stp, inc32_stp]

theorem reg_loanFailed_fails (e step : Nat) (h : s.reg Reg.sextonEngFails ≠ BitVec.allOnes 32) :
    (loanFailed s e step).reg Reg.sextonEngFails = s.reg Reg.sextonEngFails + 1 := by
  have hkeep : (s.inc32 Reg.sextonEngTests).reg Reg.sextonEngFails = s.reg Reg.sextonEngFails := reg_inc32_other _ (by simp)
  rw [loanFailed, reg_raise, reg_testFailed_other _ _ (by simp) (by simp), reg_inc32 _ _ (by rwa [hkeep]), hkeep]

theorem plotMarchTest_of_runs {p : Nat} (ok : Bool) (hr : testRuns s 0 Pg.mp = true) (hk : s.plotKind p = 0 ∨ s.plotKind p = 5) :
    plotMarchTest s p ok = if ok then testCounted s 0 Reg.sextonMpTests
      else plotFaulty (testFailed (testCounted s 0 Reg.sextonMpTests)) p := by
  rw [plotMarchTest, if_pos (by simp [hr, hk])]
  rfl

/-- A free plot that is faulty retires at once, unless it waits for a swap. -/
theorem plotFaulty_of_free {p : Nat} (h : s.plotKind p = 0) :
    plotFaulty s p = s ∨ plotFaulty s p = ((retirePlot s p).mpCounts).raise 0x2005 Pg.mp p p := by
  have huse : plotInUse s p = false := by simp [plotInUse, h]
  by_cases hd : p ∈ s.mill.due
  · exact .inl (by simp [plotFaulty, hd])
  · exact .inr (by simp [plotFaulty, hd, h, huse])

/-- It writes registers of the Millpond alone. -/
theorem reg_plotFaulty_of_free {p a : Nat} (h : s.plotKind p = 0) (hp : p < 384) (ha : Pg.mp + 0x1000 ≤ a) :
    (plotFaulty s p).reg a = s.reg a := by
  simp only [Pg.mp] at ha
  rcases plotFaulty_of_free h with hstays | hretires
  · rw [hstays]
  · rw [hretires, reg_raise, reg_mpCounts_other _ (by simp only [Reg.mpGranted]; omega) (by simp only [Reg.mpInherited]; omega)
      (by simp only [Reg.mpFree]; omega), reg_retirePlot_other _ (by simp only [Reg.mpPlot]; omega) (by simp only [Reg.mpRetired]; omega)]

/-- A failed March test of a free plot leaves of the other pages what its count and its failure write. -/
theorem reg_plotMarchTest_fails {p a : Nat} (hr : testRuns s 0 Pg.mp = true) (hk : s.plotKind p = 0) (hp : p < 384)
    (ha : Pg.mp + 0x1000 ≤ a) :
    (plotMarchTest s p false).reg a = (testFailed (testCounted s 0 Reg.sextonMpTests)).reg a := by
  have hkind : (testFailed (testCounted s 0 Reg.sextonMpTests)).plotKind p = 0 := by
    rw [plotKind_of_reg (reg_testFailed_other _ _ (by simp only [Reg.mpPlot, Reg.sextonTestFails]; omega)
      (by simp only [Reg.mpPlot, Pg.sexton, hEvt]; omega)),
      plotKind_of_reg (reg_testCounted_other _ _ _ (by simp only [Reg.mpPlot, Reg.sextonMpTests]; omega)), hk]
  rw [plotMarchTest_of_runs false hr (.inl hk), if_neg Bool.false_ne_true, reg_plotFaulty_of_free hkind hp ha]

theorem patrolScrub_sound {err : ReadErr} (hr : testRuns s 1 Pg.hbm = true) (he : err = .none ∨ err = .transient) :
    patrolScrub s err = scrubOn (testOver s 1) := by
  simp only [patrolScrub, hr, Bool.not_true, Bool.false_eq_true, if_false]
  rcases he with rfl | rfl <;> cases pcOf s (s.eng.scrub * 64) <;> rfl

theorem scrubOn_scrub (s : State) :
    (scrubOn s).eng.scrub = if (s.eng.scrub + 1) * 64 < s.hbmEnd then s.eng.scrub + 1 else 0 := by
  unfold scrubOn
  split
  · rw [setN_eng]
  · rw [evt_eng, inc32_eng, setReg_eng]

theorem scrubOn_sameRegsBut (s : State) :
    SameRegsBut [Reg.sextonScrubAddr, Reg.sextonScrubPasses, Pg.sexton + hEvt] s (scrubOn s) := by
  intro a ha
  simp only [List.mem_cons, List.not_mem_nil, or_false, not_or] at ha
  obtain ⟨haddr, hpass, hevt⟩ := ha
  unfold scrubOn
  split
  · exact reg_setN_other _ _ haddr
  · rw [reg_evt_other _ hevt, reg_inc32_other _ hpass, reg_setReg_other _ _ haddr]
    rfl

/-- The matrix targets take turns. -/
def targetPassed (s : State) : State := { s with eng := { s.eng with mtxNext := (s.eng.mtxNext + 1) % 23 } }

theorem targetPassed_reg (s : State) (a : Nat) : (targetPassed s).reg a = s.reg a := rfl

/-- The matrix target has been tested, and the next one is named. -/
def targetTested (s : State) : State := testCounted (targetPassed s) 2 Reg.sextonMtxTests

theorem matrixPathTest_of_runs (ok : Bool) (hr : testRuns s 2 Pg.mtx = true) :
    matrixPathTest s ok = if ok then targetTested s else (testFailed (targetTested s)).raise 0x3007 Pg.mtx s.eng.mtxNext 0 := by
  rw [matrixPathTest, if_pos hr]
  rfl

theorem targetTested_mtxNext (s : State) : (targetTested s).eng.mtxNext = (s.eng.mtxNext + 1) % 23 := by
  obtain ⟨l, hl⟩ := testCounted_eng (targetPassed s) 2 Reg.sextonMtxTests
  rw [targetTested, hl]
  rfl

theorem targetTested_sameRegsBut (s : State) : SameRegsBut [Reg.sextonMtxTests] s (targetTested s) := fun a ha => by
  rw [targetTested, testCounted_sameRegsBut _ _ _ a ha, targetPassed_reg]

theorem reg_targetTested (h : s.reg Reg.sextonMtxTests ≠ BitVec.allOnes 32) :
    (targetTested s).reg Reg.sextonMtxTests = s.reg Reg.sextonMtxTests + 1 := by
  rw [targetTested, reg_testCounted _ _ _ (by rwa [targetPassed_reg]), targetPassed_reg]

theorem targetTested_changes (s : State) : Changes [.regs, .eng] s (targetTested s) :=
  (Changes.set_eng rfl (.refl _ s) _).trans (testCounted_changes _ _ _)

/-- The UNUSED lane reads FAILED after its failed test; the fault is not raised yet. -/
def laneTestFailed (s : State) (n p : Nat) : State :=
  (setLaneFailed (setLaneSt (testFailed (testCounted s 3 Reg.sextonClpTests)) n p 6) n p true).evt (Pg.clp n) 0

theorem lanePrbsTest_of_runs {n p : Nat} (ok : Bool) (hr : testRuns s 3 (Pg.clp n) = true) (hrole : laneRole s n p = 0)
    (hst : laneSt s n p ≠ 6) :
    lanePrbsTest s n p ok =
      if ok then testCounted s 3 Reg.sextonClpTests else (laneTestFailed s n p).raise 0x4001 (Pg.clp n) n p := by
  rw [lanePrbsTest, if_pos (by simp [hr, hrole, hst])]
  rfl

section Lane
variable (s : State) {n p : Nat}

theorem laneSt_laneTestFailed : laneSt (laneTestFailed s n p) n p = 6 := by
  rw [laneSt, getF, laneTestFailed, reg_evt_other _ (by simp only [Reg.clpLaneState, Pg.clp, hEvt]; omega), setLaneFailed,
    reg_setBit_other _ _ _ (by simp only [Reg.clpLaneState, Reg.clpLinkState]; omega), setLaneSt, reg_setF_same]
  exact (fld_setFld _ 6 (by omega) (by omega)).trans (by decide)

theorem sextonEvt_laneTestFailed (hn : n < 10) : (laneTestFailed s n p).bit (Pg.sexton + hEvt) 0 = true := by
  rw [bit, laneTestFailed, reg_evt_other _ (by simp only [Pg.sexton, Pg.clp, hEvt]; omega), setLaneFailed,
    reg_setBit_other _ _ _ (by simp only [Pg.sexton, hEvt, Reg.clpLinkState]; omega), setLaneSt,
    reg_setF_other _ _ _ _ (by simp only [Pg.sexton, hEvt, Reg.clpLaneState]; omega)]
  exact evt_testFailed _

theorem laneTestFailed_changes (n p : Nat) : Changes [.regs, .eng] s (laneTestFailed s n p) :=
  evt_changes rfl (setLaneFailed_changes rfl (setLaneSt_changes rfl (testFailed_changes rfl (testCounted_changes s _ _)) _ _ _) _ _ _) _ _

end Lane

end Tests

/-! ### The Sexton's own page (R381, Table 17-9) -/

/-- The tests in progress are noted where ENABLE is cleared: one of each kind may still end. -/
def withTail (s : State) (v : Bool) : State :=
  if s.enabled Pg.sexton && !v then { s with eng := { s.eng with tail := [0, 1, 2, 3] } } else s

theorem withTail_reg (s : State) (v : Bool) (a : Nat) : (withTail s v).reg a = s.reg a := by
  unfold withTail
  split <;> rfl

theorem withTail_tail {s : State} {v : Bool} (hen : s.enabled Pg.sexton = true) (hv : v = false) :
    (withTail s v).eng.tail = [0, 1, 2, 3] := by
  rw [withTail, if_pos (by simp [hen, hv])]

section Page
variable {s : State} (ha : s.answers Pg.sexton = true)
include ha

theorem sextonEnableWrite_eq (v : Bool) :
    sextonEnableWrite s v = ((withTail s v).setBit (Pg.sexton + hCtrl) 0 v).guarantee := by
  rw [sextonEnableWrite, ha]
  rfl

theorem enabled_sextonEnableWrite (v : Bool) : (sextonEnableWrite s v).enabled Pg.sexton = v := by
  rw [sextonEnableWrite_eq ha, enabled, bit, reg_guarantee _ _ (by decide) (by decide)]
  exact bit_setBit_same _ _ _ (by omega)

theorem sextonEnableWrite_tail {v : Bool} (hen : s.enabled Pg.sexton = true) (hv : v = false) :
    (sextonEnableWrite s v).eng.tail = [0, 1, 2, 3] := by
  rw [sextonEnableWrite_eq ha, (guarantee_changes rfl (.refl [.regs] _)).same .eng (by decide), setBit_eng, withTail_tail hen hv]

theorem sextonEnableWrite_sameRegsBut (v : Bool) :
    SameRegsBut [Pg.sexton + hCtrl, Reg.watchGuarantee, Pg.watch + hEvt] s (sextonEnableWrite s v) := by
  intro a hmem
  simp only [List.mem_cons, List.not_mem_nil, or_false, not_or] at hmem
  obtain ⟨hctrl, hguar, hevt⟩ := hmem
  rw [sextonEnableWrite_eq ha, reg_guarantee _ _ hguar hevt, reg_setBit_other _ _ _ hctrl, withTail_reg]

theorem reg_sextonStatClr (a : Nat) : (sextonStatClr s).reg a =
    if a ∈ [Reg.sextonEngTests, Reg.sextonEngFails, Reg.sextonMpTests, Reg.sextonScrubAddr, Reg.sextonScrubPasses,
      Reg.sextonClpTests, Reg.sextonMtxTests, Reg.sextonTestFails] then 0 else s.reg a := by
  rw [sextonStatClr, if_pos ha]
  exact reg_clearRegs _ _ _

end Page

/-- Settles O49: each test by its count and its outcome, and the Sexton's page by the registers that a write of it reaches. -/
theorem sextonTests : Obligations.SextonTests := by
  unfold Obligations.SextonTests
  refine ⟨fun e s hl hp hm => ⟨_, rfl, ?loanPass⟩, fun e step s hl hp hm hs he => ⟨_, rfl, ?loanFail⟩,
    fun p s hr hk => ⟨_, rfl, ?march⟩, fun p s hr hk => ⟨_, rfl, ?marchFails⟩, fun err s hr he => ⟨_, rfl, ?scrub⟩,
    fun s hr => ⟨_, rfl, ?matrix⟩, fun s hr => ⟨_, rfl, ?matrixFails⟩, fun n p s hr hrole hst => ⟨_, rfl, ?lane⟩,
    fun n p s hr hrole hst => ⟨_, rfl, ?laneFails⟩, fun v s ha => ⟨_, rfl, ?enable⟩, fun s ha => ⟨_, rfl, ?clear⟩⟩
  case loanPass =>
    rw [loanTestComplete_pass hl hp hm]
    exact ⟨rfl, fun a ha => reg_inc32_other _ (by simpa using ha), fun h => reg_inc32 _ _ h⟩
  case loanFail =>
    have hloan : (loanFailed s e step).eng.loan = some e := by rw [loanFailed_eng, hl]
    have hfaults : ((loanFailed s e step).failEngine e).faults = (loanFailed s e step).faults :=
      (failEngine_changes rfl (.refl [.regs, .chans, .eng] _) e).same .faults (by decide)
    rw [loanTestComplete_fail hl hp hm hs]
    refine ⟨not_enabled_failEngine _ he, ?_, ?_, fun h => ?_⟩
    · rw [bit, reg_failEngine_of_loan (by decide) hloan (by decide) (by decide) (by decide), loanFailed, reg_raise]
      exact evt_testFailed _
    · rw [hfaults, loanFailed_faults]
      simp
    · rw [reg_failEngine_of_loan (by decide) hloan (by decide) (by decide) (by decide), reg_loanFailed_fails e step h]
  case march =>
    have hsame := (testCounted_changes s 0 Reg.sextonMpTests).same
    rw [plotMarchTest_of_runs true hr hk]
    exact ⟨testCounted_sameRegsBut s 0 _, reg_testCounted s 0 _, hsame .faults (by decide), hsame .mill (by decide)⟩
  case marchFails =>
    have hkeep : (testCounted s 0 Reg.sextonMpTests).reg Reg.sextonTestFails = s.reg Reg.sextonTestFails :=
      reg_testCounted_other _ _ _ (by decide)
    refine ⟨?_, fun h => ?_⟩
    · rw [bit, reg_plotMarchTest_fails hr hk p.isLt (by decide)]
      exact evt_testFailed _
    · rw [reg_plotMarchTest_fails hr hk p.isLt (by decide), reg_testFailed _ (by rwa [hkeep]), hkeep]
  case scrub =>
    obtain ⟨l, hl⟩ := testOver_eng s 1
    have hchanges : Changes [.regs, .eng] s (scrubOn (testOver s 1)) := scrubOn_changes rfl (testOver_changes rfl (.refl _ s) 1)
    rw [patrolScrub_sound hr he]
    refine ⟨?_, hchanges.sameMemory (by decide), hchanges.same .faults (by decide), fun a ha => ?_⟩
    · rw [scrubOn_scrub, hl, hbmEnd, getF, testOver_reg]
      rfl
    · rw [scrubOn_sameRegsBut _ a ha, testOver_reg]
  case matrix =>
    rw [matrixPathTest_of_runs true hr]
    exact ⟨targetTested_mtxNext s, targetTested_sameRegsBut s, (targetTested_changes s).same .faults (by decide), reg_targetTested⟩
  case matrixFails =>
    have hsame := (testFailed_changes rfl (targetTested_changes s)).same
    have heng : (testFailed (targetTested s)).eng = (targetTested s).eng :=
      (testFailed_changes rfl (.refl [.regs] _)).same .eng (by decide)
    rw [matrixPathTest_of_runs false hr, if_neg Bool.false_ne_true]
    refine ⟨?_, ?_, ?_⟩
    · rw [raise_eng, heng, targetTested_mtxNext]
    · rw [bit_raise, evt_testFailed]
    · rw [raise, hsame .faults (by decide), hsame .stp (by decide)]
  case lane =>
    rw [lanePrbsTest_of_runs true hr hrole hst]
    exact ⟨testCounted_sameRegsBut s 3 _, (testCounted_changes s 3 _).same .faults (by decide), reg_testCounted s 3 _⟩
  case laneFails =>
    have hsame := (laneTestFailed_changes s n p).same
    rw [lanePrbsTest_of_runs false hr hrole hst, if_neg Bool.false_ne_true]
    refine ⟨?_, ?_, ?_, ?_⟩
    · rw [laneSt, getF, reg_raise]
      exact laneSt_laneTestFailed s
    · rw [bit_raise]
      exact bit_evt_same _ (by omega) _
    · rw [bit_raise, sextonEvt_laneTestFailed s n.isLt]
    · rw [raise, hsame .faults (by decide), hsame .stp (by decide)]
  case enable =>
    exact ⟨enabled_sextonEnableWrite ha v, sextonEnableWrite_tail ha, sextonEnableWrite_sameRegsBut ha v,
      (sextonEnableWrite_changes rfl (.refl [.regs, .eng] s) v).same .faults (by decide)⟩
  case clear =>
    have hreg := reg_sextonStatClr ha
    refine ⟨?_, ?_, ?_, ?_, ?_, ?_, ?_, (sextonStatClr_changes rfl (.refl [.regs] s)).same⟩
    all_goals rw [hreg, if_pos (by decide)]

end Sys2Proof.Machine
end

section
/-! Refutation of RowsDecisionsAndDeadlines. Its clause of a row that completes in time binds any engine number. BITS_LO of an engine
13,312, which no device has, would lie at STILE.STATE, so the row's own bits would bring the twin comparison up before the CRC of its
slice goes there; the mismatch that it meets passes the slot to the STANDBY engine. -/

namespace Sys2Proof.Machine

open State

/-! ### A rendition's record and its channel, update by update -/

section Record
variable (s : State) (n r m row : Nat)

theorem setRc_chan (x : RcSt) :
    (s.setRc n r x).chan n = { s.chan n with rc := Store.put (fun _ => RcSt.init) (s.chan n).rc r x } :=
  modChan_chan_same _ _ _

theorem modUnit_rc (f : UnitRc → UnitRc) : (modUnit s n r m row f).rc n r =
    { s.rc n r with units := (s.rc n r).units.map (fun u => if u.pic = m ∧ u.row = row then f u else u) } :=
  setRc_rc_same _ _ _ _

theorem modPic_rc (f : PicInfo → PicInfo) : (modPic s n r m f).rc n r =
    { s.rc n r with pics := (s.rc n r).pics.map (fun p => if p.m = m then f p else p) } :=
  setRc_rc_same _ _ _ _

/-- A picture is found by its number, which no update of a picture changes. -/
theorem picInfo_map {g : PicInfo → PicInfo} (hg : ∀ p, (g p).m = p.m) (x : RcSt) :
    picInfo { x with pics := x.pics.map g } m = (picInfo x m).map g := by
  simp only [picInfo, List.find?_map, Function.comp_def, hg]

end Record

theorem rendOf_r {c : ChanCfg} {i : Nat} {r : RendCfg} (h : rendOf c i = some r) : r.r = i := by
  simpa using List.find?_some h

theorem cfgOf_of_place {s : State} {n : Nat} {pl : Place} (h : (s.chan n).place = some pl) : s.cfgOf n = pl.cfg := by
  rw [cfgOf, h]

/-! ### A row is coded (R83, R117, R126) -/

/-- The row of slot `k` and engine `e` has left the pipeline: the slot is free and the row is counted. -/
def rowCounted (s : State) (k e : Nat) (c : ChanCfg) (r : RendCfg) (j : Job) (bits : Nat) (stalls : List Nat) (fixed : Nat) : State :=
  let t := s.incSat Reg.mpCorrected 31 0 fixed
  countRow (t.setSlot k { t.slot k with job := none }) c r e j bits stalls

/-- Its bits stand in the unit that begins with CTU row `first`, and its tile has passed it; the slice is not formed yet. -/
def rowCoded (s : State) (k e : Nat) (c : ChanCfg) (r : RendCfg) (j : Job) (first bits : Nat) (stalls : List Nat) (fixed : Nat) : State :=
  let t := addBits (rowCounted s k e c r j bits stalls fixed) j.ch j.rend j.pic first bits 0
  let t := modTile t j.ch j.rend j.pic first j.tile (fun tl => { tl with base := tl.base + bits, bits := tl.base + bits, pipe := [] })
  passRows t j.ch j.rend j.tile (j.pic * ctuRows c r + j.row + 1)

theorem countRow_bitsLo (s : State) (c : ChanCfg) (r : RendCfg) (e : Nat) (j : Job) (bits : Nat) (stalls : List Nat) :
    (countRow s c r e j bits stalls).reg (Reg.eeBitsLo e) =
      (s.reg64 (Reg.eeBitsLo e) (Reg.eeBitsHi e) + BitVec.ofNat 64 bits).setWidth 32 := by
  simp [countRow, inc32, incSat, setReg64, reg_setBit, reg_setN, reg_setF, reg_setReg, reg64]

section RowCoded
variable (s : State) (k e : Nat) (c : ChanCfg) (r : RendCfg) (j : Job) (first bits : Nat) (stalls : List Nat) (fixed : Nat)

theorem rowCounted_changes : Changes [.regs, .eng] s (rowCounted s k e c r j bits stalls fixed) :=
  countRow_changes rfl (setSlot_changes rfl (incSat_changes rfl (.refl _ s) _ _ _ _) _ _) _ _ _ _ _ _

theorem rowCounted_eng : (rowCounted s k e c r j bits stalls fixed).eng = (s.setSlot k { s.slot k with job := none }).eng :=
  (countRow_changes rfl (.refl [.regs] _) c r e j bits stalls).same .eng (by decide)

theorem rowCounted_chan (n : Nat) : (rowCounted s k e c r j bits stalls fixed).chan n = s.chan n :=
  congrArg (Store.get (fun _ => Chan.init) · n) ((rowCounted_changes s k e c r j bits stalls fixed).same .chans (by decide))

theorem rowCounted_rc (n i : Nat) : (rowCounted s k e c r j bits stalls fixed).rc n i = s.rc n i := by
  rw [rc, rowCounted_chan, ← rc]

/-- Past the counters only the rendition's record changes. -/
theorem rowCoded_changes : Changes [.chans] (rowCounted s k e c r j bits stalls fixed) (rowCoded s k e c r j first bits stalls fixed) :=
  passRows_changes rfl (modTile_changes rfl (addBits_changes rfl (.refl _ _) _ _ _ _ _ _) _ _ _ _ _ _) _ _ _ _

theorem rowCoded_reg (a : Nat) :
    (rowCoded s k e c r j first bits stalls fixed).reg a = (rowCounted s k e c r j bits stalls fixed).reg a :=
  congrArg (Store.get resetVal · a) ((rowCoded_changes s k e c r j first bits stalls fixed).same .regs (by decide))

theorem rowCoded_eng : (rowCoded s k e c r j first bits stalls fixed).eng = (s.setSlot k { s.slot k with job := none }).eng :=
  ((rowCoded_changes s k e c r j first bits stalls fixed).same .eng (by decide)).trans (rowCounted_eng ..)

theorem rowCoded_twin : (rowCoded s k e c r j first bits stalls fixed).twin = s.twin :=
  ((rowCoded_changes s k e c r j first bits stalls fixed).same .twin (by decide)).trans
    ((rowCounted_changes s k e c r j bits stalls fixed).same .twin (by decide))

theorem rowCoded_chan : ((rowCoded s k e c r j first bits stalls fixed).chan j.ch).place = (s.chan j.ch).place ∧
    startOf ((rowCoded s k e c r j first bits stalls fixed).chan j.ch) = startOf (s.chan j.ch) := by
  simp [rowCoded, passRows, modTile, modUnit, modPic, addBits, setRc_chan, rowCounted_chan, funext_iff, startOf]

theorem rowCoded_lost : ((rowCoded s k e c r j first bits stalls fixed).rc j.ch j.rend).lost = (s.rc j.ch j.rend).lost := by
  simp only [rowCoded, passRows, modTile, addBits, setRc_rc_same, modUnit_rc, modPic_rc, rowCounted_rc]

theorem rowCoded_picInfo : picInfo ((rowCoded s k e c r j first bits stalls fixed).rc j.ch j.rend) j.pic =
    (picInfo (s.rc j.ch j.rend) j.pic).map (fun p => if p.m = j.pic then { p with bits := p.bits + bits } else p) := by
  rw [← picInfo_map j.pic (fun p => by split <;> rfl)]
  simp only [rowCoded, passRows, modTile, addBits, setRc_rc_same, modUnit_rc, modPic_rc, rowCounted_rc]
  rfl

end RowCoded

/-! ### The row that ends a slice (R83, R117) -/

/-- Slot `k` has on engine `e` the last row `j` of a slice, in time, with each CTU decided and no row of the rendition lost; `tl` is the
tile and `h` the slice's header. -/
structure LastRow (s : State) (k e : Nat) (j : Job) (pl : Place) (r : RendCfg) (tl : TileRc) (h : SliceHead) : Prop where
  eng : (s.slot k).eng = some e
  job : (s.slot k).job = some j
  place : (s.chan j.ch).place = some pl
  rend : rendOf pl.cfg j.rend = some r
  inTime : pastDeadline s j.ch pl.cfg r j.pic j.row = false
  decided : tileCtus (ctuCols r) (tileCount pl.cfg r) j.tile ≤ j.done
  last : j.row + 1 = (unitAt pl.cfg r j.row).1 + (unitAt pl.cfg r j.row).2
  lost : (s.rc j.ch j.rend).lost = []
  tile : tileRc s j.ch j.rend j.pic (unitAt pl.cfg r j.row).1 j.tile = some tl
  head : tl.head = some h

theorem ctuDecide_of_all_decided {s : State} {k : Nat} {j : Job} {r : RendCfg} (hj : (s.slot k).job = some j)
    (hr : rendOf (s.cfgOf j.ch) j.rend = some r) (hd : tileCtus (ctuCols r) (tileCount (s.cfgOf j.ch) r) j.tile ≤ j.done) :
    ctuDecide s k = s := by
  unfold ctuDecide
  rw [hj]
  split
  · next hj' =>
    cases hj'
    simp only [hr]
    split
    · split
      · rfl
      · rw [if_pos (Or.inl hd)]
    · rfl
  · rfl

theorem decideRest_of_all_decided {s : State} {k : Nat} (h : ctuDecide s k = s) (f : Nat) : decideRest k f s = s := by
  induction f with
  | zero => rfl
  | succ f ih => rw [decideRest, h, ih]

theorem fillLost_of_none_lost {s : State} {n : Nat} {c : ChanCfg} {r : RendCfg} (h : (s.rc n r.r).lost = []) : fillLost s n c r = s := by
  rw [fillLost, h, List.foldl_nil]

theorem posAdd_of_raster {s t : State} (h : t.reg Reg.stpRaster = s.reg Reg.stpRaster) (p : BitVec 64) (n : Nat) :
    t.posAdd p n = s.posAdd p n := by
  simp only [posAdd, unitsOf, frameUnits, totalLines, getF, h]

theorem pastDeadline_corrected (s : State) (n fixed : Nat) (c : ChanCfg) (r : RendCfg) (m row : Nat) :
    pastDeadline (s.incSat Reg.mpCorrected 31 0 fixed) n c r m row = pastDeadline s n c r m row := by
  have hraster : (s.incSat Reg.mpCorrected 31 0 fixed).reg Reg.stpRaster = s.reg Reg.stpRaster := reg_setF_other _ _ _ _ (by decide)
  simp only [pastDeadline, unitPoint, posAdd_of_raster hraster]
  rfl

/-- A row that ends its slice: the slice is formed, and the unit counts it. -/
theorem rowComplete_last {s : State} {k e fixed : Nat} {stalls : List Nat} {j : Job} {pl : Place} {r : RendCfg} {tl : TileRc}
    {h : SliceHead} {u : Nat × Nat} {t : State} {p : PicInfo} (hrow : LastRow s k e j pl r tl h) (hu : unitAt pl.cfg r j.row = u)
    (ht : rowCoded s k e pl.cfg r j u.1 (j.bits + headCost h) stalls fixed = t) (hp : picInfo (t.rc j.ch j.rend) j.pic = some p) :
    rowComplete s k stalls fixed =
      dropReady (testBoundary (filterKnown (endSlice (formSlice t j.ch pl.cfg r p u h tl.ctus false) j.ch pl.cfg r j.pic u)
        j.ch pl.cfg r) e) j.ch pl.cfg r := by
  subst hu ht
  obtain ⟨he, hj, hpl, hr, hin, hd, hlast, hlost, htl, hh⟩ := hrow
  have hc := cfgOf_of_place hpl
  have hlost' := (rowCoded_lost s k e pl.cfg r j (unitAt pl.cfg r j.row).1 (j.bits + headCost h) stalls fixed).trans hlost
  have hfill := fillLost_of_none_lost (c := pl.cfg) (r := r) (by rw [rendOf_r hr]; exact hlost')
  have hdecide (f : Nat) : decideRest k f (s.incSat Reg.mpCorrected 31 0 fixed) = s.incSat Reg.mpCorrected 31 0 fixed := by
    have hc' : (s.incSat Reg.mpCorrected 31 0 fixed).cfgOf j.ch = pl.cfg := cfgOf_of_place hpl
    exact decideRest_of_all_decided (ctuDecide_of_all_decided (s := s.incSat Reg.mpCorrected 31 0 fixed) hj (by rw [hc', hr])
      (by rw [hc']; exact hd)) f
  have hj' : ((s.incSat Reg.mpCorrected 31 0 fixed).slot k).job = some j := hj
  have htl' : tileRc (s.incSat Reg.mpCorrected 31 0 fixed) j.ch j.rend j.pic (unitAt pl.cfg r j.row).1 j.tile = some tl := htl
  have hin' := (pastDeadline_corrected s j.ch fixed pl.cfg r j.pic j.row).trans hin
  unfold rowComplete
  simp only [he, hj, hc, hr]
  rw [rowCoded, rowCounted] at hfill hp hlost' ⊢
  generalize s.incSat Reg.mpCorrected 31 0 fixed = v at *
  simp only [hin', hdecide, hj', htl', hh, hlast, Option.getD_some, Option.bind_some, Bool.false_and, Bool.false_eq_true, if_false,
    decide_true, if_true, hfill, sliceLost, rendOf_r hr, hlost', hp, List.any_nil]
  rfl

/-! ### The filters leave the slots (R98) -/

theorem reconUpdate_slots (s : State) (n : Nat) (c : ChanCfg) (r : RendCfg) (m pic : Nat) :
    (reconUpdate s n c r m pic).eng.slots = s.eng.slots := by
  unfold reconUpdate
  extract_lets x t
  split
  · rfl
  · next pl _ =>
    refine foldl_inv (fun u : State => u.eng.slots = s.eng.slots) _ _ _ rfl (fun u k hu => ?_)
    extract_lets -merge i v w
    split
    · next e _ => exact (congrArg EngSt.slots ((showRecon_changes rfl (.refl [.regs] w) e (some k)).same .eng (by decide))).trans hu
    · exact hu

theorem filterRows_slots (n : Nat) (c : ChanCfg) (r : RendCfg) (f : Nat) (s : State) :
    (filterRows n c r f s).eng.slots = s.eng.slots := by
  induction f generalizing s with
  | zero => rfl
  | succ f ih =>
    unfold filterRows
    extract_lets x R i last
    clear_value last
    split
    · rfl
    · next p _ =>
      rw [apply_ite State.eng, apply_ite EngSt.slots]
      extract_lets t y unf t1
      have ht : t1.eng = s.eng := (setRc_changes rfl (Changes.foldl (L := [.mem, .chans]) (l := List.range (ctuCols r))
        (fun _ _ h => filterOne_changes rfl h _ _ _ _ _ _) (.refl _ s)) _ _ _).same .eng (by decide)
      have hhash (v : State) : (addHash v n c r p).eng = v.eng := (addHash_changes rfl (.refl [.chans] v) n c r p).same .eng (by decide)
      rw [ih, apply_ite State.eng, apply_ite EngSt.slots, hhash, reconUpdate_slots, ht, ite_self, ite_self]

theorem filterKnown_slots (s : State) (n : Nat) (c : ChanCfg) (r : RendCfg) : (filterKnown s n c r).eng.slots = s.eng.slots :=
  filterRows_slots ..

/-! ### A slice that differs from the twin's passes its slot to STANDBY (R396, R397) -/

/-- The engine that holds a slice's tile; 63 where none does. -/
def tileEngine (s : State) (n r tile : Nat) : Nat := ((tileSlot s n r tile).bind (fun k => (s.slot k).eng)).getD 63

theorem passForTest_slots {s : State} {e k b : Nat} (hk : s.slotOf e = some k) (hj : (s.slot k).job = none)
    (hb : s.eng.standby = some b) :
    (passForTest s e).eng.slots = Store.put Slot.init s.eng.slots k { s.slot k with eng := some b } := by
  have hgive := (giveSlot_after ({ s with eng := { s.eng with standby := none } } : State) k (some b)).same .eng (by decide)
  have hafter := (guarantee_changes rfl (syncSpares_changes rfl (syncEngine_changes rfl (.refl [.regs]
    ((({ s with eng := { s.eng with standby := none } } : State).giveSlot k (some b)))) e))).same .eng (by decide)
  have hpass : passForTest s e =
      ((({ s with eng := { s.eng with standby := none } } : State).giveSlot k (some b)).syncEngine e).syncSpares.guarantee := by
    simp only [passForTest, hk, hj, hb, Option.isSome_none, Bool.false_eq_true, if_false]
  rw [hpass, hafter, hgive]
  rfl

theorem testBoundary_of_no_slot {s : State} {e : Nat} (h : s.slotOf e = none) : testBoundary s e = s := by
  have hpass : passForTest s e = s := by rw [passForTest, h]
  rw [testBoundary, hpass]
  split
  · exact ite_self _
  · rfl

/-- The first mismatch of a channel starts a resolution, which hands over the work of the engine that holds the tile. -/
theorem noteMismatch_first {s : State} {x : CrcRec} (hd : x.channel.val ∉ s.twin.diverged) (hres : s.twin.resolving = none) :
    ∃ v, v.eng = s.eng ∧ noteMismatch s x = passForTest v (tileEngine s x.channel x.rend x.tile) := by
  have hd' : s.twin.diverged.contains x.channel.val = false := by simpa using hd
  unfold noteMismatch
  simp only [hd', Bool.false_eq_true, if_false]
  rw [if_neg (by simp [hres]), startResolution]
  refine ⟨_, ?_, rfl⟩
  rfl

theorem ownRecord_mismatch {s : State} {x q : CrcRec} (hq : s.twin.twin.find? (samePlace x) = some q) (hc : x.crc ≠ q.crc)
    (hd : x.channel.val ∉ s.twin.diverged) (hres : s.twin.resolving = none) :
    ∃ v, v.eng = s.eng ∧ ownRecord s x = passForTest v (tileEngine s x.channel x.rend x.tile) := by
  rw [ownRecord, hq]
  simp only [comparePair, if_neg hc]
  exact noteMismatch_first (s := ({ s with twin := { s.twin with twin := s.twin.twin.erase q } } : State).inc32 Reg.stileCompared) hd hres

/-- The record that the twin comparison has of a slice. -/
def sliceRecord (s : State) (n r tile row : Nat) (emerg : Bool) (m : Nat) (crc : BitVec 32) : CrcRec :=
  ⟨Fin.ofNat 128 n, Fin.ofNat 4 r, Fin.ofNat 8 tile, Fin.ofNat 256 row, emerg,
    (startOf (s.chan n) (m / picsPerFrame (s.cfgOf n))).setWidth 16, crc⟩

theorem sendSliceCrc_mismatch {s : State} {n r tile row m : Nat} {emerg : Bool} {crc : BitVec 32} {x q : CrcRec}
    (hup : s.twinUp = true) (hx : sliceRecord s n r tile row emerg m crc = x) (hq : s.twin.twin.find? (samePlace x) = some q)
    (hc : x.crc ≠ q.crc) (hd : x.channel.val ∉ s.twin.diverged) (hres : s.twin.resolving = none) :
    ∃ v, v.eng = s.eng ∧ sendSliceCrc s n r tile row emerg m crc = passForTest v (tileEngine s x.channel x.rend x.tile) := by
  subst hx
  unfold sendSliceCrc
  rw [if_pos hup]
  extract_lets lost f own
  by_cases hl : lost = true
  · rw [if_pos hl]
    exact ownRecord_mismatch (s := failsHandled s 49) hq hc hd hres
  · rw [if_neg hl]
    exact ownRecord_mismatch (s := { s with sent := .sliceCrc own (stileRows s 0x11 (recordBytes own)) :: s.sent }) hq hc hd hres

theorem twinUp_of_state {s : State} {w : Word} (h : s.reg Reg.stileState = w) :
    s.twinUp = (decide (fld w 1 0 = 2) && w.getLsbD 4) := by
  rw [twinUp, inStep, getF, bit, h]

/-- The CRC of a slice's bytes (R115). -/
def sliceCrcOf (h : SliceHead) (ctus : List CtuCode) : BitVec 32 :=
  BitVec.ofNat 32 (crc32 ((sliceBytes h ctus).map BitVec.toNat))

/-- A slice joins the slice buffer and SLICE_CRC; then its CRC goes to the twin. -/
theorem formSlice_sends (s : State) (n : Nat) (c : ChanCfg) (r : RendCfg) (p : PicInfo) (u : Nat × Nat) (h : SliceHead)
    (ctus : List CtuCode) (emerg : Bool) :
    ∃ v, formSlice s n c r p u h ctus emerg = sendSliceCrc v n r.r h.tile u.1 emerg p.m (sliceCrcOf h ctus) ∧
      v.eng = s.eng ∧ v.twin = s.twin ∧ v.reg Reg.stileState = s.reg Reg.stileState ∧ (v.chan n).place = (s.chan n).place ∧
      startOf (v.chan n) = startOf (s.chan n) := by
  unfold formSlice
  extract_lets ch bytes crc i heads out t t1
  have ht : Changes [.chans] s t := setChan_changes rfl (.refl _ s) _ _
  have hchan : (t.chan n).place = ch.place ∧ startOf (t.chan n) = startOf ch := by
    rw [setChan_chan_same]
    exact ⟨rfl, rfl⟩
  clear_value t out
  have heng : t.eng = s.eng := ht.same .eng (by decide)
  have htwin : t.twin = s.twin := ht.same .twin (by decide)
  have hreg : t.reg Reg.stileState = s.reg Reg.stileState :=
    congrArg (Store.get resetVal · Reg.stileState) (ht.same .regs (by decide))
  refine ⟨t1, rfl, ?_⟩
  unfold t1
  split
  · next e _ =>
    have he : Reg.stileState ≠ Reg.eeSliceCrc e := by simp only [Reg.stileState, Reg.eeSliceCrc]; omega
    rw [setReg_eng, setReg_twin, setReg_chan, reg_setReg_other _ _ he]
    exact ⟨heng, htwin, hreg, hchan⟩
  · exact ⟨heng, htwin, hreg, hchan⟩

/-! ### A row on an engine that no device has -/

namespace StrayRow

/-- The engine number whose BITS_LO would lie at STILE.STATE; a device has engines 0 to 33. -/
def engine : Nat := 13312

/-- A rendition of one CTU, coded in ULL with 32 channel lines of delay. -/
def rend : RendCfg :=
  { r := 0, source := 0, refill := false, w := 32, h := 32, codec := 0, profile := 0, tier := 0, level := 0, ctu := 32, search := 0
    srh := 0, srv := 0, refs := 1, sliceRows := 1, gopLen := 1, bitrate := 1000, peak := 0, window := 1
    refresh := 0, qp := 0, aq := 0, format := 0, first := 0, coding := [], words := [] }

def cfg : ChanCfg :=
  { n := 0, w := 32, h := 32, c422 := false, deep := false, interl := false, div := 1, phase := 0, num := 60, den := 1, lines := 45
    cls := 0, par := 1, pad := 0, input := 0, grant := 1, rends := [rend], stages := [], total := 4500, gln := 0, ctu0 := 32
    pixel := 0, layers := [], latch := 0, filters := [] }

def place : Place := ⟨[⟨0, 0, [0], true, false, 1, false⟩], (256, 1), [0], 1, 1, 0, 0, 45, 0, cfg, 0⟩

def head : SliceHead := ⟨.trail, 1, 0, 0, [0], [], none, none, none, none, none, false, 0, 0, 1⟩
def tile : TileRc := ⟨1000, 10000, 100, 100, 0, 0, 1, 0, [], false, 0, some head, []⟩
def unit : UnitRc := ⟨0, 0, 100, 10000, 30, 0, 1, [tile]⟩
def pic : PicInfo := ⟨0, 0, .trail, false, false, 0, [], [], none, false, [], [], 0, [], none, none, 0, (0, 0)⟩

/-- Channel 0 codes its first picture. -/
def chan : Chan :=
  { Chan.init with place := some place, running := true, frame := 1, rc := [(0, { RcSt.init with units := [unit], pics := [pic] })] }

/-- The row, its CTU decided. With the slice's header it has 82 bits, which STILE.STATE would show as IN_STEP with the route up. -/
def job : Job := ⟨0, 0, 0, 0, 0, 0, 0, 0, 1, 0, 0, 82 - headCost head⟩

/-- The device's record of the slice, and the twin's, of another CRC. -/
def own : CrcRec := ⟨0, 0, 0, 0, false, 0, sliceCrcOf head []⟩
def twins : CrcRec := ⟨0, 0, 0, 0, false, 0, ~~~(sliceCrcOf head [])⟩

/-- Slot 0 codes the row on that engine; engine 33 is STANDBY, and the twin's record has come. -/
def state : State :=
  { State.reset with
    chans := [(0, chan)]
    eng := { EngSt.init with slots := [(0, { Slot.init 0 with eng := some engine, shared := true, job := some job })] }
    twin := { State.reset.twin with twin := [twins] } }

/-- Slot 0 on an engine, its row over. -/
def slotOn (e : Nat) : Slot := { Slot.init 0 with eng := some e, shared := true }

/-- The row coded, and its picture then. -/
def coded : State := rowCoded state 0 engine cfg rend job 0 (job.bits + headCost head) [] 0
def codedPic : PicInfo := { pic with bits := 82 }

/-- Its slice formed. -/
def formed : State := formSlice coded 0 cfg rend codedPic (0, 1) head [] false

theorem lastRow : LastRow state 0 engine job place rend tile head where
  eng := rfl
  job := rfl
  place := rfl
  rend := rfl
  inTime := by decide
  decided := by decide
  last := by decide
  lost := rfl
  tile := rfl
  head := rfl

theorem bits_eq : job.bits + headCost head = 82 := by
  have h : headCost head ≤ 64 := min_le_right _ _
  show 82 - headCost head + headCost head = 82
  omega

theorem coded_stileState : coded.reg Reg.stileState = 82 := by
  have haddr : Reg.stileState = Reg.eeBitsLo engine := by decide
  rw [coded, rowCoded_reg, rowCounted, haddr, countRow_bitsLo, bits_eq]
  decide

theorem coded_pic : picInfo (coded.rc job.ch job.rend) job.pic = some codedPic := by
  rw [coded, rowCoded_picInfo, bits_eq]
  decide

theorem coded_slots : coded.eng.slots = [(0, slotOn engine)] := by
  rw [coded, rowCoded_eng]
  rfl

theorem coded_standby : coded.eng.standby = some 33 := by
  rw [coded, rowCoded_eng]
  rfl

theorem coded_twin : coded.twin = state.twin := rowCoded_twin ..

theorem coded_chan : (coded.chan 0).place = some place ∧ startOf (coded.chan 0) = startOf chan :=
  rowCoded_chan state 0 engine cfg rend job 0 (job.bits + headCost head) [] 0

theorem own_ne_twins : own.crc ≠ twins.crc := by
  intro h
  have hbit := congrArg (BitVec.getLsbD · 0) h
  simp [own, twins] at hbit

/-- The CRC of the slice meets the twin's, and the mismatch hands slot 0 to engine 33. -/
theorem formed_slots : formed.eng.slots = [(0, slotOn 33)] := by
  obtain ⟨v, hsend, heng, htwin, hstile, hplace, hstart⟩ := formSlice_sends coded 0 cfg rend codedPic (0, 1) head [] false
  have hup : v.twinUp = true := twinUp_of_state (hstile.trans coded_stileState)
  have hown : sliceRecord v 0 0 0 0 false 0 (sliceCrcOf head []) = own := by
    rw [sliceRecord, hstart, coded_chan.2]
    rfl
  have hslots : v.eng.slots = [(0, slotOn engine)] := by rw [heng, coded_slots]
  have htile : tileEngine v own.channel own.rend own.tile = engine := by
    rw [tileEngine, tileSlot]
    show ((((v.chan 0).place.bind _).bind _).bind _).getD 63 = engine
    rw [hplace, coded_chan.1]
    simp only [slot, hslots]
    rfl
  rw [coded_twin] at htwin
  obtain ⟨w, hw, hpass⟩ := sendSliceCrc_mismatch hup hown (q := twins) (by rw [htwin]; rfl) own_ne_twins (by rw [htwin]; decide)
    (by rw [htwin]; rfl)
  have hof : w.slotOf engine = some 0 := by
    simp only [slotOf, slot, hw, hslots]
    decide
  have hjob : (w.slot 0).job = none := by
    simp only [slot, hw, hslots]
    rfl
  have hformed : formed = passForTest w engine := by
    rw [← htile, ← hpass]
    exact hsend
  rw [hformed, passForTest_slots hof hjob (by rw [hw, heng, coded_standby])]
  simp only [slot, hw, hslots]
  rfl

theorem slot_after : ((rowComplete state 0 [] 0).slot 0).eng = some 33 := by
  have hend : (endSlice formed 0 cfg rend 0 (0, 1)).eng = formed.eng :=
    (endSlice_changes rfl (.refl [.regs, .chans] formed) 0 cfg rend 0 (0, 1)).same .eng (by decide)
  have hslots : (filterKnown (endSlice formed 0 cfg rend 0 (0, 1)) 0 cfg rend).eng.slots = [(0, slotOn 33)] := by
    rw [filterKnown_slots, hend, formed_slots]
  have hno : (filterKnown (endSlice formed 0 cfg rend 0 (0, 1)) 0 cfg rend).slotOf engine = none := by
    simp only [slotOf, slot, hslots]
    decide
  have hdrop (t : State) : (dropReady t 0 cfg rend).eng = t.eng :=
    (dropReady_changes rfl (.refl [.chans] t) 0 cfg rend).same .eng (by decide)
  have hrow := rowComplete_last (fixed := 0) (stalls := []) lastRow (u := (0, 1)) (t := coded) (by decide) rfl coded_pic
  have hformed : formSlice coded job.ch place.cfg rend codedPic (0, 1) head tile.ctus false = formed := rfl
  have hch : job.ch = 0 := rfl
  have hpic : job.pic = 0 := rfl
  have hcfg : place.cfg = cfg := rfl
  rw [hformed, hch, hpic, hcfg] at hrow
  rw [hrow, testBoundary_of_no_slot hno, slot, hdrop, hslots]
  rfl

end StrayRow

/-- Refutes O16: a row that completes in time on a slot whose engine is numbered 13,312 leaves that slot to engine 33. -/
theorem not_rowsDecisionsAndDeadlines : ¬ Obligations.RowsDecisionsAndDeadlines := by
  unfold Obligations.RowsDecisionsAndDeadlines
  rintro ⟨-, -, -, -, -, -, hcomplete, -⟩
  obtain ⟨t, ht, -, heng, -⟩ := hcomplete 0 [] 0 StrayRow.engine StrayRow.job StrayRow.rend StrayRow.state rfl rfl rfl (by decide) rfl
    StrayRow.lastRow.inTime
  rw [← Host.Outcome.next.inj ht] at heng
  have h33 : some 33 = some StrayRow.engine := StrayRow.slot_after.symm.trans heng
  exact absurd h33 (by decide)

end Sys2Proof.Machine
end

section
/-! Proof of ResetLeaves. A page of Table 21-1 is found again at its own index, since no two pages lie at one address; so CTRL of every
page reads after reset what `ctrlReset` gives its layout, and the rest are values of `State.reset` itself. -/

namespace Sys2Proof.Machine

open State

/-! ### A page is found at its index (R445) -/

/-- Table 21-1 has the page: its number is below the count of its layout. -/
def PageRef.Listed (p : PageRef) : Prop := p.n < p.lay.place.2.2

/-- No page of one layout lies at the address of a page of the other: one layout ends before the other begins, or the two are
interleaved with one stride (R445). -/
abbrev Layout.Apart (l m : Layout) : Prop :=
  l.place.1 + l.place.2.1 * (l.place.2.2 - 1) < m.place.1 ∨ m.place.1 + m.place.2.1 * (m.place.2.2 - 1) < l.place.1 ∨
    (l.place.2.1 = m.place.2.1 ∧ l.place.1 % l.place.2.1 ≠ m.place.1 % m.place.2.1)

theorem Layout.mem_all (l : Layout) : l ∈ Layout.all := by cases l <;> decide

theorem Layout.apart_of_ne {l m : Layout} (h : l ≠ m) : l.Apart m := by
  have hall : ∀ l ∈ Layout.all, ∀ m ∈ Layout.all, l ≠ m → l.Apart m := by decide
  exact hall l l.mem_all m m.mem_all h

namespace PageRef
variable {p q : PageRef}

theorem Listed.base_le (hp : p.Listed) : p.base ≤ p.lay.place.1 + p.lay.place.2.1 * (p.lay.place.2.2 - 1) :=
  Nat.add_le_add_left (Nat.mul_le_mul_left _ (Nat.le_sub_one_of_lt hp)) _

theorem place_le_base (p : PageRef) : p.lay.place.1 ≤ p.base := Nat.le_add_right _ _

theorem base_mod_stride (p : PageRef) : p.base % p.lay.place.2.1 = p.lay.place.1 % p.lay.place.2.1 :=
  Nat.add_mul_mod_self_left _ _ _

theorem base_mod (p : PageRef) : p.base % 0x1000 = 0 := by
  obtain ⟨l, n⟩ := p
  cases l <;> simp only [base, Layout.place] <;> omega

theorem Listed.base_ne_of_apart (hp : p.Listed) (hq : q.Listed) (h : p.lay.Apart q.lay) : p.base ≠ q.base := by
  intro hb
  rcases h with hlt | hgt | ⟨hs, hm⟩
  · exact absurd (hp.base_le.trans_lt (hlt.trans_le q.place_le_base)) (by omega)
  · exact absurd (hq.base_le.trans_lt (hgt.trans_le p.place_le_base)) (by omega)
  · exact hm (by rw [← base_mod_stride, ← base_mod_stride, ← hs, hb])

/-- Two pages of Table 21-1 at one address are one page. -/
theorem Listed.eq_of_base_eq (hp : p.Listed) (hq : q.Listed) (h : p.base = q.base) : p = q := by
  by_cases hl : p.lay = q.lay
  · obtain ⟨l, n⟩ := p
    obtain ⟨m, k⟩ := q
    cases hl
    have hstride : 0 < l.place.2.1 := by cases l <;> decide
    have hn : n = k := Nat.eq_of_mul_eq_mul_left hstride (Nat.add_left_cancel h)
    rw [hn]
  · exact absurd h (hp.base_ne_of_apart hq (Layout.apart_of_ne hl))

end PageRef

theorem listed_of_pageAt {i : Nat} {p : PageRef} (h : pageAt i = some p) : p.Listed := by
  obtain ⟨l, -, hl⟩ := List.mem_filterMap.1 (List.mem_of_mem_head? h)
  simp only [Option.ite_none_right_eq_some, Option.some.injEq] at hl
  obtain ⟨⟨-, -, hn⟩, rfl⟩ := hl
  exact hn

theorem pageAt_isSome {p : PageRef} (hp : p.Listed) : (pageAt p.index).isSome = true := by
  obtain ⟨l, n⟩ := p
  refine List.isSome_head?.2 (List.ne_nil_of_mem (a := ⟨l, n⟩) (List.mem_filterMap.2 ⟨l, l.mem_all, ?_⟩))
  simp only [Option.ite_none_right_eq_some, Option.some.injEq, PageRef.mk.injEq, true_and]
  cases l <;> simp only [PageRef.Listed, PageRef.index, PageRef.base, Layout.place] at hp ⊢ <;> omega

theorem pageAt_index {p : PageRef} (hp : p.Listed) : pageAt p.index = some p := by
  obtain ⟨q, hq⟩ := Option.isSome_iff_exists.1 (pageAt_isSome hp)
  have hb : q.base = p.base := by
    rw [base_of_pageAt hq]
    exact Nat.mul_div_cancel' (Nat.dvd_of_mod_eq_zero p.base_mod)
  rw [hq, (listed_of_pageAt hq).eq_of_base_eq hp hb]

/-! ### Registers after reset -/

/-- RESET_CAUSE alone holds another value than the one its table gives (R416). -/
theorem reg_reset {a : Nat} (h : a ≠ Reg.devResetCause) : State.reset.reg a = resetVal a := if_neg (Ne.symm h)

/-- CTRL at reset is that of the page's layout (R448). -/
theorem resetVal_ctrl {p : PageRef} (hp : p.Listed) : resetVal (p.base + hCtrl) = BitVec.ofNat 32 (ctrlReset p.lay) := by
  have hb := p.base_mod
  have hi : (p.base + hCtrl) / 0x1000 = p.index := by simp only [PageRef.index, hCtrl]; omega
  have ho : (p.base + hCtrl) % 0x1000 = hCtrl := by simp only [hCtrl]; omega
  simp only [resetVal, hi, ho, pageAt_index hp]
  rfl

section Ctrl
variable {l : Layout} {n : Nat}

theorem bit_ctrl_reset (hn : n < l.place.2.2) (i : Nat) :
    State.reset.bit ((⟨l, n⟩ : PageRef).base + hCtrl) i = (BitVec.ofNat 32 (ctrlReset l)).getLsbD i := by
  have hb := (⟨l, n⟩ : PageRef).base_mod
  rw [State.bit, reg_reset (by simp only [Reg.devResetCause, hCtrl]; omega), resetVal_ctrl (p := ⟨l, n⟩) hn]

/-- ENABLE of a page after reset, by Table 21-3. -/
theorem enabled_reset (hn : n < l.place.2.2) :
    State.reset.enabled (⟨l, n⟩ : PageRef).base = (BitVec.ofNat 32 (ctrlReset l)).getLsbD 0 := bit_ctrl_reset hn 0

/-- LOAN_OK of a page after reset (R448). -/
theorem loanOk_reset (hn : n < l.place.2.2) :
    State.reset.bit ((⟨l, n⟩ : PageRef).base + hCtrl) 3 = (BitVec.ofNat 32 (ctrlReset l)).getLsbD 3 := bit_ctrl_reset hn 3

end Ctrl

/-! ### Channels and slots after reset -/

theorem chan_reset (n : Nat) : State.reset.chan n = Chan.init := rfl

theorem slot_reset (k : Nat) : State.reset.slot k = Slot.init k := rfl

/-- The LUTs of a channel at its initial values hold preset 0 (R154). -/
theorem lutEntry_init (k : Nat) : lutEntry Chan.init k = lutReset 0 k := rfl

/-- Settles O6: the pages by CTRL of their layouts, the other registers by their reset values, the rest by the initial state. -/
theorem resetLeaves : Obligations.ResetLeaves := by
  unfold Obligations.ResetLeaves
  refine ⟨?boot, ?steeple, ?chIn, ?clp, ?sexton, ?ee, ?loan, ?regs, ?luts, ?slots⟩
  case boot => exact ⟨by decide, rfl⟩
  case steeple => exact ⟨(enabled_reset (l := .stp) Nat.one_pos).trans (by decide), rfl⟩
  case chIn =>
    exact fun n hn =>
      ⟨(enabled_reset (l := .ch) hn).trans (by decide), (enabled_reset (l := .inp) hn).trans (by decide)⟩
  case clp =>
    exact fun n hn =>
      ⟨(enabled_reset (l := .clp) hn).trans (by decide), (loanOk_reset (l := .clp) hn).trans (by decide)⟩
  case sexton => exact (enabled_reset (l := .sexton) Nat.one_pos).trans (by decide)
  case ee => exact fun e he => (loanOk_reset (l := .ee) he).trans (by decide)
  case loan =>
    exact ⟨(loanOk_reset (l := .mp) Nat.one_pos).trans (by decide), (loanOk_reset (l := .hbm) Nat.one_pos).trans (by decide),
      (loanOk_reset (l := .mtx) Nat.one_pos).trans (by decide)⟩
  case regs => decide
  case luts => exact fun n k => by rw [chan_reset, lutEntry_init]
  case slots => exact ⟨fun k _ => by rw [slot_reset, Slot.init], rfl, rfl⟩

end Sys2Proof.Machine
end

section
/-! Celtil lanes and links for the statements of 07_celtil_lanes.md: LANE_STATE field by field, what the CLP cause and the links
leave of a lane, and the retraining of the lanes in turn. -/

namespace Sys2Proof.Machine

open State

/-! ### Fields and folds -/

/-- A field of a number written into a whole register. -/
theorem fld_ofNat (v : Nat) {hi lo : Nat} (h : hi < 32) (hl : lo ≤ hi) :
    fld (BitVec.ofNat 32 v) hi lo = v / 2 ^ lo % 2 ^ (hi - lo + 1) := by
  apply Nat.eq_of_testBit_eq
  intro i
  rw [fld, BitVec.testBit_toNat, BitVec.getLsbD_extractLsb', BitVec.getLsbD_ofNat, Nat.testBit_mod_two_pow,
    Nat.testBit_div_two_pow, Nat.add_comm lo i]
  by_cases hi' : i < hi - lo + 1
  · have : i + lo < 32 := by omega
    simp [hi', this]
  · simp [hi']

/-- A fold passes over elements that keep `P` until one takes `P` to `Q`, which every element keeps. -/
theorem foldl_reaches {α β : Type} {P Q : β → Prop} {f : β → α → β} {a : α} {l : List α} (ha : a ∈ l)
    (hpass : ∀ b, ∀ x ∈ l, x ≠ a → P b → P (f b x)) (hset : ∀ b, P b → Q (f b a)) (hkeep : ∀ b, ∀ x ∈ l, Q b → Q (f b x)) :
    ∀ b, P b → Q (l.foldl f b) := by
  induction l with
  | nil => cases ha
  | cons x l ih =>
    intro b hb
    rw [List.foldl_cons]
    by_cases hx : x = a
    · subst hx
      exact List.foldlRecOn (motive := Q) l f (hset b hb) fun t ht y hy => hkeep t y (List.mem_cons_of_mem _ hy) ht
    · have hl : a ∈ l := (List.mem_cons.1 ha).resolve_left (Ne.symm hx)
      exact ih hl (fun t y hy => hpass t y (List.mem_cons_of_mem _ hy)) (fun t y hy => hkeep t y (List.mem_cons_of_mem _ hy)) _
        (hpass b x (List.mem_cons_self ..) hx hb)

/-! ### Tables of lanes and links -/

section Tables
variable (s : State) (n p key : Nat)

@[simp] theorem link_setLane (x : Lane) : link (setLane s n p x) key = link s key := rfl

theorem setLane_lane_other {m q : Nat} (x : Lane) (h : 8 * m + q ≠ 8 * n + p) : lane (setLane s n p x) m q = lane s m q :=
  Store.get_put_other _ _ _ h

theorem lane_of_clp {s t : State} (h : t.clp = s.clp) : lane t n p = lane s n p := by rw [lane, lane, h]
theorem link_of_clp {s t : State} (h : t.clp = s.clp) : link t key = link s key := by rw [link, link, h]

end Tables

/-- The page index that a fault of a bundle names (R377, R445). -/
theorem clp_pageIndex (n : Nat) : Pg.clp n / 0x1000 = 0x1400 + n := by
  simp only [Pg.clp]
  omega

theorem linkKey_half {n : Nat} (x : Bool) : linkKey n x / 2 = n := by
  unfold linkKey
  split <;> omega

/-! ### LANE_STATE (Table 7-8) -/

section LaneState
variable (s : State) (n p : Nat)

theorem reg_setLaneSt_other {a : Nat} (v : Nat) (h : a ≠ Reg.clpLaneState n p) : (setLaneSt s n p v).reg a = s.reg a :=
  reg_setF_other _ _ _ _ h

theorem reg_setLanePower_other {a : Nat} (v : Nat) (h : a ≠ Reg.clpLaneState n p) : (setLanePower s n p v).reg a = s.reg a :=
  reg_setF_other _ _ _ _ h

theorem reg_setRetrainPending_other {a : Nat} (b : Bool) (h : a ≠ Reg.clpLaneState n p) :
    (setRetrainPending s n p b).reg a = s.reg a := reg_setBit_other _ _ _ h

theorem laneSt_setLaneSt {v : Nat} (h : v < 8) : laneSt (setLaneSt s n p v) n p = v :=
  (getF_setF_same _ _ _ (by omega) (by omega)).trans (Nat.mod_eq_of_lt h)

theorem lanePower_setLanePower {v : Nat} (h : v < 4) : lanePower (setLanePower s n p v) n p = v :=
  (getF_setF_same _ _ _ (by omega) (by omega)).trans (Nat.mod_eq_of_lt h)

theorem lanePower_setLaneSt (v : Nat) : lanePower (setLaneSt s n p v) n p = lanePower s n p :=
  getF_setF_other _ _ _ (by omega) (by omega) (by omega)

theorem laneSt_setLanePower (v : Nat) : laneSt (setLanePower s n p v) n p = laneSt s n p :=
  getF_setF_other _ _ _ (by omega) (by omega) (by omega)

theorem retrainPending_setLaneSt (v : Nat) : retrainPending (setLaneSt s n p v) n p = retrainPending s n p := by
  rw [retrainPending, bit, setLaneSt, reg_setF_same, getLsbD_setFld_other _ _ (by omega)]
  rfl

theorem retrainPending_setRetrainPending (b : Bool) : retrainPending (setRetrainPending s n p b) n p = b :=
  bit_setBit_same _ _ _ (by omega)

theorem laneSt_setRetrainPending (b : Bool) : laneSt (setRetrainPending s n p b) n p = laneSt s n p := by
  rw [laneSt, getF, setRetrainPending, reg_setBit_same, fld_putBit_other _ _ (by omega) (by omega) (by omega)]
  rfl

theorem laneRole_setRetrainPending (b : Bool) : laneRole (setRetrainPending s n p b) n p = laneRole s n p := by
  rw [laneRole, getF, setRetrainPending, reg_setBit_same, fld_putBit_other _ _ (by omega) (by omega) (by omega)]
  rfl

end LaneState

/-! ### The CLP cause (Table 17-4) -/

section Settle
variable (s : State)

theorem bit_unitDegraded_other (p a : Nat) (b : Bool) {i : Nat} (h : i ≠ 4) : (s.unitDegraded p b).bit a i = s.bit a i := by
  by_cases ha : a = p + hStatus
  · rw [ha, unitDegraded, bit_setBit_other _ _ _ (by omega) h]
  · rw [bit, reg_unitDegraded _ _ _ _ ha]
    rfl

/-- A cause that clears writes of a unit's STATUS the DEGRADED bit alone. -/
theorem bit_clearCause_other (c : Nat) {a i : Nat} (hi : i ≠ 4) (h0 : a ≠ Reg.watchDegrCause) (h1 : a ≠ Reg.watchGuarantee)
    (h2 : a ≠ Pg.watch + hEvt) : (s.clearCause c).bit a i = s.bit a i := by
  unfold clearCause
  split
  · rw [bit, reg_guarantee _ _ h1 h2]
    refine List.foldlRecOn (motive := fun t : State => t.bit a i = s.bit a i) _ _ ?_ fun t ht p _ =>
      (bit_unitDegraded_other t p a false hi).trans ht
    rw [bit, reg_setBit_other _ _ _ h0]
    rfl
  · rw [bit, reg_guarantee _ _ h1 h2]
    rfl

variable {n a : Nat} (hn : n < 10) (hlo : Pg.clp n ≤ a) (hhi : a < Pg.clp n + 0x1000)
include hn hlo hhi

/-- Of a CLP page, bringing the CLP cause up to date writes STATUS alone. -/
theorem reg_settleClp (hs : a ≠ Pg.clp n + hStatus) : (settleClp s).reg a = s.reg a := by
  simp only [Pg.clp, hStatus] at hlo hhi hs
  have hpages : ∀ m : Nat, a ≠ Pg.clp m + hStatus := by
    intro m
    simp only [Pg.clp, hStatus]
    omega
  unfold settleClp
  extract_lets bad t
  have ht : t.reg a = s.reg a := by
    refine List.foldlRecOn (motive := fun t : State => t.reg a = s.reg a) _ _ rfl fun u hu m _ => ?_
    split
    · exact hu
    · rw [reg_unitDegraded _ _ _ _ (hpages m), hu]
  split
  · rw [reg_clearCause _ _ _ (by simp only [Reg.watchDegrCause]; omega) (by simp only [Reg.watchGuarantee]; omega)
      (by simp only [Pg.watch, hEvt]; omega) (by simpa [causePages] using fun m _ => hpages m), ht]
  · exact ht

/-- Of STATUS it writes DEGRADED alone. -/
theorem bit_settleClp {i : Nat} (hi : i ≠ 4) : (settleClp s).bit a i = s.bit a i := by
  simp only [Pg.clp] at hlo hhi
  unfold settleClp
  extract_lets bad t
  have ht : t.bit a i = s.bit a i := by
    refine List.foldlRecOn (motive := fun t : State => t.bit a i = s.bit a i) _ _ rfl fun u hu m _ => ?_
    split
    · exact hu
    · rw [bit_unitDegraded_other _ _ _ _ hi, hu]
  split
  · rw [bit_clearCause_other _ _ hi (by simp only [Reg.watchDegrCause]; omega) (by simp only [Reg.watchGuarantee]; omega)
      (by simp only [Pg.watch, hEvt]; omega), ht]
  · exact ht

end Settle

theorem settleClp_clp (s : State) : (settleClp s).clp = s.clp :=
  (settleClp_changes (L := [.regs]) rfl (Changes.refl _ s)).same .clp (by decide)

/-! ### What leaves a lane as it is -/

/-- LANE_STATE of a lane and its record stand. -/
structure KeepsLane (n p : Nat) (s t : State) : Prop where
  reg : t.reg (Reg.clpLaneState n p) = s.reg (Reg.clpLaneState n p)
  lane : lane t n p = lane s n p

namespace KeepsLane

variable {n p : Nat} {s t u : State}

theorem refl (s : State) : KeepsLane n p s s := ⟨rfl, rfl⟩

theorem trans (h : KeepsLane n p s t) (h' : KeepsLane n p t u) : KeepsLane n p s u :=
  ⟨h'.reg.trans h.reg, h'.lane.trans h.lane⟩

theorem laneSt_eq (h : KeepsLane n p s t) : laneSt t n p = laneSt s n p := by
  rw [laneSt, laneSt, getF, getF, h.reg]

theorem retrainPending_eq (h : KeepsLane n p s t) : retrainPending t n p = retrainPending s n p := by
  rw [retrainPending, retrainPending, bit, bit, h.reg]

theorem laneRole_eq (h : KeepsLane n p s t) : laneRole t n p = laneRole s n p := by
  rw [laneRole, laneRole, getF, getF, h.reg]

/-- A register other than LANE_STATE is written. -/
theorem of_setReg (s : State) {a : Nat} (w : Word) (h : Reg.clpLaneState n p ≠ a) : KeepsLane n p s (s.setReg a w) :=
  ⟨reg_setReg_other _ _ h, lane_of_clp _ _ (setReg_clp _ _ _)⟩

theorem of_evt (s : State) {page : Nat} (i : Nat) (h : Reg.clpLaneState n p ≠ page + hEvt) : KeepsLane n p s (s.evt page i) :=
  of_setReg _ _ h

theorem of_setLink (s : State) (key : Nat) (x : Link) : KeepsLane n p s (setLink s key x) := ⟨rfl, rfl⟩

theorem of_setLinkState (s : State) (key v : Nat) : KeepsLane n p s (setLinkState s key v) := by
  unfold setLinkState
  split
  · exact of_setReg _ _ (by simp only [Reg.clpLaneState, Reg.clpLinkState]; omega)
  · exact of_setReg _ _ (by simp only [Reg.clpLaneState, Reg.clpLinkState]; omega)

theorem of_settleClp (s : State) (hn : n < 10) (hp : p < 8) : KeepsLane n p s (settleClp s) where
  reg := reg_settleClp s hn (by simp only [Pg.clp, Reg.clpLaneState]; omega) (by simp only [Pg.clp, Reg.clpLaneState]; omega)
    (by simp only [Pg.clp, hStatus, Reg.clpLaneState]; omega)
  lane := lane_of_clp _ _ (settleClp_clp s)

theorem of_sendNarrow (s : State) (key : Nat) : KeepsLane n p s (sendNarrow s key) := ⟨rfl, rfl⟩

theorem of_coverLane (s : State) (key q : Nat) : KeepsLane n p s (coverLane s key q) := by
  unfold coverLane
  split
  · exact of_setLink _ _ _
  · exact of_sendNarrow _ _

theorem of_linkUp (s : State) (key : Nat) : KeepsLane n p s (linkUp s key) := by
  unfold linkUp
  extract_lets m
  split
  · exact refl s
  · split
    · exact (of_setLinkState s _ _).trans (of_evt _ _ (by simp only [Reg.clpLaneState, Pg.clp, hEvt]; omega))
    · exact of_coverLane _ _ _
    · exact of_sendNarrow _ _

end KeepsLane

/-! ### Retraining, lane by lane (R192, R193) -/

theorem mem_allLanes {n p : Nat} : (n, p) ∈ allLanes ↔ n < 10 ∧ p < 8 := by
  simp [allLanes]

section StartRetrain
variable (s : State) (n p : Nat)

theorem reg_startRetrain_other {a : Nat} (h : a ≠ Reg.clpLaneState n p) : (startRetrain s n p).reg a = s.reg a := by
  rw [startRetrain, setLane_reg, reg_setRetrainPending_other _ _ _ _ h, reg_setLanePower_other _ _ _ _ h,
    reg_setLaneSt_other _ _ _ _ h]

theorem laneSt_startRetrain : laneSt (startRetrain s n p) n p = 2 :=
  (laneSt_setRetrainPending _ n p false).trans ((laneSt_setLanePower _ n p 0).trans (laneSt_setLaneSt s n p (by omega)))

theorem retrainPending_startRetrain : retrainPending (startRetrain s n p) n p = false :=
  retrainPending_setRetrainPending _ n p false

/-- The retraining of a lane leaves every other lane. -/
theorem KeepsLane.of_startRetrain {n p m q : Nat} (hp : p < 8) (hq : q < 8) (h : (m, q) ≠ (n, p)) :
    KeepsLane n p s (startRetrain s m q) where
  reg := reg_startRetrain_other _ _ _ (by
    simp only [ne_eq, Prod.mk.injEq, Reg.clpLaneState] at h ⊢
    omega)
  lane := setLane_lane_other _ _ _ _ (by
    simp only [ne_eq, Prod.mk.injEq] at h
    omega)

end StartRetrain

section StartRetrains
variable (s : State)

/-- Serving the requests writes LANE_STATE of the lanes alone. -/
theorem reg_startRetrains {a : Nat} (h : ∀ m q, q < 8 → a ≠ Reg.clpLaneState m q) : (startRetrains s).reg a = s.reg a := by
  refine List.foldlRecOn (motive := fun t : State => t.reg a = s.reg a) _ _ rfl fun t ht l hl => ?_
  split
  · rw [reg_startRetrain_other _ _ _ (h _ _ (mem_allLanes.1 hl).2), ht]
  · exact ht

theorem startRetrains_links (key : Nat) : link (startRetrains s) key = link s key := by
  refine List.foldlRecOn (motive := fun t : State => link t key = link s key) _ _ rfl fun t ht l _ => ?_
  split
  · exact ht
  · exact ht

/-- A lane without a request stands while the requests of others are served. -/
theorem KeepsLane.of_startRetrains {n p : Nat} (hp : p < 8) (h : retrainPending s n p = false) :
    KeepsLane n p s (startRetrains s) := by
  refine List.foldlRecOn (motive := KeepsLane n p s) _ _ (KeepsLane.refl s) fun t ht l hl => ?_
  split
  · rename_i hstart
    have hne : l ≠ (n, p) := by
      rintro rfl
      rw [retrainStarts, ht.retrainPending_eq, h] at hstart
      simp at hstart
    exact ht.trans (KeepsLane.of_startRetrain t hp (mem_allLanes.1 hl).2 hne)
  · exact ht

/-- A lane without a request stands through what follows a change of a lane. -/
theorem KeepsLane.of_afterLane {n p : Nat} (m q : Nat) (hn : n < 10) (hp : p < 8) (h : retrainPending s n p = false) :
    KeepsLane n p s (afterLane s m q) := by
  have hup := KeepsLane.of_linkUp (n := n) (p := p) s (linkOf m q)
  exact (hup.trans (KeepsLane.of_startRetrains _ hp (hup.retrainPending_eq.trans h))).trans (KeepsLane.of_settleClp _ hn hp)

end StartRetrains

end Sys2Proof.Machine
end

section
/-! Proof of BundleEnableAndDisable: each lane as ENABLE starts it and as its end leaves it, what the links' tables and the CLP cause
leave of the page's header, and LANE_PWR as a request on a disabled bundle writes it. -/

namespace Sys2Proof.Machine

open State

/-! ### The start of a lane (R173, R174, Table 7-4) -/

section StartLane
variable (s : State) (n p : Nat)

theorem cfgRole_le : cfgRole s n p ≤ 2 := by
  unfold cfgRole
  extract_lets c
  split
  · omega
  · split <;> omega

theorem cfgRole_congr {s t : State} (h : t.reg (Reg.clpCfg n) = s.reg (Reg.clpCfg n)) : cfgRole t n p = cfgRole s n p := by
  rw [cfgRole, cfgRole, h]

theorem reg_startLane_other {a : Nat} (h : a ≠ Reg.clpLaneState n p) (h' : a ≠ Reg.clpLaneEq n p) :
    (startLane s n p).reg a = s.reg a := by
  rw [startLane, setLane_reg, reg_setN_other _ _ h', reg_setN_other _ _ h]

/-- LANE_STATE at the start: the role of CFG, CDR for a lane that is used, and for an UNUSED lane the power that LANE_PWR asks. -/
theorem reg_startLane_state : ∃ pwr < 4, (startLane s n p).reg (Reg.clpLaneState n p) =
    BitVec.ofNat 32 ((if cfgRole s n p = 0 then 0 else 2) + pwr * 0x10 + cfgRole s n p * 0x40) := by
  refine ⟨if cfgRole s n p = 0 then s.getF (Reg.clpLanePwr n) (2 * p + 1) (2 * p) else 0, ?_, ?_⟩
  · have hpwr := fld_lt (s.reg (Reg.clpLanePwr n)) (2 * p + 1) (2 * p)
    rw [show 2 * p + 1 - 2 * p + 1 = 2 by omega] at hpwr
    split
    · exact hpwr
    · omega
  · rw [startLane, setLane_reg, reg_setN_other _ _ (by simp only [Reg.clpLaneState, Reg.clpLaneEq]; omega), reg_setN_same]

theorem laneRole_startLane : laneRole (startLane s n p) n p = cfgRole s n p := by
  obtain ⟨pwr, hpwr, hreg⟩ := reg_startLane_state s n p
  have hrole := cfgRole_le s n p
  rw [laneRole, getF, hreg, fld_ofNat _ (by omega) (by omega)]
  split <;> omega

theorem laneSt_startLane : laneSt (startLane s n p) n p = if cfgRole s n p = 0 then 0 else 2 := by
  obtain ⟨pwr, hpwr, hreg⟩ := reg_startLane_state s n p
  rw [laneSt, getF, hreg, fld_ofNat _ (by omega) (by omega)]
  split <;> omega

end StartLane

/-- Lane `p` has the role that CFG of `s` names, and has begun to train where it is used. -/
structure LaneStarted (s : State) (n p : Nat) (t : State) : Prop where
  cfg : t.reg (Reg.clpCfg n) = s.reg (Reg.clpCfg n)
  role : laneRole t n p = cfgRole s n p
  st : laneSt t n p = if cfgRole s n p = 0 then 0 else 2

theorem LaneStarted.of_reg {s t u : State} {n p : Nat} (h : LaneStarted s n p t)
    (hc : u.reg (Reg.clpCfg n) = t.reg (Reg.clpCfg n)) (hl : u.reg (Reg.clpLaneState n p) = t.reg (Reg.clpLaneState n p)) :
    LaneStarted s n p u where
  cfg := hc.trans h.cfg
  role := by rw [← h.role, laneRole, laneRole, getF, getF, hl]
  st := by rw [← h.st, laneSt, laneSt, getF, getF, hl]

/-! ### The lanes and links of a bundle -/

/-- Every lane of a bundle is started. -/
def lanesStarted (s : State) (n : Nat) : State := (List.range 8).foldl (fun t p => startLane t n p) s

/-- Every lane of a bundle is OFF in P3. -/
def lanesOff (s : State) (n : Nat) : State :=
  (List.range 8).foldl (fun t p => setLane (t.setN (Reg.clpLaneState n p) 0x30) n p Lane.init) s

/-- The links of a bundle as they are at reset. -/
def linksReset (s : State) (n : Nat) : State := [2 * n, 2 * n + 1].foldl (fun t k => setLink t k Link.init) s

/-- Every link of a bundle that has a DATA lane is in TRAINING. -/
def linksTraining (s : State) (n : Nat) : State := (linksOf s n).foldl (fun t k => setLinkState t k 1) s

section Bundle
variable (s : State) (n : Nat)

theorem reg_linksReset (a : Nat) : (linksReset s n).reg a = s.reg a := rfl

theorem reg_setLinkState_other {key v a : Nat} (h : a ≠ Reg.clpLinkState (key / 2)) : (setLinkState s key v).reg a = s.reg a := by
  unfold setLinkState
  split
  · rename_i hk
    subst hk
    exact reg_setF_other _ _ _ _ h
  · exact reg_setF_other _ _ _ _ h

theorem reg_linksTraining_other {a : Nat} (h : ∀ m, a ≠ Reg.clpLinkState m) : (linksTraining s n).reg a = s.reg a :=
  List.foldlRecOn (motive := fun t : State => t.reg a = s.reg a) _ _ rfl fun t ht _ _ =>
    (reg_setLinkState_other t (h _)).trans ht

theorem reg_lanesStarted_other {a : Nat} (h : ∀ p < 8, a ≠ Reg.clpLaneState n p ∧ a ≠ Reg.clpLaneEq n p) :
    (lanesStarted s n).reg a = s.reg a := by
  refine List.foldlRecOn (motive := fun t : State => t.reg a = s.reg a) _ _ rfl fun t ht p hp => ?_
  obtain ⟨hstate, heq⟩ := h p (List.mem_range.1 hp)
  rw [reg_startLane_other _ _ _ hstate heq, ht]

theorem laneStarted_lanesStarted {p : Nat} (hp : p < 8) : LaneStarted s n p (lanesStarted s n) := by
  have hcfg : ∀ (t : State) (q : Nat), (startLane t n q).reg (Reg.clpCfg n) = t.reg (Reg.clpCfg n) := fun t q =>
    reg_startLane_other _ _ _ (by simp only [Reg.clpCfg, Reg.clpLaneState]; omega)
      (by simp only [Reg.clpCfg, Reg.clpLaneEq]; omega)
  have hstart : ∀ t : State, t.reg (Reg.clpCfg n) = s.reg (Reg.clpCfg n) → LaneStarted s n p (startLane t n p) := fun t ht =>
    ⟨(hcfg t p).trans ht, (laneRole_startLane t n p).trans (cfgRole_congr n p ht), by
      rw [laneSt_startLane, cfgRole_congr n p ht]⟩
  refine foldl_reaches (P := fun t : State => t.reg (Reg.clpCfg n) = s.reg (Reg.clpCfg n)) (List.mem_range.2 hp)
    (fun t q _ _ ht => (hcfg t q).trans ht) hstart (fun t q _ ht => ?_) s rfl
  by_cases hq : q = p
  · subst hq
    exact hstart t ht.cfg
  · exact ht.of_reg (hcfg t q) (reg_startLane_other _ _ _ (by simp only [Reg.clpLaneState]; omega)
      (by simp only [Reg.clpLaneState, Reg.clpLaneEq]; omega))

theorem reg_lanesOff_other {a : Nat} (h : ∀ p < 8, a ≠ Reg.clpLaneState n p) : (lanesOff s n).reg a = s.reg a := by
  refine List.foldlRecOn (motive := fun t : State => t.reg a = s.reg a) _ _ rfl fun t ht p hp => ?_
  rw [setLane_reg, reg_setN_other _ _ (h p (List.mem_range.1 hp)), ht]

theorem reg_lanesOff {p : Nat} (hp : p < 8) : (lanesOff s n).reg (Reg.clpLaneState n p) = 0x30 := by
  refine foldl_of_mem (P := fun t : State => t.reg (Reg.clpLaneState n p) = 0x30) (List.mem_range.2 hp)
    (fun t => reg_setN_same _ _ _) (fun t q ht => ?_) s
  rw [setLane_reg, reg_setN, ht]
  exact ite_self _

end Bundle

/-- A check that passes writes the page's header alone. -/
theorem reg_activate_other (s : State) {p a : Nat} (h : p + 0x10 ≤ a) : (s.activate p).reg a = s.reg a := by
  rw [activate, reg_clearRefusal, if_neg (by simp only [hRefuse]; omega), if_neg (by simp only [hStatus]; omega),
    reg_setBit_other _ _ _ (by simp only [hStatus]; omega), reg_setBit_other _ _ _ (by simp only [hCtrl]; omega)]

theorem wordOf_clpCfg (n : Nat) : wordOf (Reg.clpCfg n) = 0x10 := by
  simp only [wordOf, Reg.clpCfg]
  omega

/-! ### ENABLE 0→1 and 1→0 (R174, R196) -/

section Enable
variable {s : State} {n : Nat} (ha : s.answers (Pg.clp n) = true)
include ha

theorem clpEnable_of_legal (he : s.enabled (Pg.clp n) = false) (hc : clpConfigOk s n = true) :
    clpEnable s n = settleClp (linksTraining ((linksReset (lanesStarted (s.activate (Pg.clp n)) n) n).setN (Reg.clpLinkState n)
      (s.getF (Reg.clpCfg n) 15 8 * 0x10000)) n) := by
  rw [clpEnable, ha, he, hc]
  rfl

theorem clpEnable_of_illegal (he : s.enabled (Pg.clp n) = false) (hc : clpConfigOk s n = false) :
    clpEnable s n = s.failCheck (Pg.clp n) 0x010B (wordOf (Reg.clpCfg n)) 0 := by
  rw [clpEnable, ha, he, hc]
  rfl

theorem clpDisable_of_enabled (he : s.enabled (Pg.clp n) = true) : clpDisable s n =
    settleClp (startRetrains ((linksReset (lanesOff (s.deactivate (Pg.clp n)) n) n).setReg (Reg.clpLinkState n) 0)) := by
  rw [clpDisable, ha, he]
  rfl

/-- Of the page's header, ENABLE writes what a passed check writes, and DEGRADED. -/
theorem bit_clpEnable {a i : Nat} (hn : n < 10) (he : s.enabled (Pg.clp n) = false) (hc : clpConfigOk s n = true)
    (hlo : Pg.clp n ≤ a) (hhi : a < Pg.clp n + 0x40) (hi : i ≠ 4) :
    (clpEnable s n).bit a i = (s.activate (Pg.clp n)).bit a i := by
  rw [clpEnable_of_legal ha he hc, bit_settleClp _ hn hlo (by omega) hi]
  simp only [Pg.clp] at hlo hhi
  rw [bit, reg_linksTraining_other _ _ (by simp only [Reg.clpLinkState]; omega),
    reg_setN_other _ _ (by simp only [Reg.clpLinkState]; omega), reg_linksReset,
    reg_lanesStarted_other _ _ (by simp only [Reg.clpLaneState, Reg.clpLaneEq]; omega)]
  rfl

theorem laneStarted_clpEnable {p : Nat} (hn : n < 10) (hp : p < 8) (he : s.enabled (Pg.clp n) = false)
    (hc : clpConfigOk s n = true) : LaneStarted (s.activate (Pg.clp n)) n p (clpEnable s n) := by
  have hstay : ∀ a : Nat, Pg.clp n ≤ a → a < Pg.clp n + 0x1000 → a ≠ Pg.clp n + hStatus → (∀ m, a ≠ Reg.clpLinkState m) →
      (clpEnable s n).reg a = (lanesStarted (s.activate (Pg.clp n)) n).reg a := fun a hlo hhi hstatus hlink => by
    rw [clpEnable_of_legal ha he hc, reg_settleClp _ hn hlo hhi hstatus, reg_linksTraining_other _ _ hlink,
      reg_setN_other _ _ (hlink n), reg_linksReset]
  refine (laneStarted_lanesStarted _ n hp).of_reg (hstay _ ?_ ?_ ?_ fun m => ?_) (hstay _ ?_ ?_ ?_ fun m => ?_)
  all_goals simp only [Pg.clp, hStatus, Reg.clpCfg, Reg.clpLaneState, Reg.clpLinkState]; omega

/-- Of the page's header, the end of ENABLE writes ENABLE, ACTIVE and DEGRADED. -/
theorem bit_clpDisable {a i : Nat} (hn : n < 10) (he : s.enabled (Pg.clp n) = true) (hlo : Pg.clp n ≤ a)
    (hhi : a < Pg.clp n + 0x40) (hi : i ≠ 4) : (clpDisable s n).bit a i = (s.deactivate (Pg.clp n)).bit a i := by
  rw [clpDisable_of_enabled ha he, bit_settleClp _ hn hlo (by omega) hi]
  simp only [Pg.clp] at hlo hhi
  rw [bit, reg_startRetrains _ (by simp only [Reg.clpLaneState]; omega),
    reg_setReg_other _ _ (by simp only [Reg.clpLinkState]; omega), reg_linksReset,
    reg_lanesOff_other _ _ (by simp only [Reg.clpLaneState]; omega)]
  rfl

theorem reg_clpDisable {p : Nat} (hn : n < 10) (hp : p < 8) (he : s.enabled (Pg.clp n) = true) :
    (clpDisable s n).reg (Reg.clpLaneState n p) = 0x30 := by
  have hoff : ((linksReset (lanesOff (s.deactivate (Pg.clp n)) n) n).setReg (Reg.clpLinkState n) 0).reg
      (Reg.clpLaneState n p) = 0x30 := by
    rw [reg_setReg_other _ _ (by simp only [Reg.clpLaneState, Reg.clpLinkState]; omega), reg_linksReset, reg_lanesOff _ _ hp]
  rw [clpDisable_of_enabled ha he, (KeepsLane.of_settleClp _ hn hp).reg,
    (KeepsLane.of_startRetrains _ hp (by rw [retrainPending, bit, hoff]; rfl)).reg, hoff]

end Enable

/-! ### A power request on a disabled bundle (R194) -/

theorem testBit_fld (w : Word) (hi lo i : Nat) : (fld w hi lo).testBit i = (decide (i < hi - lo + 1) && w.getLsbD (lo + i)) := by
  rw [fld, BitVec.testBit_toNat, BitVec.getLsbD_extractLsb']

section Power
variable {s : State} {n : Nat}

theorem powerRequest_of_disabled (he : s.enabled (Pg.clp n) = false) (p v : Nat) :
    powerRequest s n p v = s.setF (Reg.clpLanePwr n) (2 * p + 1) (2 * p) v := by
  simp [powerRequest, he]

theorem enabled_setF_lanePwr (s : State) (n hi lo v : Nat) :
    (s.setF (Reg.clpLanePwr n) hi lo v).enabled (Pg.clp n) = s.enabled (Pg.clp n) := by
  rw [enabled, bit, reg_setF_other _ _ _ _ (by simp only [Pg.clp, hCtrl, Reg.clpLanePwr]; omega)]
  rfl

/-- Each lane's two bits of LANE_PWR take those of the request. -/
theorem bit_lanePwr_setF (s : State) (n p : Nat) (w : Word) {i : Nat} (hi : i < 32) :
    (s.setF (Reg.clpLanePwr n) (2 * p + 1) (2 * p) (fld w (2 * p + 1) (2 * p))).bit (Reg.clpLanePwr n) i =
      if p = i / 2 then w.getLsbD i else s.bit (Reg.clpLanePwr n) i := by
  rw [bit, reg_setF_same, getLsbD_setFld]
  by_cases hp : p = i / 2
  · rw [if_pos (by omega), if_pos hp, testBit_fld, decide_eq_true (by omega), Bool.true_and, Nat.add_sub_cancel' (by omega)]
  · rw [if_neg (by omega), if_neg hp]
    rfl

section Request
variable (ha : s.answers (Pg.clp n) = true) (he : s.enabled (Pg.clp n) = false) (w : Word)
include ha

theorem lanePowerRequest_eq :
    lanePowerRequest s n w = (List.range 8).foldl (fun t p => powerRequest t n p (fld w (2 * p + 1) (2 * p))) s := if_pos ha

include he

theorem lanePowerRequest_sameRegsBut : SameRegsBut [Reg.clpLanePwr n] s (lanePowerRequest s n w) := by
  rw [lanePowerRequest_eq ha]
  refine List.foldlRecOn (motive := SameRegsBut [Reg.clpLanePwr n] s) _ _ (fun _ _ => rfl) fun t ht p _ a hmem => ?_
  have hte : t.enabled (Pg.clp n) = false := by
    rw [enabled, bit, ht _ (by simp; omega)]
    exact he
  rw [powerRequest_of_disabled hte, reg_setF_other _ _ _ _ (by simpa using hmem), ht a hmem]

theorem bit_lanePowerRequest {i : Nat} (hi : i < 16) : (lanePowerRequest s n w).bit (Reg.clpLanePwr n) i = w.getLsbD i := by
  have hstep : ∀ (t : State) (p : Nat), t.enabled (Pg.clp n) = false →
      (powerRequest t n p (fld w (2 * p + 1) (2 * p))).enabled (Pg.clp n) = false := fun t p ht => by
    rw [powerRequest_of_disabled ht, enabled_setF_lanePwr, ht]
  rw [lanePowerRequest_eq ha]
  refine (foldl_reaches (P := fun t : State => t.enabled (Pg.clp n) = false)
    (Q := fun t : State => t.enabled (Pg.clp n) = false ∧ t.bit (Reg.clpLanePwr n) i = w.getLsbD i)
    (List.mem_range.2 (show i / 2 < 8 by omega)) (fun t p _ _ ht => hstep t p ht) (fun t ht => ⟨hstep t _ ht, ?_⟩)
    (fun t p _ ht => ⟨hstep t p ht.1, ?_⟩) s he).2
  · rw [powerRequest_of_disabled ht, bit_lanePwr_setF _ _ _ _ (by omega), if_pos rfl]
  · rw [powerRequest_of_disabled ht.1, bit_lanePwr_setF _ _ _ _ (by omega), ht.2]
    exact ite_self _

end Request

end Power

/-- Settles O20: ENABLE and its end by the lanes they write and the header they leave, a power request bit by bit. -/
theorem bundleEnableAndDisable : Obligations.BundleEnableAndDisable := by
  unfold Obligations.BundleEnableAndDisable
  refine ⟨fun n s ha he hc => ⟨_, rfl, ?enable⟩, fun n s ha he hc => ⟨_, rfl, ?refused⟩, fun n s ha he => ⟨_, rfl, ?disable⟩,
    fun n w s ha he => ⟨_, rfl, ?power⟩⟩
  case enable =>
    refine ⟨?_, ?_, fun p hp => ?_⟩
    · rw [enabled, bit_clpEnable ha n.isLt he hc (by simp) (by simp) (by omega)]
      exact enabled_activate _ _
    · rw [bit_clpEnable ha n.isLt he hc (by simp) (by simp) (by omega), bit_activate_status, if_neg (by omega), if_pos rfl]
    · have hstart := laneStarted_clpEnable ha n.isLt hp he hc
      have hcfg : cfgRole (s.activate (Pg.clp n)) n p = cfgRole s n p := cfgRole_congr _ _ (reg_activate_other _ (by
        simp only [Reg.clpCfg, Pg.clp]; omega))
      rw [← hcfg]
      exact ⟨hstart.role, hstart.st⟩
  case refused =>
    rw [clpEnable_of_illegal ha he hc]
    refine ⟨?_, ?_, ?_, failCheck_clp _ _ _ _ _⟩
    · rw [failCheck, enabled_refuse, enabled_deactivate]
    · rw [failCheck, bit_refuse_active, bit_deactivate_active]
    · rw [failCheck, reg_refuse, wordOf_clpCfg]
      rfl
  case disable =>
    refine ⟨?_, ?_, fun p hp => ?_⟩
    · rw [enabled, bit_clpDisable ha n.isLt he (by simp) (by simp) (by omega)]
      exact enabled_deactivate _ _
    · rw [bit_clpDisable ha n.isLt he (by simp) (by simp) (by omega), bit_deactivate_active]
    · rw [laneSt, lanePower, getF, getF, reg_clpDisable ha n.isLt hp he]
      exact ⟨by decide, by decide⟩
  case power =>
    refine ⟨fld_eq_of_bits fun i hi => ?_, lanePowerRequest_sameRegsBut ha he w⟩
    rw [Nat.zero_add]
    exact bit_lanePowerRequest ha he w (by omega)

end Sys2Proof.Machine
end

section
/-! Proof of LaneTraining: a lane that becomes FAILED by what is noted of it and what its link makes of it, and the steps of training by
the registers they write. -/

namespace Sys2Proof.Machine

open State

/-! ### A lane becomes FAILED (R186, R187) -/

/-- LANE_STATE and LINK_STATE show the lane FAILED, without a request to retrain. -/
def laneDown (s : State) (n p : Nat) : State :=
  setRetrainPending (setLaneFailed (setLaneSt s n p 6) n p true) n p false

/-- The failure is dated, and its event and fault are raised. -/
def failRaised (s : State) (n p : Nat) : State :=
  ((setLane (laneDown s n p) n p { lane (laneDown s n p) n p with failedAt := s.frame, held := none }).evt (Pg.clp n) 0).raise
    0x4001 (Pg.clp n) n p

/-- The failed lane rejoins its link no more. -/
def failNoted (s : State) (n p : Nat) : State :=
  setLink (failRaised s n p) (linkOf n p) { link (failRaised s n p) (linkOf n p) with
    rejoin := (link (failRaised s n p) (linkOf n p)).rejoin.filter (fun q => decide (q ≠ p)) }

section Fail
variable (s : State) {n p : Nat}

theorem failLane_eq (n p : Nat) : failLane s n p =
    if linkState (failNoted s n p) (linkOf n p) ≤ 1 then failNoted s n p
    else if laneRole s n p = 1 then coverLane (abortTrainers (failNoted s n p) n (linkOf n p) p) (linkOf n p) p
    else if (link (failNoted s n p) (linkOf n p)).covered.isSome ∨ (link (failNoted s n p) (linkOf n p)).takeover.isSome then
      sendNarrow (failNoted s n p) (linkOf n p)
    else failNoted s n p := rfl

theorem reg_failNoted : (failNoted s n p).reg (Reg.clpLaneState n p) = (laneDown s n p).reg (Reg.clpLaneState n p) :=
  reg_evt_other _ (by simp only [Reg.clpLaneState, Pg.clp, hEvt]; omega)

theorem laneSt_failNoted : laneSt (failNoted s n p) n p = 6 := by
  rw [laneSt, getF, reg_failNoted]
  refine (laneSt_setRetrainPending _ n p false).trans ?_
  rw [laneSt, getF, setLaneFailed, reg_setBit_other _ _ _ (by simp only [Reg.clpLaneState, Reg.clpLinkState]; omega)]
  exact laneSt_setLaneSt s n p (by omega)

theorem retrainPending_failNoted : retrainPending (failNoted s n p) n p = false := by
  rw [retrainPending, bit, reg_failNoted]
  exact retrainPending_setRetrainPending _ n p false

theorem failNoted_faults :
    (failNoted s n p).faults = s.faults ++ [⟨0x4001, 0x1400 + n, n, p, s.stp.timeNs⟩] := by
  rw [← clp_pageIndex]
  rfl

/-- Ending the training of the other lanes of a link leaves the lane. -/
theorem KeepsLane.of_abortTrainers (key : Nat) : KeepsLane n p s (abortTrainers s n key p) := by
  refine List.foldlRecOn (motive := KeepsLane n p s) _ _ (KeepsLane.refl s) fun t ht q hq => ?_
  have hne : q ≠ p := by
    simp only [List.mem_filter, Bool.and_eq_true, decide_eq_true_eq] at hq
    exact hq.2.1.1
  have hwait : KeepsLane n p t (setRetrainPending t n q true) :=
    KeepsLane.of_setReg _ _ (by simp only [Reg.clpLaneState]; omega)
  exact ((ht.trans hwait).trans (KeepsLane.of_evt _ _ (by simp only [Reg.clpLaneState, Pg.clp, hEvt]; omega))).trans
    (KeepsLane.of_setLink _ _ _)

/-- What the link makes of the failure leaves the lane. -/
theorem failLane_keepsLane (n p : Nat) : KeepsLane n p (failNoted s n p) (failLane s n p) := by
  rw [failLane_eq]
  split
  · exact KeepsLane.refl _
  · split
    · exact (KeepsLane.of_abortTrainers _ _).trans (KeepsLane.of_coverLane _ _ _)
    · split
      · exact KeepsLane.of_sendNarrow _ _
      · exact KeepsLane.refl _

/-- What the link makes of the failure raises no fault. -/
theorem failLane_changes_noted (n p : Nat) : Changes [.regs, .clp, .sent] (failNoted s n p) (failLane s n p) := by
  have hrefl := Changes.refl [.regs, .clp, .sent] (failNoted s n p)
  rw [failLane_eq]
  exact hrefl.ite ((coverLane_changes rfl (abortTrainers_changes rfl hrefl _ _ _) _ _).ite
    ((sendNarrow_changes rfl hrefl _).ite hrefl))

end Fail

/-- The lane is FAILED, and its fault alone has been raised since `s` (R186). -/
structure FailsLane (n p : Nat) (s t : State) : Prop where
  st : laneSt t n p = 6
  faults : t.faults = s.faults ++ [⟨0x4001, 0x1400 + n, n, p, s.stp.timeNs⟩]

section Failed
variable (s : State) {n p : Nat} (hn : n < 10) (hp : p < 8)
include hn hp

theorem failsLane_afterLane : FailsLane n p s (afterLane (failLane s n p) n p) := by
  have hfail := failLane_keepsLane s n p
  have hpend : retrainPending (failLane s n p) n p = false := hfail.retrainPending_eq.trans (retrainPending_failNoted s)
  have hafter := afterLane_changes rfl (failLane_changes_noted s n p) n p
  exact ⟨(hfail.trans (KeepsLane.of_afterLane _ n p hn hp hpend)).laneSt_eq.trans (laneSt_failNoted s),
    (hafter.same .faults (by decide)).trans (failNoted_faults s)⟩

variable {s}

/-- Training that ends without a working lane fails a lane that neither has failed before nor holds a setting (R191). -/
theorem failsLane_trainFail (hf : laneFailed s n p = false) (hh : (lane s n p).held = none) :
    FailsLane n p s (trainFail s n p) := by
  have heq : trainFail s n p = afterLane (failLane s n p) n p := by
    simp only [trainFail, hf, hh, Option.isSome_none, Bool.false_eq_true, if_false]
  rw [heq]
  exact failsLane_afterLane s hn hp

/-- An ACTIVE lane in use fails for a cause that stands. -/
theorem failsLane_laneFails {cause : LaneCause} (he : s.enabled (Pg.clp n) = true) (hr : laneRole s n p ≠ 0)
    (h5 : laneSt s n p = 5) (hc : laneCause s n p cause = true) : FailsLane n p s (laneFails s n p cause) := by
  have htrains : laneTrains s n p = false := by simp [laneTrains, h5]
  have heq : laneFails s n p cause = afterLane (failLane s n p) n p := by
    simp [laneFails, he, hr, h5, hc, htrains]
  rw [heq]
  exact failsLane_afterLane s hn hp

end Failed

theorem laneFails_of_no_cause {s : State} {n p : Nat} {cause : LaneCause} (h : laneCause s n p cause = false) :
    laneFails s n p cause = s := by
  simp [laneFails, h]

/-! ### The sweep ends (R190, R191) -/

theorem fom_lt (v h : Nat) : fom v h < 256 := by
  unfold fom
  omega

theorem reg_setFom_other (s : State) (n p f : Nat) {a : Nat} (h : a ≠ Reg.clpLaneFom n p) : (setFom s n p f).reg a = s.reg a :=
  reg_setN_other _ _ h

/-- FOM's current value is the one recorded. -/
theorem getF_setFom (s : State) (n p : Nat) {f : Nat} (hf : f < 256) : (setFom s n p f).getF (Reg.clpLaneFom n p) 7 0 = f := by
  rw [getF, setFom, reg_setN_same, fld_ofNat _ (by omega) (by omega)]
  omega

section Sweep
variable (s : State) (n p : Nat) (x : SweepPoint)

/-- The setting found is applied, its figure of merit recorded, and the lane goes on to ALIGN. -/
def sweepApplied : State := setLaneSt (setFom (s.setN (Reg.clpLaneEq n p) x.boost) n p (fom x.v x.h)) n p 4

theorem reg_sweepApplied_other {a : Nat} (h : a ∉ [Reg.clpLaneState n p, Reg.clpLaneEq n p, Reg.clpLaneFom n p]) :
    (sweepApplied s n p x).reg a = s.reg a := by
  simp only [List.mem_cons, List.not_mem_nil, or_false, not_or] at h
  obtain ⟨hst, heq, hfom⟩ := h
  rw [sweepApplied, reg_setLaneSt_other _ _ _ _ hst, reg_setFom_other _ _ _ _ hfom, reg_setN_other _ _ heq]

theorem reg_sweepApplied_eq : (sweepApplied s n p x).reg (Reg.clpLaneEq n p) = BitVec.ofNat 32 x.boost := by
  rw [sweepApplied, reg_setLaneSt_other _ _ _ _ (by simp only [Reg.clpLaneEq, Reg.clpLaneState]; omega),
    reg_setFom_other _ _ _ _ (by simp only [Reg.clpLaneEq, Reg.clpLaneFom]; omega), reg_setN_same]

theorem fom_sweepApplied : (sweepApplied s n p x).getF (Reg.clpLaneFom n p) 7 0 = fom x.v x.h := by
  rw [getF, sweepApplied, reg_setLaneSt_other _ _ _ _ (by simp only [Reg.clpLaneFom, Reg.clpLaneState]; omega)]
  exact getF_setFom _ _ _ (fom_lt _ _)

variable {s n p x}

/-- A working setting near PRESET is taken before a wider sweep is looked at. -/
theorem laneAdaptComplete_of_near {points : List SweepPoint} (wide : List SweepPoint) (h3 : laneSt s n p = 3)
    (hx : bestPoint (s.getF (Reg.clpAdapt n) 7 0) (points.filter (fun x => decide (s.getF (Reg.clpPreset n) 3 0 ≤ x.boost + 3 ∧
      x.boost ≤ s.getF (Reg.clpPreset n) 3 0 + 3))) = some x) :
    laneAdaptComplete s n p points wide = sweepApplied s n p x := by
  simp only [laneAdaptComplete, h3, hx, ne_eq, not_true_eq_false, if_false]
  rfl

end Sweep

/-! ### Comma lock and deskew (R184, R191) -/

section Align
variable (s : State) (n p skew : Nat)

/-- The lane is ACTIVE, with nothing counted against it. -/
def laneAligned : State :=
  setLane (setLaneSt (noteSkew s n skew) n p 5) n p
    { lane (noteSkew s n skew) n p with held := none, bamBad := 0, errRun := 0, errs := (0, 0) }

/-- A lane that has retrained rejoins its link at the next marker row (R192). -/
def laneRejoins (t : State) : State :=
  if laneFailed s n p || (lane s n p).held.isSome then
    setLink (t.evt (Pg.clp n) 4) (linkOf n p) { link (t.evt (Pg.clp n) 4) (linkOf n p) with
      rejoin := (link (t.evt (Pg.clp n) 4) (linkOf n p)).rejoin ++ [p],
      restore := (link (t.evt (Pg.clp n) 4) (linkOf n p)).restore.filter (fun q => decide (q ≠ p)) }
  else t

theorem laneRejoins_keepsLane (t : State) : KeepsLane n p t (laneRejoins s n p t) := by
  unfold laneRejoins
  split
  · exact (KeepsLane.of_evt t 4 (by simp only [Reg.clpLaneState, Pg.clp, hEvt]; omega)).trans (KeepsLane.of_setLink _ _ _)
  · exact KeepsLane.refl t

theorem retrainPending_laneAligned : retrainPending (laneAligned s n p skew) n p = retrainPending s n p := by
  refine (retrainPending_setLaneSt _ n p 5).trans ?_
  rw [retrainPending, bit, noteSkew, reg_setF_other _ _ _ _ (by simp only [Reg.clpLaneState, Reg.clpMarker]; omega)]
  rfl

theorem laneAlignComplete_of_lock {s : State} {n p skew : Nat} (h4 : laneSt s n p = 4) (hs : skew ≤ 64) :
    laneAlignComplete s n p skew = afterLane (laneRejoins s n p (laneAligned s n p skew)) n p := by
  simp only [laneAlignComplete, h4, Nat.not_lt.2 hs, ne_eq, not_true_eq_false, if_false]
  rfl

theorem laneAlignComplete_keepsLane {s : State} {n p skew : Nat} (hn : n < 10) (hp : p < 8) (h4 : laneSt s n p = 4)
    (hs : skew ≤ 64) (hr : retrainPending s n p = false) :
    KeepsLane n p (laneAligned s n p skew) (laneAlignComplete s n p skew) := by
  have hrejoin := laneRejoins_keepsLane s n p (laneAligned s n p skew)
  rw [laneAlignComplete_of_lock h4 hs]
  exact hrejoin.trans (KeepsLane.of_afterLane _ n p hn hp
    (hrejoin.retrainPending_eq.trans ((retrainPending_laneAligned s n p skew).trans hr)))

end Align

/-- Settles O21: each step of training by the lane it leaves, each failure by the one way a lane becomes FAILED. -/
theorem laneTraining : Obligations.LaneTraining := by
  unfold Obligations.LaneTraining
  refine ⟨fun n p s h2 => ⟨_, rfl, ?cdrLock⟩, fun n p s h2 hf hh => ⟨_, rfl, ?cdrTimeout⟩,
    fun n p points wide x s h3 hx => ⟨_, rfl, ?adapt⟩, fun n p skew s h4 hs hr => ⟨_, rfl, ?align⟩,
    fun n p s h4 hf hh => ⟨_, rfl, ?alignTimeout⟩, fun n p cause s he hr h5 hc => ⟨_, rfl, ?fails⟩,
    fun n p cause s hc => ⟨_, rfl, laneFails_of_no_cause hc⟩⟩
  case cdrLock =>
    rw [laneCdrLock, if_pos h2]
    exact ⟨laneSt_setLaneSt _ _ _ (by omega), fun a ha => reg_setLaneSt_other _ _ _ _ (by simpa using ha),
      (setLaneSt_changes rfl (.refl [.regs] s) _ _ _).same⟩
  case cdrTimeout =>
    have hfail := failsLane_trainFail n.isLt p.isLt hf hh
    rw [laneCdrTimeout, if_pos h2]
    exact ⟨hfail.st, hfail.faults⟩
  case adapt =>
    rw [laneAdaptComplete_of_near wide h3 hx]
    exact ⟨laneSt_setLaneSt _ _ _ (by omega), reg_sweepApplied_eq _ _ _ _, fom_sweepApplied _ _ _ _,
      fun a ha => reg_sweepApplied_other _ _ _ _ ha⟩
  case align =>
    have hkeeps := laneAlignComplete_keepsLane n.isLt p.isLt h4 hs hr
    have hlane : lane (laneAligned s n p skew) n p =
        { lane (noteSkew s n skew) n p with held := none, bamBad := 0, errRun := 0, errs := (0, 0) } := setLane_lane_same _ _ _ _
    refine ⟨hkeeps.laneSt_eq.trans (laneSt_setLaneSt _ _ _ (by omega)), ?_, ?_⟩
    · rw [hkeeps.lane, hlane]
    · rw [hkeeps.lane, hlane]
  case alignTimeout =>
    have hfail := failsLane_trainFail n.isLt p.isLt hf hh
    rw [laneAlignTimeout, if_pos h4]
    exact ⟨hfail.st, hfail.faults⟩
  case fails =>
    have hcause : laneCause s n p cause = true := by
      cases cause with
      | noTransition => rfl
      | lostAlignment => exact decide_eq_true hc
      | tooManyErrors => exact decide_eq_true hc
      | retrainFailed => exact hc.elim
    have hfail := failsLane_laneFails n.isLt p.isLt he hr h5 hcause
    exact ⟨hfail.st, hfail.faults⟩

end Sys2Proof.Machine
end

section
/-! Proof of LaneRetrainingAndCounters: a request that may be served at once is served in its turn, whatever the lanes before and after
it do; a lane's power exit, its counters and its realignment by what they write. -/

namespace Sys2Proof.Machine

open State

/-! ### A request is served (R192) -/

/-- A lane in use waits to retrain, and the device's mode does not limit it. -/
structure RetrainReady (n p : Nat) (s : State) : Prop where
  pending : retrainPending s n p = true
  enabled : s.enabled (Pg.clp n) = true
  role : laneRole s n p ≠ 0
  st : laneSt s n p = 5 ∨ laneSt s n p = 6
  free : inService s = false

/-- The lane has begun to retrain. -/
structure Retrains (n p : Nat) (s : State) : Prop where
  st : laneSt s n p = 2
  pending : retrainPending s n p = false

section Serve
variable {s t : State} {n p : Nat}

theorem inService_of_reg (h : t.reg Reg.watchMode = s.reg Reg.watchMode) : inService t = inService s := by
  rw [inService, inService, mode, mode, getF, getF, h]

theorem RetrainReady.starts (h : RetrainReady n p s) : retrainStarts s n p = true := by
  have hst := h.st
  have hrange : 5 ≤ laneSt s n p ∧ laneSt s n p ≤ 6 := by omega
  simp [retrainStarts, h.pending, h.enabled, h.role, h.free, hrange]

/-- Another lane's turn leaves the request waiting. -/
theorem RetrainReady.pass (h : RetrainReady n p s) {m q : Nat} (hp : p < 8) (hq : q < 8) (hne : (m, q) ≠ (n, p)) :
    RetrainReady n p (startRetrain s m q) := by
  have hkeep := KeepsLane.of_startRetrain s hp hq hne
  have hreg : ∀ a, a ≠ Reg.clpLaneState m q → (startRetrain s m q).reg a = s.reg a := fun a ha =>
    reg_startRetrain_other s m q ha
  refine ⟨hkeep.retrainPending_eq.trans h.pending, ?_, ?_, ?_, ?_⟩
  · rw [State.enabled, bit, hreg _ (by simp only [Pg.clp, hCtrl, Reg.clpLaneState]; omega)]
    exact h.enabled
  · rw [hkeep.laneRole_eq]
    exact h.role
  · rw [hkeep.laneSt_eq]
    exact h.st
  · rw [inService_of_reg (hreg _ (by simp only [Reg.watchMode, Reg.clpLaneState]; omega)), h.free]

/-- A lane that has begun to retrain makes no request, and every turn leaves it. -/
theorem Retrains.after (h : Retrains n p s) {l : Nat × Nat} (hp : p < 8) (hl : l ∈ allLanes) :
    Retrains n p (if retrainStarts s l.1 l.2 then startRetrain s l.1 l.2 else s) := by
  split
  · rename_i hstart
    have hne : l ≠ (n, p) := by
      rintro rfl
      simp [retrainStarts, h.pending] at hstart
    have hkeep := KeepsLane.of_startRetrain s hp (mem_allLanes.1 hl).2 hne
    exact ⟨hkeep.laneSt_eq.trans h.st, hkeep.retrainPending_eq.trans h.pending⟩
  · exact h

theorem RetrainReady.served (h : RetrainReady n p s) (hn : n < 10) (hp : p < 8) : Retrains n p (startRetrains s) := by
  refine foldl_reaches (P := RetrainReady n p) (mem_allLanes.2 ⟨hn, hp⟩) (fun t l hl hne ht => ?_) (fun t ht => ?_)
    (fun t l hl ht => ht.after hp hl) s h
  · split
    · exact ht.pass hp (mem_allLanes.1 hl).2 hne
    · exact ht
  · rw [if_pos ht.starts]
    exact ⟨laneSt_startRetrain t n p, retrainPending_startRetrain t n p⟩

/-- A request is made on a lane in use. -/
theorem retrainReady_of_request (hp : p < 8) (he : s.enabled (Pg.clp n) = true) (hr : laneRole s n p ≠ 0)
    (hst : laneSt s n p = 5 ∨ laneSt s n p = 6) (hs : inService s = false) :
    RetrainReady n p (setRetrainPending s n p true) := by
  have hreg : ∀ a, a ≠ Reg.clpLaneState n p → (setRetrainPending s n p true).reg a = s.reg a := fun a ha =>
    reg_setRetrainPending_other s n p true ha
  refine ⟨retrainPending_setRetrainPending s n p true, ?_, ?_, ?_, ?_⟩
  · rw [State.enabled, bit, hreg _ (by simp only [Pg.clp, hCtrl, Reg.clpLaneState]; omega)]
    exact he
  · rw [laneRole_setRetrainPending]
    exact hr
  · rw [laneSt_setRetrainPending]
    exact hst
  · rw [inService_of_reg (hreg _ (by simp only [Reg.watchMode, Reg.clpLaneState]; omega)), hs]

theorem retrain_of_free (ha : s.answers (Pg.clp n) = true) (he : s.enabled (Pg.clp n) = true) (hr : laneRole s n p ≠ 0)
    (hs : inService s = false) : retrain s n p = startRetrains (setRetrainPending s n p true) := by
  simp [retrain, ha, he, hr, hs]

/-! ### Automatic retraining (R192) -/

/-- The Steeple frame start at which a FAILED lane retrains by itself: the present one, or the next of its lane. -/
def autoRetrainStart (s : State) (n p : Nat) : State :=
  if s.inFrame = 0 ∧ 1 ≤ (s.frame - (lane s n p).failedAt).toNat ∧ ((s.frame - (lane s n p).failedAt).toNat - 1) % 1024 = 0 then s
  else s.enterFrame ((1024 - (s.frame - (lane s n p).failedAt).toNat % 1024) % 1024 + 1) 0

theorem autoRetrainStart_inFrame (s : State) (n p : Nat) : (autoRetrainStart s n p).inFrame = 0 := by
  unfold autoRetrainStart
  split
  · rename_i h
    exact h.1
  · exact enterFrame_inFrame _ _

theorem reg_autoRetrainStart (s : State) (n p : Nat) {a : Nat} (h : a ∉ [Reg.ptpMapLo, Reg.ptpMapHi, Reg.stpHoldFrames]) :
    (autoRetrainStart s n p).reg a = s.reg a := by
  simp only [List.mem_cons, List.not_mem_nil, or_false, not_or] at h
  obtain ⟨hlo, hhi, hhold⟩ := h
  unfold autoRetrainStart
  split
  · rfl
  · exact reg_enterFrame _ _ _ _ hlo hhi hhold

theorem autoRetrain_of_failed (hb : s.bit (Reg.clpAdapt n) 16 = true) (hrun : s.running = true)
    (he : s.enabled (Pg.clp n) = true) (h6 : laneSt s n p = 6) :
    autoRetrain s n p = startRetrains (setRetrainPending (autoRetrainStart s n p) n p true) := by
  simp only [autoRetrain, hb, hrun, he, h6, ne_eq, not_true_eq_false, Bool.not_true, decide_false, Bool.or_self,
    Bool.false_eq_true, if_false]
  rfl

/-- The frame start leaves the lane, its bundle and the mode: the request is ready there. -/
theorem retrainReady_at_start (hn : n < 10) (hp : p < 8) (he : s.enabled (Pg.clp n) = true) (hr : laneRole s n p ≠ 0)
    (h6 : laneSt s n p = 6) (hs : inService s = false) :
    RetrainReady n p (setRetrainPending (autoRetrainStart s n p) n p true) := by
  have hlane : (autoRetrainStart s n p).reg (Reg.clpLaneState n p) = s.reg (Reg.clpLaneState n p) :=
    reg_autoRetrainStart s n p (by simp; omega)
  apply retrainReady_of_request hp
  · rw [State.enabled, bit, reg_autoRetrainStart s n p (by simp; omega)]
    exact he
  · rw [laneRole, getF, hlane]
    exact hr
  · rw [laneSt, getF, hlane]
    exact .inr h6
  · rw [inService_of_reg (reg_autoRetrainStart s n p (by simp)), hs]

theorem startRetrains_inFrame (s : State) : (startRetrains s).inFrame = s.inFrame := by
  rw [inFrame, inFrame, (startRetrains_changes rfl (.refl [.regs, .clp] s)).same .stp (by decide)]

end Serve

/-! ### Power exit and counters (R194, Tables 7-5, 7-8) -/

section Lane
variable {s : State} {n p : Nat}

theorem lanePowerExit_of_request (he : s.enabled (Pg.clp n) = true) (hp : lanePower s n p = 1 ∨ lanePower s n p = 2)
    (h0 : s.getF (Reg.clpLanePwr n) (2 * p + 1) (2 * p) = 0) :
    lanePowerExit s n p = setLaneSt (setLanePower s n p 0) n p 5 := by
  rw [lanePowerExit, if_pos (by simp [he, hp, h0])]

/-- LANE_CLR writes the two error counters and the lowest figure of merit. -/
theorem reg_laneClr (ha : s.answers (Pg.clp n) = true) (a : Nat) : (laneClr s n p).reg a =
    if a = Reg.clpLaneFom n p then setFld (s.reg a) 15 8 0
    else if a = Reg.clpLaneCv n p ∨ a = Reg.clpLaneDisp n p then 0 else s.reg a := by
  have hcv : Reg.clpLaneFom n p ≠ Reg.clpLaneCv n p := by simp only [Reg.clpLaneFom, Reg.clpLaneCv]; omega
  have hdisp : Reg.clpLaneFom n p ≠ Reg.clpLaneDisp n p := by simp only [Reg.clpLaneFom, Reg.clpLaneDisp]; omega
  rw [laneClr, if_pos ha, reg_setF]
  by_cases hf : a = Reg.clpLaneFom n p
  · rw [if_pos hf, if_pos hf, reg_setReg_other _ _ hdisp, reg_setReg_other _ _ hcv, hf]
  · rw [if_neg hf, if_neg hf, reg_setReg, reg_setReg]
    by_cases hd : a = Reg.clpLaneDisp n p
    · rw [if_pos hd, if_pos (.inr hd)]
    · simp only [hd, if_false, or_false]

end Lane

/-- Settles O22: a request is served in its lane's turn, in COMMISSION at once and by itself at a frame start. -/
theorem laneRetrainingAndCounters : Obligations.LaneRetrainingAndCounters := by
  unfold Obligations.LaneRetrainingAndCounters
  refine ⟨fun n p s ha he hr hst hs => ⟨_, rfl, ?retrain⟩, fun n p s hb hrun he hr h6 hs => ⟨_, rfl, ?auto⟩,
    fun n p s he hp h0 => ⟨_, rfl, ?powerExit⟩, fun n p s ha => ⟨_, rfl, ?clear⟩, fun n p s => ⟨_, rfl, ?align⟩⟩
  case retrain =>
    have hserved := (retrainReady_of_request p.isLt he hr hst hs).served n.isLt p.isLt
    rw [retrain_of_free ha he hr hs]
    exact ⟨hserved.st, hserved.pending⟩
  case auto =>
    rw [autoRetrain_of_failed hb hrun he h6]
    refine ⟨((retrainReady_at_start n.isLt p.isLt he hr h6 hs).served n.isLt p.isLt).st, ?_⟩
    rw [startRetrains_inFrame, setRetrainPending, setBit_inFrame, autoRetrainStart_inFrame]
  case powerExit =>
    rw [lanePowerExit_of_request he hp h0]
    refine ⟨?_, laneSt_setLaneSt _ _ _ (by omega), fun a ha => ?_⟩
    · rw [lanePower_setLaneSt, lanePower_setLanePower _ _ _ (by omega)]
    · have hne : a ≠ Reg.clpLaneState n p := by simpa using ha
      rw [reg_setLaneSt_other _ _ _ _ hne, reg_setLanePower_other _ _ _ _ hne]
  case clear =>
    have hreg := reg_laneClr (p := p) ha
    refine ⟨?_, ?_, ?_, fun a hmem => ?_, (laneClr_changes rfl (.refl [.regs] s) _ _).same⟩
    · rw [hreg, if_neg (by simp only [Reg.clpLaneFom, Reg.clpLaneCv]; omega), if_pos (.inl rfl)]
    · rw [hreg, if_neg (by simp only [Reg.clpLaneFom, Reg.clpLaneDisp]; omega), if_pos (.inr rfl)]
    · rw [getF, hreg, if_pos rfl, fld_setFld _ _ (by omega) (by omega), Nat.zero_mod]
    · simp only [List.mem_cons, List.not_mem_nil, or_false, not_or] at hmem
      obtain ⟨hcv, hdisp, hfom⟩ := hmem
      rw [hreg, if_neg hfom, if_neg (by simp [hcv, hdisp])]
  case align =>
    refine ⟨?_, fun m q h => setLane_lane_other _ _ _ _ h, (setLane_changes rfl (.refl [.clp] s) _ _ _).same⟩
    rw [setLane_lane_same]

end Sys2Proof.Machine
end

section
/-! Proof of LinkRowsAndMarkers: the code table read back, a data row by the lanes that are bad in it, and what each command of a link
leaves of the markers' sequence. -/

namespace Sys2Proof.Machine

open State

/-! ### The code table (R176) -/

section Groups
set_option maxRecDepth 20000

/-- The code table is closed data: each data group, at each running disparity, is found again. -/
theorem groupByte_dataGroup : ∀ (rd : Bool), ∀ b < 256, groupByte rd (dataGroup rd b) = some (b, false) := by decide

theorem dataGroup_lt : ∀ (rd : Bool), ∀ b < 256, dataGroup rd b < 1024 := by decide

theorem groupByte_controlGroup : ∀ (rd : Bool), ∀ e ∈ controlCodes, groupByte rd (controlGroup rd e.2) = some (e.1, true) := by
  decide

theorem controlGroup_lt : ∀ (rd : Bool), ∀ e ∈ controlCodes, controlGroup rd e.2 < 1024 := by decide

end Groups

/-- A group of the column of the running disparity decodes without an error. -/
theorem laneChar_of_groupByte {rd : Bool} {g b : Nat} {k : Bool} (hg : g < 1024) (h : groupByte rd g = some (b, k)) :
    laneChar ⟨BitVec.ofNat 10 g, rd⟩ = ⟨BitVec.ofNat 8 b, k, false, false⟩ := by
  have hg' : (BitVec.ofNat 10 g).toNat = g := by
    rw [BitVec.toNat_ofNat]
    exact Nat.mod_eq_of_lt hg
  simp only [laneChar, hg', h]

/-! ### A data row (R176, R177, R185) -/

theorem linkKey_main (n : Nat) : linkKey n false = 2 * n := by simp [linkKey]

theorem rowChar_main (n : Nat) (chars : List LaneGroup) (p : Nat) :
    rowChar (2 * n) chars p = laneChar (chars.getD p ⟨0, false⟩) := by
  rw [rowChar, if_neg (by omega), Nat.sub_zero]

theorem mem_linkLanes_of_dataInUse {s : State} {key p : Nat} (h : p ∈ dataInUse s key) : p ∈ linkLanes key :=
  (List.mem_filter.1 h).1

/-- A lane that the receiver does not ignore has not lost alignment. -/
theorem errRun_of_not_laneOut {s : State} {key p : Nat} (h : laneOut s key p = false) : (lane s (key / 2) p).errRun < 4 := by
  simp only [laneOut, Bool.or_eq_false_iff, decide_eq_false_iff_not] at h
  omega

section Clean
variable (s : State) (key : Nat)

theorem countChar_link (n p : Nat) (c : LaneChar) : link (countChar s n p c) key = link s key := by
  unfold countChar
  extract_lets t x
  have ht : link t key = link s key := by
    unfold t noteError
    split
    · rfl
    · split <;> rfl
  exact ht

theorem countLanes_link (chars : List LaneGroup) : link (countLanes s key chars) key = link s key :=
  List.foldlRecOn (motive := fun t : State => link t key = link s key) _ _ rfl fun t ht p _ =>
    (countChar_link t key _ p _).trans ht

/-- No register has been written, the link stands, and no lane has lost alignment. -/
structure KeepsAligned (s t : State) : Prop where
  regs : t.regs = s.regs
  link : link t key = link s key
  aligned : ∀ n p, (lane s n p).errRun < 4 → (lane t n p).errRun < 4

theorem keepsAligned_countChar (n p : Nat) {c : LaneChar} (hv : c.violation = false) (hd : c.disparity = false) :
    KeepsAligned key s (countChar s n p c) := by
  have heq : countChar s n p c = setLane s n p { lane s n p with errRun := if 4 ≤ (lane s n p).errRun then 4 else 0 } := by
    simp [countChar, hv, hd]
  rw [heq]
  refine ⟨rfl, rfl, fun m q h => ?_⟩
  by_cases hk : 8 * m + q = 8 * n + p
  · have hsame : ∀ t : State, lane t m q = lane t n p := fun t => by rw [lane, lane, hk]
    rw [hsame] at h ⊢
    rw [setLane_lane_same]
    simp only [if_neg (Nat.not_le.2 h)]
    omega
  · rw [setLane_lane_other _ _ _ _ hk]
    exact h

theorem keepsAligned_countLanes {chars : List LaneGroup} (h : ∀ p ∈ linkLanes key, badChar (rowChar key chars p) = false) :
    KeepsAligned key s (countLanes s key chars) := by
  refine List.foldlRecOn (motive := KeepsAligned key s) _ _ ⟨rfl, rfl, fun _ _ h => h⟩ fun t ht p hp => ?_
  have hclean := h p (List.mem_filter.1 hp).1
  simp only [badChar, Bool.or_eq_false_iff] at hclean
  obtain ⟨⟨hviolation, hdisparity⟩, -⟩ := hclean
  have hchar := keepsAligned_countChar t key (key / 2) p hviolation hdisparity
  exact ⟨hchar.regs.trans ht.regs, hchar.link.trans ht.link, fun n q hq => hchar.aligned n q (ht.aligned n q hq)⟩

variable {s key}

/-- A lane that the receiver takes stays taken through such a row. -/
theorem KeepsAligned.laneOut_eq {t : State} (h : KeepsAligned key s t) {p : Nat} (hout : laneOut s key p = false) :
    laneOut t key p = false := by
  have hrun := h.aligned (key / 2) p (errRun_of_not_laneOut hout)
  have htrains : laneTrains t (key / 2) p = laneTrains s (key / 2) p := by
    rw [laneTrains, laneTrains, laneSt, laneSt, getF, getF, reg, reg, h.regs]
  simp only [laneOut, Bool.or_eq_false_iff, decide_eq_false_iff_not] at hout ⊢
  obtain ⟨⟨⟨htrain, -⟩, hrejoin⟩, hcovered⟩ := hout
  rw [htrains, h.link]
  exact ⟨⟨⟨htrain, by omega⟩, hrejoin⟩, hcovered⟩

end Clean

section Row
variable {s : State} {n : Nat} {x : Bool} {chars : List LaneGroup}

/-- The lanes in use of which a row shows no good byte, as they are found once the row is counted. -/
def badLanes (s : State) (key : Nat) (chars : List LaneGroup) : List Nat :=
  (dataInUse s key).filter (fun p => laneOut (countLanes s key chars) key p || badChar (rowChar key chars p))

/-- No lane is bad in a row of clean data on lanes that the receiver takes. -/
theorem badLanes_eq_nil {key : Nat}
    (h : ∀ p ∈ linkLanes key, badChar (rowChar key chars p) = false ∧ laneOut s key p = false) : badLanes s key chars = [] := by
  have hkeep := keepsAligned_countLanes s key fun p hp => (h p hp).1
  refine List.filter_eq_nil_iff.2 fun p hp => ?_
  obtain ⟨hgroup, hout⟩ := h p (mem_linkLanes_of_dataInUse hp)
  simp [hkeep.laneOut_eq hout, hgroup]

theorem addBytes_packet (s : State) (key : Nat) (l : List (BitVec 8)) :
    (link (addBytes s key l) key).packet = (link s key).packet ++ if (link s key).dead then [] else l := by
  unfold addBytes
  split
  · rw [List.append_nil]
  · rw [setLink_link_same]

/-- A row without a bad lane, and without a spare to compare, adds its bytes. -/
theorem clpDataRow_clean (he : s.enabled (Pg.clp n) = true) (hl : 2 ≤ linkState s (linkKey n x))
    (hs : spareOf s (linkKey n x) = none) (hb : badLanes s (linkKey n x) chars = []) :
    clpDataRow s n x chars = addBytes (countLanes s (linkKey n x) chars) (linkKey n x)
      ((dataInUse s (linkKey n x)).map (fun p => (rowChar (linkKey n x) chars p).byte)) := by
  unfold badLanes at hb
  simp only [clpDataRow, he, Nat.not_lt.2 hl, hs, hb, Bool.not_true, decide_false, Bool.or_self, Bool.false_eq_true, if_false,
    Option.map_none]

/-- A row with two bad lanes or more ends the packet. -/
theorem clpDataRow_of_two_bad (he : s.enabled (Pg.clp n) = true) (hl : 2 ≤ linkState s (linkKey n x))
    (hb : 2 ≤ (badLanes s (linkKey n x) chars).length) :
    clpDataRow s n x chars = abortPacket (countLanes s (linkKey n x) chars) (linkKey n x) := by
  unfold badLanes at hb
  simp only [clpDataRow, he, Nat.not_lt.2 hl, Bool.not_true, decide_false, Bool.or_self, Bool.false_eq_true, if_false]
  split
  · rename_i hnil
    simp [hnil] at hb
  · rename_i hone
    simp [hone] at hb
  · rfl

/-- The packet in assembly is over, and the rows up to its end row are ignored. -/
theorem abortPacket_link (s : State) (key : Nat) :
    (link (abortPacket s key) key).packet = [] ∧ (link (abortPacket s key) key).dead = true := by
  unfold abortPacket
  extract_lets y t z
  rw [setLink_link_same]
  exact ⟨rfl, rfl⟩

theorem two_le_length_of_mem {α : Type} {l : List α} {a b : α} (ha : a ∈ l) (hb : b ∈ l) (h : a ≠ b) : 2 ≤ l.length := by
  match l with
  | [] => cases ha
  | [c] =>
    rw [List.mem_singleton] at ha hb
    exact absurd (ha.trans hb.symm) h
  | _ :: _ :: _ => simp

end Row

/-! ### Markers received (R184) -/

section Markers
variable (s : State) (key : Nat)

theorem link_evt (k page i : Nat) : link (s.evt page i) k = link s k := link_of_clp _ (evt_clp _ _ _)

theorem link_setLinkState (k key v : Nat) : link (setLinkState s key v) k = link s k :=
  link_of_clp _ ((setLinkState_changes rfl (.refl [.regs] s) _ _).same .clp (by decide))

/-- The narrowed mask that comes into use moves no link's sequence. -/
theorem seqRx_applyNarrow (m : Nat) : (link (applyNarrow s key m) key).seqRx = (link s key).seqRx := by
  unfold applyNarrow
  extract_lets n mine t1 t2 x t3
  have ht2 : t2.clp = s.clp :=
    (setLinkState_changes rfl (setF_changes rfl (.refl [.regs] s) _ _ _ _) _ _).same .clp (by decide)
  have hshed : (shedInputs ((t3.evt (Pg.clp n) 2).raise 0x4002 (Pg.clp n) n m) key).clp = t3.clp :=
    (shedInputs_changes rfl (raise_changes rfl (evt_changes rfl (.refl [.regs, .ing, .faults] t3) _ _) _ _ _ _) _).same .clp
      (by decide)
  rw [link_of_clp _ hshed, setLink_link_same, ← link_of_clp _ ht2]

/-- What waits for a marker row moves no link's sequence (R187, R188, R192). -/
theorem seqRx_atBam : (link (atBam s key) key).seqRx = (link s key).seqRx := by
  unfold atBam
  extract_lets n x t1 t2 t3 y t4 z
  have h1 : (link t1 key).seqRx = (link s key).seqRx := by
    unfold t1
    split
    · rw [link_evt, link_setLinkState, setLink_link_same]
    · rfl
  have h2 : (link t2 key).seqRx = (link s key).seqRx := by
    refine List.foldlRecOn (motive := fun t : State => (link t key).seqRx = (link s key).seqRx) _ _ h1 fun t ht p _ => ?_
    extract_lets u v
    have hu : link u key = link t key := link_of_clp _ (setBit_clp _ _ _ _)
    split
    · rw [link_evt, link_setLinkState, setLink_link_same, ← ht, ← hu]
    · rw [hu, ht]
  have h3 : (link t3 key).seqRx = (link s key).seqRx := by
    refine List.foldlRecOn (motive := fun t : State => (link t key).seqRx = (link s key).seqRx) _ _ h2 fun t ht q _ => ?_
    extract_lets h u v w
    clear_value h
    have hu : link u key = link t key := by
      unfold u
      split
      · exact link_of_clp _ (setF_clp _ _ _ _ _)
      · rfl
    have hv : link v key = link u key := by
      unfold v
      split
      · exact link_of_clp _ (setN_clp _ _ _)
      · rfl
    rw [link_setLane, hv, hu, ht]
  have h4 : (link t4 key).seqRx = (link s key).seqRx := by
    unfold t4
    rw [setLink_link_same, ← h3]
  split
  · split
    · rw [seqRx_applyNarrow, h4]
    · rw [setLink_link_same, ← h4]
  · exact h4

theorem link_skpAdjust (n : Nat) (skp : Int) (k : Nat) : link (skpAdjust s n skp) k = link s k :=
  link_of_clp _ ((skpAdjust_changes rfl (.refl [.regs] s) _ _).same .clp (by decide))

/-- A marker received sets the number expected next. -/
theorem seqRx_bamReceived {s : State} {n : Nat} {x : Bool} {q : BitVec 8} (lanes : List BamLane) (skp : Int)
    (he : s.enabled (Pg.clp n) = true) (hl : (linksOf s n).contains (linkKey n x) = true)
    (hq : (link s (linkKey n x)).seqRx = some q) :
    (link (bamReceived s n x lanes skp) (linkKey n x)).seqRx = some (q + 1) := by
  rw [bamReceived, he, hl, hq, if_neg (by decide)]
  extract_lets at_ act whole
  rw [Option.some_or]
  split
  case h_1 hnone => cases hnone
  case h_2 seq hseq =>
  cases hseq
  extract_lets good t1 y t2 t3 t4
  have h2 : (link t2 (linkKey n x)).seqRx = some (q + 1) := by
    unfold t2
    rw [setLink_link_same]
  have h3 : link t3 (linkKey n x) = link t2 (linkKey n x) := by
    unfold t3
    split
    · exact link_of_clp _ (setF_clp _ _ _ _ _)
    · rfl
  have h4 : link t4 (linkKey n x) = link t3 (linkKey n x) :=
    List.foldlRecOn (motive := fun t : State => link t (linkKey n x) = link t3 (linkKey n x)) _ _ rfl fun t ht _ _ =>
      (link_of_clp _ (setF_clp _ _ _ _ _)).trans ht
  rw [link_of_clp _ (settleClp_clp _), startRetrains_links, seqRx_atBam, link_skpAdjust, h4, h3, h2]

end Markers

/-! ### Markers and sets sent (R180, R182, R188, R189) -/

/-- The link with the mask that waits for its second marker counted on, or in use. -/
def maskCounted (l : Link) : Link :=
  match l.txPend with
  | some (m, k) => if k ≤ 1 then { l with txMask := some m, txPend := none } else { l with txPend := some (m, k - 1) }
  | none => l

section Sets
variable {s : State} {n : Nat} {x : Bool} (he : s.enabled (Pg.clp n) = true)
  (hl : (linksOf s n).contains (linkKey n x) = true)

section Sent
include he hl

theorem bamSend_of_link : bamSend s n x =
    { setLink s (linkKey n x) { maskCounted (link s (linkKey n x)) with
        seqTx := (link s (linkKey n x)).seqTx + 1,
        narrowAge := if (link s (linkKey n x)).narrowReq.isSome then (link s (linkKey n x)).narrowAge + 1 else 0 } with
      sent := .marker n (decide (linkKey n x = 19)) (link s (linkKey n x)).seqTx (markerLanes s (linkKey n x)) :: s.sent } := by
  rw [bamSend, he, hl]
  rfl

theorem narrow_of_crc {mask crc : Nat} (hc : crc = crc8 [1, mask]) : narrow s n x mask crc =
    setLink (sendSet s (linkKey n x) 2 mask) (linkKey n x) { link s (linkKey n x) with txPend := some (mask, 2) } := by
  simp only [narrow, he, hl, hc, ne_eq, not_true_eq_false, decide_false, Bool.not_true, Bool.or_self,
    Bool.false_eq_true, if_false]
  rfl

theorem statusSet_of_crc {mask crc : BitVec 8} (hc : crc.toNat = crc8 [3, mask.toNat]) :
    statusSet s n x (some (mask, crc)) =
      setLink s (linkKey n x) { link s (linkKey n x) with lastStatus := mask.toNat } := by
  simp only [statusSet, he, hl, hc, Bool.not_true, Bool.or_self, Bool.false_eq_true, if_false, if_true]

end Sent

theorem narrowAck_of_request {mask crc : Nat} (hr : (link s (linkKey n x)).narrowReq = some mask) (hc : crc = crc8 [2, mask]) :
    narrowAck s n x mask crc =
      setLink s (linkKey n x) { link s (linkKey n x) with narrowReq := none, narrowIn := some (mask, 2) } := by
  simp only [narrowAck, hr, hc, and_self, if_true]

/-- Each lane that is not idle sends the marker of its bundle, role and number. -/
theorem markerLanes_linkKey : markerLanes s (linkKey n x) =
    ((linkLanes (linkKey n x)).filter (fun p => !(txIdle s n p))).map (fun p =>
      (p, markerChars n p (decide (laneRole s n p = 2)) (link s (linkKey n x)).seqTx.toNat)) := by
  rw [markerLanes, linkKey_half]

/-! Sets with a wrong CRC change nothing. -/

theorem narrow_of_bad_crc {mask crc : Nat} (hc : crc ≠ crc8 [1, mask]) : narrow s n x mask crc = s := by
  simp [narrow, hc]

theorem narrowAck_of_bad_crc {mask crc : Nat} (hc : crc ≠ crc8 [2, mask]) : narrowAck s n x mask crc = s := by
  unfold narrowAck
  extract_lets key l
  split
  · rw [if_neg (fun h => hc h.1)]
  · rfl

theorem statusSet_of_bad_crc {mask crc : BitVec 8} (hc : crc.toNat ≠ crc8 [3, mask.toNat]) :
    statusSet s n x (some (mask, crc)) = s := by
  simp [statusSet, hc]

end Sets

/-! ### The link is DOWN (R188) -/

/-- The link without a request, a spare's cover or a packet in assembly, and DOWN. -/
def linkDown (s : State) (key : Nat) : State :=
  setLinkState (setLink s key { link s key with
    narrowReq := none, narrowIn := none, covered := none, packet := [], dead := false }) key 0

section Down
variable (s : State) {n : Nat} {x : Bool}

theorem linkState_of_reg {s t : State} {key : Nat}
    (h : t.reg (Reg.clpLinkState (key / 2)) = s.reg (Reg.clpLinkState (key / 2))) : linkState t key = linkState s key := by
  unfold linkState
  split
  · rename_i hk
    subst hk
    rw [getF, getF, h]
  · rw [getF, getF, h]

theorem linkState_setLinkState (key : Nat) {v : Nat} (h : v < 8) : linkState (setLinkState s key v) key = v := by
  unfold linkState setLinkState
  split
  · exact (getF_setF_same _ _ _ (by omega) (by omega)).trans (Nat.mod_eq_of_lt h)
  · exact (getF_setF_same _ _ _ (by omega) (by omega)).trans (Nat.mod_eq_of_lt h)

theorem linkDown_packet (key : Nat) : (link (linkDown s key) key).packet = [] := by
  rw [linkDown, link_setLinkState, setLink_link_same]

theorem linkDown_changes (key : Nat) : Changes [.regs, .clp] s (linkDown s key) :=
  setLinkState_changes rfl (setLink_changes rfl (.refl _ s) _ _) _ _

section Timeout
variable {s : State} (hr : (link s (linkKey n x)).narrowReq.isSome = true) (ha : 8 ≤ (link s (linkKey n x)).narrowAge)
include hr ha

theorem clpBundleDown_of_timeout : clpBundleDown s n x =
    settleClp (((linkDown s (linkKey n x)).evt (Pg.clp n) 3).raise 0x4003 (Pg.clp n) n 0) := by
  have hnone : (link s (linkKey n x)).narrowReq.isNone = false := by simpa [← Option.not_isSome] using hr
  simp only [clpBundleDown, hnone, Nat.not_lt.2 ha, decide_false, Bool.or_self, Bool.false_eq_true, if_false]
  rfl

/-- Of the bundle's page, the link going DOWN writes LINK_STATE and event 3, beside STATUS. -/
theorem reg_clpBundleDown (hn : n < 10) {a : Nat} (hlo : Pg.clp n ≤ a) (hhi : a < Pg.clp n + 0x1000)
    (hs : a ≠ Pg.clp n + hStatus) :
    (clpBundleDown s n x).reg a = ((linkDown s (linkKey n x)).evt (Pg.clp n) 3).reg a := by
  rw [clpBundleDown_of_timeout hr ha, reg_settleClp _ hn hlo hhi hs, reg_raise]

theorem linkState_clpBundleDown (hn : n < 10) : linkState (clpBundleDown s n x) (linkKey n x) = 0 := by
  have hreg : (clpBundleDown s n x).reg (Reg.clpLinkState n) = (linkDown s (linkKey n x)).reg (Reg.clpLinkState n) := by
    rw [reg_clpBundleDown hr ha hn ?_ ?_ ?_, reg_evt_other _ ?_]
    all_goals simp only [Pg.clp, hStatus, hEvt, Reg.clpLinkState]; omega
  have hstate : linkState (clpBundleDown s n x) (linkKey n x) = linkState (linkDown s (linkKey n x)) (linkKey n x) :=
    linkState_of_reg (by rw [linkKey_half, hreg])
  exact hstate.trans (linkState_setLinkState _ _ (by omega))

theorem evt_clpBundleDown (hn : n < 10) : (clpBundleDown s n x).bit (Pg.clp n + hEvt) 3 = true := by
  rw [bit, reg_clpBundleDown hr ha hn (a := Pg.clp n + hEvt) (by simp) (by simp) (by simp)]
  exact bit_evt_same _ (by omega) _

theorem clpBundleDown_faults :
    (clpBundleDown s n x).faults = s.faults ++ [⟨0x4003, 0x1400 + n, n, 0, s.stp.timeNs⟩] := by
  have hsame := (linkDown_changes s (linkKey n x)).same
  rw [clpBundleDown_of_timeout hr ha, (settleClp_changes rfl (.refl [.regs] _)).same .faults (by decide), raise, evt_faults,
    evt_stp, hsame .faults (by decide), hsame .stp (by decide), clp_pageIndex]

theorem clpBundleDown_packet : (link (clpBundleDown s n x) (linkKey n x)).packet = [] := by
  have hclp : (clpBundleDown s n x).clp = (linkDown s (linkKey n x)).clp := by
    rw [clpBundleDown_of_timeout hr ha, settleClp_clp, raise_clp, evt_clp]
  rw [link_of_clp _ hclp, linkDown_packet]

end Timeout

end Down

/-- Settles O23: the code table by its groups, a row by its bad lanes, and each command of a link by the link it leaves. -/
theorem linkRowsAndMarkers : Obligations.LinkRowsAndMarkers := by
  unfold Obligations.LinkRowsAndMarkers
  refine ⟨fun n chars s he hl hs hgood => ⟨_, rfl, ?dataRow⟩, fun n chars p q s he hl hp hq hpq hbp hbq => ⟨_, rfl, ?twoBad⟩,
    fun rd b => ?dataGroups, fun rd e he => ?controlGroups, fun n x s he hl => ⟨_, rfl, ?bamSend⟩,
    fun n x lanes skp q s he hl hq => ⟨_, rfl, seqRx_bamReceived lanes skp he hl hq⟩,
    fun n x mask crc s he hl hc => ⟨_, rfl, ?narrow⟩, fun n x mask crc s hr hc => ⟨_, rfl, ?narrowAck⟩,
    fun n x mask crc s he hl hc => ⟨_, rfl, ?status⟩, fun n x mask crc s => ⟨fun hc => ⟨_, rfl, narrow_of_bad_crc hc⟩,
      fun hc => ⟨_, rfl, narrowAck_of_bad_crc hc⟩, fun hc => ⟨_, rfl, statusSet_of_bad_crc hc⟩⟩,
    fun n x s hr ha => ⟨_, rfl, ?down⟩⟩
  case dataRow =>
    rw [← linkKey_main] at hl hs hgood ⊢
    have hchar : ∀ p, rowChar (linkKey n false) chars p = laneChar (chars.getD p ⟨0, false⟩) := by
      rw [linkKey_main]
      exact rowChar_main n chars
    rw [clpDataRow_clean he hl hs (badLanes_eq_nil fun p hp => by rw [hchar]; exact hgood p hp), addBytes_packet, countLanes_link]
    simp only [hchar]
  case twoBad =>
    have hmem : ∀ r ∈ dataInUse s (2 * n.val), badChar (laneChar (chars.getD r ⟨0, false⟩)) = true →
        r ∈ badLanes s (2 * n.val) chars := fun r hr hbad =>
      List.mem_filter.2 ⟨hr, by rw [rowChar_main, hbad, Bool.or_true]⟩
    have htwo := two_le_length_of_mem (hmem p hp hbp) (hmem q hq hbq) hpq
    rw [← linkKey_main] at hl htwo ⊢
    rw [clpDataRow_of_two_bad he hl htwo]
    exact abortPacket_link _ _
  case dataGroups =>
    rw [laneChar_of_groupByte (dataGroup_lt rd _ b.isLt) (groupByte_dataGroup rd _ b.isLt), BitVec.ofNat_toNat,
      BitVec.setWidth_eq]
  case controlGroups => exact laneChar_of_groupByte (controlGroup_lt rd e he) (groupByte_controlGroup rd e he)
  case bamSend =>
    refine ⟨?_, ?_, fun e hmem => ?_, ?_, (bamSend_changes rfl (.refl [.clp, .sent] s) _ _).same⟩
    · rw [bamSend_of_link he hl]
    · rw [markerLanes_linkKey, List.map_map]
      exact List.map_id _
    · rw [markerLanes_linkKey] at hmem
      obtain ⟨p, -, rfl⟩ := List.mem_map.1 hmem
      rfl
    · rw [bamSend_of_link he hl]
      exact congrArg Link.seqTx (setLink_link_same s _ _)
  case narrow =>
    refine ⟨?_, ?_, (narrow_changes rfl (.refl [.clp, .sent] s) _ _ _ _).same⟩
    · rw [narrow_of_crc he hl hc]
      rfl
    · rw [narrow_of_crc he hl hc, setLink_link_same]
  case narrowAck =>
    rw [narrowAck_of_request hr hc]
    exact ⟨congrArg Link.narrowIn (setLink_link_same s _ _), congrArg Link.narrowReq (setLink_link_same s _ _),
      (setLink_changes rfl (.refl [.clp] s) _ _).same⟩
  case status =>
    rw [statusSet_of_crc he hl hc]
    exact ⟨congrArg Link.lastStatus (setLink_link_same s _ _), rfl, (setLink_changes rfl (.refl [.clp] s) _ _).same⟩
  case down =>
    exact ⟨linkState_clpBundleDown hr ha n.isLt, evt_clpBundleDown hr ha n.isLt, clpBundleDown_faults hr ha,
      clpBundleDown_packet hr ha⟩

end Sys2Proof.Machine
end

section
/-! Refutation of InputAndControllerCommandsTakeEffect: the repeat of a missing line reads the frame before, and a read that failed there
is handled. -/

namespace Sys2Proof.Machine

open State

/-! ### A missing line part (R211) -/

section Missing
variable {s : State} {i line half : Nat}

/-- The start of the next channel line, where the input has a frame in progress (R211). -/
def linePassed (s : State) (i line : Nat) : State :=
  match (inp s i).startAt with
  | some f => s.toPos (inLinePos s i f (line + 1))
  | none => s

/-- The run of missing lines with a line that is missing (R212). -/
def missRunWith (s : State) (i line : Nat) (x : Inp) : Nat :=
  if x.missLine = some line then x.missRun else if x.missLine = some (lineBefore s i line) then x.missRun + 1 else 1

/-- What an input notes of a missing line part at a position: `x` before the command, `y` with the repeat made. -/
def notedMissing (line half run : Nat) (p : BitVec 64) (y : Inp) : Inp :=
  { y with
    land := if (Store.get (fun _ => none) y.land line).isNone then Store.put (fun _ => none) y.land line (some p) else y.land
    missed := (line * 3 + half) :: y.missed, missRun := run, missLine := some line, clean := false }

/-- The repeat of a missing line part, noted but not yet counted. -/
def partRepeated (s : State) (i line half : Nat) : State :=
  modInp (repeatRead (linePassed s i line) i line half) i
    (notedMissing line half (missRunWith (linePassed s i line) i line (inp s i)) (linePassed s i line).stp.pos)

variable (hrun : s.running = true) (hin : inSt s i ≠ 0) (hact : (activeLines s i line).isSome = true) (hpart : isPart s i half = true)
  (hland : (inp s i).landed.contains (line * 3 + half) = false) (hmiss : (inp s i).missed.contains (line * 3 + half) = false)
include hrun hin hact hpart hland hmiss

theorem lineMissing_of_due : lineMissing s i line half =
    countSeqLost (((partRepeated s i line half).inc32 (Reg.inpRepeats i)).evt (Pg.inp i) 2) i := by
  have hnone : (activeLines s i line).isNone = false := by simpa [← Option.not_isSome] using hact
  simp only [lineMissing, hrun, hin, hnone, hpart, hland, hmiss, decide_false, Bool.not_true, Bool.or_self, Bool.false_eq_true,
    if_false]
  rfl

theorem lineMissing_hbm : (lineMissing s i line half).hbm = (repeatRead (linePassed s i line) i line half).hbm := by
  rw [lineMissing_of_due hrun hin hact hpart hland hmiss]
  unfold countSeqLost
  split
  · rfl
  · rfl

end Missing

/-! ### A failed read of the frame before (R346) -/

section Failed
variable {s : State} {n line half f y : Nat} {e : FailedRead}

theorem meetsLine_of_start (a : Nat) {n : Nat} (hn : 0 < n) : meetsLine (a / 64) a n = true := by
  simp only [meetsLine, decide_eq_true_eq]
  omega

theorem not_mem_readDone {m : Nat} {l : List (Nat × Nat)} (hm : e.master = m) (hl : l.any (fun x => meetsLine e.line x.1 x.2) = true) :
    e ∉ (readDone s m l).hbm.failed := by
  simp [readDone, List.mem_filter, hm, hl]

/-- The luma line of the frame before that a channel line of picture is repeated from. -/
def repeatSpan (s : State) (n f y : Nat) : Nat × Nat :=
  ((rawPic s n (1 - rawPar s n)).lumaLine (frameLine (s.cfgOf n) f y),
    pitch (rawPic s n (1 - rawPar s n)).w (rawPic s n (1 - rawPar s n)).deep)

/-- A repeat handles the failed reads that it meets. -/
theorem not_mem_blackFailed (hp : pictureLine (s.cfgOf n) line = some (f, y)) (he : e ∈ s.hbm.failed)
    (hs : stillFails s 38 e = true) (hm : meetsLine e.line (repeatSpan s n f y).1 (repeatSpan s n f y).2 = true) :
    e ∉ (blackFailed s n line half).hbm.failed := by
  have hmaster : e.master = 38 := (of_decide_eq_true hs).1
  have hfails : readFails s 38 (repeatSpan s n f y).1 (repeatSpan s n f y).2 = true :=
    List.any_eq_true.2 ⟨e, he, by rw [hs, hm]; rfl⟩
  have hspans (g : Nat × Nat → Bool) (h : g (repeatSpan s n f y) = true) :
      ((rawPic s n (1 - rawPar s n)).spans (frameLine (s.cfgOf n) f y) (frameLine (s.cfgOf n) f y)).any g = true :=
    List.any_eq_true.2 ⟨_, List.mem_cons_self .., h⟩
  simp only [blackFailed, hp]
  rw [if_pos (hspans _ hfails)]
  exact not_mem_readDone hmaster (hspans (fun x => meetsLine e.line x.1 x.2) hm)

end Failed

/-! ### A repeat that meets a failed read -/

namespace FailedRepeat

/-- Input 0 is OK with 32 lines of 45, and feeds channel 0; line 0 of its frame is missing. -/
def input : State :=
  { ((((State.reset.setReg (Pg.stp + hCtrl) 1).setReg (Reg.inpSrc 0) 1).setReg (Reg.inpGeom 0) 0x00200020).setReg
      (Reg.inpTiming 0) 45).setReg (Reg.inpState 0) 2 with
    chans := [(0, StrayRow.chan)]
    ing := { State.reset.ing with inps := [(0, { Inp.init with missRun := 1, missLine := some 0 })] } }

/-- The ingest's read of line 1 of the frame before has failed. -/
def failed : FailedRead := ⟨38, (repeatSpan input 0 0 1).1 / 64, 0⟩
def state : State := { input with hbm := { input.hbm with failed := [failed] } }

theorem failed_not_mem : failed ∉ (lineMissing state 0 1 0).hbm.failed := by
  rw [lineMissing_hbm (by decide) (by decide) (by decide) (by decide) (by decide) (by decide)]
  exact not_mem_blackFailed (s := repeatPart state 0 1 0) (n := 0) (line := 1) (f := 0) (y := 1) (by decide) (List.mem_cons_self ..) (by decide)
    (meetsLine_of_start _ (by decide))

end FailedRepeat

/-- Refutes O60: input 0's line 1 is missing after line 0, and its repeat handles a failed read of the frame before, so that the
command changes more than the registers, Steeple and the ingest. -/
theorem not_inputAndControllerCommandsTakeEffect : ¬ Obligations.InputAndControllerCommandsTakeEffect := by
  unfold Obligations.InputAndControllerCommandsTakeEffect
  rintro ⟨-, -, hmissing, -⟩
  obtain ⟨t, ht, -, -, -, hsame⟩ := hmissing 0 1 0 FailedRepeat.state (by decide) (by decide) (by decide) (by decide) (by decide)
    (by decide) (by decide) (by decide)
  have hfailed : t.hbm.failed = [FailedRepeat.failed] := (Prod.mk.inj (Prod.mk.inj (hsame .hbm (by decide)).2).2).2
  rw [← Host.Outcome.next.inj ht] at hfailed
  exact FailedRepeat.failed_not_mem (hfailed ▸ List.mem_singleton_self _)

end Sys2Proof.Machine
end

section
/-! Proof of NetworkVideoAndInputLoss: a packet of a network path by its meter, its frame and the copy it is, a missing line part, and an
input's loss, freeze and return by the state they leave. -/

namespace Sys2Proof.Machine

open State

/-! ### An input's page and its STATE (Table 8-5) -/

section Input
variable {s t : State} {i j : Nat}

theorem inp_pageIndex (i : Nat) : Pg.inp i / 0x1000 = 0x1420 + i := by
  simp only [Pg.inp]
  omega

theorem inpState_ne_evt (i : Nat) : Reg.inpState i ≠ Pg.inp i + hEvt := by
  simp only [Reg.inpState, Pg.inp, hEvt]
  omega

theorem inp_of_inps (h : t.ing.inps = s.ing.inps) : inp t j = inp s j := by rw [inp, inp, h]

theorem inp_of_ing (h : t.ing = s.ing) : inp t j = inp s j := inp_of_inps (by rw [h])

@[simp] theorem modInp_inp_same (f : Inp → Inp) : inp (modInp s i f) i = f (inp s i) := setInp_inp_same _ _ _

variable (s i) {st out cause : Nat}

theorem reg_setInState_other {a : Nat} (h : a ≠ Reg.inpState i) : (setInState s i st out cause).reg a = s.reg a := reg_setN_other _ _ h

theorem setInState_ing : (setInState s i st out cause).ing = s.ing := setN_ing _ _ _

theorem getF_setInState (hi lo : Nat) (h : hi < 32) (hl : lo ≤ hi) : (setInState s i st out cause).getF (Reg.inpState i) hi lo =
    (st + out * 0x10 + cause * 0x100) / 2 ^ lo % 2 ^ (hi - lo + 1) := by
  rw [getF, setInState, reg_setN_same, fld_ofNat _ h hl]

theorem inSt_setInState (h : st < 4) : inSt (setInState s i st out cause) i = st := by
  rw [inSt, getF_setInState _ _ _ _ (by omega) (by omega)]
  omega

theorem inOut_setInState (h : st < 4) (ho : out < 4) : inOut (setInState s i st out cause) i = out := by
  rw [inOut, getF_setInState _ _ _ _ (by omega) (by omega)]
  omega

theorem inCause_setInState (h : st < 4) (ho : out < 4) (hc : cause < 8) : inCause (setInState s i st out cause) i = cause := by
  rw [inCause, getF_setInState _ _ _ _ (by omega) (by omega)]
  omega

theorem inCause_lt : inCause s i < 8 := fld_lt _ _ _

end Input

/-! ### What the meter and the timing of a packet read -/

/-- The register is no STATUS and shows no DEGRADED cause: a path that comes up leaves it. -/
structure OffCauses (a : Nat) : Prop where
  status : a % 0x1000 ≠ hStatus
  cause : a ≠ Reg.watchDegrCause
  guarantee : a ≠ Reg.watchGuarantee
  watch : a ≠ Pg.watch + hEvt

theorem OffCauses.ne_status {a p : Nat} (h : OffCauses a) (hp : p % 0x1000 = 0) : a ≠ p + hStatus := by
  have hs := h.status
  simp only [hStatus] at hs ⊢
  omega

/-- A register of an input's page beside its STATUS. -/
theorem offCauses_inp {i o : Nat} (hi : i < 128) (ho : o < 0x1000) (hs : o ≠ hStatus) : OffCauses (0x1420000 + o + 0x1000 * i) := by
  simp only [hStatus] at hs
  constructor <;> simp <;> omega

/-- Two states tell a packet of an input the same time, frame and windows. -/
structure SameTiming (i : Nat) (s t : State) : Prop where
  reg : ∀ a, OffCauses a → t.reg a = s.reg a
  stp : t.stp = s.stp
  ptp : t.ptp = s.ptp
  startAt : (inp t i).startAt = (inp s i).startAt

namespace SameTiming
variable {s t u : State} {i : Nat}

theorem trans (h : SameTiming i s t) (h' : SameTiming i t u) : SameTiming i s u :=
  ⟨fun a ha => (h'.reg a ha).trans (h.reg a ha), h'.stp.trans h.stp, h'.ptp.trans h.ptp, h'.startAt.trans h.startAt⟩

theorem of_setInp (s : State) {x : Inp} (h : x.startAt = (inp s i).startAt) : SameTiming i s (setInp s i x) :=
  ⟨fun _ _ => rfl, rfl, rfl, by rw [setInp_inp_same, h]⟩

variable (h : SameTiming i s t)
include h

theorem frame_eq : t.frame = s.frame := by rw [frame, frame, h.stp]

theorem inFrame_eq : t.inFrame = s.inFrame := by rw [inFrame, inFrame, h.stp]

theorem getF_eq {a : Nat} (ha : OffCauses a) (hi lo : Nat) : t.getF a hi lo = s.getF a hi lo := by rw [getF, getF, h.reg a ha]

theorem framePeriod_eq : t.framePeriod = s.framePeriod := by
  simp only [framePeriod, h.getF_eq (a := Reg.stpRaster) ⟨by decide, by decide, by decide, by decide⟩]

theorem frameUnits_eq : t.frameUnits = s.frameUnits := by
  simp only [frameUnits, totalLines, h.getF_eq (a := Reg.stpRaster) ⟨by decide, by decide, by decide, by decide⟩]

theorem ptpMap_eq : t.ptpMap = s.ptpMap := by
  simp only [ptpMap, h.getF_eq (a := Reg.ptpMapHi) ⟨by decide, by decide, by decide, by decide⟩,
    h.reg Reg.ptpMapLo ⟨by decide, by decide, by decide, by decide⟩]

theorem unitsSince_eq (f : BitVec 32) : unitsSince t f = unitsSince s f := by
  rw [unitsSince, unitsSince, h.frame_eq, h.frameUnits_eq, h.inFrame_eq]

variable (hi : i < 128)
include hi

theorem timing_eq (a b : Nat) : t.getF (Reg.inpTiming i) a b = s.getF (Reg.inpTiming i) a b :=
  h.getF_eq (offCauses_inp hi (o := 0x48) (by omega) (by simp)) _ _

theorem geom_eq (a b : Nat) : t.getF (Reg.inpGeom i) a b = s.getF (Reg.inpGeom i) a b :=
  h.getF_eq (offCauses_inp hi (o := 0x44) (by omega) (by simp)) _ _

theorem fps_eq (a b : Nat) : t.getF (Reg.inpFps i) a b = s.getF (Reg.inpFps i) a b :=
  h.getF_eq (offCauses_inp hi (o := 0x4C) (by omega) (by simp)) _ _

theorem inKind_eq : inKind t i = inKind s i := h.getF_eq (offCauses_inp hi (o := 0x40) (by omega) (by simp)) _ _

theorem inputDiv_eq : inputDiv t i = inputDiv s i := by
  simp only [inputDiv, h.framePeriod_eq, h.fps_eq hi]

theorem lineOfField_eq (line : Nat) (second : Bool) : lineOfField t i line second = lineOfField s i line second := by
  rw [lineOfField, lineOfField, h.timing_eq hi]

theorem inUnits_eq : inUnits t i = inUnits s i := by rw [inUnits, inUnits, h.inputDiv_eq hi, h.frameUnits_eq]

theorem inLines_eq : inLines t i = inLines s i := by rw [inLines, inLines, h.timing_eq hi]

theorem inAhead_eq : inAhead t i = inAhead s i := by
  rw [inAhead, inAhead, h.inKind_eq hi, h.fps_eq hi, h.fps_eq hi, h.inLines_eq hi,
    h.getF_eq (a := Reg.inpPdMax i) (offCauses_inp hi (o := 0x60) (by omega) (by simp))]

theorem linesWithin_eq : linesWithin t i = linesWithin s i := by
  funext l u
  rw [linesWithin, linesWithin, h.inUnits_eq hi, h.inLines_eq hi]

theorem lineTiming_eq (l : Nat) (ahead : Bool) : lineTiming t i l ahead = lineTiming s i l ahead := by
  rw [lineTiming, lineTiming, h.startAt]
  cases (inp s i).startAt with
  | none => rfl
  | some f =>
    dsimp only
    rw [h.unitsSince_eq, h.inUnits_eq hi, h.inLines_eq hi, h.inAhead_eq hi, h.linesWithin_eq hi]

theorem rtpAfter_eq (f rtp : BitVec 32) : rtpAfter t i f rtp = rtpAfter s i f rtp := by
  have htime : t.frameTime f 65536000000000 = s.frameTime f 65536000000000 := by
    simp only [frameTime, h.framePeriod_eq, h.ptpMap_eq, h.frame_eq]
  rw [rtpAfter, rtpAfter, htime, h.ptp, h.reg (Reg.inpTsOffset i) (offCauses_inp hi (o := 0x64) (by omega) (by simp))]

theorem frameFor_eq (rtp : BitVec 32) : frameFor t i rtp = frameFor s i rtp := by
  simp only [frameFor, h.startAt, h.framePeriod_eq, h.inputDiv_eq hi, h.rtpAfter_eq hi]

theorem segTiming_eq (ahead : Bool) (g : SrdSeg) : segTiming t i ahead g = segTiming s i ahead g := by
  rw [segTiming, segTiming, h.lineOfField_eq hi, h.lineTiming_eq hi]

end SameTiming

/-! ### A path delivers a packet (R210) -/

/-- An input after a packet on a path: the path has delivered in this frame and is up. -/
def deliveredOn (pathB : Bool) (x : Inp) : Inp :=
  { x with arrived := if pathB then (x.arrived.1, true) else (true, x.arrived.2)
           down := if pathB then (x.down.1, false) else (false, x.down.2) }

theorem inDown_deliveredOn (pathB : Bool) (x : Inp) : inDown (deliveredOn pathB x) pathB = false := by cases pathB <;> rfl

section Path
variable (s : State) (i : Nat) (pathB : Bool)

theorem reg_settlePaths {a : Nat} (h : OffCauses a) : (settlePaths s).reg a = s.reg a := by
  unfold settlePaths
  extract_lets badIn badPort t
  have hports : t.reg a = s.reg a := by
    refine List.foldlRecOn (motive := fun t : State => t.reg a = s.reg a) _ _ rfl fun u hu x _ => ?_
    split
    · exact hu
    · rw [reg_unitDegraded _ _ _ _ (h.ne_status (by simp only [Pg.eth]; omega)), hu]
  have hpages : ∀ p ∈ causePages 8, a ≠ p + hStatus := by
    intro p hp
    obtain ⟨n, -, rfl⟩ | ⟨n, -, rfl⟩ := (List.mem_append.1 hp).imp List.mem_map.1 List.mem_map.1
    · exact h.ne_status (by simp only [Pg.inp]; omega)
    · exact h.ne_status (by simp only [Pg.eth]; omega)
  split
  · rw [reg_clearCause _ _ _ h.cause h.guarantee h.watch hpages, hports]
  · exact hports

theorem reg_pathUp {a : Nat} (h : OffCauses a) : (pathUp s i pathB).reg a = s.reg a := by
  unfold pathUp
  extract_lets x t y u
  have hu : u.reg a = s.reg a := by
    unfold u
    split
    · rfl
    · rw [reg_unitDegraded _ _ _ _ (h.ne_status (by simp only [Pg.inp]; omega))]
      rfl
  split
  · rw [reg_settlePaths _ h, hu]
  · exact hu

theorem pathUp_ing : (pathUp s i pathB).ing = (setInp s i (deliveredOn pathB (inp s i))).ing := by
  unfold pathUp
  extract_lets x t y u
  have hu : u.ing = (setInp s i (deliveredOn pathB (inp s i))).ing := by
    unfold u
    split
    · rfl
    · exact (unitDegraded_changes rfl (.refl [.regs] t) _ _).same .ing (by decide)
  split
  · rw [(settlePaths_changes rfl (.refl [.regs] u)).same .ing (by decide), hu]
  · exact hu

theorem inp_pathUp : inp (pathUp s i pathB) i = deliveredOn pathB (inp s i) := by
  rw [inp_of_ing (pathUp_ing s i pathB), setInp_inp_same]

theorem pathUp_sameTiming : SameTiming i s (pathUp s i pathB) where
  reg _ ha := reg_pathUp s i pathB ha
  stp := (pathUp_changes rfl (.refl [.regs, .ing] s) i pathB).same .stp (by decide)
  ptp := (pathUp_changes rfl (.refl [.regs, .ing] s) i pathB).same .ptp (by decide)
  startAt := by rw [inp_pathUp]; rfl

end Path

/-! ### The meter (R210) -/

theorem meterPacket_colour (m : Meter) (cir cbs pir pbs now len : Nat) : (meterPacket m cir cbs pir pbs now len).1 =
    if min (pbs * 8000) (m.p + pir * (now - m.at_)) < len * 8000 then .red
    else if min (cbs * 8000) (m.c + cir * (now - m.at_)) < len * 8000 then .yellow else .green := by
  unfold meterPacket
  extract_lets c p n
  split
  · rfl
  · split <;> rfl

/-- The packet has reached its path's meter. -/
def metered (s : State) (i : Nat) (pathB : Bool) (len : Nat) : State := (meter (pathUp s i pathB) i pathB len).2

section Metered
variable (s : State) (i : Nat) (pathB : Bool) (len : Nat)

theorem inp_metered : ∃ m, inp (metered s i pathB len) i = { deliveredOn pathB (inp s i) with meters := m } :=
  ⟨_, by rw [metered, meter, setInp_inp_same, inp_pathUp]⟩

theorem metered_raw : (metered s i pathB len).ing.raw = s.ing.raw := by
  have hraw : (pathUp s i pathB).ing.raw = s.ing.raw := by
    rw [pathUp_ing]
    rfl
  exact hraw

theorem metered_sameTiming : SameTiming i s (metered s i pathB len) :=
  (pathUp_sameTiming s i pathB).trans (.of_setInp _ rfl)

theorem meter_of_colour {c : Colour} (h : (meter (pathUp s i pathB) i pathB len).1 = c) :
    meter (pathUp s i pathB) i pathB len = (c, metered s i pathB len) := Prod.ext h rfl

end Metered

/-! ### The copy that is used (R208) -/

/-- Line parts that have landed for the frame in progress, or ahead for the next. -/
def landedFor (ahead : Bool) (x : Inp) : List Nat := if ahead then x.early else x.landed

/-- A line part lands for a frame; the other frame's parts, the sequence numbers seen and the paths stay. -/
structure Lands (ahead : Bool) (k : Nat) (x y : Inp) : Prop where
  landed : (landedFor ahead y).contains k = true
  other : landedFor (!ahead) y = landedFor (!ahead) x
  seen : y.seen = x.seen
  down : y.down = x.down

theorem Lands.inDown_eq {ahead : Bool} {k : Nat} {x y : Inp} (h : Lands ahead k x y) (pathB : Bool) :
    inDown y pathB = inDown x pathB := by rw [inDown, inDown, h.down]

section Copy
variable (s : State) (i : Nat)

theorem repeatPart_inps (line half : Nat) : (repeatPart s i line half).ing.inps = s.ing.inps :=
  List.foldlRecOn (motive := fun t : State => t.ing.inps = s.ing.inps) _ _ rfl fun _ ht _ _ => ht

theorem blackFailed_inps (n line half : Nat) : (blackFailed s n line half).ing.inps = s.ing.inps := by
  unfold blackFailed
  extract_lets
  split
  · rfl
  · extract_lets
    split <;> rfl

theorem repeatRead_inps (line half : Nat) : (repeatRead s i line half).ing.inps = s.ing.inps :=
  List.foldlRecOn (motive := fun t : State => t.ing.inps = s.ing.inps) _ _ (repeatPart_inps s i line half) fun t ht n _ =>
    (blackFailed_inps t n line half).trans ht

theorem storePart_inps (ahead : Bool) (line half : Nat) (ofs : Option Nat) (deep : Bool) (l : List Nat) :
    (storePart s i ahead line half ofs deep l).ing.inps = s.ing.inps := by
  unfold storePart
  split
  · exact repeatRead_inps s i line half
  · exact List.foldlRecOn (motive := fun t : State => t.ing.inps = s.ing.inps) _ _ rfl fun _ ht _ _ => ht

theorem markLanded_lands (ahead : Bool) (line half : Nat) :
    Lands ahead (line * 3 + half) (inp s i) (inp (markLanded s i ahead line half) i) := by
  have hmem (l : List Nat) (k : Nat) : (if l.contains k then l else k :: l).contains k = true := by
    split
    · assumption
    · simp
  rw [markLanded, modInp_inp_same]
  cases ahead <;> exact ⟨hmem _ _, rfl, rfl, rfl⟩

/-- A segment that completes its line has the line land. -/
theorem landSeg_lands (ahead : Bool) (g : SrdSeg)
    (h : 2 * s.getF (Reg.inpGeom i) 13 0 ≤ Store.get (fun _ => 0) (if ahead then (inp s i).coverNext else (inp s i).cover)
      (lineOfField s i g.line g.second) + g.samples.length) :
    Lands ahead (lineOfField s i g.line g.second * 3) (inp s i) (inp (landSeg s i ahead g) i) := by
  unfold landSeg
  extract_lets line t x cover u
  have hx : x = inp s i := inp_of_inps (storePart_inps ..)
  have hu : inp u i = if ahead then { x with coverNext := Store.put (fun _ => 0) x.coverNext line cover }
      else { x with cover := Store.put (fun _ => 0) x.cover line cover } := setInp_inp_same _ _ _
  have hcover : 2 * s.getF (Reg.inpGeom i) 13 0 ≤ cover := by
    unfold cover
    rw [hx]
    exact h
  rw [if_pos hcover]
  obtain ⟨hland, hother, hseen, hdown⟩ := markLanded_lands u i ahead line 0
  rw [hu, hx] at hother hseen hdown
  cases ahead <;> exact ⟨hland, hother, hseen, hdown⟩

/-- The first copy of a sequence number is noted and used. -/
theorem mergeSeq_of_new {seq : BitVec 32} (pathB : Bool) (h : (inp s i).seen.find? (fun e => decide (e.1 = seq)) = none) :
    ∃ seen gaps, mergeSeq s i pathB seq = (setInp s i { inp s i with seen := seen, gaps := gaps }, true) ∧
      seen.any (fun e => decide (e.1 = seq)) = true := by
  simp only [mergeSeq, h]
  refine ⟨_, _, rfl, ?_⟩
  cases (inp s i).seen with
  | nil => simp
  | cons e l =>
    by_cases hlater : 0 < (seq - e.1).toInt
    · simp [-BitVec.toInt_sub, hlater]
    · simp [-BitVec.toInt_sub, hlater]

end Copy

section Landing
variable {s : State} {i : Nat} {pathB : Bool} {seq rtp : BitVec 32} {len fifo : Nat}

/-- A new copy that passes the meter of an enabled path of a receiving network input, with room in the port FIFO. -/
structure GreenCopy (s : State) (i : Nat) (pathB : Bool) (seq : BitVec 32) (len fifo : Nat) : Prop where
  receives : inReceives s i = true
  kind : inKind s i = 3
  path : inPath s i pathB = true
  green : (meter (pathUp s i pathB) i pathB len).1 = .green
  room : fifo < 4 * 2 ^ 20
  new : (inp s i).seen.find? (fun e => decide (e.1 = seq)) = none

theorem st2110Packet_of_red {segs : List SrdSeg} (hr : inReceives s i = true) (hk : inKind s i = 3) (hp : inPath s i pathB = true)
    (hc : (meter (pathUp s i pathB) i pathB len).1 = .red) : st2110Packet s i pathB seq rtp segs len fifo =
      ((metered s i pathB len).wrapAdd (Reg.inpRed i (if pathB then 1 else 0)) 1).evt (Pg.inp i) 4 := by
  simp [st2110Packet, hr, hk, hp, meter_of_colour s i pathB len hc, meterDrop]

theorem GreenCopy.st2110Packet_eq (h : GreenCopy s i pathB seq len fifo) (segs : List SrdSeg) :
    st2110Packet s i pathB seq rtp segs len fifo = landCopy (metered s i pathB len) i pathB seq rtp segs := by
  have hroom : ¬ 4194304 ≤ fifo := Nat.not_le.2 h.room
  simp [st2110Packet, h.receives, h.kind, h.path, meter_of_colour s i pathB len h.green, meterDrop, hroom]

theorem GreenCopy.new_metered (h : GreenCopy s i pathB seq len fifo) :
    (inp (metered s i pathB len) i).seen.find? (fun e => decide (e.1 = seq)) = none := by
  obtain ⟨m, hm⟩ := inp_metered s i pathB len
  rw [hm]
  exact h.new

/-- A copy of no frame known only has its sequence number seen. -/
theorem landCopy_of_no_frame {segs : List SrdSeg} (hf : frameFor s i rtp = none) :
    landCopy s i pathB seq rtp segs = (mergeSeq s i pathB seq).1 := by
  simp only [landCopy, hf]

theorem landCopy_of_segment {g : SrdSeg} {ahead : Bool} (hf : frameFor s i rtp = some ahead)
    (ht : segTiming s i ahead g = .inTime) (hfirst : (mergeSeq s i pathB seq).2 = true) :
    landCopy s i pathB seq rtp [g] = landSeg (mergeSeq s i pathB seq).1 i ahead g := by
  simp [landCopy, hf, ht, hfirst]

/-- A state after the packet's copy is noted: its sequence number is seen and its path up, and no line part has landed yet. -/
structure CopyNoted (s : State) (i : Nat) (pathB : Bool) (seq : BitVec 32) (u : State) : Prop where
  timing : SameTiming i s u
  landed : (inp u i).landed = (inp s i).landed
  early : (inp u i).early = (inp s i).early
  cover : (inp u i).cover = (inp s i).cover
  coverNext : (inp u i).coverNext = (inp s i).coverNext
  raw : u.ing.raw = s.ing.raw
  seen : (inp u i).seen.any (fun e => decide (e.1 = seq)) = true
  up : inDown (inp u i) pathB = false

theorem GreenCopy.noted (h : GreenCopy s i pathB seq len fifo) :
    ∃ u, mergeSeq (metered s i pathB len) i pathB seq = (u, true) ∧ CopyNoted s i pathB seq u := by
  obtain ⟨m, hm⟩ := inp_metered s i pathB len
  obtain ⟨seen, gaps, hmerge, hseen⟩ := mergeSeq_of_new (metered s i pathB len) i pathB h.new_metered
  refine ⟨_, hmerge, (metered_sameTiming s i pathB len).trans (.of_setInp _ rfl), ?_, ?_, ?_, ?_, metered_raw s i pathB len, ?_, ?_⟩
  all_goals rw [setInp_inp_same]
  · rw [hm]; rfl
  · rw [hm]; rfl
  · rw [hm]; rfl
  · rw [hm]; rfl
  · exact hseen
  · rw [hm]; exact inDown_deliveredOn pathB (inp s i)

theorem GreenCopy.of_no_frame (h : GreenCopy s i pathB seq len fifo) (hi : i < 128) (hf : frameFor s i rtp = none)
    (segs : List SrdSeg) : CopyNoted s i pathB seq (st2110Packet s i pathB seq rtp segs len fifo) := by
  obtain ⟨u, hmerge, hu⟩ := h.noted
  rw [h.st2110Packet_eq, landCopy_of_no_frame (((metered_sameTiming s i pathB len).frameFor_eq hi rtp).trans hf), hmerge]
  exact hu

/-- A copy whose one segment completes its line in time has the line land for the copy's frame. -/
theorem GreenCopy.lands (h : GreenCopy s i pathB seq len fifo) (hi : i < 128) {g : SrdSeg} {ahead : Bool}
    (hf : frameFor s i rtp = some ahead) (ht : segTiming s i ahead g = .inTime)
    (hc : 2 * s.getF (Reg.inpGeom i) 13 0 ≤ Store.get (fun _ => 0) (if ahead then (inp s i).coverNext else (inp s i).cover)
      (lineOfField s i g.line g.second) + g.samples.length) :
    ∃ u, CopyNoted s i pathB seq u ∧ Lands ahead (lineOfField s i g.line g.second * 3) (inp u i)
      (inp (st2110Packet s i pathB seq rtp [g] len fifo) i) := by
  obtain ⟨u, hmerge, hu⟩ := h.noted
  have hsame := metered_sameTiming s i pathB len
  have hland := landSeg_lands u i ahead g
  rw [hu.timing.geom_eq hi, hu.timing.lineOfField_eq hi, hu.cover, hu.coverNext] at hland
  refine ⟨u, hu, ?_⟩
  rw [h.st2110Packet_eq, landCopy_of_segment ((hsame.frameFor_eq hi rtp).trans hf) ((hsame.segTiming_eq hi ahead g).trans ht)
    (by rw [hmerge]), hmerge]
  exact hland hc

end Landing

/-! ### A path without a packet (R210) -/

section Silent
variable {s : State} {i : Nat} {pathB : Bool}

theorem ingestPathDown_of_silent (hin : inSt s i ≠ 0) (hk : inKind s i = 3) (hp : inPath s i pathB = true)
    (hup : inDown (inp s i) pathB = false) (ha : (if pathB then (inp s i).arrived.2 else (inp s i).arrived.1) = false) :
    ingestPathDown s i pathB = ((setInp s i { inp s i with
      down := if pathB then ((inp s i).down.1, true) else (true, (inp s i).down.2) }).evt (Pg.inp i) 7).raise 0x4005 (Pg.inp i) i
        (if pathB then 1 else 0) := by
  simp [ingestPathDown, hin, hk, hp, hup, ha]

end Silent

/-! ### The part is counted (R211) -/

section MissingPart
variable {s : State} {i line half : Nat}

theorem reg_linePassed {a : Nat} (h1 : a ≠ Reg.ptpMapLo) (h2 : a ≠ Reg.ptpMapHi) (h3 : a ≠ Reg.stpHoldFrames) :
    (linePassed s i line).reg a = s.reg a := by
  unfold linePassed
  split
  · exact reg_toPos _ _ _ h1 h2 h3
  · rfl

theorem reg_partRepeated (a : Nat) : (partRepeated s i line half).reg a = (linePassed s i line).reg a :=
  congrArg (Store.get resetVal · a)
    ((modInp_changes rfl (repeatRead_changes rfl (.refl [.ing, .hbm] (linePassed s i line)) i line half) i _).same .regs (by decide))

theorem inp_partRepeated : ∃ y run p, inp (partRepeated s i line half) i = notedMissing line half run p y :=
  ⟨_, _, _, modInp_inp_same _⟩

theorem inp_countSeqLost (s : State) (i : Nat) : ∃ gaps, inp (countSeqLost s i) i = { inp s i with gaps := gaps } := by
  unfold countSeqLost
  split
  · exact ⟨[], (inp_of_ing (wrapAdd_ing ..)).trans (modInp_inp_same _)⟩
  · exact ⟨_, rfl⟩

theorem reg_countSeqLost_other (s : State) {i a : Nat} (h : a ≠ Reg.inpSeqLost i) : (countSeqLost s i).reg a = s.reg a := by
  unfold countSeqLost
  split
  · exact reg_setReg_other _ _ h
  · rfl

end MissingPart

/-! ### Loss (R212) -/

section Loss
variable {s : State} {i cause : Nat}

/-- A loss leaves its STATE and repeats line parts before it sets its event and raises its fault. -/
theorem declareLost_of_receiving (h : inSt s i = 1 ∨ inSt s i = 2) : ∃ u, Changes [.ing] (setInState s i 3 1 cause) u ∧
    declareLost s i cause = (u.evt (Pg.inp i) 0).raise 0x4004 (Pg.inp i) i (u.reg (Reg.inpState i)).toNat := by
  have h0 : inSt s i ≠ 0 := by omega
  have h3 : inSt s i ≠ 3 := by omega
  unfold declareLost
  rw [if_neg h0, if_neg h3]
  extract_lets t lost begun frozen
  refine ⟨frozen, ?_, rfl⟩
  exact Changes.foldl (fun x k hx => repeatPart_changes rfl hx i (k / 3) (k % 3)) (modInp_changes rfl (.refl _ _) _ _)

/-- A loss of a line that is not the frame's last takes effect where it is reached. -/
theorem inputLost_of_run (hrun : s.getF (Reg.inpLoss i) 29 16 ≤ (inp s i).missRun)
    (hline : (inp s i).missLine.all (fun l => !(lastActive s i l)) = true) :
    inputLost s i .noSignal = declareLost s i (if inBundleDown s i then 1 else 3) := by
  simp only [inputLost, hrun, if_true]
  split
  · next l f hl _ =>
    have hlast : lastActive s i l = false := by simpa [hl] using hline
    simp [hlast]
  · rfl

end Loss

/-- What an input that becomes LOST shows. -/
structure LostFrom (s : State) (i cause : Nat) (t : State) : Prop where
  st : inSt t i = 3
  out : inOut t i = 1
  cause : inCause t i = cause
  event : t.bit (Pg.inp i + hEvt) 0 = true
  faults : t.faults = s.faults ++ [⟨0x4004, 0x1420 + i, i, (t.reg (Reg.inpState i)).toNat, s.stp.timeNs⟩]
  regs : SameRegsBut [Reg.inpState i, Pg.inp i + hEvt] s t

theorem declareLost_lostFrom {s : State} {i cause : Nat} (h : inSt s i = 1 ∨ inSt s i = 2) (hc : cause < 8) :
    LostFrom s i cause (declareLost s i cause) := by
  obtain ⟨u, hu, heq⟩ := declareLost_of_receiving (cause := cause) h
  have hchanges : Changes [.regs, .ing] s u := (setInState_changes rfl (.refl _ s) _ _ _ _).trans (hu.mono rfl)
  have hureg (a : Nat) : u.reg a = (setInState s i 3 1 cause).reg a := congrArg (Store.get resetVal · a) (hu.same .regs (by decide))
  have hstate : (declareLost s i cause).reg (Reg.inpState i) = (setInState s i 3 1 cause).reg (Reg.inpState i) := by
    rw [heq, reg_raise, reg_evt_other _ (inpState_ne_evt i), hureg]
  have hfield (hi lo : Nat) : (declareLost s i cause).getF (Reg.inpState i) hi lo =
      (setInState s i 3 1 cause).getF (Reg.inpState i) hi lo := by rw [getF, getF, hstate]
  refine ⟨(hfield 1 0).trans (inSt_setInState s i (by omega)), (hfield 5 4).trans (inOut_setInState s i (by omega) (by omega)),
    (hfield 10 8).trans (inCause_setInState s i (by omega) (by omega) hc), ?event, ?faults, ?regs⟩
  case event =>
    rw [heq]
    exact bit_evt_same _ (by omega) _
  case faults =>
    rw [hstate, ← hureg, heq, raise, evt_faults, evt_stp, hchanges.same .faults (by decide), hchanges.same .stp (by decide),
      inp_pageIndex]
  case regs =>
    intro a ha
    simp only [List.mem_cons, List.not_mem_nil, or_false, not_or] at ha
    rw [heq, reg_raise, reg_evt_other _ ha.2, hureg, reg_setInState_other _ _ ha.1]

/-! ### Freeze and return (R212, R214) -/

section Freeze
variable {s : State} {i : Nat}

theorem toPos_inFrame {s : State} (f : BitVec 32) (h : s.inFrame = 0) : (s.toPos (State.posOf f 0)).inFrame = 0 := by
  have hpos : (State.posOf f 0).setWidth 32 = (0 : BitVec 32) := by
    rw [State.posOf, BitVec.setWidth_append]
    simp
  unfold toPos
  split
  · exact h
  · extract_lets k
    split
    · exact inFrame_of_pos (setPos_pos ..) (by omega)
    · rw [hpos]
      exact enterFrame_inFrame _ _

/-- The frame start at which a freeze ends. -/
def freezeEnd (s : State) (i : Nat) : State :=
  s.toFrameStart.toPos (State.posOf ((inp s i).lostAt + 1 + BitVec.ofNat 32 (s.getF (Reg.inpLoss i) 15 8 * inputDiv s i)) 0)

/-- OUTPUT after a freeze by LOSS.MODE (R212). -/
def outAfterFreeze (mode : Nat) : Nat := if mode = 1 then 2 else if mode = 2 then 3 else 1

theorem outAfterFreeze_lt (mode : Nat) : outAfterFreeze mode < 4 := by
  unfold outAfterFreeze
  split_ifs <;> omega

theorem freezeExpired_of_lost (hr : s.running = true) (h3 : inSt s i = 3) : freezeExpired s i =
    setInState (freezeEnd s i) i 3 (outAfterFreeze (s.getF (Reg.inpLoss i) 1 0)) (inCause s i) := by
  simp only [freezeExpired, hr, h3, ne_eq, not_true_eq_false, decide_false, Bool.not_true, Bool.or_self, Bool.false_eq_true, if_false]
  rfl

theorem freezeEnd_inFrame (hr : s.running = true) : (freezeEnd s i).inFrame = 0 := toPos_inFrame _ (toFrameStart_inFrame s hr)

/-- A clean frame returns a lost input at the frame start where Steeple stands. -/
theorem inputReturned_of_lost (hr : s.running = true) (h0 : s.inFrame = 0) (h3 : inSt s i = 3)
    (hclean : inUse s i = false ∨ ((inp s i).startAt = some s.frame ∧ (inp s i).wasClean = true)) (hm : mayReturn s i = true) :
    inputReturned s i = (setInp (setInState s i 2 0 0) i
      { inp s i with fmtLoss := false, missRun := 0, missLine := none }).evt (Pg.inp i) 1 := by
  have hstart : s.toFrameStart = s := if_pos (by simp [h0])
  have huse : (if inUse s i then (if (inp s i).startAt = some s.frame then (inp s i).wasClean else (inp s i).clean) else true) = true := by
    obtain h | ⟨h, h'⟩ := hclean
    · simp [h]
    · simp [h, h']
  simp only [inputReturned, hstart, huse, hr, h3, hm, decide_true, or_true, Bool.and_self, if_true]

end Freeze

/-- Settles O25: a packet by its colour, its frame and its segment; a path, a part, a loss, a freeze and a return by the state each
leaves. -/
theorem networkVideoAndInputLoss : Obligations.NetworkVideoAndInputLoss := by
  unfold Obligations.NetworkVideoAndInputLoss
  refine ⟨fun i pathB seq rtp g len fifo line s hr hk hp hg hroom hline hnew hf ht hc => ⟨_, rfl, ?inProgress⟩,
    fun i pathB seq rtp g len fifo line s hr hk hp hg hroom hline hnew hf ht hc => ⟨_, rfl, ?nextFrame⟩,
    fun i pathB seq rtp segs len fifo s hr hk hp hg hroom hnew hf => ⟨_, rfl, ?noFrame⟩,
    fun i pathB seq rtp segs len fifo s hr hk hp hc => ⟨_, rfl, ?red⟩,
    fun i len s => meterPacket_colour ..,
    fun i pathB s hin hk hp hup ha => ⟨_, rfl, ?pathDown⟩,
    fun i line half s hr hin hact hpart hland hmiss => ⟨_, rfl, ?missing⟩,
    fun i s hin hrun hline => ⟨_, rfl, ?lost⟩,
    fun i s hr h3 => ⟨_, rfl, ?freeze⟩,
    fun i s hr h0 h3 hclean hm => ⟨_, rfl, ?returned⟩⟩
  case inProgress =>
    subst hline
    have hcopy : GreenCopy s i pathB seq len fifo := ⟨hr, hk, hp, hg, hroom, hnew⟩
    obtain ⟨u, hu, h⟩ := hcopy.lands i.isLt hf ht hc
    exact ⟨h.landed, h.other.trans hu.early, h.seen ▸ hu.seen, (h.inDown_eq pathB).trans hu.up⟩
  case nextFrame =>
    subst hline
    have hcopy : GreenCopy s i pathB seq len fifo := ⟨hr, hk, hp, hg, hroom, hnew⟩
    obtain ⟨u, hu, h⟩ := hcopy.lands i.isLt hf ht hc
    exact ⟨h.landed, h.other.trans hu.landed, h.seen ▸ hu.seen, (h.inDown_eq pathB).trans hu.up⟩
  case noFrame =>
    have hcopy : GreenCopy s i pathB seq len fifo := ⟨hr, hk, hp, hg, hroom, hnew⟩
    have h := hcopy.of_no_frame (rtp := rtp) i.isLt hf segs
    exact ⟨h.landed, h.early, h.raw, h.seen, h.up⟩
  case red =>
    obtain ⟨m, hm⟩ := inp_metered s i pathB len
    have hing := (evt_ing _ (Pg.inp i) 4).trans (wrapAdd_ing (metered s i pathB len) (Reg.inpRed i (if pathB then 1 else 0)) 1)
    rw [st2110Packet_of_red hr hk hp hc, inp_of_ing hing, hm, hing]
    exact ⟨rfl, rfl, bit_evt_same _ (by omega) _, metered_raw s i pathB len⟩
  case pathDown =>
    rw [ingestPathDown_of_silent hin hk hp hup ha]
    refine ⟨?_, bit_evt_same _ (by omega) _, fun a h => reg_evt_other _ (by simpa using h), ?_⟩
    · rw [inp_of_ing ((raise_ing ..).trans (evt_ing ..)), setInp_inp_same]
      cases pathB <;> rfl
    · rw [raise, evt_faults, evt_stp, inp_pageIndex]
      rfl
  case missing =>
    rw [lineMissing_of_due hr hin hact hpart hland hmiss]
    obtain ⟨gaps, hgaps⟩ := inp_countSeqLost (((partRepeated s i line half).inc32 (Reg.inpRepeats i)).evt (Pg.inp i) 2) i
    obtain ⟨y, run, p, hy⟩ := inp_partRepeated (s := s) (i := i) (line := line) (half := half)
    have hinp := hgaps
    rw [inp_of_ing ((evt_ing ..).trans (inc32_ing ..)), hy] at hinp
    refine ⟨?_, congrArg Inp.clean hinp, congrArg Inp.missLine hinp, fun hmax => ?_⟩
    · rw [bit, reg_countSeqLost_other _ (by simp only [Pg.inp, hEvt, Reg.inpSeqLost]; omega)]
      exact bit_evt_same _ (by omega) _
    · have hreg : (partRepeated s i line half).reg (Reg.inpRepeats i) = s.reg (Reg.inpRepeats i) := by
        rw [reg_partRepeated, reg_linePassed]
        all_goals simp only [Reg.inpRepeats, Reg.ptpMapLo, Reg.ptpMapHi, Reg.stpHoldFrames]; omega
      rw [reg_countSeqLost_other _ (by simp only [Reg.inpRepeats, Reg.inpSeqLost]; omega),
        reg_evt_other _ (by simp only [Reg.inpRepeats, Pg.inp, hEvt]; omega), reg_inc32 _ _ (by rwa [hreg]), hreg]
  case lost =>
    rw [inputLost_of_run hrun hline]
    obtain ⟨hst, hout, hcause, hevent, hfaults, hregs⟩ := declareLost_lostFrom hin (cause := if inBundleDown s i then 1 else 3)
      (by split <;> omega)
    exact ⟨hst, hout, hcause, hevent, hfaults, hregs⟩
  case freeze =>
    rw [freezeExpired_of_lost hr h3]
    refine ⟨?_, inSt_setInState _ _ (by omega), inCause_setInState _ _ (by omega) (outAfterFreeze_lt _) (inCause_lt s i),
      inOut_setInState _ _ (by omega) (outAfterFreeze_lt _)⟩
    rw [inFrame, (setInState_changes rfl (.refl [.regs] _) _ _ _ _).same .stp (by decide)]
    exact freezeEnd_inFrame hr
  case returned =>
    rw [inputReturned_of_lost hr h0 h3 hclean hm]
    have hfield (hi lo : Nat) : ((setInp (setInState s i 2 0 0) i
        { inp s i with fmtLoss := false, missRun := 0, missLine := none }).evt (Pg.inp i) 1).getF (Reg.inpState i) hi lo =
        (setInState s i 2 0 0).getF (Reg.inpState i) hi lo := by
      rw [getF, reg_evt_other _ (inpState_ne_evt i)]
      rfl
    refine ⟨(hfield 1 0).trans (inSt_setInState _ _ (by omega)), (hfield 5 4).trans (inOut_setInState _ _ (by omega) (by omega)),
      bit_evt_same _ (by omega) _, ?_, ?_⟩
    all_goals rw [inp_of_ing (evt_ing ..), setInp_inp_same]

end Sys2Proof.Machine
end

section
/-! Proof of AudioSourcesFillTheirFifos: a sample with room joins its FIFO, the grid starts, a master or its block sync is lost, and a
network packet keeps its samples at their instants. -/

namespace Sys2Proof.Machine

open State

/-! ### FIFOs and inputs -/

section Fifo
variable {s t : State} {k i : Nat}

theorem asrc_of_aud (h : t.aud = s.aud) : asrc t k = asrc s k := by rw [asrc, asrc, h]
theorem ain_of_aud (h : t.aud = s.aud) : ain t i = ain s i := by rw [ain, ain, h]

theorem ain_setAsrc (x : ASrc) : ain (setAsrc s k x) i = ain s i := rfl
theorem asrc_setAin (x : AIn) : asrc (setAin s i x) k = asrc s k := rfl

theorem pushSample_of_room {v : BitVec 24} {valid u : Bool} {stamp : Int} (h : (asrc s k).fifo.length < 64) :
    pushSample s k v valid u stamp = setAsrc s k { asrc s k with fifo := (asrc s k).fifo ++ [⟨v, valid, u, stamp⟩] } := by
  rw [pushSample, if_pos h]

end Fifo

/-! ### The grid starts (R260) -/

/-- Audio at ENABLE: the grid stands at the present sample, and no source holds any. -/
def gridStarted (s : State) : AudSt :=
  { s.aud with grid := s.ptpTime s.stp.pos s.audFs, grids := [], srcs := [], ins := [], seqs := [], pes := [], pkts := []
               integ := 0, lost := false }

theorem audEnable_of_disabled {s : State} (ha : s.answers Pg.aud = true) (he : s.enabled Pg.aud = false) : audEnable s =
    { (s.activate Pg.aud).setN Reg.audPllStat (if masterMode s then 1 else 0) with aud := gridStarted s } := by
  have haud : ((s.activate Pg.aud).setN Reg.audPllStat (if masterMode s then 1 else 0)).aud = s.aud := by rw [setN_aud, activate_aud]
  simp only [audEnable, gridStarted, ha, he, haud, Bool.not_true, Bool.or_self, Bool.false_eq_true, if_false]

theorem reg_with_aud (s : State) (x : AudSt) (a : Nat) : { s with aud := x }.reg a = s.reg a := rfl

theorem reg_audEnable_of_disabled {s : State} (ha : s.answers Pg.aud = true) (he : s.enabled Pg.aud = false) (a : Nat) :
    (audEnable s).reg a = if a = Reg.audPllStat then BitVec.ofNat 32 (if masterMode s then 1 else 0) else (s.activate Pg.aud).reg a := by
  rw [audEnable_of_disabled ha he, reg_with_aud, reg_setN]

/-! ### CLP audio (R201, R268) -/

section Clp
variable {s : State} {i : Nat} {w : Word}

/-- A packet of one frame of one channel is its sample frame. -/
theorem audioPacket_of_word {word : Word} (he : s.enabled Pg.aud = true) (hr : inReceives s i = true) (hc : fld word 11 8 = 0)
    (hf : fld word 7 0 = 1) : audioPacket s i word ([w].map BitVec.toNat) =
      clpAudioFrame s i (!decide (fld word 13 12 = s.getF Reg.audCfg 0 0)) [w] := by
  simp [audioPacket, he, hr, hc, hf, chunks]

/-- A CLP input's rate and block after a sample frame, by its RATE and whether a block begins in it. -/
def rateNoted (bad z : Bool) (x : AIn) : AIn :=
  { x with rateBad := bad || (x.rateBad && !(z && x.seenZ && x.clean)), clean := !bad && (z || x.clean)
           seenZ := (x.seenZ || z) && !bad }

/-- A word in the middle of a block joins its source's FIFO. -/
theorem clpAudioFrame_of_good (hb : (ain s (16 + i)).rateBad = false) (hz : w.getLsbD 28 = false)
    (hk : (boundSrcs s).contains (srcId 3 i 0) = true) (hu : (asrc s (srcId 3 i 0)).under = false) :
    clpAudioFrame s i false [w] = pushSample (setAin s (16 + i) (rateNoted false false (ain s (16 + i)))) (srcId 3 i 0)
      (w.setWidth 24) (!(w.getLsbD 24)) (w.getLsbD 25) 0 := by
  unfold clpAudioFrame
  extract_lets x z keys y t noted level slip slipped resumed
  have hz' : z = false := by simp only [z, List.any_cons, List.any_nil, hz, Bool.or_self]
  have hkeys : keys = [(0, srcId 3 i 0)] := by
    simp only [keys, List.length_singleton, List.range_one, List.map_cons, List.map_nil, List.filter_cons, hk, if_true, List.filter_nil]
  have hy : y = rateNoted false false (ain s (16 + i)) := by
    simp only [y, hz']
    rfl
  have hrate : y.rateBad = false := by simp [y, x, hb]
  have hresumed : resumed = t := by simp only [resumed, noted, hz', hrate, Bool.false_and, Bool.false_eq_true, if_false]
  have hunder : ¬ (asrc t (srcId 3 i 0)).under = true := Bool.eq_false_iff.1 hu
  rw [hrate, hkeys, hresumed, if_neg (by simp), List.foldl_cons, List.foldl_nil, if_neg hunder, ← hy]
  rfl

/-- A frame at another rate marks its input RATE_BAD and stores nothing. -/
theorem clpAudioFrame_of_bad {ws : List Word} (hb : (ain s (16 + i)).rateBad = false) : clpAudioFrame s i true ws =
    (setAin s (16 + i) (rateNoted true (ws.any (fun w => w.getLsbD 28)) (ain s (16 + i)))).evt Pg.aud 2 := by
  unfold clpAudioFrame
  extract_lets x z keys y t noted level slip slipped resumed
  have hrate : y.rateBad = true := rfl
  have hbefore : x.rateBad = false := hb
  simp only [resumed, noted, hrate, hbefore, Bool.not_true, Bool.and_false, Bool.not_false, Bool.and_self, Bool.false_eq_true, if_false,
    if_true]
  rfl

end Clp

/-! ### AES3 sub-frames (R262 to R264) -/

section Aes
variable {s : State} {i sub : Nat}

/-- A sub-frame of wrong parity is counted. -/
def parityCounted (s : State) (i : Nat) (parityOk : Bool) : State := if parityOk then s else s.inc32 (Reg.audInParity i)

theorem parityCounted_aud (parityOk : Bool) : (parityCounted s i parityOk).aud = s.aud := by
  unfold parityCounted
  split
  · rfl
  · exact inc32_aud _ _

/-- The sample of a sub-frame: the one received last stands in for one of wrong parity. -/
def aesValue (s : State) (i sub : Nat) (sample : BitVec 24) (parityOk : Bool) : BitVec 24 :=
  if parityOk then sample else (asrc s (srcId 1 i sub)).lastV

theorem aesSample_of_room {sample : BitVec 24} {v u parityOk : Bool} (hon : aesOn (ain s i) = true)
    (hu : (asrc s (srcId 1 i sub)).under = false) (hroom : (asrc s (srcId 1 i sub)).fifo.length < 64) :
    ∃ t, t.aud = s.aud ∧ t.regs = (parityCounted s i parityOk).regs ∧ aesSample s i sub sample v u parityOk =
      setAsrc (setAsrc t (srcId 1 i sub) { asrc s (srcId 1 i sub) with lastV := aesValue s i sub sample parityOk }) (srcId 1 i sub)
        { asrc s (srcId 1 i sub) with
          lastV := aesValue s i sub sample parityOk
          fifo := (asrc s (srcId 1 i sub)).fifo ++ [⟨aesValue s i sub sample parityOk, parityOk && !v, u, 0⟩] } := by
  have haud : (parityCounted s i parityOk).aud = s.aud := parityCounted_aud parityOk
  refine ⟨parityCounted s i parityOk, haud, rfl, ?_⟩
  have heq : aesSample s i sub sample v u parityOk = pushSample
      (setAsrc (parityCounted s i parityOk) (srcId 1 i sub) { asrc s (srcId 1 i sub) with lastV := aesValue s i sub sample parityOk })
      (srcId 1 i sub) (aesValue s i sub sample parityOk) (parityOk && !v) u 0 := by
    unfold aesSample
    extract_lets k val t x t'
    have ht : t' = setAsrc (parityCounted s i parityOk) (srcId 1 i sub)
        { asrc s (srcId 1 i sub) with lastV := aesValue s i sub sample parityOk } := by
      rw [← asrc_of_aud haud]
      rfl
    have hused : (aesOn (ain t' i) && !(asrc t' k).under) = true := by
      rw [ht, ain_setAsrc, ain_of_aud haud, hon, setAsrc_asrc_same, hu]
      rfl
    rw [if_pos hused, ht]
    rfl
  rw [heq, pushSample_of_room (by rw [setAsrc_asrc_same]; exact hroom), setAsrc_asrc_same]

/-- What a channel-status bit leaves: every FIFO and every input, and all registers but the input's status and its CRC errors. -/
structure KeepsSamples (i : Nat) (s t : State) : Prop where
  fifo : ∀ k, (asrc t k).fifo = (asrc s k).fifo
  ain : ∀ j, ain t j = ain s j
  reg : ∀ a, a ∉ [Reg.audInCsErr i, Reg.audInStat i, Pg.aud + hEvt] → t.reg a = s.reg a

theorem KeepsSamples.trans {t u : State} (h : KeepsSamples i s t) (h' : KeepsSamples i t u) : KeepsSamples i s u :=
  ⟨fun k => (h'.fifo k).trans (h.fifo k), fun j => (h'.ain j).trans (h.ain j), fun a ha => (h'.reg a ha).trans (h.reg a ha)⟩

theorem KeepsSamples.of_setAsrc (s : State) (i : Nat) {k : Nat} {x : ASrc} (h : x.fifo = (asrc s k).fifo) :
    KeepsSamples i s (setAsrc s k x) where
  fifo j := by
    by_cases hj : j = k
    · rw [hj, setAsrc_asrc_same, h]
    · rw [setAsrc_asrc_other _ _ hj]
  ain _ := rfl
  reg _ _ := rfl

theorem statusBlock_keepsSamples (s : State) (i sub : Nat) (l : List Bool) : KeepsSamples i s (statusBlock s i sub l) := by
  unfold statusBlock
  extract_lets b pro k
  split
  · have haud := (evt_aud (s.inc32 (Reg.audInCsErr i)) Pg.aud 5).trans (inc32_aud _ _)
    refine ⟨fun k => by rw [asrc_of_aud haud], fun j => ain_of_aud haud, fun a ha => ?_⟩
    simp only [List.mem_cons, List.not_mem_nil, or_false, not_or] at ha
    rw [reg_evt_other _ ha.2.2, reg_inc32_other _ ha.1]
  · have hsrc := KeepsSamples.of_setAsrc s i (k := k) (x := { asrc s k with csGood := b }) rfl
    refine hsrc.trans ⟨fun k => by rw [asrc_of_aud (setBit_aud ..)], fun j => ain_of_aud (setBit_aud ..), fun a ha => ?_⟩
    simp only [List.mem_cons, List.not_mem_nil, or_false, not_or] at ha
    exact reg_setBit_other _ _ _ ha.2.1

theorem statusBits_keepsSamples (s : State) (i sub : Nat) (z u c : Bool) : KeepsSamples i s (statusBits s i sub z u c) := by
  unfold statusBits
  extract_lets k x cs us t
  have ht : KeepsSamples i s t := .of_setAsrc s i rfl
  split
  · exact ht.trans (statusBlock_keepsSamples t i sub cs)
  · exact ht

theorem aes3Subframe_of_y {w : BitVec 28} {ppm : Int} (he : s.enabled Pg.aud = true) : aes3Subframe s i .y w false ppm =
    statusBits (aesSample s i 1 (w.setWidth 24) (w.getLsbD 24) (w.getLsbD 25) (aesParity w)) i 1
      (decide ((ain s i).sinceZ = 0) && (ain s i).seenZ) (w.getLsbD 25) (w.getLsbD 26) := by
  simp [aes3Subframe, he]

theorem aes3Subframe_of_glitch {pre : AesPreamble} {w : BitVec 28} {violation : Bool} {ppm : Int} (he : s.enabled Pg.aud = true)
    (h : violation = true ∨ pre = .missing) : aes3Subframe s i pre w violation ppm = aesGlitch s i := by
  have hglitch : (violation || decide (pre = .missing)) = true := by simpa using h
  simp only [aes3Subframe, he, hglitch, Bool.not_true, Bool.false_eq_true, if_false, if_true]

/-- An input whose block sync is lost. -/
def outOfSync (s : State) (i : Nat) : State :=
  (setAin s i { ain s i with lock := false, seenZ := false }).setBit (Reg.audInStat i) 0 false

theorem ain_outOfSync : (ain (outOfSync s i) i).lock = false := by
  rw [outOfSync, ain_of_aud (setBit_aud ..), setAin_ain_same]

theorem bit_outOfSync : (outOfSync s i).bit (Reg.audInStat i) 0 = false := bit_setBit_same _ _ _ (by omega)

theorem reg_outOfSync_other {a : Nat} (h : a ≠ Reg.audInStat i) : (outOfSync s i).reg a = s.reg a := reg_setBit_other _ _ _ h

theorem outOfSync_changes : Changes [.regs, .aud] s (outOfSync s i) :=
  setBit_changes rfl (setAin_changes rfl (.refl _ s) _ _) _ _ _

theorem aesGlitch_eq : aesGlitch s i = ((outOfSync s i).inc32 (Reg.audInGlitches i)).evt Pg.aud 4 := rfl

end Aes

/-! ### The master is lost (R270) -/

section Master
variable {s : State}

theorem masterInput_lt (s : State) : masterInput s < 16 := fld_lt _ _ _

theorem audioMasterLost_of_locked (he : s.enabled Pg.aud = true) (hm : s.bit Reg.audCfg 1 = true) (hl : s.aud.lost = false) :
    audioMasterLost s = masterLost (outOfSync s (masterInput s)) := by
  simp only [audioMasterLost, masterMode, he, hm, hl, Bool.not_true, Bool.or_self, Bool.false_eq_true, if_false]
  rfl

theorem reg_masterLost (s : State) (a : Nat) : (masterLost s).reg a =
    if a = Pg.aud + hEvt then putBit (s.reg a) 0 true else if a = Reg.audPllStat then setFld (s.reg a) 1 0 2 else s.reg a := by
  rw [masterLost, reg_raise, reg_evt, setPllSt, reg_setF, reg_setF]
  split
  · next h => rw [h, if_neg (by simp)]; rfl
  · split
    · next h => rw [h]; rfl
    · rfl

theorem masterLost_aud (s : State) : (masterLost s).aud = { s.aud with lost := true } := by
  rw [masterLost, raise_aud, evt_aud, setPllSt, setF_aud]

theorem masterLost_faults (s : State) : (masterLost s).faults =
    s.faults ++ [⟨0x6002, Pg.aud / 0x1000, masterInput s, 0, s.stp.timeNs⟩] := by
  rw [masterLost, raise, evt_faults, evt_stp, setPllSt, setF_faults, setF_stp]

end Master

/-! ### Network audio (R266, R267) -/

section Chunks
variable {α : Type}

theorem chunks_one (l : List α) : chunks 1 l.length l = l.map (fun a => [a]) := by
  induction l with
  | nil => rfl
  | cons a l ih => simp [chunks, ih]

theorem length_chunks {b : Nat} (hb : 0 < b) (f : Nat) : ∀ l : List α, l.length ≤ f → (chunks b f l).length = l.length / b := by
  induction f with
  | zero =>
    intro l hl
    rw [Nat.le_zero.1 hl, Nat.zero_div]
    rfl
  | succ f ih =>
    intro l hl
    rw [chunks]
    by_cases h : l.length < b
    · rw [if_pos (.inl h), Nat.div_eq_of_lt h]
      rfl
    · have hdiv : l.length / b = (l.length - b) / b + 1 := Nat.div_eq_sub_div hb (Nat.le_of_not_lt h)
      rw [if_neg (by omega), List.length_cons, ih _ (by rw [List.length_drop]; omega), List.length_drop, hdiv]

theorem length_audioSamples {b : Nat} (hb : 0 < b) (l : List (BitVec 8)) : (audioSamples b l).length = l.length / b := by
  rw [audioSamples, List.length_map, length_chunks hb _ _ le_rfl]

/-- A payload of a width holds whole samples of that width. -/
theorem audioWidth_spec {fs chans len b : Nat} (h : audioWidth fs chans len = some b) : 0 < b ∧ b ∣ len := by
  rw [audioWidth] at h
  have hmem : b ∈ [3, 2] := List.mem_of_find?_eq_some h
  have hlen : len = fs / 1000 * chans * b ∨ len = fs / 8000 * chans * b := by simpa using List.find?_some h
  refine ⟨?_, hlen.elim (fun e => ⟨_, e.trans (Nat.mul_comm ..)⟩) (fun e => ⟨_, e.trans (Nat.mul_comm ..)⟩)⟩
  simp only [List.mem_cons, List.not_mem_nil, or_false] at hmem
  omega

end Chunks

section Network
variable {s : State} {k : Nat}

/-- Only sources and sequence numbers of audio have changed: what is late is late as before. -/
structure KeepsLate (s t : State) : Prop where
  changes : Changes [.aud] s t
  late : lateFor t = lateFor s
  bound : boundSrcs t = boundSrcs s
  seqs : t.aud.seqs = s.aud.seqs

theorem KeepsLate.refl (s : State) : KeepsLate s s := ⟨.refl _ _, rfl, rfl, rfl⟩

theorem KeepsLate.trans {t u : State} (h : KeepsLate s t) (h' : KeepsLate t u) : KeepsLate s u :=
  ⟨h.changes.trans h'.changes, h'.late.trans h.late, h'.bound.trans h.bound, h'.seqs.trans h.seqs⟩

theorem KeepsLate.of_setAsrc (s : State) (k : Nat) (x : ASrc) : KeepsLate s (setAsrc s k x) :=
  ⟨setAsrc_changes rfl (.refl _ s) _ _, rfl, rfl, rfl⟩

/-- A sample in time is kept as its source's newest. -/
theorem networkSample_in_time {v : BitVec 24} {q : Int} (h : lateFor s k q = false) : networkSample s k v q =
    setAsrc s k { asrc s k with delay := ⟨v, true, false, q⟩ :: (asrc s k).delay.filter (fun a => decide (a.stamp ≠ q)) } := by
  rw [networkSample, if_neg (by simp [h])]

/-- Samples kept at consecutive instants from `q` on. -/
def samplesKept (k : Nat) (q : Int) (l : List (BitVec 24 × Nat)) (s : State) : State :=
  l.foldl (fun t e => networkSample t k e.1 (q + e.2)) s

theorem samplesKept_keepsLate {q : Int} (l : List (BitVec 24 × Nat)) (h : ∀ e ∈ l, lateFor s k (q + e.2) = false) :
    KeepsLate s (samplesKept k q l s) :=
  List.foldlRecOn (motive := KeepsLate s) _ _ (.refl s) fun t ht e he => by
    rw [networkSample_in_time ((congrFun (congrFun ht.late k) _).trans (h e he))]
    exact ht.trans (.of_setAsrc t k _)

/-- The sample kept last is the newest of its source. -/
theorem samplesKept_newest {q : Int} (l : List (BitVec 24 × Nat)) (v : BitVec 24) (n : Nat)
    (h : ∀ e ∈ l ++ [(v, n)], lateFor s k (q + e.2) = false) :
    (asrc (samplesKept k q (l ++ [(v, n)]) s) k).delay.head? = some ⟨v, true, false, q + n⟩ := by
  have hl := samplesKept_keepsLate l (fun e he => h e (List.mem_append_left _ he))
  have hlast : lateFor (samplesKept k q l s) k (q + n) = false :=
    (congrFun (congrFun hl.late k) _).trans (h (v, n) (by simp))
  have happend : samplesKept k q (l ++ [(v, n)]) s = networkSample (samplesKept k q l s) k v (q + n) := List.foldl_append ..
  rw [happend, networkSample_in_time hlast, setAsrc_asrc_same]
  rfl

end Network

/-! ### Decimated samples (R265) -/

theorem pdmSample_of_room {s : State} {m : Nat} {bits : BitVec 64} (he : s.enabled Pg.aud = true) (hm : s.bit Reg.audPdmCfg m = true)
    (hk : (boundSrcs s).contains (srcId 2 m 0) = true) (hroom : (asrc s (srcId 2 m 0)).fifo.length < 64) : pdmSample s m bits =
    setAsrc (setAsrc s (srcId 2 m 0) { asrc s (srcId 2 m 0) with filt := pdmFilter s m bits }) (srcId 2 m 0)
      { asrc s (srcId 2 m 0) with
        filt := pdmFilter s m bits
        fifo := (asrc s (srcId 2 m 0)).fifo ++ [⟨Config.pdmOut (pdmGain s m) (pdmFilter s m bits), true, false, (s.aud.grid : Int) - 40⟩] } := by
  have huse : (s.enabled Pg.aud && s.bit Reg.audPdmCfg m && (boundSrcs s).contains (srcId 2 m 0)) = true := by rw [he, hm, hk]; rfl
  unfold pdmSample
  extract_lets k t
  rw [if_pos huse, pushSample_of_room (by rw [setAsrc_asrc_same]; exact hroom), setAsrc_asrc_same]

/-! ### Packets of one channel (R266) -/

section Packet
variable {s : State} {f b : Nat} {pathB : Bool} {seq : BitVec 16} {rtp : BitVec 32} {payload : List (BitVec 8)}

/-- The samples of a payload with their places in it. -/
def placedSamples (b : Nat) (payload : List (BitVec 8)) : List (BitVec 24 × Nat) :=
  (audioSamples b payload).zip (List.range (audioSamples b payload).length)

/-- A flow's packet is noted by its sequence number. -/
def seqNoted (s : State) (f : Nat) (seq : BitVec 16) : State :=
  let seen := Store.get (fun _ => ([] : List (BitVec 16))) s.aud.seqs f
  { s with aud := { s.aud with seqs := Store.put (fun _ => ([] : List (BitVec 16))) s.aud.seqs f ((seq :: seen).take 4096) } }

theorem seqs_seqNoted : (Store.get (fun _ => ([] : List (BitVec 16))) (seqNoted s f seq).aud.seqs f).contains seq = true := by
  simp [seqNoted]

theorem seqNoted_changes : Changes [.aud] s (seqNoted s f seq) := .set_aud rfl (.refl _ s) _

theorem networkAudioPacket_of_seen (h : (Store.get (fun _ => ([] : List (BitVec 16))) s.aud.seqs f).contains seq = true) :
    networkAudioPacket s f pathB seq rtp payload = s := by
  simp only [networkAudioPacket, h, Bool.or_true, if_true]

/-- A new packet of one channel keeps its samples at consecutive instants. -/
theorem networkAudioPacket_of_mono (he : s.enabled Pg.aud = true)
    (hp : ((audFlow s f).getD 0 0).getLsbD (if pathB then 1 else 0) = true) (hw : audioWidth s.audFs 1 payload.length = some b)
    (hc : fld ((audFlow s f).getD 0 0) 9 3 = 1) (hn : (Store.get (fun _ => ([] : List (BitVec 16))) s.aud.seqs f).contains seq = false)
    (hk : (boundSrcs s).contains (srcId 4 f 0) = true) : networkAudioPacket s f pathB seq rtp payload =
    samplesKept (srcId 4 f 0) (rtpInstant s rtp ((audFlow s f).getD 6 0)) (placedSamples b payload) (seqNoted s f seq) := by
  have hused : (List.range 1).filter (fun c => (boundSrcs s).contains (srcId 4 f c)) = [0] := by
    rw [List.range_one, List.filter_singleton, hk]
    rfl
  unfold networkAudioPacket
  extract_lets e chans width samples seen noted t q0 frames
  have hchans : chans = 1 := hc
  have hwidth : width = some b := by rw [← hw, ← hchans]
  have hsamples : samples = audioSamples b payload := by simp only [samples, hwidth, Option.getD_some]
  have hframes : frames = samples.map (fun v => [v]) := by simp only [frames, hchans, chunks_one]
  have htaken : ¬ ((!(s.enabled Pg.aud) || !((e.getD 0 0).getLsbD (if pathB then 1 else 0)) || decide (chans = 0 ∨ width = none) ||
      seen.contains seq) = true) := by
    simp only [he, e, hp, hchans, hwidth, seen, hn]
    simp
  rw [if_neg htaken, hchans, hused, hframes, List.length_map, List.zip_map_left, List.foldl_map, hsamples]
  rfl

/-- A payload's last sample and its place. -/
theorem placedSamples_last (hb : 0 < b) (hd : b ∣ payload.length) (hl : 0 < payload.length) : ∃ l, placedSamples b payload =
    l ++ [((audioSamples b payload).getLastD 0, payload.length / b - 1)] := by
  have hlen := length_audioSamples hb payload
  have hpos : 0 < payload.length / b := Nat.div_pos (Nat.le_of_dvd hl hd) hb
  obtain hnil | ⟨l, v, hlast⟩ := (audioSamples b payload).eq_nil_or_concat'
  · rw [hnil] at hlen
    exact absurd hlen (Nat.ne_of_lt hpos)
  · rw [hlast, List.length_append, List.length_singleton] at hlen
    refine ⟨l.zip (List.range l.length), ?_⟩
    rw [placedSamples, hlast, ← hlen, List.length_append, List.length_singleton, List.range_succ, List.zip_append (by simp)]
    simp

theorem placedSamples_lt (hb : 0 < b) : ∀ e ∈ placedSamples b payload, e.2 < payload.length / b := fun e he => by
  have hmem := (List.of_mem_zip (a := e.1) (b := e.2) he).2
  rwa [List.mem_range, length_audioSamples hb] at hmem

end Packet

/-- Settles O33: a sample by the source it joins, ENABLE, a glitch and the loss of the master by the state each leaves. -/
theorem audioSourcesFillTheirFifos : Obligations.AudioSourcesFillTheirFifos := by
  unfold Obligations.AudioSourcesFillTheirFifos
  refine ⟨fun s ha he => ⟨_, rfl, ?enable⟩,
    fun i word w s he hr ⟨hc, hf⟩ hrate hb hz hk ⟨hu, hroom⟩ => ⟨_, rfl, ?clp⟩,
    fun i word w s he hr ⟨hc, hf⟩ hrate hb => ⟨_, rfl, ?clpRateBad⟩,
    fun i w ppm s he ⟨hlock, hrate⟩ ⟨hu, hroom⟩ => ⟨_, rfl, ?aes3⟩,
    fun i pre w violation ppm s he hbad => ⟨_, rfl, ?glitch⟩,
    fun s he hm hl => ⟨_, rfl, ?masterLost⟩,
    fun m v s he hm hk hroom => ⟨_, rfl, ?pdm⟩,
    fun f pathB seq rtp payload width s he hp hw hlen hc hn hk hlate => ⟨_, rfl, ?network⟩,
    fun f pathB seq rtp payload s hseen => ⟨_, rfl, networkAudioPacket_of_seen hseen⟩⟩
  case enable =>
    refine ⟨?_, ?_, by rw [audEnable_of_disabled ha he]; rfl, by rw [audEnable_of_disabled ha he]; rfl, ?_,
      (audEnable_changes rfl (.refl _ s)).same⟩
    · rw [enabled, bit, reg_audEnable_of_disabled ha he, if_neg (by decide)]
      exact enabled_activate ..
    · rw [bit, reg_audEnable_of_disabled ha he, if_neg (by decide)]
      exact bit_activate_status ..
    · rw [getF, reg_audEnable_of_disabled ha he, if_pos rfl, fld_ofNat _ (by omega) (by omega), masterMode]
      split <;> rfl
  case clp =>
    have hroom' : (asrc (setAin s (16 + i) (rateNoted false false (ain s (16 + i)))) (srcId 3 i 0)).fifo.length < 64 := hroom
    rw [audioPacket_of_word he hr hc hf, decide_eq_true hrate, Bool.not_true, clpAudioFrame_of_good hb hz hk hu,
      pushSample_of_room hroom']
    refine ⟨?_, (setAsrc_changes rfl (setAin_changes rfl (.refl [.aud] s) _ _) _ _).same⟩
    rw [setAsrc_asrc_same]
    rfl
  case clpRateBad =>
    rw [audioPacket_of_word he hr hc hf, decide_eq_false hrate, Bool.not_false, clpAudioFrame_of_bad hb]
    refine ⟨?_, bit_evt_same _ (by omega) _, by rw [evt_aud]; rfl, fun a h => reg_evt_other _ (by simpa using h)⟩
    rw [ain_of_aud (evt_aud ..), setAin_ain_same]
    rfl
  case aes3 =>
    have hsame := (statusBits_changes (L := [.regs, .aud]) rfl
      (aesSample_changes rfl (.refl _ s) i 1 (w.setWidth 24) (w.getLsbD 24) (w.getLsbD 25) (aesParity w)) i 1
      (decide ((ain s i).sinceZ = 0) && (ain s i).seenZ) (w.getLsbD 25) (w.getLsbD 26)).same
    have hon : aesOn (ain s i) = true := by rw [aesOn, hlock, hrate]; rfl
    obtain ⟨u, haud, hregs, hsample⟩ := aesSample_of_room (sample := w.setWidth 24) (v := w.getLsbD 24) (u := w.getLsbD 25)
      (parityOk := aesParity w) hon hu hroom
    rw [← aes3Subframe_of_y (ppm := ppm) he] at hsame
    rw [aes3Subframe_of_y he, hsample] at hsame ⊢
    obtain ⟨hfifo, hain, hreg⟩ := statusBits_keepsSamples (setAsrc (setAsrc u (srcId 1 i 1) _) (srcId 1 i 1) _) i 1
      (decide ((ain s i).sinceZ = 0) && (ain s i).seenZ) (w.getLsbD 25) (w.getLsbD 26)
    have hparity := (hreg (Reg.audInParity i) (by simp [Reg.audInParity, Reg.audInCsErr, Reg.audInStat, Pg.aud, hEvt]; omega)).trans
      (congrArg (Store.get resetVal · (Reg.audInParity i)) hregs)
    refine ⟨?_, fun h => ?_, fun h hmax => ?_, ?_, hsame⟩
    · rw [aesB, hfifo, setAsrc_asrc_same]
      rfl
    · rw [hparity, h]
      rfl
    · rw [hparity, h]
      exact reg_inc32 _ _ hmax
    · rw [hain, ain_setAsrc, ain_setAsrc, ain_of_aud haud]
  case glitch =>
    rw [aes3Subframe_of_glitch he hbad, aesGlitch_eq]
    have haud := (evt_aud ((outOfSync s i).inc32 (Reg.audInGlitches i)) Pg.aud 4).trans (inc32_aud _ _)
    have hcount : (outOfSync s i).reg (Reg.audInGlitches i) = s.reg (Reg.audInGlitches i) :=
      reg_outOfSync_other (by simp only [Reg.audInGlitches, Reg.audInStat]; omega)
    refine ⟨?_, ?_, bit_evt_same _ (by omega) _, ?_, fun hmax => ?_, fun a h => ?_⟩
    · rw [ain_of_aud haud, ain_outOfSync]
    · rw [bit, reg_evt_other _ (by simp only [Reg.audInStat, Pg.aud, hEvt]; omega),
        reg_inc32_other _ (by simp only [Reg.audInStat, Reg.audInGlitches]; omega)]
      exact bit_outOfSync
    · rw [haud, outOfSync, setBit_aud]
      rfl
    · rw [reg_evt_other _ (by simp only [Reg.audInGlitches, Pg.aud, hEvt]; omega), reg_inc32 _ _ (by rwa [hcount]), hcount]
    · simp only [List.mem_cons, List.not_mem_nil, or_false, not_or] at h
      obtain ⟨hstat, hglitches, hevent⟩ := h
      rw [reg_evt_other _ hevent, reg_inc32_other _ hglitches, reg_outOfSync_other hstat]
  case masterLost =>
    rw [audioMasterLost_of_locked he hm hl]
    have hlt := masterInput_lt s
    refine ⟨by rw [masterLost_aud], ?_, ?_, ?_, ?_⟩
    · rw [getF, reg_masterLost, if_neg (by decide), if_pos rfl]
      exact fld_setFld _ _ (by omega) (by omega)
    · rw [bit, reg_masterLost, if_pos rfl, getLsbD_putBit _ _ _ _ (by omega), if_pos rfl]
    · rw [bit, reg_masterLost, if_neg (by simp only [Reg.audInStat, Pg.aud, hEvt]; omega),
        if_neg (by simp only [Reg.audInStat, Reg.audPllStat]; omega)]
      exact bit_outOfSync
    · have hinput : masterInput (outOfSync s (masterInput s)) = masterInput s :=
        congrArg (fld · _ _) (reg_outOfSync_other (by simp only [Reg.audInStat, Reg.audCfg]; omega))
      rw [masterLost_faults, hinput, outOfSync_changes.same .faults (by decide), outOfSync_changes.same .stp (by decide)]
  case pdm =>
    have hsame := (pdmSample_changes (L := [.aud]) rfl (.refl _ s) m v).same
    rw [pdmSample_of_room he hm hk hroom] at hsame ⊢
    exact ⟨by rw [setAsrc_asrc_same], by rw [setAsrc_asrc_same], hsame⟩
  case network =>
    obtain ⟨hwpos, hdvd⟩ := audioWidth_spec hw
    obtain ⟨l, hl⟩ := placedSamples_last hwpos hdvd hlen
    have hintime : ∀ e ∈ placedSamples width payload, lateFor (seqNoted s f seq) (srcId 4 f 0)
        (rtpInstant s rtp ((audFlow s f).getD 6 0) + e.2) = false := fun e he => hlate e.2 (placedSamples_lt hwpos e he)
    have hcount : ((payload.length / width - 1 : Nat) : Int) = (payload.length / width : Nat) - 1 :=
      Int.ofNat_sub (Nat.div_pos (Nat.le_of_dvd hlen hdvd) hwpos)
    rw [networkAudioPacket_of_mono he hp hw hc hn hk]
    have hkeeps := samplesKept_keepsLate _ hintime
    refine ⟨?_, by rw [hkeeps.seqs]; exact seqs_seqNoted, (seqNoted_changes.trans hkeeps.changes).same⟩
    rw [hl] at hintime ⊢
    rw [samplesKept_newest l _ _ hintime, hcount]

end Sys2Proof.Machine
end

section
/-! Proof of EgressTableWindow: a run of writes at addresses of their own, what an access to the window leaves, and a flow context by its
words as a write of it stores them. -/

namespace Sys2Proof.Machine

open State

/-! ### A run of writes -/

/-- A run of writes to keys that differ pairwise leaves at each key what was written there. -/
theorem get_foldl_put {α : Type} [DecidableEq α] (d : Nat → α) {key : Nat → Nat} (hkey : key.Injective) (v : Nat → α) (k n : Nat)
    (m : Store α) : Store.get d ((List.range n).foldl (fun m i => Store.put d m (key i) (v i)) m) (key k) =
      if k < n then v k else Store.get d m (key k) := by
  induction n with
  | zero => rfl
  | succ n ih =>
    rw [List.range_succ, List.foldl_append, List.foldl_cons, List.foldl_nil, Store.get_put, ih]
    rcases Nat.lt_trichotomy k n with h | rfl | h
    · rw [if_neg (hkey.ne h.ne), if_pos h, if_pos (by omega)]
    · rw [if_pos rfl, if_pos (by omega)]
    · rw [if_neg (hkey.ne h.ne'), if_neg (by omega), if_neg (by omega)]

theorem reg_foldl_setReg (s : State) {addr : Nat → Nat} (haddr : addr.Injective) (v : Nat → Word) {k n : Nat} (h : k < n) :
    ((List.range n).foldl (fun t i => t.setReg (addr i) (v i)) s).reg (addr k) = v k := by
  have hregs : ((List.range n).foldl (fun t i => t.setReg (addr i) (v i)) s).regs =
      (List.range n).foldl (fun m i => Store.put resetVal m (addr i) (v i)) s.regs :=
    (List.foldl_hom State.regs fun _ _ => rfl).symm
  rw [reg, hregs, get_foldl_put resetVal haddr, if_pos h]

theorem reg_putData (s : State) (base : Nat) {k n : Nat} (l : List Word) (h : k < n) :
    (s.putData base n l).reg (base + 4 * k) = l.getD k 0 :=
  reg_foldl_setReg s (addr := fun i => base + 4 * i) (fun i j hij => by simpa using hij) (fun i => l.getD i 0) h

/-! ### What an access leaves (R224, R454) -/

section Access
variable (s : State)

theorem ctxMiss_etm : (ctxMiss s).etm = s.etm :=
  (ctxMiss_changes (L := [.regs]) rfl (.refl _ s)).same .etm (by decide)

theorem reg_ctxMiss_other {a : Nat} (h : a ≠ Reg.etmCtxMiss) : (ctxMiss s).reg a = s.reg a := by
  unfold ctxMiss draw
  dsimp only
  split
  · exact reg_inc32_other _ h
  · rfl

theorem flowCtx_ctxMiss (f : Nat) : flowCtx (ctxMiss s) f = flowCtx s f := by rw [flowCtx, flowCtx, ctxMiss_etm]

/-- A context reads the same after a miss of the cache. -/
theorem flowRead_ctxMiss (f : Nat) : flowRead (ctxMiss s) f = flowRead s f := by
  have hpkts (r : Nat) : (ctxMiss s).reg (Reg.erendPkts (r / 4) (r % 4)) = s.reg (Reg.erendPkts (r / 4) (r % 4)) :=
    reg_ctxMiss_other s (by simp only [Reg.erendPkts, Reg.etmCtxMiss]; omega)
  have hnext : flowNext (ctxMiss s) f = flowNext s f := by
    simp only [flowNext, flowQueue, flowCtx_ctxMiss, ctxMiss_etm, hpkts]
  rw [flowRead, flowRead, hnext, flowCtx_ctxMiss, ctxMiss_etm]

theorem etmErr_etm (code : Nat) : (etmErr s code).etm = s.etm := by rw [etmErr, evt_etm, setN_etm]

theorem reg_etmErr_stat (code : Nat) : (etmErr s code).reg Reg.etmTblStat = BitVec.ofNat 32 (3 + code * 0x10000) := by
  rw [etmErr, reg_evt_other _ (by simp), reg_setN_same]

theorem evt_etmErr (code : Nat) : (etmErr s code).bit (Pg.etm + hEvt) 4 = true := bit_evt_same _ (by omega) _

theorem etmErr_sameBut (code : Nat) : SameBut [.regs] s (etmErr s code) := (etmErr_changes rfl (.refl _ s) code).same

theorem reg_tblDone_same (stat : Nat) : (s.tblDone stat).reg stat = 1 := reg_setN_same _ _ _

theorem tblDone_etm (stat : Nat) : (s.tblDone stat).etm = s.etm := setN_etm _ _ _

theorem tblDone_sameRegsBut (stat : Nat) : SameRegsBut [stat] s (s.tblDone stat) := fun _ ha =>
  reg_setN_other _ _ (by simpa using ha)

end Access

/-! ### Reads (R240) -/

section Read
variable {s : State}

theorem etmIndex_lt (s : State) : etmIndex s < 1048576 := fld_lt _ _ _

/-- The state whose data registers show an entry: a context access may have missed the cache. -/
def etmReached (s : State) : State := if etmTable s = 0 then ctxMiss s else s

theorem etmEntry_etmReached (s : State) (i : Nat) : etmEntry (etmReached s) (etmTable s) i = etmEntry s (etmTable s) i := by
  unfold etmReached
  split
  · next h =>
    rw [h]
    exact flowRead_ctxMiss s i
  · rfl

theorem etmFill_of_named (hi : etmIndex s < etmTableSize (etmTable s)) (ho : etmOp s ≠ 3) : etmFill s =
    ((etmReached s).putData (Reg.etmTblData 0) 16 (etmEntry s (etmTable s) (etmIndex s))).tblDone Reg.etmTblStat := by
  rw [← etmEntry_etmReached]
  exact if_pos ⟨hi, ho⟩

theorem reg_etmFill_data (hi : etmIndex s < etmTableSize (etmTable s)) (ho : etmOp s ≠ 3) {k : Nat} (hk : k < 16) :
    (etmFill s).reg (Reg.etmTblData k) = (etmEntry s (etmTable s) (etmIndex s)).getD k 0 := by
  rw [etmFill_of_named hi ho, tblDone, reg_setN_other _ _ (by simp only [Reg.etmTblData, Reg.etmTblStat]; omega)]
  exact reg_putData _ _ _ hk

theorem reg_etmFill_stat (hi : etmIndex s < etmTableSize (etmTable s)) (ho : etmOp s ≠ 3) :
    (etmFill s).reg Reg.etmTblStat = 1 := by
  rw [etmFill_of_named hi ho, reg_tblDone_same]

theorem nodeEntry_etmFill (s : State) (i : Nat) : nodeEntry (etmFill s) i = nodeEntry s i := by
  rw [nodeEntry, (etmFill_changes rfl (.refl [.regs] s)).same .etm (by decide), nodeEntry]

theorem etmTableRead_of_read (ha : s.answers Pg.etm = true) (ho : etmOp s = 0) : etmTableRead s = etmFill s := by
  simp only [etmTableRead, ha, ho, Bool.not_true, Bool.false_or, Nat.reduceEqDiff, or_self, decide_false, Bool.false_eq_true, if_false]

theorem etmTableReadClr_of_node (ha : s.answers Pg.etm = true) (ho : etmOp s = 2) (ht : etmTable s = 1) (hi : etmIndex s < 4096) :
    etmTableReadClr s = setNodeWord (setNodeWord (etmFill s) (etmIndex s) 6 0) (etmIndex s) 7 0 := by
  simp only [etmTableReadClr, clearMarks, etmTableSize, ha, ho, ht, hi, Bool.not_true, Bool.false_or, ne_eq, not_true_eq_false,
    decide_false, Bool.false_eq_true, if_false, if_true]

/-- The two marks of a node, its last words, are cleared (R239). -/
theorem set_marks (l : List Word) (h : l.length = 8) : (l.set 6 0).set 7 0 = l.take 6 ++ [0, 0] := by
  match l, h with
  | [_, _, _, _, _, _, _, _], _ => rfl

end Read

/-! ### Writes (R226, R240) -/

/-- The data registers at GO. -/
def etmData (s : State) : List Word := (List.range 16).map (fun k => s.reg (Reg.etmTblData k))

theorem flowW_etmData (s : State) {k : Nat} (hk : k < 16) : flowW (etmData s) k = s.reg (Reg.etmTblData k) := by
  rw [flowW, etmData, List.getD_eq_getElem?_getD, List.getElem?_map, List.getElem?_range hk]
  rfl

theorem length_etmData (s : State) : 13 ≤ (etmData s).length := by rw [etmData, List.length_map, List.length_range]; omega

section Write
variable {s : State} (ha : s.answers Pg.etm = true) (ho : etmOp s = 1)
include ha ho

theorem etmTableWrite_of_beyond (hi : etmTableSize (etmTable s) ≤ etmIndex s) : etmTableWrite s = etmErr s 0x0115 := by
  simp only [etmTableWrite, ha, ho, hi, Bool.not_true, Bool.false_or, ne_eq, not_true_eq_false, decide_false, Bool.false_eq_true,
    if_false, if_true]

theorem etmTableWrite_of_flow (ht : etmTable s = 0) : etmTableWrite s = writeFlow (ctxMiss s) (etmIndex s) (etmData s) := by
  have hi : ¬ 1048576 ≤ etmIndex s := Nat.not_le.2 (etmIndex_lt s)
  simp only [etmTableWrite, etmTableSize, ha, ho, ht, hi, Bool.not_true, Bool.false_or, ne_eq, not_true_eq_false, decide_false,
    Bool.false_eq_true, if_false]
  rfl

theorem etmTableWrite_of_hop (ht : etmTable s = 3) (hi : etmIndex s < 4096) : etmTableWrite s =
    ({ s with etm := { s.etm with hops := Store.put (fun _ => words8) s.etm.hops (etmIndex s) ((etmData s).take 8) } } : State).tblDone
      Reg.etmTblStat := by
  have hi' : ¬ 4096 ≤ etmIndex s := Nat.not_le.2 hi
  simp only [etmTableWrite, etmTableSize, ha, ho, ht, hi', Bool.not_true, Bool.false_or, ne_eq, not_true_eq_false, decide_false,
    Bool.false_eq_true, if_false]
  rfl

end Write

/-! ### A flow's context as written (R226, R240) -/

section Flow
variable {s : State} {f : Nat} {l : List Word}

/-- The context that a write leaves: the state words are not the writer's. -/
def flowWritten (s : State) (f : Nat) (l : List Word) : List Word := l.take 13 ++ [0, 0, flowW (flowCtx s f) 15]

theorem flowW_flowWritten (hl : 13 ≤ l.length) {k : Nat} (hk : k < 13) : flowW (flowWritten s f l) k = flowW l k := by
  rw [flowW, flowW, flowWritten, List.getD_append _ _ _ _ (by rw [List.length_take]; omega), List.getD_eq_getElem?_getD,
    List.getElem?_take_of_lt hk, List.getD_eq_getElem?_getD]

theorem boundFields_flowWritten (hl : 13 ≤ l.length) : boundFields (flowWritten s f l) = boundFields l := by
  simp only [boundFields, flowRend, flowNode, flowW_flowWritten hl (show 8 < 13 by omega), flowW_flowWritten hl (show 11 < 13 by omega),
    flowW_flowWritten hl (show 12 < 13 by omega)]

theorem writeFlow_of_bound (hl : 13 ≤ l.length) (hen : flowEn (flowCtx s f) = true) (hb : boundFields (flowCtx s f) ≠ boundFields l) :
    writeFlow s f l = etmErr s 0x0801 := by
  have hb' : boundFields (flowCtx s f) ≠ boundFields (flowWritten s f l) := by rwa [boundFields_flowWritten hl]
  exact if_pos (Bool.and_eq_true_iff.2 ⟨hen, decide_eq_true hb'⟩)

theorem writeFlow_of_disabled (hl : 13 ≤ l.length) (hen : flowEn (flowCtx s f) = false) (hnew : flowEn l = false) : writeFlow s f l =
    (showFlows (setFlowCtx s f (flowWritten s f l)) (flowRend (flowWritten s f l))).tblDone Reg.etmTblStat := by
  have hnew' : flowEn (l.take 13 ++ [0, 0, flowW (flowCtx s f) 15]) = false :=
    (congrArg (·.getLsbD 27) (flowW_flowWritten (s := s) (f := f) hl (show 8 < 13 by omega))).trans hnew
  simp only [writeFlow, hen, hnew', Bool.false_and, Bool.false_eq_true, if_false]
  rfl

theorem flowCtx_showFlows (s : State) (r g : Nat) : flowCtx (showFlows s r) g = flowCtx s g := by
  rw [flowCtx, (showFlows_changes rfl (.refl [.regs] s) r).same .etm (by decide), flowCtx]

end Flow

/-- Settles O28: each access by its operation and its table. -/
theorem egressTableWindow : Obligations.EgressTableWindow := by
  unfold Obligations.EgressTableWindow
  refine ⟨fun s ha ho hi => ⟨_, rfl, ?read⟩, fun s ha ho ht hi hlen => ⟨_, rfl, ?readClr⟩, fun s ha ho ht hi => ⟨_, rfl, ?hop⟩,
    fun s ha ho ht hen hnew => ⟨_, rfl, ?flow⟩, fun s ha ho ht hen hb => ⟨_, rfl, ?bound⟩, fun s ha ho hi => ⟨_, rfl, ?range⟩⟩
  case read =>
    have h3 : etmOp s ≠ 3 := by omega
    rw [etmTableRead_of_read ha ho]
    exact ⟨fun k hk => reg_etmFill_data hi h3 hk, reg_etmFill_stat hi h3, (etmFill_changes rfl (.refl [.regs] s)).same⟩
  case readClr =>
    have h3 : etmOp s ≠ 3 := by omega
    have hi' : etmIndex s < etmTableSize (etmTable s) := by rwa [ht]
    have hsame := (etmTableReadClr_changes rfl (.refl [.regs, .etm] s)).same
    rw [etmTableReadClr_of_node ha ho ht hi] at hsame ⊢
    refine ⟨fun k hk hk3 => ?_, ?_, reg_etmFill_stat hi' h3, hsame⟩
    · refine (reg_etmFill_data hi' h3 (by omega)).trans ?_
      rw [ht, etmEntry, List.getD_eq_getElem?_getD, List.getElem?_set_ne (Ne.symm hk3), List.getD_eq_getElem?_getD]
    · rw [setNodeWord, setNodeEntry_nodeEntry_same, setNodeWord, setNodeEntry_nodeEntry_same, nodeEntry_etmFill, set_marks _ hlen]
  case hop =>
    rw [etmTableWrite_of_hop ha ho ht hi]
    refine ⟨?_, fun i h => ?_, reg_tblDone_same _ _, tblDone_sameRegsBut _ _⟩
    · rw [hopEntry, tblDone_etm]
      exact Store.get_put_same _ _ _ _
    · rw [hopEntry, tblDone_etm]
      exact Store.get_put_other _ _ _ h
  case flow =>
    rw [etmTableWrite_of_flow ha ho ht, writeFlow_of_disabled (length_etmData s) (by rwa [flowCtx_ctxMiss])
      ((congrArg (·.getLsbD 27) (flowW_etmData s (show 8 < 16 by omega))).trans hnew)]
    refine ⟨fun k hk => ?_, fun i h => ?_, reg_tblDone_same _ _⟩
    · rw [flowCtx, tblDone_etm, ← flowCtx, flowCtx_showFlows, setFlowCtx_flowCtx_same]
      exact (flowW_flowWritten (length_etmData s) hk).trans (flowW_etmData s (by omega))
    · rw [flowCtx, tblDone_etm, ← flowCtx, flowCtx_showFlows, setFlowCtx_flowCtx_other _ _ h, flowCtx_ctxMiss]
  case bound =>
    rw [etmTableWrite_of_flow ha ho ht, writeFlow_of_bound (length_etmData s) (by rwa [flowCtx_ctxMiss]) (by rwa [flowCtx_ctxMiss])]
    exact ⟨reg_etmErr_stat _ _, evt_etmErr _ _, by rw [etmErr_etm, ctxMiss_etm]⟩
  case range =>
    rw [etmTableWrite_of_beyond ha ho hi]
    exact ⟨reg_etmErr_stat _ _, evt_etmErr _ _, etmErr_sameBut _ _⟩

end Sys2Proof.Machine
end

section
/-! Proof of CalendarsAndSamples: ports with a commit pending, the calendar and PSTAT that a copy leaves, and where and with what the
slots of a sample are written. -/

namespace Sys2Proof.Machine

open State

/-! ### Commits that are pending (R234) -/

section Commit
variable {s : State} {p : Nat}

theorem eportCommit_of_cascade (h : 8 ≤ p) : eportCommit s p = s :=
  if_neg (by rw [decide_eq_false (Nat.not_lt.2 h), Bool.and_false]; exact Bool.false_ne_true)

/-- COMMIT on a line port's page adds that port to those that are pending. -/
theorem contains_eportCommit (ha : s.answers (Pg.eport p) = true) (hp : p < 8) (q : Nat) :
    (eportCommit s p).etm.calPend.contains q = (decide (q = p) || s.etm.calPend.contains q) := by
  simp only [eportCommit, ha, hp, decide_true, Bool.and_self, if_true]
  split
  · next h =>
    by_cases hq : q = p
    · rw [hq, h, Bool.or_true]
    · rw [decide_eq_false hq, Bool.false_or]
  · simp [Bool.or_comm, eq_comm]

/-- The state with the port's commit no longer pending. -/
def commitTaken (s : State) (p : Nat) : State :=
  { s with etm := { s.etm with calPend := s.etm.calPend.filter (fun q => decide (q ≠ p)) } }

theorem contains_commitTaken (s : State) (p : Nat) : (commitTaken s p).etm.calPend.contains p = false := by
  simp [commitTaken]

theorem calendarOk_commitTaken (s : State) (p : Nat) : calendarOk (commitTaken s p) p = calendarOk s p := rfl

end Commit

/-! ### A calendar in use (R233, R234) -/

section Calendar
variable (s : State) (p : Nat)

/-- The shadow calendar of a port is in use. -/
def calendarTaken : State :=
  { s with etm := { s.etm with
    cal := (List.range 16).foldl (fun m k => Store.put calReset m (16 * p + k) (s.reg (Reg.eportCal p k))) s.etm.cal
    cycle := Store.put (fun _ => 1) s.etm.cycle p (s.getF (Reg.eportCalCycle p) 8 0) } }

theorem calWord_calendarTaken {k : Nat} (h : k < 16) : calWord (calendarTaken s p) p k = s.reg (Reg.eportCal p k) :=
  (get_foldl_put calReset (key := fun k => 16 * p + k) (fun i j hij => by simpa using hij)
    (fun k => s.reg (Reg.eportCal p k)) k 16 _).trans (if_pos h)

theorem calCycle_calendarTaken : calCycle (calendarTaken s p) p = s.getF (Reg.eportCalCycle p) 8 0 := Store.get_put_same _ _ _ _

/-- PSTAT with REFUSED and the reason of a calendar's tests. -/
def calendarJudged (refused : Bool) (reason : Nat) : State :=
  (s.setBit (Reg.eportPstat p) 2 refused).setF (Reg.eportPstat p) 31 16 reason

section Judged
variable (refused : Bool) (reason : Nat)

theorem calendarJudged_etm : (calendarJudged s p refused reason).etm = s.etm := by rw [calendarJudged, setF_etm, setBit_etm]

theorem bit_calendarJudged : (calendarJudged s p refused reason).bit (Reg.eportPstat p) 2 = refused := by
  rw [bit, calendarJudged, reg_setF_same, getLsbD_setFld_other _ _ (by omega)]
  exact bit_setBit_same _ _ _ (by omega)

theorem getF_calendarJudged (h : reason < 0x10000) : (calendarJudged s p refused reason).getF (Reg.eportPstat p) 31 16 = reason :=
  (getF_setF_same _ _ _ (by omega) (by omega)).trans (Nat.mod_eq_of_lt h)

theorem calendarJudged_sameRegsBut : SameRegsBut [Reg.eportPstat p] s (calendarJudged s p refused reason) := fun a ha => by
  have ha : a ≠ Reg.eportPstat p := by simpa using ha
  rw [calendarJudged, reg_setF_other _ _ _ _ ha, reg_setBit_other _ _ _ ha]

end Judged

/-- At a frame start a pending calendar is tested, and taken or refused. -/
theorem calendarCopy_of_pending {s : State} {p : Nat} (h0 : s.inFrame = 0) (hr : s.running = true)
    (hc : s.etm.calPend.contains p = true) : calendarCopy s p =
      if calendarOk s p then calendarJudged (calendarTaken (commitTaken s p) p) p false 0
      else (calendarJudged (commitTaken s p) p true 0x0505).evt Pg.etm 2 := by
  have hstart : s.toFrameStart = s := if_pos (by simp [h0])
  rw [← calendarOk_commitTaken]
  simp only [calendarCopy, hstart, hc, hr, Bool.not_true, Bool.or_self, Bool.false_eq_true, if_false]
  rfl

end Calendar

/-! ### Samples (R239) -/

section Sample
variable {s : State}

theorem posOf_parts (p : BitVec 64) : posOf ((p >>> 32).setWidth 32) (p.setWidth 32).toNat = p := by
  refine BitVec.eq_of_getLsbD_eq fun i hi => ?_
  rw [posOf, BitVec.ofNat_toNat, BitVec.getLsbD_append]
  split
  · next h => simp [h]
  · next h => simp [show i - 32 < 32 by omega, show 32 + (i - 32) = i by omega]

/-- The position reaches one that is later. -/
theorem not_later_toPos (s : State) (p : BitVec 64) : later p (s.toPos p).stp.pos = false := by
  have hself : later p p = false := by simp [later]
  unfold toPos
  split
  · next h => exact decide_eq_false (Int.not_lt.2 h)
  · extract_lets k
    split
    · exact hself
    · have hframe : BitVec.ofNat 32 (s.frame.toNat + k) = (p >>> 32).setWidth 32 := by
        rw [BitVec.ofNat_add, BitVec.ofNat_toNat, BitVec.ofNat_toNat]
        simp
      rw [enterFrame_pos, hframe, posOf_parts, hself]

/-- The word that a sample writes into a slot: depth and age of head. -/
def sampledWord (s : State) (k : Nat) : Nat :=
  let q := sampleOf s (s.getF (Reg.etmSmpSel k) 1 0) (s.getF (Reg.etmSmpSel k) 21 2)
  let age := match q.2 with | c :: _ => unitsBetween s c.release s.stp.pos / 16384 | [] => 0
  satTo 16 q.1 + satTo 16 age * 0x10000

/-- The 64 slots written. -/
def slotsSampled (s : State) : State :=
  (List.range 64).foldl (fun t k => t.setReg (Reg.etmSmpVal k) (BitVec.ofNat 32 (sampledWord s k))) s

theorem sample_of_period (hr : s.running = true) (hp : s.getF Reg.etmSampleCfg 15 0 ≠ 0) :
    sample s = (slotsSampled (s.toPos (samplePos s))).evt Pg.etm 5 := by
  simp only [sample, hr, hp, Bool.not_true, Bool.false_or, decide_false, Bool.false_eq_true, if_false]
  rfl

theorem sample_of_no_period (hp : s.getF Reg.etmSampleCfg 15 0 = 0) : sample s = s :=
  if_pos (by rw [decide_eq_true hp, Bool.or_true])

theorem slotsSampled_stp (s : State) : (slotsSampled s).stp = s.stp :=
  (Changes.foldl (L := [.regs]) (fun _ _ h => setReg_changes rfl h _ _) (.refl _ s)).same .stp (by decide)

theorem getF_slotsSampled (s : State) {k : Nat} (hk : k < 64) : (slotsSampled s).getF (Reg.etmSmpVal k) 15 0 =
    satTo 16 (sampleOf s (s.getF (Reg.etmSmpSel k) 1 0) (s.getF (Reg.etmSmpSel k) 21 2)).1 := by
  have hword := reg_foldl_setReg s (addr := Reg.etmSmpVal) (fun i j hij => by simpa using hij)
    (fun k => BitVec.ofNat 32 (sampledWord s k)) hk
  rw [getF, slotsSampled, hword, fld_ofNat _ (by omega) (by omega), sampledWord]
  simp only [satTo]
  omega

theorem getF_toPos_select (s : State) (p : BitVec 64) (k hi lo : Nat) :
    (s.toPos p).getF (Reg.etmSmpSel k) hi lo = s.getF (Reg.etmSmpSel k) hi lo := by
  rw [getF, getF, reg_toPos] <;> simp only [Reg.etmSmpSel, Reg.ptpMapLo, Reg.ptpMapHi, Reg.stpHoldFrames] <;> omega

end Sample

/-- Settles O29: COMMIT by its port, the copy by the tests, and the sample by its slots. -/
theorem calendarsAndSamples : Obligations.CalendarsAndSamples := by
  unfold Obligations.CalendarsAndSamples
  refine ⟨fun p s ha hp => ⟨_, rfl, ?commit⟩, fun p s hp => ⟨_, rfl, eportCommit_of_cascade hp⟩,
    fun p s h0 hr hc hok => ⟨_, rfl, ?copy⟩, fun p s h0 hr hc hok => ⟨_, rfl, ?refused⟩, fun s hr hp => ⟨_, rfl, ?sample⟩,
    fun s hp => ⟨_, rfl, sample_of_no_period hp⟩⟩
  case commit =>
    have hcontains := contains_eportCommit ha (Fin.lt_def.1 hp)
    refine ⟨?_, fun q hq => ?_, (eportCommit_changes rfl (.refl [.etm] s) p).same⟩
    · rw [hcontains, decide_eq_true rfl, Bool.true_or]
    · rw [hcontains, decide_eq_false hq, Bool.false_or]
  case copy =>
    rw [calendarCopy_of_pending h0 hr hc, if_pos hok]
    refine ⟨fun k hk => ?_, ?_, bit_calendarJudged _ _ _ _, getF_calendarJudged _ _ _ _ (by omega), ?_,
      calendarJudged_sameRegsBut (calendarTaken (commitTaken s p) p) _ _ _⟩
    · rw [calWord, calendarJudged_etm]
      exact calWord_calendarTaken (commitTaken s p) p hk
    · rw [calCycle, calendarJudged_etm]
      exact calCycle_calendarTaken (commitTaken s p) p
    · rw [calendarJudged_etm]
      exact contains_commitTaken s p
  case refused =>
    have hetm : ((calendarJudged (commitTaken s p) p true 0x0505).evt Pg.etm 2).etm = (commitTaken s p).etm :=
      (evt_etm _ _ _).trans (calendarJudged_etm _ _ _ _)
    have hstat : ((calendarJudged (commitTaken s p) p true 0x0505).evt Pg.etm 2).reg (Reg.eportPstat p) =
        (calendarJudged (commitTaken s p) p true 0x0505).reg (Reg.eportPstat p) :=
      reg_evt_other _ (by simp only [Reg.eportPstat, Pg.etm, hEvt]; omega)
    rw [calendarCopy_of_pending h0 hr hc, hok, if_neg Bool.false_ne_true]
    refine ⟨by rw [hetm]; rfl, by rw [hetm]; rfl, ?_, ?_, bit_evt_same _ (by omega) _, ?_⟩
    · rw [bit, hstat]
      exact bit_calendarJudged _ _ _ _
    · rw [getF, hstat]
      exact getF_calendarJudged _ _ _ _ (by omega)
    · rw [hetm]
      exact contains_commitTaken s p
  case sample =>
    have hsame := (sample_changes rfl (.refl [.regs, .stp] s)).same
    rw [sample_of_period hr hp] at hsame ⊢
    refine ⟨fun k hk => ?_, ?_, bit_evt_same _ (by omega) _, hsame⟩
    · rw [getF, reg_evt_other _ (by simp only [Reg.etmSmpVal, Pg.etm, hEvt]; omega), ← getF, getF_slotsSampled _ hk,
        getF_toPos_select, getF_toPos_select]
    · rw [evt_stp, slotsSampled_stp]
      exact not_later_toPos s _

end Sys2Proof.Machine
end

section
/-! Proof of EthernetPortsAndFrames: what a lost PTP source leaves, which registers an enabled port shows, where a received frame goes by
its sort, and a frame as bytes whose correctionField and checksums are written anew. -/

namespace Sys2Proof.Machine

open State

/-! ### The loss of the PTP source (R256) -/

section PtpLost
variable (s : State)

theorem reg_refLost {a : Nat} (hstate : a ≠ Reg.stpState) (hhold : a ≠ Reg.stpHoldFrames) (hevt : a ≠ Pg.stp + hEvt) :
    (refLost s).reg a = s.reg a := by
  unfold refLost
  split
  · rfl
  · dsimp only
    rw [reg_raise, reg_evt_other _ hevt, reg_setBit_other _ _ _ hstate, reg_setBit_other _ _ _ hstate]
    exact reg_holdOver s a hstate hhold hevt

theorem refLost_pos : (refLost s).stp.pos = s.stp.pos := by
  unfold refLost
  split
  · rfl
  · dsimp only
    rw [raise_stp, evt_stp, setBit_stp, setBit_stp]
    exact holdOver_pos s

theorem refLost_ptp : (refLost s).ptp = s.ptp :=
  (refLost_changes rfl (.refl [.regs, .stp, .chans, .faults] s)).same .ptp (by decide)

/-- The state with the loss of the PTP source noted. -/
def ptpLossNoted : State := { s with ptp := { s.ptp with lost := true, changing := false } }

theorem reg_ptpLossNoted (a : Nat) : (ptpLossNoted s).reg a = s.reg a := rfl

theorem ptpLossNoted_stp : (ptpLossNoted s).stp = s.stp := rfl

theorem ptpLost_of_other_source (h : srcSel s ≠ 2) : ptpLost s = ptpLossNoted s := if_neg h

/-- What the loss passes to Steeple beside the note in PTP's own record. -/
theorem ptpLost_cases : ptpLost s = refLost (ptpLossNoted s) ∨ ptpLost s = ptpLossNoted s := ite_eq_or_eq _ _ _

theorem ptpLost_ptp : (ptpLost s).ptp = { s.ptp with lost := true, changing := false } := by
  obtain h | h := ptpLost_cases s
  · rw [h, refLost_ptp, ptpLossNoted]
  · rw [h, ptpLossNoted]

theorem ptpLost_pos : (ptpLost s).stp.pos = s.stp.pos := by
  obtain h | h := ptpLost_cases s
  · rw [h, refLost_pos, ptpLossNoted_stp]
  · rw [h, ptpLossNoted_stp]

theorem reg_ptpLost {a : Nat} (hstate : a ≠ Reg.stpState) (hhold : a ≠ Reg.stpHoldFrames) (hevt : a ≠ Pg.stp + hEvt) :
    (ptpLost s).reg a = s.reg a := by
  obtain h | h := ptpLost_cases s
  · rw [h, reg_refLost _ hstate hhold hevt, reg_ptpLossNoted]
  · rw [h, reg_ptpLossNoted]

end PtpLost

/-! ### ENABLE and the counters of a page (R243, R245, R449) -/

section Enable
variable {s : State} {x : Nat}

/-- Showing the ports writes their PSTAT alone. -/
theorem reg_showPorts (s : State) {a : Nat} (h : ∀ p, a ≠ Reg.eportPstat p) : (showPorts s).reg a = s.reg a :=
  List.foldlRecOn (motive := fun t : State => t.reg a = s.reg a) _ _ rfl fun t ht p _ => by
    rw [reg_setBit_other _ _ _ (h p), reg_setBit_other _ _ _ (h p), ht]

/-- A register of an ETHx page's header. -/
theorem reg_showPorts_ethHeader (s : State) (x : Nat) {o : Nat} (ho : o < 0x40) :
    (showPorts s).reg (Pg.eth x + o) = s.reg (Pg.eth x + o) :=
  reg_showPorts s fun p => by simp only [Pg.eth, Reg.eportPstat]; omega

theorem ethEnable_of_check (ha : s.answers (Pg.eth x) = true) (he : s.enabled (Pg.eth x) = false) (hc : ethCheck s x = none) :
    ethEnable s x = showPorts (s.activate (Pg.eth x)) := by
  simp only [ethEnable, ha, he, hc, Bool.not_true, Bool.or_self, Bool.false_eq_true, if_false]

theorem ethEnable_of_refusing {r : Refusing} (ha : s.answers (Pg.eth x) = true) (he : s.enabled (Pg.eth x) = false)
    (hc : ethCheck s x = some r) : ethEnable s x = s.failCheck (Pg.eth x) r.code r.word r.page := by
  simp only [ethEnable, ha, he, hc, Bool.not_true, Bool.or_self, Bool.false_eq_true, if_false]

theorem ethCheck_of_reserved_mode (hx : x < 2) (hm : s.getF (Reg.ethMode x) 1 0 = 3) :
    ethCheck s x = some ⟨0x0115, wordOf (Reg.ethMode x), 0⟩ := by
  have hfails : decide (2 ≤ x ∨ s.getF (Reg.ethMode x) 1 0 ≤ 2) = false := decide_eq_false (by omega)
  simp only [ethCheck, hfails, need, Bool.false_eq_true, if_false, firstFail]

theorem ethStatClr_of_answers (ha : s.answers (Pg.eth x) = true) : ethStatClr s x =
    s.clearRegs [Reg.ethFecCorr x, Reg.ethFecUncorr x, Reg.ethRxDrop x, Reg.ethRxPause x, Reg.ethRxOther x] := if_pos ha

end Enable

/-! ### A received frame (R244 to R247) -/

section Received
variable {s : State} {x : Nat} {bytes : List (BitVec 8)}

theorem inc32_sameRegsBut (s : State) (a : Nat) : SameRegsBut [a] s (s.inc32 a) := fun _ hb =>
  reg_inc32_other s (by simpa using hb)

/-- What a line port does with a frame of a sort. -/
def sortedFrameTaken (s : State) (x : Nat) (bytes : List (BitVec 8)) : LineFrame → State
  | .pausePfc => s.inc32 (Reg.ethRxPause x)
  | .oversizeOrBadFcs => s.inc32 (Reg.ethRxDrop x)
  | .ptp _ => if s.bit Reg.ptpCfg 8 && s.enabled (Pg.eth (2 + x)) then forwardFrame s x (8 + x) bytes else s
  | .ptpDiscarded => s.inc32 Reg.ptpDiscards
  | .receiveFlow _ | .audioFlow _ | .network => s
  | .other => s.inc32 (Reg.ethRxOther x)

theorem linePortFrame_of_link (he : s.enabled (Pg.eth x) = true) (hl : s.getF (Reg.ethLink x) 3 0 ≠ 0) :
    linePortFrame s x bytes = sortedFrameTaken s x bytes (sortFrame s x (bytes.map BitVec.toNat)) := by
  rw [linePortFrame, he, decide_eq_false hl, if_neg (by decide)]
  cases sortFrame s x (bytes.map BitVec.toNat) <;> rfl

theorem ethMtuOf_line (hx : x < 2) : ethMtuOf s x = portMtu s (4 * x) := by rw [ethMtuOf, if_neg (by omega)]

/-- A frame too large or damaged is of no other sort. -/
theorem sortFrame_of_unfit {b : List Nat} (h : ethMtuOf s x < b.length ∨ fcsOk b = false) : sortFrame s x b = .oversizeOrBadFcs := by
  have hrefused : refusedFrame s x b = some .oversizeOrBadFcs := by
    rw [refusedFrame, if_pos]
    simpa using h
  rw [sortFrame, hrefused]

/-- A frame within the MTU joins the end of the queue of its port. -/
theorem forwardFrame_of_fits {p : Nat} (h : bytes.length ≤ portMtu s p) : (forwardFrame s x p bytes).etm.queue = s.etm.queue ++
    [⟨0, portPathB p, p, 0, 0, bytes.length, s.stp.pos, true,
      if isEvent (bytes.map BitVec.toNat) then some (rxStamp s x) else none, false, bytes⟩] := by
  rw [forwardFrame, if_neg (Nat.not_lt.2 h)]
  rfl

theorem forwardFrame_flows (s : State) (x p : Nat) (bytes : List (BitVec 8)) :
    (forwardFrame s x p bytes).etm.flows = s.etm.flows := by
  unfold forwardFrame
  split <;> rfl

theorem forwardFrame_sameBut (s : State) (x p : Nat) (bytes : List (BitVec 8)) : SameBut [.etm] s (forwardFrame s x p bytes) :=
  (forwardFrame_changes rfl (.refl _ s) x p bytes).same

theorem cascadeFrame_of_link (he : s.enabled (Pg.eth (2 + x)) = true) (hl : s.bit (Reg.ethLink (2 + x)) 0 = true)
    (hr : refusedFrame s (2 + x) (bytes.map BitVec.toNat) = none) :
    cascadeFrame s x bytes = forwardFrame s (2 + x) (4 * x + s.getF (Reg.ethCasMap (2 + x)) 1 0) bytes := by
  simp only [cascadeFrame, he, hl, hr, Bool.not_true, Bool.or_self, Bool.false_eq_true, if_false]

theorem portPathB_cascade (hx : x < 2) : portPathB (8 + x) = decide (x = 1) := decide_eq_decide.2 (by omega)

/-- The four sub-ports of a line port are of its path. -/
theorem portPathB_line {k : Nat} (hx : x < 2) (hk : k < 4) : portPathB (4 * x + k) = decide (x = 1) := decide_eq_decide.2 (by omega)

end Received

/-! ### The residence time of an event message (R253) -/

section Bytes

theorem length_leBytes (n v : Nat) : (leBytes n v).length = n := by
  induction n generalizing v with
  | zero => rfl
  | succ n ih => rw [leBytes, List.length_cons, ih]

theorem length_beBytes (n v : Nat) : (beBytes n v).length = n := by rw [beBytes, List.length_reverse, length_leBytes]

theorem natOf_append_singleton (l : List Nat) (a : Nat) : natOf (l ++ [a]) = natOf l * 256 + a := List.foldl_append

/-- Big-endian bytes spell the number, as far as they are wide. -/
theorem natOf_beBytes (n v : Nat) : natOf (beBytes n v) = v % 256 ^ n := by
  induction n generalizing v with
  | zero => rw [Nat.pow_zero, Nat.mod_one]; rfl
  | succ n ih =>
    have hlast : beBytes (n + 1) v = beBytes n (v / 256) ++ [v % 256] := List.reverse_cons
    rw [hlast, natOf_append_singleton, ih, Nat.pow_succ', Nat.mod_mul]
    omega

variable {b l : List Nat} {i : Nat}

theorem length_putBytes (h : i + l.length ≤ b.length) : (putBytes b i l).length = b.length := by
  simp only [putBytes, List.length_append, List.length_take, List.length_drop]
  omega

theorem take_putBytes {n : Nat} (hn : n ≤ i) (hi : i ≤ b.length) : (putBytes b i l).take n = b.take n := by
  rw [putBytes, List.append_assoc, List.take_append_of_le_length (by rw [List.length_take]; omega), List.take_take, Nat.min_eq_left hn]

theorem drop_putBytes {j : Nat} (hj : i + l.length ≤ j) (hi : i ≤ b.length) : (putBytes b i l).drop j = b.drop j := by
  have hlen : (b.take i ++ l).length = i + l.length := by rw [List.length_append, List.length_take, Nat.min_eq_left hi]
  obtain ⟨k, rfl⟩ := Nat.exists_eq_add_of_le hj
  rw [putBytes, ← List.drop_drop, List.drop_left' hlen, List.drop_drop]

theorem bytesAt_putBytes_same (hi : i ≤ b.length) : bytesAt (putBytes b i l) i l.length = l := by
  rw [bytesAt, putBytes, List.append_assoc, List.drop_left' (List.length_take_of_le hi), List.take_left]

theorem bytesAt_putBytes_after {j : Nat} (n : Nat) (hj : i + l.length ≤ j) (hi : i ≤ b.length) :
    bytesAt (putBytes b i l) j n = bytesAt b j n := by rw [bytesAt, bytesAt, drop_putBytes hj hi]

/-- Bytes put in the place of others put there before. -/
theorem putBytes_putBytes {l' : List Nat} (h : l.length = l'.length) (hi : i ≤ b.length) :
    putBytes (putBytes b i l) i l' = putBytes b i l' := by
  rw [putBytes, take_putBytes le_rfl hi, drop_putBytes (by omega) hi, ← putBytes]

/-- The frame check sequence written anew over what precedes it. -/
def withFcs (b : List Nat) : List Nat := b.take (b.length - 4) ++ leBytes 4 (crc32 (b.take (b.length - 4)))

theorem length_withFcs (h : 4 ≤ b.length) : (withFcs b).length = b.length := by
  rw [withFcs, List.length_append, length_leBytes, List.length_take]
  omega

theorem take_withFcs {n : Nat} (h : n ≤ b.length - 4) : (withFcs b).take n = b.take n := by
  rw [withFcs, List.take_append_of_le_length (by rw [List.length_take]; omega), List.take_take, Nat.min_eq_left h]

theorem bytesAt_withFcs {j n : Nat} (h : j + n ≤ b.length - 4) : bytesAt (withFcs b) j n = bytesAt b j n := by
  rw [bytesAt, bytesAt, List.take_drop, List.take_drop, take_withFcs h]

end Bytes

/-- A frame with its correctionField and its UDP checksum written. -/
def fieldsPut (b : List Nat) (v c : Nat) : List Nat :=
  putBytes (putBytes b ((rxHead b).l4 + 16) (beBytes 8 v)) ((rxHead b).l4 + 6) (beBytes 2 c)

/-- The correctionField with the residence time added. -/
def corrected (b : List Nat) (d : Int) : Int := ((natOf (bytesAt b ((rxHead b).l4 + 16) 8) : Int) + d) % 2 ^ 64

section Residence
variable {b : List Nat} (h : (rxHead b).l4 + 24 ≤ b.length - 4) (v c : Nat)
include h

theorem length_fieldPut : (putBytes b ((rxHead b).l4 + 16) (beBytes 8 v)).length = b.length :=
  length_putBytes (by rw [length_beBytes]; omega)

theorem length_fieldsPut : (fieldsPut b v c).length = b.length := by
  have hfield := length_fieldPut h v
  rw [fieldsPut, length_putBytes (by rw [length_beBytes]; omega), hfield]

theorem take_fieldsPut : (fieldsPut b v c).take ((rxHead b).l4 + 6) = b.take ((rxHead b).l4 + 6) := by
  have hfield := length_fieldPut h v
  rw [fieldsPut, take_putBytes le_rfl (by omega), take_putBytes (by omega) (by omega)]

theorem bytesAt_fieldsPut : bytesAt (fieldsPut b v c) ((rxHead b).l4 + 16) 8 = beBytes 8 v := by
  have hfield := length_fieldPut h v
  have hsame := bytesAt_putBytes_same (b := b) (l := beBytes 8 v) (i := (rxHead b).l4 + 16) (by omega)
  rw [length_beBytes] at hsame
  rw [fieldsPut, bytesAt_putBytes_after 8 (by rw [length_beBytes]; omega) (by omega), hsame]

/-- The checksum is first cleared, then put in the same place. -/
theorem addResidence_eq (d : Int) : ∃ c, addResidence b d = withFcs (fieldsPut b (corrected b d).toNat c) := by
  refine ⟨_, congrArg withFcs (putBytes_putBytes ?_ ((show (rxHead b).l4 + 6 ≤ b.length by omega).trans (length_fieldPut h _).ge))⟩
  rw [length_beBytes, List.length_cons, List.length_singleton]

end Residence

/-- A correctionField of 64 bits holds the sum, around 2^64. -/
theorem corrected_emod (b : List Nat) (d : Int) :
    ((natOf (beBytes 8 (corrected b d).toNat) : Int) - ((natOf (bytesAt b ((rxHead b).l4 + 16) 8) : Int) + d)) % 2 ^ 64 = 0 := by
  rw [natOf_beBytes, corrected]
  omega

/-! ### Links (R244, R420) -/

section Links
variable {s : State} {x sub : Nat}

/-- The state with a link's two bits cleared and its fault raised. -/
def linkCleared (s : State) (x sub : Nat) : State :=
  ((s.setBit (Reg.ethLink x) sub false).setBit (Reg.ethLink x) (4 + sub) false).raise 0x6004 (Pg.eth x) x sub

theorem reg_linkCleared_other {a : Nat} (h : a ≠ Reg.ethLink x) : (linkCleared s x sub).reg a = s.reg a := by
  rw [linkCleared, reg_raise, reg_setBit_other _ _ _ h, reg_setBit_other _ _ _ h]

theorem bit_linkCleared (s : State) (x : Nat) (hsub : sub < 4) : (linkCleared s x sub).bit (Reg.ethLink x) sub = false ∧
    (linkCleared s x sub).bit (Reg.ethLink x) (4 + sub) = false := by
  rw [linkCleared, bit_raise, bit_raise]
  exact ⟨(bit_setBit_other _ _ _ (by omega) (by omega)).trans (bit_setBit_same _ _ _ (by omega)), bit_setBit_same _ _ _ (by omega)⟩

theorem linkCleared_faults (s : State) (x sub : Nat) :
    (linkCleared s x sub).faults = s.faults ++ [⟨0x6004, Pg.eth x / 0x1000, x, sub, s.stp.timeNs⟩] := by
  simp only [linkCleared, raise, setBit_faults, setBit_stp]

theorem linkCleared_sameBut (s : State) (x sub : Nat) : SameBut [.regs, .faults] s (linkCleared s x sub) :=
  (raise_changes rfl (setBit_changes rfl (setBit_changes rfl (.refl _ s) _ _ _) _ _ _) _ _ _ _).same

theorem enabled_linkCleared (s : State) (x sub : Nat) : (linkCleared s x sub).enabled Pg.ptp = s.enabled Pg.ptp := by
  rw [enabled, bit, reg_linkCleared_other (by simp only [Pg.ptp, hCtrl, Reg.ethLink]; omega)]
  rfl

theorem getF_linkCleared_other {a : Nat} (h : a ≠ Reg.ethLink x) (hi lo : Nat) :
    (linkCleared s x sub).getF a hi lo = s.getF a hi lo := by rw [getF, getF, reg_linkCleared_other h]

theorem linePortDown_of_no_ptp (hl : s.bit (Reg.ethLink x) sub = true) (hp : s.enabled Pg.ptp = false) :
    linePortDown s x sub = linkCleared s x sub := by
  have hp' := (enabled_linkCleared s x sub).trans hp
  rw [linePortDown, if_pos hl]
  exact if_neg (by rw [← linkCleared, hp', Bool.false_and]; exact Bool.false_ne_true)

theorem linePortDown_of_slavePort (hl : s.bit (Reg.ethLink x) sub = true) (hp : s.enabled Pg.ptp = true) (hx : x = slavePort s) :
    linePortDown s x sub = ptpLost ((linkCleared s x sub).setF Reg.ptpPortState 3 0 4) := by
  have hp' := (enabled_linkCleared s x sub).trans hp
  rw [linePortDown, if_pos hl]
  exact if_pos (by rw [← linkCleared, hp', decide_eq_true hx]; rfl)

/-- The state with a link's two bits set. -/
def linkSet (s : State) (x sub : Nat) : State := (s.setBit (Reg.ethLink x) sub true).setBit (Reg.ethLink x) (4 + sub) true

theorem bit_linkSet (s : State) (x : Nat) (hsub : sub < 4) : (linkSet s x sub).bit (Reg.ethLink x) sub = true ∧
    (linkSet s x sub).bit (Reg.ethLink x) (4 + sub) = true :=
  ⟨(bit_setBit_other _ _ _ (by omega) (by omega)).trans (bit_setBit_same _ _ _ (by omega)), bit_setBit_same _ _ _ (by omega)⟩

theorem portLinkUp_of_clock (he : s.enabled (Pg.eth x) = true) (hsub : sub < subPorts s x)
    (hc : s.bit Reg.devClkStat (portClock x) = true) : portLinkUp s x sub = settlePaths (linkSet s x sub) :=
  if_pos (by rw [he, hc, decide_eq_true hsub]; rfl)

theorem offCauses_ethLink (x : Nat) : OffCauses (Reg.ethLink x) where
  status := by simp only [Reg.ethLink, hStatus]; omega
  cause := by simp only [Reg.ethLink, Reg.watchDegrCause]; omega
  guarantee := by simp only [Reg.ethLink, Reg.watchGuarantee]; omega
  watch := by simp only [Reg.ethLink, Pg.watch, hEvt]; omega

end Links

/-- Settles O30: ENABLE by its check, a frame by its sort, a corrected frame by the fields written, a link by its two bits. -/
theorem ethernetPortsAndFrames : Obligations.EthernetPortsAndFrames := by
  unfold Obligations.EthernetPortsAndFrames
  refine ⟨fun x s ha he hc => ⟨_, rfl, ?enable⟩, fun x s ha he hx hm => ⟨_, rfl, ?refused⟩, fun x s ha => ⟨_, rfl, ?statClr⟩,
    fun x bytes s he hl hroom hbad => ⟨_, rfl, ?dropped⟩, fun x bytes e s he hl hfwd hcas hsort hfits => ⟨_, rfl, ?forwarded⟩,
    fun x bytes s he hl => ⟨_, rfl, ?sorted⟩, fun b d o ho hlen => ?residence, fun x bytes s he hl hr hfits => ⟨_, rfl, ?cascade⟩,
    fun x sub s hl hp => ⟨_, rfl, ?down⟩, fun x sub s hl hp hx hsrc => ⟨_, rfl, ?downPtp⟩,
    fun x sub s he hsub hc => ⟨_, rfl, ?up⟩⟩
  case enable =>
    have hsame := (ethEnable_changes rfl (.refl [.regs] s) x).same
    rw [ethEnable_of_check ha he hc] at hsame ⊢
    refine ⟨?_, ?_, ?_, hsame⟩
    · rw [enabled, bit, reg_showPorts_ethHeader _ _ (by decide)]
      exact enabled_activate s _
    · rw [bit, reg_showPorts_ethHeader _ _ (by decide)]
      exact bit_activate_status s _ 0
    · rw [reg_showPorts_ethHeader _ _ (by decide), reg_activate_refuse]
  case refused =>
    rw [ethEnable_of_refusing ha he (ethCheck_of_reserved_mode (Fin.lt_def.1 hx) hm), failCheck]
    refine ⟨?_, ?_, bit_refuse _ _ _ _ _, (reg_refuse _ _ _ _ _).trans (by rw [Nat.zero_mul, Nat.add_zero])⟩
    · rw [enabled_refuse, enabled_deactivate]
    · rw [bit_refuse_active, bit_deactivate_active]
  case statClr =>
    have hsame := (ethStatClr_changes rfl (.refl [.regs] s) x).same
    rw [ethStatClr_of_answers ha] at hsame ⊢
    refine ⟨?_, ?_, ?_, ?_, ?_, hsame, fun a ha => by rw [reg_clearRegs, if_neg ha]⟩
    all_goals rw [reg_clearRegs, if_pos (by simp)]
  case dropped =>
    have hsort : sortFrame s x (bytes.map BitVec.toNat) = .oversizeOrBadFcs :=
      sortFrame_of_unfit (by rwa [ethMtuOf_line x.isLt, List.length_map])
    rw [linePortFrame_of_link he hl, hsort]
    exact ⟨reg_inc32 s _ hroom, inc32_sameRegsBut s _, (inc32_changes rfl (.refl _ s) _).same⟩
  case forwarded =>
    rw [linePortFrame_of_link he hl, hsort, sortedFrameTaken, hfwd, hcas, Bool.and_self, if_pos rfl]
    exact ⟨by rw [forwardFrame_of_fits hfits, portPathB_cascade x.isLt], forwardFrame_sameBut s x _ bytes⟩
  case sorted =>
    rw [linePortFrame_of_link he hl]
    cases sortFrame s x (bytes.map BitVec.toNat) with
    | pausePfc => exact ⟨inc32_sameRegsBut s _, reg_inc32 s _⟩
    | ptpDiscarded => exact inc32_sameRegsBut s _
    | other => exact ⟨inc32_sameRegsBut s _, reg_inc32 s _⟩
    | oversizeOrBadFcs | ptp _ => trivial
    | receiveFlow _ | audioFlow _ | network => rfl
  case residence =>
    subst ho
    obtain ⟨c, hc⟩ := addResidence_eq hlen d
    have hput := length_fieldsPut hlen (corrected b d).toNat c
    rw [hc, length_withFcs (by omega), take_withFcs (by omega), bytesAt_withFcs (by omega), take_fieldsPut hlen, bytesAt_fieldsPut hlen]
    exact ⟨hput, rfl, corrected_emod b d⟩
  case cascade =>
    rw [cascadeFrame_of_link he hl hr]
    refine ⟨?_, forwardFrame_flows s _ _ bytes, forwardFrame_sameBut s _ _ bytes⟩
    have hmap : s.getF (Reg.ethCasMap (2 + x)) 1 0 < 4 := fld_lt _ 1 0
    rw [forwardFrame_of_fits hfits, portPathB_line x.isLt hmap]
  case down =>
    obtain ⟨hlink, hlock⟩ := bit_linkCleared s x sub.isLt
    rw [linePortDown_of_no_ptp hl hp]
    exact ⟨hlink, hlock, fun a ha => reg_linkCleared_other (by simpa using ha), linkCleared_faults s x sub, linkCleared_sameBut s x sub⟩
  case downPtp =>
    have hsrc' : srcSel ((linkCleared s x sub).setF Reg.ptpPortState 3 0 4) ≠ 2 := by
      rwa [srcSel, getF, reg_setF_other _ _ _ _ (by decide), ← getF,
        getF_linkCleared_other (by simp only [Reg.stpSrc, Reg.ethLink]; omega)]
    rw [linePortDown_of_slavePort hl hp hx, ptpLost_of_other_source _ hsrc']
    refine ⟨?_, ?_, rfl, ?_⟩
    · rw [bit, reg_ptpLossNoted, reg_setF_other _ _ _ _ (by simp only [Reg.ptpPortState, Reg.ethLink]; omega)]
      exact (bit_linkCleared s x sub.isLt).1
    · rw [getF, reg_ptpLossNoted]
      exact getF_setF_same _ _ 4 (by omega) (by omega)
    · rw [ptpLossNoted_stp, setF_stp]
      exact linkCleared_sameBut s x sub .stp (by decide)
  case up =>
    obtain ⟨hlink, hlock⟩ := bit_linkSet s x sub.isLt
    have hfaults := (portLinkUp_changes rfl (.refl [.regs] s) x sub).same .faults (by decide)
    rw [portLinkUp_of_clock he hsub hc] at hfaults ⊢
    simp only [bit, reg_settlePaths _ (offCauses_ethLink x)]
    exact ⟨hlink, hlock, hfaults⟩

end Sys2Proof.Machine
end

section
/-! Proof of PtpSlaveSide: what a Sync measures, the table of Delay_Reqs that wait for an answer, a path-delay sample kept or discarded, and
the grandmaster that an Announce names. -/

namespace Sys2Proof.Machine

open State

/-! ### Sync (R252, R255) -/

section Sync
variable {s : State} {x origin : Nat} {domain : BitVec 8} {corr : Int}

/-- Two's complement of a saturated value. -/
theorem ofNat_satInt (i : Int) : BitVec.ofNat 32 (satInt 32 i) = BitVec.ofInt 32 (max (-0x80000000) (min i 0x7FFFFFFF)) := by
  apply BitVec.eq_of_toNat_eq
  rw [BitVec.toNat_ofNat, BitVec.toNat_ofInt, satInt]
  simp only [clampI]
  omega

theorem syncSteeple_of_other_source (h : srcSel s ≠ 2) (diff ppb : Int) : syncSteeple s diff ppb = s :=
  if_pos (by rw [decide_eq_true h, Bool.or_true])

/-- The state with t1 and t2 of a Sync noted, and the offset that they give. -/
def syncNoted (s : State) (t1 t2 : Int) : State :=
  let t := s.setN Reg.ptpOffset (satInt 32 ((t1 + meanDelay s - t2) / 65536))
  { t with ptp := { t.ptp with diff := if (List.range 4).any (masterOn s) then 0 else t1 + meanDelay s - t2, lastSync := some (t1, t2), lost := false
                               syncAt := t.stp.pos } }

theorem reg_syncNoted (s : State) (t1 t2 : Int) (a : Nat) : (syncNoted s t1 t2).reg a =
    if a = Reg.ptpOffset then BitVec.ofNat 32 (satInt 32 ((t1 + meanDelay s - t2) / 65536)) else s.reg a := reg_setN _ _ _ _

theorem syncNoted_diff (t1 t2 : Int) (h : ∀ y < 4, masterOn s y = false) : (syncNoted s t1 t2).ptp.diff = t1 + meanDelay s - t2 :=
  if_neg (by simpa using h)

theorem sync_of_slave (hh : hears s x domain = true) (hs : slaveOn s x = true) (hsrc : srcSel s ≠ 2) (ppb : Int) :
    sync s x domain origin corr ppb = syncNoted s ((origin : Int) * 65536 + corr) (rxStamp s x) := by
  have hsrc' : srcSel (syncNoted s ((origin : Int) * 65536 + corr) (rxStamp s x)) ≠ 2 := by
    rwa [srcSel, getF, reg_syncNoted, if_neg (by decide)]
  rw [sync, hh, hs, if_neg (by decide)]
  exact syncSteeple_of_other_source hsrc' _ _

theorem sync_of_other (h : domain.toNat ≠ s.getF Reg.ptpDomain 7 0 ∨ x ≠ slavePort s) (ppb : Int) :
    sync s x domain origin corr ppb = s := by
  have hnot : hears s x domain = false ∨ slaveOn s x = false := h.imp
    (fun hd => by rw [hears, decide_eq_false hd, Bool.and_false]) (fun hx => decide_eq_false fun hslave => hx hslave.1)
  exact if_pos (by obtain h | h := hnot <;> simp [h])

end Sync

/-! ### Delay_Req (R252) -/

section DelayReq
variable {s : State}

/-- The state with a Delay_Req of the next sequenceId in the table. -/
def reqEntered (s : State) (x : Nat) : State :=
  let l := s.ptp.reqs ++ [(s.ptp.seqReq, txStamp s x)]
  { s with ptp := { s.ptp with reqs := l.drop (l.length - 8), seqReq := s.ptp.seqReq + 1 } }

/-- The table drops its oldest entries, never the one that joins. -/
theorem reqEntered_reqs (s : State) (x : Nat) :
    (reqEntered s x).ptp.reqs = s.ptp.reqs.drop (s.ptp.reqs.length - 7) ++ [(s.ptp.seqReq, txStamp s x)] := by
  show (s.ptp.reqs ++ [(s.ptp.seqReq, txStamp s x)]).drop _ = _
  rw [List.length_append, List.length_singleton, List.drop_append_of_le_length (by omega)]
  rfl

theorem mem_reqEntered (s : State) (x : Nat) : (s.ptp.seqReq, txStamp s x) ∈ (reqEntered s x).ptp.reqs := by
  rw [reqEntered_reqs]
  exact List.mem_append_right _ (List.mem_singleton_self _)

theorem ptpStart_of_stopped (h : s.running = false) (x len : Nat) : ptpStart s x len = s :=
  if_pos (by rw [h]; rfl)

theorem ptpStart_ptp (s : State) (x len : Nat) : (ptpStart s x len).ptp = s.ptp :=
  (ptpStart_changes rfl (.refl [.regs, .stp, .etm] s) x len).same .ptp (by decide)

theorem ptpStart_sent (s : State) (x len : Nat) : (ptpStart s x len).sent = s.sent :=
  (ptpStart_changes rfl (.refl [.regs, .stp, .etm] s) x len).same .sent (by decide)

theorem delayReqSend_of_slave (he : s.enabled Pg.ptp = true) (hst : s.getF Reg.ptpPortState 3 0 = 8 ∨ s.getF Reg.ptpPortState 3 0 = 9) :
    delayReqSend s = sendPtp (reqEntered (ptpStart s (slavePort s) (ptpLen s 10)) (slavePort s)) (slavePort s) 1 s.ptp.seqReq 0 1 127
      (ptpStamp 0) := by
  have hslave : slaveOn s (slavePort s) = true := decide_eq_true ⟨rfl, hst⟩
  rw [delayReqSend, he, hslave, Bool.and_self, if_pos rfl, ← ptpStart_ptp s (slavePort s) (ptpLen s 10)]
  rfl

end DelayReq

/-! ### Path delay (R252) -/

section DelayResp
variable {s : State} {x received : Nat} {domain : BitVec 8} {seq : BitVec 16} {corr v : Int}

theorem delayResp_of_unmatched (hh : hears s x domain = true) (hx : x = slavePort s) (hf : ∀ e ∈ s.ptp.reqs, e.1 ≠ seq) :
    delayResp s x domain seq received corr = s.inc32 Reg.ptpDiscards := by
  have hnone : s.ptp.reqs.find? (fun e => decide (e.1 = seq)) = none := List.find?_eq_none.2 fun e he => by simpa using hf e he
  rw [delayResp, hh, decide_eq_false (not_not.2 hx), if_neg (by decide), hnone]

/-- The state without the Delay_Req that has been answered. -/
def reqAnswered (s : State) (e : BitVec 16 × Int) : State := { s with ptp := { s.ptp with reqs := s.ptp.reqs.erase e } }

theorem delayResp_of_matched {e : BitVec 16 × Int} {t1 t2 : Int} (hh : hears s x domain = true) (hx : x = slavePort s)
    (hf : s.ptp.reqs.find? (fun e => decide (e.1 = seq)) = some e) (hl : s.ptp.lastSync = some (t1, t2)) :
    delayResp s x domain seq received corr = delaySample (reqAnswered s e) (((t2 - t1) + ((received : Int) * 65536 - corr - e.2)) / 2) := by
  rw [delayResp, hh, decide_eq_false (not_not.2 hx), if_neg (by decide), hf]
  dsimp only
  split
  · next h => exact absurd (hl.symm.trans h) nofun
  · next h =>
    cases hl.symm.trans h
    rfl

/-- The state with a sample among the last 16. -/
def sampleTaken (s : State) (v : Int) : State := { s with ptp := { s.ptp with recent := (v :: s.ptp.recent).take 16 } }

/-- The state with a sample among the last 16 kept. -/
def sampleKept (s : State) (v : Int) : State := { s with ptp := { s.ptp with kept := (v :: s.ptp.kept).take 16 } }

theorem delaySample_of_near (h : s.ptp.recent = [] ∨ (v - medianInt s.ptp.recent).natAbs ≤ 65536000) : delaySample s v =
    (sampleKept (sampleTaken s v) v).setN Reg.ptpMpd (meanDelay (sampleKept (sampleTaken s v) v) / 65536).toNat :=
  if_neg (by obtain h | h := h <;> simp [h])

theorem delaySample_of_far (hr : s.ptp.recent ≠ []) (h : 65536000 < (v - medianInt s.ptp.recent).natAbs) :
    delaySample s v = ((sampleTaken s v).inc32 Reg.ptpDelayDiscard).evt Pg.ptp 4 :=
  if_pos (by simp [hr, h])

theorem meanDelay_setN (s : State) (a n : Nat) : meanDelay (s.setN a n) = meanDelay s := by rw [meanDelay, meanDelay, setN_ptp]

end DelayResp

/-! ### Announce (R249, R256) -/

section Announce
variable {s : State} {best : BitVec 64} {a : Nat}

theorem reg64_setReg64 (s : State) {lo hi : Nat} (h : lo ≠ hi) (v : BitVec 64) : (s.setReg64 lo hi v).reg64 lo hi = v := by
  refine Eq.trans ?_ (posOf_parts v)
  rw [reg64, setReg64, reg_setReg_same, reg_setReg_other _ _ h, reg_setReg_same, posOf, BitVec.ofNat_toNat, BitVec.setWidth_eq]

theorem slaveOnly_congr {t : State} (hcfg : t.reg Reg.ptpCfg = s.reg Reg.ptpCfg) (hsrc : t.reg Reg.stpSrc = s.reg Reg.stpSrc) :
    slaveOnly t = slaveOnly s := by rw [slaveOnly, slaveOnly, bit, bit, getF, getF, hcfg, hsrc]

/-- The master role that `setMaster` gives of the ports asked for. -/
def rolesGiven (s : State) (b : BitVec 4) : BitVec 4 := if slaveOnly s then 0 else b &&& BitVec.ofNat 4 (s.getF Reg.ptpCfg 7 4)

/-- The state with the roles given. -/
def rolesNoted (s : State) (b : BitVec 4) : State :=
  { s with ptp := { s.ptp with master := rolesGiven s b, diff := if rolesGiven s b = 0 then s.ptp.diff else 0 } }

theorem setMaster_cases (s : State) (b : BitVec 4) :
    setMaster s b = rolesNoted s b ∨ setMaster s b = (rolesNoted s b).evt Pg.ptp 3 := ite_eq_or_eq _ _ _

theorem setMaster_ptp (s : State) (b : BitVec 4) : (setMaster s b).ptp = (rolesNoted s b).ptp := by
  obtain h | h := setMaster_cases s b
  · rw [h]
  · rw [h, evt_ptp]

theorem reg_setMaster (b : BitVec 4) (h : a ≠ Pg.ptp + hEvt) : (setMaster s b).reg a = s.reg a := by
  obtain h' | h' := setMaster_cases s b
  · rw [h']
    rfl
  · rw [h', reg_evt_other _ h]
    rfl

theorem bit_setMaster_evt (s : State) (b : BitVec 4) {i : Nat} (hi : i ≠ 3) :
    (setMaster s b).bit (Pg.ptp + hEvt) i = s.bit (Pg.ptp + hEvt) i := by
  obtain h | h := setMaster_cases s b
  · rw [h]
    rfl
  · rw [h, evt, bit_setBit_other _ _ _ (by omega) hi]
    rfl

/-- The state with another grandmaster noted. -/
def gmNoted (s : State) (best : BitVec 64) : State :=
  let t := (s.setReg64 Reg.ptpGmIdLo Reg.ptpGmIdHi best).setBit Reg.ptpPortState 4 true
  { t with ptp := { t.ptp with gm := best, changing := decide (s.ptp.gm ≠ 0), gmSyncs := 0 } }.evt Pg.ptp 0

theorem reg_gmNoted_other (s : State) (best : BitVec 64) (h : a ∉ [Reg.ptpGmIdLo, Reg.ptpGmIdHi, Reg.ptpPortState, Pg.ptp + hEvt]) :
    (gmNoted s best).reg a = s.reg a := by
  simp only [List.mem_cons, List.not_mem_nil, or_false, not_or] at h
  obtain ⟨hlo, hhi, hstate, hevt⟩ := h
  rw [gmNoted, reg_evt_other _ hevt]
  exact (reg_setBit_other _ _ _ hstate).trans ((reg_setReg_other _ _ hhi).trans (reg_setReg_other _ _ hlo))

theorem reg64_gmNoted (s : State) (best : BitVec 64) : (gmNoted s best).reg64 Reg.ptpGmIdLo Reg.ptpGmIdHi = best := by
  refine Eq.trans ?_ (reg64_setReg64 s (show Reg.ptpGmIdLo ≠ Reg.ptpGmIdHi by decide) best)
  rw [reg64, reg64, gmNoted, reg_evt_other _ (by decide), reg_evt_other _ (by decide)]
  exact congrArg₂ _ (reg_setBit_other _ _ _ (show Reg.ptpGmIdHi ≠ Reg.ptpPortState by decide))
    (reg_setBit_other _ _ _ (show Reg.ptpGmIdLo ≠ Reg.ptpPortState by decide))

theorem reg_gmNoted_portState (s : State) (best : BitVec 64) :
    (gmNoted s best).reg Reg.ptpPortState = putBit (s.reg Reg.ptpPortState) 4 true := by
  rw [gmNoted, reg_evt_other _ (by decide)]
  refine (reg_setBit_same _ _ _ _).trans ?_
  rw [setReg64, reg_setReg_other _ _ (by decide), reg_setReg_other _ _ (by decide)]

theorem gmNoted_ptp (s : State) (best : BitVec 64) :
    (gmNoted s best).ptp = { s.ptp with gm := best, changing := decide (s.ptp.gm ≠ 0), gmSyncs := 0 } := by
  rw [gmNoted, evt_ptp, setBit_ptp, setReg64_ptp]

/-- Another grandmaster is noted, and Steeple then holds over where it follows PTP. -/
theorem selectGm_cases (h : best ≠ s.ptp.gm) :
    selectGm s best = gmNoted s best ∨ ∃ v, selectGm s best = holdOver ((gmNoted s best).withStp v) := by
  rw [selectGm, if_neg h]
  exact (ite_eq_or_eq _ _ _).symm.imp id fun h => ⟨_, h⟩

theorem reg_selectGm (h : best ≠ s.ptp.gm) (hstate : a ≠ Reg.stpState) (hhold : a ≠ Reg.stpHoldFrames) (hevt : a ≠ Pg.stp + hEvt) :
    (selectGm s best).reg a = (gmNoted s best).reg a := by
  obtain h | ⟨v, h⟩ := selectGm_cases h
  · rw [h]
  · rw [h, reg_holdOver _ _ hstate hhold hevt, withStp_reg]

/-- Of PTP's own page, taking the roles writes EVT alone. -/
theorem reg_setMaster_selectGm (h : best ≠ s.ptp.gm) (b : BitVec 4) (hevt : a ≠ Pg.ptp + hEvt) (hpage : Pg.ptp ≤ a) :
    (setMaster (selectGm s best) b).reg a = (gmNoted s best).reg a := by
  simp only [Pg.ptp] at hpage
  rw [reg_setMaster _ hevt]
  apply reg_selectGm h <;> simp only [Reg.stpState, Reg.stpHoldFrames, Pg.stp, hEvt] <;> omega

theorem slaveOnly_selectGm (h : best ≠ s.ptp.gm) : slaveOnly (selectGm s best) = slaveOnly s :=
  slaveOnly_congr ((reg_selectGm h (by decide) (by decide) (by decide)).trans (reg_gmNoted_other _ _ (by decide)))
    ((reg_selectGm h (by decide) (by decide) (by decide)).trans (reg_gmNoted_other _ _ (by decide)))

theorem selectGm_ptp (h : best ≠ s.ptp.gm) : (selectGm s best).ptp = (gmNoted s best).ptp := by
  obtain h | ⟨v, h⟩ := selectGm_cases h
  · rw [h]
  · rw [h]
    exact (holdOver_changes rfl (.refl [.regs, .stp, .chans] _)).same .ptp (by decide)

/-- The state with an Announce noted: that of the grandmaster gives UTC_OFFSET and restarts the time-out. -/
def announceNoted (s : State) (gm best : BitVec 64) (utc : BitVec 16) (state : Nat) : State :=
  (if gm = best then { s.setReg Reg.ptpUtcOffset (utc.signExtend 32) with ptp := { s.ptp with annAt := s.stp.pos } } else s).setF
    Reg.ptpPortState 3 0 state

theorem announce_of_heard {x : Nat} {domain : BitVec 8} (hh : hears s x domain = true) (gm best : BitVec 64) (utc : BitVec 16)
    (state : Nat) (master : BitVec 4) : ∃ b, announce s x domain gm utc best state master =
      setMaster (selectGm (announceNoted s gm best utc state) best) b := by
  rw [announce, hh, if_neg (by decide)]
  exact ⟨_, rfl⟩

end Announce

section Noted
variable (s : State) (gm best : BitVec 64) (utc : BitVec 16) (state : Nat)

theorem reg_announceNoted_other {a : Nat} (hutc : a ≠ Reg.ptpUtcOffset) (hstate : a ≠ Reg.ptpPortState) :
    (announceNoted s gm best utc state).reg a = s.reg a := by
  rw [announceNoted, reg_setF_other _ _ _ _ hstate]
  split
  · exact reg_setReg_other _ _ hutc
  · rfl

theorem announceNoted_gm : (announceNoted s gm best utc state).ptp.gm = s.ptp.gm := by
  rw [announceNoted, setF_ptp]
  split <;> rfl

theorem getF_announceNoted (h : state < 16) : (announceNoted s gm best utc state).getF Reg.ptpPortState 3 0 = state := by
  rw [announceNoted, getF_setF_same _ _ _ (by omega) (by omega)]
  exact Nat.mod_eq_of_lt h

theorem slaveOnly_announceNoted : slaveOnly (announceNoted s gm best utc state) = slaveOnly s :=
  slaveOnly_congr (reg_announceNoted_other s gm best utc state (by decide) (by decide))
    (reg_announceNoted_other s gm best utc state (by decide) (by decide))

theorem announceNoted_of_gm : (announceNoted s best best utc state).reg Reg.ptpUtcOffset = utc.signExtend 32 ∧
    (announceNoted s best best utc state).ptp.annAt = s.stp.pos := by
  rw [announceNoted, if_pos rfl, reg_setF_other _ _ _ _ (by decide), setF_ptp]
  exact ⟨reg_setReg_same _ _ _, rfl⟩

end Noted

/-! ### Reads and time-outs (R256, R453) -/

section Timeout
variable {s : State}

theorem view_portState (s : State) : s.view Reg.ptpPortState = s.reg Reg.ptpPortState := by
  have hpage : pageAt (Reg.ptpPortState / 0x1000) = some ⟨.ptp, 0⟩ := by decide
  rw [view, hpage]
  rfl

theorem portStateRead_of_reaches {m : Master} (h : reaches s m Pg.ptp = true) :
    portStateRead s m = (s.answer [(s.reg Reg.ptpPortState).toNat]).setBit Reg.ptpPortState 4 false := by
  rw [portStateRead, if_pos h, view_portState]

theorem syncTimeout_of_slave (he : s.enabled Pg.ptp = true) (hm : masterOn s (slavePort s) = false) :
    syncTimeout s = ptpLost ((reachAfter s s.ptp.syncAt (16 * intervalNs (logOf s 7 4))).evt Pg.ptp 2) := by
  rw [syncTimeout, he, hm, if_neg (by decide)]

theorem not_later_reachAfter (h : s.running = true) (p : BitVec 64) (ns : Nat) :
    later (s.posAdd p (s.nsToUnits ns)) (reachAfter s p ns).stp.pos = false := by
  rw [reachAfter, if_pos h]
  exact not_later_toPos s _

end Timeout

/-- Settles O32: a Sync and an Announce by what they note, a Delay_Req by the table, a Delay_Resp by its sample. -/
theorem ptpSlaveSide : Obligations.PtpSlaveSide := by
  unfold Obligations.PtpSlaveSide
  refine ⟨fun x domain origin corr ppb s hh hs hsrc => ⟨_, rfl, ?sync⟩, fun x domain origin corr ppb s h => ⟨_, rfl, sync_of_other h ppb⟩,
    fun s he hst hr => ⟨_, rfl, ?request⟩, fun s he hst hr => ⟨_, rfl, ?requestRunning⟩,
    fun x domain seq received corr t1 t2 v e s hh hx hf hl hv hnear => ⟨_, rfl, ?kept⟩,
    fun x domain seq received corr t1 t2 v e s hh hx hf hl hv hr hfar => ⟨_, rfl, ?outlier⟩,
    fun x domain seq received corr s hh hx hf => ⟨_, rfl, ?unmatched⟩,
    fun x domain gm best utc st master s hh hbest => ⟨_, rfl, ?announce⟩, fun m s h => ⟨_, rfl, ?read⟩,
    fun s he hm => ⟨_, rfl, ?timeout⟩⟩
  case sync =>
    rw [sync_of_slave hh hs hsrc]
    refine ⟨rfl, rfl, rfl, ?_, syncNoted_diff _ _, fun a ha => ?_, ?_⟩
    · rw [reg_syncNoted, if_pos rfl, ofNat_satInt]
    · rw [reg_syncNoted, if_neg (by simpa using ha)]
    · exact (Changes.set_ptp rfl (setN_changes rfl (.refl _ s) _ _) _).same
  case request =>
    rw [delayReqSend_of_slave he (.inr hst), ptpStart_of_stopped hr]
    refine ⟨⟨_, rfl⟩, rfl, fun hlen => ?_, ?_, rfl⟩
    · refine (reqEntered_reqs s _).trans ?_
      rw [show s.ptp.reqs.length - 7 = 0 by omega, List.drop_zero]
    · refine (congrArg List.length (reqEntered_reqs s _)).le.trans ?_
      rw [List.length_append, List.length_drop, List.length_singleton]
      omega
  case requestRunning =>
    have hsame := (delayReqSend_changes rfl (.refl [.regs, .stp, .etm, .ptp, .sent] s)).same
    rw [delayReqSend_of_slave he hst] at hsame ⊢
    have hjoined := mem_reqEntered (ptpStart s (slavePort s) (ptpLen s 10)) (slavePort s)
    rw [ptpStart_ptp] at hjoined
    exact ⟨⟨_, congrArg (List.cons _) (ptpStart_sent s _ _)⟩, hjoined, hsame⟩
  case kept =>
    rw [delayResp_of_matched hh hx hf hl, ← hv, delaySample_of_near (s := reqAnswered s e) hnear]
    refine ⟨?_, ?_, ?_, fun a ha => ?_⟩
    · rw [setN_ptp]
      rfl
    · rw [reg_setN_same, meanDelay_setN]
    · rw [setN_ptp]
      rfl
    · rw [reg_setN_other _ _ (by simpa using ha)]
      rfl
  case outlier =>
    rw [delayResp_of_matched hh hx hf hl, ← hv, delaySample_of_far (s := reqAnswered s e) hr hfar]
    refine ⟨?_, ?_, bit_evt_same _ (by omega) _, fun hroom => ?_⟩
    · rw [evt_ptp, inc32_ptp]
      rfl
    · rw [reg_evt_other _ (by decide), reg_inc32_other _ (by decide)]
      rfl
    · rw [reg_evt_other _ (by decide)]
      exact reg_inc32 (sampleTaken (reqAnswered s e) v) _ hroom
  case unmatched =>
    rw [delayResp_of_unmatched hh hx hf]
    exact ⟨inc32_ptp s _, inc32_sameRegsBut s _, reg_inc32 s _⟩
  case announce =>
    obtain ⟨b, hb⟩ := announce_of_heard hh gm best utc st.val master
    have hgm : best ≠ (announceNoted s gm best utc st).ptp.gm := by rwa [announceNoted_gm]
    have hreg {a : Nat} := reg_setMaster_selectGm (a := a) hgm b
    have hptp := setMaster_ptp (selectGm (announceNoted s gm best utc st) best) b
    rw [rolesNoted, selectGm_ptp hgm, gmNoted_ptp] at hptp
    rw [hb]
    refine ⟨?_, ?_, ?_, ?_, ?_, fun hslave => ?_, fun heq => ⟨?_, ?_⟩⟩
    · rw [hptp]
    · rw [reg64, hreg (by decide) (by decide), hreg (by decide) (by decide)]
      exact reg64_gmNoted _ best
    · rw [bit, hreg (by decide) (by decide), reg_gmNoted_portState, getLsbD_putBit _ _ _ _ (by omega), if_pos rfl]
    · rw [bit_setMaster_evt _ _ (by decide), bit, reg_selectGm hgm (by decide) (by decide) (by decide)]
      exact bit_evt_same _ (by omega) _
    · rw [getF, hreg (by decide) (by decide), reg_gmNoted_portState, fld_putBit_other _ _ (by omega) (by omega) (by omega)]
      exact getF_announceNoted s gm best utc st st.isLt
    · rw [hptp]
      exact if_pos ((slaveOnly_selectGm hgm).trans ((slaveOnly_announceNoted s gm best utc st).trans hslave))
    · subst heq
      rw [hreg (by decide) (by decide), reg_gmNoted_other _ _ (by decide)]
      exact (announceNoted_of_gm s gm utc st).1
    · subst heq
      rw [hptp]
      exact (announceNoted_of_gm s gm utc st).2
  case read =>
    rw [portStateRead_of_reaches h]
    refine ⟨?_, reg_setBit_same _ _ _ _, fun a ha => reg_setBit_other _ _ _ (by simpa using ha), ?_⟩
    · rw [setBit_bus]
      rfl
    · exact (setBit_changes rfl (answer_changes rfl (.refl _ s) _) _ _ _).same
  case timeout =>
    rw [syncTimeout_of_slave he hm]
    refine ⟨?_, ?_, ?_, fun hr => ?_⟩
    · rw [bit, reg_ptpLost _ (by decide) (by decide) (by decide)]
      exact bit_evt_same _ (by omega) _
    · rw [ptpLost_ptp]
    · rw [ptpLost_ptp]
    · rw [ptpLost_pos, evt_stp]
      exact not_later_reachAfter hr _ _

end Sys2Proof.Machine
end

section
/-! Proof of AudioTableWindow: an access by its table, what a read shows in the data registers, and what the write of a slot leaves. -/

namespace Sys2Proof.Machine

open State

/-! ### Reads (R261, R266, R454) -/

section Read
variable {s : State}

/-- An entry stands in the data registers, and the access has ended. -/
def audShown (s : State) (l : List Word) : State := (s.putData (Reg.audTblData 0) 8 l).tblDone Reg.audTblStat

theorem reg_audShown_data (l : List Word) {k : Nat} (hk : k < 8) : (audShown s l).reg (Reg.audTblData k) = l.getD k 0 := by
  rw [audShown, tblDone, reg_setN_other _ _ (by simp only [Reg.audTblData, Reg.audTblStat]; omega)]
  exact reg_putData _ _ _ hk

theorem reg_audShown_stat (l : List Word) : (audShown s l).reg Reg.audTblStat = 1 := reg_tblDone_same _ _

theorem tblRefuse_sameRegsBut (s : State) (stat : Nat) : SameRegsBut [stat] s (s.tblRefuse stat) := fun _ ha =>
  reg_setN_other _ _ (by simpa using ha)

variable (ha : s.answers Pg.aud = true) (hw : s.bit Reg.audTblAddr 16 = false)
include ha hw

theorem audTableRead_of_slot (ht : audTable s = 0) : audTableRead s = audShown s [slotWord s (audIndex s)] := by
  simp only [audTableRead, ha, hw, ht, Bool.not_true, Bool.or_self, Bool.false_eq_true, if_false]
  rfl

theorem audTableRead_of_flow (ht : audTable s = 1) (hi : audIndex s < 256) :
    audTableRead s = audShown s (audFlow s (audIndex s)) := by
  simp only [audTableRead, ha, hw, ht, hi, Bool.not_true, Bool.or_self, Bool.false_eq_true, if_false, if_true]
  rfl

/-- TABLE 3 names no table, and channel status has 32 entries, one for each sub-frame of the 16 inputs. -/
theorem audTableRead_of_unnamed (h : audTable s = 3 ∨ (audTable s = 2 ∧ 32 ≤ audIndex s)) :
    audTableRead s = s.tblRefuse Reg.audTblStat := by
  obtain ht | ⟨ht, hi⟩ := h
  · simp only [audTableRead, ha, hw, ht, Bool.not_true, Bool.or_self, Bool.false_eq_true, if_false]
  · simp only [audTableRead, ha, hw, ht, Nat.not_lt.2 hi, Bool.not_true, Bool.or_self, Bool.false_eq_true, if_false]

end Read

/-! ### The write of a slot (R261) -/

section Write
variable {s : State}

/-- The slot table with the entry that the data registers give: the fields of Table 11-1 alone are kept. -/
def slotWritten (s : State) : State :=
  { s with aud := { s.aud with
      slots := Store.put (fun _ => (0 : Word)) s.aud.slots (audIndex s) (s.reg (Reg.audTblData 0) &&& 0x003FFF07) } }

def slotsInUse (s : State) : Nat := (s.aud.slots.filter (fun e => decide (slotKind e.2 ≠ 0))).length

theorem slotWord_of_aud {t : State} (h : t.aud = s.aud) (i : Nat) : slotWord t i = slotWord s i := by rw [slotWord, slotWord, h]

theorem slotWord_slotWritten (s : State) (i : Nat) : slotWord (slotWritten s) i =
    if i = audIndex s then s.reg (Reg.audTblData 0) &&& 0x003FFF07 else slotWord s i := Store.get_put ..

/-- SLOTS shows how many slots are in use, and the access has ended. -/
def slotsCounted (s : State) : State := (s.setF Reg.audSlots 10 0 (slotsInUse s)).tblDone Reg.audTblStat

theorem slotsCounted_aud (s : State) : (slotsCounted s).aud = s.aud := by rw [slotsCounted, tblDone, setN_aud, setF_aud]

theorem reg_slotsCounted_other {a : Nat} (h : a ∉ [Reg.audTblStat, Reg.audSlots]) : (slotsCounted s).reg a = s.reg a := by
  simp only [List.mem_cons, List.not_mem_nil, or_false, not_or] at h
  obtain ⟨hstat, hslots⟩ := h
  rw [slotsCounted, tblDone, reg_setN_other _ _ hstat, reg_setF_other _ _ _ _ hslots]

theorem audTableWrite_of_slot (ha : s.answers Pg.aud = true) (hw : s.bit Reg.audTblAddr 16 = true) (ht : audTable s = 0) :
    audTableWrite s = slotsCounted (slotWritten s) := by
  simp only [audTableWrite, ha, hw, ht, Bool.not_true, Bool.or_self, Bool.false_eq_true, if_false, if_true]
  rfl

end Write

/-- Settles O35: each access by its table. -/
theorem audioTableWindow : Obligations.AudioTableWindow := by
  unfold Obligations.AudioTableWindow
  refine ⟨fun s ha hw ht => ⟨_, rfl, ?slot⟩, fun s ha hw ht hi => ⟨_, rfl, ?flow⟩, fun s ha hw h => ⟨_, rfl, ?refused⟩,
    fun s ha hw ht => ⟨_, rfl, ?write⟩⟩
  case slot =>
    have hsame := (audTableRead_changes rfl (.refl [.regs] s)).same
    rw [audTableRead_of_slot ha hw ht] at hsame ⊢
    refine ⟨reg_audShown_data _ (by omega), fun k ⟨hk, hk8⟩ => ?_, reg_audShown_stat _, hsame⟩
    rw [reg_audShown_data _ hk8, List.getD_eq_default _ _ hk]
  case flow =>
    have hsame := (audTableRead_changes rfl (.refl [.regs] s)).same
    rw [audTableRead_of_flow ha hw ht hi] at hsame ⊢
    exact ⟨fun k hk => reg_audShown_data _ hk, reg_audShown_stat _, hsame⟩
  case refused =>
    rw [audTableRead_of_unnamed ha hw h]
    exact ⟨reg_setN_same _ _ _, tblRefuse_sameRegsBut _ _⟩
  case write =>
    rw [audTableWrite_of_slot ha hw ht]
    refine ⟨?_, fun k hk => ?_, reg_tblDone_same _ _, fun a h => ?_⟩
    · rw [slotWord_of_aud (slotsCounted_aud _), slotWord_slotWritten, if_pos rfl]
    · rw [slotWord_of_aud (slotsCounted_aud _), slotWord_slotWritten, if_neg hk]
    · rw [reg_slotsCounted_other h, slotWritten, reg_with_aud]

end Sys2Proof.Machine
end

section
/-! Proof of AudioGridAndStreams: what handling an instant leaves, tracks at a later position, and the PES and the packet that a stream
sends. -/

namespace Sys2Proof.Machine

open State

/-! ### Instants (R260, R267) -/

section Grid
variable {s : State}

theorem readSource_grid (s : State) (k : Nat) : (readSource s k).aud.grid = s.aud.grid := by
  unfold readSource
  extract_lets x i kind q t
  split
  · split <;> rfl
  · split
    · split <;> rfl
    · split
      · rfl
      · split
        · rfl
        · rw [evt_aud]
          split
          · rw [inc32_aud]
            rfl
          · rfl

theorem networkUnder_grid (s : State) (k : Nat) : (networkUnder s k).aud.grid = s.aud.grid := by
  unfold networkUnder
  extract_lets x missing
  split
  · rw [evt_aud]
    rfl
  · rfl

theorem aesOutput_grid (s : State) (o : Nat) : (aesOutput s o).aud.grid = s.aud.grid := by
  unfold aesOutput
  extract_lets x z cfg y c send n t0
  have hsend (a b : ASample) (u : Bool) : (send a b u).aud.grid = s.aud.grid := rfl
  split
  · rfl
  · split
    · exact hsend ..
    · split <;> exact hsend ..

theorem foldl_grid {f : State → Nat → State} (hf : ∀ t k, (f t k).aud.grid = t.aud.grid) (l : List Nat) (s : State) :
    (l.foldl f s).aud.grid = s.aud.grid :=
  List.foldlRecOn (motive := fun t => t.aud.grid = s.aud.grid) l f rfl fun t ht k _ => (hf t k).trans ht

theorem atInstant_grid (s : State) (k : Nat) : (atInstant s k).aud.grid = k := by
  unfold atInstant
  extract_lets audio t keys t' t''
  calc ((t''.aud.outs.map (fun e => e.1)).foldl aesOutput t'').aud.grid
    _ = t''.aud.grid := foldl_grid aesOutput_grid _ _
    _ = t'.aud.grid := foldl_grid networkUnder_grid _ _
    _ = t.aud.grid := foldl_grid readSource_grid _ _

theorem atInstant_stp (s : State) (k : Nat) : (atInstant s k).stp = s.stp :=
  (atInstant_changes rfl (.refl [.regs, .aud, .sent] s) k).same .stp (by decide)

theorem gridInstant_of_master (he : s.enabled Pg.aud = true) (hm : s.bit Reg.audCfg 1 = true) :
    gridInstant s = atInstant s (s.aud.grid + 1) := by
  simp only [gridInstant, masterMode, he, hm, Bool.not_true, Bool.false_eq_true, if_false, if_true]

theorem gridInstant_of_steeple (he : s.enabled Pg.aud = true) (hm : s.bit Reg.audCfg 1 = false) (hr : s.running = true) :
    gridInstant s = atInstant (s.toPos (instantAt s (nextInstant s))) (nextInstant s) := by
  simp only [gridInstant, masterMode, he, hm, hr, Bool.not_true, Bool.false_eq_true, if_false, if_true]

theorem gridInstant_faults (s : State) : (gridInstant s).faults = s.faults :=
  (gridInstant_changes rfl (.refl [.regs, .stp, .aud, .sent] s)).same .faults (by decide)

end Grid

/-! ### Outputs (R273) -/

theorem outputConfig_of_answers {s : State} (ha : s.answers Pg.aud = true) (o : Nat) (w : Word) : outputConfig s o w =
    setAout (s.setReg (Reg.audOutCfg o) (w &&& 0x00030F7F)) o { aout s o with next := some (w &&& 0x00030F7F) } := if_pos ha

/-! ### Tracks at a later position (R272) -/

section Track
variable (s : State) (p : BitVec 64) (n : Nat)

theorem toPos_aud : (s.toPos p).aud = s.aud := (toPos_changes rfl (.refl [.regs, .stp] s) p).same .aud (by decide)
theorem toPos_etm : (s.toPos p).etm = s.etm := (toPos_changes rfl (.refl [.regs, .stp] s) p).same .etm (by decide)

theorem trackSlot_toPos (t : Nat) : trackSlot (s.toPos p) n t = trackSlot s n t := by
  rw [trackSlot, trackSlot, bit, bit, getF, getF, reg_toPos] <;>
    simp only [Reg.chaudTrack, Reg.ptpMapLo, Reg.ptpMapHi, Reg.stpHoldFrames] <;> omega

theorem slotSample_toPos (i q : Nat) : slotSample (s.toPos p) i q = slotSample s i q := by
  simp only [slotSample, slotWord_of_aud (toPos_aud s p), asrc_of_aud (toPos_aud s p)]

theorem trackSample_toPos (t q : Nat) : trackSample (s.toPos p) n t q = trackSample s n t q := by
  rw [trackSample, trackSample, trackSlot_toPos]
  cases trackSlot s n t with
  | none => rfl
  | some i => exact slotSample_toPos s p i q

theorem trackBlock_toPos (first count : Nat) (l : List (Nat × BitVec 64)) :
    trackBlock (s.toPos p) n first count l = trackBlock s n first count l := by
  simp only [trackBlock, trackSample_toPos]

/-- The position has reached the output instant of the channel's samples with a stamp at `p`. -/
def outputReached : State := s.toPos (s.posAdd p (delayUnits (s.cfgOf n)))

end Track

/-! ### The PES of a channel frame (R274) -/

section Pes
variable {s : State} {n k : Nat} {f : BitVec 32} {first last : Nat × BitVec 64}

/-- Frame of the last PES of a stream, plus 1; 0 before the first. -/
def pesDone (s : State) (n k : Nat) : Nat := Store.get (fun _ => 0) s.aud.pes (4 * n + k)

/-- The position at which a channel frame has ended. -/
def channelFrameEnd (s : State) (n : Nat) (f : BitVec 32) : BitVec 64 := posOf (f + BitVec.ofNat 32 (s.cfgOf n).div) 0

/-- The instants of a channel frame. -/
def frameInstants (s : State) (n : Nat) (f : BitVec 32) : List (Nat × BitVec 64) := instantsIn s (posOf f 0) (channelFrameEnd s n f)

/-- Offset of a channel frame's first stamp from the frame in 90 kHz units, to the nearest. -/
def stampOffset (s : State) (f : BitVec 32) (p : BitVec 64) : Nat :=
  (2 * unitsBetween s (posOf f 0) p * s.framePeriod.1 * 90000 + s.frameUnits * s.framePeriod.2) / (2 * (s.frameUnits * s.framePeriod.2))

theorem natCast_stampOffset (s : State) (f : BitVec 32) (p : BitVec 64) : (stampOffset s f p : Int) =
    (2 * unitsBetween s (posOf f 0) p * s.framePeriod.1 * 90000 + s.frameUnits * s.framePeriod.2) /
      (2 * (s.frameUnits * s.framePeriod.2)) := by
  rw [stampOffset]
  push_cast
  rfl

/-- The samples of a channel frame that a stream carries. -/
def pesSamples (s : State) (n k : Nat) (f : BitVec 32) : List (BitVec 24) :=
  trackBlock s n (s.getF (Reg.chaudS302 n k) 7 4) (2 * (s.getF (Reg.chaudS302 n k) 2 1 + 1)) (frameInstants s n f)

/-- A PES is sent and noted by its channel frame. -/
def pesNoted (t : State) (n k : Nat) (f : BitVec 32) (ofs : Nat) (smp : List (BitVec 24)) : State :=
  { t with aud := { t.aud with pes := Store.put (fun _ => 0) t.aud.pes (4 * n + k) (f.toNat + 1) }, sent := .pes n k ofs smp :: t.sent }

theorem pesDone_pesNoted (t : State) (ofs : Nat) (smp : List (BitVec 24)) : pesDone (pesNoted t n k f ofs smp) n k = f.toNat + 1 := by
  rw [pesDone, pesNoted, Store.get_put_same]

/-- A PES is noted once it has joined the transport streams at the output instant of its last sample. -/
theorem pesRelease_of_frame (he : s.enabled Pg.aud = true) (hs : s.bit (Reg.chaudS302 n k) 0 = true) (ho : audioOn s n = true)
    (hf : (s.chan n).starts.reverse.find? (fun g =>
      decide (pesDone s n k = 0 ∨ 0 < (g - BitVec.ofNat 32 (pesDone s n k - 1)).toInt)) = some f)
    (hend : s.aud.grids.any (fun e => !(later (channelFrameEnd s n f) e.2)) = true)
    (hfirst : (frameInstants s n f).head? = some first) (hlast : (frameInstants s n f).getLast? = some last) :
    ∃ t, Changes [.regs, .chans, .etm, .aud] (outputReached s last.2 n) t ∧
      pesRelease s n k = pesNoted t n k f (stampOffset s f first.2) (pesSamples s n k f) := by
  have hsamples : pesSamples s n k f = trackBlock (outputReached s last.2 n) n (s.getF (Reg.chaudS302 n k) 7 4)
      (2 * (s.getF (Reg.chaudS302 n k) 2 1 + 1)) (frameInstants s n f) := (trackBlock_toPos ..).symm
  refine ⟨(tsRends s n).foldl (fun t r => pesInto t n k f (stampOffset s f first.2) (pesSamples s n k f) r)
      (outputReached s last.2 n), Changes.foldl (fun _ _ h => pesInto_changes rfl h _ _ _ _ _ _) (.refl _ _), ?_⟩
  have hwait : (!(s.enabled Pg.aud) || !(s.bit (Reg.chaudS302 n k) 0) || !(audioOn s n) ||
      !(s.aud.grids.any (fun e => !(later (channelFrameEnd s n f) e.2)))) = false := by rw [he, hs, ho, hend]; rfl
  rw [hsamples]
  unfold pesRelease
  extract_lets w done next c
  have hnext : next = some f := hf
  rw [hnext]
  dsimp -zeta only
  extract_lets a b l den
  have hfirst' : l.head? = some first := hfirst
  have hlast' : l.getLast? = some last := hlast
  refine (if_neg (ne_true_of_eq_false hwait)).trans ?_
  rw [hfirst', hlast']
  rfl

end Pes

/-! ### The packets of an AES67 stream (R275) -/

section Aes67
variable {s t u : State} {n k : Nat} {first last : Nat × BitVec 64}

/-- Copies that have joined the ETM's queue: the paths in use stand. -/
structure CopiesJoin (m : Nat) (s t : State) : Prop where
  changes : Changes [.etm] s t
  queue : t.etm.queue.length = s.etm.queue.length + m
  withdrawn : t.etm.withdrawn = s.etm.withdrawn

theorem CopiesJoin.trans {m m' : Nat} (h : CopiesJoin m s t) (h' : CopiesJoin m' t u) : CopiesJoin (m + m') s u :=
  ⟨h.changes.trans h'.changes, by rw [h'.queue, h.queue, Nat.add_assoc], h'.withdrawn.trans h.withdrawn⟩

theorem enqueue_queue (s : State) (c : Copy) : (enqueue s c).etm.queue = s.etm.queue ++ [c] := by
  unfold enqueue
  split <;> rfl

theorem enqueue_withdrawn (s : State) (c : Copy) : (enqueue s c).etm.withdrawn = s.etm.withdrawn := by
  unfold enqueue
  split <;> rfl

theorem markDepth_queue (s : State) (c : Copy) : (markDepth s c).etm.queue = s.etm.queue := by
  unfold markDepth
  split <;> rfl

theorem markDepth_withdrawn (s : State) (c : Copy) : (markDepth s c).etm.withdrawn = s.etm.withdrawn := by
  unfold markDepth
  split <;> rfl

theorem copiesJoin_of_copy (s : State) (c : Copy) : CopiesJoin 1 s (markDepth (enqueue s c) c) where
  changes := markDepth_changes rfl (enqueue_changes rfl (.refl _ s) c) c
  queue := by rw [markDepth_queue, enqueue_queue, List.length_append, List.length_singleton]
  withdrawn := by rw [markDepth_withdrawn, enqueue_withdrawn]

/-- A copy for path A or B joins the queue, unless the path is withdrawn (R237). -/
def pathCopyJoined (copy : State → Bool → Copy) (t : State) (pathB : Bool) : State :=
  if pathWithdrawn t pathB then t else markDepth (enqueue t (copy t pathB)) (copy t pathB)

theorem copiesJoin_pathCopyJoined (copy : State → Bool → Copy) (h : t.etm.withdrawn = (false, false)) (pathB : Bool) :
    CopiesJoin 1 t (pathCopyJoined copy t pathB) := by
  have huse : pathWithdrawn t pathB = false := by rw [pathWithdrawn, h]; cases pathB <;> rfl
  rw [pathCopyJoined, huse]
  exact copiesJoin_of_copy t _

theorem copiesJoin_of_both_paths (copy : State → Bool → Copy) (h : t.etm.withdrawn = (false, false)) :
    CopiesJoin 2 t ([false, true].foldl (pathCopyJoined copy) t) :=
  have hA := copiesJoin_pathCopyJoined copy h false
  hA.trans (copiesJoin_pathCopyJoined copy (hA.withdrawn.trans h) true)

/-- Samples of a track in a packet. -/
def samplesPerPacket (s : State) (n k : Nat) : Nat := s.audFs / (if s.bit (Reg.chaudAesCtrl n k) 1 then 8000 else 1000)

/-- First stamp of the next packet, plus 1. -/
def nextStamp (s : State) (n k : Nat) : Nat := Store.get (fun _ => 0) s.aud.pkts (4 * n + k)

/-- The instants of the next packet, as far as they have come. -/
def packetInstants (s : State) (n k : Nat) : List (Nat × BitVec 64) :=
  ((s.aud.grids.filter (fun e => decide (nextStamp s n k ≤ e.1 + 1) && audioAt s n e.2)).reverse).take (samplesPerPacket s n k)

/-- The samples that the next packet carries. -/
def packetSamples (s : State) (n k : Nat) : List (BitVec 24) :=
  trackBlock s n (s.getF (Reg.chaudAesCtrl n k) 11 8) (s.getF (Reg.chaudAesCtrl n k) 7 2) (packetInstants s n k)

/-- The payload unit of a packet whose last stamp's output instant has come: L24, three bytes of each sample. -/
def packetUnit (t : State) (n k stamp : Nat) (rtp : BitVec 32) (smp : List (BitVec 24)) : PayUnit :=
  ⟨512 + 4 * n + k, stamp, smp.flatMap (fun v => (beBytes 3 v.toNat).map (BitVec.ofNat 8)), rtp, 0, t.stp.pos, false, false⟩

/-- The copy of a packet for path A or B, under the node and with the next hop that the stream names for the path. -/
def packetCopy (n k stamp : Nat) (t : State) (pathB : Bool) : Copy :=
  ⟨512 + 4 * n + k, pathB, aesNode t n k pathB, 512 + 4 * n + k, stamp, headerBytes t false (aesHop t n k pathB) + aesPayload t n k,
    t.stp.pos, false, none, false, []⟩

/-- The next packet is made at the output instant of its last stamp, and noted by that stamp. -/
def packetNoted (s : State) (n k : Nat) (first last : Nat × BitVec 64) : State :=
  let t := outputReached s last.2 n
  let u := packetUnit t n k first.1 (rtpOf s first) (packetSamples s n k)
  { t with
    aud := { t.aud with pkts := Store.put (fun _ => 0) t.aud.pkts (4 * n + k) (last.1 + 2) }
    etm := { t.etm with units := t.etm.units ++ [u], newest := Store.put (fun _ => 0) t.etm.newest u.rend (u.k + 1) }
    sent := .rtpAudio n k (rtpOf s first) (packetSamples s n k) :: t.sent }

theorem nextStamp_of_aud (h : t.aud = s.aud) : nextStamp t n k = nextStamp s n k := by rw [nextStamp, nextStamp, h]

theorem nextStamp_packetNoted : nextStamp (packetNoted s n k first last) n k = last.1 + 2 := by
  rw [nextStamp, packetNoted, Store.get_put_same]

/-- Before its copies join, a packet leaves the queue and the paths in use as they stood. -/
theorem packetNoted_queue : (packetNoted s n k first last).etm.queue = s.etm.queue := congrArg (·.queue) (toPos_etm s _)

theorem packetNoted_withdrawn : (packetNoted s n k first last).etm.withdrawn = s.etm.withdrawn :=
  congrArg (·.withdrawn) (toPos_etm s _)

theorem aes67Release_of_due (he : s.enabled Pg.aud = true) (hs : s.bit (Reg.chaudAesCtrl n k) 0 = true)
    (hfirst : (packetInstants s n k).head? = some first) (hlast : (packetInstants s n k).getLast? = some last)
    (hdue : samplesPerPacket s n k ≤ (packetInstants s n k).length) :
    aes67Release s n k = [false, true].foldl (pathCopyJoined (packetCopy n k first.1)) (packetNoted s n k first last) := by
  have hwait : (!(s.enabled Pg.aud) || !(s.bit (Reg.chaudAesCtrl n k) 0) ||
      decide ((packetInstants s n k).length < samplesPerPacket s n k)) = false := by
    rw [he, hs, decide_eq_false (Nat.not_lt.2 hdue)]
    rfl
  have hsamples : packetSamples s n k = trackBlock (outputReached s last.2 n) n
      (s.getF (Reg.chaudAesCtrl n k) 11 8) (s.getF (Reg.chaudAesCtrl n k) 7 2) (packetInstants s n k) := (trackBlock_toPos ..).symm
  rw [packetNoted, hsamples]
  unfold aes67Release
  extract_lets w spp next l
  have hfirst' : l.head? = some first := hfirst
  have hlast' : l.getLast? = some last := hlast
  rw [hfirst', hlast']
  exact if_neg (ne_true_of_eq_false hwait)

end Aes67

/-- Settles O34: an instant by the mode, an output by its register, a PES and a packet by the state in which their last sample is due. -/
theorem audioGridAndStreams : Obligations.AudioGridAndStreams := by
  unfold Obligations.AudioGridAndStreams
  refine ⟨fun s he hm => ⟨_, rfl, ?master⟩, fun s he hm hr => ⟨_, rfl, ?steeple⟩, fun o w s ha => ⟨_, rfl, ?output⟩,
    fun n k f first last s he hs ho hf hend hfirst hlast => ⟨_, rfl, ?pes⟩,
    fun n k l first last s he hm hs hl hfirst hlast hdue hw => ⟨_, rfl, ?packet⟩⟩
  case master =>
    refine ⟨?_, ?_, gridInstant_faults s⟩
    · rw [gridInstant_of_master he hm, atInstant_grid]
    · rw [gridInstant_of_master he hm, atInstant_stp]
  case steeple =>
    refine ⟨?_, ?_, gridInstant_faults s⟩
    · rw [gridInstant_of_steeple he hm hr, atInstant_grid]
    · rw [gridInstant_of_steeple he hm hr, atInstant_stp]
  case output =>
    have hsame := (outputConfig_changes rfl (.refl [.regs, .aud] s) o w).same
    rw [outputConfig_of_answers ha] at hsame ⊢
    refine ⟨reg_setReg_same _ _ _, by rw [setAout_aout_same], by rw [setAout_aout_same], fun a h => ?_, hsame⟩
    exact reg_setReg_other _ _ (by simpa using h)
  case pes =>
    obtain ⟨t, ht, heq⟩ := pesRelease_of_frame he hs ho hf hend hfirst hlast
    rw [heq]
    refine ⟨?_, pesDone_pesNoted _ _ _, congrArg (·.pos) (ht.same .stp (by decide))⟩
    rw [← natCast_stampOffset]
    rfl
  case packet =>
    subst hl
    rw [aes67Release_of_due he hs hfirst hlast hdue]
    have hrtp : rtpOf s first = BitVec.ofNat 32 first.1 := by rw [rtpOf, masterMode, hm]; rfl
    obtain ⟨hchanges, hqueue, -⟩ := copiesJoin_of_both_paths (packetCopy n k first.1) (packetNoted_withdrawn.trans hw)
    refine ⟨?_, ?_, ?_⟩
    · rw [hchanges.same .sent (by decide), ← hrtp]
      rfl
    · rw [hqueue, packetNoted_queue]
    · change nextStamp _ n k = _
      rw [nextStamp_of_aud (hchanges.same .aud (by decide)), nextStamp_packetNoted]

end Sys2Proof.Machine
end

section
/-! Proofs of EveryCommandChangesOnlyItsParts, StepKeepsCanonicalForms and EveryCommandCompletes, and of StepRunsTheFrontCommand and
ResetIsCanonical: each arm of exec answers a next state, and what that state may change is what the law of its block's function says. -/

namespace Sys2Proof.Machine

open State

/-! ### What a command may change -/

/-- The log of a stall changes the Reeve and raises a fault (R298). -/
theorem reeveStall_changes (s : State) :
    ∃ t, execReeveStall s = .next t ∧ Changes [.regs, .rv, .faults] s t := by
  refine ⟨_, rfl, ?_⟩
  split
  · exact .refl _ s
  · exact raise_changes rfl (evt_changes rfl (inc32_changes rfl (.set_rv rfl (.refl _ s) _) _) _ _) _ _ _ _

/-- Every command completes, and changes at most the parts that the table lists for it. -/
theorem exec_changes (c : Instr) (s : State) : ∃ t, exec c s = .next t ∧ Changes (touches c) s t :=
  match c with
  | .posLoRead m => ⟨_, rfl, posLoRead_changes rfl (.refl _ s) m⟩
  | .steepleEnable => ⟨_, rfl, steepleEnable_changes rfl (.refl _ s)⟩
  | .steepleDisable => ⟨_, rfl, steepleDisable_changes rfl (.refl _ s)⟩
  | .sourceSelect sel refclk input => ⟨_, rfl, selectSource_changes rfl (.refl _ s) sel refclk input⟩
  | .sourceSelectFreeRun refclk input => ⟨_, rfl, selectFreeRun_changes rfl (.refl _ s) refclk input⟩
  | .refFramePulse err ppb => ⟨_, rfl, refFramePulse_changes rfl (.refl _ s) err ppb⟩
  | .refLost => ⟨_, rfl, refLost_changes rfl (.refl _ s)⟩
  | .jumpAccept => ⟨_, rfl, jumpAccept_changes rfl (.refl _ s)⟩
  | .ptpJumpAccept => ⟨_, rfl, ptpJumpAccept_changes rfl (.refl _ s)⟩
  | .steepleStep => ⟨_, rfl, steepleStep_changes rfl (.refl _ s)⟩
  | .actionArm n w => ⟨_, rfl, actCtrlWrite_changes rfl (.refl _ s) n (putBit w 0 true)⟩
  | .actionDisarm n w => ⟨_, rfl, actCtrlWrite_changes rfl (.refl _ s) n (putBit w 0 false)⟩
  | .actionFire n => ⟨_, rfl, actionFire_changes rfl (.refl _ s) n⟩
  | .placementEpoch => ⟨_, rfl, placementEpoch_changes rfl (.refl _ s)⟩
  | .channelEnable n => ⟨_, rfl, channelEnable_changes rfl (.refl _ s) n⟩
  | .channelDisable n => ⟨_, rfl, channelDisable_changes rfl (.refl _ s) n⟩
  | .quiesceSet n => ⟨_, rfl, quiesceSet_changes rfl (.refl _ s) n⟩
  | .quiesceClear n => ⟨_, rfl, quiesceClear_changes rfl (.refl _ s) n⟩
  | .allotCompact => ⟨_, rfl, allotCompact_changes rfl (.refl _ s)⟩
  | .oldExtentFreed n => ⟨_, rfl, oldExtentFreed_changes rfl (.refl _ s) n⟩
  | .channelFrameStart n => ⟨_, rfl, channelFrameStart_changes rfl (.refl _ s) n⟩
  | .controlLine n => ⟨_, rfl, controlLine_changes rfl (.refl _ s) n⟩
  | .rotationPoint => ⟨_, rfl, rotationPoint_changes rfl (.refl _ s)⟩
  | .rotationHandover => ⟨_, rfl, rotationHandover_changes rfl (.refl _ s)⟩
  | .mpRefetch plot slot clocks => ⟨_, rfl, mpRefetch_changes rfl (.refl _ s) plot slot clocks⟩
  | .plotSwap plot => ⟨_, rfl, plotSwap_changes rfl (.refl _ s) plot⟩
  | .gleanerRecordsReady n row => ⟨_, rfl, gleanerRecords_changes rfl (.refl _ s) n row⟩
  | .rowStart slot => ⟨_, rfl, rowStart_changes rfl (.refl _ s) slot⟩
  | .ctuDecide slot => ⟨_, rfl, ctuDecide_changes rfl (.refl _ s) slot⟩
  | .rowComplete slot stalls fixed => ⟨_, rfl, rowComplete_changes rfl (.refl _ s) slot stalls fixed⟩
  | .engineQuiesce pg v => ⟨_, rfl, engineQuiesce_changes rfl (.refl _ s) pg v⟩
  | .engineHang e stall => ⟨_, rfl, engineHang_changes rfl (.refl _ s) e stall⟩
  | .deadlineMiss n rend tile row => ⟨_, rfl, deadlineMiss_changes rfl (.refl _ s) n rend tile row⟩
  | .eeStatClr pg => ⟨_, rfl, eeStatClr_changes rfl (.refl _ s) pg⟩
  | .chrcStatClr n => ⟨_, rfl, chrcStatClr_changes rfl (.refl _ s) n⟩
  | .compositeLine n line late => ⟨_, rfl, compositeLine_changes rfl (.refl _ s) n line late⟩
  | .ladderLine n stage line => ⟨_, rfl, ladderLine_changes rfl (.refl _ s) n stage line⟩
  | .chcompCommit n => ⟨_, rfl, chcompCommit_changes rfl (.refl _ s) n⟩
  | .commitCopy n => ⟨_, rfl, commitCopy_changes rfl (.refl _ s) n⟩
  | .layerRelease n => ⟨_, rfl, layerRelease_changes rfl (.refl _ s) n⟩
  | .lutEntryWrite n => ⟨_, rfl, lutWrite_changes rfl (.refl _ s) n⟩
  | .lutEntryRead n => ⟨_, rfl, lutRead_changes rfl (.refl _ s) n⟩
  | .lutPresetGo n preset go => ⟨_, rfl, lutPreset_changes rfl (.refl _ s) n preset go⟩
  | .clpEnable n => ⟨_, rfl, clpEnable_changes rfl (.refl _ s) n⟩
  | .clpDisable n => ⟨_, rfl, clpDisable_changes rfl (.refl _ s) n⟩
  | .laneCdrLock n p => ⟨_, rfl, laneCdrLock_changes rfl (.refl _ s) n p⟩
  | .laneCdrTimeout n p => ⟨_, rfl, laneCdrTimeout_changes rfl (.refl _ s) n p⟩
  | .laneAdaptComplete n p points wide => ⟨_, rfl, laneAdaptComplete_changes rfl (.refl _ s) n p points wide⟩
  | .laneAlignComplete n p skew => ⟨_, rfl, laneAlignComplete_changes rfl (.refl _ s) n p skew⟩
  | .laneAlignTimeout n p => ⟨_, rfl, laneAlignTimeout_changes rfl (.refl _ s) n p⟩
  | .clpDataRow n linkX chars => ⟨_, rfl, clpDataRow_changes rfl (.refl _ s) n linkX chars⟩
  | .bamSend n linkX => ⟨_, rfl, bamSend_changes rfl (.refl _ s) n linkX⟩
  | .bamReceived n linkX lanes skp => ⟨_, rfl, bamReceived_changes rfl (.refl _ s) n linkX lanes skp⟩
  | .laneFailed n p cause => ⟨_, rfl, laneFails_changes rfl (.refl _ s) n p cause⟩
  | .narrow n linkX mask crc => ⟨_, rfl, narrow_changes rfl (.refl _ s) n linkX mask.toNat crc.toNat⟩
  | .narrowAck n linkX mask crc => ⟨_, rfl, narrowAck_changes rfl (.refl _ s) n linkX mask.toNat crc.toNat⟩
  | .status n linkX rx => ⟨_, rfl, statusSet_changes rfl (.refl _ s) n linkX rx⟩
  | .clpBundleDown n linkX => ⟨_, rfl, clpBundleDown_changes rfl (.refl _ s) n linkX⟩
  | .retrain n p => ⟨_, rfl, retrain_changes rfl (.refl _ s) n p⟩
  | .autoRetrain n p => ⟨_, rfl, autoRetrain_changes rfl (.refl _ s) n p⟩
  | .lanePowerRequest n w => ⟨_, rfl, lanePowerRequest_changes rfl (.refl _ s) n w⟩
  | .laneClr n p => ⟨_, rfl, laneClr_changes rfl (.refl _ s) n p⟩
  | .clpPacket n linkX chars => ⟨_, rfl, clpPacket_changes rfl (.refl _ s) (fun _ _ _ _ h => audioPacket_changes rfl h _ _ _)
      (fun _ _ _ _ h => stileMessage_changes rfl h _ _ _) n linkX chars⟩
  | .rasterPacket inp word payload bundleB => ⟨_, rfl, rasterPacket_changes rfl (.refl _ s) inp word payload bundleB⟩
  | .ancillaryPacket inp line words => ⟨_, rfl, ancillaryPacket_changes rfl (.refl _ s) inp line.toNat (words.map BitVec.toNat)⟩
  | .audioPacket inp word samples => ⟨_, rfl, audioPacket_changes rfl (.refl _ s) inp word (samples.map BitVec.toNat)⟩
  | .formatPacket inp payload => ⟨_, rfl, formatPacket_changes rfl (.refl _ s) inp (payload.map BitVec.toNat)⟩
  | .st2110Packet inp pathB seq rtp segs len fifo => ⟨_, rfl, st2110Packet_changes rfl (.refl _ s) inp pathB seq rtp segs len fifo⟩
  | .lineMissing inp line half => ⟨_, rfl, lineMissing_changes rfl (.refl _ s) inp line half⟩
  | .inputLost inp cause => ⟨_, rfl, inputLost_changes rfl (.refl _ s) inp cause⟩
  | .freezeExpired inp => ⟨_, rfl, freezeExpired_changes rfl (.refl _ s) inp⟩
  | .inputReturned inp => ⟨_, rfl, inputReturned_changes rfl (.refl _ s) inp⟩
  | .ingestPathDown inp pathB => ⟨_, rfl, ingestPathDown_changes rfl (.refl _ s) inp pathB⟩
  | .inputEnable inp => ⟨_, rfl, inputEnable_changes rfl (.refl _ s) inp⟩
  | .inStatClr inp => ⟨_, rfl, inStatClr_changes rfl (.refl _ s) inp⟩
  | .ingTableRead => ⟨_, rfl, ingTableRead_changes rfl (.refl _ s)⟩
  | .ingTableWrite => ⟨_, rfl, ingTableWrite_changes rfl (.refl _ s)⟩
  | .payloadUnitRelease n rend => ⟨_, rfl, nextPayload_changes rfl (.refl _ s) n rend⟩
  | .portTransmit p => ⟨_, rfl, portTransmit_changes rfl (.refl _ s) p⟩
  | .etmTableRead => ⟨_, rfl, etmTableRead_changes rfl (.refl _ s)⟩
  | .etmTableWrite => ⟨_, rfl, etmTableWrite_changes rfl (.refl _ s)⟩
  | .etmTableReadClr => ⟨_, rfl, etmTableReadClr_changes rfl (.refl _ s)⟩
  | .eportCommit p => ⟨_, rfl, eportCommit_changes rfl (.refl _ s) p⟩
  | .calendarCopy p => ⟨_, rfl, calendarCopy_changes rfl (.refl _ s) p⟩
  | .sample => ⟨_, rfl, sample_changes rfl (.refl _ s)⟩
  | .ethEnable x => ⟨_, rfl, ethEnable_changes rfl (.refl _ s) x⟩
  | .ethStatClr x => ⟨_, rfl, ethStatClr_changes rfl (.refl _ s) x⟩
  | .linePortFrame x bytes => ⟨_, rfl, linePortFrame_changes rfl (.refl _ s) x bytes⟩
  | .cascadeFrame x bytes => ⟨_, rfl, cascadeFrame_changes rfl (.refl _ s) x bytes⟩
  | .linePortDown x sub => ⟨_, rfl, linePortDown_changes rfl (.refl _ s) x sub⟩
  | .ptpEnable => ⟨_, rfl, ptpEnable_changes rfl (.refl _ s)⟩
  | .sync x domain origin corr ppb => ⟨_, rfl, sync_changes rfl (.refl _ s) x domain origin corr ppb⟩
  | .syncSend x => ⟨_, rfl, syncSend_changes rfl (.refl _ s) x⟩
  | .announce x domain gm utc best state master => ⟨_, rfl, announce_changes rfl (.refl _ s) x domain gm utc best state master⟩
  | .delayReqSend => ⟨_, rfl, delayReqSend_changes rfl (.refl _ s)⟩
  | .delayReq x domain seq source corr => ⟨_, rfl, delayReq_changes rfl (.refl _ s) x domain seq source corr⟩
  | .delayResp x domain seq received corr => ⟨_, rfl, delayResp_changes rfl (.refl _ s) x domain seq received corr⟩
  | .announceTimeout => ⟨_, rfl, announceTimeout_changes rfl (.refl _ s)⟩
  | .syncTimeout => ⟨_, rfl, syncTimeout_changes rfl (.refl _ s)⟩
  | .portStateRead m => ⟨_, rfl, portStateRead_changes rfl (.refl _ s) m⟩
  | .audEnable => ⟨_, rfl, audEnable_changes rfl (.refl _ s)⟩
  | .aes3Subframe k pre bits violation ppm => ⟨_, rfl, aes3Subframe_changes rfl (.refl _ s) k pre bits violation ppm⟩
  | .audioMasterLost => ⟨_, rfl, audioMasterLost_changes rfl (.refl _ s)⟩
  | .pdmSample m bits => ⟨_, rfl, pdmSample_changes rfl (.refl _ s) m bits⟩
  | .networkAudioPacket flow pathB seq rtp payload => ⟨_, rfl, networkAudioPacket_changes rfl (.refl _ s) flow pathB seq rtp payload⟩
  | .gridInstant => ⟨_, rfl, gridInstant_changes rfl (.refl _ s)⟩
  | .outputConfigApply o w => ⟨_, rfl, outputConfig_changes rfl (.refl _ s) o w⟩
  | .s302mPesRelease n k => ⟨_, rfl, pesRelease_changes rfl (.refl _ s) n k⟩
  | .aes67PacketRelease n k => ⟨_, rfl, aes67Release_changes rfl (.refl _ s) n k⟩
  | .audTableRead => ⟨_, rfl, audTableRead_changes rfl (.refl _ s)⟩
  | .audTableWrite => ⟨_, rfl, audTableWrite_changes rfl (.refl _ s)⟩
  | .monEnable => ⟨_, rfl, monEnable_changes rfl (.refl _ s)⟩
  | .monitorLine line late => ⟨_, rfl, monitorLine_changes rfl (.refl _ s) line late⟩
  | .monCommit => ⟨_, rfl, monCommit_changes rfl (.refl _ s)⟩
  | .monCommitCopy => ⟨_, rfl, monCommitCopy_changes rfl (.refl _ s)⟩
  | .frameDone readback => ⟨_, rfl, frameDone_changes rfl (.refl _ s) readback⟩
  | .doorbellReady m t => ⟨_, rfl, doorbell_changes rfl (.refl _ s) m t 0 0⟩
  | .doorbellCancel m t => ⟨_, rfl, doorbell_changes rfl (.refl _ s) m t 1 0⟩
  | .doorbellPrio m t prio => ⟨_, rfl, doorbell_changes rfl (.refl _ s) m t 2 prio⟩
  | .doorbellAffinity m t mask => ⟨_, rfl, doorbell_changes rfl (.refl _ s) m t 3 mask.toNat⟩
  | .doorbellDeadline m t dl => ⟨_, rfl, doorbell_changes rfl (.refl _ s) m t 4 dl.toNat⟩
  | .doorbellReserved m _ => ⟨_, rfl, .ite (doorbellBad_changes rfl (.refl _ s) m) (.refl _ s)⟩
  | .reeveStall => reeveStall_changes s
  | .listEngineOperation => ⟨_, rfl, offer_changes rfl (listEngine_changes rfl (.refl _ s))⟩
  | .nextRead _ p => ⟨_, rfl, .ite (nextRead_changes rfl (.refl _ s) p) (answer_changes rfl (.refl _ s) [0])⟩
  | .doneWait p => ⟨_, rfl, threadDone_changes rfl (.refl _ s) p⟩
  | .doneYield p => ⟨_, rfl, doneYield_changes rfl (.refl _ s) p⟩
  | .threadLate t => ⟨_, rfl, threadLate_changes rfl (.refl _ s) t⟩
  | .reeveParity _ => ⟨_, rfl, raise_changes rfl (evt_changes rfl (.refl _ s) _ _) _ _ _ _⟩
  | .reeveTableRead => ⟨_, rfl, .ite (reeveTableRead_changes rfl (.refl _ s)) (.refl _ s)⟩
  | .reeveTableWrite m => ⟨_, rfl, .ite (reeveTableWrite_changes rfl (.refl _ s) m) (.refl _ s)⟩
  | .drain p => ⟨_, rfl, drain_changes rfl (.refl _ s) p⟩
  | .drained p => ⟨_, rfl, drained_changes rfl (.refl _ s) p⟩
  | .undrain p => ⟨_, rfl, undrain_changes rfl (.refl _ s) p⟩
  | .load p => ⟨_, rfl, load_changes rfl (.refl _ s) p⟩
  | .loadComplete p => ⟨_, rfl, loadComplete_changes rfl (.refl _ s) p⟩
  | .ccLockstep p => ⟨_, rfl, ccLockstep_changes rfl (.refl _ s) p⟩
  | .pairRestartComplete p => ⟨_, rfl, pairRestart_changes rfl (.refl _ s) p⟩
  | .sourceAssertion src => ⟨_, rfl, sourceAssertion_changes rfl (.refl _ s) src⟩
  | .sourceDeassert src => ⟨_, rfl, sourceDeassert_changes rfl (.refl _ s) src⟩
  | .arbitration b => ⟨_, rfl, arbitrate_changes rfl (.refl _ s) b⟩
  | .claim m bell t => ⟨_, rfl, claim_changes rfl (.refl _ s) m bell t⟩
  | .complete m bell t src => ⟨_, rfl, complete_changes rfl (.refl _ s) m bell t src⟩
  | .pendingWrite b hi w => ⟨_, rfl, pendingWrite_changes rfl (.refl _ s) b hi w⟩
  | .orphanClr => ⟨_, rfl, orphanClr_changes rfl (.refl _ s)⟩
  | .belfryParity _ => ⟨_, rfl, raise_changes rfl (evt_changes rfl (.refl _ s) _ _) _ _ _ _⟩
  | .hbmLayoutCommit => ⟨_, rfl, hbmLayoutCommit_changes rfl (.refl _ s)⟩
  | .bar2Write off bytes => ⟨_, rfl, bar2Write_changes rfl (.refl _ s) off.toNat bytes⟩
  | .bar2Read off len => ⟨_, rfl, bar2Read_changes rfl (.refl _ s) off.toNat len⟩
  | .memoryRequest c arrivals err => ⟨_, rfl, memoryRequest_changes rfl (.refl _ s) c arrivals err⟩
  | .refreshDue c => ⟨_, rfl, refreshDue_changes rfl (.refl _ s) c⟩
  | .refreshMakeup c => ⟨_, rfl, refreshMakeup_changes rfl (.refl _ s) c⟩
  | .selfRefreshEntry c => ⟨_, rfl, selfRefreshEntry_changes rfl (.refl _ s) c⟩
  | .trackingWindow c trim pin => ⟨_, rfl, trackingWindow_changes rfl (.refl _ s) c trim pin.toNat⟩
  | .retrainComplete c ok salvage => ⟨_, rfl, retrainComplete_changes rfl (.refl _ s) c ok salvage⟩
  | .hbmPcRetired c => ⟨_, rfl, hbmPcRetired_changes rfl (.refl _ s) c⟩
  | .hbmParity loc => ⟨_, rfl, .ite (hbmParity_changes rfl (.refl _ s) loc.unit) (.refl _ s)⟩
  | .mtxParity _ => ⟨_, rfl, raise_changes rfl (evt_changes rfl (inc32_changes rfl (.refl _ s) _) _ _) _ _ _ _⟩
  | .pchStatClr c => ⟨_, rfl, pchStatClr_changes rfl (.refl _ s) c⟩
  | .decodeErr _ _ _ write => ⟨_, rfl, .ite (decodeErr_changes rfl (.refl _ s) write) (.refl _ s)⟩
  | .cvuGo n loadInit => ⟨_, rfl, cvuGo_changes rfl (.refl _ s) n loadInit⟩
  | .cvuAbort n => ⟨_, rfl, cvuAbort_changes rfl (.refl _ s) n⟩
  | .cvuScanDone n => ⟨_, rfl, cvuScanDone_changes rfl (.refl _ s) n⟩
  | .cvuScanStopped n count err => ⟨_, rfl, cvuScanStopped_changes rfl (.refl _ s) n count err⟩
  | .bookLineProgram verifyOk => ⟨_, rfl, bookLineProgram_changes rfl (.refl _ s) verifyOk⟩
  | .bookRead => ⟨_, rfl, bookRead_changes rfl (.refl _ s)⟩
  | .snap => ⟨_, rfl, snapWrite_changes rfl (.refl _ s)⟩
  | .recordClose n => ⟨_, rfl, recordClose_changes rfl (.refl _ s) n⟩
  | .faultSummary => ⟨_, rfl, faultSummary_changes rfl (.refl _ s)⟩
  | .faultLog => ⟨_, rfl, faultLog_changes rfl (.refl _ s)⟩
  | .serviceReentry => ⟨_, rfl, serviceReentry_changes rfl (.refl _ s)⟩
  | .recoveryEntry => ⟨_, rfl, recoveryEntry_changes rfl (.refl _ s)⟩
  | .recoveryExit => ⟨_, rfl, recoveryExit_changes rfl (.refl _ s)⟩
  | .watchStatClr => ⟨_, rfl, watchStatClr_changes rfl (.refl _ s)⟩
  | .loanTestComplete step => ⟨_, rfl, loanTestComplete_changes rfl (.refl _ s) step⟩
  | .plotMarchTest plot ok => ⟨_, rfl, plotMarchTest_changes rfl (.refl _ s) plot ok⟩
  | .patrolScrub err => ⟨_, rfl, patrolScrub_changes rfl (.refl _ s) err⟩
  | .matrixPathTest ok => ⟨_, rfl, matrixPathTest_changes rfl (.refl _ s) ok⟩
  | .lanePrbsTest n p ok => ⟨_, rfl, lanePrbsTest_changes rfl (.refl _ s) n p ok⟩
  | .sextonEnableWrite v => ⟨_, rfl, sextonEnableWrite_changes rfl (.refl _ s) v⟩
  | .sextonStatClr => ⟨_, rfl, sextonStatClr_changes rfl (.refl _ s)⟩
  | .stileEnable => ⟨_, rfl, stileEnable_changes rfl (.refl _ s)⟩
  | .stileDisable => ⟨_, rfl, stileDisable_changes rfl (.refl _ s)⟩
  | .hello msg => ⟨_, rfl, hello_changes rfl (.refl _ s) msg⟩
  | .helloSend => ⟨_, rfl, helloSend_changes rfl (.refl _ s)⟩
  | .stepIn => ⟨_, rfl, stepIn_changes rfl (.refl _ s)⟩
  | .heartbeatSend => ⟨_, rfl, heartbeatSend_changes rfl (.refl _ s)⟩
  | .heartbeat msg => ⟨_, rfl, heartbeat_changes rfl (.refl _ s) msg⟩
  | .sliceCrc records => ⟨_, rfl, sliceCrc_changes rfl (.refl _ s) records⟩
  | .crcMissing own r => ⟨_, rfl, crcMissing_changes rfl (.refl _ s) own r⟩
  | .digest frame place cfg => ⟨_, rfl, digest_changes rfl (.refl _ s) frame place cfg⟩
  | .targetedTestComplete step => ⟨_, rfl, targetedTestComplete_changes rfl (.refl _ s) step⟩
  | .testResult channel rend tile row _ pass => ⟨_, rfl, testResult_changes rfl (.refl _ s) channel rend tile row pass⟩
  | .resolutionEnd => ⟨_, rfl, resolutionEnd_changes rfl (.refl _ s)⟩
  | .resyncGo => ⟨_, rfl, resyncGo_changes rfl (.refl _ s)⟩
  | .resync mask start => ⟨_, rfl, resync_changes rfl (.refl _ s) mask start⟩
  | .resyncApplied => ⟨_, rfl, resyncApplied_changes rfl (.refl _ s)⟩
  | .roleSwap => ⟨_, rfl, roleSwap_changes rfl (.refl _ s)⟩
  | .swap frame => ⟨_, rfl, swap_changes rfl (.refl _ s) frame⟩
  | .swapApplied => ⟨_, rfl, swapApplied_changes rfl (.refl _ s)⟩
  | .roleOutputHandoverEnd => ⟨_, rfl, roleOutputHandoverEnd_changes rfl (.refl _ s)⟩
  | .beaconSend => ⟨_, rfl, beaconSend_changes rfl (.refl _ s)⟩
  | .beacon msg => ⟨_, rfl, beacon_changes rfl (.refl _ s) msg⟩
  | .twinHeartbeatLost => ⟨_, rfl, twinHeartbeatLost_changes rfl (.refl _ s)⟩
  | .stileDown => ⟨_, rfl, stileDown_changes rfl (.refl _ s)⟩
  | .holdoffExpired token => ⟨_, rfl, holdoffExpired_changes rfl (.refl _ s) token⟩
  | .tokenReadback token => ⟨_, rfl, tokenReadback_changes rfl (.refl _ s) token⟩
  | .dualRelease => ⟨_, rfl, dualRelease_changes rfl (.refl _ s)⟩
  | .modeReqCommission at_ => ⟨_, rfl, modeRequest_changes rfl (.refl _ s) 1 at_⟩
  | .modeReqService at_ => ⟨_, rfl, modeRequest_changes rfl (.refl _ s) 2 at_⟩
  | .modeReqTest at_ => ⟨_, rfl, .ite (modeChange_changes rfl (modeRequest_changes rfl (.refl _ s) 5 at_)) (modeRequest_changes rfl (.refl _ s) 5 at_)⟩
  | .modeChange => ⟨_, rfl, modeChange_changes rfl (.refl _ s)⟩
  | .porN => ⟨_, rfl, porN_changes rfl (.refl _ s)⟩
  | .resetN => ⟨_, rfl, resetN_changes rfl (.refl _ s)⟩
  | .swreset key => ⟨_, rfl, swreset_changes rfl (.refl _ s) key.toNat⟩
  | .pcieHotReset => ⟨_, rfl, pcieHotReset_changes rfl (.refl _ s)⟩
  | .resetRelease => ⟨_, rfl, .set_pins rfl (.refl _ s) _⟩
  | .clocks badClock => ⟨_, rfl, clocks_changes rfl (.refl _ s) badClock⟩
  | .hbmTraining trained => ⟨_, rfl, hbmTraining_changes rfl (.refl _ s) trained⟩
  | .imageLoad image => ⟨_, rfl, imageLoad_changes rfl (.refl _ s) image⟩
  | .imageVerify a b payload => ⟨_, rfl, imageVerify_changes rfl (.refl _ s) (a.map BitVec.toNat) (b.map BitVec.toNat) payload⟩
  | .cores => ⟨_, rfl, .ite (updateLines_changes rfl (setStage_changes rfl (.refl _ s) 6)) (.refl _ s)⟩
  | .book => ⟨_, rfl, bookHeads_changes rfl (.refl _ s)⟩
  | .engines passed => ⟨_, rfl, startEngines_changes rfl (.refl _ s) passed⟩
  | .config record ms => ⟨_, rfl, config_changes rfl (.refl _ s) record ms⟩
  | .clockLost c => ⟨_, rfl, clockLost_changes rfl (.refl _ s) c⟩
  | .pwrFail => ⟨_, rfl, pwrFail_changes rfl (.refl _ s)⟩
  | .bookReopen => ⟨_, rfl, bookReopen_changes rfl (.refl _ s)⟩
  | .rollbackCommit => ⟨_, rfl, rollbackCommit_changes rfl (.refl _ s)⟩
  | .evtWrite page w => ⟨_, rfl, evtWrite_changes rfl (.refl _ s) page w⟩
  | .pageEnableCheck page => ⟨_, rfl, pageEnableCheck_changes rfl (.refl _ s) page⟩
  | .registerWrite m addr w byteEn => ⟨_, rfl, busWrite_changes rfl (.refl _ s) m addr.toNat w byteEn⟩
  | .portLinkUp x sub => ⟨_, rfl, portLinkUp_changes rfl (.refl _ s) x sub⟩
  | .clockPresent _ => ⟨_, rfl, .ite (.refl _ s) (setBit_changes rfl (.refl _ s) _ _ true)⟩
  | .pcieLinkUp => ⟨_, rfl, pcieLinkUp_changes rfl (.refl _ s)⟩
  | .msixEnable enable mask => ⟨_, rfl, msixEnable_changes rfl (.refl _ s) enable mask⟩
  | .announceSend x => ⟨_, rfl, announceSend_changes rfl (.refl _ s) x⟩
  | .wfi p => ⟨_, rfl, wfi_changes rfl (.refl _ s) p⟩
  | .pwrFailNHigh => ⟨_, rfl, pwrFailNHigh_changes rfl (.refl _ s)⟩
  | .characterAlignment n p => ⟨_, rfl, setLane_changes rfl (.refl _ s) n p _⟩
  | .lanePowerExit n p => ⟨_, rfl, lanePowerExit_changes rfl (.refl _ s) n p⟩

/-- The state that a command answers with: exec is a function. -/
theorem Changes.of_exec {c : Instr} {s t : State} (h : exec c s = .next t) : Changes (touches c) s t := by
  obtain ⟨u, hu, hchanges⟩ := exec_changes c s
  obtain rfl : u = t := by simpa [hu] using h
  exact hchanges

/-- HBM's contents as a part are its bytes. -/
theorem sameMemory_of_same {s t : State} (h : Part.mem.Same s t) : SameMemory s t := by
  obtain ⟨hmem, hgen⟩ := h
  exact fun a => by rw [memByte, memByte, hmem, hgen]

theorem Changes.canonical {L : List Part} {s t : State} (h : Changes L s t) (hc : s.Canonical) : t.Canonical :=
  ⟨h.regsWf hc.1, h.hbmWf hc.2⟩

/-- Settles O5: every arm's state is among the changes that the law of its function allows. -/
theorem everyCommandChangesOnlyItsParts : Obligations.EveryCommandChangesOnlyItsParts := by
  unfold Obligations.EveryCommandChangesOnlyItsParts
  intro c s t h
  have hchanges := Changes.of_exec h
  exact ⟨hchanges.same, fun hmem => sameMemory_of_same (hchanges.same .mem hmem)⟩

/-- Settles O2: every arm answers a next state, and no law lets the queue change or the count of draws fall. -/
theorem everyCommandCompletes : Obligations.EveryCommandCompletes := by
  unfold Obligations.EveryCommandCompletes
  intro c s
  obtain ⟨t, ht, hchanges⟩ := exec_changes c s
  exact ⟨t, ht, hchanges.pending, hchanges.free⟩

/-! ### Steps -/

theorem step_of_pending {c : Instr} {l : List Instr} {s : State} (h : s.pending = c :: l) :
    step s = exec c { s with pending := l } := by
  rw [step, h]

theorem step_of_no_pending {s : State} (h : s.pending = []) : step s = .next s.tick := by
  rw [step, h]

/-- Settles O1: step's own equations. -/
theorem stepRunsTheFrontCommand : Obligations.StepRunsTheFrontCommand := by
  unfold Obligations.StepRunsTheFrontCommand
  exact ⟨fun _ _ _ => step_of_pending rfl, fun _ h => step_of_no_pending h⟩

/-- Settles O3: a tick keeps canonical forms, and so does every command, on a queue that lost its front. -/
theorem stepKeepsCanonicalForms : Obligations.StepKeepsCanonicalForms := by
  unfold Obligations.StepKeepsCanonicalForms
  intro s t hc h
  cases hq : s.pending with
  | nil =>
    rw [step_of_no_pending hq] at h
    obtain rfl : s.tick = t := by simpa using h
    exact (tick_changes (L := [.regs, .stp]) rfl (.refl _ s)).canonical hc
  | cons c l =>
    rw [step_of_pending hq] at h
    exact (Changes.of_exec h).canonical hc

/-- Settles O4: the reset state lists RESET_CAUSE alone, and no byte of HBM. -/
theorem resetIsCanonical : Obligations.ResetIsCanonical := by
  unfold Obligations.ResetIsCanonical
  exact ⟨⟨by decide, by decide⟩, rfl⟩

end Sys2Proof.Machine
end

section
/-! Proof of OtherMastersCannotClaim: a claim and a completion by a master that is not the target. -/

namespace Sys2Proof.Machine

open State

theorem claim_of_other_master {m : Master} {t : Nat} (h : isTarget m t = false) (s : State) (bell : Option (Fin 64)) :
    claim s m bell t = s.answer [0] := by
  rw [claim, h, Bool.not_false, Bool.or_true, if_pos rfl]

theorem complete_of_other_master {m : Master} {t : Nat} (h : isTarget m t = false) (s : State) (bell : Option (Fin 64)) (n : Nat) :
    complete s m bell t n = s := by
  rw [complete, h, Bool.not_false, Bool.or_true, if_pos rfl]

/-- Settles O41: both commands test the target before anything else. -/
theorem otherMastersCannotClaim : Obligations.OtherMastersCannotClaim := by
  unfold Obligations.OtherMastersCannotClaim
  exact ⟨fun _ bell _ s h => ⟨_, rfl, claim_of_other_master h s bell⟩,
    fun _ bell _ src s h => ⟨_, rfl, complete_of_other_master h s bell src⟩⟩

end Sys2Proof.Machine
end

section
/-! Proof of DoorbellsEnterTheFifo: a doorbell by its master, its thread and the room in the FIFO, and the log of a hold. -/

namespace Sys2Proof.Machine

open State

/-! ### Doorbells (R292, R297) -/

section Doorbell
variable {s : State} {m : Master} {k : Nat}

/-- READY_CNT and DB_LEVEL are registers. -/
theorem reeveLevels_sameBut (s : State) : SameBut [.regs] s s.reeveLevels := (reeveLevels_changes rfl (.refl [.regs] s)).same

theorem reeveLevels_rv (s : State) : s.reeveLevels.rv = s.rv := reeveLevels_sameBut s .rv (by decide)

/-- The doorbell has joined the FIFO, and the write is answered. -/
def bellJoined (s : State) (b : Bell) : State := { s with rv := { s.rv with fifo := s.rv.fifo ++ [b] }, bus := ⟨[], .ok⟩ }

theorem doorbell_of_room (hr : reaches s m Pg.reeve = true) (ho : owns m k = true) (hroom : s.rv.fifo.length < 256) (op arg : Nat) :
    doorbell s m k op arg = (bellJoined s ⟨k, op, arg, masterNumber m⟩).reeveLevels := by
  simp [doorbell, hr, ho, hroom, bellJoined]

/-- What each of the five operations leaves where there is room. -/
theorem doorbell_joins (hr : reaches s m Pg.reeve = true) (ho : owns m k = true) (hroom : s.rv.fifo.length < 256) (op arg : Nat) :
    (doorbell s m k op arg).rv.fifo = s.rv.fifo ++ [⟨k, op, arg, masterNumber m⟩] ∧
    (doorbell s m k op arg).rv.threads = s.rv.threads ∧ (doorbell s m k op arg).bus = ⟨[], .ok⟩ ∧
    SameBut [.rv, .regs, .bus] s (doorbell s m k op arg) := by
  have hsame := (doorbell_changes rfl (.refl [.rv, .regs, .bus] s) m k op arg).same
  rw [doorbell_of_room hr ho hroom] at hsame ⊢
  exact ⟨by rw [reeveLevels_rv]; rfl, by rw [reeveLevels_rv]; rfl, reeveLevels_sameBut _ .bus (by decide), hsame⟩

/-- A doorbell of the host for a thread that it does not own. -/
theorem doorbell_of_host_dropped (ha : s.answers Pg.reeve = true) (hk : k < 2304) (op arg : Nat) :
    doorbell s .host k op arg = ownerDrop s := by
  have howns : owns .host k = false := decide_eq_false (Nat.not_le.2 hk)
  simp [doorbell, reaches, ha, howns]

theorem ownerDrop_rv (s : State) : (ownerDrop s).rv = s.rv := by rw [ownerDrop, evt_rv, inc32_rv]

theorem reg_ownerDrop (s : State) (a : Nat) : (ownerDrop s).reg a =
    if a = Pg.reeve + hEvt then putBit (s.reg a) 3 true else (s.inc32 Reg.reeveOwnerDrop).reg a := by
  simp only [ownerDrop, reg_evt]
  by_cases h : a = Pg.reeve + hEvt
  · rw [if_pos h, if_pos h, h, reg_inc32_other _ (by simp)]
  · rw [if_neg h, if_neg h]

theorem bit_ownerDrop_evt (s : State) : (ownerDrop s).bit (Pg.reeve + hEvt) 3 = true := bit_evt_same _ (by omega) _

theorem ownerDrop_sameRegsBut (s : State) : SameRegsBut [Reg.reeveOwnerDrop, Pg.reeve + hEvt] s (ownerDrop s) := by
  intro a ha
  simp only [List.mem_cons, List.not_mem_nil, or_false, not_or] at ha
  rw [reg_ownerDrop, if_neg ha.2, reg_inc32_other _ ha.1]

/-- OWNER_DROP counts the write, below its ceiling. -/
theorem reg_ownerDrop_count (h : s.reg Reg.reeveOwnerDrop ≠ BitVec.allOnes 32) :
    (ownerDrop s).reg Reg.reeveOwnerDrop = s.reg Reg.reeveOwnerDrop + 1 := by
  rw [reg_ownerDrop, if_neg (by simp), reg_inc32 _ _ h]

end Doorbell

/-! ### Holds (R298) -/

theorem length_markStalled (l : List (Bell × Bool)) : (markStalled l).length = l.length := by
  induction l with
  | nil => rfl
  | cons x l ih =>
    obtain ⟨b, logged⟩ := x
    cases logged
    · rfl
    · exact congrArg (· + 1) ih

/-- The hold is marked as logged. -/
def stallNoted (s : State) : State := { s with rv := { s.rv with held := markStalled s.rv.held } }

/-- The stall of a hold is counted, shown and raised. -/
def stallLogged (s : State) (b : Bell) : State :=
  (((stallNoted s).inc32 Reg.reeveDbStalls).evt Pg.reeve 2).raise 0x5004 Pg.reeve b.master s.rv.fifo.length

theorem execReeveStall_of_hold {s : State} {b : Bell} (h : firstStalled s.rv.held = some b) :
    execReeveStall s = .next (stallLogged s b) := by
  rw [execReeveStall, h]
  rfl

theorem execReeveStall_of_no_hold {s : State} (h : firstStalled s.rv.held = none) : execReeveStall s = .next s := by
  rw [execReeveStall, h]

theorem stallLogged_rv (s : State) (b : Bell) : (stallLogged s b).rv = { s.rv with held := markStalled s.rv.held } := by
  rw [stallLogged, raise_rv, evt_rv, inc32_rv, stallNoted]

theorem reg_stallLogged (s : State) (b : Bell) (a : Nat) : (stallLogged s b).reg a =
    if a = Pg.reeve + hEvt then putBit (s.reg a) 2 true else (s.inc32 Reg.reeveDbStalls).reg a := by
  simp only [stallLogged, reg_raise, reg_evt]
  by_cases h : a = Pg.reeve + hEvt
  · rw [if_pos h, if_pos h, h, reg_inc32_other _ (by simp)]
    rfl
  · rw [if_neg h, if_neg h]
    rfl

/-- Settles O37: five operations join the FIFO by one lemma; a dropped write is ownerDrop; a hold is logged by its own state. -/
theorem doorbellsEnterTheFifo : Obligations.DoorbellsEnterTheFifo := by
  unfold Obligations.DoorbellsEnterTheFifo
  refine ⟨fun m k s hr ho hroom => ⟨_, rfl, doorbell_joins hr ho hroom 0 0⟩, fun m k s hr ho hroom => ⟨_, rfl, doorbell_joins hr ho hroom 1 0⟩,
    fun m k v s hr ho hroom => ⟨_, rfl, doorbell_joins hr ho hroom 2 v⟩,
    fun m k v s hr ho hroom => ⟨_, rfl, doorbell_joins hr ho hroom 3 v.toNat⟩,
    fun m k v s hr ho hroom => ⟨_, rfl, doorbell_joins hr ho hroom 4 v.toNat⟩,
    fun k s ha hk => ⟨_, rfl, ?dropped⟩, fun m op s hr hop => ⟨_, rfl, ?reserved⟩,
    fun b s hb => ⟨_, execReeveStall_of_hold hb, ?stall⟩, fun s hn => ⟨_, execReeveStall_of_no_hold hn, rfl⟩⟩
  case dropped =>
    rw [doorbell_of_host_dropped ha hk]
    exact ⟨ownerDrop_rv s, bit_ownerDrop_evt s, ownerDrop_sameRegsBut s, reg_ownerDrop_count⟩
  case reserved =>
    rw [if_pos (show 5 ≤ op.val from hop), doorbellBad, if_pos hr]
  case stall =>
    refine ⟨?_, by rw [stallLogged_rv]; exact length_markStalled _, by rw [stallLogged_rv], ?_, fun hcount => ?_⟩
    · rw [bit, reg_stallLogged, if_pos rfl, getLsbD_putBit _ _ _ _ (by omega), if_pos rfl]
    · rw [stallLogged, raise, evt_faults, inc32_faults, evt_stp, inc32_stp, stallNoted]
    · rw [reg_stallLogged, if_neg (by simp), reg_inc32 _ _ hcount]

end Sys2Proof.Machine
end

section
/-! Proof of ReeveTableWindow: the Reeve window by its address, what a read shows, and the writes of a context and of a binding. -/

namespace Sys2Proof.Machine

open State

/-! ### Reads (R454, Table 13-4) -/

section Window
variable {s : State} {m : Master}

/-- The index that REEVE.TBL_ADDR names. -/
def reeveIndex (s : State) : Nat := s.getF Reg.reeveTblAddr 11 0

/-- Words stand in the data registers, and the access has ended. -/
def reeveShown (s : State) (l : List Word) : State := (s.putData (Reg.reeveTblData 0) 4 l).tblDone Reg.reeveTblStat

theorem reeveTableRead_eq (hop : s.getF Reg.reeveTblAddr 17 16 = 0) : reeveTableRead s = reeveShown s
    (if s.bit Reg.reeveTblAddr 12 then [Store.get (fun _ => (0 : Word)) s.rv.bindings (reeveIndex s), 0, 0, 0]
     else threadWords (s.thread (reeveIndex s))) := by
  simp only [reeveTableRead, reeveAddr, hop]
  rfl

theorem reg_reeveShown_data (l : List Word) {k : Nat} (hk : k < 4) : (reeveShown s l).reg (Reg.reeveTblData k) = l.getD k 0 := by
  rw [reeveShown, tblDone, reg_setN_other _ _ (by simp only [Reg.reeveTblData, Reg.reeveTblStat]; omega)]
  exact reg_putData _ _ _ hk

theorem reg_reeveShown_stat (l : List Word) : (reeveShown s l).reg Reg.reeveTblStat = 1 := reg_tblDone_same _ _

theorem reeveShown_sameBut (l : List Word) : SameBut [.regs] s (reeveShown s l) :=
  (tblDone_changes rfl (putData_changes rfl (.refl [.regs] s) _ _ _) _).same

/-! ### Writes (R292, R454) -/

variable (hop : s.getF Reg.reeveTblAddr 17 16 = 1)
include hop

theorem reeveTableWrite_of_context (hbind : s.bit Reg.reeveTblAddr 12 = false) (ho : owns m (reeveIndex s) = true) :
    reeveTableWrite s m =
      ((writeThread s (reeveIndex s) (s.getData (Reg.reeveTblData 0) 4)).offer).tblDone Reg.reeveTblStat := by
  have ho' : owns m (s.getF Reg.reeveTblAddr 11 0) = true := ho
  simp only [reeveTableWrite, reeveAddr, hop, hbind, ho']
  rfl

theorem reeveTableWrite_of_host_context (hbind : s.bit Reg.reeveTblAddr 12 = false) (hi : reeveIndex s < 2304) :
    reeveTableWrite s .host = (ownerDrop s).tblDone Reg.reeveTblStat := by
  have ho : owns .host (s.getF Reg.reeveTblAddr 11 0) = false := decide_eq_false (Nat.not_le.2 hi)
  simp only [reeveTableWrite, reeveAddr, hop, hbind, ho]
  rfl

/-- The binding of the index as a write leaves it (R293). -/
def bindingWritten (s : State) : State :=
  { s with rv := { s.rv with
      bindings := Store.put (fun _ => (0 : Word)) s.rv.bindings (reeveIndex s) (s.reg (Reg.reeveTblData 0) &&& 0x8FFF) } }

theorem reeveTableWrite_of_binding (hbind : s.bit Reg.reeveTblAddr 12 = true) (p : Fin 8) :
    reeveTableWrite s (.cc p) = (bindingWritten s).tblDone Reg.reeveTblStat := by
  simp only [reeveTableWrite, reeveAddr, hop, hbind, bindingOwned]
  rfl

end Window

/-! ### A context as written -/

section Context
variable {s : State}

/-- The fields of a thread that is not running, as a write of its context leaves them (Table 13-4). -/
theorem thread_writeThread {i : Nat} (h : (s.thread i).state ≠ 3) (d : List Word) :
    ((writeThread s i d).thread i).prio = fld (d.getD 0 0) 5 0 ∧ ((writeThread s i d).thread i).aff = fld (d.getD 0 0) 15 8 ∧
    ((writeThread s i d).thread i).dl = fld (d.getD 1 0) 15 0 ∧ ((writeThread s i d).thread i).en = (d.getD 0 0).getLsbD 31 := by
  simp only [writeThread, setThread_thread_same, if_neg h]
  cases hen : (d.getD 0 0).getLsbD 31
  · exact ⟨rfl, rfl, rfl, rfl⟩
  · exact ⟨rfl, rfl, rfl, rfl⟩

theorem writeThread_other (i : Nat) (d : List Word) {k : Nat} (h : k ≠ i) : (writeThread s i d).thread k = s.thread k :=
  setThread_thread_other s _ h

end Context

/-! ### Dispatch leaves every thread -/

theorem thread_of_threads {s t : State} (h : t.rv.threads = s.rv.threads) (k : Nat) : t.thread k = s.thread k := by
  rw [thread, thread, h]

theorem setPair_threads (s : State) (p : Nat) (x : PairSt) : (s.setPair p x).rv.threads = s.rv.threads := by
  simp [setPair]

theorem offerTo_threads (s : State) (p : Nat) : (s.offerTo p).rv.threads = s.rv.threads := by
  unfold offerTo
  dsimp only
  split
  · rfl
  · split
    · split
      · exact setPair_threads _ _ _
      · rfl
    · rfl

theorem offer_threads (s : State) : s.offer.rv.threads = s.rv.threads := by
  rw [offer, reeveLevels_rv]
  exact foldl_inv (fun t : State => t.rv.threads = s.rv.threads) offerTo _ _ rfl (fun t p h => (offerTo_threads t p).trans h)

/-- Settles O39: a read by what stands in the data registers, a write by the context or the binding that it leaves. -/
theorem reeveTableWindow : Obligations.ReeveTableWindow := by
  unfold Obligations.ReeveTableWindow
  refine ⟨fun s ha hop hb => ⟨_, rfl, ?read⟩, fun s ha hop hb => ⟨_, rfl, ?readBinding⟩, fun m s hr hop hb ho hst => ⟨_, rfl, ?write⟩,
    fun s ha hop hb hi => ⟨_, rfl, ?dropped⟩, fun p s hr hop hb => ⟨_, rfl, ?writeBinding⟩⟩
  case read =>
    rw [if_pos ha, reeveTableRead_eq hop, if_neg (by rw [hb]; decide)]
    exact ⟨fun k hk => reg_reeveShown_data _ hk, reg_reeveShown_stat _, reeveShown_sameBut _⟩
  case readBinding =>
    rw [if_pos ha, reeveTableRead_eq hop, if_pos hb]
    exact ⟨reg_reeveShown_data _ (by omega), reg_reeveShown_stat _, reeveShown_sameBut _⟩
  case write =>
    rw [if_pos hr, reeveTableWrite_of_context hop hb ho]
    have hthread (k : Nat) : (((writeThread s (reeveIndex s) (s.getData (Reg.reeveTblData 0) 4)).offer).tblDone
        Reg.reeveTblStat).thread k = (writeThread s (reeveIndex s) (s.getData (Reg.reeveTblData 0) 4)).thread k :=
      thread_of_threads (by rw [tblDone, setN_rv, offer_threads]) k
    obtain ⟨hprio, haff, hdl, hen⟩ := thread_writeThread (i := reeveIndex s) hst (s.getData (Reg.reeveTblData 0) 4)
    rw [← hthread (reeveIndex s)] at hprio haff hdl hen
    exact ⟨hprio, haff, hdl, hen, reg_tblDone_same _ _, fun k hk => (hthread k).trans (writeThread_other _ _ hk)⟩
  case dropped =>
    rw [if_pos (show reaches s .host Pg.reeve = true from ha), reeveTableWrite_of_host_context hop hb hi]
    refine ⟨ownerDrop_rv s, ?_, reg_tblDone_same _ _, fun hcount => ?_⟩
    · rw [bit, tblDone, reg_setN_other _ _ (by simp)]
      exact bit_ownerDrop_evt s
    · rw [tblDone, reg_setN_other _ _ (by simp), reg_ownerDrop_count hcount]
  case writeBinding =>
    rw [if_pos (show reaches s (.cc p) Pg.reeve = true by rw [reaches, hr]; rfl), reeveTableWrite_of_binding hop hb]
    exact ⟨Store.get_put_same _ _ _ _, rfl, reg_tblDone_same _ _,
      (tblDone_changes rfl (.set_rv rfl (.refl [.regs, .rv] s) _) _).same⟩

end Sys2Proof.Machine
end

section
/-! Refutation of MonitorHeadFrames: its clause for a line of the frame in progress takes the samples of a line whose every item has its
data, and no hypothesis of the clause keeps an item's data from being uncorrectable, for which the line shows FILL (R285, R346). -/

namespace Sys2Proof.Machine

open State

/-- A set with one overlay: enabled, format 3, 2 by 3 pixels at the origin, opaque, read from address 0. -/
def overlaySet : Store Word := [(0x500, 0x0000000D), (0x514, 0x00030002), (0x518, 0x000003FF)]

/-- The monitor head in a frame of 2 by 3 pixels with that set in use and a FILL of luma 1; the read of line 0 of HBM by master 40, the
monitor head, was uncorrectable in this frame. -/
def overlayFailing : State :=
  { State.reset with
    regs := [(Pg.stp + hCtrl, 1), (Pg.mon + hCtrl, 1), (Reg.monRaster, 0x00030002), (Reg.monFill, 1)]
    mon := { State.reset.mon with inFrame := true, inUse := overlaySet }
    hbm := { State.reset.hbm with failed := [⟨40, 0, 0⟩] } }

/-- The samples of the monitor line sent last. -/
def lastSamples (s : State) : List Nat :=
  match s.sent with
  | .monLine _ samples _ :: _ => samples
  | _ => []

/-- The overlay's data is uncorrectable, so line 1 goes out as FILL. -/
theorem lastSamples_overlayFailing : lastSamples (monitorLine overlayFailing 1 []) = [0, 1, 0, 1] := by decide

/-- With its data, the overlay of zeros would show. -/
theorem monSamples_overlayFailing : monSamples (overlayFailing.toPos (linePos overlayFailing (monCfg overlayFailing)
    overlayFailing.mon.startFr 1)) overlayFailing.free [] 1 = [0, 0, 0, 0] := by decide

/-- Refutes O36: line 1 of a frame whose only overlay is uncorrectable is sent as FILL, not as the overlay. -/
theorem not_monitorHeadFrames : ¬ Obligations.MonitorHeadFrames := by
  unfold Obligations.MonitorHeadFrames
  rintro ⟨-, -, -, -, -, hline, -⟩
  obtain ⟨t, ht, hsent, -⟩ := hline 1 overlayFailing (by decide) (by decide) (by decide) (by decide) (by decide) (by decide)
  obtain rfl : monitorLine overlayFailing 1 [] = t := by simpa [exec, execMonitorLine] using ht
  have hsamples := congrArg (fun l => lastSamples { overlayFailing with sent := l }) hsent
  exact absurd (lastSamples_overlayFailing.symm.trans (hsamples.trans monSamples_overlayFailing)) (by decide)

end Sys2Proof.Machine
end

section
/-! Refutation of ListEngineAndDispatchPoints: its clause for a read of NEXT lets the thread table list a number twice. The best thread
is found among the entries, and the first entry of its number is the one that runs. -/

namespace Sys2Proof.Machine

open State

/-- A thread for pair 0 by its state and priority. -/
def pairZeroThread (state prio : Nat) : Thread := { Thread.init with state := state, prio := prio, aff := 1 }

/-- Thread 5 is listed IDLE with priority 3 and READY with priority 0; thread 6 is READY with priority 1. -/
def threadListedTwice : State :=
  { State.reset with rv := { State.reset.rv with threads := [(5, pairZeroThread 1 3), (5, pairZeroThread 2 0), (6, pairZeroThread 2 1)] } }

/-- The best entry is thread 5's second one. -/
theorem best_threadListedTwice : threadListedTwice.best 0 = some (5, pairZeroThread 2 0) := by decide

/-- Thread 5 runs with priority 3, so thread 6 raises DISPATCH again. -/
theorem dispatch_nextRead_threadListedTwice : ((nextRead threadListedTwice 0).pair 0).dispatch = true := by decide

/-- Refutes O38: after a read of NEXT that finds a thread, DISPATCH of the pair stands. -/
theorem not_listEngineAndDispatchPoints : ¬ Obligations.ListEngineAndDispatchPoints := by
  unfold Obligations.ListEngineAndDispatchPoints
  rintro ⟨-, -, hnext, -⟩
  obtain ⟨t, ht, -, -, -, -, hdispatch⟩ := hnext (.cc 0) 0 5 (pairZeroThread 2 0) threadListedTwice (by decide) (by decide) (by decide)
    best_threadListedTwice
  obtain rfl : nextRead threadListedTwice 0 = t := by
    simpa [exec, execNextRead, show reaches threadListedTwice (.cc 0) (Pg.cc 0) = true by decide] using ht
  exact absurd (dispatch_nextRead_threadListedTwice.symm.trans hdispatch) (by decide)

end Sys2Proof.Machine
end

section
/-! Proof of PairsDrainLoadAndRestart: what dispatch and the request lines leave of every pair, and each operation of a pair by its
first step. -/

namespace Sys2Proof.Machine

open State

/-! ### Dispatch and request lines (R302, R320, R321) -/

section OnlyLines

/-- A pair without its WFI and its DISPATCH, which dispatch and the request lines move. -/
def pairCore (x : PairSt) : PairSt := { x with wfi := false, dispatch := false, offered := none }

/-- A register of the core pairs' pages other than RUNNING, PSTATE and STRANDED. -/
structure OffPair (a : Nat) : Prop where
  above : 0x301000 ≤ a
  notRunning : a % 0x1000 ≠ 0x48
  notPstate : a % 0x1000 ≠ 0x4C
  notStranded : a % 0x1000 ≠ 0x6C

/-- PSTATE shows the state of the pair. -/
def PstateShown (s : State) (p : Nat) : Prop := s.getF (Reg.ccPstate p) 2 0 = s.pstate p

/-- From `s` to `t` only dispatch, request lines, ACTIVE sources and STRANDED have moved. -/
structure OnlyLines (s t : State) : Prop where
  core : ∀ p, pairCore (t.pair p) = pairCore (s.pair p)
  shown : ∀ p < 8, PstateShown s p → PstateShown t p
  reg : ∀ a, OffPair a → t.reg a = s.reg a
  threads : t.rv.threads = s.rv.threads
  faults : t.faults = s.faults

theorem OnlyLines.refl (s : State) : OnlyLines s s := ⟨fun _ => rfl, fun _ _ h => h, fun _ _ => rfl, rfl, rfl⟩

variable {s t u : State}

theorem OnlyLines.trans (h : OnlyLines s t) (h' : OnlyLines t u) : OnlyLines s u :=
  ⟨fun p => (h'.core p).trans (h.core p), fun p hp hs => h'.shown p hp (h.shown p hp hs), fun a ha => (h'.reg a ha).trans (h.reg a ha),
    h'.threads.trans h.threads, h'.faults.trans h.faults⟩

/-- A step that leaves the pairs, the threads, the faults and the pairs' registers. -/
theorem OnlyLines.of_same (hrv : t.rv = s.rv) (hf : t.faults = s.faults) (hp : ∀ p < 8, t.reg (Reg.ccPstate p) = s.reg (Reg.ccPstate p))
    (hr : ∀ a, OffPair a → t.reg a = s.reg a) : OnlyLines s t where
  core p := by rw [State.pair, State.pair, hrv]
  shown p hlt h := by
    rw [PstateShown, getF, hp p hlt, State.pstate, State.pair, hrv]
    exact h
  reg := hr
  threads := by rw [hrv]
  faults := hf

/-- A register outside the pairs' pages, or STRANDED. -/
theorem onlyLines_setReg (s : State) {a : Nat} (w : Word) (h : a < 0x301000 ∨ a % 0x1000 = 0x6C) : OnlyLines s (s.setReg a w) :=
  .of_same (setReg_rv _ _ _) (setReg_faults _ _ _) (fun p _ => reg_setReg_other _ _ (by simp only [Reg.ccPstate]; omega))
    (fun b hb => reg_setReg_other _ _ (by have := hb.above; have := hb.notStranded; omega))

theorem pstateOf_le (x : PairSt) : pstateOf x ≤ 6 := by
  unfold pstateOf
  repeat' split
  all_goals omega

/-- Writing a pair brings its PSTATE up to date. -/
theorem pstateShown_setPair (s : State) (p : Nat) (x : PairSt) : PstateShown (s.setPair p x) p := by
  have hle := pstateOf_le x
  rw [PstateShown, State.pstate, setPair_pair_same, setPair, getF, reg_setN_other _ _ (by simp)]
  exact (getF_setF_same _ _ _ (by omega) (by omega)).trans (Nat.mod_eq_of_lt (by omega))

theorem reg_setPair_offPair {a : Nat} (ha : OffPair a) (s : State) {p : Nat} (x : PairSt) : (s.setPair p x).reg a = s.reg a :=
  setPair_reg_other s p x (by have := ha.notPstate; simp only [Reg.ccPstate]; omega)
    (by have := ha.notRunning; simp only [Reg.ccRunning]; omega)

theorem onlyLines_setPair (s : State) (p : Nat) {x : PairSt} (h : pairCore x = pairCore (s.pair p)) : OnlyLines s (s.setPair p x) where
  core q := by
    by_cases hq : q = p
    · rw [hq, setPair_pair_same, h]
    · rw [setPair_pair_other _ _ hq]
  shown q hq hs := by
    by_cases hqp : q = p
    · rw [hqp]
      exact pstateShown_setPair s p x
    · rw [PstateShown, State.pstate, setPair_pair_other _ _ hqp, getF, setPair_reg_other _ _ _ (by simp only [Reg.ccPstate]; omega)
        (by simp only [Reg.ccPstate, Reg.ccRunning]; omega)]
      exact hs
  reg a ha := reg_setPair_offPair ha s x
  threads := setPair_threads s p x
  faults := setPair_faults s p x

theorem onlyLines_foldl {α : Type} (f : State → α → State) {l : List α} (s : State) (h : ∀ t, ∀ x ∈ l, OnlyLines t (f t x)) :
    OnlyLines s (l.foldl f s) :=
  List.foldlRecOn (motive := fun t => OnlyLines s t) l f (.refl s) fun t ht x hx => ht.trans (h t x hx)

theorem onlyLines_countStranded (s : State) (p : Nat) : OnlyLines s (s.countStranded p) := by
  have hset (v : Nat) : OnlyLines s (s.setF (Reg.ccStranded p) 11 0 v) :=
    onlyLines_setReg _ _ (.inr (show Reg.ccStranded p % 0x1000 = 0x6C by simp only [Reg.ccStranded]; omega))
  unfold countStranded
  extract_lets n t
  split
  · exact (hset _).trans (onlyLines_setReg _ _ (.inl (show Pg.reeve + hEvt < 0x301000 by simp)))
  · exact hset _

theorem onlyLines_reeveLevels (s : State) : OnlyLines s s.reeveLevels :=
  (onlyLines_setReg _ _ (.inl (by simp))).trans (onlyLines_setReg _ _ (.inl (by simp)))

theorem onlyLines_offerTo (s : State) (p : Nat) : OnlyLines s (s.offerTo p) := by
  unfold offerTo
  dsimp only
  split
  · exact .refl s
  · split
    · split
      · exact onlyLines_setPair s p rfl
      · exact .refl s
    · exact .refl s

theorem onlyLines_offer (s : State) : OnlyLines s s.offer :=
  (onlyLines_foldl _ s fun t p _ => onlyLines_offerTo t p).trans (onlyLines_reeveLevels _)

theorem onlyLines_msix (s : State) : OnlyLines s s.msix := by
  unfold msix
  split
  · split
    · exact .of_same rfl rfl (fun _ _ => rfl) (fun _ _ => rfl)
    · exact .of_same rfl rfl (fun _ _ => rfl) (fun _ _ => rfl)
  · exact .refl s

theorem onlyLines_updateLine (s : State) {k : Nat} (hk : k < 9) : OnlyLines s (s.updateLine k) := by
  have hreq (v : Bool) : OnlyLines s (s.setBit Reg.belfryReq k v) := onlyLines_setReg _ _ (.inl (by simp))
  have hhighest (t : State) (v : Nat) : OnlyLines t (t.setN (Reg.belfryHighest k) v) :=
    onlyLines_setReg _ _ (.inl (by simp only [Reg.belfryHighest]; omega))
  unfold updateLine
  extract_lets up rises u v
  have hv : OnlyLines s v := (hreq _).trans (hhighest _ _)
  split
  · split
    · exact hv.trans (onlyLines_msix _)
    · split
      · exact hv.trans (onlyLines_setPair _ _ rfl)
      · exact hv
  · exact hv

theorem onlyLines_updateLines (s : State) : OnlyLines s s.updateLines :=
  (onlyLines_foldl _ s fun t _ hk => onlyLines_updateLine t (List.mem_range.1 hk)).trans
    (onlyLines_foldl _ _ fun _ _ _ => onlyLines_setReg _ _ (.inl (by simp)))

/-- One source that loses ACTIVE (R322). -/
def releaseSource (u : State) (e : Nat × Nat) : State :=
  let n := e.1
  let v := { u with bf := { u.bf with active := Store.put (fun _ => 15) u.bf.active n 15 } }
  let v := v.setActive n false
  if v.isEdge n then v.setPending n true else v.setPending n (v.inputBit n)

theorem onlyLines_releaseSource (u : State) {e : Nat × Nat} (he : e.1 < 4096) : OnlyLines u (releaseSource u e) := by
  have hact (t : State) : OnlyLines t (t.setActive e.1 false) :=
    onlyLines_setReg _ _ (.inl (by simp only [bellWord, Reg.bellActiveLo]; omega))
  have hpend (t : State) (b : Bool) : OnlyLines t (t.setPending e.1 b) :=
    onlyLines_setReg _ _ (.inl (by simp only [bellWord, Reg.bellPendingLo]; omega))
  unfold releaseSource
  extract_lets n bf v w
  have hv : OnlyLines u v := .of_same rfl rfl (fun _ _ => rfl) (fun _ _ => rfl)
  split
  · exact (hv.trans (hact _)).trans (hpend _ _)
  · exact (hv.trans (hact _)).trans (hpend _ _)

theorem onlyLines_releaseActive (s : State) (p : Nat) : OnlyLines s (s.releaseActive p) :=
  onlyLines_foldl releaseSource s fun t _ he => onlyLines_releaseSource t (of_decide_eq_true (List.mem_filter.1 he).2).1

/-! ### What a pair keeps -/

variable (h : OnlyLines s t) (p : Nat)
include h

theorem OnlyLines.running : (t.pair p).running = (s.pair p).running := (congrArg PairSt.running (h.core p) :)
theorem OnlyLines.drain : (t.pair p).drain = (s.pair p).drain := (congrArg PairSt.drain (h.core p) :)
theorem OnlyLines.drained : (t.pair p).drained = (s.pair p).drained := (congrArg PairSt.drained (h.core p) :)
theorem OnlyLines.offline : (t.pair p).offline = (s.pair p).offline := (congrArg PairSt.offline (h.core p) :)

theorem OnlyLines.bit {a : Nat} (ha : OffPair a) (i : Nat) : t.bit a i = s.bit a i := congrArg (·.getLsbD i) (h.reg a ha)

/-- A pair that takes no thread does not leave that state. -/
theorem OnlyLines.pstate (hge : 2 ≤ s.pstate p) : t.pstate p = s.pstate p := by
  have hfailed : (t.pair p).failed = (s.pair p).failed := (congrArg PairSt.failed (h.core p) :)
  have hloading : (t.pair p).loading = (s.pair p).loading := (congrArg PairSt.loading (h.core p) :)
  simp only [State.pstate, pstateOf, hfailed, hloading, h.offline p, h.drained p, h.drain p] at hge ⊢
  split_ifs at hge ⊢ <;> omega

/-- After a pair is written, PSTATE still shows the state it was written with. -/
theorem OnlyLines.getF_pstate {x : PairSt} {n : Nat} {u : State} (hs : s = u.setPair p x) (hp : p < 8) (hx : pstateOf x = n) (hn : 2 ≤ n) :
    t.pstate p = n ∧ t.getF (Reg.ccPstate p) 2 0 = n := by
  subst hs
  have hst : (u.setPair p x).pstate p = n := by rw [State.pstate, setPair_pair_same, hx]
  have hpst : t.pstate p = n := (h.pstate p (hst ▸ hn)).trans hst
  exact ⟨hpst, (h.shown p hp (pstateShown_setPair u p x)).trans hpst⟩

end OnlyLines

theorem offPair_evt (p : Nat) : OffPair (Pg.cc p + hEvt) := by
  constructor <;> simp only [Pg.cc, hEvt] <;> omega

theorem offPair_refuse (p : Nat) : OffPair (Pg.cc p + hRefuse) := by
  constructor <;> simp only [Pg.cc, hRefuse] <;> omega

theorem offPair_drain (p : Nat) : OffPair (Reg.ccDrain p) := by
  constructor <;> simp only [Reg.ccDrain] <;> omega

theorem offPair_lockstepErr (p : Nat) : OffPair (Reg.ccLockstepErr p) := by
  constructor <;> simp only [Reg.ccLockstepErr] <;> omega

/-! ### The operations of a pair (R306 to R309) -/

section Pair
variable {s : State} {p : Nat}

/-- DRAIN is set: the state before the count of the stranded and the lines. -/
def drainSet (s : State) (p : Nat) : State := (s.setBit (Reg.ccDrain p) 0 true).setPair p { s.pair p with drain := true }

theorem drain_of_free (ha : s.answers (Pg.cc p) = true) (hd : (s.pair p).drain = false) (hb : drainBusy s p = false) :
    drain s p = ((drainSet s p).countStranded p).updateLines := by
  rw [drain, ha, hd, hb]
  rfl

theorem drain_of_busy (ha : s.answers (Pg.cc p) = true) (hd : (s.pair p).drain = false) (hb : drainBusy s p = true) :
    drain s p = s.refuse (Pg.cc p) 0x0902 0x14 0 := by
  rw [drain, ha, hd, hb]
  rfl

theorem pair_of_rv {t : State} (h : t.rv = s.rv) (q : Nat) : t.pair q = s.pair q := by rw [State.pair, State.pair, h]

theorem drain_sets (ha : s.answers (Pg.cc p) = true) (hd : (s.pair p).drain = false) (hb : drainBusy s p = false) :
    ((drain s p).pair p).drain = true ∧ (drain s p).bit (Reg.ccDrain p) 0 = true ∧
    ((drain s p).pair p).running = (s.pair p).running ∧ ∀ q, q ≠ p → ((drain s p).pair q).drain = (s.pair q).drain := by
  rw [drain_of_free ha hd hb]
  have hlines := (onlyLines_countStranded (drainSet s p) p).trans (onlyLines_updateLines _)
  have hpair : (drainSet s p).pair p = { s.pair p with drain := true } := setPair_pair_same _ _ _
  have hother (q : Nat) (hq : q ≠ p) : (drainSet s p).pair q = s.pair q :=
    (setPair_pair_other _ _ hq).trans (pair_of_rv (setBit_rv _ _ _ _) q)
  refine ⟨by rw [hlines.drain, hpair], ?_, by rw [hlines.running, hpair], fun q hq => by rw [hlines.drain, hother q hq]⟩
  rw [hlines.bit (offPair_drain p), drainSet, bit, reg_setPair_offPair (offPair_drain p), ← bit, bit_setBit_same _ _ _ (by omega)]

/-- A refusal writes REFUSE and STATUS alone. -/
theorem refuse_sameBut (s : State) (page c w sub : Nat) : SameBut [.regs] s (s.refuse page c w sub) :=
  (refuse_changes rfl (.refl [.regs] s) page c w sub).same

/-- What a PSTATE below OFFLINE says of a pair. -/
theorem of_pstate {n : Nat} (h : s.pstate p = n) (hn : n < 5) :
    (s.pair p).failed = false ∧ (s.pair p).offline = false ∧ (s.pair p).loading = decide (n = 4) := by
  simp only [State.pstate, pstateOf] at h
  split_ifs at h <;> subst h <;> simp_all

theorem drained_ends (hp : p < 8) (h2 : s.pstate p = 2) (hr : (s.pair p).running = none) (hh : homed s p = []) :
    (drained s p).pstate p = 3 ∧ (drained s p).getF (Reg.ccPstate p) 2 0 = 3 ∧ (drained s p).bit (Pg.cc p + hEvt) 0 = true := by
  obtain ⟨hfailed, hoffline, hloading⟩ := of_pstate h2 (by omega)
  have hst : pstateOf { s.pair p with drained := true } = 3 := by simp [pstateOf, hfailed, hoffline, hloading]
  obtain ⟨hpst, hshown⟩ := (onlyLines_countStranded (s.setPair p { s.pair p with drained := true }) p).getF_pstate p rfl hp hst (by omega)
  rw [drained, if_pos ⟨h2, hr, hh⟩]
  refine ⟨?_, ?_, bit_evt_same _ (by omega) _⟩
  · rw [State.pstate, pair_of_rv (evt_rv _ _ _), ← State.pstate]
    exact hpst
  · rw [getF, reg_evt_other _ (by simp only [Reg.ccPstate, Pg.cc, hEvt]; omega), ← getF]
    exact hshown

theorem undrain_clears (ha : s.answers (Pg.cc p) = true) (hl : (s.pair p).loading = false) :
    ((undrain s p).pair p).drain = false ∧ ((undrain s p).pair p).drained = false ∧ (undrain s p).bit (Reg.ccDrain p) 0 = false ∧
    ((undrain s p).pair p).running = (s.pair p).running := by
  have heq : undrain s p = ((((s.setBit (Reg.ccDrain p) 0 false).setPair p
      { s.pair p with drain := false, drained := false }).countStranded p).offer).updateLines := by
    simp only [undrain, ha, hl]
    rfl
  rw [heq]
  have hlines := ((onlyLines_countStranded ((s.setBit (Reg.ccDrain p) 0 false).setPair p { s.pair p with drain := false, drained := false })
    p).trans (onlyLines_offer _)).trans (onlyLines_updateLines _)
  refine ⟨by rw [hlines.drain, setPair_pair_same], by rw [hlines.drained, setPair_pair_same], ?_,
    by rw [hlines.running, setPair_pair_same]⟩
  rw [hlines.bit (offPair_drain p), bit, reg_setPair_offPair (offPair_drain p), ← bit, bit_setBit_same _ _ _ (by omega)]

theorem load_of_drained (ha : s.answers (Pg.cc p) = true) (h3 : s.pstate p = 3) :
    load s p = ((s.setPair p { s.pair p with loading := true, undrain := false }).releaseActive p).updateLines := by
  unfold load
  rw [ha, h3]
  rfl

theorem load_starts (hp : p < 8) (ha : s.answers (Pg.cc p) = true) (h3 : s.pstate p = 3) :
    (load s p).pstate p = 4 ∧ (load s p).getF (Reg.ccPstate p) 2 0 = 4 ∧ (load s p).rv.threads = s.rv.threads := by
  obtain ⟨hfailed, hoffline, -⟩ := of_pstate h3 (by omega)
  have hlines := (onlyLines_releaseActive (s.setPair p { s.pair p with loading := true, undrain := false }) p).trans
    (onlyLines_updateLines _)
  have hst : pstateOf { s.pair p with loading := true, undrain := false } = 4 := by simp [pstateOf, hfailed, hoffline]
  obtain ⟨hpst, hshown⟩ := hlines.getF_pstate p rfl hp hst (by omega)
  rw [load_of_drained ha h3]
  exact ⟨hpst, hshown, by rw [hlines.threads, setPair_threads]⟩

theorem pstate_of_rv {t : State} (h : t.rv = s.rv) (q : Nat) : t.pstate q = s.pstate q := by
  rw [State.pstate, State.pstate, pair_of_rv h]

/-- What the end of a load leaves of the pair (R308). -/
theorem loadComplete_ends (hp : p < 8) (h4 : s.pstate p = 4) (hu : (s.pair p).undrain = false) (hd : (s.pair p).drained = true) :
    (loadComplete s p).pstate p = 3 ∧
    ((pairImage s p).2 = 0 → (loadComplete s p).bit (Pg.cc p + hEvt) 1 = true ∧
      (loadComplete s p).reg (Pg.cc p + hRefuse) = s.reg (Pg.cc p + hRefuse)) ∧
    ((pairImage s p).2 ≠ 0 → (loadComplete s p).bit (Pg.cc p + hEvt) 2 = true ∧
      (loadComplete s p).reg (Pg.cc p + hRefuse) = 0x00010A01 ∧ (loadComplete s p).bit (Pg.cc p + hStatus) 1 = true) := by
  obtain ⟨hfailed, hoffline, hloading⟩ := of_pstate h4 (by omega)
  have hlines := onlyLines_updateLines (s.setPair p { s.pair p with loading := false })
  have hst : pstateOf { s.pair p with loading := false } = 3 := by simp [pstateOf, hfailed, hoffline, hd]
  obtain ⟨hpst, -⟩ := hlines.getF_pstate p rfl hp hst (by omega)
  have hend : endLoad s p = (s.setPair p { s.pair p with loading := false }).updateLines := by
    rw [endLoad]
    simp only [hu]
    rfl
  rw [loadComplete, if_pos (Bool.and_eq_true_iff.2 ⟨hloading, decide_eq_true h4⟩), hend]
  dsimp only
  split
  next h0 =>
    refine ⟨(pstate_of_rv (evt_rv _ _ _) p).trans hpst, fun _ => ⟨bit_evt_same _ (by omega) _, ?_⟩, fun hne => absurd h0 hne⟩
    rw [reg_evt_other _ (by simp), hlines.reg _ (offPair_refuse p), reg_setPair_offPair (offPair_refuse p)]
  next h0 =>
    refine ⟨(pstate_of_rv ((refuse_rv _ _ _ _ _).trans (evt_rv _ _ _)) p).trans hpst, fun h => absurd h h0, fun _ => ⟨?_, ?_, ?_⟩⟩
    · rw [bit, reg_refuse_other _ (by simp) (by simp)]
      exact bit_evt_same _ (by omega) _
    · exact reg_refuse _ _ _ _ _
    · exact bit_refuse _ _ _ _ _

/-- An image whose header fails its check has an error. -/
theorem pairImage_error (h : headerOk (pairImage s p).1 = false) : (pairImage s p).2 ≠ 0 := by
  have h2 : (pairImage s p).2 = 2 := by simp only [pairImage, imageError] at h ⊢; rw [h]; rfl
  rw [h2]
  decide

/-! ### Lockstep and restart (R289) -/

/-- The thread of a halted pair is back at the head of its list. -/
def threadHalted (s : State) (r : Nat) : State :=
  let u := s.setThread r { s.thread r with state := 2, rank := -s.rv.rankNext - 1 }
  { u with rv := { u.rv with rankNext := u.rv.rankNext + 1 } }

theorem haltThread_of_running {r : Nat} (h : (s.pair p).running = some r) :
    haltThread s p = (threadHalted s r).setPair p { s.pair p with running := none } := by
  simp only [haltThread, h]
  rfl

theorem thread_threadHalted (s : State) (r : Nat) : ((threadHalted s r).thread r).state = 2 :=
  congrArg Thread.state (setThread_thread_same s r _)

/-- The pair OFFLINE after a mismatch at `now`. -/
def offlinePair (x : PairSt) (now : Nat) (second : Bool) : PairSt :=
  { x with offline := true, wfi := false, dispatch := false, offered := none, loading := false, undrain := false
           drain := x.drain && !x.undrain, drained := x.drained && !x.undrain, lockAt := some now, secondLock := second }

/-- Thread `r` halted on pair `p`, which is OFFLINE with the pair's state `x`. -/
def pairHalted (s : State) (p r : Nat) (x : PairSt) : State :=
  ((threadHalted s r).setPair p { s.pair p with running := none }).setPair p x

/-- The mismatch is counted, shown and raised. -/
def lockstepLogged (s : State) (p r : Nat) : State :=
  ((s.inc32 (Reg.ccLockstepErr p)).evt (Pg.cc p) 3).raise 0x5001 (Pg.cc p) p r

theorem ccLockstep_of_running {r : Nat} (hf : (s.pair p).failed = false) (hr : (s.pair p).running = some r) :
    ∃ second, ccLockstep s p = ((((lockstepLogged (pairHalted s p r (offlinePair { s.pair p with running := none } s.stp.timeNs second))
      p r).releaseActive p).countStranded p).offer).updateLines := by
  apply Exists.intro
  simp only [ccLockstep, hf, haltThread_of_running hr, setPair_pair_same, hr, Option.getD_some, lockstepLogged, pairHalted, offlinePair,
    Bool.false_eq_true, if_false]
  rfl

section Logged
variable (t : State) (p r : Nat)

theorem lockstepLogged_rv : (lockstepLogged t p r).rv = t.rv := by rw [lockstepLogged, raise_rv, evt_rv, inc32_rv]

theorem bit_lockstepLogged : (lockstepLogged t p r).bit (Pg.cc p + hEvt) 3 = true := bit_evt_same _ (by omega) _

theorem lockstepLogged_faults : (lockstepLogged t p r).faults = t.faults ++ [⟨0x5001, Pg.cc p / 0x1000, p, r, t.stp.timeNs⟩] := by
  rw [lockstepLogged, raise, evt_faults, inc32_faults, evt_stp, inc32_stp]

theorem reg_lockstepLogged (h : t.reg (Reg.ccLockstepErr p) ≠ BitVec.allOnes 32) :
    (lockstepLogged t p r).reg (Reg.ccLockstepErr p) = t.reg (Reg.ccLockstepErr p) + 1 := by
  rw [lockstepLogged, reg_raise, reg_evt_other _ (by simp only [Reg.ccLockstepErr, Pg.cc, hEvt]; omega), reg_inc32 _ _ h]

end Logged

section Halted
variable (s : State) (p r : Nat) (x : PairSt)

theorem pairHalted_pair : (pairHalted s p r x).pair p = x := setPair_pair_same _ _ _

theorem pairHalted_threads : (pairHalted s p r x).rv.threads = (threadHalted s r).rv.threads := by
  rw [pairHalted, setPair_threads, setPair_threads]

theorem pairHalted_faults : (pairHalted s p r x).faults = s.faults := by
  rw [pairHalted, setPair_faults, setPair_faults]
  rfl

theorem pairHalted_stp : (pairHalted s p r x).stp = s.stp := by
  rw [pairHalted, setPair_stp, setPair_stp]
  rfl

theorem reg_pairHalted {a : Nat} (ha : OffPair a) : (pairHalted s p r x).reg a = s.reg a := by
  rw [pairHalted, reg_setPair_offPair ha, reg_setPair_offPair ha]
  rfl

end Halted

/-- A lockstep mismatch takes the pair OFFLINE and its thread READY (R289). -/
theorem ccLockstep_halts {r : Nat} (hf : (s.pair p).failed = false) (hr : (s.pair p).running = some r) :
    (ccLockstep s p).pstate p = 5 ∧ ((ccLockstep s p).pair p).running = none ∧ ((ccLockstep s p).thread r).state = 2 ∧
    (ccLockstep s p).bit (Pg.cc p + hEvt) 3 = true ∧
    (ccLockstep s p).faults = s.faults ++ [⟨0x5001, Pg.cc p / 0x1000, p, r, s.stp.timeNs⟩] ∧
    (s.reg (Reg.ccLockstepErr p) ≠ BitVec.allOnes 32 →
      (ccLockstep s p).reg (Reg.ccLockstepErr p) = s.reg (Reg.ccLockstepErr p) + 1) := by
  obtain ⟨second, heq⟩ := ccLockstep_of_running hf hr
  rw [heq]
  generalize hx : offlinePair { s.pair p with running := none } s.stp.timeNs second = x
  have hxst : pstateOf x = 5 := by simp [← hx, offlinePair, pstateOf, hf]
  have hxrun : x.running = none := by rw [← hx, offlinePair]
  set halted := pairHalted s p r x with hhalted
  have hrv := lockstepLogged_rv halted p r
  have hlines := (((onlyLines_releaseActive (lockstepLogged halted p r) p).trans (onlyLines_countStranded _ p)).trans
    (onlyLines_offer _)).trans (onlyLines_updateLines _)
  have hpair : (lockstepLogged halted p r).pair p = x := (pair_of_rv hrv p).trans (pairHalted_pair s p r x)
  have hst : (lockstepLogged halted p r).pstate p = 5 := by rw [State.pstate, hpair, hxst]
  have herr := reg_pairHalted s p r x (offPair_lockstepErr p)
  refine ⟨by rw [hlines.pstate p (by omega), hst], by rw [hlines.running p, hpair, hxrun], ?_, ?_, ?_, fun hcount => ?_⟩
  · rw [State.thread, hlines.threads, hrv, pairHalted_threads]
    exact thread_threadHalted s r
  · rw [hlines.bit (offPair_evt p)]
    exact bit_lockstepLogged _ p r
  · rw [hlines.faults, lockstepLogged_faults, pairHalted_faults, pairHalted_stp]
  · rw [hlines.reg _ (offPair_lockstepErr p), reg_lockstepLogged _ p r (by rw [herr]; exact hcount), herr]

theorem pairRestart_of_first (ho : (s.pair p).offline = true) (h2 : (s.pair p).secondLock = false) :
    pairRestart s p = (s.setPair p { s.pair p with offline := false }).offer.updateLines := by
  simp only [pairRestart, ho, h2]
  rfl

theorem pairRestart_of_second (ho : (s.pair p).offline = true) (h2 : (s.pair p).secondLock = true) : pairRestart s p =
    (((s.setPair p { s.pair p with offline := false, failed := true }).releaseActive p).raise 0x5002 (Pg.cc p) p 0).updateLines := by
  simp only [pairRestart, ho, h2]
  rfl

/-- The restart ends. -/
theorem pairRestart_resumes (ho : (s.pair p).offline = true) (h2 : (s.pair p).secondLock = false) :
    ((pairRestart s p).pair p).offline = false ∧ ((pairRestart s p).pair p).drain = (s.pair p).drain ∧
    (pairRestart s p).faults = s.faults := by
  rw [pairRestart_of_first ho h2]
  have hlines := (onlyLines_offer (s.setPair p { s.pair p with offline := false })).trans (onlyLines_updateLines _)
  exact ⟨by rw [hlines.offline, setPair_pair_same], by rw [hlines.drain, setPair_pair_same], by rw [hlines.faults, setPair_faults]⟩

/-- Releasing sources leaves the clock. -/
theorem releaseActive_stp (s : State) (p : Nat) : (s.releaseActive p).stp = s.stp :=
  (releaseActive_changes rfl (.refl [.regs, .bf] s) p).same .stp (by decide)

/-- A second mismatch within 10 s: the pair is FAILED. -/
theorem pairRestart_fails (hp : p < 8) (ho : (s.pair p).offline = true) (h2 : (s.pair p).secondLock = true) :
    (pairRestart s p).pstate p = 6 ∧ (pairRestart s p).getF (Reg.ccPstate p) 2 0 = 6 ∧
    (pairRestart s p).faults = s.faults ++ [⟨0x5002, Pg.cc p / 0x1000, p, 0, s.stp.timeNs⟩] := by
  rw [pairRestart_of_second ho h2]
  have hrel := onlyLines_releaseActive (s.setPair p { s.pair p with offline := false, failed := true }) p
  have h6 : pstateOf { s.pair p with offline := false, failed := true } = 6 := rfl
  obtain ⟨hpst, hshown⟩ := hrel.getF_pstate p rfl hp h6 (by omega)
  have hlines := onlyLines_updateLines
    (((s.setPair p { s.pair p with offline := false, failed := true }).releaseActive p).raise 0x5002 (Pg.cc p) p 0)
  have hst := (pstate_of_rv (raise_rv _ 0x5002 (Pg.cc p) p 0) p).trans hpst
  have hfinal := (hlines.pstate p (by rw [hst]; omega)).trans hst
  refine ⟨hfinal, (hlines.shown p hp (hshown.trans hst.symm)).trans hfinal, ?_⟩
  rw [hlines.faults, raise, hrel.faults, setPair_faults, releaseActive_stp, setPair_stp]

end Pair

/-- Settles O40: each operation by the pair that it writes, and what dispatch and the lines leave of it. -/
theorem pairsDrainLoadAndRestart : Obligations.PairsDrainLoadAndRestart := by
  unfold Obligations.PairsDrainLoadAndRestart
  refine ⟨fun p s ha hd hb => ⟨_, rfl, drain_sets ha hd hb⟩, fun p s ha hd hb => ⟨_, rfl, ?drainRefused⟩,
    fun p s h2 hr hh => ⟨_, rfl, drained_ends p.isLt h2 hr hh⟩, fun p s ha hl => ⟨_, rfl, undrain_clears ha hl⟩,
    fun p s ha h3 => ⟨_, rfl, load_starts p.isLt ha h3⟩, fun p s h4 hu hd => ⟨_, rfl, loadComplete_ends p.isLt h4 hu hd⟩,
    fun p s h4 hu hd hh => ⟨_, rfl, ?loadFails⟩, fun p r s hf hr => ⟨_, rfl, ccLockstep_halts hf hr⟩,
    fun p s ho h2 => ⟨_, rfl, pairRestart_resumes ho h2⟩, fun p s ho h2 => ⟨_, rfl, pairRestart_fails p.isLt ho h2⟩⟩
  case drainRefused =>
    rw [drain_of_busy ha hd hb]
    exact ⟨reg_refuse _ _ _ _ _, bit_refuse _ _ _ _ _, refuse_sameRegsBut _ _ _ _ _, refuse_sameBut _ _ _ _ _⟩
  case loadFails =>
    obtain ⟨hpst, -, herr⟩ := loadComplete_ends p.isLt h4 hu hd
    exact ⟨hpst, herr (pairImage_error hh)⟩

end Sys2Proof.Machine
end

section
/-! Refutation of ResyncAndSwaps: its clause for the named frame takes STILE.STATE as it stands but for the bit that a returning path
clears. The channels code the rest of their sequences there, and no hypothesis keeps a slot's engine below 34: the counter of bits of
engine 0x3400 has the address of STILE.STATE. -/

namespace Sys2Proof.Machine

open State

/-- A rendition of one CTU row without a column. -/
def thinRend : RendCfg := { rendCfg State.reset 0 0 with w := 0, h := 1, ctu := 32, sliceRows := 1 }

/-- A channel of that rendition alone. -/
def thinChan : ChanCfg := { chanCfg State.reset 0 with cls := 1, rends := [thinRend] }

/-- Its placement on slot 0. -/
def thinPlace : Place := ⟨[⟨0, 0, [0], true, false, 0, false⟩], (0, 0), [], 0, 0, 0, 0, 0, 0, thinChan, 0⟩

/-- Slot 0 of engine 0x3400 with the channel's row in coding, which has 64 bits so far. -/
def strayEngine : Slot := ⟨some 0x3400, true, [], some ⟨0, 0, 0, 0, 0, 0, 0, 0, 0, 0, 0, 64⟩, none, none⟩

/-- Channel 0 runs in the first frame of its sequence, and its resync is scheduled for frame 1. -/
def resyncOfStray : State :=
  { State.reset with
    regs := [(Pg.stp + hCtrl, 1)]
    chans := [(0, { Chan.init with place := some thinPlace, running := true, frame := 1, startFr := 5 })]
    eng := { State.reset.eng with slots := [(0, strayEngine)] }
    twin := { State.reset.twin with resyncs := [(0, 1)] } }

/-- The row ends with the sequence, and its 64 bits are counted at STILE.STATE. -/
theorem bit_resyncApplied_stray : (resyncApplied resyncOfStray).bit Reg.stileState 6 = true := by decide

/-- Refutes O53: at the named frame the path reads withdrawn, which it was not. -/
theorem not_resyncAndSwaps : ¬ Obligations.ResyncAndSwaps := by
  unfold Obligations.ResyncAndSwaps
  rintro ⟨-, -, -, happlied, -⟩
  obtain ⟨t, ht, -, hbit, -⟩ := happlied 1 resyncOfStray (by decide) (by decide)
  obtain rfl : resyncApplied resyncOfStray = t := by simpa [exec, execResyncApplied] using ht
  exact Bool.false_ne_true (hbit.symm.trans bit_resyncApplied_stray)

end Sys2Proof.Machine
end

section
/-! Proof of HoldoffTokenAndDualRole: the control role is taken, dropped and read back by the register STILE.STATE. -/

namespace Sys2Proof.Machine

open State

/-! ### Positions (R12) -/

section Position
variable (s : State)

theorem countHold_timeNs (k : Nat) : (s.countHold k).stp.timeNs = s.stp.timeNs := by
  unfold countHold
  split
  · rw [wrapAdd_stp]
  · split <;> rfl

theorem toPos_timeNs (p : BitVec 64) : (s.toPos p).stp.timeNs = s.stp.timeNs := by
  unfold toPos
  split
  · rfl
  · dsimp only
    split
    · rfl
    · rw [enterFrame, countHold_timeNs, carryMap_stp]
      rfl

theorem toPos_faults (p : BitVec 64) : (s.toPos p).faults = s.faults :=
  (toPos_changes rfl (.refl [.regs, .stp] s) p).same .faults (by decide)

theorem toPos_twin (p : BitVec 64) : (s.toPos p).twin = s.twin :=
  (toPos_changes rfl (.refl [.regs, .stp] s) p).same .twin (by decide)

theorem toFrameStart_faults : s.toFrameStart.faults = s.faults :=
  (toFrameStart_changes rfl (.refl [.regs, .stp] s)).same .faults (by decide)

/-- A change of position leaves the page of the Stile. -/
theorem reg_toPos_stile (p : BitVec 64) {a : Nat} (ha : Pg.stile ≤ a) : (s.toPos p).reg a = s.reg a := by
  simp only [Pg.stile] at ha
  exact reg_toPos s p a (by simp only [Reg.ptpMapLo]; omega) (by simp only [Reg.ptpMapHi]; omega) (by simp only [Reg.stpHoldFrames]; omega)

end Position

/-! ### The control role (R387, R403 to R407) -/

section Role
variable (s : State)

/-- The bits of STATE that taking the role leaves. -/
theorem bit_takeRole_state (i : Nat) : (takeRole s).bit Reg.stileState i = if i = 3 then true else s.bit Reg.stileState i := by
  rw [takeRole, bit, reg_raise, reg_evt_other _ (by simp), reg_setBit_same, getLsbD_putBit _ _ _ _ (by omega)]
  rfl

theorem bit_takeRole_evt : (takeRole s).bit (Pg.stile + hEvt) 8 = true := bit_evt_same _ (by omega) _

theorem takeRole_faults : (takeRole s).faults = s.faults ++ [⟨0x7005, Pg.stile / 0x1000, 1, 0, s.stp.timeNs⟩] := by
  rw [takeRole, raise, evt_faults, setBit_faults, evt_stp, setBit_stp]

theorem bit_takeOverRole (a i : Nat) : (takeOverRole s).bit a i = (takeRole s).bit a i := rfl

theorem takeOverRole_faults : (takeOverRole s).faults = s.faults ++ [⟨0x7005, Pg.stile / 0x1000, 1, 0, s.stp.timeNs⟩] := takeRole_faults s

theorem takeOverRole_holdoff : (takeOverRole s).twin.holdoff = s.twin.holdoff := by
  show (takeRole s).twin.holdoff = _
  rw [takeRole, raise_twin, evt_twin, setBit_twin]

theorem takeOverRole_token : (takeOverRole s).pins.token = s.pins.token := by
  show (takeRole s).pins.token = _
  rw [takeRole, raise_pins, evt_pins, setBit_pins]

/-- The bits of STATE that dropping the role leaves. -/
theorem bit_dropRole_state (i : Nat) : (dropRole s).bit Reg.stileState i = if i = 3 then false else s.bit Reg.stileState i := by
  rw [dropRole, bit, reg_evt_other _ (by simp), reg_setBit_same, getLsbD_putBit _ _ _ _ (by omega)]
  rfl

theorem bit_dropRole_evt : (dropRole s).bit (Pg.stile + hEvt) 9 = true := bit_evt_same _ (by omega) _

theorem readToken_reg (high : Bool) (a : Nat) : (readToken s high).reg a = (s.setBit Reg.stileState 7 high).reg a := rfl

/-- The bits of STATE that the token's level leaves. -/
theorem bit_readToken_state (high : Bool) (i : Nat) :
    (readToken s high).bit Reg.stileState i = if i = 7 then high else s.bit Reg.stileState i := by
  rw [bit, readToken_reg, reg_setBit_same, getLsbD_putBit _ _ _ _ (by omega)]
  rfl

end Role

/-! ### The end of a hold-off (R403) -/

section Holdoff
variable {s : State} {f : BitVec 32} (hf : s.twin.holdoff = some f) (he : s.enabled Pg.stile = true) (hr : s.running = true)
  (hup : stileUp s = false) (hnet : netUp s = false) (hrole : s.bit Reg.stileState 3 = false)
include hf he hr hup hnet hrole

/-- The hold-off ends with the token read at the frame that it names. -/
theorem holdoffExpired_eq (high : Bool) : holdoffExpired s high =
    if high then takeOverRole { readToken (s.toPos (posOf f 0)) high with
      twin := { (readToken (s.toPos (posOf f 0)) high).twin with holdoff := none } }
    else { readToken (s.toPos (posOf f 0)) high with
      twin := { (readToken (s.toPos (posOf f 0)) high).twin with holdoff := some ((readToken (s.toPos (posOf f 0)) high).frame + 1) } } := by
  simp only [holdoffExpired, hf, he, hr, hup, hnet, hrole, Bool.not_true, Bool.or_false, Bool.false_eq_true, if_false]

theorem holdoffExpired_takes :
    (holdoffExpired s true).bit Reg.stileState 3 = true ∧ (holdoffExpired s true).bit Reg.stileState 7 = true ∧
    (holdoffExpired s true).twin.holdoff = none ∧ (holdoffExpired s true).pins.token = true ∧
    (holdoffExpired s true).faults = s.faults ++ [⟨0x7005, Pg.stile / 0x1000, 1, 0, s.stp.timeNs⟩] := by
  rw [holdoffExpired_eq hf he hr hup hnet hrole, if_pos rfl]
  refine ⟨?_, ?_, takeOverRole_holdoff _, takeOverRole_token _, ?_⟩
  · rw [bit_takeOverRole, bit_takeRole_state, if_pos rfl]
  · rw [bit_takeOverRole, bit_takeRole_state, if_neg (by omega)]
    exact (bit_readToken_state _ _ _).trans (if_pos rfl)
  · rw [takeOverRole_faults]
    show (s.toPos (posOf f 0)).faults ++ [⟨_, _, _, _, (s.toPos (posOf f 0)).stp.timeNs⟩] = _
    rw [toPos_faults, toPos_timeNs]

theorem holdoffExpired_waits :
    (holdoffExpired s false).bit Reg.stileState 3 = false ∧ (holdoffExpired s false).bit Reg.stileState 7 = false ∧
    (holdoffExpired s false).twin.holdoff = some ((s.toPos (posOf f 0)).frame + 1) ∧ (holdoffExpired s false).faults = s.faults := by
  rw [holdoffExpired_eq hf he hr hup hnet hrole, if_neg Bool.false_ne_true]
  refine ⟨?_, (bit_readToken_state _ _ _).trans (if_pos rfl), rfl, toPos_faults s _⟩
  refine (bit_readToken_state _ _ _).trans ((if_neg (by omega)).trans ?_)
  rw [bit, reg_toPos_stile s _ (by simp)]
  exact hrole

end Holdoff

/-! ### The token and a doubled role (R404, R405) -/

theorem tokenReadback_of_role {s : State} (hr : s.running = true) (hrole : s.hasRole = true) (high : Bool) : tokenReadback s high =
    if high then ((readToken s high).setBit Reg.stileState 8 high).evt Pg.stile 10 else (readToken s high).setBit Reg.stileState 8 high := by
  simp only [tokenReadback, hr, hrole, Bool.not_true, Bool.true_or, Bool.and_true, Bool.or_false, Bool.false_eq_true, if_false]

/-- The token, then the disagreement, in STATE. -/
theorem tokenReadback_shows {s : State} (hr : s.running = true) (hrole : s.hasRole = true) (high : Bool) :
    (tokenReadback s high).bit Reg.stileState 7 = high ∧ (tokenReadback s high).bit Reg.stileState 8 = high ∧
    (tokenReadback s high).pins.token = high ∧ (high = true → (tokenReadback s high).bit (Pg.stile + hEvt) 10 = true) ∧
    SameRegsBut [Reg.stileState, Pg.stile + hEvt] s (tokenReadback s high) := by
  have hshown : ((readToken s high).setBit Reg.stileState 8 high).bit Reg.stileState 7 = high := by
    rw [bit_setBit_other _ _ _ (by omega) (by omega), bit_readToken_state, if_pos rfl]
  have hdisagree : ((readToken s high).setBit Reg.stileState 8 high).bit Reg.stileState 8 = high := bit_setBit_same _ _ _ (by omega)
  have hpins : ((readToken s high).setBit Reg.stileState 8 high).pins.token = high := by
    rw [setBit_pins]
    rfl
  have hregs (a : Nat) (ha : a ≠ Reg.stileState) : ((readToken s high).setBit Reg.stileState 8 high).reg a = s.reg a := by
    rw [reg_setBit_other _ _ _ ha, readToken_reg, reg_setBit_other _ _ _ ha]
  rw [tokenReadback_of_role hr hrole]
  split
  next h =>
    refine ⟨?_, ?_, by rw [evt_pins]; exact hpins, fun _ => bit_evt_same _ (by omega) _, fun a ha => ?_⟩
    · rw [bit, reg_evt_other _ (by simp)]
      exact hshown
    · rw [bit, reg_evt_other _ (by simp)]
      exact hdisagree
    · simp only [List.mem_cons, List.not_mem_nil, or_false, not_or] at ha
      rw [reg_evt_other _ ha.2, hregs a ha.1]
  next h => exact ⟨hshown, hdisagree, hpins, fun h' => absurd h' h, fun a ha => hregs a (fun e => ha (by simp [e]))⟩

theorem dualRelease_of_dual {s : State} (hd : s.bit Reg.stileState 9 = true) (hm : isMirror s = true) (hr : s.running = true) :
    dualRelease s = (dropRole s.toFrameStart).setBit Reg.stileState 9 false := by
  rw [dualRelease, hd, hm, hr]
  rfl

/-- Settles O54: the role by takeRole and dropRole, the token by readToken, at the frame start that toPos reaches. -/
theorem holdoffTokenAndDualRole : Obligations.HoldoffTokenAndDualRole := by
  unfold Obligations.HoldoffTokenAndDualRole
  refine ⟨fun f s hf he hr hup hnet hrole => ⟨_, rfl, holdoffExpired_takes hf he hr hup hnet hrole⟩,
    fun f s hf he hr hup hnet hrole => ⟨_, rfl, holdoffExpired_waits hf he hr hup hnet hrole⟩,
    fun high s hr hrole => ⟨_, rfl, tokenReadback_shows hr hrole high⟩, fun s hd hm hr => ⟨_, rfl, ?_⟩⟩
  rw [dualRelease_of_dual hd hm hr]
  refine ⟨?_, bit_setBit_same _ _ _ (by omega), ?_, ?_, ?_⟩
  · rw [bit_setBit_other _ _ _ (by omega) (by omega), bit_dropRole_state, if_pos rfl]
  · rw [bit, reg_setBit_other _ _ _ (by simp)]
    exact bit_dropRole_evt _
  · rw [inFrame, setBit_stp, dropRole, evt_stp, setBit_stp]
    exact toFrameStart_inFrame s hr
  · rw [setBit_faults, dropRole, evt_faults, setBit_faults, toFrameStart_faults]

end Sys2Proof.Machine
end

section
/-! Proof of TwinStepIn: the STILE page is enabled and left, HELLOs, and the step-in of the primary and of the mirror. -/

namespace Sys2Proof.Machine

open State

/-! ### The paths of the twins (R386) -/

section Paths
variable (s : State) (b : Bool)

/-- A withdrawal or a return of a path leaves the page of the Stile. -/
structure OffPorts (a : Nat) : Prop where
  notPstat : a % 0x1000 ≠ 0x48
  notEvt : a ≠ Pg.etm + hEvt

theorem offPorts_stile {o : Nat} (ho : o < 0x1000) (h : o ≠ 0x48) : OffPorts (Pg.stile + o) := by
  constructor <;> simp only [Pg.stile, Pg.etm, hEvt] <;> omega

theorem reg_showPorts_off {a : Nat} (ha : OffPorts a) : (showPorts s).reg a = s.reg a :=
  reg_showPorts s fun p => by
    have := ha.notPstat
    simp only [Reg.eportPstat]
    omega

theorem reg_withdrawPath {a : Nat} (ha : OffPorts a) : (withdrawPath s b).reg a = s.reg a := by
  unfold withdrawPath
  split
  · rfl
  · dsimp only
    rw [reg_evt_other _ ha.notEvt, reg_showPorts_off _ ha]
    rfl

theorem reg_restorePath {a : Nat} (ha : OffPorts a) : (restorePath s b).reg a = s.reg a := reg_showPorts_off _ ha

theorem showPorts_etm : (showPorts s).etm = s.etm := (showPorts_changes rfl (.refl [.regs] s)).same .etm (by decide)

theorem pathWithdrawn_withdrawPath : pathWithdrawn (withdrawPath s b) b = true := by
  unfold withdrawPath
  split
  next h => exact h
  next h =>
    dsimp only
    rw [pathWithdrawn, evt_etm, showPorts_etm]
    cases b <;> rfl

/-- Both paths are the device's own again. -/
theorem restorePath_both : (restorePath (restorePath s false) true).etm.withdrawn = (false, false) := by
  rw [restorePath, showPorts_etm, restorePath, showPorts_etm]
  rfl

/-- A withdrawal changes the ETM alone. -/
theorem withdrawPath_same : SameBut [.regs, .etm] s (withdrawPath s b) := (withdrawPath_changes rfl (.refl [.regs, .etm] s) b).same

theorem restorePath_same : SameBut [.regs, .etm] s (restorePath s b) := (restorePath_changes rfl (.refl [.regs, .etm] s) b).same

end Paths

/-- The state with a twin's part of its own. -/
def twinSet (s : State) (x : TwinSt) : State := { s with twin := x }

theorem reg_twinSet (s : State) (x : TwinSt) (a : Nat) : (twinSet s x).reg a = s.reg a := rfl

theorem twinSet_same (s : State) (x : TwinSt) : SameBut [.twin] s (twinSet s x) := (Changes.set_twin rfl (.refl [.twin] s) x).same

theorem twinSet_twin (s : State) (x : TwinSt) : (twinSet s x).twin = x := rfl

/-! ### ENABLE (R386, R391, R392) -/

/-- The Stile is off, with nothing of the twin known. -/
def stileLeft (s : State) : State := twinSet ((s.deactivate Pg.stile).setReg Reg.stileState 0) TwinSt.init

theorem stileLeft_faults (s : State) : (stileLeft s).faults = s.faults := by
  show ((s.deactivate Pg.stile).setReg Reg.stileState 0).faults = _
  rw [setReg_faults]
  exact (deactivate_changes rfl (.refl [.regs] s) Pg.stile).same .faults (by decide)

section Enable
variable {s : State} (ha : s.answers Pg.stile = true)
include ha

/-- STILE starts in HELLO with nothing of the twin known. -/
def helloStarted (s : State) : State := (twinSet ((s.activate Pg.stile).setN Reg.stileState 1) TwinSt.init).evt Pg.stile 9

theorem stileEnable_of_tests (he : s.enabled Pg.stile = false) (ht : stileTests s = none) :
    stileEnable s = withdrawPath (helloStarted s) (!(isMirror s)) := by
  simp only [stileEnable, ha, he, ht, Bool.not_true, Bool.or_false, Bool.false_eq_true, if_false]
  rfl

theorem stileEnable_of_failure (he : s.enabled Pg.stile = false) {c w : Nat} (ht : stileTests s = some (c, w)) :
    stileEnable s = s.failCheck Pg.stile c w 0 := by
  simp only [stileEnable, ha, he, ht, Bool.not_true, Bool.or_false, Bool.false_eq_true, if_false]

theorem stileDisable_of_free (he : s.enabled Pg.stile = true) (hp : anyChannelPlaced s = false) :
    stileDisable s = (restorePath (restorePath (stileLeft s) false) true).guarantee := by
  simp only [stileDisable, ha, he, hp, Bool.not_true, Bool.or_false, Bool.false_eq_true, if_false]
  rfl

end Enable

/-- The page of a HELLO that starts, above STATE and the header. -/
theorem reg_helloStarted (s : State) {a : Nat} (h1 : a ≠ Reg.stileState) (h2 : a ≠ Pg.stile + hEvt) :
    (helloStarted s).reg a = (s.activate Pg.stile).reg a := by
  rw [helloStarted, reg_evt_other _ h2, reg_twinSet, reg_setN_other _ _ h1]

theorem stileEnable_starts {s : State} (ha : s.answers Pg.stile = true) (he : s.enabled Pg.stile = false) (ht : stileTests s = none) :
    (stileEnable s).enabled Pg.stile = true ∧ (stileEnable s).bit (Pg.stile + hStatus) 0 = true ∧
    (stileEnable s).reg Reg.stileState = 1 ∧ (stileEnable s).bit (Pg.stile + hEvt) 9 = true ∧
    pathWithdrawn (stileEnable s) (!(isMirror s)) = true ∧ (stileEnable s).twin = TwinSt.init := by
  rw [stileEnable_of_tests ha he ht]
  have hreg {o : Nat} (ho : o < 0x1000) (h : o ≠ 0x48) := reg_withdrawPath (helloStarted s) (!(isMirror s)) (offPorts_stile ho h)
  refine ⟨?_, ?_, ?_, ?_, pathWithdrawn_withdrawPath _ _, ?_⟩
  · rw [enabled, bit, hreg (by decide) (by decide), reg_helloStarted s (by simp) (by simp)]
    exact enabled_activate s _
  · rw [bit, hreg (by decide) (by decide), reg_helloStarted s (by simp) (by simp), ← bit, bit_activate_status]
    rfl
  · refine (hreg (o := 0x50) (by decide) (by decide)).trans ?_
    rw [helloStarted, reg_evt_other _ (by simp), reg_twinSet]
    exact reg_setN_same _ _ _
  · rw [bit, hreg (by decide) (by decide), ← bit]
    exact bit_evt_same _ (by omega) _
  · rw [withdrawPath_same _ _ .twin (by decide), helloStarted, evt_twin, twinSet_twin]

theorem stileEnable_refused {s : State} {c w : Nat} (ha : s.answers Pg.stile = true) (he : s.enabled Pg.stile = false)
    (ht : stileTests s = some (c, w)) :
    (stileEnable s).enabled Pg.stile = false ∧ (stileEnable s).bit (Pg.stile + hStatus) 1 = true ∧
    (stileEnable s).reg (Pg.stile + hRefuse) = BitVec.ofNat 32 (c + w * 0x10000) ∧ (stileEnable s).twin = s.twin ∧
    (stileEnable s).etm = s.etm := by
  have hsame := (failCheck_changes rfl (.refl [.regs] s) Pg.stile c w 0).same
  rw [stileEnable_of_failure ha he ht]
  refine ⟨?_, ?_, ?_, hsame .twin (by decide), hsame .etm (by decide)⟩
  · rw [failCheck, enabled_refuse, enabled_deactivate]
  · rw [failCheck, bit_refuse]
  · rw [failCheck, reg_refuse, Nat.zero_mul, Nat.add_zero]

theorem stileDisable_leaves {s : State} (ha : s.answers Pg.stile = true) (he : s.enabled Pg.stile = true)
    (hp : anyChannelPlaced s = false) :
    (stileDisable s).enabled Pg.stile = false ∧ (stileDisable s).reg Reg.stileState = 0 ∧
    (stileDisable s).etm.withdrawn = (false, false) ∧ (stileDisable s).twin = TwinSt.init ∧ (stileDisable s).faults = s.faults := by
  rw [stileDisable_of_free ha he hp]
  have hpaths : SameBut [.regs, .etm] (stileLeft s) (restorePath (restorePath (stileLeft s) false) true).guarantee :=
    (guarantee_changes rfl (restorePath_changes rfl (restorePath_changes rfl (.refl [.regs, .etm] (stileLeft s)) false) true)).same
  have hreg {o : Nat} (ho : o < 0x1000) (h : o ≠ 0x48) :
      (restorePath (restorePath (stileLeft s) false) true).guarantee.reg (Pg.stile + o) = (stileLeft s).reg (Pg.stile + o) := by
    rw [reg_guarantee _ _ (by simp only [Pg.stile, Reg.watchGuarantee]; omega) (by simp only [Pg.stile, Pg.watch, hEvt]; omega),
      reg_restorePath _ _ (offPorts_stile ho h), reg_restorePath _ _ (offPorts_stile ho h)]
  refine ⟨?_, ?_, ?_, hpaths .twin (by decide), ?_⟩
  · rw [enabled, bit, hreg (by decide) (by decide), stileLeft, reg_twinSet, reg_setReg_other _ _ (by simp)]
    exact enabled_deactivate s _
  · refine (hreg (o := 0x50) (by decide) (by decide)).trans ?_
    rw [stileLeft, reg_twinSet]
    exact reg_setReg_same _ _ _
  · rw [(guarantee_changes rfl (.refl [.regs] _)).same .etm (by decide), restorePath_both]
  · exact (hpaths .faults (by decide)).trans (stileLeft_faults s)

/-! ### HELLO (R392) -/

section Hello
variable {s : State} (he : s.enabled Pg.stile = true) (h1 : stepSt s = 1)
include he h1

theorem hello_agreeing {m : HelloMsg} (hid : m.ident ≠ isMirror s) (hr : m.raster = s.reg Reg.stpRaster) (hs : m.sel.val = srcSel s)
    (hst : m.stepping = 0xB0) :
    hello s m = twinSet s { s.twin with agreed := true, named := if isMirror s then m.named else s.twin.named } := by
  simp only [hello, he, h1, hid, hr, hs, hst, Bool.not_true, Bool.false_or, ne_eq, not_true_eq_false, decide_false, or_self,
    Bool.false_eq_true, if_false]
  rfl

theorem hello_same_identity {m : HelloMsg} (hid : m.ident = isMirror s) :
    hello s m = twinSet (s.refuse Pg.stile 0x0706 (wordOf Reg.stileCfg) 0)
      { (s.refuse Pg.stile 0x0706 (wordOf Reg.stileCfg) 0).twin with agreed := false, named := none } := by
  simp only [hello, he, h1, hid, Bool.not_true, Bool.false_or, ne_eq, not_true_eq_false, decide_false, if_true, Bool.false_eq_true, if_false]
  rfl

/-- The HELLO of the primary that names the next frame start. -/
def namingHello (s : State) : HelloMsg := ⟨false, s.reg Reg.stpRaster, Fin.ofNat 8 (srcSel s), 0xB0, some (s.frame + 1)⟩

theorem helloSend_names (hm : isMirror s = false) (ha : s.twin.agreed = true) (hrun : 16 ≤ s.twin.hbRun) :
    helloSend s = { twinSet s { s.twin with named := some (s.frame + 1) } with
      sent := .hello (namingHello s) (stileRows s 0x16 (helloBytes (namingHello s))) :: s.sent } := by
  simp only [helloSend, he, h1, hm, ha, hrun, Bool.not_true, Bool.false_or, ne_eq, not_true_eq_false, decide_false, Bool.not_false,
    Bool.and_self, decide_true, if_true, Bool.false_eq_true, if_false]
  rfl

end Hello

/-! ### The named frame start (R394) -/

/-- The device is in step at the frame start, before GUARANTEE and the paths follow. -/
def inStepShown (s : State) : State :=
  let t := (s.setF Reg.stileState 1 0 2).evt Pg.stile 0
  setComparing (twinSet t { t.twin with named := none })

section StepIn
variable {s : State} {f : BitVec 32} (he : s.enabled Pg.stile = true) (h1 : stepSt s = 1) (hr : s.running = true)
  (hn : s.twin.named = some f)
include he h1 hr hn

theorem stepIn_of_primary (hm : isMirror s = false) :
    stepIn s = withdrawPath (inStepShown (takeRole (s.toPos (posOf f 0)))).guarantee true := by
  simp only [stepIn, hn, he, h1, hr, hm, Bool.not_true, Bool.or_false, ne_eq, not_true_eq_false, decide_false, Bool.false_eq_true,
    if_false, Bool.not_false]
  rfl

theorem stepIn_of_mirror (hm : isMirror s = true) :
    stepIn s = withdrawPath (inStepShown (renumber s.toFrameStart f)).guarantee false := by
  simp only [stepIn, hn, he, h1, hr, hm, Bool.not_true, Bool.or_false, ne_eq, not_true_eq_false, decide_false, Bool.false_eq_true,
    if_false, if_true]
  rfl

end StepIn

section InStep
variable (u : State) (b : Bool)

theorem reg_inStep_path {o : Nat} (ho : o < 0x1000) (h : o ≠ 0x48) :
    (withdrawPath (inStepShown u).guarantee b).reg (Pg.stile + o) = (inStepShown u).reg (Pg.stile + o) := by
  rw [reg_withdrawPath _ _ (offPorts_stile ho h), reg_guarantee _ _ (by simp only [Pg.stile, Reg.watchGuarantee]; omega)
    (by simp only [Pg.stile, Pg.watch, hEvt]; omega)]

theorem inStep_path_same : SameBut [.regs, .etm] (inStepShown u) (withdrawPath (inStepShown u).guarantee b) :=
  (withdrawPath_changes rfl (guarantee_changes rfl (.refl [.regs, .etm] (inStepShown u))) b).same

theorem inStepShown_same : SameBut [.regs, .twin] u (inStepShown u) :=
  (setComparing_changes rfl (.set_twin rfl (evt_changes rfl (setF_changes rfl (.refl [.regs, .twin] u) _ _ _ _) _ _) _)).same

theorem reg_inStepShown_state :
    ∃ b, (inStepShown u).reg Reg.stileState = putBit (setFld (u.reg Reg.stileState) 1 0 2) 10 b := by
  rw [inStepShown, setComparing, reg_setBit_same, reg_twinSet, reg_evt_other _ (by simp), reg_setF_same]
  exact ⟨_, rfl⟩

theorem reg_inStepShown_other {a : Nat} (h : a ≠ Reg.stileState) : (inStepShown u).reg a = (u.evt Pg.stile 0).reg a := by
  rw [inStepShown, setComparing, reg_setBit_other _ _ _ h, reg_twinSet, reg_evt, reg_evt, reg_setF_other _ _ _ _ h,
    reg_setF_other _ _ _ _ (by simp)]

/-- STEP reads IN_STEP. -/
theorem fld_inStepShown : fld ((inStepShown u).reg Reg.stileState) 1 0 = 2 := by
  obtain ⟨b, hb⟩ := reg_inStepShown_state u
  rw [hb]
  exact (fld_putBit_other _ _ (by omega) (by omega) (by omega)).trans (fld_setFld _ _ (by omega) (by omega))

/-- STATE but for STEP and COMPARING. -/
theorem bit_inStepShown {i : Nat} (h : 2 ≤ i) (h10 : i ≠ 10) :
    ((inStepShown u).reg Reg.stileState).getLsbD i = u.bit Reg.stileState i := by
  obtain ⟨b, hb⟩ := reg_inStepShown_state u
  rw [hb, getLsbD_putBit _ _ _ _ (by omega), if_neg h10, getLsbD_setFld_other _ _ (.inr ⟨by omega, by omega⟩), bit]

theorem inStepShown_twin : (inStepShown u).twin = { u.twin with named := none } := by
  rw [inStepShown, setComparing, setBit_twin, twinSet_twin, evt_twin, setF_twin]

/-- What the device shows in step, with GUARANTEE and the paths brought up to date. -/
theorem inStep_path_shows :
    stepSt (withdrawPath (inStepShown u).guarantee b) = 2 ∧
    (withdrawPath (inStepShown u).guarantee b).bit (Pg.stile + hEvt) 0 = true ∧
    (withdrawPath (inStepShown u).guarantee b).twin.named = none ∧
    (withdrawPath (inStepShown u).guarantee b).stp = u.stp ∧
    (withdrawPath (inStepShown u).guarantee b).faults = u.faults := by
  have hpath := inStep_path_same u b
  have hshown := inStepShown_same u
  refine ⟨?_, ?_, ?_, (hpath .stp (by decide)).trans (hshown .stp (by decide)),
    (hpath .faults (by decide)).trans (hshown .faults (by decide))⟩
  · exact (congrArg (fld · 1 0) (reg_inStep_path u b (o := 0x50) (by decide) (by decide))).trans (fld_inStepShown u)
  · rw [bit, reg_inStep_path u b (by decide) (by decide), reg_inStepShown_other _ (by simp)]
    exact bit_evt_same _ (by omega) _
  · rw [hpath .twin (by decide), inStepShown_twin]

end InStep

/-! ### The mirror's frame count (R394) -/

theorem disarm_pos (t : State) (n : Nat) : (disarm t n).stp.pos = t.stp.pos := by
  show ((t.setBit _ _ _).setBit _ _ _).stp.pos = _
  rw [setBit_stp, setBit_stp]

/-- The mirror stands at the same place of the frame that the primary named. -/
theorem renumber_pos (s : State) (f : BitVec 32) : (renumber s f).stp.pos = posOf f s.inFrame := by
  unfold renumber
  extract_lets d t u
  refine List.foldlRecOn (motive := fun v : State => v.stp.pos = posOf f s.inFrame) _ _ rfl fun v hv n _ => ?_
  split
  · rw [disarm_pos, hv]
  · exact hv

theorem renumber_faults (s : State) (f : BitVec 32) : (renumber s f).faults = s.faults :=
  (renumber_changes rfl (.refl [.regs, .stp, .mill, .clp, .ing, .etm, .ptp, .aud, .mon, .rv, .hbm, .twin, .boot] s) f).same .faults
    (by decide)

/-- Settles O50: what ENABLE starts, what a HELLO leaves of the twin, and what the device shows in step. -/
theorem twinStepIn : Obligations.TwinStepIn := by
  unfold Obligations.TwinStepIn
  refine ⟨fun s ha he ht => ⟨_, rfl, stileEnable_starts ha he ht⟩, fun c w s ha he ht => ⟨_, rfl, stileEnable_refused ha he ht⟩,
    fun s ha he hp => ⟨_, rfl, stileDisable_leaves ha he hp⟩, fun m s he h1 hid hr hs hst => ⟨_, rfl, ?hello⟩,
    fun m s he h1 hid => ⟨_, rfl, ?helloRefused⟩, fun s he h1 hm ha hrun => ⟨_, rfl, ?helloSend⟩,
    fun f s he h1 hr hn hm => ⟨_, rfl, ?primary⟩, fun f s he h1 hr hn hm h0 => ⟨_, rfl, ?mirror⟩⟩
  case hello =>
    rw [hello_agreeing he h1 hid hr hs hst]
    exact ⟨rfl, rfl, twinSet_same s _⟩
  case helloRefused =>
    rw [hello_same_identity he h1 hid]
    refine ⟨rfl, rfl, ?_, ?_⟩
    · rw [bit, reg_twinSet]
      exact bit_refuse s _ _ _ _
    · rw [reg_twinSet, reg_refuse, Nat.zero_mul, Nat.add_zero]
  case helloSend =>
    have hsame := (helloSend_changes rfl (.refl [.twin, .sent] s)).same
    rw [helloSend_names he h1 hm ha hrun] at hsame ⊢
    exact ⟨rfl, rfl, hsame⟩
  case primary =>
    rw [stepIn_of_primary he h1 hr hn hm]
    obtain ⟨hstep, hevt, hnamed, hstp, hfaults⟩ := inStep_path_shows (takeRole (s.toPos (posOf f 0))) true
    refine ⟨hstep, ?_, hevt, ?_, hnamed, ?_, ?_⟩
    · refine (congrArg (·.getLsbD 3) (reg_inStep_path _ _ (o := 0x50) (by decide) (by decide))).trans ?_
      rw [bit_inStepShown _ (by omega) (by omega), bit_takeRole_state, if_pos rfl]
    · rw [bit, reg_inStep_path _ _ (by decide) (by decide), reg_inStepShown_other _ (by simp), reg_evt, if_pos rfl,
        getLsbD_putBit _ _ _ _ (by omega), if_neg (by omega)]
      exact bit_takeRole_evt _
    · rw [hstp, takeRole, raise_stp, evt_stp, setBit_stp]
    · rw [hfaults, takeRole_faults, toPos_faults, toPos_timeNs]
  case mirror =>
    rw [stepIn_of_mirror he h1 hr hn hm]
    obtain ⟨hstep, hevt, hnamed, hstp, hfaults⟩ := inStep_path_shows (renumber s.toFrameStart f) false
    have hpos := (congrArg (·.pos) hstp).trans (renumber_pos s.toFrameStart f)
    rw [toFrameStart_inFrame s hr] at hpos
    refine ⟨hstep, hevt, hnamed, frame_of_pos hpos, inFrame_of_pos hpos (by omega), ?_⟩
    rw [hfaults, renumber_faults, toFrameStart_faults]

end Sys2Proof.Machine
end

section
/-! Proof of ModeRequestsTakeEffect: a request by its refusal, and the mode that one enters at its frame start. -/

namespace Sys2Proof.Machine

open State

/-! ### Staged lines (R361, R364) -/

section Staged
variable (s : State) {a : Nat} (ha : a < Pg.pbook)
include ha

theorem reg_bufLevel_below : s.bufLevel.reg a = s.reg a := by
  simp only [Pg.pbook] at ha
  exact reg_setF_other _ _ _ _ (by simp only [Reg.pbookBufLvl]; omega)

/-- Staging a line writes the Book's page alone. -/
theorem reg_stageLine_below (area type flags unit : Nat) (payload : List Nat) :
    (s.stageLine area type flags unit payload).reg a = s.reg a := by
  have hp : a < 0x3C00000 := ha
  have hevt (t : State) (i : Nat) : (t.evt Pg.pbook i).reg a = t.reg a := reg_evt_other _ (by simp only [Pg.pbook, hEvt]; omega)
  unfold stageLine
  split
  · rfl
  · extract_lets c pos l head exportMark old lost book t t1 t2 t3
    have h1 : t1.reg a = s.reg a := reg_setReg_other _ _ (by simp only [Reg.pbookAreaHead]; omega)
    have h2 : t2.reg a = s.reg a := by
      unfold t2
      split
      · rw [hevt, reg_inc32_other _ (by simp only [Reg.pbookAirLost]; omega), h1]
      · exact h1
    have h3 : t3.reg a = s.reg a := by
      unfold t3
      split
      · rw [hevt, h2]
      · exact h2
    rw [reg_bufLevel_below _ ha, h3]

/-- A snapshot writes the Book's page alone. -/
theorem reg_snapshot_below : (snapshot s).reg a = s.reg a := by
  have hp : a < 0x3C00000 := ha
  unfold snapshot
  split
  · rfl
  · dsimp only
    rw [reg_evt_other _ (by simp only [Pg.pbook, hEvt]; omega), reg_stageLine_below _ ha]
    exact List.foldlRecOn (motive := fun t : State => t.reg a = s.reg a) _ _ rfl fun t ht e _ => by rw [reg_stageLine_below _ ha, ht]

end Staged

theorem bit_snapshot_evt {s : State} (h : s.book.closed = false) : (snapshot s).bit (Pg.pbook + hEvt) 7 = true := by
  rw [snapshot, if_neg (by rw [h]; decide)]
  exact bit_evt_same _ (by omega) _

/-! ### Requests (R410, R411) -/

section Request
variable {s : State} (hr : s.inReset = false)
include hr

theorem modeRequest_accepted {req : Nat} (h : requestRefusal s req = none) (k : BitVec 16) :
    modeRequest s req k = s.setN Reg.devModeReq (req + k.toNat * 0x10000) := by
  simp only [modeRequest, hr, h, Bool.false_eq_true, if_false]

theorem modeRequest_refused {req code : Nat} (h : requestRefusal s req = some code) (k : BitVec 16) :
    modeRequest s req k = (s.refuse Pg.dev code 1 0).evt Pg.dev 1 := by
  simp only [modeRequest, hr, h, Bool.false_eq_true, if_false]

/-- An accepted request stands in MODE_REQ alone. -/
theorem modeRequest_recorded {req : Nat} (h : requestRefusal s req = none) (k : BitVec 16) :
    (modeRequest s req k).reg Reg.devModeReq = BitVec.ofNat 32 (req + k.toNat * 0x10000) ∧
    SameRegsBut [Reg.devModeReq] s (modeRequest s req k) ∧ SameBut [.regs] s (modeRequest s req k) := by
  rw [modeRequest_accepted hr h]
  exact ⟨reg_setN_same _ _ _, setReg_sameRegsBut _ _ _, (setN_changes rfl (.refl [.regs] s) _ _).same⟩

end Request

/-- A request that is not refused is of a transition of Table 19-2. -/
theorem requestAllowed_of_no_refusal {s : State} {req : Nat} (h : requestRefusal s req = none) : requestAllowed s.mode req = true := by
  by_contra hn
  rw [requestRefusal, if_pos (by simpa using hn)] at h
  cases h

/-! ### The request takes effect (R410, R413) -/

/-- The request is no longer pending. -/
def requestTaken (s : State) : State := s.setF Reg.devModeReq 2 0 0

section Taken
variable (s : State)

theorem reg_requestTaken_other {a : Nat} (h : a ≠ Reg.devModeReq) : (requestTaken s).reg a = s.reg a := reg_setF_other _ _ _ _ h

theorem getF_requestTaken : (requestTaken s).getF Reg.devModeReq 2 0 = 0 := getF_setF_same _ _ _ (by omega) (by omega)

theorem requestTaken_same : SameBut [.regs] s (requestTaken s) := (setF_changes rfl (.refl [.regs] s) _ _ _ _).same

theorem applyRequest_of_commission (hreq : s.getF Reg.devModeReq 2 0 = 1) (ha : requestAllowed s.mode 1 = true) :
    applyRequest s = stopForMode ((requestTaken s).setMode 1) := by
  simp only [applyRequest, hreq, ha]
  rfl

theorem applyRequest_of_service (hreq : s.getF Reg.devModeReq 2 0 = 2) (ha : requestAllowed s.mode 2 = true) :
    applyRequest s = enterFromCommission (requestTaken s) := by
  simp only [applyRequest, hreq, ha]
  rfl

theorem applyRequest_of_test (hreq : s.getF Reg.devModeReq 2 0 = 5) (ha : requestAllowed s.mode 5 = true) :
    applyRequest s = (requestTaken s).setMode 5 := by
  simp only [applyRequest, hreq, ha]
  rfl

/-- A mode entered with no request pending. -/
theorem setMode_shows {s : State} (h : s.getF Reg.devModeReq 2 0 = 0) {m : Nat} (hm : m < 8) :
    (s.setMode m).mode = m ∧ (s.setMode m).getF Reg.devModeReq 2 0 = 0 ∧ (s.setMode m).bit (Pg.dev + hEvt) 0 = true := by
  refine ⟨mode_setMode _ m hm, ?_, bit_setMode_evt _ m⟩
  rw [getF, reg_setMode _ _ _ (by simp) (by simp) (by simp) (by simp)]
  exact h

theorem setMode_same (m : Nat) : SameBut [.regs] s (s.setMode m) := (setMode_changes rfl (.refl [.regs] s) m).same

end Taken

section Change
variable {s : State} (hr : s.inReset = false)
include hr

/-- A request that needs a frame start takes effect where the device stands at one and names none. -/
theorem modeChange_at_frameStart {req : Nat} (hrun : s.running = true) (h0 : s.inFrame = 0) (hreq : s.getF Reg.devModeReq 2 0 = req)
    (hne : req ≠ 0 ∧ req ≠ 5) (hat : s.getF Reg.devModeReq 31 16 = 0) : modeChange s = applyRequest s := by
  have hframe : requestFrame s = s := by
    rw [requestFrame, hat, toFrameStart, h0]
    rfl
  simp only [modeChange, hr, hrun, hreq, hne, hframe, decide_false, Bool.or_self, Bool.false_eq_true, if_false, if_true]

theorem modeChange_of_test (hreq : s.getF Reg.devModeReq 2 0 = 5) : modeChange s = applyRequest s := by
  simp only [modeChange, hr, hreq]
  rfl

end Change

/-- TEST is entered at once. -/
theorem modeReqTest_enters {s : State} (hr : s.inReset = false) (h : requestRefusal s 5 = none) (k : BitVec 16) :
    execModeReqTest k s = .next ((requestTaken (s.setN Reg.devModeReq (5 + k.toNat * 0x10000))).setMode 5) := by
  have hreq : (s.setN Reg.devModeReq (5 + k.toNat * 0x10000)).getF Reg.devModeReq 2 0 = 5 := by
    rw [getF, reg_setN_same, fld_ofNat _ (by omega) (by omega)]
    omega
  have hr' : (s.setN Reg.devModeReq (5 + k.toNat * 0x10000)).inReset = false := hr
  have hmode : (s.setN Reg.devModeReq (5 + k.toNat * 0x10000)).mode = s.mode := by
    rw [mode, getF, reg_setN_other _ _ (by simp)]
    rfl
  simp only [execModeReqTest, modeRequest_accepted hr h, hreq, if_true, modeChange_of_test hr' hreq]
  rw [applyRequest_of_test _ hreq (hmode ▸ requestAllowed_of_no_refusal h)]

/-! ### SERVICE and COMMISSION (R368, R410, R413) -/

/-- The frame count at the entry of SERVICE is noted. -/
def serviceNoted (s : State) : State := { s with boot := { s.boot with svcAt := some s.frame } }

theorem reg_serviceNoted (s : State) (a : Nat) : (serviceNoted s).reg a = s.reg a := rfl

theorem enterFromCommission_eq (s : State) : enterFromCommission s =
    if s.getF Reg.watchDegrCause 9 0 = 0 then snapshot ((serviceNoted s).setMode 2)
    else snapshot (((serviceNoted s).setMode 3).evt Pg.watch 1) := rfl

/-- What a mode entered with a snapshot shows. -/
theorem snapshot_of_mode {s t : State} {m : Nat} (hmode : t.mode = m) (hreq : t.getF Reg.devModeReq 2 0 = 0)
    (hevt : t.bit (Pg.dev + hEvt) 0 = true) (hsame : SameBut [.regs] s t) :
    (snapshot t).mode = m ∧ (snapshot t).getF Reg.devModeReq 2 0 = 0 ∧ (snapshot t).bit (Pg.dev + hEvt) 0 = true ∧
    (s.book.closed = false → (snapshot t).bit (Pg.pbook + hEvt) 7 = true) ∧ (snapshot t).boot = s.boot := by
  refine ⟨?_, ?_, ?_, fun hc => bit_snapshot_evt ?_, ?_⟩
  · rw [mode, getF, reg_snapshot_below _ (by simp)]
    exact hmode
  · rw [getF, reg_snapshot_below _ (by simp)]
    exact hreq
  · rw [bit, reg_snapshot_below _ (by simp)]
    exact hevt
  · rw [hsame .book (by decide)]
    exact hc
  · exact ((snapshot_changes rfl (.refl [.regs, .book] t)).same .boot (by decide)).trans (hsame .boot (by decide))

/-- What the entry from COMMISSION shows where no request is pending any more. -/
theorem enterFromCommission_shows (s : State) (h : s.getF Reg.devModeReq 2 0 = 0) :
    (enterFromCommission s).mode = (if s.getF Reg.watchDegrCause 9 0 = 0 then 2 else 3) ∧
    (enterFromCommission s).getF Reg.devModeReq 2 0 = 0 ∧ (enterFromCommission s).bit (Pg.dev + hEvt) 0 = true ∧
    (s.book.closed = false → (enterFromCommission s).bit (Pg.pbook + hEvt) 7 = true) ∧
    (enterFromCommission s).boot = (serviceNoted s).boot := by
  rw [enterFromCommission_eq]
  split
  · obtain ⟨hmode, hreq, hevt⟩ := setMode_shows (s := serviceNoted s) h (m := 2) (by omega)
    exact snapshot_of_mode hmode hreq hevt (setMode_same (serviceNoted s) 2)
  · obtain ⟨hmode, hreq, hevt⟩ := setMode_shows (s := serviceNoted s) h (m := 3) (by omega)
    refine snapshot_of_mode (s := serviceNoted s) ?_ ?_ ?_ (evt_changes rfl (setMode_changes rfl (.refl [.regs] (serviceNoted s)) 3) _ _).same
    · rw [mode, getF, reg_evt_other _ (by simp)]
      exact hmode
    · rw [getF, reg_evt_other _ (by simp)]
      exact hreq
    · rw [bit, reg_evt_other _ (by simp)]
      exact hevt

/-- A running channel that is told to stop stays so. -/
theorem stopForMode_stops (s : State) :
    ((s.chans.filter (fun e => e.2.running)).all (fun e => ((stopForMode s).chan e.1).stopping)) = true := by
  refine List.all_eq_true.2 fun e he => ?_
  refine foldl_of_mem (P := fun t : State => (t.chan e.1).stopping = true) he (fun t => ?_) (fun t x ht => ?_) s
  · rw [modChan, setChan_chan_same]
  · by_cases hx : e.1 = x.1
    · rw [hx, modChan, setChan_chan_same]
    · rw [modChan, setChan_chan_other _ _ hx, ht]

theorem stopForMode_same (s : State) : SameBut [.chans] s (stopForMode s) := (stopForMode_changes rfl (.refl [.chans] s)).same

theorem stopForMode_reg (s : State) (a : Nat) : (stopForMode s).reg a = s.reg a := by
  rw [reg, reg, stopForMode_same s .regs (by decide)]

/-- Settles O55: a request by modeRequest, the mode by setMode, the snapshot below its page. -/
theorem modeRequestsTakeEffect : Obligations.ModeRequestsTakeEffect := by
  unfold Obligations.ModeRequestsTakeEffect
  refine ⟨fun k s hr h => ⟨_, rfl, modeRequest_recorded hr h k⟩, fun k s hr h => ⟨_, rfl, modeRequest_recorded hr h k⟩,
    fun k code s hr h => ⟨_, rfl, ?refused⟩, fun k s hr h => ⟨_, modeReqTest_enters hr h k, ?test⟩,
    fun s hr hrun h0 hm hreq hat => ⟨_, rfl, ?service⟩, fun s hr hrun h0 hm hreq hat => ⟨_, rfl, ?commission⟩⟩
  case refused =>
    rw [modeRequest_refused hr h]
    refine ⟨?_, ?_, ?_, bit_evt_same _ (by omega) _, ?_⟩
    · rw [reg_evt_other _ (by simp), reg_refuse_other _ (by simp) (by simp)]
    · rw [reg_evt_other _ (by simp), reg_refuse]
    · rw [bit, reg_evt_other _ (by simp)]
      exact bit_refuse _ _ _ _ _
    · rw [mode, getF, reg_evt_other _ (by simp), reg_refuse_other _ (by simp) (by simp)]
      rfl
  case test =>
    obtain ⟨hmode, hreq, hevt⟩ := setMode_shows (getF_requestTaken (s.setN Reg.devModeReq (5 + k.toNat * 0x10000))) (m := 5) (by omega)
    refine ⟨hmode, hreq, hevt, ?_, ?_⟩
    · rw [setMode_same _ _ .chans (by decide), requestTaken_same _ .chans (by decide), setN_chans]
    · rw [setMode_same _ _ .faults (by decide), requestTaken_same _ .faults (by decide), setN_faults]
  case service =>
    rw [modeChange_at_frameStart hr hrun h0 hreq (by omega) hat, applyRequest_of_service s hreq (by rw [hm]; rfl)]
    obtain ⟨hmode, hreq', hevt, hsnap, hboot⟩ := enterFromCommission_shows (requestTaken s) (getF_requestTaken s)
    rw [requestTaken_same s .book (by decide)] at hsnap
    refine ⟨hmode.trans ?_, hreq', hevt, hsnap, (congrArg (·.svcAt) hboot).trans ?_⟩
    · rw [getF, reg_requestTaken_other _ (by simp), ← getF]
    · show some (requestTaken s).frame = _
      rw [frame, requestTaken_same s .stp (by decide), ← frame]
  case commission =>
    rw [modeChange_at_frameStart hr hrun h0 hreq (by omega) hat,
      applyRequest_of_commission s hreq (by rcases hm with hm | hm <;> rw [hm] <;> rfl)]
    obtain ⟨hmode, hreq', hevt⟩ := setMode_shows (getF_requestTaken s) (m := 1) (by omega)
    have hchans : ((requestTaken s).setMode 1).chans = s.chans :=
      (setMode_same _ _ .chans (by decide)).trans (requestTaken_same s .chans (by decide))
    have hstops := stopForMode_stops ((requestTaken s).setMode 1)
    rw [hchans] at hstops
    refine ⟨?_, ?_, ?_, hstops, ?_⟩
    · rw [mode, getF, stopForMode_reg]
      exact hmode
    · rw [getF, stopForMode_reg]
      exact hreq'
    · rw [bit, stopForMode_reg]
      exact hevt
    · rw [stopForMode_same _ .faults (by decide), setMode_same _ _ .faults (by decide), requestTaken_same s .faults (by decide)]

end Sys2Proof.Machine
end

section
/-! Proof of ResetsAndLinks: what a reset keeps, the endpoint's link, and the ports of a clock that is lost. -/

namespace Sys2Proof.Machine

open State

/-! ### A reset of the device (R416, R417) -/

/-- The state that a reset leaves before it writes the registers that it keeps. -/
def resetBase (s : State) : State :=
  { State.reset with
    pins := { State.reset.pins with porLow := s.pins.porLow, resetLow := s.pins.resetLow, swReset := s.pins.swReset
                                    pwrFailLow := s.pins.pwrFailLow, token := s.pins.token, msixSent := s.pins.msixSent }
    stp := { State.reset.stp with timeNs := s.stp.timeNs }
    book := { s.book with staged := [], closed := s.pins.pwrFailLow, second := 0, supp := 0 }
    etm := { State.reset.etm with hostMem := s.etm.hostMem }
    sent := s.sent
    free := s.free
    pending := s.pending }

/-- The reset's cause and the fuses, at the reset's base. -/
def resetShown (s : State) (cause : Nat) : State :=
  ((resetBase s).setReg Reg.devFuseStat (s.reg Reg.devFuseStat)).setN Reg.devResetCause cause

/-- The registers of the Book's page that a reset keeps. -/
def bookKept (s t : State) : State :=
  [0, 1, 2].foldl (fun (t : State) k => t.setN (Reg.pbookAreaHead k) (t.bookCount k))
    ((t.setReg Reg.pbookSpares (s.reg Reg.pbookSpares)).setReg Reg.pbookWearMax (s.reg Reg.pbookWearMax))

theorem resetDevice_eq (s : State) (cause : Nat) : resetDevice s cause =
    if s.pins.pwrFailLow then (bookKept s (resetShown s cause)).setN Reg.devPwrStat 3 else bookKept s (resetShown s cause) := rfl

section Reset
variable (s : State) (cause : Nat)

theorem resetDevice_same : SameBut [.regs] (resetBase s) (resetDevice s cause) := by
  rw [resetDevice_eq]
  have hkept : Changes [.regs] (resetBase s) (bookKept s (resetShown s cause)) :=
    Changes.foldl (fun _ _ h => setN_changes rfl h _ _)
      (setReg_changes rfl (setReg_changes rfl (setN_changes rfl (setReg_changes rfl (.refl _ _) _ _) _ _) _ _) _ _)
  split
  · exact (setN_changes rfl hkept _ _).same
  · exact hkept.same

theorem reg_bookKept_below (t : State) {a : Nat} (ha : a < Pg.pbook) : (bookKept s t).reg a = t.reg a := by
  have hp : a < 0x3C00000 := ha
  refine List.foldlRecOn (motive := fun v : State => v.reg a = t.reg a) _ _ ?_ fun v hv k _ => ?_
  · rw [reg_setReg_other _ _ (by simp only [Reg.pbookWearMax]; omega), reg_setReg_other _ _ (by simp only [Reg.pbookSpares]; omega)]
  · rw [reg_setN_other _ _ (by simp only [Reg.pbookAreaHead]; omega), hv]

/-- Registers below the Book's page, but PWR_STAT. -/
theorem reg_resetDevice_below {a : Nat} (ha : a < Pg.pbook) (h : a ≠ Reg.devPwrStat) :
    (resetDevice s cause).reg a = (resetShown s cause).reg a := by
  rw [resetDevice_eq]
  split
  · rw [reg_setN_other _ _ h, reg_bookKept_below s _ ha]
  · exact reg_bookKept_below s _ ha

theorem resetCause_resetDevice : (resetDevice s cause).reg Reg.devResetCause = BitVec.ofNat 32 cause := by
  rw [reg_resetDevice_below _ _ (by decide) (by decide), resetShown, reg_setN_same]

theorem fuseStat_resetDevice : (resetDevice s cause).reg Reg.devFuseStat = s.reg Reg.devFuseStat := by
  rw [reg_resetDevice_below _ _ (by decide) (by decide), resetShown, reg_setN_other _ _ (by decide), reg_setReg_same]

theorem mode_resetDevice : (resetDevice s cause).mode = 0 := by
  rw [mode, getF, reg_resetDevice_below _ _ (by decide) (by decide), resetShown, reg_setN_other _ _ (by decide),
    reg_setReg_other _ _ (by decide)]
  rfl

/-- The device stays in the reset that it was put in. -/
theorem inReset_resetDevice : (resetDevice s cause).inReset = s.inReset := by
  rw [inReset, resetDevice_same s cause .pins (by decide)]
  rfl

theorem book_resetDevice : (resetDevice s cause).book.staged = [] ∧ (resetDevice s cause).book.lines = s.book.lines := by
  rw [resetDevice_same s cause .book (by decide)]
  exact ⟨rfl, rfl⟩

theorem chans_resetDevice : (resetDevice s cause).chans = [] := resetDevice_same s cause .chans (by decide)

end Reset

/-! ### Staged lines are committed first (R417) -/

/-- The lines of the Book with one staged line programmed. -/
def lineProgrammed (m : Store BLine) (x : Staged) : Store BLine := Store.put bookDefault m (lineKey x.area x.pos) x.line

theorem countWear_book_lines (s : State) (phys : Nat) : (countWear s phys).book.lines = s.book.lines := by
  rw [countWear, setN_book]

theorem programLine_verified (s : State) (x : Staged) :
    programLine s x true = countWear (setLine s (lineKey x.area x.pos) x.line) (physLine s (lineKey x.area x.pos)) := by
  simp only [programLine, Bool.true_or, if_true]

theorem programLine_book_lines (s : State) (x : Staged) : (programLine s x true).book.lines = lineProgrammed s.book.lines x := by
  rw [programLine_verified, countWear_book_lines]
  rfl

/-- The lines committed are those staged, one after the other. -/
theorem commitLines_book_lines (s : State) : (commitLines s).book.lines = s.book.staged.foldl lineProgrammed s.book.lines := by
  have hfold (l : List Staged) (t : State) :
      (l.foldl (fun t x => programLine t x true) t).book.lines = l.foldl lineProgrammed t.book.lines := by
    induction l generalizing t with
    | nil => rfl
    | cons x l ih => rw [List.foldl_cons, List.foldl_cons, ih, programLine_book_lines]
  rw [commitLines, hfold, bufLevel, setF_book]

/-- Committing writes the Book's page alone. -/
theorem reg_commitLines_below (s : State) {a : Nat} (ha : a < Pg.pbook) : (commitLines s).reg a = s.reg a := by
  have hp : a < 0x3C00000 := ha
  refine List.foldlRecOn (motive := fun v : State => v.reg a = s.reg a) _ _ (reg_bufLevel_below _ ha) fun v hv x _ => ?_
  rw [programLine_verified, countWear, reg_setN_other _ _ (by simp only [Reg.pbookWearMax]; omega)]
  exact hv

theorem commitLines_pins (s : State) : (commitLines s).pins = s.pins :=
  (commitLines_changes rfl (.refl [.regs, .book, .faults] s)).same .pins (by decide)

/-- A reset by RESET_N or SWRESET, from the state with its pin. -/
theorem reset_commits {s t : State} (hbook : t.book = s.book) (hregs : t.regs = s.regs) (hin : t.inReset = true) (cause : Nat) :
    (resetDevice (commitLines t) cause).reg Reg.devResetCause = BitVec.ofNat 32 cause ∧ (resetDevice (commitLines t) cause).mode = 0 ∧
    (resetDevice (commitLines t) cause).inReset = true ∧ (resetDevice (commitLines t) cause).book.staged = [] ∧
    (resetDevice (commitLines t) cause).book.lines = (commitLines s).book.lines ∧
    (resetDevice (commitLines t) cause).reg Reg.devFuseStat = s.reg Reg.devFuseStat ∧
    (resetDevice (commitLines t) cause).chans = [] := by
  obtain ⟨hstaged, hlines⟩ := book_resetDevice (commitLines t) cause
  refine ⟨resetCause_resetDevice _ _, mode_resetDevice _ _, ?_, hstaged, ?_, ?_, chans_resetDevice _ _⟩
  · rw [inReset_resetDevice, inReset, commitLines_pins]
    exact hin
  · rw [hlines, commitLines_book_lines, commitLines_book_lines, hbook]
  · rw [fuseStat_resetDevice, reg_commitLines_below _ (by decide), reg, reg, hregs]

/-! ### The endpoint's link (R318, R416) -/

section Link

/-- The link and the MSI-X enable stand. -/
structure SameLink (s t : State) : Prop where
  up : t.pins.pcieUp = s.pins.pcieUp
  on : t.pins.msixOn = s.pins.msixOn

theorem SameLink.trans {s t u : State} (h : SameLink s t) (h' : SameLink t u) : SameLink s u := ⟨h'.up.trans h.up, h'.on.trans h.on⟩

theorem SameLink.of_pins {s t : State} (h : t.pins = s.pins) : SameLink s t := ⟨by rw [h], by rw [h]⟩

variable (s : State)

theorem sameLink_msix : SameLink s s.msix := by
  unfold msix
  split
  · split <;> exact ⟨rfl, rfl⟩
  · exact ⟨rfl, rfl⟩

theorem sameLink_updateLine (k : Nat) : SameLink s (s.updateLine k) := by
  unfold updateLine
  extract_lets up rises u v x
  have hv : SameLink s v := .of_pins ((setN_pins _ _ _).trans (setBit_pins _ _ _ _))
  split
  · split
    · exact hv.trans (sameLink_msix v)
    · split
      · exact hv.trans (.of_pins (setPair_pins _ _ _))
      · exact hv
  · exact hv

/-- The lines of every target, before ELIGIBLE. -/
def linesUpdated : State := (List.range 9).foldl updateLine s

/-- ELIGIBLE of the targets of a list. -/
def eligibleShown (t : State) (l : List Nat) : State := l.foldl (fun v k => v.setBit Reg.belfryEligible k (v.eligible k)) t

theorem updateLines_eq : s.updateLines = eligibleShown (linesUpdated s) (List.range 9) := rfl

theorem sameLink_eligibleShown (t : State) (l : List Nat) : SameLink t (eligibleShown t l) :=
  List.foldlRecOn (motive := fun v : State => SameLink t v) _ _ ⟨rfl, rfl⟩ fun _ hv _ _ => hv.trans (.of_pins (setBit_pins _ _ _ _))

theorem sameLink_linesUpdated : SameLink s (linesUpdated s) :=
  List.foldlRecOn (motive := fun v : State => SameLink s v) _ _ ⟨rfl, rfl⟩ fun v hv k _ => hv.trans (sameLink_updateLine v k)

/-- Updating the lines leaves the link and the MSI-X enable. -/
theorem sameLink_updateLines : SameLink s s.updateLines := (sameLink_linesUpdated s).trans (sameLink_eligibleShown _ _)

/-- The host target is last, and shows the link and the MSI-X enable. -/
theorem bit_updateLines_host : s.updateLines.bit Reg.belfryEligible 8 = (s.pins.pcieUp && s.pins.msixOn) := by
  have hlink := (sameLink_linesUpdated s).trans (sameLink_eligibleShown _ (List.range 8))
  have hlast : s.updateLines = (eligibleShown (linesUpdated s) (List.range 8)).setBit Reg.belfryEligible 8
      ((eligibleShown (linesUpdated s) (List.range 8)).eligible 8) := rfl
  rw [hlast, bit_setBit_same _ _ _ (by omega), eligible, if_neg (by omega), hlink.up, hlink.on]

theorem updateLines_mode : s.updateLines.mode = s.mode := by
  rw [mode, getF, (onlyLines_updateLines s).reg _ (by constructor <;> decide)]
  rfl

theorem updateLines_chans : s.updateLines.chans = s.chans :=
  (updateLines_changes rfl (.refl [.regs, .pins, .rv] s)).same .chans (by decide)

end Link

/-! ### The ports of a clock (R420) -/

/-- What one element of the list establishes and every element of it keeps holds after the fold. -/
theorem foldl_of_mem_keeping {α β : Type} {P : β → Prop} {f : β → α → β} {a : α} {l : List α} (ha : a ∈ l) (hset : ∀ b, P (f b a))
    (hkeep : ∀ b, ∀ x ∈ l, P b → P (f b x)) : ∀ b, P (l.foldl f b) := by
  induction l with
  | nil => cases ha
  | cons x l ih =>
    intro b
    have hkeep' : ∀ b, ∀ y ∈ l, P b → P (f b y) := fun b y hy => hkeep b y (List.mem_cons_of_mem _ hy)
    rw [List.foldl_cons]
    rcases List.mem_cons.1 ha with rfl | hl
    · exact List.foldlRecOn (motive := P) l f (hset b) fun b hb y hy => hkeep' b y hy hb
    · exact ih hl hkeep' _

section Ports
variable (s : State) {x : Nat}

/-- A register that a port's fall leaves. -/
structure OffPort (x a : Nat) : Prop where
  link : a ≠ Reg.ethLink x
  ptp : a ≠ Reg.ptpPortState
  state : a ≠ Reg.stpState
  hold : a ≠ Reg.stpHoldFrames
  evt : a ≠ Pg.stp + hEvt

/-- The cases of a port's fall: no link, the fall of the link, and that of the link that PTP follows. -/
theorem linePortDown_cases (sub : Nat) : linePortDown s x sub = s ∧ s.bit (Reg.ethLink x) sub = false ∨
    linePortDown s x sub = linkCleared s x sub ∨
    linePortDown s x sub = ptpLost ((linkCleared s x sub).setF Reg.ptpPortState 3 0 4) := by
  unfold linePortDown
  split
  · dsimp only
    split
    · exact .inr (.inr rfl)
    · exact .inr (.inl rfl)
  next h => exact .inl ⟨rfl, Bool.eq_false_iff.2 h⟩

theorem reg_linePortDown_off {a : Nat} (ha : OffPort x a) (sub : Nat) : (linePortDown s x sub).reg a = s.reg a := by
  obtain ⟨h, -⟩ | h | h := linePortDown_cases s (x := x) sub
  · rw [h]
  · rw [h, reg_linkCleared_other ha.link]
  · rw [h, reg_ptpLost _ ha.state ha.hold ha.evt, reg_setF_other _ _ _ _ ha.ptp, reg_linkCleared_other ha.link]

/-- LINK of the port is as the fall of the link leaves it, where it was up. -/
theorem reg_linePortDown_link (sub : Nat) : (linePortDown s x sub).reg (Reg.ethLink x) = s.reg (Reg.ethLink x) ∧
      s.bit (Reg.ethLink x) sub = false ∨
    (linePortDown s x sub).reg (Reg.ethLink x) = (linkCleared s x sub).reg (Reg.ethLink x) := by
  obtain ⟨h, hlink⟩ | h | h := linePortDown_cases s (x := x) sub
  · exact .inl ⟨by rw [h], hlink⟩
  · exact .inr (by rw [h])
  · refine .inr ?_
    rw [h, reg_ptpLost _ (by simp only [Reg.ethLink, Reg.stpState]; omega) (by simp only [Reg.ethLink, Reg.stpHoldFrames]; omega)
      (by simp only [Reg.ethLink, Pg.stp, hEvt]; omega), reg_setF_other _ _ _ _ (by simp only [Reg.ethLink, Reg.ptpPortState]; omega)]

theorem bit_linePortDown_same {sub : Nat} (hsub : sub < 4) : (linePortDown s x sub).bit (Reg.ethLink x) sub = false := by
  obtain ⟨h, hlink⟩ | h := reg_linePortDown_link s (x := x) sub
  · rw [bit, h]
    exact hlink
  · rw [bit, h]
    exact (bit_linkCleared s x hsub).1

/-- A link that is down stays down. -/
theorem bit_linePortDown_keeps {sub k : Nat} (hsub : sub < 4) (h0 : s.bit (Reg.ethLink x) k = false) :
    (linePortDown s x sub).bit (Reg.ethLink x) k = false := by
  obtain ⟨h, -⟩ | h := reg_linePortDown_link s (x := x) sub
  · rw [bit, h]
    exact h0
  · rw [bit, h, linkCleared, reg_raise, reg_setBit_same, reg_setBit_same, getLsbD_putBit _ _ _ _ (by omega),
      getLsbD_putBit _ _ _ _ (by omega)]
    split
    · rfl
    · split
      · rfl
      · exact h0

/-- The sub-ports of a port go down. -/
def portFallen (x : Nat) : State := (List.range 4).foldl (fun t sub => linePortDown t x sub) s

theorem portsDown_zero : portsDown s 0 = portFallen (portFallen s 0) 2 := rfl

theorem reg_portFallen_off {a : Nat} (ha : OffPort x a) : (portFallen s x).reg a = s.reg a :=
  List.foldlRecOn (motive := fun t : State => t.reg a = s.reg a) _ _ rfl fun t ht sub _ => by rw [reg_linePortDown_off _ ha, ht]

theorem bit_portFallen {k : Nat} (hk : k < 4) : (portFallen s x).bit (Reg.ethLink x) k = false :=
  foldl_of_mem_keeping (P := fun t : State => t.bit (Reg.ethLink x) k = false) (List.mem_range.2 hk)
    (fun t => bit_linePortDown_same t hk) (fun t _ hsub ht => bit_linePortDown_keeps t (List.mem_range.1 hsub) ht) s

end Ports

theorem offPort_clkStat (x : Nat) : OffPort x Reg.devClkStat := by
  constructor <;> simp only [Reg.devClkStat, Reg.ethLink, Reg.ptpPortState, Reg.stpState, Reg.stpHoldFrames, Pg.stp, hEvt] <;> omega

theorem offPort_ethLink {x y : Nat} (h : y ≠ x) : OffPort x (Reg.ethLink y) := by
  constructor <;> simp only [Reg.ethLink, Reg.ptpPortState, Reg.stpState, Reg.stpHoldFrames, Pg.stp, hEvt] <;> omega

/-- ETHREFCLK 0 is lost: the line port and the cascade port of its path fall. -/
theorem clockLost_ports {s : State} (hr : s.inReset = false) (hm : s.mode ≠ 0) :
    clockLost s .eth0 = portFallen (portFallen (s.setBit Reg.devClkStat 0 false) 0) 2 := by
  simp only [clockLost, hr, hm]
  rfl

/-- REF_CLK_IN is lost. -/
theorem clockLost_reference {s : State} (hr : s.inReset = false) : clockLost s .refClk = s.setBit Reg.devClkStat 4 false := by
  simp only [clockLost, hr, Bool.false_eq_true, if_false, ite_self]
  rfl

theorem setBit_shows (s : State) (a : Nat) {i : Nat} (hi : i < 32) (b : Bool) :
    (s.setBit a i b).bit a i = b ∧ SameRegsBut [a] s (s.setBit a i b) ∧ SameBut [.regs] s (s.setBit a i b) :=
  ⟨bit_setBit_same _ _ _ hi, setReg_sameRegsBut _ _ _, (setBit_changes rfl (.refl [.regs] s) _ _ _).same⟩

theorem clockBit_lt (c : ClockId) : clockBit c < 32 := by cases c <;> decide

/-- The state with POR_N low, and the staged lines lost. -/
def porTaken (s : State) : State := dropStaged { s with pins := { s.pins with porLow := true } }

theorem porN_of_running {s : State} (hr : s.inReset = false) : porN s = resetDevice (porTaken s) 1 := by
  simp only [porN, hr]
  rfl

/-- POR_N falls while the device is in reset. -/
theorem porN_of_reset {s : State} (hr : s.inReset = true) :
    porN s = ({ s with pins := { s.pins with porLow := true } } : State).setBit Reg.devResetCause 0 true := by
  simp only [porN, hr]
  rfl

theorem resetN_of_running {s : State} (hr : s.inReset = false) :
    resetN s = resetDevice (commitLines { s with pins := { s.pins with resetLow := true } }) 2 := by
  simp only [resetN, hr]
  rfl

theorem swreset_of_key {s : State} (hr : s.inReset = false) :
    swreset s 0xA5C3 = resetDevice (commitLines { s with pins := { s.pins with swReset := true } }) 4 := by
  simp only [swreset, hr]
  rfl

theorem swreset_of_other_key (s : State) {key : Nat} (h : key ≠ 0xA5C3) : swreset s key = s := if_pos (.inr h)

/-- The endpoint without its link, its MSI-X as after a reset. -/
def endpointReset (s : State) : State :=
  { s with pins := { s.pins with pcieUp := false, msixOn := false, msixMasked := true, msixPend := false } }

theorem pcieHotReset_eq (s : State) : pcieHotReset s = (endpointReset s).updateLines := rfl

/-- The endpoint with its link. -/
def endpointLinked (s : State) : State := { s with pins := { s.pins with pcieUp := true } }

theorem pcieLinkUp_of_running {s : State} (hr : s.inReset = false) : pcieLinkUp s = (endpointLinked s).updateLines := by
  simp only [pcieLinkUp, hr]
  rfl

/-- Settles O56: a reset by what it keeps, the endpoint by its lines, the ports of a clock one sub-port after the other. -/
theorem resetsAndLinks : Obligations.ResetsAndLinks := by
  unfold Obligations.ResetsAndLinks
  refine ⟨fun s hr => ⟨_, rfl, ?por⟩, fun s hr => ⟨_, rfl, ?porAgain⟩, fun s hr => ⟨_, rfl, ?resetN⟩, fun s hr => ⟨_, rfl, ?swreset⟩,
    fun key s hk => ⟨_, rfl, ?key⟩, fun s => ⟨_, rfl, rfl, rfl, (Changes.set_pins rfl (.refl [.pins] s) _).same⟩,
    fun s => ⟨_, rfl, ?hot⟩, fun s hr => ⟨_, rfl, ?up⟩, fun s hr => ⟨_, rfl, ?refClk⟩, fun s hr hm => ⟨_, rfl, ?ports⟩,
    fun c s hr => ⟨_, rfl, ?present⟩⟩
  case por =>
    rw [porN_of_running hr]
    obtain ⟨hstaged, hlines⟩ := book_resetDevice (porTaken s) 1
    refine ⟨resetCause_resetDevice _ _, mode_resetDevice _ _, inReset_resetDevice _ _, hstaged, hlines, fuseStat_resetDevice _ _,
      chans_resetDevice _ _, resetDevice_same _ _ .faults (by decide), ?_⟩
    rw [resetDevice_same _ _ .stp (by decide)]
    rfl
  case porAgain =>
    rw [porN_of_reset hr]
    exact ⟨bit_setBit_same _ _ _ (by omega), congrArg (·.porLow) (setBit_pins _ _ _ _), fun a ha => setReg_sameRegsBut _ _ _ a ha,
      setBit_book _ _ _ _⟩
  case resetN =>
    rw [resetN_of_running hr]
    exact reset_commits (s := s) (t := { s with pins := { s.pins with resetLow := true } }) rfl rfl (by simp [inReset]) 2
  case swreset =>
    obtain ⟨hcause, hmode, -, hstaged, hlines, -, hchans⟩ := reset_commits (s := s)
      (t := { s with pins := { s.pins with swReset := true } }) rfl rfl (by simp [inReset]) 4
    rw [show (0xA5C3 : BitVec 16).toNat = 0xA5C3 from rfl, swreset_of_key hr]
    exact ⟨hcause, hmode, hstaged, hlines, hchans⟩
  case key =>
    exact swreset_of_other_key s fun h => hk (BitVec.eq_of_toNat_eq h)
  case hot =>
    have hlink := sameLink_updateLines (endpointReset s)
    rw [pcieHotReset_eq]
    exact ⟨hlink.up, hlink.on, bit_updateLines_host _, updateLines_mode (endpointReset s), updateLines_chans (endpointReset s)⟩
  case up =>
    have hlink := sameLink_updateLines (endpointLinked s)
    rw [pcieLinkUp_of_running hr]
    exact ⟨hlink.up, hlink.on, updateLines_mode (endpointLinked s), updateLines_chans (endpointLinked s)⟩
  case refClk =>
    rw [clockLost_reference hr]
    exact setBit_shows s _ (by omega) _
  case ports =>
    rw [clockLost_ports hr hm]
    refine ⟨?_, fun k hk => ⟨?_, bit_portFallen _ hk⟩, ?_, ?_⟩
    · rw [bit, reg_portFallen_off _ (offPort_clkStat 2), reg_portFallen_off _ (offPort_clkStat 0)]
      exact bit_setBit_same _ _ _ (by omega)
    · rw [bit, reg_portFallen_off _ (offPort_ethLink (by omega))]
      exact bit_portFallen _ hk
    · rw [reg_portFallen_off _ (offPort_ethLink (by omega)), reg_portFallen_off _ (offPort_ethLink (by omega)), reg_setBit_other _ _ _ (by simp)]
    · rw [reg_portFallen_off _ (offPort_ethLink (by omega)), reg_portFallen_off _ (offPort_ethLink (by omega)), reg_setBit_other _ _ _ (by simp)]
  case present =>
    rw [if_neg (by rw [hr]; decide)]
    exact setBit_shows s _ (clockBit_lt c) _

end Sys2Proof.Machine
end

section
/-! Proof of HostWindowAndLayout: the BAR2 window by the bytes that it moves, and a layout by what its commit shows. -/

namespace Sys2Proof.Machine

open State

/-! ### The BAR2 window (R332) -/

section Window
variable {s : State} {off : Nat} {bytes : List (BitVec 8)}

theorem bar2Write_of_admitted (hm : s.mode ≠ 0)
    (hg : s.bit Reg.hbmCfg 0 = false ∨ spanAll (bar2Addr s off) bytes.length (inHost s) = true)
    (ht : bar2Addr s off + bytes.length ≤ s.hbmEnd) : bar2Write s off bytes = s.setMem (bar2Addr s off) bytes := by
  have hguard : (s.bit Reg.hbmCfg 0 && !(spanAll (bar2Addr s off) bytes.length (inHost s))) = false := by
    rcases hg with h | h <;> simp [h]
  simp only [bar2Write, hm, hguard, Nat.not_lt.2 ht, Bool.false_eq_true, if_false]

/-- A guarded write is counted. -/
def writeDropped (s : State) : State := (s.inc32 Reg.hbmBar2Wdrop).evt Pg.hbm 5

theorem bar2Write_of_guarded (hm : s.mode ≠ 0) (hg : s.bit Reg.hbmCfg 0 = true)
    (hs : spanAll (bar2Addr s off) bytes.length (inHost s) = false) : bar2Write s off bytes = writeDropped s := by
  simp only [bar2Write, hm, hg, hs, Bool.not_false, Bool.and_self, if_false, if_true]
  rfl

theorem writeDropped_sameRegsBut (s : State) : SameRegsBut [Reg.hbmBar2Wdrop, Pg.hbm + hEvt] s (writeDropped s) := by
  intro a ha
  simp only [List.mem_cons, List.not_mem_nil, or_false, not_or] at ha
  rw [writeDropped, reg_evt_other _ ha.2, reg_inc32_other _ ha.1]

theorem reg_writeDropped_count (h : s.reg Reg.hbmBar2Wdrop ≠ BitVec.allOnes 32) :
    (writeDropped s).reg Reg.hbmBar2Wdrop = s.reg Reg.hbmBar2Wdrop + 1 := by
  rw [writeDropped, reg_evt_other _ (by simp), reg_inc32 _ _ h]

/-- The answer of a read through the window. -/
def windowAnswer (s : State) (b : BusSt) : State := { s with bus := b }

theorem windowAnswer_same (s : State) (b : BusSt) : SameBut [.bus] s (windowAnswer s b) :=
  (Changes.set_bus rfl (.refl [.bus] s) b).same

theorem bar2Read_of_below {len : Nat} (hm : s.mode ≠ 0) (ht : bar2Addr s off + len ≤ s.hbmEnd) :
    bar2Read s off len = windowAnswer s ⟨s.memBytes (bar2Addr s off) len, .ok⟩ :=
  if_neg (by simp only [not_or]; exact ⟨hm, Nat.not_lt.2 ht⟩)

theorem bar2Read_of_above {len : Nat} (ht : s.hbmEnd < bar2Addr s off + len) : bar2Read s off len = windowAnswer s ⟨[], .error⟩ :=
  if_pos (.inr ht)

end Window

/-! ### Layouts (R330, R331) -/

section Layout
variable (s : State)

/-- A table with the entries of a list at 0, 1, and so on. -/
def listed {α : Type} [DecidableEq α] (d : Nat → α) (l : List α) (n : Nat) : Store α :=
  (l.zip (List.range n)).foldl (fun (m : Store α) e => Store.put d m e.2 e.1) []

theorem get_listed {α : Type} [DecidableEq α] (d : Nat → α) (l : List α) (x : α) {k : Nat} (hk : k < l.length) :
    Store.get d (listed d l l.length) k = l.getD k x := by
  induction l using List.reverseRecOn with
  | nil => cases hk
  | append_singleton l a ih =>
    have hlast : listed d (l ++ [a]) (l ++ [a]).length = Store.put d (listed d l l.length) l.length a := by
      rw [listed, List.length_append, List.length_singleton, List.range_succ, List.zip_append (by rw [List.length_range]), List.foldl_append]
      rfl
    rw [hlast, Store.get_put]
    split
    next h => rw [h, List.getD_append_right _ _ _ _ le_rfl, Nat.sub_self, List.getD_cons_zero]
    next h =>
      have hlt : k < l.length := by
        rw [List.length_append, List.length_singleton] at hk
        omega
      rw [ih hlt, List.getD_append _ _ _ _ hlt]

/-- The CFG words in use, region by region. -/
def layoutStore (l : List Word) : Store Word := listed (fun n => BitVec.ofNat 32 (regionReset n)) l 8

/-- The bases of the regions, in REG_n_BASE. -/
def basesShown (l : List Word) (t : State) : State :=
  (((List.range 8).map (fun n => sumN ((l.take n).map regionSize))).zip (List.range 8)).foldl
    (fun (t : State) e => t.setN (Reg.hbmRegBase e.2) e.1) t

/-- The state with a layout in use, before the registers show it. -/
def layoutHeld (l : List Word) : State := { s with hbm := { s.hbm with layout := layoutStore l } }

theorem useLayout_eq (l : List Word) : useLayout s l =
    (basesShown l ((layoutHeld s l).setF (Reg.hbmRegCfg 7) 29 16 (regionSize (l.getD 7 0)))).setN Reg.hbmTop (sumN (l.map regionSize)) := rfl

theorem basesShown_same (l : List Word) : SameBut [.regs] s (basesShown l s) :=
  (Changes.foldl (fun _ _ h => setN_changes rfl h _ _) (.refl [.regs] s)).same

theorem useLayout_same (l : List Word) : SameBut [.regs] (layoutHeld s l) (useLayout s l) :=
  (setN_changes rfl (Changes.foldl (fun _ _ h => setN_changes rfl h _ _) (setF_changes rfl (.refl [.regs] (layoutHeld s l)) _ _ _ _)) _ _).same

theorem useLayout_layout (l : List Word) : (useLayout s l).hbm.layout = layoutStore l :=
  congrArg Prod.fst (useLayout_same s l .hbm (by decide)).2

theorem memByte_useLayout (l : List Word) (a : Nat) : (useLayout s l).memByte a = s.memByte a := by
  obtain ⟨hmem, hgen⟩ := useLayout_same s l .mem (by decide)
  rw [memByte, hmem, hgen]
  rfl

/-- Registers outside the regions' words and TOP. -/
theorem reg_useLayout_other (l : List Word) {a : Nat} (htop : a ≠ Reg.hbmTop) (hcfg : a ≠ Reg.hbmRegCfg 7)
    (hbase : ∀ n, a ≠ Reg.hbmRegBase n) : (useLayout s l).reg a = s.reg a := by
  rw [useLayout_eq, reg_setN_other _ _ htop, basesShown]
  refine List.foldlRecOn (motive := fun t : State => t.reg a = s.reg a) _ _ ?_ fun t ht e _ => ?_
  · rw [reg_setF_other _ _ _ _ hcfg]
    rfl
  · rw [reg_setN_other _ _ (hbase e.2), ht]

theorem reg_useLayout_top (l : List Word) : (useLayout s l).reg Reg.hbmTop = BitVec.ofNat 32 (sumN (l.map regionSize)) := by
  rw [useLayout_eq, reg_setN_same]

/-- The layout in use is the one given, of eight regions. -/
theorem get_layoutStore {l : List Word} (hl : l.length = 8) {n : Nat} (hn : n < 8) :
    Store.get (fun n => BitVec.ofNat 32 (regionReset n)) (layoutStore l) n = l.getD n 0 := by
  rw [layoutStore, ← hl]
  exact get_listed _ l 0 (by omega)

theorem length_layoutOver (cfg : Nat → Word) (N : Nat) : (layoutOver cfg N).length = 8 := by
  simp [layoutOver]

/-- Entries below a bound read as before where the others are dropped. -/
theorem get_filter_below {α : Type} (d : Nat → α) (m : Store α) {b k : Nat} (h : k < b) :
    Store.get d (m.filter (fun e => decide (e.1 < b))) k = Store.get d m k := by
  induction m with
  | nil => rfl
  | cons e m ih =>
    obtain ⟨j, v⟩ := e
    by_cases hj : j < b
    · rw [List.filter_cons_of_pos (by simpa using hj), Store.get, Store.get, ih]
    · rw [List.filter_cons_of_neg (by simpa using hj), ih, Store.get, if_neg (by omega)]

/-- The value of an unlisted byte is 0 below the HOST regions. -/
theorem memDefault_below (g : Nat) {a : Nat} (h : a < 0x10000000) : memDefault g a = 0 := if_pos (.inr h)

theorem get_congr_default {α : Type} {d d' : Nat → α} (m : Store α) {k : Nat} (h : d k = d' k) : Store.get d m k = Store.get d' m k := by
  induction m with
  | nil => exact h
  | cons e m ih => rw [Store.get, Store.get, ih]

/-- SYSTEM keeps its bytes where the other regions become undefined. -/
theorem memByte_undefContents {a : Nat} (h : a < 0x10000000) : (undefContents s).memByte a = s.memByte a := by
  have hdef (g : Nat) : memDefault g a = memDefault s.hbm.gen a := (memDefault_below g h).trans (memDefault_below _ h).symm
  exact (get_filter_below _ _ h).trans (get_congr_default _ (hdef _))

theorem undefContents_reg (a : Nat) : (undefContents s).reg a = s.reg a := rfl

theorem regionCfg_undefContents (n : Nat) : regionCfg (undefContents s) n = regionCfg s n := rfl

end Layout

/-- A COMMIT that takes the layout of the staged words. -/
theorem hbmLayoutCommit_takes {s : State} (ha : s.answers Pg.hbm = true) (hm : s.mode = 1) (hp : anyChannelPlaced s = false)
    (hl : layoutFail s (layoutOver (fun n => s.reg (Reg.hbmRegCfg n)) (activePcs s)) = none) :
    hbmLayoutCommit s = undefContents (useLayout s (layoutOver (fun n => s.reg (Reg.hbmRegCfg n)) (activePcs s))) := by
  simp only [hbmLayoutCommit, ha, hm, hp, hl, Bool.not_true, ne_eq, not_true_eq_false, Bool.false_eq_true, or_self, if_false]

theorem hbmLayoutCommit_refuses {s : State} (ha : s.answers Pg.hbm = true) (h : s.mode ≠ 1 ∨ anyChannelPlaced s = true) :
    hbmLayoutCommit s = refuseLayout s 0x0803 1 := by
  simp only [hbmLayoutCommit, ha, h, Bool.not_true, Bool.false_eq_true, if_false, if_true]

/-- What an access that is not performed leaves, a read's answer beside. -/
theorem decodeErr_eq (s : State) (write : Bool) :
    decodeErr s write = if write then decodeErr s true else (decodeErr s true).answer [0] := by cases write <;> rfl

theorem decodeErr_reg (s : State) (write : Bool) (a : Nat) : (decodeErr s write).reg a = (decodeErr s true).reg a := by cases write <;> rfl

/-- Settles O43: the window by bar2Write and bar2Read, a layout by useLayout and undefContents, a bad access by decodeErr. -/
theorem hostWindowAndLayout : Obligations.HostWindowAndLayout := by
  unfold Obligations.HostWindowAndLayout
  refine ⟨fun off bytes s hm hg ht => ⟨_, rfl, ?write⟩, fun off bytes s hm hg hs => ⟨_, rfl, ?guarded⟩,
    fun off len s hm ht => ⟨_, rfl, ?read⟩, fun off len s ht => ⟨_, rfl, ?above⟩, fun s ha hm hp hl => ⟨_, rfl, ?commit⟩,
    fun s ha h => ⟨_, rfl, ?refused⟩, fun m offset size write s hb => ⟨_, rfl, ?decode⟩⟩
  case write =>
    rw [bar2Write_of_admitted hm hg ht]
    refine ⟨fun i hi => ?_, fun a ha => memByte_setMem_other _ _ ha, (setMem_changes rfl (.refl [.mem] s) _ _).same⟩
    rw [memByte_setMem_in _ _ _ hi, List.getD_eq_getElem _ _ hi]
  case guarded =>
    rw [bar2Write_of_guarded hm hg hs]
    exact ⟨fun a => rfl, bit_evt_same _ (by omega) _, writeDropped_sameRegsBut s, reg_writeDropped_count⟩
  case read =>
    rw [bar2Read_of_below hm ht]
    exact ⟨rfl, windowAnswer_same s _⟩
  case above =>
    rw [bar2Read_of_above ht]
    exact ⟨rfl, windowAnswer_same s _⟩
  case commit =>
    rw [hbmLayoutCommit_takes ha hm hp hl]
    generalize hover : layoutOver (fun n => s.reg (Reg.hbmRegCfg n)) (activePcs s) = l
    have hlen : l.length = 8 := hover ▸ length_layoutOver _ _
    have hlay := useLayout_same s l
    have hundef := (undefContents_changes rfl (.refl [.mem] (useLayout s l))).same
    refine ⟨fun n hn => ?_, reg_useLayout_top s l, fun a ha => ?_, ?_⟩
    · rw [regionCfg_undefContents, regionCfg, useLayout_layout, get_layoutStore hlen hn]
    · rw [memByte_undefContents _ ha, memByte_useLayout]
    · exact (hundef .faults (by decide)).trans (hlay .faults (by decide))
  case refused =>
    rw [hbmLayoutCommit_refuses ha h]
    refine ⟨?_, ?_, bit_evt_same _ (by omega) _, (refuseLayout_changes rfl (.refl [.regs] s) _ _).same⟩
    · rw [refuseLayout, reg_evt_other _ (by simp), reg_refuse]
      rfl
    · rw [refuseLayout, bit, reg_evt_other _ (by simp)]
      exact bit_refuse _ _ _ _ _
  case decode =>
    rw [if_pos hb]
    refine ⟨?_, fun a ha => (decodeErr_reg s write a).trans (decodeErr_sameRegsBut s a ha), fun hw => ?_, fun hcount => ?_⟩
    · rw [bit, decodeErr_reg, reg_decodeErr, if_pos rfl, getLsbD_putBit _ _ _ _ (by omega), if_pos rfl]
    · rw [hw]
      rfl
    · rw [decodeErr_reg, reg_decodeErr, if_neg (by simp), reg_inc32 _ _ hcount]

end Sys2Proof.Machine
end

section
/-! Proof of CheckValueScans: the registers that GO, the end of a scan and its stop write. -/

namespace Sys2Proof.Machine

open State

section Unit
variable {s : State} {n : Nat}

theorem reg_setCur_other (v : Nat) {a : Nat} (hlo : a ≠ Reg.cvuCurLo n) (hhi : a ≠ Reg.cvuCurHi n) : (setCur s n v).reg a = s.reg a := by
  rw [setCur, setReg64, reg_setReg_other _ _ hhi, reg_setReg_other _ _ hlo]

theorem setCur_cvu (v : Nat) : (setCur s n v).cvu = s.cvu := setReg64_cvu _ _ _ _

theorem setBusy_cvu (b : Bool) : (setBusy s n b).cvu = s.cvu := setBit_cvu _ _ _ _

theorem reg_setBusy_other (b : Bool) {a : Nat} (h : a ≠ Pg.cvu n + hStatus) : (setBusy s n b).reg a = s.reg a := reg_setBit_other _ _ _ h

theorem cvu_of_cvu {t : State} (h : t.cvu = s.cvu) : cvu t n = cvu s n := by rw [cvu, cvu, h]

/-- What an error shows (R372). -/
theorem bit_cvuErr : (cvuErr s n).bit (Reg.cvuSstat n) 1 = true ∧ (cvuErr s n).bit (Pg.cvu n + hEvt) 1 = true := by
  refine ⟨?_, bit_evt_same _ (by omega) _⟩
  rw [cvuErr, bit, reg_evt_other _ (by simp only [Reg.cvuSstat, Pg.cvu, hEvt]; omega)]
  exact bit_setBit_same _ _ _ (by omega)

theorem reg_cvuErr_other {a : Nat} (hs : a ≠ Reg.cvuSstat n) (he : a ≠ Pg.cvu n + hEvt) : (cvuErr s n).reg a = s.reg a := by
  rw [cvuErr, reg_evt_other _ he, reg_setBit_other _ _ _ hs]

theorem cvuErr_cvu : (cvuErr s n).cvu = s.cvu := by rw [cvuErr, evt_cvu, setBit_cvu]

/-! ### GO and ABORT (R357, R359, R360) -/

/-- A scan under way from START over LEN bytes. -/
def scanStarted (s : State) (n : Nat) : State :=
  setCvu (setBusy (s.setReg (Reg.cvuSstat n) 0) n true) n ⟨true, cvuStart s n, cvuLen s n, false⟩

theorem cvuGo_of_idle (ha : s.answers (Pg.cvu n) = true) (hb : (cvu s n).busy = false) (hl : 1 ≤ cvuLen s n)
    (ht : cvuStart s n + cvuLen s n ≤ s.hbmEnd) :
    cvuGo s n true = setCur (scanStarted s n) n (cvuVal s n (Reg.cvuInitLo n) (Reg.cvuInitHi n)) := by
  simp only [cvuGo, ha, hb, Nat.pos_iff_ne_zero.1 hl, Nat.not_lt.2 ht, Bool.not_true, Bool.false_eq_true, if_false, if_true]
  rfl

theorem cvuGo_of_busy (ha : s.answers (Pg.cvu n) = true) (hb : (cvu s n).busy = true) (loadInit : Bool) :
    cvuGo s n loadInit = cvuErr s n := by
  simp only [cvuGo, ha, hb, Bool.not_true, Bool.false_eq_true, if_false, if_true]

theorem cvuAbort_of_busy (ha : s.answers (Pg.cvu n) = true) (hb : (cvu s n).busy = true) :
    cvuAbort s n = setCvu s n { cvu s n with abort := true } := by
  rw [cvuAbort, ha, hb]
  rfl

/-! ### The end of a scan (R357, R359) -/

/-- The running value and the result of a scan that is complete. -/
def scanResult (s : State) (n : Nat) : State :=
  (setCur s n (cvuRun s n (cvu s n).start (cvu s n).len)).setReg64 (Reg.cvuResultLo n) (Reg.cvuResultHi n)
    (BitVec.ofNat 64 (crcOut (cvuW s n) (cvuVal s n (Reg.cvuXoroutLo n) (Reg.cvuXoroutHi n)) (s.bit (Reg.cvuCfg n) 9)
      (cvuRun s n (cvu s n).start (cvu s n).len)))

/-- The unit is idle again. -/
def scanOver (s : State) (n : Nat) : State := setBusy (setCvu s n CvuSt.init) n false

/-- The unit after a scan that is complete: idle, DONE and event 0. -/
def scanDone (s : State) (n : Nat) : State := ((scanOver (scanResult s n) n).setBit (Reg.cvuSstat n) 0 true).evt (Pg.cvu n) 0

theorem cvuScanDone_of_busy (hb : (cvu s n).busy = true) :
    cvuScanDone s n = scanDone s n := by
  simp only [cvuScanDone, hb]
  rfl

/-- The running value up to `p`, NEXT and LEFT of a scan that stops there. -/
def scanLeft (s : State) (n p : Nat) : State :=
  ((setCur s n (cvuRun s n (cvu s n).start (p - (cvu s n).start))).setReg64 (Reg.cvuNextLo n) (Reg.cvuNextHi n)
    (BitVec.ofNat 64 p)).setReg64 (Reg.cvuLeftLo n) (Reg.cvuLeftHi n) (BitVec.ofNat 64 ((cvu s n).start + (cvu s n).len - p))

theorem cvuScanStopped_of_error (hb : (cvu s n).busy = true) (count : Nat) :
    cvuScanStopped s n count true = cvuErr (scanOver (scanLeft s n (stopAt (cvu s n) count true)) n) n := by
  simp only [cvuScanStopped, hb]
  rfl

theorem reg_scanOver_other {a : Nat} (h : a ≠ Pg.cvu n + hStatus) : (scanOver s n).reg a = s.reg a := by
  rw [scanOver, reg_setBusy_other _ h, setCvu_reg]

theorem cvu_scanOver : (cvu (scanOver s n) n).busy = false := by
  rw [scanOver, cvu_of_cvu (setBusy_cvu _), setCvu_cvu_same]
  rfl

/-- Two words of a pair that read the same. -/
theorem reg64_congr {t : State} {lo hi : Nat} (hlo : t.reg lo = s.reg lo) (hhi : t.reg hi = s.reg hi) : t.reg64 lo hi = s.reg64 lo hi := by
  rw [reg64, reg64, hlo, hhi]

theorem reg64_setCur (v : Nat) : (setCur s n v).reg64 (Reg.cvuCurLo n) (Reg.cvuCurHi n) = BitVec.ofNat 64 v :=
  reg64_setReg64 s (by simp only [Reg.cvuCurLo, Reg.cvuCurHi]; omega) _

theorem reg_setReg64_other {lo hi a : Nat} (v : BitVec 64) (hlo : a ≠ lo) (hhi : a ≠ hi) : (s.setReg64 lo hi v).reg a = s.reg a := by
  rw [setReg64, reg_setReg_other _ _ hhi, reg_setReg_other _ _ hlo]

/-- A unit's data registers, which its status and its events leave. -/
structure CvuData (n a : Nat) : Prop where
  sstat : a ≠ Reg.cvuSstat n
  evt : a ≠ Pg.cvu n + hEvt
  status : a ≠ Pg.cvu n + hStatus

theorem cvuData_of_mem {a : Nat} (h : a ∈ [Reg.cvuCurLo n, Reg.cvuCurHi n, Reg.cvuResultLo n, Reg.cvuResultHi n, Reg.cvuNextLo n, Reg.cvuNextHi n]) :
    CvuData n a := by
  simp only [List.mem_cons, List.not_mem_nil, or_false, Reg.cvuCurLo, Reg.cvuCurHi, Reg.cvuResultLo, Reg.cvuResultHi, Reg.cvuNextLo,
    Reg.cvuNextHi] at h
  constructor <;> simp only [Pg.cvu, Reg.cvuSstat, hEvt, hStatus] <;> omega

theorem reg64_scanResult_cur : (scanResult s n).reg64 (Reg.cvuCurLo n) (Reg.cvuCurHi n) =
    BitVec.ofNat 64 (cvuRun s n (cvu s n).start (cvu s n).len) :=
  (reg64_congr (reg_setReg64_other _ (by simp only [Reg.cvuCurLo, Reg.cvuResultLo]; omega) (by simp only [Reg.cvuCurLo, Reg.cvuResultHi]; omega))
    (reg_setReg64_other _ (by simp only [Reg.cvuCurHi, Reg.cvuResultLo]; omega)
      (by simp only [Reg.cvuCurHi, Reg.cvuResultHi]; omega))).trans (reg64_setCur _)

theorem reg64_scanLeft_next (p : Nat) : (scanLeft s n p).reg64 (Reg.cvuNextLo n) (Reg.cvuNextHi n) = BitVec.ofNat 64 p :=
  (reg64_congr (reg_setReg64_other _ (by simp only [Reg.cvuNextLo, Reg.cvuLeftLo]; omega) (by simp only [Reg.cvuNextLo, Reg.cvuLeftHi]; omega))
    (reg_setReg64_other _ (by simp only [Reg.cvuNextHi, Reg.cvuLeftLo]; omega)
      (by simp only [Reg.cvuNextHi, Reg.cvuLeftHi]; omega))).trans (reg64_setReg64 _ (by simp only [Reg.cvuNextLo, Reg.cvuNextHi]; omega) _)

/-- The end of a scan leaves the unit's data registers as the result does. -/
theorem reg_scanDone_data {a : Nat} (ha : CvuData n a) :
    (scanDone s n).reg a = (scanResult s n).reg a := by
  rw [scanDone, reg_evt_other _ ha.evt, reg_setBit_other _ _ _ ha.sstat, reg_scanOver_other ha.status]

theorem reg_scanStopped_data (t : State) {a : Nat} (ha : CvuData n a) : (cvuErr (scanOver t n) n).reg a = t.reg a := by
  rw [reg_cvuErr_other ha.sstat ha.evt, reg_scanOver_other ha.status]

theorem busy_scanDone : (cvu (scanDone s n) n).busy = false := by
  rw [scanDone, cvu_of_cvu ((evt_cvu _ _ _).trans (setBit_cvu _ _ _ _)), cvu_scanOver]

theorem bit_scanDone : (scanDone s n).bit (Reg.cvuSstat n) 0 = true ∧ (scanDone s n).bit (Pg.cvu n + hEvt) 0 = true := by
  refine ⟨?_, bit_evt_same _ (by omega) _⟩
  rw [scanDone, bit, reg_evt_other _ (by simp only [Reg.cvuSstat, Pg.cvu, hEvt]; omega)]
  exact bit_setBit_same _ _ _ (by omega)

theorem reg64_scanDone_cur : (scanDone s n).reg64 (Reg.cvuCurLo n) (Reg.cvuCurHi n) = BitVec.ofNat 64 (cvuRun s n (cvu s n).start (cvu s n).len) := by
  rw [reg64_congr (reg_scanDone_data (cvuData_of_mem (by simp))) (reg_scanDone_data (cvuData_of_mem (by simp))), reg64_scanResult_cur]

theorem reg64_scanDone_result : (scanDone s n).reg64 (Reg.cvuResultLo n) (Reg.cvuResultHi n) =
    BitVec.ofNat 64 (crcOut (cvuW s n) (cvuVal s n (Reg.cvuXoroutLo n) (Reg.cvuXoroutHi n)) (s.bit (Reg.cvuCfg n) 9)
      (cvuRun s n (cvu s n).start (cvu s n).len)) := by
  rw [reg64_congr (reg_scanDone_data (cvuData_of_mem (by simp))) (reg_scanDone_data (cvuData_of_mem (by simp)))]
  exact reg64_setReg64 _ (by simp only [Reg.cvuResultLo, Reg.cvuResultHi]; omega) _

theorem reg64_scanStopped_next (p : Nat) :
    (cvuErr (scanOver (scanLeft s n p) n) n).reg64 (Reg.cvuNextLo n) (Reg.cvuNextHi n) = BitVec.ofNat 64 p := by
  rw [reg64_congr (reg_scanStopped_data _ (cvuData_of_mem (by simp))) (reg_scanStopped_data _ (cvuData_of_mem (by simp))), reg64_scanLeft_next]

end Unit

/-- Settles O46: GO, the end of a scan and its stop by the registers that each writes. -/
theorem checkValueScans : Obligations.CheckValueScans := by
  unfold Obligations.CheckValueScans
  refine ⟨fun n s ha hb hl ht => ⟨_, rfl, ?go⟩, fun n loadInit s ha hb => ⟨_, rfl, ?goBusy⟩, fun n s ha hb => ⟨_, rfl, ?abort⟩,
    fun n s hb => ⟨_, rfl, ?done⟩, fun n count s hb => ⟨_, rfl, ?stopped⟩⟩
  case go =>
    have hsame := (cvuGo_changes rfl (.refl [.regs, .cvu] s) n true).same
    rw [cvuGo_of_idle ha hb hl ht] at hsame ⊢
    refine ⟨?_, ?_, ?_, reg64_setCur _, hsame⟩
    · rw [cvu_of_cvu (setCur_cvu _), scanStarted, setCvu_cvu_same]
    · rw [reg_setCur_other _ (by simp only [Reg.cvuSstat, Reg.cvuCurLo]; omega) (by simp only [Reg.cvuSstat, Reg.cvuCurHi]; omega),
        scanStarted, setCvu_reg, reg_setBusy_other _ (by simp only [Reg.cvuSstat, Pg.cvu, hStatus]; omega), reg_setReg_same]
    · rw [bit, reg_setCur_other _ (by simp only [Pg.cvu, hStatus, Reg.cvuCurLo]; omega) (by simp only [Pg.cvu, hStatus, Reg.cvuCurHi]; omega),
        scanStarted, setCvu_reg]
      exact bit_setBit_same _ _ _ (by omega)
  case goBusy =>
    rw [cvuGo_of_busy ha hb]
    obtain ⟨hstat, hevt⟩ := bit_cvuErr (s := s) (n := n)
    refine ⟨cvu_of_cvu cvuErr_cvu, hstat, hevt, fun a hmem => ?_⟩
    simp only [List.mem_cons, List.not_mem_nil, or_false, not_or] at hmem
    exact reg_cvuErr_other hmem.1 hmem.2
  case abort =>
    rw [cvuAbort_of_busy ha hb]
    exact ⟨setCvu_cvu_same _ _ _, (setCvu_changes rfl (.refl [.cvu] s) _ _).same⟩
  case done =>
    have hsame := (cvuScanDone_changes rfl (.refl [.regs, .cvu] s) n).same
    rw [cvuScanDone_of_busy hb] at hsame ⊢
    exact ⟨busy_scanDone, bit_scanDone.1, bit_scanDone.2, reg64_scanDone_cur, reg64_scanDone_result, hsame⟩
  case stopped =>
    have hsame := (cvuScanStopped_changes rfl (.refl [.regs, .cvu] s) n count true).same
    rw [cvuScanStopped_of_error hb] at hsame ⊢
    obtain ⟨hstat, hevt⟩ := bit_cvuErr (s := scanOver (scanLeft s n (stopAt (cvu s n) count true)) n) (n := n)
    refine ⟨?_, hstat, hevt, ?_, hsame⟩
    · rw [cvu_of_cvu cvuErr_cvu, cvu_scanOver]
    · exact reg64_scanStopped_next _

end Sys2Proof.Machine
end

section
/-! Proof of DriftRetrainingAndRetirement: what tracking, a retraining and a retirement do to a controller's registers. -/

namespace Sys2Proof.Machine

open State

section Tracking
variable {s : State} {c : Nat}

/-! ### The trim (R340) -/

/-- A trim smaller than 8 in size is its own two's complement. -/
theorem satInt_of_small {v : Int} (h : v.natAbs < 8) : satInt 8 v = (v % 256).toNat := by
  have hc : clampI v (-(2 ^ (8 - 1) : Nat)) ((2 ^ (8 - 1) : Nat) - 1) = v := by
    unfold clampI
    omega
  rw [satInt, hc]
  rfl

theorem trimTo_same (old trim : Int) : (trimTo old true trim - old).natAbs ≤ 1 := by
  rw [trimTo, if_pos rfl, clampI]
  omega

theorem natAbs_trimTo_other (old trim : Int) :
    (trimTo old false trim).natAbs ≤ old.natAbs + 1 ∧ old.natAbs ≤ (trimTo old false trim).natAbs + 1 := by
  simp only [trimTo, Bool.false_eq_true, if_false, clampI]
  split <;> omega

theorem trimTo_moves_one_step (old : Int) (same : Bool) (trim : Int) :
    (trimTo old same trim).natAbs ≤ old.natAbs + 1 ∧ old.natAbs ≤ (trimTo old same trim).natAbs + 1 := by
  cases same with
  | true =>
    have := trimTo_same old trim
    omega
  | false => exact natAbs_trimTo_other old trim

/-- A window's trim, written. -/
def trimmed (s : State) (c : Nat) (v : Int) (pin : Nat) : State := s.setN (Reg.pchTrim c) (satInt 8 v + pin * 0x100)

theorem trackingWindow_eq {trim v : Int} {pin : Nat} (hm : s.mode = 2 ∨ s.mode = 3) (hp : pchSt s c = 1) (ho : owed s c = 0)
    (hv : v = trimTo ((s.reg (Reg.pchTrim c)).setWidth 8 : BitVec 8).toInt (decide (s.getF (Reg.pchTrim c) 15 8 = pin)) trim) :
    trackingWindow s c trim pin = if 8 ≤ v.natAbs then drift (trimmed s c v pin) c else trimmed s c v pin := by
  rw [trackingWindow, if_pos ⟨hm, hp, ho⟩, hv]
  rfl

theorem pchSt_congr {t : State} (h : t.reg (Reg.pchPstate c) = s.reg (Reg.pchPstate c)) : pchSt t c = pchSt s c := by
  rw [pchSt, pchSt, getF, getF, h]

theorem pchSt_trimmed (v : Int) (pin : Nat) : pchSt (trimmed s c v pin) c = pchSt s c :=
  pchSt_congr (reg_setN_other _ _ (by simp only [Reg.pchPstate, Reg.pchTrim]; omega))

theorem pchSt_setPchSt {v : Nat} (h : v < 8) : pchSt (setPchSt s c v) c = v := by
  rw [pchSt, setPchSt, getF_setF_same _ _ _ (by omega) (by omega)]
  exact Nat.mod_eq_of_lt h

theorem reg_setPchSt_other (v : Nat) {a : Nat} (h : a ≠ Reg.pchPstate c) : (setPchSt s c v).reg a = s.reg a := reg_setF_other _ _ _ _ h

/-- What a controller that becomes DRIFTING shows (R341). -/
theorem drift_of_active (h : pchSt s c = 1) :
    pchSt (drift s c) c = 4 ∧ (drift s c).bit (Pg.hbm + hEvt) 0 = true ∧ (drift s c).bit (Pg.pch c + hEvt) 6 = true ∧
      (drift s c).reg (Reg.pchTrim c) = s.reg (Reg.pchTrim c) ∧
      (drift s c).faults = s.faults ++ [⟨0x3002, Pg.pch c / 0x1000, c, (s.reg (Reg.pchTrim c)).toNat, s.stp.timeNs⟩] := by
  have hd : drift s c = (((setPchSt s c 4).evt Pg.hbm 0).evt (Pg.pch c) 6).raise 0x3002 (Pg.pch c) c (s.reg (Reg.pchTrim c)).toNat :=
    if_pos (by omega)
  rw [hd]
  refine ⟨?_, ?_, bit_evt_same _ (by omega) _, ?_, rfl⟩
  · refine Eq.trans (pchSt_congr ?_) (pchSt_setPchSt (s := s) (v := 4) (by omega))
    rw [reg_raise, reg_evt_other _ (by simp only [Reg.pchPstate, Pg.pch, hEvt]; omega),
      reg_evt_other _ (by simp only [Reg.pchPstate, Pg.hbm, hEvt]; omega)]
  · rw [bit, reg_raise, reg_evt_other _ (by simp only [Pg.hbm, Pg.pch, hEvt]; omega)]
    exact bit_evt_same _ (by omega) _
  · rw [reg_raise, reg_evt_other _ (by simp only [Reg.pchTrim, Pg.pch, hEvt]; omega),
      reg_evt_other _ (by simp only [Reg.pchTrim, Pg.hbm, hEvt]; omega), reg_setPchSt_other _ (by simp only [Reg.pchTrim, Reg.pchPstate]; omega)]

end Tracking

/-! ### The next retraining and the request that is served (R342) -/

section Retraining
variable {s : State} {c : Nat}

theorem of_firstThat {α : Type} {p : α → Bool} {l : List α} {a : α} (h : firstThat p l = some a) : p a = true := by
  induction l with
  | nil => exact absurd h (by simp [firstThat])
  | cons b l ih =>
    rw [firstThat] at h
    split at h
    next hb => exact Option.some.inj h ▸ hb
    next => exact ih h

/-- The next retraining leaves every register, unless a DRIFTING controller starts to retrain. -/
theorem nextRetrain_cases (s : State) : nextRetrain s = s ∨ ∃ c, pchSt s c = 4 ∧ nextRetrain s = setPchSt s c 5 := by
  unfold nextRetrain
  split
  next => exact .inl rfl
  next =>
    split
    next c hc => exact .inr ⟨c, of_decide_eq_true (of_firstThat (p := fun c => decide (pchSt s c = 4)) hc), rfl⟩
    next => exact .inl rfl

theorem reg_nextRetrain {a : Nat} (h : ∀ c, pchSt s c = 4 → a ≠ Reg.pchPstate c) : (nextRetrain s).reg a = s.reg a := by
  rcases nextRetrain_cases s with e | ⟨c, hc, e⟩
  · rw [e]
  · rw [e, reg_setPchSt_other _ (h c hc)]

theorem reg_settleDrift {a : Nat} (h : a ≠ Reg.watchRecoverReq) : (settleDrift s).reg a = s.reg a := by
  unfold settleDrift
  split
  next => rfl
  next => exact reg_setBit_other _ _ _ h

/-- The state after a controller's retraining has ended: the next one starts, or the request is served. -/
def retrainEnded (s : State) : State := settleDrift (nextRetrain s)

theorem retrainEnded_same : SameBut [.regs] s (retrainEnded s) :=
  (settleDrift_changes rfl (nextRetrain_changes rfl (.refl [.regs] s))).same

/-- Registers that are no controller's state keep through the start of the next retraining. -/
theorem reg_retrainEnded {a : Nat} (hr : a ≠ Reg.watchRecoverReq) (h : ∀ c, a ≠ Reg.pchPstate c) : (retrainEnded s).reg a = s.reg a := by
  rw [retrainEnded, reg_settleDrift hr, reg_nextRetrain fun c _ => h c]

/-- So does the state of a controller that does not drift. -/
theorem pchSt_retrainEnded (h : pchSt s c ≠ 4) (hc : c < 32) : pchSt (retrainEnded s) c = pchSt s c := by
  refine pchSt_congr ?_
  rw [retrainEnded, reg_settleDrift (by simp only [Reg.pchPstate, Reg.watchRecoverReq]; omega), reg_nextRetrain fun d hd hcd => ?_]
  have : c = d := by
    simp only [Reg.pchPstate] at hcd
    omega
  exact h (this ▸ hd)

end Retraining

/-! ### Retirement (R343, R344) -/

section Retirement
variable {s : State} {c : Nat}

/-- A controller's registers as RETIRED, before the layout is made anew. -/
def withdrawn (s : State) (c : Nat) : State := setPchSt ((s.setBit Reg.hbmActive c false).setBit Reg.hbmRetired c true) c 7

/-- The Allotter has to fit its channels anew. -/
def fitAgain (s : State) : State := { s with eng := { s.eng with fitDue := true } }

theorem reg_fitAgain (a : Nat) : (fitAgain s).reg a = s.reg a := rfl

/-- The layout over the controllers that remain. -/
def relaid (s : State) (c : Nat) : State :=
  fitAgain (useLayout (setPch (withdrawn s c) c PchSt.init) (layoutOver (regionCfg s) (activePcs (setPch (withdrawn s c) c PchSt.init))))

theorem retirePc_eq (s : State) (c : Nat) :
    retirePc s c = (((relaid s c).evt Pg.hbm 1).raise 0x3003 (Pg.pch c) c 0).setCause 2 := rfl

/-- Registers that show a controller's retirement. -/
def ShowsRetired (c a : Nat) : Prop := a = Reg.pchPstate c ∨ a = Reg.hbmActive ∨ a = Reg.hbmRetired

theorem ShowsRetired.ne_evt {a : Nat} (h : ShowsRetired c a) : a ≠ Pg.hbm + hEvt := by
  rcases h with rfl | rfl | rfl <;> simp only [Reg.pchPstate, Reg.hbmActive, Reg.hbmRetired, Pg.hbm, hEvt] <;> omega

theorem reg_relaid {a : Nat} (h : ShowsRetired c a) : (relaid s c).reg a = (withdrawn s c).reg a := by
  rw [relaid, reg_fitAgain, reg_useLayout_other, setPch_reg]
  · rcases h with rfl | rfl | rfl <;> simp only [Reg.pchPstate, Reg.hbmActive, Reg.hbmRetired, Reg.hbmTop] <;> omega
  · rcases h with rfl | rfl | rfl <;> simp only [Reg.pchPstate, Reg.hbmActive, Reg.hbmRetired, Reg.hbmRegCfg] <;> omega
  · rcases h with rfl | rfl | rfl <;> simp only [Reg.pchPstate, Reg.hbmActive, Reg.hbmRetired, Reg.hbmRegBase] <;> omega

theorem reg_retirePc {a : Nat} (h : ShowsRetired c a) (hc : c < 32) : (retirePc s c).reg a = (withdrawn s c).reg a := by
  rw [retirePc_eq, reg_setCause, reg_raise, reg_evt_other _ h.ne_evt]
  · exact reg_relaid h
  · simp only [List.mem_cons, List.not_mem_nil, or_false, not_or]
    rcases h with rfl | rfl | rfl <;>
      simp only [Reg.pchPstate, Reg.hbmActive, Reg.hbmRetired, Reg.watchDegrCause, Reg.watchMode, Reg.watchGuarantee, Pg.watch, Pg.dev, hEvt] <;> omega

/-- The controller is RETIRED: its state, and out of ACTIVE. -/
def Retired (c : Nat) (t : State) : Prop := pchSt t c = 7 ∧ t.bit Reg.hbmActive c = false ∧ t.bit Reg.hbmRetired c = true

theorem Retired.of_reg {t : State} (ht : Retired c t) (h : ∀ a, ShowsRetired c a → s.reg a = t.reg a) : Retired c s := by
  obtain ⟨hp, ha, hr⟩ := ht
  refine ⟨(pchSt_congr (h _ (.inl rfl))).trans hp, ?_, ?_⟩
  · rw [bit, h _ (.inr (.inl rfl))]
    exact ha
  · rw [bit, h _ (.inr (.inr rfl))]
    exact hr

theorem retired_withdrawn (hc : c < 32) : Retired c (withdrawn s c) := by
  refine ⟨pchSt_setPchSt (by omega), ?_, ?_⟩
  · rw [withdrawn, bit, reg_setPchSt_other _ (by simp only [Reg.hbmActive, Reg.pchPstate]; omega), reg_setBit_other _ _ _ (by decide)]
    exact bit_setBit_same _ _ _ hc
  · rw [withdrawn, bit, reg_setPchSt_other _ (by simp only [Reg.hbmRetired, Reg.pchPstate]; omega)]
    exact bit_setBit_same _ _ _ hc

theorem retired_retirePc (hc : c < 32) : Retired c (retirePc s c) :=
  (retired_withdrawn hc).of_reg fun _ ha => reg_retirePc ha hc

theorem Retired.retrainEnded (h : Retired c s) (hc : c < 32) : Retired c (retrainEnded s) := by
  obtain ⟨hp, ha, hr⟩ := h
  refine ⟨(pchSt_retrainEnded (by omega) hc).trans hp, ?_, ?_⟩
  · rw [bit, reg_retrainEnded (by decide) fun d => by simp only [Reg.hbmActive, Reg.pchPstate]; omega]
    exact ha
  · rw [bit, reg_retrainEnded (by decide) fun d => by simp only [Reg.hbmRetired, Reg.pchPstate]; omega]
    exact hr

/-- HBM's events keep through the start of the next retraining. -/
theorem hbmEvt_retrainEnded (i : Nat) : (retrainEnded s).bit (Pg.hbm + hEvt) i = s.bit (Pg.hbm + hEvt) i := by
  rw [bit, bit, reg_retrainEnded (by decide) fun d => by simp only [Pg.hbm, hEvt, Reg.pchPstate]; omega]

theorem hbmEvt_retirePc : (retirePc s c).bit (Pg.hbm + hEvt) 1 = true := by
  rw [retirePc_eq, bit, reg_setCause _ _ _ (by simp), reg_raise]
  exact bit_evt_same _ (by omega) _

/-- A retirement keeps what every address holds (R343). -/
theorem sameMemory_retirement : SameMemory s (retrainEnded (retirePc s c)) :=
  sameMemory_of_same ((settleDrift_changes rfl (nextRetrain_changes rfl
    (retirePc_changes rfl (.refl [.regs, .eng, .hbm, .faults] s) c))).same .mem (by decide))

theorem losePc_eq (s : State) (c : Nat) :
    losePc s c = (((retirePc (restartAll (undefContents s)) c).evt Pg.hbm 2).evt Pg.hbm 3).raise 0x3004 (Pg.pch c) c 0 := rfl

theorem retired_losePc (hc : c < 32) : Retired c (losePc s c) := by
  rw [losePc_eq]
  exact (retired_retirePc hc).of_reg fun a ha => by rw [reg_raise, reg_evt_other _ ha.ne_evt, reg_evt_other _ ha.ne_evt]

theorem hbmEvt_losePc : (losePc s c).bit (Pg.hbm + hEvt) 3 = true := by
  rw [losePc_eq, bit, reg_raise]
  exact bit_evt_same _ (by omega) _

/-! ### The commands -/

/-- A controller back in ACTIVE with a trim of 0. -/
def retrained (s : State) (c : Nat) : State := (setPchSt s c 1).setReg (Reg.pchTrim c) 0

theorem pchSt_retrained : pchSt (retrained s c) c = 1 :=
  (pchSt_congr (reg_setReg_other _ _ (by simp only [Reg.pchPstate, Reg.pchTrim]; omega))).trans (pchSt_setPchSt (by omega))

theorem retrained_same : SameBut [.regs] s (retrained s c) :=
  (setReg_changes rfl (setPchSt_changes rfl (.refl [.regs] s) _ _) _ _).same

theorem retrainComplete_ok (hr : recovering s = true) (hp : pchSt s c = 5) (salvage : Bool) :
    retrainComplete s c true salvage = retrainEnded (retrained s c) := by
  rw [retrainComplete, if_pos ⟨hr, hp⟩, if_pos rfl]
  rfl

theorem retrainComplete_salvage (hr : recovering s = true) (hp : pchSt s c = 5) : retrainComplete s c false true = setPchSt s c 6 := by
  rw [retrainComplete, if_pos ⟨hr, hp⟩]
  rfl

theorem retrainComplete_lost (hr : recovering s = true) (hp : pchSt s c = 5) :
    retrainComplete s c false false = retrainEnded (losePc s c) := by
  rw [retrainComplete, if_pos ⟨hr, hp⟩]
  rfl

theorem hbmPcRetired_of_salvage (hr : recovering s = true) (hp : pchSt s c = 6) : hbmPcRetired s c = retrainEnded (retirePc s c) :=
  if_pos ⟨hp, hr⟩

end Retirement

/-- Settles O45: the trim's steps, the end of a retraining by its three outcomes, and retirement's own registers. -/
theorem driftRetrainingAndRetirement : Obligations.DriftRetrainingAndRetirement := by
  unfold Obligations.DriftRetrainingAndRetirement
  refine ⟨fun c trim v pin s hm hp ho hv hsmall => ⟨_, rfl, ?window⟩,
    fun old trim same => ⟨(trimTo_moves_one_step old same trim).1, (trimTo_moves_one_step old same trim).2, fun h => h ▸ trimTo_same old trim⟩,
    fun c trim v pin s hm hp ho hv hbig => ⟨_, rfl, ?drift⟩, fun c salvage s hr hp => ⟨_, rfl, ?complete⟩,
    fun c s hr hp => ⟨_, rfl, ?salvage⟩, fun c s hr hp => ⟨_, rfl, ?lost⟩, fun c s hr hp => ⟨_, rfl, ?retired⟩⟩
  case window =>
    rw [trackingWindow_eq hm hp ho hv, if_neg (by omega), trimmed, satInt_of_small hsmall]
    exact ⟨reg_setN_same _ _ _, setReg_sameRegsBut _ _ _, (setN_changes rfl (.refl [.regs] s) _ _).same⟩
  case drift =>
    rw [trackingWindow_eq hm hp ho hv, if_pos hbig]
    obtain ⟨hst, hhbm, hpch, htrim, hfaults⟩ := drift_of_active ((pchSt_trimmed v pin.toNat).trans hp)
    exact ⟨hst, hhbm, hpch, htrim ▸ hfaults⟩
  case complete =>
    rw [retrainComplete_ok hr hp]
    refine ⟨?_, ?_, ?_⟩
    · rw [pchSt_retrainEnded (by rw [pchSt_retrained]; omega) c.isLt, pchSt_retrained]
    · rw [reg_retrainEnded (by simp only [Reg.pchTrim, Reg.watchRecoverReq]; omega) fun d => by simp only [Reg.pchTrim, Reg.pchPstate]; omega,
        retrained, reg_setReg_same]
    · exact (retrainEnded_same .faults (by decide)).trans (retrained_same .faults (by decide))
  case salvage =>
    rw [retrainComplete_salvage hr hp]
    exact ⟨pchSt_setPchSt (by omega), setReg_sameRegsBut _ _ _, (setPchSt_changes rfl (.refl [.regs] s) _ _).same⟩
  case lost =>
    rw [retrainComplete_lost hr hp]
    obtain ⟨hst, hact, hret⟩ := (retired_losePc (s := s) c.isLt).retrainEnded c.isLt
    exact ⟨hst, hact, hret, (hbmEvt_retrainEnded 3).trans hbmEvt_losePc⟩
  case retired =>
    rw [hbmPcRetired_of_salvage hr hp]
    obtain ⟨hst, hact, hret⟩ := (retired_retirePc (s := s) c.isLt).retrainEnded c.isLt
    exact ⟨hst, hact, hret, (hbmEvt_retrainEnded 1).trans hbmEvt_retirePc, sameMemory_retirement⟩

end Sys2Proof.Machine
end
